-- ==== Sys2Proof/Word.lean ====
section
/-! DEFINITION. The word types of the Celrel and their plainest arithmetic (00_scope.md R1, R2, 04_numbers.md R69). -/
namespace Sys2Proof

/-- One byte. -/
abbrev Byte := BitVec 8

/-- A 32-bit word: a scalar register, a lane of a vector register, a mask, an instruction word. -/
abbrev Word := BitVec 32

/-- A 64-bit value: a scalar pair, a computed address, a 64-bit field of a structure. -/
abbrev DWord := BitVec 64

end Sys2Proof
end

