-- ==== Sys2Proof/Config.lean ====
section
/-! DEFINITION. What the spec leaves open: free values (functions without a body, so that no proof can see a value), and
the constants the spec fixes for every package (01_machine.md R11, R14, R20). -/
namespace Sys2Proof.Config

/-- The n-th free value, a natural number: every place where the spec leaves a value or an order open takes a fresh n
from the state's own counter `free` (DESIGN CHOICE, log entry 2). -/
opaque freeNat : Nat → Nat

/-- The n-th free byte (contents the spec leaves unspecified, log entry 2). -/
opaque freeByte : Nat → BitVec 8

/-- The n-th free word (contents the spec leaves unspecified, log entry 2). -/
opaque freeWord : Nat → BitVec 32

/-- The pseudo-channel of a stack that serves a physical address; the spec gives no map (log entry 18). -/
opaque channelOf : Nat → Nat

/-- The hash that picks a home slice from a context and a line, and the cluster of an interleaved line; the spec gives
neither function (01_machine.md R16, log entry 18). -/
opaque sliceHash : Nat → Nat → Nat
opaque interleave : Nat → Nat → Nat

/-- The memory port nearest a host port; the spec does not name it (09_extents.md R180, log entry 22). -/
opaque hostEntry : Nat → Nat

/-- Whether code that no kernel of the loader's covers is a matrix kernel: the loader finds it and no structure of the spec carries it to the
device (19_matrix.md R334, log entry 52). -/
opaque matrixKernel : Nat → Nat → Bool

/-- The response of the package's physically unclonable function after error correction, the same at every boot; what Falcon-1024 makes of a
seed and a message, its key pair being a function of the seed; and the bytes of the current configuration, a
function of the loaded image, whose form the spec does not give
(23_platform.md R401, log entry 59). -/
opaque pufResponse : List (BitVec 8)
opaque falconSign : List (BitVec 8) → List (BitVec 8) → List (BitVec 8)
opaque settings : List (BitVec 8) → List (BitVec 8)

/-- Bytes of HBM: 512 × 10^9 (09_extents.md R179). -/
def hbmBytes : Nat := 0x7735940000

/-- First physical address of host memory, PA[51] = 1 (09_extents.md R179). -/
def hostBase : Nat := 0x8000000000000

/-- First address beyond the 52-bit physical space. -/
def paEnd : Nat := 0x10000000000000

/-- Bytes of a cluster's store: 32 MiB (01_machine.md R11). -/
def cstBytes : Nat := 0x2000000

/-- Bytes of an L2 slice: 1 MiB, 64 slices and 64 MiB per cluster (01_machine.md R11, R20). -/
def l2SliceBytes : Nat := 0x100000

/-- Bytes of a core's L1 and of its instruction cache: 64 KiB and 32 KiB (01_machine.md R14). -/
def l1Bytes : Nat := 65536
def icacheBytes : Nat := 32768

/-- Bytes of a core's weight buffer: 192 KiB (01_machine.md R14). -/
def wbufBytes : Nat := 196608

/-- Bytes of a core's scratchpad: 256 KiB (01_machine.md R14). -/
def spadBytes : Nat := 262144

/-- Register blocks of a core (01_machine.md R14). -/
def coreRblk : Nat := 256

/-- Logical cores of a cluster and columns of its grid (01_machine.md R13). -/
def clusterCores : Nat := 192
def gridW : Nat := 16
def gridH : Nat := 12

/-- Entries of the ECB, of a core's ILT and of a cluster's ILT (01_machine.md R14, 09_extents.md R188). -/
def ecbEntries : Nat := 64
def coreIlt : Nat := 16
def clusterIlt : Nat := 64

end Sys2Proof.Config
end

