-- ==== Sys2Proof/Machine/Numbers.lean ====
section
/-! DEFINITION. Number formats, rounding and exact arithmetic (04_numbers.md R69 to R88): every value is converted to an
exact dyadic number, computed exactly, and rounded once. -/
namespace Sys2Proof.Machine

/-- A floating-point format of R70 with sign, exponent and fraction fields: width, fraction bits, bias, the largest finite
code, whether it has infinities, and its default NaN code. -/
structure Fmt where
  width : Nat
  frac : Nat
  bias : Nat
  maxFin : Nat
  hasInf : Bool
  nan : Nat
  deriving DecidableEq, Repr

/-- binary32, binary16, bfloat16, FP8 E4M3 and FP8 E5M2 (04_numbers.md R70). -/
def f32 : Fmt := ⟨32, 23, 127, 0x7F7FFFFF, true, 0x7FC00000⟩
def f16 : Fmt := ⟨16, 10, 15, 0x7BFF, true, 0x7E00⟩
def bf16 : Fmt := ⟨16, 7, 127, 0x7F7F, true, 0x7FC0⟩
def e4m3 : Fmt := ⟨8, 3, 7, 0x7E, false, 0x7F⟩
def e5m2 : Fmt := ⟨8, 2, 15, 0x7B, true, 0x7E⟩

/-- The rounding modes (04_numbers.md R73); `rs` carries the 32-bit random word of R76. -/
inductive RMode
  | rne | rz | ru | rd
  | rs (h : Nat)
  deriving DecidableEq, Repr

/-- A number of any format: NaN, an infinity, or ± mag × 2^exp, zero included with its sign. -/
inductive Num
  | nan
  | inf (neg : Bool)
  | fin (neg : Bool) (mag : Nat) (exp : Int)
  deriving DecidableEq, Repr

/-- The value of a code of a format (04_numbers.md R70). -/
def decodeF (f : Fmt) (code : Nat) : Num :=
  let neg := code / 2 ^ (f.width - 1) % 2 == 1
  let c := code % 2 ^ (f.width - 1)
  let e := c / 2 ^ f.frac
  let m := c % 2 ^ f.frac
  if f.maxFin < c then
    if f.hasInf && c == f.maxFin + 1 then .inf neg else .nan
  else if e == 0 then .fin neg m (1 - (f.bias : Int) - f.frac)
  else .fin neg (2 ^ f.frac + m) ((e : Int) - f.bias - f.frac)

/-- The sign bit of a format. -/
def signBit (f : Fmt) (neg : Bool) : Nat := if neg then 2 ^ (f.width - 1) else 0

/-- The code of an infinite result: infinity, Max with `.sat`, NaN where the format has no infinity (04_numbers.md R74). -/
def infCode (f : Fmt) (sat neg : Bool) : Nat :=
  if sat then signBit f neg + f.maxFin
  else if f.hasInf then signBit f neg + f.maxFin + 1 else f.nan

/-- The result of an overflow (04_numbers.md R74). -/
def overflowCode (f : Fmt) (mode : RMode) (sat neg : Bool) : Nat :=
  let max := signBit f neg + f.maxFin
  if sat then max
  else
    match mode with
    | .rne | .rs _ => infCode f false neg
    | .rz => max
    | .ru => if neg then max else infCode f false neg
    | .rd => if neg then infCode f false neg else max

/-- Whether the neighbour away from zero is chosen, for a remainder rem of 2^s below a kept part n (04_numbers.md R73, R76). -/
def roundUp (mode : RMode) (neg : Bool) (n rem s : Nat) : Bool :=
  match mode with
  | .rne => decide (2 ^ s < 2 * rem) || (2 * rem == 2 ^ s && n % 2 == 1)
  | .rz => false
  | .ru => !neg && rem != 0
  | .rd => neg && rem != 0
  | .rs h => decide (2 ^ 32 ≤ rem * 2 ^ 32 / 2 ^ s + h)

/-- The number of bits of a natural number. -/
def bitLen (n : Nat) : Nat := if n == 0 then 0 else Nat.log2 n + 1

/-- round(± mag × 2^exp, f, mode) as a code (04_numbers.md R73 to R76); a zero keeps its sign. -/
def roundFin (f : Fmt) (mode : RMode) (sat neg : Bool) (mag : Nat) (exp : Int) : Nat :=
  if mag == 0 then signBit f neg
  else
    let lead : Int := exp + bitLen mag - 1
    let qmin : Int := 1 - (f.bias : Int) - f.frac
    let q : Int := max (lead - f.frac) qmin
    let n := if q ≤ exp then mag * 2 ^ (exp - q).toNat else mag / 2 ^ (q - exp).toNat
    let rem := if q ≤ exp then 0 else mag % 2 ^ (q - exp).toNat
    let s := (q - exp).toNat
    let n' := if rem != 0 && roundUp mode neg n rem s then n + 1 else n
    let base := (q - qmin).toNat * 2 ^ f.frac
    let beyond := match mode with
      | .rs _ => decide (f.maxFin < base + n) || (base + n == f.maxFin && rem != 0)
      | _ => decide (f.maxFin < base + n')
    if beyond then overflowCode f mode sat neg else signBit f neg + base + n'

/-- round of any number to a format (04_numbers.md R73, R74, R78). -/
def roundTo (f : Fmt) (mode : RMode) (sat : Bool) : Num → Nat
  | .nan => f.nan
  | .inf neg => infCode f sat neg
  | .fin neg mag exp => roundFin f mode sat neg mag exp

/-! ### Exact arithmetic -/

/-- Whether a zero sum of opposite signs is −0 in a mode (06_vector.md R125). -/
def zeroNeg : RMode → Bool
  | .rd => true
  | _ => false

/-- A signed magnitude as an integer. -/
def signed (neg : Bool) (mag : Nat) : Int := if neg then -(mag : Int) else mag

/-- The exact sum of two numbers; the mode only decides the sign of an exact zero (06_vector.md R125, 04_numbers.md R78). -/
def addNum (mode : RMode) : Num → Num → Num
  | .nan, _ => .nan
  | _, .nan => .nan
  | .inf a, .inf b => if a == b then .inf a else .nan
  | .inf a, _ => .inf a
  | _, .inf b => .inf b
  | .fin na ma ea, .fin nb mb eb =>
    let e := min ea eb
    let t := signed na (ma * 2 ^ (ea - e).toNat) + signed nb (mb * 2 ^ (eb - e).toNat)
    if t == 0 then .fin (if na == nb then na else zeroNeg mode) 0 e
    else .fin (decide (t < 0)) t.natAbs e

/-- The negation of a number. -/
def negNum : Num → Num
  | .nan => .nan
  | .inf a => .inf (!a)
  | .fin a m e => .fin (!a) m e

/-- The exact product of two numbers (04_numbers.md R78). -/
def mulNum : Num → Num → Num
  | .nan, _ => .nan
  | _, .nan => .nan
  | .inf a, .inf b => .inf (a != b)
  | .inf a, .fin b m _ => if m == 0 then .nan else .inf (a != b)
  | .fin a m _, .inf b => if m == 0 then .nan else .inf (a != b)
  | .fin a ma ea, .fin b mb eb => .fin (a != b) (ma * mb) (ea + eb)

/-- x + y rounded once (06_vector.md R125). -/
def fadd (f : Fmt) (mode : RMode) (x y : Nat) : Nat := roundTo f mode false (addNum mode (decodeF f x) (decodeF f y))

/-- x − y rounded once (06_vector.md R125). -/
def fsub (f : Fmt) (mode : RMode) (x y : Nat) : Nat :=
  roundTo f mode false (addNum mode (decodeF f x) (negNum (decodeF f y)))

/-- x × y rounded once (06_vector.md R125). -/
def fmul (f : Fmt) (mode : RMode) (x y : Nat) : Nat := roundTo f mode false (mulNum (decodeF f x) (decodeF f y))

/-- x × y + z rounded once; 0 × ∞ gives NaN (06_vector.md R125). -/
def ffma (f : Fmt) (mode : RMode) (x y z : Nat) : Nat :=
  roundTo f mode false (addNum mode (mulNum (decodeF f x) (decodeF f y)) (decodeF f z))

/-- z − x × y rounded once (06_vector.md R125). -/
def ffms (f : Fmt) (mode : RMode) (x y z : Nat) : Nat :=
  roundTo f mode false (addNum mode (decodeF f z) (negNum (mulNum (decodeF f x) (decodeF f y))))

/-- Whether a number is NaN. -/
def Num.isNan : Num → Bool
  | .nan => true
  | _ => false

/-- Whether a number is a zero. -/
def Num.isZero : Num → Bool
  | .fin _ m _ => m == 0
  | _ => false

/-- Whether a number is an infinity. -/
def Num.isInf : Num → Bool
  | .inf _ => true
  | _ => false

/-- x < y as real numbers with infinities; false for NaN, and −0 equals +0 (06_vector.md R130). -/
def Num.lt : Num → Num → Bool
  | .nan, _ => false
  | _, .nan => false
  | .inf a, .inf b => a && !b
  | .inf a, _ => a
  | _, .inf b => !b
  | .fin na ma ea, .fin nb mb eb =>
    let e := min ea eb
    decide (signed na (ma * 2 ^ (ea - e).toNat) < signed nb (mb * 2 ^ (eb - e).toNat))

/-- x = y as real numbers (06_vector.md R130). -/
def Num.eq (x y : Num) : Bool := !x.isNan && !y.isNan && !x.lt y && !y.lt x

/-- The order of minimumNumber and maximumNumber: −0 is less than +0 (04_numbers.md R79). -/
def fless (f : Fmt) (x y : Nat) : Bool :=
  (decodeF f x).lt (decodeF f y) ||
  ((decodeF f x).isZero && (decodeF f y).isZero && decide (2 ^ (f.width - 1) ≤ x) && decide (y < 2 ^ (f.width - 1)))

/-- minimumNumber (04_numbers.md R79). -/
def fmin (f : Fmt) (x y : Nat) : Nat :=
  match (decodeF f x).isNan, (decodeF f y).isNan with
  | true, true => f.nan
  | true, false => y
  | false, true => x
  | false, false => if fless f y x then y else x

/-- maximumNumber (04_numbers.md R79). -/
def fmax (f : Fmt) (x y : Nat) : Nat :=
  match (decodeF f x).isNan, (decodeF f y).isNan with
  | true, true => f.nan
  | true, false => y
  | false, true => x
  | false, false => if fless f x y then y else x

/-! ### Correctly rounded functions -/

/-- The integer square root of n by its binary digits: r is the root so far, k the digits left. -/
def isqrtGo (n : Nat) : Nat → Nat → Nat
  | 0, r => r
  | k + 1, r => if (r + 2 ^ k) * (r + 2 ^ k) ≤ n then isqrtGo n k (r + 2 ^ k) else isqrtGo n k r

/-- ⌊√n⌋. -/
def isqrt (n : Nat) : Nat := isqrtGo n (bitLen n / 2 + 1) 0

/-- A magnitude with one more bit that is 1 exactly when the value is not exact, so that one rounding is right. -/
def sticky (n : Nat) (exact : Bool) : Nat := 2 * n + (if exact then 0 else 1)

/-- rne(1/x, binary32) with the special cases of R126. -/
def frcp (x : Nat) : Nat :=
  match decodeF f32 x with
  | .nan => f32.nan
  | .inf neg => signBit f32 neg
  | .fin neg m e =>
    if m == 0 then infCode f32 false neg
    else
      let k := bitLen m + 60
      roundFin f32 .rne false neg (sticky (2 ^ k / m) (2 ^ k % m == 0)) (-(k : Int) - e - 1)

/-- rne(√x, binary32) with the special cases of R126. -/
def fsqrt (x : Nat) : Nat :=
  match decodeF f32 x with
  | .nan => f32.nan
  | .inf neg => if neg then f32.nan else infCode f32 false false
  | .fin neg m e =>
    if m == 0 then signBit f32 neg
    else if neg then f32.nan
    else
      let m' := if e % 2 == 0 then m else 2 * m
      let e' := if e % 2 == 0 then e else e - 1
      let r := isqrt (m' * 4 ^ 40)
      roundFin f32 .rne false false (sticky r (r * r == m' * 4 ^ 40)) (e' / 2 - 40 - 1)

/-- rne(1/√x, binary32) with the special cases of R126. -/
def frsqrt (x : Nat) : Nat :=
  match decodeF f32 x with
  | .nan => f32.nan
  | .inf neg => if neg then f32.nan else 0
  | .fin neg m e =>
    if m == 0 then infCode f32 false neg
    else if neg then f32.nan
    else
      let m' := if e % 2 == 0 then m else 2 * m
      let e' := if e % 2 == 0 then e else e - 1
      let r := isqrt (2 ^ 160 / m')
      roundFin f32 .rne false false (sticky r (r * r * m' == 2 ^ 160)) (-80 - e' / 2 - 1)

/-- The product of the roots 2^(2^-j) whose bit j of the fraction fr (b bits) is 1, in fixed point with p fraction bits. -/
def exp2Go (p fr : Nat) : Nat → Nat → Nat → Nat
  | 0, _, acc => acc
  | b + 1, root, acc =>
    let root' := isqrt (root * 2 ^ p)
    exp2Go p fr b root' (if fr / 2 ^ b % 2 == 1 then acc * root' / 2 ^ p else acc)

/-- rne(2^x, binary32) with the special cases of R126, by 160-bit fixed point (DEDUCED, log entry 13). -/
def fexp2 (x : Nat) : Nat :=
  match decodeF f32 x with
  | .nan => f32.nan
  | .inf neg => if neg then 0 else infCode f32 false false
  | .fin neg m e =>
    let lead : Int := e + bitLen m - 1
    if m == 0 || decide (lead < -26) then 0x3F800000
    else if decide (8 ≤ lead) then (if neg then 0 else infCode f32 false false)
    else
      let t := if 0 ≤ e + 50 then m * 2 ^ (e + 50).toNat else m / 2 ^ (-(e + 50)).toNat
      let i : Int := if neg then -(((t + 2 ^ 50 - 1) / 2 ^ 50 : Nat) : Int) else ((t / 2 ^ 50 : Nat) : Int)
      let fr := if neg then ((t + 2 ^ 50 - 1) / 2 ^ 50) * 2 ^ 50 - t else t % 2 ^ 50
      if fr == 0 then roundFin f32 .rne false false 1 i
      else roundFin f32 .rne false false (sticky (exp2Go 160 fr 50 (2 * 2 ^ 160) (2 ^ 160)) false) (i - 160 - 1)

/-- The next k binary digits of log2 of a value v in [1, 2) held with p fraction bits, by repeated squaring. -/
def log2Go (p : Nat) : Nat → Nat → Nat → Nat
  | 0, _, acc => acc
  | k + 1, v, acc =>
    let s := v * v / 2 ^ p
    if 2 ^ (p + 1) ≤ s then log2Go p k (s / 2) (2 * acc + 1) else log2Go p k s (2 * acc)

/-- rne(log2 x, binary32) with the special cases of R126, by 90 digits of a 220-bit fixed point (DEDUCED, log entry 13). -/
def flog2 (x : Nat) : Nat :=
  match decodeF f32 x with
  | .nan => f32.nan
  | .inf neg => if neg then f32.nan else infCode f32 false false
  | .fin neg m e =>
    if m == 0 then infCode f32 false true
    else if neg then f32.nan
    else
      let lead : Int := e + bitLen m - 1
      let v := m * 2 ^ 220 / 2 ^ (bitLen m - 1)
      if v == 2 ^ 220 then roundFin f32 .rne false (decide (lead < 0)) lead.natAbs 0
      else
        let d := log2Go 220 90 v 0
        if 0 ≤ lead then roundFin f32 .rne false false (sticky (lead.toNat * 2 ^ 90 + d) false) (-91)
        else roundFin f32 .rne false true (sticky (lead.natAbs * 2 ^ 90 - d - 1) false) (-91)

/-- ± mag × 2^exp rounded to an integer by a mode, as a magnitude (04_numbers.md R73, R80). -/
def roundInt (mode : RMode) (neg : Bool) (mag : Nat) (exp : Int) : Nat :=
  if 0 ≤ exp then mag * 2 ^ exp.toNat
  else
    let s := (-exp).toNat
    let n := mag / 2 ^ s
    if mag % 2 ^ s != 0 && roundUp mode neg n (mag % 2 ^ s) s then n + 1 else n

/-- `vrnd.f32` (06_vector.md R127). -/
def frnd (mode : RMode) (x : Nat) : Nat :=
  match decodeF f32 x with
  | .nan => f32.nan
  | .inf _ => x
  | .fin neg m e => if 0 ≤ e then x else roundFin f32 .rne false neg (roundInt mode neg m e) 0

/-- `vclass.f32`: the one-hot class mask (06_vector.md R128). -/
def fclass (x : Nat) : Nat :=
  match decodeF f32 x with
  | .nan => if x / 2 ^ 22 % 2 == 0 then 2 ^ 8 else 2 ^ 9
  | .inf neg => if neg then 1 else 2 ^ 7
  | .fin neg m _ =>
    if m == 0 then (if neg then 2 ^ 3 else 2 ^ 4)
    else if m < 2 ^ 23 then (if neg then 2 ^ 2 else 2 ^ 5)
    else if neg then 2 ^ 1 else 2 ^ 6

/-- Conversion of a binary32 to a 32-bit integer (04_numbers.md R80); `sgn` for `.i32`, otherwise `.n32`. -/
def fToInt (sgn sat : Bool) (mode : RMode) (x : Nat) : Nat :=
  let bad := if sgn then 0x80000000 else 0xFFFFFFFF
  let high := if sgn then 0x7FFFFFFF else 0xFFFFFFFF
  let low := if sgn then 0x80000000 else 0
  match decodeF f32 x with
  | .nan => if sat then 0 else bad
  | .inf neg => if sat then (if neg then low else high) else bad
  | .fin neg m e =>
    let n := roundInt mode neg m e
    if neg then
      if n ≤ (if sgn then 0x80000000 else 0) then (2 ^ 32 - n) % 2 ^ 32 else if sat then low else bad
    else if n ≤ high then n else if sat then high else bad

/-- Conversion of a 32-bit integer to binary32 (04_numbers.md R80). -/
def intToF (sgn : Bool) (mode : RMode) (x : Word) : Nat :=
  let neg := sgn && x.msb
  roundFin f32 mode false neg (if neg then 2 ^ 32 - x.toNat else x.toNat) 0

/-! ### LOG6 (04_numbers.md R72, R77) -/

/-- The table T of R72. -/
def log6T (j : Nat) : Nat := if j == 0 then 16384 else if j == 1 then 19484 else if j == 2 then 23170 else 27554

/-- The value of a LOG6 code (04_numbers.md R72); bits [7:6] are ignored. -/
def decodeLog6 (code : Nat) : Num :=
  let c := code % 64
  let l := c % 32
  if c == 32 then .nan
  else if l == 0 then .fin false 0 0
  else .fin (c / 32 == 1) (log6T (l % 4)) ((l / 4 : Nat) - 18 : Int)

/-- Whether q = mag × 2^14 / 2^(len − 1) is above, or equal to, a threshold of the table. -/
def log6Above (mag len h : Nat) (eqCounts : Bool) : Bool :=
  decide (h * 2 ^ (len - 1) < mag * 2 ^ 14) || (eqCounts && mag * 2 ^ 14 == h * 2 ^ (len - 1))

/-- The code of a LOG6 magnitude index L, L ≤ 0 being zero, or the overflow of R74. -/
def log6Code (mode : RMode) (sat neg : Bool) (l : Int) : Nat :=
  let s := if neg then 32 else 0
  if l ≤ 0 then 0
  else if l ≤ 31 then s + l.toNat
  else if sat then s + 31
  else
    match mode with
    | .rne | .rs _ => 32
    | .rz => s + 31
    | .ru => if neg then s + 31 else 32
    | .rd => if neg then 32 else s + 31

/-- Conversion of a number to LOG6 (04_numbers.md R77). -/
def roundLog6 (mode : RMode) (sat : Bool) : Num → Nat
  | .nan => 32
  | .inf neg => if sat then (if neg then 63 else 31) else 32
  | .fin neg mag exp =>
    if mag == 0 then 0
    else
      let len := bitLen mag
      let e : Int := exp + len - 1
      let n : Nat := (if log6Above mag len 17934 false then 1 else 0) + (if log6Above mag len 21327 true then 1 else 0) +
        (if log6Above mag len 25362 false then 1 else 0) + (if log6Above mag len 30161 true then 1 else 0)
      let nz : Nat := (if log6Above mag len 19484 true then 1 else 0) + (if log6Above mag len 23170 true then 1 else 0) +
        (if log6Above mag len 27554 true then 1 else 0)
      let lz : Int := 4 * (e + 4) + nz
      let exact := mag * 2 ^ 14 == log6T nz * 2 ^ (len - 1)
      let away : Int := if lz + 1 ≤ 1 then 1 else lz + 1
      match mode with
      | .rne =>
        let l : Int := 4 * (e + 4) + n
        log6Code mode sat neg (if -3 ≤ l ∧ l ≤ 0 then 1 else l)
      | .rz => if 32 ≤ lz then log6Code mode true neg lz else log6Code mode sat neg lz
      | .ru | .rd =>
        let toward := if neg then mode == .ru else mode == .rd
        if exact && decide (1 ≤ lz) && decide (lz ≤ 31) then log6Code mode sat neg lz
        else if toward then log6Code mode true neg lz
        else log6Code mode sat neg away
      | .rs h =>
        if decide (31 < lz) || (lz == 31 && !exact) then log6Code mode sat neg 32
        else if exact && decide (1 ≤ lz) then log6Code mode sat neg lz
        else
          -- values in units of 2^-18: lo is Lz (zero for Lz ≤ 0), hi the next LOG6 value (DEDUCED, log entry 17)
          let lo : Nat := if lz ≤ 0 then 0 else log6T (lz.toNat % 4) * 2 ^ (lz.toNat / 4)
          let hi : Nat := log6T (away.toNat % 4) * 2 ^ (away.toNat / 4)
          -- (|x| − lo) / (hi − lo) × 2^32, with |x| in units of 2^-18 × 2^-s
          let s := (-(exp + 18)).toNat
          let ax := mag * 2 ^ (exp + 18).toNat
          let d := (ax - lo * 2 ^ s) * 2 ^ 32 / ((hi - lo) * 2 ^ s)
          if 2 ^ 32 ≤ d + h then log6Code mode sat neg away else log6Code mode sat neg (if lz ≤ 0 then 0 else lz)

/-! ### Stochastic rounding, scales, element formats -/

/-- The random word of R76 for a seed, a lane and an element index. -/
def stochasticHash (seed : Word) (lane k : Nat) : Nat :=
  let h0 := (seed.toNat + 0x9E3779B9 * (lane + 32 * k + 1)) % 2 ^ 32
  let h1 := (h0 ^^^ (h0 / 2 ^ 16)) * 0x85EBCA6B % 2 ^ 32
  let h2 := (h1 ^^^ (h1 / 2 ^ 13)) * 0xC2B2AE35 % 2 ^ 32
  h2 ^^^ (h2 / 2 ^ 16)

/-- A mode code (02_encoding.md R40), with the random word that mode 4 uses. -/
def modeOf (m : Nat) (h : Nat) : RMode :=
  if m == 0 then .rne else if m == 1 then .rz else if m == 2 then .ru else if m == 3 then .rd else .rs h

/-- The element formats of `vscvt` and the matrix unit: 0 E4M3, 1 E5M2, 2 bfloat16, 3 binary16, 4 LOG6
(19_matrix.md R338). -/
def decodeElem (fmt code : Nat) : Num :=
  if fmt == 0 then decodeF e4m3 code else if fmt == 1 then decodeF e5m2 code else if fmt == 2 then decodeF bf16 code
  else if fmt == 3 then decodeF f16 code else decodeLog6 code

/-- A number times 2^k. -/
def scaleNum (k : Int) : Num → Num
  | .fin neg m e => .fin neg m (e + k)
  | n => n

/-- `vscvt` of one element: its value times its block scale, rounded; a zero stays that zero (06_vector.md R133). -/
def scaledElem (mode : RMode) (sat : Bool) (c : Num) (xs : Nat) : Nat :=
  if c.isNan || xs == 0xFF then f32.nan else roundTo f32 mode sat (scaleNum ((xs : Int) - 127) c)

/-! ### Matrix sums (04_numbers.md R82 to R86) -/

/-- The exact product of two LOG6 codes in the log domain, in units of 2^-22 (04_numbers.md R82). -/
def log6Product (a b : Nat) : Num :=
  let la := a % 32
  let lb := b % 32
  if a % 64 == 32 || b % 64 == 32 then .nan
  else if la == 0 || lb == 0 then .fin false 0 0
  else
    let s := la + lb
    .fin ((a / 32 % 2 == 1) != (b / 32 % 2 == 1)) (log6T (s % 4) * 2 ^ (s / 4)) (-22)

/-- The product of two elements of a matrix format. -/
def elemProduct (fmt a b : Nat) : Num :=
  if fmt == 4 then log6Product a b else mulNum (decodeElem fmt a) (decodeElem fmt b)

/-- Truncation of a product toward zero to a multiple of 2^q (04_numbers.md R85). -/
def truncNum (q : Int) : Num → Num
  | .fin neg m e => if q ≤ e then .fin neg m e else .fin neg (m / 2 ^ (q - e).toNat) q
  | n => n

/-- The largest ⌊log2 |p|⌋ over the nonzero products of a chunk (04_numbers.md R85). -/
def emaxOf : List Num → Option Int
  | [] => none
  | .fin _ m e :: r =>
    if m == 0 then emaxOf r
    else
      match emaxOf r with
      | none => some (e + bitLen m - 1)
      | some x => some (max x (e + bitLen m - 1))
  | _ :: r => emaxOf r

/-- The exact sum of products. -/
def sumNum (l : List Num) : Num := l.foldl (addNum .rne) (.fin false 0 0)

/-- The contribution of a block or chunk to an accumulator: its special cases, its exact sum, its scales, one rounding
(04_numbers.md R84, R85). -/
def blockValue (fmt : Nat) (scaled : Bool) (xa xb : Nat) (prods : List Num) : Nat :=
  let s :=
    if fmt == 2 || fmt == 3 then
      match emaxOf prods with
      | none => sumNum prods
      | some em => sumNum (prods.map (truncNum (em - 60)))
    else sumNum prods
  if scaled && (xa == 0xFF || xb == 0xFF) then f32.nan
  else if s.isZero then 0
  else roundTo f32 .rne false (scaleNum (if scaled then (xa : Int) + xb - 254 else 0) s)

/-- The accumulator after one block or chunk (04_numbers.md R84). -/
def accumulate (acc c : Nat) : Nat := fadd f32 .rne acc c

end Sys2Proof.Machine
end

