-- ==== Sys2Proof/Machine/SMap.lean ====
section
/-! DEFINITION. Sparse maps as plain data: lists of (key, value) pairs with strictly rising keys, so that equal maps are
equal lists. -/
namespace Sys2Proof.Machine

/-- A sparse map from natural numbers. -/
abbrev SMap (α : Type) := List (Nat × α)

/-- The value at a key, if it is listed. -/
def mfind {α : Type} : SMap α → Nat → Option α
  | [], _ => none
  | (k', v) :: r, k => if k' = k then some v else mfind r k

/-- The value at a key, `d` where the key is not listed. -/
def mget {α : Type} (m : SMap α) (d : α) (k : Nat) : α := (mfind m k).getD d

/-- The map with the value at one key replaced or added. -/
def mput {α : Type} : SMap α → Nat → α → SMap α
  | [], k, v => [(k, v)]
  | (k', v') :: r, k, v =>
    if k < k' then (k, v) :: (k', v') :: r
    else if k = k' then (k, v) :: r
    else (k', v') :: mput r k v

/-- The map without a key. -/
def mdel {α : Type} : SMap α → Nat → SMap α
  | [], _ => []
  | (k', v') :: r, k => if k' = k then mdel r k else (k', v') :: mdel r k

/-- The map with one value set, where `d` is what an unlisted key reads as: setting `d` unlists the key. -/
def mset {α : Type} [DecidableEq α] (d : α) (m : SMap α) (k : Nat) (v : α) : SMap α :=
  if v = d then mdel m k else mput m k v

/-- Strictly rising keys, all above `lo` when it is given. -/
def mrising {α : Type} : Option Nat → SMap α → Bool
  | _, [] => true
  | lo, (k, _) :: r => (match lo with | none => true | some l => decide (l < k)) && mrising (some k) r

/-- The canonical form of a map whose unlisted keys read as `d`. -/
def mwf {α : Type} [DecidableEq α] (d : α) (m : SMap α) : Bool := mrising none m && m.all (fun p => decide (p.2 ≠ d))

/-- The keys of a map. -/
def mkeys {α : Type} (m : SMap α) : List Nat := m.map Prod.fst

/-- The values of a map. -/
def mvals {α : Type} (m : SMap α) : List α := m.map Prod.snd

/-- The least natural number above every key. -/
def mfresh {α : Type} (m : SMap α) : Nat := m.foldl (fun a p => max a (p.1 + 1)) 0

/-- The n consecutive values from key k on. -/
def mrange {α : Type} (m : SMap α) (d : α) (k : Nat) : Nat → List α
  | 0 => []
  | n + 1 => mget m d k :: mrange m d (k + 1) n

/-- The map with consecutive values set from key k on. -/
def msetRange {α : Type} [DecidableEq α] (d : α) (m : SMap α) (k : Nat) : List α → SMap α
  | [] => m
  | v :: r => msetRange d (mset d m k v) (k + 1) r

/-! ### Bytes (00_scope.md R2: little-endian) -/

/-- The number a little-endian byte string holds. -/
def leNat : List Byte → Nat
  | [] => 0
  | b :: r => b.toNat + 256 * leNat r

/-- The n-byte little-endian string of a number. -/
def leBytes : Nat → Nat → List Byte
  | 0, _ => []
  | n + 1, x => BitVec.ofNat 8 x :: leBytes n (x / 256)

/-- n copies of a value. -/
def copies {α : Type} (n : Nat) (v : α) : List α := List.replicate n v

/-- The field [hi:lo] of a number, given as low bit and width (00_scope.md R1). -/
def bitsOf (x lo n : Nat) : Nat := x / 2 ^ lo % 2 ^ n

/-- The bytes of a list with the ones from offset o replaced. -/
def overlay (base : List Byte) (o : Nat) (new : List Byte) : List Byte :=
  base.take o ++ new.take (base.length - o) ++ base.drop (o + new.length)

/-- Sign extension of a w-bit number to an integer (04_numbers.md R69). -/
def sextInt (w x : Nat) : Int :=
  let y := x % 2 ^ w
  if 2 ^ (w - 1) ≤ y then (y : Int) - 2 ^ w else y

end Sys2Proof.Machine
end

