-- ==== Sys2Proof/Syntax.lean ====
section
/-! DEFINITION. The instructions of the Celrel: one constructor per row of spec/opcode_table.json. The first 219 are the
words of the opcode map (02_encoding.md R46); the other 118 are the steps of the part itself, whose arguments say which
unit, request or message the step acts on. -/
namespace Sys2Proof

/-- A vector register v0 to v127 (02_encoding.md R34). -/
abbrev VReg := Fin 128

/-- A scalar register s0 to s63 (02_encoding.md R34). -/
abbrev SReg := Fin 64

/-- A mask register m0 to m7 (02_encoding.md R14, R46). -/
abbrev MReg := Fin 8

/-- The special registers of the operand codes 0xE8 to 0xEF (02_encoding.md R34, 05_control.md R90). -/
inductive Special
  | lane | warp | block | cx | cy | cluster | ctx | time
  deriving DecidableEq, Repr

/-- An 8-bit operand field with its literal word, if it names one (02_encoding.md R34, R35). -/
inductive Operand
  | v (r : VReg)
  | s (r : SReg)
  | int (k : Fin 32)      -- the inline integer k − 16
  | fc (k : Fin 8)        -- the inline binary32 constant number k
  | sp (x : Special)
  | lit (w : Word)
  deriving DecidableEq, Repr

/-- The control byte of a conversion (02_encoding.md R40). -/
structure CvtCtl where
  sat : Bool
  mode : Fin 8
  pos : Fin 4
  deriving DecidableEq, Repr

/-- What a port translates: a sector of a request, or a dirty line that its home slice writes back (09_extents.md R180). -/
inductive PortTarget
  | req (id sector : Nat)
  | writeback (line : Nat)
  deriving DecidableEq, Repr

/-- The completion of a PCIe AtomicOp: success, with the old value of host memory, or a refusal of the completer (12_atomics.md R237). -/
inductive PcieResp
  | success
  | unsupported
  | abort
  | poisoned
  deriving DecidableEq, Repr

/-- What the sensors and counters of one 10 µs window measured (23_platform.md R403 to R405). Energies in µJ. -/
structure EnergyMeas where
  fixed : Nat
  package : Nat
  inlet : Nat
  deriving DecidableEq, Repr

/-- A copy of a pseudo-channel's row-remap table in the configuration image: the failed rows with the spare rows they are sent to, and
whether the copy passes its own check (11_traps.md R223, 23_platform.md R399). -/
structure RemapTable where
  port : Nat
  pc : Nat
  rows : List (Nat × Nat)
  ok : Bool
  deriving DecidableEq, Repr

/-- The signed configuration image and the verdicts of the signature checks of one boot (23_platform.md R398 to R400). -/
structure BootImage where
  firmwareOk : Bool
  imageOk : Bool
  version : Nat
  repair : List (List Nat)
  freqMax : Nat
  partitions : List Nat
  cxlPorts : List Bool
  scrubHours : Nat
  timeoutMs : Nat
  auditSeed : Word
  weights : List Nat
  tpd : Nat
  tsr : Nat
  bar2Log : Nat
  /-- Bytes of the board controller's firmware, of that of every other controller, and of the configuration image, over which their digests
  are taken (23_platform.md R398, R401). -/
  firmware : List (BitVec 8) := []
  others : List (List (BitVec 8)) := []
  raw : List (BitVec 8) := []
  /-- The row-remap tables of the configuration image that map a row (23_platform.md R399). -/
  remap : List RemapTable := []
  deriving DecidableEq, Repr

/-- The instructions and events, in the order of the opcode table. -/
inductive Instr
  /-- SADD (R92). Adds two 32-bit scalar operands modulo 2^32 into sd. -/
  | sadd (d : SReg) (a b : Operand)
  /-- SSUB (R92). Subtracts the second scalar operand from the first into sd. -/
  | ssub (d : SReg) (a b : Operand)
  /-- SMUL (R92). Writes the low 32 bits of the scalar product into sd. -/
  | smul (d : SReg) (a b : Operand)
  /-- SMULHI (R92). Writes the high 32 bits of the signed scalar product into sd. -/
  | smulhi (d : SReg) (a b : Operand)
  /-- SAND (R92). Writes the bitwise AND of two scalar operands into sd. -/
  | sand (d : SReg) (a b : Operand)
  /-- SOR (R92). Writes the bitwise OR of two scalar operands into sd; nop is sor s0, s0, s0. -/
  | sor (d : SReg) (a b : Operand)
  /-- SXOR (R92). Writes the bitwise XOR of two scalar operands into sd. -/
  | sxor (d : SReg) (a b : Operand)
  /-- SSHL (R92). Shifts a scalar left by the unsigned count, giving 0 for counts of 32 or more. -/
  | sshl (d : SReg) (a b : Operand)
  /-- SSHR (R92). Shifts a scalar right logically by the unsigned count, giving 0 for counts of 32 or more. -/
  | sshr (d : SReg) (a b : Operand)
  /-- SSRA (R92). Shifts a scalar right arithmetically, filling with the sign for counts of 32 or more. -/
  | ssra (d : SReg) (a b : Operand)
  /-- SMIN (R92). Writes the signed minimum of two scalar operands into sd. -/
  | smin (d : SReg) (a b : Operand)
  /-- SMAX (R92). Writes the signed maximum of two scalar operands into sd. -/
  | smax (d : SReg) (a b : Operand)
  /-- SCMP (R93). Compares two scalar operands under the condition code in sd and writes scc. -/
  | scmp (c : Fin 10) (a b : Operand)
  /-- SSEL (R92). Writes the first operand when scc is 1, otherwise the second, into sd. -/
  | ssel (d : SReg) (a b : Operand)
  /-- SADD64 (R94). Adds two 64-bit scalar pair operands modulo 2^64 into the pair sd:sd+1. -/
  | sadd64 (d : SReg) (a b : Operand)
  /-- SMOV (R92). Copies a scalar operand into sd. -/
  | smov (d : SReg) (a : Operand)
  /-- JMP (R101). Moves the whole split to the branch target through set_pc. -/
  | jmp (off : Fin 1048576)
  /-- BSCC (R101). Moves the split to the target when scc xor c is 1, otherwise to the following clause. -/
  | bscc (c : Bool) (off : Fin 1048576)
  /-- BDIV (R102). Divides the split's lanes by the condition mask, creating a split or a deferred token for the taken lanes. -/
  | bdiv (mk : MReg) (c : Bool) (off : Fin 1048576)
  /-- BANY (R101). Moves the split to the target when any of its lanes holds the condition. -/
  | bany (mk : MReg) (c : Bool) (off : Fin 1048576)
  /-- BALL (R101). Moves the split to the target when all of its lanes hold the condition. -/
  | ball (mk : MReg) (c : Bool) (off : Fin 1048576)
  /-- JOIN (R103). Opens a join token with the target as rejoin PC, or waits in state 3 when no token entry is free. -/
  | join (off : Fin 1048576)
  /-- BRK (R104). Takes the lanes holding the condition out to the enclosing join token whose pc is the target. -/
  | brk (mk : MReg) (c : Bool) (off : Fin 1048576)
  /-- CALL (R105). Allocates a call token returning to the following clause and moves the split to the target. -/
  | call (off : Fin 1048576)
  /-- RET (R106). Sends the split's lanes to the innermost call token on its chain. -/
  | ret
  /-- EXIT (R107). Removes the split's lanes from every token on its chain and from the live mask. -/
  | exit
  /-- MAND (R95). Writes the AND of two mask registers into a mask register. -/
  | mand (d a b : MReg)
  /-- MOR (R95). Writes the OR of two mask registers into a mask register. -/
  | mor (d a b : MReg)
  /-- MXOR (R95). Writes the XOR of two mask registers into a mask register. -/
  | mxor (d a b : MReg)
  /-- MANDN (R95). Writes ma AND NOT mb into a mask register. -/
  | mandn (d a b : MReg)
  /-- MFROM (R95). Copies the issuing split's em into a mask register. -/
  | mfrom (d : MReg)
  /-- MTO (R95). Copies mask bits into md only for lanes whose em bit is 1. -/
  | mto (d a : MReg)
  /-- VADD_I32 (R124). Adds two 32-bit integer operands per lane. -/
  | vaddI32 (d : VReg) (a b : Operand) (p : Bool)
  /-- VSUB_I32 (R124). Subtracts two 32-bit integer operands per lane. -/
  | vsubI32 (d : VReg) (a b : Operand) (p : Bool)
  /-- VMUL_I32 (R124). Writes the low 32 bits of the integer product per lane. -/
  | vmulI32 (d : VReg) (a b : Operand) (p : Bool)
  /-- VMULHI_I32 (R124). Writes the high 32 bits of the signed product per lane. -/
  | vmulhiI32 (d : VReg) (a b : Operand) (p : Bool)
  /-- VMULHI_N32 (R124). Writes the high 32 bits of the unsigned product per lane. -/
  | vmulhiN32 (d : VReg) (a b : Operand) (p : Bool)
  /-- VMAD_I32 (R124). Multiplies two integer operands and adds vd per lane, modulo 2^32. -/
  | vmadI32 (d : VReg) (a b : Operand) (p : Bool)
  /-- VAND_B32 (R124). Bitwise AND per lane. -/
  | vandB32 (d : VReg) (a b : Operand) (p : Bool)
  /-- VOR_B32 (R124). Bitwise OR per lane. -/
  | vorB32 (d : VReg) (a b : Operand) (p : Bool)
  /-- VXOR_B32 (R124). Bitwise XOR per lane. -/
  | vxorB32 (d : VReg) (a b : Operand) (p : Bool)
  /-- VSHL_B32 (R124). Shifts left per lane, giving 0 for counts of 32 or more. -/
  | vshlB32 (d : VReg) (a b : Operand) (p : Bool)
  /-- VSHR_N32 (R124). Shifts right logically per lane. -/
  | vshrN32 (d : VReg) (a b : Operand) (p : Bool)
  /-- VSHR_I32 (R124). Shifts right arithmetically per lane. -/
  | vshrI32 (d : VReg) (a b : Operand) (p : Bool)
  /-- VMIN_I32 (R124). Signed minimum per lane. -/
  | vminI32 (d : VReg) (a b : Operand) (p : Bool)
  /-- VMIN_N32 (R124). Unsigned minimum per lane. -/
  | vminN32 (d : VReg) (a b : Operand) (p : Bool)
  /-- VMAX_I32 (R124). Signed maximum per lane. -/
  | vmaxI32 (d : VReg) (a b : Operand) (p : Bool)
  /-- VMAX_N32 (R124). Unsigned maximum per lane. -/
  | vmaxN32 (d : VReg) (a b : Operand) (p : Bool)
  /-- VADD_F32 (R125). binary32 addition per lane, rounded RNE. -/
  | vaddF32 (d : VReg) (a b : Operand) (p : Bool)
  /-- VFMA_F32 (R125). Fused multiply-add x*y + vd per lane with one RNE rounding. -/
  | vfmaF32 (d : VReg) (a b : Operand) (p : Bool)
  /-- VSUB_F32 (R125). binary32 subtraction per lane, rounded RNE. -/
  | vsubF32 (d : VReg) (a b : Operand) (p : Bool)
  /-- VMUL_F32 (R125). binary32 multiplication per lane, rounded RNE. -/
  | vmulF32 (d : VReg) (a b : Operand) (p : Bool)
  /-- VMIN_F32 (R125). minimumNumber of two binary32 operands per lane. -/
  | vminF32 (d : VReg) (a b : Operand) (p : Bool)
  /-- VMAX_F32 (R125). maximumNumber of two binary32 operands per lane. -/
  | vmaxF32 (d : VReg) (a b : Operand) (p : Bool)
  /-- VRCP_F32 (R126). Correctly rounded reciprocal per lane. -/
  | vrcpF32 (d : VReg) (a : Operand) (p : Bool)
  /-- VRSQRT_F32 (R126). Correctly rounded reciprocal square root per lane. -/
  | vrsqrtF32 (d : VReg) (a : Operand) (p : Bool)
  /-- VSQRT_F32 (R126). Correctly rounded square root per lane. -/
  | vsqrtF32 (d : VReg) (a : Operand) (p : Bool)
  /-- VEXP2_F32 (R126). Correctly rounded 2^x per lane. -/
  | vexp2F32 (d : VReg) (a : Operand) (p : Bool)
  /-- VLOG2_F32 (R126). Correctly rounded log2 x per lane. -/
  | vlog2F32 (d : VReg) (a : Operand) (p : Bool)
  /-- VABS_F32 (R125). Clears bit 31 of each lane. -/
  | vabsF32 (d : VReg) (a : Operand) (p : Bool)
  /-- VNEG_F32 (R125). Inverts bit 31 of each lane. -/
  | vnegF32 (d : VReg) (a : Operand) (p : Bool)
  /-- VFMS_F32 (R125). Computes vd - x*y per lane with one RNE rounding. -/
  | vfmsF32 (d : VReg) (a b : Operand) (p : Bool)
  /-- VRND_F32 (R127). Rounds each lane to an integer value in binary32 under the mode in b. -/
  | vrndF32 (d : VReg) (a : Operand) (mode : Fin 4) (p : Bool)
  /-- VCLASS_F32 (R128). Writes a one-hot class mask of each lane's binary32 value. -/
  | vclassF32 (d : VReg) (a : Operand) (p : Bool)
  /-- VADD_F16 (R129). Packed binary16 addition of both halves per lane. -/
  | vaddF16 (d : VReg) (a b : Operand) (p : Bool)
  /-- VFMA_F16 (R129). Packed binary16 fused multiply-add per half. -/
  | vfmaF16 (d : VReg) (a b : Operand) (p : Bool)
  /-- VMUL_F16 (R129). Packed binary16 multiplication per half. -/
  | vmulF16 (d : VReg) (a b : Operand) (p : Bool)
  /-- VADD_BF16 (R129). Packed bfloat16 addition per half. -/
  | vaddBf16 (d : VReg) (a b : Operand) (p : Bool)
  /-- VFMA_BF16 (R129). Packed bfloat16 fused multiply-add per half. -/
  | vfmaBf16 (d : VReg) (a b : Operand) (p : Bool)
  /-- VMUL_BF16 (R129). Packed bfloat16 multiplication per half. -/
  | vmulBf16 (d : VReg) (a b : Operand) (p : Bool)
  /-- VMOV_B32 (R124). Copies each lane's 32 bits unchanged. -/
  | vmovB32 (d : VReg) (a : Operand) (p : Bool)
  /-- VPOPC_B32 (R124). Counts the 1 bits of each lane. -/
  | vpopcB32 (d : VReg) (a : Operand) (p : Bool)
  /-- VCLZ_B32 (R124). Counts the leading zero bits of each lane. -/
  | vclzB32 (d : VReg) (a : Operand) (p : Bool)
  /-- VBREV_B32 (R124). Reverses the bits of each lane. -/
  | vbrevB32 (d : VReg) (a : Operand) (p : Bool)
  /-- VDOT4_I8 (R124). Adds the four signed byte products of the operands to vd per lane. -/
  | vdot4I8 (d : VReg) (a b : Operand) (p : Bool)
  /-- VADD_F32_RZ (R125). binary32 addition per lane rounded toward zero. -/
  | vaddF32Rz (d : VReg) (a b : Operand) (p : Bool)
  /-- VADD_F32_RU (R125). binary32 addition per lane rounded toward +infinity. -/
  | vaddF32Ru (d : VReg) (a b : Operand) (p : Bool)
  /-- VADD_F32_RD (R125). binary32 addition per lane rounded toward -infinity. -/
  | vaddF32Rd (d : VReg) (a b : Operand) (p : Bool)
  /-- VSUB_F32_RZ (R125). binary32 subtraction per lane rounded toward zero. -/
  | vsubF32Rz (d : VReg) (a b : Operand) (p : Bool)
  /-- VSUB_F32_RU (R125). binary32 subtraction per lane rounded toward +infinity. -/
  | vsubF32Ru (d : VReg) (a b : Operand) (p : Bool)
  /-- VSUB_F32_RD (R125). binary32 subtraction per lane rounded toward -infinity. -/
  | vsubF32Rd (d : VReg) (a b : Operand) (p : Bool)
  /-- VMUL_F32_RZ (R125). binary32 multiplication per lane rounded toward zero. -/
  | vmulF32Rz (d : VReg) (a b : Operand) (p : Bool)
  /-- VMUL_F32_RU (R125). binary32 multiplication per lane rounded toward +infinity. -/
  | vmulF32Ru (d : VReg) (a b : Operand) (p : Bool)
  /-- VMUL_F32_RD (R125). binary32 multiplication per lane rounded toward -infinity. -/
  | vmulF32Rd (d : VReg) (a b : Operand) (p : Bool)
  /-- VFMA_F32_RZ (R125). Fused multiply-add per lane rounded toward zero. -/
  | vfmaF32Rz (d : VReg) (a b : Operand) (p : Bool)
  /-- VFMA_F32_RU (R125). Fused multiply-add per lane rounded toward +infinity. -/
  | vfmaF32Ru (d : VReg) (a b : Operand) (p : Bool)
  /-- VFMA_F32_RD (R125). Fused multiply-add per lane rounded toward -infinity. -/
  | vfmaF32Rd (d : VReg) (a b : Operand) (p : Bool)
  /-- VCMP_I32 (R130). Signed integer compare per visited lane into a mask register. -/
  | vcmpI32 (c : Fin 8) (m : MReg) (a b : Operand) (p : Bool)
  /-- VCMP_N32 (R130). Unsigned integer compare per visited lane into a mask register. -/
  | vcmpN32 (c : Fin 8) (m : MReg) (a b : Operand) (p : Bool)
  /-- VCMP_F32 (R130). binary32 compare per visited lane into a mask register. -/
  | vcmpF32 (c : Fin 8) (m : MReg) (a b : Operand) (p : Bool)
  /-- VSEL_B32 (R131). Selects a or b per lane by m0. -/
  | vselB32 (d : VReg) (a b : Operand)
  /-- VCVT_F32_I32 (R132). Converts a signed 32-bit integer to binary32 per lane. -/
  | vcvtF32I32 (d : VReg) (a : Operand) (k : CvtCtl) (p : Bool)
  /-- VCVT_F32_N32 (R132). Converts an unsigned 32-bit integer to binary32 per lane. -/
  | vcvtF32N32 (d : VReg) (a : Operand) (k : CvtCtl) (p : Bool)
  /-- VCVT_I32_F32 (R132). Converts binary32 to a signed integer per lane under R80. -/
  | vcvtI32F32 (d : VReg) (a : Operand) (k : CvtCtl) (p : Bool)
  /-- VCVT_N32_F32 (R132). Converts binary32 to an unsigned integer per lane under R80. -/
  | vcvtN32F32 (d : VReg) (a : Operand) (k : CvtCtl) (p : Bool)
  /-- VCVT_F16_F32 (R132). Narrows binary32 to binary16 into one half of each lane. -/
  | vcvtF16F32 (d : VReg) (a : Operand) (k : CvtCtl) (p : Bool)
  /-- VCVT_BF16_F32 (R132). Narrows binary32 to bfloat16 into one half of each lane. -/
  | vcvtBf16F32 (d : VReg) (a : Operand) (k : CvtCtl) (p : Bool)
  /-- VCVT_E4M3_F32 (R132). Narrows binary32 to E4M3 into one byte of each lane. -/
  | vcvtE4m3F32 (d : VReg) (a : Operand) (k : CvtCtl) (p : Bool)
  /-- VCVT_E5M2_F32 (R132). Narrows binary32 to E5M2 into one byte of each lane. -/
  | vcvtE5m2F32 (d : VReg) (a : Operand) (k : CvtCtl) (p : Bool)
  /-- VCVT_LOG6_F32 (R77). Narrows binary32 to LOG6 into one byte of each lane. -/
  | vcvtLog6F32 (d : VReg) (a : Operand) (k : CvtCtl) (p : Bool)
  /-- VCVT_F32_F16 (R132). Widens one binary16 half of each lane to binary32. -/
  | vcvtF32F16 (d : VReg) (a : Operand) (k : CvtCtl) (p : Bool)
  /-- VCVT_F32_BF16 (R132). Widens one bfloat16 half of each lane to binary32. -/
  | vcvtF32Bf16 (d : VReg) (a : Operand) (k : CvtCtl) (p : Bool)
  /-- VCVT_F32_E4M3 (R132). Widens one E4M3 byte of each lane to binary32. -/
  | vcvtF32E4m3 (d : VReg) (a : Operand) (k : CvtCtl) (p : Bool)
  /-- VCVT_F32_E5M2 (R132). Widens one E5M2 byte of each lane to binary32. -/
  | vcvtF32E5m2 (d : VReg) (a : Operand) (k : CvtCtl) (p : Bool)
  /-- VCVT_F32_LOG6 (R132). Widens one LOG6 byte of each lane to its binary32 table value. -/
  | vcvtF32Log6 (d : VReg) (a : Operand) (k : CvtCtl) (p : Bool)
  /-- VSCVT (R133). Widens a block-scaled element per lane and applies the scale fetched by the scale address generator. -/
  | vscvt (d a : VReg) (k : CvtCtl) (p : Bool)
  /-- VSHFL_B32 (R135). Reads for each visited lane the source lane named by b. -/
  | vshflB32 (d a : VReg) (b : Operand) (p : Bool)
  /-- VNBL_B32 (R136). Reads lane i-1 of the source, with the edge lane chosen by the neighbour selector. -/
  | vnblB32 (d a : VReg) (sel : Fin 4) (p : Bool)
  /-- VNBR_B32 (R136). Reads lane i+1 of the source, with the edge lane chosen by the neighbour selector. -/
  | vnbrB32 (d a : VReg) (sel : Fin 4) (p : Bool)
  /-- VBCAST_B32 (R135). Broadcasts one source lane to every visited lane. -/
  | vbcastB32 (d a : VReg) (b : Operand) (p : Bool)
  /-- VRED_ADD_I32 (R138). Integer sum over the visited lanes written to every visited lane. -/
  | vredAddI32 (d a : VReg) (p : Bool)
  /-- VRED_ADD_F32 (R138). Serial ascending RNE binary32 sum over the visited lanes. -/
  | vredAddF32 (d a : VReg) (p : Bool)
  /-- VRED_MAX_F32 (R138). maximumNumber over the visited lanes. -/
  | vredMaxF32 (d a : VReg) (p : Bool)
  /-- VRED_MIN_F32 (R138). minimumNumber over the visited lanes. -/
  | vredMinF32 (d a : VReg) (p : Bool)
  /-- VSCAN_ADD_I32 (R138). Inclusive integer prefix sum over the visited lanes. -/
  | vscanAddI32 (d a : VReg) (p : Bool)
  /-- VSCAN_ADD_F32 (R138). Inclusive serial binary32 prefix sum over the visited lanes. -/
  | vscanAddF32 (d a : VReg) (p : Bool)
  /-- VBALLOT (R135). Writes a mask with one bit per visited lane whose operand is nonzero, and 0 elsewhere. -/
  | vballot (m : MReg) (a : Operand) (p : Bool)
  /-- VRDLANE (R135). Reads one named lane of a vector register into a scalar register. -/
  | vrdlane (d : SReg) (a : VReg) (b : Operand)
  /-- LD_N8 (R155). Global load of one zero-extended byte per lane at the given scope. -/
  | ldN8 (d : VReg) (sb : SReg) (vo : VReg) (sc : Fin 8) (x : Option Word)
  /-- LD_I8 (R155). Global load of one sign-extended byte per lane. -/
  | ldI8 (d : VReg) (sb : SReg) (vo : VReg) (sc : Fin 8) (x : Option Word)
  /-- LD_N16 (R155). Global load of two zero-extended bytes per lane. -/
  | ldN16 (d : VReg) (sb : SReg) (vo : VReg) (sc : Fin 8) (x : Option Word)
  /-- LD_I16 (R155). Global load of two sign-extended bytes per lane. -/
  | ldI16 (d : VReg) (sb : SReg) (vo : VReg) (sc : Fin 8) (x : Option Word)
  /-- LD_B32 (R155). Global load of 4 bytes per lane. -/
  | ldB32 (d : VReg) (sb : SReg) (vo : VReg) (sc : Fin 8) (x : Option Word)
  /-- LD_B64 (R155). Global load of 8 bytes per lane into a register pair. -/
  | ldB64 (d : VReg) (sb : SReg) (vo : VReg) (sc : Fin 8) (x : Option Word)
  /-- LD_B128 (R155). Global load of 16 bytes per lane into four registers. -/
  | ldB128 (d : VReg) (sb : SReg) (vo : VReg) (sc : Fin 8) (x : Option Word)
  /-- ST_B8 (R155). Global store of one byte per lane. -/
  | stB8 (d : VReg) (sb : SReg) (vo : VReg) (sc : Fin 8) (x : Option Word)
  /-- ST_B16 (R155). Global store of two bytes per lane. -/
  | stB16 (d : VReg) (sb : SReg) (vo : VReg) (sc : Fin 8) (x : Option Word)
  /-- ST_B32 (R155). Global store of 4 bytes per lane. -/
  | stB32 (d : VReg) (sb : SReg) (vo : VReg) (sc : Fin 8) (x : Option Word)
  /-- ST_B64 (R155). Global store of 8 bytes per lane from a register pair. -/
  | stB64 (d : VReg) (sb : SReg) (vo : VReg) (sc : Fin 8) (x : Option Word)
  /-- ST_B128 (R155). Global store of 16 bytes per lane from four registers. -/
  | stB128 (d : VReg) (sb : SReg) (vo : VReg) (sc : Fin 8) (x : Option Word)
  /-- LD_LANE (R157). Loads from the lane's own lane slice. -/
  | ldLane (d : VReg) (vo : VReg) (wd : Fin 8) (x : Option Word)
  /-- ST_LANE (R157). Stores to the lane's own lane slice. -/
  | stLane (d : VReg) (vo : VReg) (wd : Fin 8) (x : Option Word)
  /-- LD_SP (R157). Loads from the block's core scratchpad. -/
  | ldSp (d : VReg) (vo : VReg) (wd : Fin 8) (x : Option Word)
  /-- ST_SP (R157). Stores to the block's core scratchpad. -/
  | stSp (d : VReg) (vo : VReg) (wd : Fin 8) (x : Option Word)
  /-- LD_CM (R157). Loads from the scratchpad of a block of the group named by a core offset. -/
  | ldCm (d : VReg) (vo : VReg) (wd : Fin 8) (x : Option Word)
  /-- ST_CM (R157). Stores to the scratchpad of a block of the group named by a core offset. -/
  | stCm (d : VReg) (vo : VReg) (wd : Fin 8) (x : Option Word)
  /-- LD_CST (R157). Loads from the region's cluster-store window of a cluster named by offset. -/
  | ldCst (d : VReg) (vo : VReg) (wd : Fin 8) (x : Option Word)
  /-- ST_CST (R157). Stores to the region's cluster-store window of a cluster named by offset. -/
  | stCst (d : VReg) (vo : VReg) (wd : Fin 8) (x : Option Word)
  /-- SLD_B32 (R158). Loads 4 global bytes once into a scalar register. -/
  | sldB32 (d : SReg) (sb : SReg) (sc : Fin 8) (x : Option Word)
  /-- SST_B32 (R158). Stores a scalar register to 4 global bytes once. -/
  | sstB32 (d : SReg) (sb : SReg) (sc : Fin 8) (x : Option Word)
  /-- PF (R159). Prefetches each lane's line into its home L2 slice, and into the L1 at .core. -/
  | pf (sb : SReg) (vo : VReg) (sc : Fin 8) (x : Option Word)
  /-- CINV (R160). Invalidates each lane's line in the core's L1 for the warp's context. -/
  | cinv (sb : SReg) (vo : VReg) (x : Option Word)
  /-- XPROBE (R192). Looks up the extent holding an address and writes its ID and scc. -/
  | xprobe (d : SReg) (sb : SReg) (x : Option Word)
  /-- XINFO (R193). Reads one selected field of a handle's extent into sd. -/
  | xinfo (d : SReg) (sb : SReg) (sel : Fin 8)
  /-- HPIN (R194). Asks the residency manager to pin an extent in HBM, promoting it if needed. -/
  | hpin (d : SReg) (sb : SReg)
  /-- HDEMOTE (R194). Asks the residency manager to start a demotion of an extent to host memory. -/
  | hdemote (d : SReg) (sb : SReg)
  /-- HPRIO (R194). Sets an extent's residency priority. -/
  | hprio (d : SReg) (sb : SReg) (sel : Fin 8)
  /-- HUNPIN (R194). Clears an extent's pin and releases its quota. -/
  | hunpin (d : SReg) (sb : SReg)
  /-- ATOM_ADD_I32 (R239). Atomic 32-bit integer add per lane, returning the old value. -/
  | atomAddI32 (d : VReg) (sb : SReg) (vo : VReg) (sc : Fin 8) (x : Option Word)
  /-- ATOM_ADD_F32 (R239). Atomic binary32 add per lane, returning the old value. -/
  | atomAddF32 (d : VReg) (sb : SReg) (vo : VReg) (sc : Fin 8) (x : Option Word)
  /-- ATOM_MIN_I32 (R239). Atomic signed minimum per lane. -/
  | atomMinI32 (d : VReg) (sb : SReg) (vo : VReg) (sc : Fin 8) (x : Option Word)
  /-- ATOM_MAX_I32 (R239). Atomic signed maximum per lane. -/
  | atomMaxI32 (d : VReg) (sb : SReg) (vo : VReg) (sc : Fin 8) (x : Option Word)
  /-- ATOM_MIN_N32 (R239). Atomic unsigned minimum per lane. -/
  | atomMinN32 (d : VReg) (sb : SReg) (vo : VReg) (sc : Fin 8) (x : Option Word)
  /-- ATOM_MAX_N32 (R239). Atomic unsigned maximum per lane. -/
  | atomMaxN32 (d : VReg) (sb : SReg) (vo : VReg) (sc : Fin 8) (x : Option Word)
  /-- ATOM_AND_B32 (R239). Atomic bitwise AND per lane. -/
  | atomAndB32 (d : VReg) (sb : SReg) (vo : VReg) (sc : Fin 8) (x : Option Word)
  /-- ATOM_OR_B32 (R239). Atomic bitwise OR per lane. -/
  | atomOrB32 (d : VReg) (sb : SReg) (vo : VReg) (sc : Fin 8) (x : Option Word)
  /-- ATOM_XCHG_B32 (R239). Atomic 32-bit exchange per lane. -/
  | atomXchgB32 (d : VReg) (sb : SReg) (vo : VReg) (sc : Fin 8) (x : Option Word)
  /-- ATOM_CAS_B32 (R239). Atomic 32-bit compare-and-swap per lane. -/
  | atomCasB32 (d : VReg) (sb : SReg) (vo : VReg) (sc : Fin 8) (x : Option Word)
  /-- ATOM_ADD_I64 (R239). Atomic 64-bit integer add per lane. -/
  | atomAddI64 (d : VReg) (sb : SReg) (vo : VReg) (sc : Fin 8) (x : Option Word)
  /-- ATOM_XCHG_B64 (R239). Atomic 64-bit exchange per lane. -/
  | atomXchgB64 (d : VReg) (sb : SReg) (vo : VReg) (sc : Fin 8) (x : Option Word)
  /-- ATOM_CAS_B64 (R239). Atomic 64-bit compare-and-swap per lane. -/
  | atomCasB64 (d : VReg) (sb : SReg) (vo : VReg) (sc : Fin 8) (x : Option Word)
  /-- ATOM_CAS_B128 (R239). Atomic 128-bit compare-and-swap per lane. -/
  | atomCasB128 (d : VReg) (sb : SReg) (vo : VReg) (sc : Fin 8) (x : Option Word)
  /-- BRED_ADD_F32 (R250). Bounded binary32 add per lane, withheld in the L1's deltas under its share. -/
  | bredAddF32 (d : VReg) (sb : SReg) (vo : VReg) (sc : Fin 8) (x : Option Word)
  /-- LD_BND (R251). Loads bounded elements within tolerance epsilon, draining holders as R247 requires. -/
  | ldBnd (d : VReg) (sb : SReg) (vo : VReg) (sc : Fin 8) (x : Option Word)
  /-- BAR_INIT (R203). Initialises a barrier object with an arrival count and scope. -/
  | barInit (sb sv d : SReg) (sc : Fin 8)
  /-- BAR_ARRIVE (R203). Returns the phase and arrives on a barrier object once its release completes. -/
  | barArrive (sb sv d : SReg)
  /-- BAR_EXPECT (R203). Adds expected bytes to a barrier's current phase. -/
  | barExpect (sb sv d : SReg)
  /-- BAR_WAIT (R205). Blocks the split until the named phase has passed, then acquires. -/
  | barWait (sb sv d : SReg)
  /-- BAR_TEST (R203). Tests without blocking whether the named phase has passed. -/
  | barTest (sb sv d : SReg)
  /-- BAR_DROP (R203). Arrives and leaves the participant set at the next advance. -/
  | barDrop (sb d : SReg)
  /-- WAIT (R207). Blocks the split until named counters fall, then performs the scope's release and acquire. -/
  | wait (ld st : Fin 32) (cp tl rm sc : Fin 8)
  /-- BDRAIN (R252). Blocks until the L1's bounded deltas for the context are drained home, then releases at scope. -/
  | bdrain (sc : Fin 8)
  /-- RLD_B32 (R290). Remote load of 4 bytes per lane from peer packages. -/
  | rldB32 (d : VReg) (sb : SReg) (vp : VReg) (sc : Fin 8) (x : Option Word)
  /-- RLD_B64 (R290). Remote load of 8 bytes per lane. -/
  | rldB64 (d : VReg) (sb : SReg) (vp : VReg) (sc : Fin 8) (x : Option Word)
  /-- RLD_B128 (R290). Remote load of 16 bytes per lane. -/
  | rldB128 (d : VReg) (sb : SReg) (vp : VReg) (sc : Fin 8) (x : Option Word)
  /-- RST_B32 (R290). Posted remote store of 4 bytes per lane. -/
  | rstB32 (d : VReg) (sb : SReg) (vp : VReg) (sc : Fin 8) (x : Option Word)
  /-- RST_B64 (R290). Posted remote store of 8 bytes per lane. -/
  | rstB64 (d : VReg) (sb : SReg) (vp : VReg) (sc : Fin 8) (x : Option Word)
  /-- RATOM (R287). Remote atomic per lane, returning the old value. -/
  | ratom (d : VReg) (sb : SReg) (vp : VReg) (sc : Fin 8) (x : Option Word)
  /-- RRED (R295). Posted remote reduction to a package or a reduce group. -/
  | rred (d : VReg) (sb : SReg) (vp : VReg) (sc : Fin 8) (x : Option Word)
  /-- RMCAST (R296). Posted multicast store of 4 bytes per lane to a multicast group. -/
  | rmcast (d : VReg) (sb : SReg) (vp : VReg) (sc : Fin 8) (x : Option Word)
  /-- MMA_E4M3 (R343). E4M3 matrix multiply-accumulate of A from scratchpad and a weight image into a tile. -/
  | mmaE4m3 (t : Fin 4) (sa sw sk : SReg) (pr : Bool)
  /-- MMA_E5M2 (R343). E5M2 matrix multiply-accumulate into a tile. -/
  | mmaE5m2 (t : Fin 4) (sa sw sk : SReg) (pr : Bool)
  /-- MMA_BF16 (R343). bfloat16 matrix multiply-accumulate into a tile. -/
  | mmaBf16 (t : Fin 4) (sa sw sk : SReg) (pr : Bool)
  /-- MMA_F16 (R343). binary16 matrix multiply-accumulate into a tile. -/
  | mmaF16 (t : Fin 4) (sa sw sk : SReg) (pr : Bool)
  /-- MMA_LOG6 (R343). LOG6 matrix multiply-accumulate into a tile. -/
  | mmaLog6 (t : Fin 4) (sa sw sk : SReg) (pr : Bool)
  /-- WBLD_DENSE (R338). Loads a dense B operand image into the weight buffer. -/
  | wbldDense (sa sw sk : SReg)
  /-- WBLD_SP24 (R338). Loads a 2:4 sparse B operand image into the weight buffer. -/
  | wbldSp24 (sa sw sk : SReg)
  /-- WBLD_CB4 (R338). Loads a 4-bit codebook B operand image into the weight buffer. -/
  | wbldCb4 (sa sw sk : SReg)
  /-- TZERO (R347). Writes +0 into every element of a tile. -/
  | tzero (t : Fin 4)
  /-- TMOV (R348). Moves one tile row into a vector register pair. -/
  | tmov (t : Fin 4) (sa : SReg)
  /-- TST (R349). Converts tile rows and writes them to scratchpad. -/
  | tst (t : Fin 4) (sa sk : SReg)
  /-- TADD (R347). Adds one tile elementwise into another. -/
  | tadd (td ts : Fin 4)
  /-- TLD (R349). Loads binary32 rows from scratchpad into a tile. -/
  | tld (t : Fin 4) (sa sk : SReg)
  /-- CP_START (R262). Starts a linear copy on the core's copy engine. -/
  | cpStart (cb tk : SReg)
  /-- CP_RECT (R263). Starts a box copy of up to four dimensions. -/
  | cpRect (cb tk : SReg)
  /-- CP_FILL (R264). Starts a fill of a destination with a repeating 32-bit pattern. -/
  | cpFill (cb tk : SReg)
  /-- CP_TIER (R266). Moves a whole extent between HBM and the demotion pool by a slide. -/
  | cpTier (cb tk : SReg)
  /-- XG_START (R272). Starts this package's part of an exchange described by two layout maps. -/
  | xgStart (cb tk : SReg)
  /-- XG_CANCEL (R276). Cancels the youngest exchange naming tk and requests a landing report. -/
  | xgCancel (cb tk d : SReg)
  /-- TOK_TEST (R267). Reports the progress or the token of the operation named by tk. -/
  | tokTest (tk d : SReg)
  /-- CP_CANCEL (R268). Cancels the unstarted pieces of the youngest copy naming tk. -/
  | cpCancel (tk d : SReg)
  /-- XG_QUERY (R277). Reads one selected count of an outstanding exchange. -/
  | xgQuery (tk d : SReg) (sel : Fin 4)
  /-- CP_BCAST (R265). Copies one source into the scratchpads of a rectangle of blocks. -/
  | cpBcast (cb tk : SReg)
  /-- TRAP (R228). Raises a precise trap fault with detail imm. -/
  | trap (imm : Fin 1024)
  /-- BRKPT (R228). Raises a breakpoint fault when status bit be is 1. -/
  | brkpt (imm : Fin 1024)
  /-- RDSR (R229). Reads the selected status, counter or handler value into sd. -/
  | rdsr (d : SReg) (sel : Fin 256)
  /-- WRSR (R229). Writes the selected status word bits from a scalar. -/
  | wrsr (d : SReg) (sel : Fin 256)
  /-- FRET (R217). Answers the target's frame with resume or skip and ends the handler's run. -/
  | fret (mode : Fin 2)
  /-- FKILL (R219). Answers the frame by killing the warp, block or region and ends the handler's run. -/
  | fkill (unit : Fin 3)
  /-- FRD (R230). Reads one item of the target warp's state into sd. -/
  | frd (d : SReg) (item : Fin 8) (lane : Fin 32) (idx : Fin 1024)
  /-- PCLR (R228). Clears the target's poison bits of a vector register in the lanes of a mask. -/
  | pclr (d : SReg) (r : Fin 128)
  /-- WFETCH (R379). Asks the dispatcher to withdraw a block of a task into a scratchpad mailbox. -/
  | wfetch (sg st : SReg)
  /-- HBEAT (R381). Counts as progress for the watchdog. -/
  | hbeat
  /-- RGCLAIM (R382). Claims n register blocks from the block's reservation, waiting until they are free. -/
  | rgclaim (d : SReg) (n : Fin 16)
  /-- RGREL (R382). Releases the warp's top n register blocks once its ld, tl and rm counters are 0. -/
  | rgrel (d : SReg) (n : Fin 16)
  /-- WDONE (R380). Reports completion of a withdrawn block and adds 1 to the task's done count. -/
  | wdone (sg st : SReg)
  /-- WCOND (R384). Writes a condition word of the issuing task's graph. -/
  | wcond (d : SReg) (idx : Fin 16)
  /-- WLAUNCH (R385). Reads a launch record and enters it in the region's device queue. -/
  | wlaunch (sg st : SReg)
  /-- WYIELD (R386). Waits for every warp of the block to yield, offering the group for save. -/
  | wyield (d : SReg)
  /-- CLAUSE_GRANT (R28). The slot arbiter grants the highest-ranked eligible candidate clause, which then issues one word per cycle. -/
  | clauseGrant (core slot : Nat)
  /-- RANK_AGING (R112). Each 1,024 cycles of an ungranted eligible candidate raise its warp's rank by 1, up to 31. -/
  | rankAging (core wslot : Nat)
  /-- IMPRECISE_FAULT (R213). A storage-error or memory-error naming a block stops its core and adds a frame. -/
  | impreciseFault (core bslot : Nat) (memory : Bool) (unit tile addr : Nat)
  /-- RING_FULL (R212). After 10 ms without room in a frame ring the device sends a ring-full event to the host. -/
  | ringFull (core : Nat)
  /-- HANDLER_START (R218). The core's handler context starts at the domain's entry for the next frame in ring order. -/
  | handlerStart (core : Nat)
  /-- LOAD_COMPLETE (R156). A load's requests are answered, its lanes written with data or poison, and ld falls. -/
  | loadComplete (req : Nat)
  /-- STORE_COMPLETE (R156). A store reaches the place its scope and class give and st falls. -/
  | storeComplete (req : Nat)
  /-- WRITE_THROUGH_APPLY (R149). A store in the L1's write-through queue is applied at its home point of coherence. -/
  | writeThroughApply (req sector : Nat)
  /-- ECB_WALK (R177). On an ECB miss the core walks the context's extent index and fills an ECB entry. -/
  | ecbWalk (core ctx va : Nat)
  /-- PORT_TRANSLATE (R180). An entry port translates each sector of a request by its extent's placement and frontier and forwards it. -/
  | portTranslate (target : PortTarget)
  /-- ROW_REMAP_RELOAD_DONE (R223). The reload finishes and the held requests are released, or the pseudo-channel is retired and evacuated. -/
  | rowRemapReloadDone (port pc : Nat) (img : BootImage)
  /-- CXL_MEM_REQUEST (R280). A host CXL.mem line request is resolved byte by byte through host window entries. -/
  | cxlMemRequest (port addr : Nat) (wr : Option (List Byte))
  /-- BAR2_REQUEST (R392). A host request at BAR2 is split at 64-byte boundaries and resolved through space-1 host windows. -/
  | bar2Request (port off len : Nat) (wr : Option (List Byte))
  /-- SLIDE_START (R182). Marrow starts a slide, writes noff, k, dir and fr, sets sl and broadcasts to all ports. -/
  | slideStart (ctx xid : Nat)
  /-- PORT_SLIDE_BEGIN (R182). A port takes a slide's start values into its placement cache and acknowledges. -/
  | portSlideBegin (port ctx xid : Nat)
  /-- SLIDE_OPEN (R183). Marrow broadcasts open of the next step's window. -/
  | slideOpen (ctx xid : Nat)
  /-- PORT_OPEN (R183). A port begins holding new sectors in the window and performs sectors translated before the open. -/
  | portOpen (port ctx xid : Nat)
  /-- PORT_OPEN_ACK (R183). A port acknowledges the open once no pre-translated sector in the window remains. -/
  | portOpenAck (port ctx xid : Nat)
  /-- SLIDE_COPY (R183). After all open acknowledgments Marrow copies the window's sectors from off to noff. -/
  | slideCopy (ctx xid : Nat)
  /-- SLIDE_ADVANCE (R183). Marrow writes the new frontier into the descriptor and broadcasts it. -/
  | slideAdvance (ctx xid : Nat)
  /-- PORT_ADVANCE (R183). A port updates its placement cache with the new frontier and acknowledges. -/
  | portAdvance (port ctx xid : Nat)
  /-- SLIDE_CLOSE (R183). After all advance acknowledgments Marrow broadcasts close. -/
  | slideClose (ctx xid : Nat)
  /-- PORT_CLOSE (R183). A port releases the held sectors, which translate with the new frontier. -/
  | portClose (port ctx xid : Nat)
  /-- SLIDE_COMMIT (R183). After the last step Marrow writes off := noff, clears the slide fields and broadcasts the commit. -/
  | slideCommit (ctx xid : Nat)
  /-- PORT_COMMIT (R183). A port takes the committed placement into its cache and acknowledges. -/
  | portCommit (port ctx xid : Nat)
  /-- SLIDE_ACK_TIMEOUT (R186). A phase unacknowledged for 100 us stops the slide and escalates as lost remap metadata. -/
  | slideAckTimeout (ctx xid : Nat)
  /-- RESIDENCY_DEMOTE (R187). The residency manager starts demotions of unpinned extents, lowest priority first, when HBM needs room. -/
  | residencyDemote (ctx xid : Nat)
  /-- RESIDENCY_PROMOTE (R187). The residency manager promotes demoted extents, highest priority first, when HBM room allows. -/
  | residencyPromote (ctx xid : Nat)
  /-- RETIRE_ACCESSES_DRAINED (R178). Once checked accesses to a retiring extent have completed, its lines are written back and dropped and it is removed. -/
  | retireAccessesDrained (ctx xid : Nat)
  /-- ARRIVAL_COUNTED (R204). An arrival or drop is counted at its object once the warp's earlier accesses are released. -/
  | arrivalCounted (core wslot : Nat)
  /-- BLOCKED_WORD_RESUME (R209). A split blocked in state 2 resumes when its word's condition is met. -/
  | blockedWordResume (core wslot split : Nat)
  /-- OWNERSHIP_REQUEST (R232). A home slice grants exclusive line ownership to an L1 after recalls and bounded drains. -/
  | ownershipRequest (core line : Nat)
  /-- RECALL (R233). An owning L1 receives a recall and surrenders the line after its current atomic's lanes on it. -/
  | recallLine (line : Nat)
  /-- LINE_SURRENDER (R232). An owner writes the whole line back to the home slice. -/
  | lineSurrender (line : Nat)
  /-- DIRECTORY_MERGE (R234). Sibling directory entries with one owner merge after 65,536 cycles without requests. -/
  | directoryMerge (slice base size : Nat)
  /-- L1_EVICTION (R253). An L1 evicts a line, surrendering ownership or sending drain(release) for a held bounded line. -/
  | l1Eviction (core line : Nat)
  /-- CXL_CACHE_RESPONSE (R236). The host grants a home slice's CXL.cache request and the line changes state. -/
  | cxlCacheResponse (line : Nat) (exclusive : Bool)
  /-- SNPDATA (R236). A host SnpData snoop takes data from a host-coherent line at its home slice. -/
  | snpdata (line : Nat)
  /-- SNPINV (R236). A host SnpInv snoop invalidates a host-coherent line in the slice and every L1. -/
  | snpinv (line : Nat)
  /-- ATOMICOP_COMPLETION (R237). A PCIe AtomicOp completion returns a lane's old value or marks it not-performed. -/
  | atomicopCompletion (req lane : Nat) (resp : PcieResp)
  /-- SHARE_REQ (R247). A home slice answers an L1's share request with half of the unallocated bound. -/
  | shareReq (msg : Nat)
  /-- GRANT (R245). An L1 receives a share grant and becomes a holder or marks the line no-share. -/
  | grant (msg : Nat)
  /-- ADD (R245). A home slice adds one bounded delta to an element with RNE. -/
  | add (msg : Nat)
  /-- DRAIN (R245). A home slice adds an L1's deltas and, on release, returns its share to U. -/
  | drain (msg : Nat)
  /-- FDRAIN (R245). An L1 receives a forced drain and sends its deltas with the same flag. -/
  | fdrain (msg : Nat)
  /-- BLOAD (R247). A home slice drains the holders that a reader's tolerance requires and replies with values. -/
  | bload (msg : Nat)
  /-- BVALUE (R247). The reader's L1 adds its own delta to the returned values and writes the lanes. -/
  | bvalue (msg : Nat)
  /-- COPY_PIECE (R260). A 32-byte piece of a copy is checked and performed, stopping at its first failing byte. -/
  | copyPiece (op j : Nat)
  /-- COPY_COMPLETE (R259). A finished engine operation frees its ILT entries, charges its barrier, writes its token and lowers cp. -/
  | copyComplete (op : Nat)
  /-- EXCHANGE_RUN_EMIT (R273). The exchange engine emits the next run of its walk as a packet, then end messages. -/
  | exchangeRunEmit (part : Nat)
  /-- EXCHANGE_RUN (R274). A receiver checks and writes an arriving run, or keeps it in the receive table, and acknowledges. -/
  | exchangeRun (pkt : Nat)
  /-- RUN_ACKNOWLEDGMENT (R274). A sender records a run as landed or not landed with its cause. -/
  | runAcknowledgment (pkt : Nat)
  /-- RUN_RESEND (R274). A sender sends again a run refused for a full receive table. -/
  | runResend (part j : Nat)
  /-- EXCHANGE_END (R354). A receiving part records a member's end message and the bytes it announces. -/
  | exchangeEnd (pkt : Nat)
  /-- EXCHANGE_PART_COMPLETE (R275). A part with all runs acknowledged and all announced bytes landed completes and charges its barrier. -/
  | exchangePartComplete (part : Nat)
  /-- XG_CANCEL_COMPLETE (R276). After acknowledgments of sent runs, a cancelled part writes its report and completes with st 3. -/
  | xgCancelComplete (part : Nat)
  /-- MATRIX_COMPLETE (R336). A matrix word finishes writing its tile, image, registers or bytes and tl falls. -/
  | matrixComplete (op : Nat)
  /-- REMOTE_REPLAY (R288). A remote word issues its next replay for one peer word's lanes once rm has room. -/
  | remoteReplay (core wslot : Nat)
  /-- REMOTE_REQUEST (R290). A target package checks and performs the items of a request packet at the home slice. -/
  | remoteRequest (pkt : Nat)
  /-- REMOTE_REPLY (R291). A reply writes rld or ratom lanes, charges the barrier, lowers rm and may write the remote status. -/
  | remoteReply (pkt : Nat)
  /-- REMOTE_ACKNOWLEDGMENT (R291). An acknowledgment removes a posted packet from the warp's acknowledgment list. -/
  | remoteAcknowledgment (pkt : Nat)
  /-- REFUSAL (R298). A sender receives a refusal and sends the refused packet again. -/
  | refusal (pkt : Nat)
  /-- RESPONSE_TIMEOUT (R307). An rld or ratom item without reply after the response timeout fails with timeout. -/
  | responseTimeout (replay lane : Nat)
  /-- POSTED_TIMEOUT (R409). A posted packet or exchange run unacknowledged for the response timeout fails. -/
  | postedTimeout (post : Nat)
  /-- FLIT_RECEIVE (R302). A receiver checks a flit's CRC against the expected number and takes its packets and credit return. -/
  | flitReceive (plane : Nat) (bytes : List Byte)
  /-- REPLAY_REQUEST (R302). A sender receiving a replay request resends from the named flit or retrains. -/
  | replayRequest (plane : Nat)
  /-- HEARTBEAT (R304). A heartbeat control flit carries the sender's time base, package ID and incarnation. -/
  | heartbeat (plane : Nat)
  /-- LINK_RETRAIN (R302). A link retrains, resetting q, lack and ret and resending held flits. -/
  | linkRetrain (plane init : Nat)
  /-- LINK_IDLE_TIMEOUT (R302). No valid flit for 10 us makes the link retrain. -/
  | linkIdleTimeout (plane : Nat)
  /-- LINK_DOWN (R302). A link not trained within 2 ms is declared down and its packets fail. -/
  | linkDown (plane : Nat)
  /-- IDLE_FLIT (R301). A link sends an idle flit when no flit has been sent for 100 ns. -/
  | idleFlit (plane : Nat)
  /-- THROTTLE_PROPOSAL (R368). A member power manager receives a collective group's frequency proposal for window T. -/
  | throttleProposal (group member window mhz : Nat)
  /-- ENERGY_WINDOW (R403). At each 10 us window the power manager forms P_lim and each cluster's energy headroom. -/
  | energyWindow (meas : EnergyMeas)
  /-- DOORBELL (R362). A doorbell write copies a queue's new tail, or is ignored and logged when too far ahead. -/
  | doorbell (port q tail : Nat)
  /-- QUEUE_TAKE (R364). Every 4 ns the partition's queue arbiter takes one launch record from the highest-priority queue. -/
  | queueTake (part : Nat)
  /-- PRIORITY_AGING (R365). Each ms a ready task waits raises its effective priority by 1, up to 15. -/
  | priorityAging (task : Nat)
  /-- TASK_DUE (R365). A task first in the ready list for 8 ms without a placement becomes due. -/
  | taskDue (part : Nat)
  /-- DISPATCH_DECISION (R366). A cluster's dispatcher places the next fitting group against energy headroom, or restores a saved one. -/
  | dispatchDecision (cluster : Nat)
  /-- WARP_FREE (R107). An ended warp's slot and registers are freed when its counters reach 0. -/
  | warpFree (core wslot : Nat) (counts : List Nat)
  /-- TASK_RETIRE (R359). A finished task retires after its stores and posted packets are applied, and arms its successors. -/
  | taskRetire (task : Nat)
  /-- PREEMPTION_STARVATION (R369). A ready task waiting 1 ms for resources held by lower-priority blocks makes the dispatcher request pre-emption. -/
  | preemptionStarvation (task : Nat)
  /-- SAVE_COMPLETE (R370). Once a stopped group's outstanding work settles, its save image is written and its resources freed. -/
  | saveComplete (group : Nat)
  /-- RLD_SAVE_TIMEOUT (R371). After 50 us a save records still-outstanding rld replays as replay records. -/
  | rldSaveTimeout (group : Nat)
  /-- WATCHDOG_EXPIRE (R376). A block passing its progress interval or run limit is saved and a watchdog frame written. -/
  | watchdogExpire (block : Nat)
  /-- CLAIM_GRANT (R389). Waiting register claims are granted in ascending warp slot when blocks free. -/
  | claimGrant (block : Nat)
  /-- WYIELD_RELEASE (R386). When every live warp has yielded, the group is saved or every warp resumes with sd 0. -/
  | wyieldRelease (block : Nat)
  /-- WFETCH_FILL (R379). The dispatcher withdraws a block for a wfetch, writes the mailbox and charges 16 bytes. -/
  | wfetchFill (idx : Nat)
  /-- AUDIT_REPLAY (R226). A selected block is replayed alone on another cluster, folding its writes into a signature. -/
  | auditReplay (idx core : Nat)
  /-- AUDIT_REPLAY_END (R227). A replay ends and the audit unit compares signatures and writes a record on mismatch or failure. -/
  | auditReplayEnd (idx : Nat)
  /-- SCRUB_READ (R224). The patrol scrubber reads the next 32-byte granule of its stack. -/
  | scrubRead (port : Nat)
  /-- SCRUB_WRITE (R224). The scrubber writes back a corrected value or poison mark unless a demand write intervened. -/
  | scrubWrite (port : Nat)
  /-- POWER_DOWN_ENTRY (R407). An idle pseudo-channel enters power-down after T_pd. -/
  | powerDownEntry (port pc : Nat)
  /-- SELF_REFRESH_ENTRY (R407). A powered-down pseudo-channel enters self-refresh after a further T_sr. -/
  | selfRefreshEntry (port pc : Nat)
  /-- HBM_THERMAL_BAND (R406). A stack temperature crossing a band threshold changes refresh and may hold or release writes. -/
  | hbmThermalBand (stack temp : Nat)
  /-- INLET_OVERTEMP (R405). An inlet of 60 C or a 110 C junction stops every core, kills every region and reports a device error. -/
  | inletOvertemp (inlet junction : Nat)
  /-- HOST_PORT_DOWN (R390). A host port going down moves host traffic to the other port. -/
  | hostPortDown (port : Nat)
  /-- CXL_PORT_WAIT_TIMEOUT (R390). Host-coherent accesses waiting 2 ms for a down CXL port return uncorrectable errors. -/
  | cxlPortWaitTimeout (req : Nat)
  /-- RESET (R398). Reset starts the board controller's boot sequence. -/
  | reset
  /-- BOOT_STEP (R398). The board controller completes a boot step and moves STATE, or stops on failure. -/
  | bootStep (img : BootImage)
  /-- BAR0_WRITE (R391). A write to a BAR0 register without a row of its own is applied or, outside STATE 3 for roots, discarded and logged. -/
  | bar0Write (port off : Nat) (value : DWord)
  /-- EXTENT_CREATE (R394). Management command 1 creates an extent from a descriptor image. -/
  | extentCreate
  /-- EXTENT_RETIRE (R178). Management command 2 retires an extent. -/
  | extentRetire
  /-- HOST_WINDOW_WRITE (R394). Management command 3 writes a host window table entry. -/
  | hostWindowWrite
  /-- RCB_WRITE (R394). Management command 4 copies an RCB image keeping its in-use fields. -/
  | rcbWrite
  /-- MEMBERSHIP_TABLE_ENTRY (R394). Management command 5 writes a membership entry, failing outstanding items to a removed member. -/
  | membershipTableEntry
  /-- GROUP_TABLE_ENTRY (R394). Management command 6 writes a reduce or multicast group entry. -/
  | groupTableEntry
  /-- FAULT_FRAME_ANSWER (R394). Management command 7 answers a host-answered frame by seq. -/
  | faultFrameAnswer
  /-- PREEMPTION_REQUEST (R369). Management command 8 requests pre-emption of a group, which is drained, saved or flushed. -/
  | preemptionRequest
  /-- REGION_KILL (R394). Management command 9 kills a region as fkill 2. -/
  | regionKill
  /-- ATTESTATION_QUOTE (R401). Management command 10 writes a signed quote over a host nonce and image digests. -/
  | attestationQuote
  /-- ACCEPT_WORK (R394). Management command 11 moves STATE from 3 to 4. -/
  | acceptWork
  /-- DEMOTION_POOL (R394). Management command 12 assigns a partition's host demotion pool. -/
  | demotionPool
  /-- PIN_QUOTA (R394). Management command 13 sets a context's pin quota. -/
  | pinQuota
  /-- AUDIT_SETTING (R394). Management command 14 sets a partition's audit k. -/
  | auditSetting
  /-- PHYSICAL_COPY (R394). Management command 15 copies bytes between physical addresses and releases at .sys. -/
  | physicalCopy
  /-- UNKNOWN_COMMAND (R393). A management command with an unknown code returns status 0xFF and has no effect. -/
  | unknownCommand
  /-- HOST_PORT_UP (R390). A host port that was down comes back up, so host traffic and waiting host-coherent accesses may use it again. -/
  | hostPortUp (port : Nat)
  /-- CHANNEL_EXIT (R407). A pseudo-channel finishes its exit from power-down or self-refresh after the exit latency, and the requests that waited for the exit are served. -/
  | channelExit (port pc : Nat)
  deriving DecidableEq, Repr

/-- Whether the row is a word instruction, one with an encoding in the opcode map. -/
def Instr.isWord : Instr → Bool
  | .clauseGrant _ _ => false
  | .rankAging _ _ => false
  | .impreciseFault _ _ _ _ _ _ => false
  | .ringFull _ => false
  | .handlerStart _ => false
  | .loadComplete _ => false
  | .storeComplete _ => false
  | .writeThroughApply _ _ => false
  | .ecbWalk _ _ _ => false
  | .portTranslate _ => false
  | .rowRemapReloadDone _ _ _ => false
  | .cxlMemRequest _ _ _ => false
  | .bar2Request _ _ _ _ => false
  | .slideStart _ _ => false
  | .portSlideBegin _ _ _ => false
  | .slideOpen _ _ => false
  | .portOpen _ _ _ => false
  | .portOpenAck _ _ _ => false
  | .slideCopy _ _ => false
  | .slideAdvance _ _ => false
  | .portAdvance _ _ _ => false
  | .slideClose _ _ => false
  | .portClose _ _ _ => false
  | .slideCommit _ _ => false
  | .portCommit _ _ _ => false
  | .slideAckTimeout _ _ => false
  | .residencyDemote _ _ => false
  | .residencyPromote _ _ => false
  | .retireAccessesDrained _ _ => false
  | .arrivalCounted _ _ => false
  | .blockedWordResume _ _ _ => false
  | .ownershipRequest _ _ => false
  | .recallLine _ => false
  | .lineSurrender _ => false
  | .directoryMerge _ _ _ => false
  | .l1Eviction _ _ => false
  | .cxlCacheResponse _ _ => false
  | .snpdata _ => false
  | .snpinv _ => false
  | .atomicopCompletion _ _ _ => false
  | .shareReq _ => false
  | .grant _ => false
  | .add _ => false
  | .drain _ => false
  | .fdrain _ => false
  | .bload _ => false
  | .bvalue _ => false
  | .copyPiece _ _ => false
  | .copyComplete _ => false
  | .exchangeRunEmit _ => false
  | .exchangeRun _ => false
  | .runAcknowledgment _ => false
  | .runResend _ _ => false
  | .exchangeEnd _ => false
  | .exchangePartComplete _ => false
  | .xgCancelComplete _ => false
  | .matrixComplete _ => false
  | .remoteReplay _ _ => false
  | .remoteRequest _ => false
  | .remoteReply _ => false
  | .remoteAcknowledgment _ => false
  | .refusal _ => false
  | .responseTimeout _ _ => false
  | .postedTimeout _ => false
  | .flitReceive _ _ => false
  | .replayRequest _ => false
  | .heartbeat _ => false
  | .linkRetrain _ _ => false
  | .linkIdleTimeout _ => false
  | .linkDown _ => false
  | .idleFlit _ => false
  | .throttleProposal _ _ _ _ => false
  | .energyWindow _ => false
  | .doorbell _ _ _ => false
  | .queueTake _ => false
  | .priorityAging _ => false
  | .taskDue _ => false
  | .dispatchDecision _ => false
  | .warpFree _ _ _ => false
  | .taskRetire _ => false
  | .preemptionStarvation _ => false
  | .saveComplete _ => false
  | .rldSaveTimeout _ => false
  | .watchdogExpire _ => false
  | .claimGrant _ => false
  | .wyieldRelease _ => false
  | .wfetchFill _ => false
  | .auditReplay _ _ => false
  | .auditReplayEnd _ => false
  | .scrubRead _ => false
  | .scrubWrite _ => false
  | .powerDownEntry _ _ => false
  | .selfRefreshEntry _ _ => false
  | .hbmThermalBand _ _ => false
  | .inletOvertemp _ _ => false
  | .hostPortDown _ => false
  | .cxlPortWaitTimeout _ => false
  | .reset => false
  | .bootStep _ => false
  | .bar0Write _ _ _ => false
  | .extentCreate => false
  | .extentRetire => false
  | .hostWindowWrite => false
  | .rcbWrite => false
  | .membershipTableEntry => false
  | .groupTableEntry => false
  | .faultFrameAnswer => false
  | .preemptionRequest => false
  | .regionKill => false
  | .attestationQuote => false
  | .acceptWork => false
  | .demotionPool => false
  | .pinQuota => false
  | .auditSetting => false
  | .physicalCopy => false
  | .unknownCommand => false
  | .hostPortUp _ => false
  | .channelExit _ _ => false
  | _ => true

end Sys2Proof
end

