-- ==== Sys2Proof/Machine/State.lean ====
section
/-! DEFINITION. The state of a Celrel package: every piece of state the spec gives the machine, as plain data. Each field's
docstring says its width, the rule and file that name it, and its reset value. -/
namespace Sys2Proof.Machine

/-- Why a run stops. -/
inductive Fault
  /-- Raised by no path: a translation to a physical address that holds no memory is corruption (09_extents.md R179), and a command that
  names one is answered with status invalid (log entry 60). A step's answer needs the type. Safe. -/
  | noMemory
  deriving DecidableEq, Repr

/-- Why an instruction has no meaning. -/
inductive Refusal
  /-- Raised by exec's arm of an instruction that has no meaning yet. Safe. -/
  | notModelled (mnemonic : String)
  deriving DecidableEq, Repr

/-! ### Warps -/

/-- A barrier object: one of a block's area, or 32 bytes of a cluster's store (10_sync.md R195). -/
inductive ObjRef
  | area (blk idx : Nat)
  | store (cluster off : Nat)
  deriving DecidableEq, Repr

/-- The word that blocks a split in state 2, with the operands it read at issue (10_sync.md R205 to R209, 12_atomics.md
R252, 21_work.md R382, R386). -/
inductive Blocked
  | none
  | bar (obj : ObjRef) (phase : Word) (d : Nat)
  | counters (ld st cp tl rm sc : Nat)
  | bdrain (sc : Nat)
  | claim (n d : Nat)
  | release (n d : Nat)
  | yield (d : Nat)
  | token          -- state 3 of `join` and `call`: a token entry (05_control.md R103, R105)
  | entry          -- state 3 of `bdiv`: a token or a split entry (05_control.md R102)
  deriving DecidableEq, Repr

/-- A split entry (05_control.md R97). -/
structure Split where
  /-- 56 bits; 05_control.md R97; reset 0, entry 0: the entry clause. Address of the current clause header. -/
  pc : Nat := 0
  /-- 32 bits; 05_control.md R97; reset 0, entry 0: the launch mask. Lanes of the split. -/
  mask : Word := 0
  /-- 4 bits; 05_control.md R97; reset 0. Clause index of the next word, 0 when the clause has not started. -/
  word : Nat := 0
  /-- 3 bits; 05_control.md R97; reset 0, entry 0: 1. 0 free, 1 ready, 2 blocked, 3 waiting for a token. -/
  state : Nat := 0
  /-- 1 bit; 05_control.md R97; reset 0. td is valid. -/
  tv : Bool := false
  /-- 4 bits; 05_control.md R97; reset 0. Innermost token. -/
  td : Nat := 0
  /-- operands of the blocking word; 10_sync.md R209; reset none. -/
  on : Blocked := .none
  /-- 4 bits; 10_sync.md R209; reset 0. N of the clause of the blocking word. -/
  bn : Nat := 0
  deriving DecidableEq, Repr

/-- A token entry (05_control.md R98). -/
structure Token where
  /-- 32 bits; 05_control.md R98; reset 0. Lanes that have not arrived. -/
  pending : Word := 0
  /-- 32 bits; 05_control.md R98; reset 0. Lanes released at completion. -/
  rejoin : Word := 0
  /-- 2 bits; 05_control.md R98; reset 0. 0 free, 1 join, 2 call, 3 deferred. -/
  kind : Nat := 0
  /-- 1 bit; 05_control.md R98; reset 0. parent is valid. -/
  pv : Bool := false
  /-- 4 bits; 05_control.md R98; reset 0. Enclosing token. -/
  parent : Nat := 0
  /-- 56 bits; 05_control.md R98; reset 0. Rejoin or resume PC. -/
  pc : Nat := 0
  deriving DecidableEq, Repr

/-- A deferred error that a warp holds (07_memory.md R167). -/
structure DeferredErr where
  /-- 64 bits; 07_memory.md R167; no entry at reset. The failing sector. -/
  sva : Nat
  /-- 32 bits; 07_memory.md R167; no entry at reset. Lanes. -/
  lanes : Word
  /-- 4 bits; 21_work.md R373; no entry at reset. Clause index of the erring word. -/
  cidx : Nat
  /-- counter name; 07_memory.md R167; no entry at reset. 0 ld, 1 st, 3 tl. -/
  ctr : Nat
  deriving DecidableEq, Repr

/-- An arrival or drop that has issued and is not yet counted (10_sync.md R204, 20_prog_exchange.md R331). -/
structure Arrival where
  /-- object; 10_sync.md R204; none at reset. -/
  obj : ObjRef
  /-- 32 bits; 10_sync.md R200; none at reset. The address word. -/
  addr : Word
  /-- 1 bit; 10_sync.md R203; none at reset. `bar.drop`. -/
  drop : Bool
  /-- 6 bits; 10_sync.md R202; none at reset. Status scalar. -/
  d : Nat
  /-- 6 bits; 10_sync.md R203; none at reset. Phase scalar of `bar.arrive`. -/
  sv : Nat
  /-- number; 10_sync.md R204; none at reset. Its place among the warp's accesses: it waits for those with lower numbers. -/
  id : Nat
  deriving DecidableEq, Repr

/-- A `wdone` that has issued and whose release is not yet performed (21_work.md R378, R380). -/
structure WDone where
  /-- task number; 21_work.md R380; none at reset. Task of the withdrawn block. -/
  task : Nat
  /-- 32 bits; 21_work.md R380; none at reset. The withdrawn %block. -/
  no : Nat
  /-- 6 bits; 21_work.md R380; none at reset. Status scalar. -/
  d : Nat
  /-- number; 21_work.md R380; none at reset. Its place among the warp's accesses: it waits for those with lower numbers. -/
  id : Nat
  deriving DecidableEq, Repr

/-- A warp slot's contents (01_machine.md R14). Warp slot 32 of a core is its handler context (11_traps.md R218). -/
structure Warp where
  /-- 1 bit; 01_machine.md R14; reset 0. A warp occupies the slot. -/
  present : Bool := false
  /-- block number; 01_machine.md R19; reset 0. The block record of the warp. -/
  blk : Nat := 0
  /-- 5 bits; 05_control.md R90; reset 0. %warp. -/
  widx : Nat := 0
  /-- 16 bits; 05_control.md R90; reset 0. Context ID. -/
  ctx : Nat := 0
  /-- 5 bits; 01_machine.md R14; reset 0. Register blocks held. -/
  alloc : Nat := 0
  /-- 128 × 32 × 32 bits; 06_vector.md R120; reset 0 in every lane. Unlisted registers read 0 in every lane. -/
  vregs : SMap (List Word) := []
  /-- 128 × 32 bits; 06_vector.md R121; reset clear. Poison bits, bit i for lane i. -/
  poison : SMap Word := []
  /-- 64 × 32 bits; 05_control.md R89; reset 0. -/
  sregs : SMap Word := []
  /-- 8 × 32 bits; 05_control.md R89; reset 0. -/
  mregs : SMap Word := []
  /-- 1 bit; 05_control.md R89; reset 0. -/
  scc : Bool := false
  /-- 32 bits; 05_control.md R96, R99; reset 0, at warp start the launch mask. -/
  live : Word := 0
  /-- 8 entries of 128 bits; 05_control.md R97; reset free. -/
  splits : SMap Split := []
  /-- 16 entries of 128 bits; 05_control.md R98; reset free. -/
  tokens : SMap Token := []
  /-- 3 bits; 05_control.md R99; reset 7. Round-robin pointer. -/
  rr : Nat := 7
  /-- 5 bits; 05_control.md R112; reset 0, at warp start 2p + 1. Arbitration rank. -/
  rank : Nat := 0
  /-- cycle count; 05_control.md R112; reset 0. Cycles with an eligible candidate not granted. -/
  age : Nat := 0
  /-- 8 cycle counts; 05_control.md R112; reset 0. Cycles that the clause of each split has been eligible without a break. -/
  eligible : SMap Nat := []
  /-- 32 bits; 11_traps.md R229, 17_prog_stack.md R330; reset 0. Status word. -/
  status : Word := 0
  /-- 5 bits; 02_encoding.md R30; reset 0. Outstanding loads. -/
  ld : Nat := 0
  /-- 5 bits; 02_encoding.md R30; reset 0. Outstanding stores. -/
  st : Nat := 0
  /-- 3 bits; 02_encoding.md R30; reset 0. Outstanding copies. -/
  cp : Nat := 0
  /-- 3 bits; 02_encoding.md R30; reset 0. Outstanding tile operations. -/
  tl : Nat := 0
  /-- 3 bits; 02_encoding.md R30; reset 0. Outstanding remote replays. -/
  rm : Nat := 0
  /-- up to 4 × 32 bits; 10_sync.md R200; reset empty. Foreign list of barrier addresses. -/
  foreign : List Word := []
  /-- up to 5 entries; 07_memory.md R167; reset empty. Deferred errors. -/
  errs : List DeferredErr := []
  /-- 32 bits; 07_memory.md R167; reset 0. Errors beyond the five held. -/
  errCount : Nat := 0
  /-- list; 10_sync.md R204; reset empty. Arrivals not yet counted, oldest first. -/
  arrivals : List Arrival := []
  /-- list; 21_work.md R380; reset empty. `wdone` words whose release is not yet performed, oldest first. -/
  dones : List WDone := []
  /-- 8 bits; 21_work.md R371, R372; reset 0. Warp tag. -/
  tag : Nat := 0
  /-- packet numbers; 15_remote.md R291; reset empty. Acknowledgment list. -/
  acks : List Nat := []
  /-- word and package numbers; 15_remote.md R308; reset empty. Failed posted packets that no release has reported, each with the
  remote word that sent it. -/
  failed : List (Nat × Nat) := []
  /-- word numbers; 15_remote.md R288, R299; reset empty. Remote words of the warp that have not completed. -/
  rwords : List Nat := []
  /-- 1 bit; 11_traps.md R219; reset 0. The warp has been killed. -/
  killed : Bool := false
  deriving DecidableEq, Repr

/-- A granted clause in an issue slot (02_encoding.md R28). -/
structure Run where
  /-- 6 bits; 02_encoding.md R28; none at reset. Warp slot, 32 for the handler context. -/
  wslot : Nat
  /-- 3 bits; 05_control.md R111; none at reset. Split. -/
  split : Nat
  /-- 56 bits; 02_encoding.md R23; none at reset. Address of the clause header. -/
  pc : Nat
  /-- 32 bits; 02_encoding.md R23; none at reset. The header. -/
  hdr : Word
  /-- N × 32 bits; 02_encoding.md R22; none at reset. The clause's words as fetched. -/
  words : List Word
  /-- warp slot and split; 05_control.md R114; none at reset. Co-issue partner. -/
  partner : Option (Nat × Nat) := none
  /-- 1 bit; 05_control.md R114, R115; reset 0. A partner that has taken the clause over and has not passed its header waits. -/
  late : Bool := false
  deriving DecidableEq, Repr

/-! ### Cores -/

/-- An entry of the extent check buffer: the protection part of a descriptor (07_memory.md R146, 09_extents.md R177). -/
structure EcbEntry where
  /-- 16 bits; 09_extents.md R177; none at reset. Context ID. -/
  ctx : Nat
  /-- 16 bits; 09_extents.md R173; none at reset. Extent ID. -/
  xid : Nat
  /-- 56 bits; 09_extents.md R173; none at reset. Base VA. -/
  base : Nat
  /-- 49 bits; 09_extents.md R173; none at reset. Length. -/
  len : Nat
  /-- 3 bits; 09_extents.md R173; none at reset. Class. -/
  cls : Nat
  /-- 3 bits; 09_extents.md R173; none at reset. r in bit 0, w in bit 1, x in bit 2. -/
  perms : Nat
  /-- 1 bit; 09_extents.md R173; none at reset. Alias flag. -/
  al : Bool
  /-- 56 bits; 09_extents.md R173; none at reset. Canonical base. -/
  canon : Nat
  /-- 1 bit; 09_extents.md R173; none at reset. Home interleaved. -/
  il : Bool
  /-- 2 bits; 09_extents.md R173; none at reset. Home cluster. -/
  home : Nat
  /-- 1 bit; 09_extents.md R173; none at reset. Scale data present. -/
  sv : Bool
  /-- 5 bits; 09_extents.md R173; none at reset. Scale shift. -/
  shift : Nat
  /-- 56 bits; 09_extents.md R173; none at reset. Scale base. -/
  sbase : Nat
  /-- 32 bits; 09_extents.md R173; none at reset. Bound B. -/
  bound : Nat
  deriving DecidableEq, Repr

/-- The space of an ILT interval (09_extents.md R188). -/
inductive LockSpace
  | global (ctx : Nat)
  | spad (blk : Nat)
  | store (cluster : Nat)
  deriving DecidableEq, Repr

/-- An entry of an interval lock table (09_extents.md R188). -/
structure Lock where
  /-- operation number; 09_extents.md R188; none at reset. -/
  op : Nat
  /-- 1 bit; 09_extents.md R188; none at reset. Destination role. -/
  dst : Bool
  /-- space; 09_extents.md R188; none at reset. -/
  space : LockSpace
  /-- 56 bits; 09_extents.md R188; none at reset. Start. -/
  lo : Nat
  /-- 57 bits; 09_extents.md R188; none at reset. End, exclusive. -/
  hi : Nat
  deriving DecidableEq, Repr

/-- A valid image of the weight buffer (19_matrix.md R338, R341). -/
structure Image where
  /-- 18 bits; 19_matrix.md R338; none at reset. Offset. -/
  off : Nat
  /-- 18 bits; 19_matrix.md R338; none at reset. Size. -/
  size : Nat
  /-- 3 bits; 19_matrix.md R338; none at reset. Format. -/
  fmt : Nat
  /-- 2 bits; 19_matrix.md R339; none at reset. Form: 0 dense, 1 sp24, 2 cb4. -/
  form : Nat
  /-- 11 bits; 19_matrix.md R338; none at reset. K. -/
  k : Nat
  /-- 7 bits; 19_matrix.md R338; none at reset. N. -/
  n : Nat
  /-- 1 bit; 19_matrix.md R338; none at reset. B carries block scales. -/
  scaled : Bool
  /-- source; 11_traps.md R221, 19_matrix.md R352; none at reset. The words that loaded it from global memory, none for a scratchpad source. -/
  from' : Option (List Word)
  deriving DecidableEq, Repr

/-- A line that an L1 holds for bounded accumulation (12_atomics.md R244). -/
structure Held where
  /-- 32 bits; 12_atomics.md R244; none at reset. Share b. -/
  b : Nat
  /-- 32 bits; 12_atomics.md R244; +0 when created. Tracker t. -/
  t : Nat
  /-- 32 × 32 bits; 12_atomics.md R244; +0 when created. Deltas, unlisted elements +0. -/
  d : SMap Word
  deriving DecidableEq, Repr

/-- One core (01_machine.md R14). -/
structure Core where
  /-- 64 entries; 07_memory.md R146; reset empty. Extent check buffer, newest first. -/
  ecb : List EcbEntry := []
  /-- 64 KiB of 128-byte lines; 07_memory.md R149; reset empty. Valid bytes of the L1's sectors, by context and VA. -/
  l1 : SMap Byte := []
  /-- 32 KiB; 01_machine.md R14; reset empty. Instruction cache: code bytes by context and VA. -/
  icache : SMap Byte := []
  /-- line keys; 12_atomics.md R245; reset empty. Lines marked no-share. -/
  noShare : List Nat := []
  /-- lines; 12_atomics.md R244; reset empty. Lines held for bounded accumulation. -/
  held : SMap Held := []
  /-- 16 entries; 09_extents.md R188; reset empty. Interval lock table. -/
  ilt : List Lock := []
  /-- clause; 02_encoding.md R28; reset none. The granted clause of issue slot 0. -/
  slot0 : Option Run := none
  /-- clause; 02_encoding.md R28; reset none. The granted clause of issue slot 1. -/
  slot1 : Option Run := none
  /-- 4 × 64 × 64 × 32 bits; 19_matrix.md R334; reset +0. Tiles, element (m, n) of tile t at 4096t + 64m + n. -/
  tiles : SMap Word := []
  /-- 192 KiB; 19_matrix.md R334; reset 0. Weight buffer bytes. -/
  wbuf : SMap Byte := []
  /-- 64 entries; 19_matrix.md R341; reset empty. Valid images. -/
  images : List Image := []
  /-- offsets; 19_matrix.md R341; reset empty. Index bytes of the weight buffer whose source sector failed, rising. -/
  wbad : List Nat := []
  /-- 4 areas; 19_matrix.md R352; reset empty. Rows and columns that the last `mma` into a tile wrote. -/
  area : SMap (Nat × Nat) := []
  /-- 1 bit; 11_traps.md R213; reset 0. The core is stopped by a fault. -/
  stopped : Bool := false
  /-- 1 bit; 11_traps.md R213; reset 0. The stop cycle is not over: an issue slot may still issue the word of that cycle. -/
  closing : Bool := false
  /-- frame number; 11_traps.md R218; reset none. The frame the handler context answers. -/
  handling : Option Nat := none
  /-- 1 bit; 11_traps.md R218; reset 0. The handler context has faulted. -/
  hfault : Bool := false
  deriving DecidableEq, Repr

/-! ### Blocks and groups -/

/-- A barrier object of a block's area (10_sync.md R196). -/
structure BarObj where
  /-- 16 bits; 10_sync.md R196; reset 0. -/
  arr : Nat := 0
  /-- 16 bits; 10_sync.md R196; reset the block's warp count. -/
  exparr : Nat := 0
  /-- 32 bits; 10_sync.md R196; reset 0. -/
  phase : Nat := 0
  /-- 48 bits; 10_sync.md R196; reset 0. -/
  expb : Nat := 0
  /-- 48 bits; 10_sync.md R196; reset 0. -/
  landed : Nat := 0
  /-- 1 bit; 10_sync.md R196; reset 0. Error. -/
  er : Bool := false
  /-- 1 bit; 10_sync.md R196; reset 0. Abandoned. -/
  ab : Bool := false
  /-- 3 bits; 10_sync.md R196; reset 0. Scope. -/
  scope : Nat := 0
  /-- 16 bits; 10_sync.md R196; reset 0. -/
  drops : Nat := 0
  deriving DecidableEq, Repr

/-- What an audited block is (11_traps.md R225, R226). -/
inductive AuditRole
  | none
  | selected          -- folds its stores, and performs them
  | replay (task : Nat)
  deriving DecidableEq, Repr

/-- A placed block, kept until its group ends (01_machine.md R19, 07_memory.md R143). -/
structure Block where
  /-- 10 bits; 01_machine.md R13; reset: no block. Core: 192 × cluster + 16 × y + x. -/
  core : Nat := 0
  /-- 3 bits; 11_traps.md R215; reset: no block. Block slot. -/
  bslot : Nat := 0
  /-- group number; 01_machine.md R19; reset: no block. -/
  grp : Nat := 0
  /-- task number; 21_work.md R358; reset: no block. The task instance. -/
  task : Nat := 0
  /-- 16 bits; 01_machine.md R19; reset: no block. Context ID. -/
  ctx : Nat := 0
  /-- 52 bits; 21_work.md R356; reset: no block. PA of the region's RCB. -/
  region : Nat := 0
  /-- 24 bits; 21_work.md R359; reset: no block. %block. -/
  no : Nat := 0
  /-- 6 bits; 21_work.md R358; reset: no block. Warps. -/
  warps : Nat := 0
  /-- 5 bits; 21_work.md R358; reset: no block. Register blocks per warp. -/
  rblk : Nat := 0
  /-- 12 bits; 21_work.md R358; reset: no block. Lane-slice bytes per lane. -/
  lane : Nat := 0
  /-- 19 bits; 21_work.md R358; reset: no block. Scratchpad bytes. -/
  spadLen : Nat := 0
  /-- 8 bits; 21_work.md R358; reset: no block. Barrier objects. -/
  bars : Nat := 0
  /-- 1 bit; 19_matrix.md R334; reset: no block. Matrix kernel. -/
  matrix : Bool := false
  /-- 4 bits; 05_control.md R112; reset: no block. Region priority p. -/
  prio : Nat := 0
  /-- 32 bits; 21_work.md R366; reset: no block. est as it stood at placement, µJ. -/
  est : Nat := 0
  /-- 64 bits; 21_work.md R375; reset: no block. Time of placement, less time before a save. -/
  began : Nat := 0
  /-- 64 bits; 21_work.md R375; reset: no block. Time that the block had run at its last progress, stopped time left out. -/
  progress : Nat := 0
  /-- ns; 11_traps.md R214; reset: no block. Time stopped, which counts toward no interval. -/
  idle : Nat := 0
  /-- 32 bits; 21_work.md R375; reset: no block. Progress interval µs, 0 none. -/
  prog : Nat := 0
  /-- 32 bits; 21_work.md R376; reset: no block. Run limit µs, 0 none. -/
  runlim : Nat := 0
  /-- 1 bit; 11_traps.md R225; reset: no block. Task is auditable. -/
  auditable : Bool := false
  /-- role; 11_traps.md R226; reset: no block. -/
  role : AuditRole := .none
  /-- 64 bits; 11_traps.md R225; reset: no block. Signature of the stores. -/
  sig : DWord := 0
  /-- list; 21_work.md R380; reset: no block. Blocks it withdrew: task number, %block, reported. -/
  took : List (Nat × Nat × Bool) := []
  /-- 1 bit; 07_memory.md R143; reset: no block. The block has ended. -/
  ended : Bool := false
  /-- 1 bit; 11_traps.md R219; reset: no block. The block was killed. -/
  killed : Bool := false
  /-- 1 bit; 11_traps.md R219; reset: no block. A warp of the block has ended without a kill. -/
  survived : Bool := false
  /-- bytes; 07_memory.md R141, R142; 0 at block start. Scratchpad. -/
  spad : SMap Byte := []
  /-- bytes; 07_memory.md R141; 0 at block start. Lane slices, byte o of lane i of warp w at (32w + i) × 2048 + o. -/
  slices : SMap Byte := []
  /-- objects; 10_sync.md R197; at placement the reset column of R196. Barrier area. -/
  area : SMap BarObj := []
  /-- 1 bit; 21_work.md R360; reset: no block. The block is a command of a copy or an exchange task that its engine has not taken. -/
  cmd : Bool := false
  deriving DecidableEq, Repr

/-- A pre-emption of a group in progress (21_work.md R369). -/
structure Preempt where
  /-- 3 bits; 21_work.md R369, 11_traps.md R214; none at reset. 0 drain, 1 save, 2 save without a slot yet, 3 flush, 4 a request that waits
  for a stop to end. -/
  way : Nat
  /-- 64 bits; 21_work.md R371; none at reset. Time of the request. -/
  since : Nat
  /-- block and detail; 21_work.md R376; none at reset. Watchdog frame to write when the save ends. -/
  watchdog : Option (Nat × Nat)
  /-- blocks; 21_work.md R386; none at reset. The blocks whose `wyield` words this save answers. -/
  yield : List Nat
  /-- 1 bit; 21_work.md R371; reset 0. The 50 µs for replies have passed. -/
  late : Bool
  /-- µs; 21_work.md R369; 0 where the request has been handled. The bound L of a request that waits for a stop to end. -/
  bound : Nat := 0
  deriving DecidableEq, Repr

/-- A placed block group (01_machine.md R19). -/
structure Group where
  /-- 2 bits; 01_machine.md R19; none at reset. Cluster. -/
  cluster : Nat
  /-- 4 + 4 bits; 21_work.md R366; none at reset. Origin of the rectangle. -/
  x0 : Nat
  /-- 4 bits; 21_work.md R366; none at reset. Origin of the rectangle, row. -/
  y0 : Nat
  /-- 5 + 4 bits; 21_work.md R358; none at reset. Shape. -/
  w : Nat
  /-- 4 bits; 21_work.md R358; none at reset. Shape, height. -/
  h : Nat
  /-- task number; 21_work.md R359; none at reset. -/
  task : Nat
  /-- 24 bits; 21_work.md R359; none at reset. Group index in the task. -/
  idx : Nat
  /-- block numbers; 21_work.md R359; none at reset. Blocks in row-major order of the rectangle. -/
  blocks : List Nat
  /-- pre-emption; 21_work.md R369; none at reset. -/
  pre : Option Preempt
  deriving DecidableEq, Repr

/-- A saved group (21_work.md R372, R374). -/
structure Saved where
  /-- task number; 21_work.md R372; none at reset. -/
  task : Nat
  /-- 24 bits; 21_work.md R359; none at reset. Group index. -/
  idx : Nat
  /-- 5 + 4 bits; 21_work.md R374; none at reset. Shape. -/
  w : Nat
  /-- 4 bits; 21_work.md R374; none at reset. Shape, height. -/
  h : Nat
  /-- slots; 21_work.md R372; none at reset. Save slot of each block, none for a block that had ended. -/
  slots : List (Option Nat)
  /-- records; 21_work.md R375; none at reset. The blocks' bookkeeping, without the storage the image holds. -/
  blocks : List Block
  /-- counter names; 07_memory.md R167; none at reset. The counters of the deferred errors in the images, by 32 × place in the group
  plus %warp: the image has no room for them. -/
  ctrs : SMap (List Nat)
  /-- word and package numbers; 15_remote.md R308; none at reset. Failed posted packets that no release has reported, by the same
  key. -/
  failed : SMap (List (Nat × Nat))
  /-- offsets; 19_matrix.md R341; none at reset. Failed index bytes of the weight buffers in the images, by place in the group. -/
  wbad : SMap (List Nat)
  /-- objects; 10_sync.md R200, R209; none at reset. Objects on the foreign lists of its
  warps, by place in the group; an object in an area of the group names the place of its block. -/
  foreign : SMap (List ObjRef)
  /-- 1 bit; 21_work.md R376; none at reset. Held back until its watchdog frame is answered. -/
  held : Bool
  deriving DecidableEq, Repr

/-! ### Memory requests -/

/-- The place of a request's bytes (07_memory.md R140). -/
inductive Space
  | global
  | slice (blk widx : Nat)
  | spad (blk : Nat)
  | store (cluster : Nat)
  deriving DecidableEq, Repr

/-- What a request does (07_memory.md R155, R157, R158, 12_atomics.md R239, R250, R251). -/
inductive ReqKind
  | load (sgn : Bool)
  | store
  | sload
  | sstore
  | atomic (op : Nat)
  | bred
  | bnd (eps : Nat)
  | scale (mode : Nat) (sat : Bool) (fmt : Nat)   -- the scale reads of a `vscvt` (06_vector.md R134), with how each lane is rounded
  deriving DecidableEq, Repr

/-- One lane's part of a request. -/
structure Part where
  /-- 5 bits; 07_memory.md R155; none at reset. Lane. -/
  lane : Nat
  /-- 56 bits; 07_memory.md R147; none at reset. Canonical address, or offset in the level. -/
  addr : Nat
  /-- 56 bits; 07_memory.md R147; none at reset. Address as issued. -/
  va : Nat
  /-- up to 256 bits; 07_memory.md R154; none at reset. Data read at issue, compare value first. -/
  data : Nat
  /-- 3 bits; 07_memory.md R148; none at reset. Class of the extent. -/
  cls : Nat
  /-- 16 bits; 09_extents.md R178; none at reset. Extent the check used. -/
  xid : Nat
  /-- 1 bit; 07_memory.md R156; none at reset. Performed. -/
  done : Bool
  /-- up to 128 bits; 07_memory.md R155; none at reset. Value read, or the old value. -/
  res : Nat
  /-- 1 bit; 07_memory.md R166; none at reset. Uncorrectable error. -/
  err : Bool
  /-- 1 bit; 12_atomics.md R237; none at reset. Not performed. -/
  np : Bool
  /-- 16 bits; 02_encoding.md R29, 16_ordering.md R312; 0 at issue. What has landed before the instruction completes: bit j is byte j of a
  local store, bit 0 the registers of a lane of a load or atomic. -/
  landed : Nat := 0
  deriving DecidableEq, Repr

/-- A sector's translation at the ports (09_extents.md R180, R183). -/
inductive Sect
  | none
  | held                    -- arrived in an open window
  | translated (pa : Nat)
  | channelHeld (pa no : Nat)  -- waits for a reload, a wake or a hot stack, with its place in the order of arrival
  | down (since : Nat)      -- waits for a CXL port
  | error                   -- answered with an uncorrectable error
  | done
  deriving DecidableEq, Repr

/-- An outstanding memory instruction (07_memory.md R164). -/
structure Req where
  /-- 10 bits; 07_memory.md R164; none at reset. Core. -/
  core : Nat
  /-- 6 bits; 07_memory.md R164; none at reset. Warp slot. -/
  wslot : Nat
  /-- 8 bits; 21_work.md R371; none at reset. Whether the issuing warp still takes its results. -/
  live : Bool
  /-- 16 bits; 07_memory.md R164; none at reset. Context. -/
  ctx : Nat
  /-- kind; 07_memory.md R155; none at reset. -/
  kind : ReqKind
  /-- place; 07_memory.md R140; none at reset. -/
  space : Space
  /-- bytes; 07_memory.md R155; none at reset. Width. -/
  w : Nat
  /-- 7 bits; 07_memory.md R155; none at reset. First destination register. -/
  vd : Nat
  /-- 3 bits; 02_encoding.md R37; none at reset. Scope. -/
  sc : Nat
  /-- 2 bits; 12_atomics.md R241; none at reset. Ordering. -/
  ord : Nat
  /-- lanes; 07_memory.md R155; none at reset. -/
  parts : List Part
  /-- sectors; 07_memory.md R164; none at reset. By 65,536 × VA / 32 plus the extent ID: two extents may share a sector. -/
  sects : SMap Sect
  /-- order number; 07_memory.md R149; none at reset. 0 not in the write-through queue, else its place. -/
  queued : Nat
  /-- 1 bit; 07_memory.md R156; none at reset. Its counter has fallen. -/
  fell : Bool
  /-- 32 bits; 07_memory.md R158; none at reset. em at issue. -/
  em : Word
  /-- 4 bits; 21_work.md R373; none at reset. Clause index. -/
  cidx : Nat
  deriving DecidableEq, Repr

/-! ### Engines and the matrix unit -/

/-- An engine operation: copies and `cp.tier` (13_engines.md R254 to R268). -/
structure Op where
  /-- 10 bits; 13_engines.md R255; none at reset. Issuing core. -/
  core : Nat
  /-- 6 bits; 13_engines.md R255; none at reset. Issuing warp slot. -/
  wslot : Nat
  /-- 1 bit; 13_engines.md R269; none at reset. The issuing warp still takes the token. -/
  live : Bool
  /-- block number; 13_engines.md R256; none at reset. -/
  blk : Nat
  /-- 16 bits; 13_engines.md R256; none at reset. Context. -/
  ctx : Nat
  /-- 8 bits; 13_engines.md R254; none at reset. Opcode. -/
  code : Nat
  /-- words; 13_engines.md R255; none at reset. Command block as read at issue. -/
  cmd : List Word
  /-- 6 bits; 13_engines.md R254; none at reset. Token scalar. -/
  tk : Nat
  /-- objects; 13_engines.md R257; none at reset. Barrier object. -/
  bar : Option ObjRef
  /-- 26 bits; 13_engines.md R260; none at reset. Bytes of the sequence. -/
  len : Nat
  /-- piece numbers; 13_engines.md R260; none at reset. Pieces performed, rising. -/
  pieces : List Nat
  /-- count; 13_engines.md R267; none at reset. Bytes performed. -/
  done : Nat
  /-- offset and cause; 13_engines.md R258; none at reset. Lowest failing offset. -/
  fail : Option (Nat × Nat)
  /-- 1 bit; 13_engines.md R268; none at reset. Cancelled. -/
  cancel : Bool
  /-- 1 bit; 13_engines.md R266; none at reset. cp.tier: its slide has ended, or was not needed. -/
  ended : Bool
  /-- task number; 21_work.md R360; none at reset. Task whose command it runs, plus 1. -/
  task : Nat
  /-- 2 bits; 13_engines.md R259; 0 at issue. How far its completion has come: 1 its ILT entries are freed, 2 its charge is made. -/
  stage : Nat := 0
  /-- state, cause and offset; 13_engines.md R258, R259; none at issue. What its token will say, once its completion has begun. -/
  close : Option (Nat × Nat × Nat) := none
  deriving DecidableEq, Repr

/-- A package's part of an exchange (13_engines.md R272 to R278, 20_prog_exchange.md R354, R355). -/
structure XPart where
  /-- 10 bits; 13_engines.md R271; none at reset. Issuing core. -/
  core : Nat
  /-- 6 bits; 13_engines.md R271; none at reset. Issuing warp slot. -/
  wslot : Nat
  /-- 1 bit; 13_engines.md R269; none at reset. The issuing warp still takes the token. -/
  live : Bool
  /-- block number; 13_engines.md R256; none at reset. Issuing block. -/
  blk : Nat
  /-- 16 bits; 13_engines.md R272; none at reset. Context. -/
  ctx : Nat
  /-- 16 bits; 13_engines.md R272; none at reset. Exchange tag. -/
  tag : Nat
  /-- 6 bits; 13_engines.md R254; none at reset. Token scalar. -/
  tk : Nat
  /-- object; 13_engines.md R257; none at reset. Barrier object. -/
  bar : Option ObjRef
  /-- 128 bytes each; 13_engines.md R270; none at reset. Source and destination maps as read. -/
  smap : List Byte
  /-- 128 bytes; 13_engines.md R270; none at reset. Destination map as read. -/
  dmap : List Byte
  /-- package IDs; 13_engines.md R272; none at reset. Members. -/
  group : List Nat
  /-- count; 13_engines.md R272; none at reset. Runs of the walk. -/
  runs : Nat
  /-- count; 13_engines.md R273; none at reset. Runs emitted. -/
  next : Nat
  /-- runs; 13_engines.md R274; none at reset. By index: 0 sent, 1 landed, 2 + cause not landed. -/
  stat : SMap Nat
  /-- bytes; 13_engines.md R273; none at reset. Bytes sent, by member. -/
  sent : SMap Nat
  /-- members; 20_prog_exchange.md R354; none at reset. End messages sent. -/
  endsSent : List Nat
  /-- bytes; 13_engines.md R275; none at reset. Bytes announced, by member. -/
  ends : SMap Nat
  /-- members; 13_engines.md R275; none at reset. Members the fabric removed. -/
  removed : List Nat
  /-- bytes; 13_engines.md R275; none at reset. Bytes arrived, by member. -/
  got : SMap Nat
  /-- member and run index; 13_engines.md R278; none at reset. Runs that have arrived. -/
  seen : List (Nat × Nat)
  /-- bytes; 13_engines.md R277; none at reset. Bytes written. -/
  written : Nat
  /-- bytes; 20_prog_exchange.md R355; none at reset. Bytes charged so far. -/
  charged : Nat
  /-- bytes; 13_engines.md R275; none at reset. The part's charge. -/
  charge : Nat
  /-- 1 bit; 13_engines.md R274; none at reset. A failure that sets er. -/
  er : Bool
  /-- cause; 13_engines.md R272; none at reset. bad-map or bad-group, 0 none. -/
  bad : Nat
  /-- report VA; 13_engines.md R276; none at reset. Cancelled, with its report buffer. -/
  cancel : Option Nat
  /-- operation number; 09_extents.md R188; none at reset. Its ILT entries. -/
  lockId : Nat
  /-- task number; 21_work.md R360; none at reset. Task whose command it runs, plus 1. -/
  task : Nat
  /-- 2 bits; 13_engines.md R259; 0 at issue. How far its completion has come: 1 its ILT entries are freed, 2 its charge is made. -/
  stage : Nat := 0
  /-- state, cause and offset; 13_engines.md R258, R259; none at issue. What its token will say, once its completion has begun. -/
  close : Option (Nat × Nat × Nat) := none
  deriving DecidableEq, Repr

/-- A matrix word that has issued and not completed (19_matrix.md R335, R336), with the scalars it read. -/
structure MOp where
  /-- 10 bits; 19_matrix.md R335; none at reset. Core. -/
  core : Nat
  /-- 6 bits; 19_matrix.md R336; none at reset. Issuing warp slot. -/
  wslot : Nat
  /-- 1 bit; 11_traps.md R219; none at reset. The issuing warp still takes its results. -/
  live : Bool
  /-- block number; 19_matrix.md R334; none at reset. Owning block. -/
  blk : Nat
  /-- 8 bits; 19_matrix.md R337; none at reset. Opcode. -/
  code : Nat
  /-- 2 bits; 19_matrix.md R337; none at reset. Tile. -/
  t : Nat
  /-- 2 bits; 19_matrix.md R337; none at reset. Second tile of `tadd`. -/
  ts : Nat
  /-- words; 19_matrix.md R337; none at reset. Scalars read at issue. -/
  args : List Word
  /-- 32 bits; 19_matrix.md R348; none at reset. em at issue. -/
  em : Word
  /-- core; 19_matrix.md R345; none at reset. Partner core of a pair. -/
  partner : Option Nat
  /-- image; 19_matrix.md R341; none at reset. The image of an `mma` or of a `wbld`, as the table held it at issue. -/
  img : Option Image
  /-- image; 19_matrix.md R346; none at reset. The partner's image. -/
  pimg : Option Image
  /-- 4 bits; 21_work.md R373; none at reset. Clause index. -/
  cidx : Nat
  /-- lanes; 02_encoding.md R29; empty at issue. Lanes of a `tmov` whose registers or elements have landed before it completes. -/
  landed : List Nat := []
  /-- bytes; 19_matrix.md R350; empty at issue. Scratchpad bytes that it has read before it completes. -/
  early : SMap Byte := []
  /-- offsets; 19_matrix.md R350; empty at issue. Bytes of the block's scratchpad that stores issued after a `tst` have written. -/
  later : List Nat := []
  deriving DecidableEq, Repr

/-! ### Extents, slides, ports -/

/-- A live extent, as its manager keeps it (09_extents.md R178). -/
structure LiveExt where
  /-- 16 bits; 09_extents.md R178; none at reset. Context. -/
  ctx : Nat
  /-- 16 bits; 09_extents.md R178; none at reset. Extent ID. -/
  xid : Nat
  /-- 52 bits; 09_extents.md R176; none at reset. PA of the descriptor. -/
  desc : Nat
  /-- 49 bits; 09_extents.md R173; none at reset. Length. -/
  len : Nat
  /-- stage; 09_extents.md R178; none at reset. 0 live, 1 retiring. -/
  stage : Nat
  /-- 64 bits; 07_memory.md R150; none at reset. Time of the last access at its port. -/
  used : Nat
  deriving DecidableEq, Repr

/-- The placement part of a descriptor (09_extents.md R173). -/
structure Placement where
  /-- 52 bits; 09_extents.md R173; none at reset. Physical base. -/
  off : Nat
  /-- 1 bit; 09_extents.md R173; none at reset. Sliding. -/
  sl : Bool
  /-- 1 bit; 09_extents.md R173; none at reset. Direction of the slide. -/
  dir : Bool
  /-- 4 bits; 09_extents.md R173; none at reset. log2 of the window in sectors. -/
  k : Nat
  /-- 52 bits; 09_extents.md R173; none at reset. New physical base. -/
  noff : Nat
  /-- 49 bits; 09_extents.md R173; none at reset. Frontier. -/
  fr : Nat
  deriving DecidableEq, Repr

/-- A slide, waiting or running (09_extents.md R182, R183). -/
structure Slide where
  /-- 16 bits; 09_extents.md R182; none at reset. Context. -/
  ctx : Nat
  /-- 16 bits; 09_extents.md R182; none at reset. Extent ID. -/
  xid : Nat
  /-- 52 bits; 09_extents.md R173; none at reset. PA of the descriptor. -/
  desc : Nat
  /-- 49 bits; 09_extents.md R182; none at reset. Length. -/
  len : Nat
  /-- 3 bits; 09_extents.md R182; none at reset. Port of its Marrow engine. -/
  engine : Nat
  /-- 52 bits; 09_extents.md R173; none at reset. New physical base. -/
  noff : Nat
  /-- 4 bits; 09_extents.md R173; none at reset. log2 of the window in sectors. -/
  k : Nat
  /-- step; 09_extents.md R183; none at reset. Index of the current step. -/
  step : Nat
  /-- 4 bits; 09_extents.md R183; none at reset. 0 waiting, 1 started, 2 between steps, 3 opening, 4 copied, 5 advancing,
  6 closing, 7 committing. -/
  phase : Nat
  /-- ports; 09_extents.md R183; none at reset. Ports that took the current broadcast. -/
  took : List Nat
  /-- ports; 09_extents.md R183; none at reset. Ports that acknowledged the open. -/
  acked : List Nat
  /-- placements; 09_extents.md R180; none at reset. The placement cache of each port for this extent. -/
  views : SMap Placement
  /-- 64 bits; 09_extents.md R186; none at reset. Start of the current phase. -/
  since : Nat
  /-- 1 bit; 09_extents.md R178; none at reset. A retire stops it at the close. -/
  stop : Bool
  /-- operation; 13_engines.md R266; none at reset. The cp.tier that waits for it, plus 1. -/
  op : Nat
  deriving DecidableEq, Repr

/-- A demotion pool of host memory (09_extents.md R187). -/
structure Pool where
  /-- 52 bits; 09_extents.md R187; none at reset. Host PA of the pool base. -/
  base : Nat
  /-- 52 bits; 09_extents.md R187; none at reset. Length. -/
  len : Nat
  deriving DecidableEq, Repr

/-- A pseudo-channel: its row-remap table and its power state (11_traps.md R223, 23_platform.md R407). -/
structure Chan where
  /-- 2 bits; 11_traps.md R223; reset 2. Good copies of the row-remap table. -/
  copies : Nat := 2
  /-- rows; 11_traps.md R223; reset none. The row-remap table: failed rows and the spare rows they are sent to. -/
  rows : List (Nat × Nat) := []
  /-- 1 bit; 11_traps.md R223; reset 0. Reloading. -/
  reload : Bool := false
  /-- 1 bit; 11_traps.md R223; reset 0. Retired. -/
  retired : Bool := false
  /-- 2 bits; 23_platform.md R407; reset 0. 0 active, 1 power-down, 2 self-refresh, 3 leaving. -/
  power : Nat := 0
  /-- 2 bits; 23_platform.md R407; reset 0. The state it leaves. -/
  from' : Nat := 0
  /-- 64 bits; 23_platform.md R407; reset 0. Start of the current exit, or of a reload. -/
  since : Nat := 0
  /-- 64 bits; 23_platform.md R407; reset 0. Time of the last demand request or Marrow access. -/
  idle : Nat := 0
  deriving DecidableEq, Repr

/-- A patrol scrubber (11_traps.md R224). -/
structure Scrub where
  /-- granule; 11_traps.md R224; reset 0 (DESIGN CHOICE 0, log entry 4). Next granule of the stack, by stack address / 32. -/
  pos : Nat := 0
  /-- granule; 11_traps.md R224; reset none. PA read, and whether its error is uncorrectable. -/
  pend : Option (Nat × Bool) := none
  deriving DecidableEq, Repr

/-- A line's bounded accounting at home (12_atomics.md R244). -/
structure BndLine where
  /-- 32 bits; 12_atomics.md R244; B when first used. Unallocated bound U. -/
  u : Nat
  /-- up to 8; 12_atomics.md R244; empty when first used. Holders: core and share. -/
  holders : List (Nat × Nat)
  deriving DecidableEq, Repr

/-- A message between an L1 and a home slice (12_atomics.md R245). -/
inductive BMsg
  | shareReq
  | grant (b : Nat)
  | add (e δ : Nat)
  | drain (d : SMap Word) (release answer : Bool)     -- answer: the reply to an fdrain
  | fdrain (release : Bool)
  | bload (req eps : Nat)
  | bvalue (req : Nat) (vals : List Word) (errs : Word)
  deriving DecidableEq, Repr

/-- An error that the device has found and the next step escalates (11_traps.md R221): a corrupt extent table, or a sector of an extent with
no good copy. -/
inductive Upset
  | corrupt
  | sector (ctx xid cls pa va : Nat)
  deriving DecidableEq, Repr

/-- A message in flight, with its core and line. -/
structure BMail where
  /-- 10 bits; 12_atomics.md R245; none at reset. Core of the L1. -/
  core : Nat
  /-- 65 bits; 12_atomics.md R245; none at reset. Line, with its context. -/
  line : Nat
  /-- message; 12_atomics.md R245; none at reset. What it says. -/
  msg : BMsg
  deriving DecidableEq, Repr

/-- A bload at home that waits for the drains it forced, or a share-req that waits (12_atomics.md R247). -/
structure BWait where
  /-- 10 bits; 12_atomics.md R247; none at reset. Core that waits. -/
  core : Nat
  /-- 65 bits; 12_atomics.md R247; none at reset. Line, with its context. -/
  line : Nat
  /-- request; 12_atomics.md R247; none at reset. 0 a share-req, else the ld.bnd request plus 1. -/
  req : Nat
  /-- cores; 12_atomics.md R247; none at reset. Holders whose drains it awaits. -/
  wait : List Nat
  deriving DecidableEq, Repr

/-- An entry of the region directory (12_atomics.md R234). -/
structure DirEntry where
  /-- 8 bits; 12_atomics.md R234; none at reset. Home slice. -/
  slice : Nat
  /-- 16 bits; 12_atomics.md R234; none at reset. Context. -/
  ctx : Nat
  /-- 56 bits; 12_atomics.md R234; none at reset. First address of the span. -/
  base : Nat
  /-- bytes; 12_atomics.md R234; none at reset. Size of the span. -/
  size : Nat
  /-- 10 bits; 12_atomics.md R234; none at reset. Owner. -/
  core : Nat
  /-- cycles; 12_atomics.md R234; none at reset. Last request. -/
  last : Nat
  deriving DecidableEq, Repr

/-! ### Faults -/

/-- A frame of a fault, written or waiting for room (11_traps.md R212, R215). -/
structure Frame where
  /-- 10 bits; 11_traps.md R215; none at reset. Core that it stops, 768 for none. -/
  core : Nat
  /-- 52 bits; 11_traps.md R211; none at reset. PA of the domain descriptor. -/
  dom : Nat
  /-- 32 bits; 11_traps.md R215; none at reset. seq, once written. -/
  seq : Option Nat
  /-- 6 bits; 11_traps.md R218; none at reset. Warp slot of its target, 33 for a block frame. -/
  wslot : Nat
  /-- block number; 11_traps.md R215; none at reset. Block. -/
  blk : Nat
  /-- 8 bits; 11_traps.md R216; none at reset. Class. -/
  cls : Nat
  /-- records; 11_traps.md R212; none at reset. Frame bytes and continuation records. -/
  bytes : List Byte
  /-- 1 bit; 11_traps.md R217; none at reset. Answered. -/
  answered : Bool
  /-- 64 bits; 11_traps.md R212; none at reset. Time of the fault. -/
  since : Nat
  /-- 1 bit; 11_traps.md R212; none at reset. A ring-full event has been sent. -/
  full : Bool
  /-- saved group; 21_work.md R376; none at reset. The saved group of a watchdog frame, plus 1. -/
  saved : Nat
  /-- 3 bits; 11_traps.md R215; none at reset. Split of the faulting word. -/
  split : Nat
  /-- 56 bits; 11_traps.md R217; none at reset. Clause that follows the faulting word's. -/
  follow : Nat
  /-- 4 bits; 11_traps.md R217; none at reset. N of the clause. -/
  n : Nat
  /-- 4 bits; 11_traps.md R215; none at reset. Clause index of the faulting word. -/
  cidx : Nat
  /-- 2 bits; 11_traps.md R217; none at reset. Words of the faulting instruction, its literal included. -/
  len : Nat
  /-- 52 bits; 11_traps.md R217; 0 where the frame names no block. Region of the block that it names. -/
  region : Nat := 0
  deriving DecidableEq, Repr

/-! ### Work -/

/-- An armed task (21_work.md R358, R359, R365). -/
structure Task where
  /-- 16 bits; 21_work.md R358; none at reset. Context. -/
  ctx : Nat
  /-- 56 bits; 21_work.md R358; none at reset. TCB VA. -/
  tcb : Nat
  /-- 52 bits; 21_work.md R358; none at reset. PA of the RCB. -/
  region : Nat
  /-- 2 bits; 21_work.md R357; none at reset. Partition. -/
  part : Nat
  /-- 3 bits; 21_work.md R358; none at reset. Kind. -/
  kind : Nat
  /-- 3 bits; 21_work.md R358; none at reset. 0 waiting, 1 ready, 2 running, 3 retired, 4 failed, 5 refused. -/
  st : Nat
  /-- 64 bits; 21_work.md R365; none at reset. Time it became ready. -/
  since : Nat
  /-- 4 bits; 21_work.md R365; none at reset. Priority raise by aging. -/
  aged : Nat
  /-- 64 bits; 21_work.md R365; none at reset. Time it became first in the list. -/
  first : Option Nat
  /-- 1 bit; 21_work.md R365; none at reset. Due. -/
  due : Bool
  /-- 56 bits; 21_work.md R363; none at reset. Completion word VA, 0 none. -/
  cw : Nat
  /-- 32 bits; 21_work.md R363; none at reset. Completion value. -/
  cv : Nat
  /-- graph; 21_work.md R361; none at reset. Graph instance, plus 1. -/
  graph : Nat
  /-- %block list; 21_work.md R379; none at reset. Blocks withdrawn. -/
  withdrawn : List Nat
  /-- groups; 21_work.md R379; none at reset. Groups placed. -/
  groups : List Nat
  /-- 1 bit; 21_work.md R359; none at reset. A block was killed, or its operation failed. -/
  failed : Bool
  /-- count; 11_traps.md R225; none at reset. Selected blocks not yet replayed. -/
  audits : Nat
  /-- extent IDs; 11_traps.md R225, 21_work.md R358; none at reset. Declared input extents. -/
  inputs : List Nat
  /-- 1 bit; 21_work.md R358; none at reset. Marked auditable. -/
  auditable : Bool
  /-- 52 bits; 21_work.md R363; none at reset. Region of the queue whose record armed it. -/
  home : Nat
  /-- 1 bit; 21_work.md R359; none at reset. Armed as a successor: its blocks begin with an acquire. -/
  acq : Bool
  /-- packet numbers; 21_work.md R359; none at reset. Posted packets of its ended blocks. -/
  posts : List Nat
  /-- request numbers; 21_work.md R359; none at reset. Stores of its ended blocks. -/
  stores : List Nat
  /-- 64 bits; 21_work.md R369; none at reset. Time since which it waits for resources. -/
  waits : Option Nat := none
  deriving DecidableEq, Repr

/-- A place relocation of a loaded kernel (03_assembly.md R65, R66). -/
structure PlaceReloc where
  /-- 56 bits; 03_assembly.md R65; none at reset. VA of the literal word that it patches. -/
  va : Nat
  /-- 1 bit; 03_assembly.md R65; none at reset. It patches dy, else dx. -/
  dy : Bool
  /-- 64 bits; 03_assembly.md R66; none at reset. The expression in W and H. -/
  addend : Nat
  deriving DecidableEq, Repr

/-- A kernel that the loader has put on the device (03_assembly.md R62, R66, R68, 19_matrix.md R334). -/
structure LoadedKernel where
  /-- 16 bits; 03_assembly.md R62; none at reset. Context. -/
  ctx : Nat
  /-- 56 bits; 03_assembly.md R62; none at reset. VA of the entry clause. -/
  entry : Nat
  /-- 1 bit; 19_matrix.md R334; none at reset. A matrix kernel. -/
  matrix : Bool
  /-- relocations; 03_assembly.md R66; none at reset. Its place relocations. -/
  relocs : List PlaceReloc
  deriving DecidableEq, Repr

/-- A running graph (21_work.md R361). -/
structure Graph where
  /-- 16 bits; 21_work.md R361; none at reset. Context. -/
  ctx : Nat
  /-- 56 bits; 21_work.md R361; none at reset. VA of the node table. -/
  va : Nat
  /-- 56 bits; 21_work.md R363; none at reset. Completion word VA, 0 none. -/
  cw : Nat
  /-- 32 bits; 21_work.md R363; none at reset. Completion value. -/
  cv : Nat
  /-- 16 × 32 bits; 21_work.md R361; 0 at launch. Condition words. -/
  cond : SMap Word
  /-- task numbers; 21_work.md R361; none at reset. Nodes. -/
  nodes : List Nat
  deriving DecidableEq, Repr

/-- A `wfetch` that the dispatcher has not served (21_work.md R379). -/
structure Fetch where
  /-- block number; 21_work.md R379; none at reset. Issuing block. -/
  blk : Nat
  /-- 16 bits; 21_work.md R379; none at reset. Context. -/
  ctx : Nat
  /-- 56 bits; 21_work.md R379; none at reset. TCB VA. -/
  tcb : Nat
  /-- object; 21_work.md R379; none at reset. Barrier object charged. -/
  bar : ObjRef
  /-- 18 bits; 21_work.md R379; none at reset. Scratchpad offset of the mailbox. -/
  off : Nat
  deriving DecidableEq, Repr

/-- A block selected for audit (11_traps.md R225 to R227). -/
structure Audit where
  /-- task number; 11_traps.md R225; none at reset. Task of the block. -/
  task : Nat
  /-- the block's record; 11_traps.md R226; none at reset. -/
  blk : Block
  /-- 64 bits; 11_traps.md R227; none at reset. Original signature. -/
  sigA : DWord
  /-- core; 11_traps.md R227; none at reset. Replay core, while it runs. -/
  coreB : Option Nat
  /-- block number; 11_traps.md R226; none at reset. Replay block. -/
  rblk : Nat
  /-- 8 bits; 11_traps.md R227; none at reset. Result so far: 0 running, 2 faulted, 3 discarded, 4 not replayable. -/
  result : Nat
  /-- 8 bits; 11_traps.md R227; none at reset. Fault class. -/
  cls : Nat
  deriving DecidableEq, Repr

/-! ### Fabric -/

/-- A fabric packet (15_remote.md R305). -/
structure Packet where
  /-- 8 bits; 15_remote.md R305; none at reset. Kind. -/
  kind : Nat
  /-- 8 bits; 15_remote.md R305; none at reset. Opcode, release flag and scope. -/
  op : Nat
  /-- 12 bits; 15_remote.md R305; none at reset. Source package. -/
  src : Nat
  /-- 12 bits; 15_remote.md R305; none at reset. Target package or group. -/
  dst : Nat
  /-- 1 bit; 15_remote.md R305; none at reset. The target is a group. -/
  grp : Bool
  /-- 16 bits; 15_remote.md R305; none at reset. Source incarnation. -/
  sinc : Nat
  /-- 16 bits; 15_remote.md R305; none at reset. Target incarnation. -/
  tinc : Nat
  /-- 16 bits; 15_remote.md R305; none at reset. Stream. -/
  stream : Nat
  /-- 16 bits; 15_remote.md R305; none at reset. Sequence number. -/
  seq : Nat
  /-- 16 bits; 15_remote.md R305; none at reset. Context. -/
  ctx : Nat
  /-- 16 bits; 15_remote.md R305; none at reset. Exchange tag. -/
  tag : Nat
  /-- 32 bits; 15_remote.md R305; none at reset. Warp tag, or the run index. -/
  wtag : Nat
  /-- 64 bits; 15_remote.md R305; none at reset. Line address or offset. -/
  addr : Nat
  /-- body bytes from 0x20 on; 15_remote.md R305; none at reset. -/
  body : List Byte
  /-- 5 bits; 15_remote.md R309; none at reset. The plane that brought it here, or that carried a kept one away, 32 where none did. It is in no header. -/
  via : Nat := 32
  deriving DecidableEq, Repr

/-- A posted packet without its acknowledgments (15_remote.md R291). -/
structure Post where
  /-- 10 bits; 15_remote.md R291; none at reset. Issuing core, 768 once its warp has ended. -/
  core : Nat
  /-- 6 bits; 15_remote.md R291; none at reset. Issuing warp slot. -/
  wslot : Nat
  /-- number; 15_remote.md R291; none at reset. The remote word that sent it, in the numbering of the warp's accesses. -/
  word : Nat
  /-- packet; 15_remote.md R291; none at reset. The packet. -/
  pkt : Packet
  /-- 5 bits; 15_remote.md R297; none at reset. Plane that carried it. -/
  plane : Nat
  /-- 64 bits; 15_remote.md R308; none at reset. Time sent. -/
  since : Nat
  /-- packages; 15_remote.md R291; none at reset. Members that have not acknowledged. -/
  wait : List Nat
  deriving DecidableEq, Repr

/-- One lane of a remote load or atomic (15_remote.md R290, R291). -/
structure RItem where
  /-- 5 bits; 15_remote.md R290; none at reset. Lane. -/
  lane : Nat
  /-- 64 bits; 15_remote.md R290; none at reset. Address. -/
  va : Nat
  /-- status; 15_remote.md R291; none at reset. None outstanding, else the code of R291. -/
  st : Option Nat
  deriving DecidableEq, Repr

/-- A remote replay in flight (15_remote.md R288, R291). -/
structure Replay where
  /-- word number; 15_remote.md R288; none at reset. -/
  word : Nat
  /-- 32 bits; 15_remote.md R288; none at reset. Peer word. -/
  peer : Word
  /-- 8 bits; 15_remote.md R305; none at reset. Warp tag carried. -/
  tag : Nat
  /-- lanes; 15_remote.md R290; none at reset. Items. -/
  items : List RItem
  /-- packets; 15_remote.md R298; none at reset. Its packets, with the plane of each once it is sent. -/
  pkts : List (Packet × Nat)
  /-- 1 bit; 15_remote.md R299; none at reset. Its packets have been sent; until then a release or an acquire holds them. -/
  sent : Bool
  /-- 64 bits; 15_remote.md R307; none at reset. Time sent. -/
  since : Nat
  deriving DecidableEq, Repr

/-- A remote word: what it read at its first replay, and its progress (15_remote.md R288, R291). -/
structure RWord where
  /-- 10 bits; 15_remote.md R288; none at reset. Issuing core. -/
  core : Nat
  /-- 6 bits; 15_remote.md R288; none at reset. Issuing warp slot. -/
  wslot : Nat
  /-- 1 bit; 11_traps.md R219; none at reset. The issuing warp still takes its results. -/
  live : Bool
  /-- 16 bits; 15_remote.md R285; none at reset. Context. -/
  ctx : Nat
  /-- 3 bits; 15_remote.md R286; none at reset. Opcode − 0xB8. -/
  op : Nat
  /-- 7 bits; 15_remote.md R286; none at reset. First data register. -/
  vd : Nat
  /-- bytes; 15_remote.md R286; none at reset. Width. -/
  w : Nat
  /-- 3 bits; 15_remote.md R287; none at reset. Scope. -/
  sc : Nat
  /-- 2 bits; 15_remote.md R287; none at reset. Ordering. -/
  ord : Nat
  /-- 32 bits; 02_encoding.md R42; none at reset. Literal word. -/
  lit : Word
  /-- lanes; 15_remote.md R285; none at reset. Lane, address, data read at the first replay. -/
  lanes : List (Nat × Nat × Nat)
  /-- object; 15_remote.md R291; none at reset. Barrier object. -/
  bar : Option ObjRef
  /-- 32 bits; 21_work.md R373; none at reset. The barrier address, and 64 bits, the base S. -/
  baddr : Word
  /-- 64 bits; 21_work.md R373; none at reset. The base S. -/
  base : Nat
  /-- peers; 15_remote.md R288; none at reset. Replays not yet issued: peer word and lane mask. -/
  todo : List (Word × Word)
  /-- count; 15_remote.md R291; none at reset. Replays issued and not completed. -/
  out : Nat
  /-- lane and code; 15_remote.md R291; none at reset. Lowest failing lane. -/
  worst : Option (Nat × Nat)
  /-- literal words; 21_work.md R373; none at reset. The instruction word, for a replay record. -/
  head : Word
  deriving DecidableEq, Repr

/-- A flit that a link has sent and keeps until it is acknowledged (15_remote.md R302). -/
structure Flit where
  /-- 32 bits; 15_remote.md R301; none at reset. Sequence number. -/
  num : Nat
  /-- 2 bits; 15_remote.md R303; none at reset. Virtual channel of its slots. -/
  vc : Nat
  /-- 0 to 15; 15_remote.md R304; none at reset. Slots it uses. -/
  slots : Nat
  /-- 256 bytes; 15_remote.md R300; none at reset. -/
  bytes : List Byte
  deriving DecidableEq, Repr

/-- One fabric link (15_remote.md R300 to R304). -/
structure Link where
  /-- 2 bits; 15_remote.md R302; reset 1. 0 up, 1 training, 2 down. -/
  mode : Nat := 1
  /-- 64 bits; 15_remote.md R302; reset 0. Start of the training. -/
  since : Nat := 0
  /-- 32 bits; 15_remote.md R301; reset 0. Flits sent since it trained. -/
  q : Nat := 0
  /-- 32 bits; 15_remote.md R302; reset 0. Flits received in order. -/
  e : Nat := 0
  /-- 1024 flits; 15_remote.md R302; reset empty. Unacknowledged flits, oldest first. -/
  held : List Flit := []
  /-- packets; 15_remote.md R303; reset empty. Packets that wait for slots: virtual channel, plus 4 once a part has been sent, and
  the bytes not yet sent. -/
  queue : List (Nat × List Byte) := []
  /-- 16 bits; 15_remote.md R303; reset 0 (DESIGN CHOICE 0, log entry 4). Slots fixed at training. -/
  init : Nat := 0
  /-- 4 × 16 bits; 15_remote.md R303; reset 0. Slots used, by virtual channel. -/
  sent : SMap Nat := []
  /-- 4 × 16 bits; 15_remote.md R303; reset 0. Highest ret seen. -/
  last : SMap Nat := []
  /-- 4 × 16 bits; 15_remote.md R300; reset 0. Slots freed here. -/
  freed : SMap Nat := []
  /-- 2 bits; 15_remote.md R303; reset 0. Virtual channel of the next ret. -/
  turn : Nat := 0
  /-- 64 bits; 15_remote.md R302; reset 0. Time of the last valid flit received. -/
  rx : Nat := 0
  /-- 64 bits; 15_remote.md R301; reset 0. Time of the last flit sent. -/
  tx : Nat := 0
  /-- 1 bit; 15_remote.md R302; reset 0. Discarding until the replay. -/
  drop : Bool := false
  /-- 2 bits; 15_remote.md R302; reset 0. Replays failed in a row. -/
  fails : Nat := 0
  /-- flit number; 15_remote.md R302; reset none. A replay request received. -/
  ask : Option Nat := none
  /-- bytes; 15_remote.md R304; reset empty. A packet begun in an earlier flit. -/
  part : List Byte := []
  deriving DecidableEq, Repr

/-- An entry of the exchange receive table (13_engines.md R274). -/
structure Recv where
  /-- 16 bits; 13_engines.md R274; none at reset. Context. -/
  ctx : Nat
  /-- 16 bits; 13_engines.md R274; none at reset. Exchange tag. -/
  tag : Nat
  /-- runs; 13_engines.md R274, 20_prog_exchange.md R355; none at reset. Runs to charge in their order: bytes, and whether each failed. -/
  runs : List (Nat × Bool)
  /-- members; 20_prog_exchange.md R354; none at reset. End messages that came first: bytes by package. -/
  ends : SMap Nat
  /-- bytes; 13_engines.md R275; none at reset. Bytes arrived, by member. -/
  got : SMap Nat
  /-- bytes; 13_engines.md R277; none at reset. Bytes written. -/
  written : Nat
  /-- member and run index; 13_engines.md R278; none at reset. Runs that have arrived. -/
  seen : List (Nat × Nat)
  deriving DecidableEq, Repr

/-- A group of the fabric (15_remote.md R294). -/
structure FGroup where
  /-- 1 bit; 15_remote.md R294; none at reset. Multicast, else reduce. -/
  multicast : Bool
  /-- package IDs; 15_remote.md R294; none at reset. Members. -/
  members : List Nat
  deriving DecidableEq, Repr

/-- An entry of the host window table (09_extents.md R181). -/
structure HostWin where
  /-- 1 bit; 09_extents.md R181; none at reset. 0 CXL.mem, 1 BAR2. -/
  space : Bool
  /-- 1 bit; 09_extents.md R181; none at reset. Reads are allowed. -/
  r : Bool
  /-- 1 bit; 09_extents.md R181; none at reset. Writes are allowed. -/
  w : Bool
  /-- 64 bits; 09_extents.md R181; none at reset. First host byte. -/
  base : Nat
  /-- 64 bits; 09_extents.md R181; none at reset. Length. -/
  len : Nat
  /-- 16 bits; 09_extents.md R181; none at reset. Context. -/
  ctx : Nat
  /-- 16 bits; 09_extents.md R181; none at reset. Extent ID. -/
  xid : Nat
  /-- 64 bits; 09_extents.md R181; none at reset. Offset in the extent of the first byte. -/
  o0 : Nat
  deriving DecidableEq, Repr

/-- What the host was last answered (09_extents.md R181, 23_platform.md R392, R393). -/
inductive HostReply
  | data (bytes : List Byte)
  | written
  | poisoned
  | unsupported
  deriving DecidableEq, Repr

/-! ### The machine's parts -/

/-- Memory, caches at home, ports and extents. -/
structure Mem where
  /-- 2^52 bytes; 09_extents.md R179; reset: nothing listed (DESIGN CHOICE 0, log entry 3). Physical memory. -/
  bytes : List Host.Cell := []
  /-- sectors; 11_traps.md R222; reset empty. Poison marks and uncorrectable sectors, PA / 32. -/
  marks : SMap Bool := []
  /-- sectors; 11_traps.md R224; reset empty. Sectors whose ECC fails, PA / 32: true a correctable error, false one that is not
  and has not been marked. -/
  soft : SMap Bool := []
  /-- bytes; 07_memory.md R148; reset empty. Dirty bytes of the home L2 slices, by context and VA. -/
  l2 : SMap Byte := []
  /-- lines; 12_atomics.md R232; reset none. Owning core plus 1, by line. -/
  owner : SMap Nat := []
  /-- lines; 12_atomics.md R236; reset I (0). 1 S, 2 E, 3 M, 4 O. -/
  moesi : SMap Nat := []
  /-- lines; 12_atomics.md R236; reset none. Outstanding CXL.cache requests: 1 RdShared, 2 RdOwn. -/
  cxl : SMap Nat := []
  /-- lines; 12_atomics.md R244; reset none. Bounded accounting. -/
  bnd : SMap BndLine := []
  /-- messages; 12_atomics.md R245; reset empty. In flight, by number. -/
  mail : SMap BMail := []
  /-- list; 12_atomics.md R247; reset empty. Home actions that wait for drains. -/
  waits : List BWait := []
  /-- 2,048 entries per slice; 12_atomics.md R234; reset empty. Region directory. -/
  dir : List DirEntry := []
  /-- extents; 09_extents.md R178; reset empty. Live extents. -/
  exts : List LiveExt := []
  /-- slides; 09_extents.md R182; reset empty. Accepted slides in order. -/
  slides : List Slide := []
  /-- 4; 09_extents.md R187; reset none. Demotion pools by partition. -/
  pools : SMap Pool := []
  /-- contexts; 09_extents.md R187; reset 0. Pin quotas in bytes. -/
  quota : SMap Nat := []
  /-- 512; 11_traps.md R223, 23_platform.md R407; reset active. Pseudo-channels by 64 × port + number. -/
  chans : SMap Chan := []
  /-- 8; 11_traps.md R224; reset 0. Scrubbers. -/
  scrubs : SMap Scrub := []
  /-- 8 × 2 bits; 23_platform.md R406; reset 0. Thermal bands by stack. -/
  bands : SMap Nat := []
  /-- requests; 07_memory.md R164; reset empty. Outstanding memory instructions, by number. -/
  reqs : SMap Req := []
  /-- order number; 07_memory.md R149; reset 0. Next place in a write-through queue. -/
  nextQ : Nat := 0
  /-- 128 MiB; 07_memory.md R144; reset 0. Cluster stores, byte o of cluster c at 2^25 × c + o. -/
  cst : SMap Byte := []
  /-- list; 11_traps.md R221; reset empty. Errors found and not yet escalated (log entry 95). -/
  upsets : List Upset := []
  deriving DecidableEq, Repr

/-- Warps, blocks, engines, tasks. -/
structure Work where
  /-- block records; 01_machine.md R19; reset empty. By number. -/
  blocks : SMap Block := []
  /-- groups; 01_machine.md R19; reset empty. -/
  groups : SMap Group := []
  /-- saved groups; 21_work.md R372; reset empty. -/
  saved : SMap Saved := []
  /-- tasks; 21_work.md R358; reset empty. -/
  tasks : SMap Task := []
  /-- kernels; 03_assembly.md R68, 19_matrix.md R334; reset empty. Loaded kernels. -/
  kernels : List LoadedKernel := []
  /-- graphs; 21_work.md R361; reset empty. -/
  graphs : SMap Graph := []
  /-- operations; 13_engines.md R255; reset empty. -/
  ops : SMap Op := []
  /-- parts; 13_engines.md R272; reset empty. -/
  parts : SMap XPart := []
  /-- 64 entries; 13_engines.md R274; reset empty. Exchange receive table. -/
  recvs : List Recv := []
  /-- context and tag; 13_engines.md R276; reset empty. Exchanges whose cancelled part has completed here: runs that arrive later
  are charged to nothing. -/
  xgDead : List (Nat × Nat) := []
  /-- words; 19_matrix.md R335; reset empty. Matrix words by number, in issue order. -/
  mops : SMap MOp := []
  /-- 4 × 64 entries; 09_extents.md R188; reset empty. Cluster interval lock tables. -/
  ilts : SMap (List Lock) := []
  /-- frames; 11_traps.md R212; reset empty. Frames not yet retired from their ring, oldest first. -/
  frames : SMap Frame := []
  /-- requests; 21_work.md R379; reset empty. -/
  fetches : SMap Fetch := []
  /-- audits; 11_traps.md R225; reset empty. -/
  audits : SMap Audit := []
  /-- records; 21_work.md R362; reset empty. Device queues of regions, by RCB PA: context and record. -/
  devq : SMap (List (Nat × List Byte)) := []
  /-- 4; 21_work.md R364; reset 0 (DESIGN CHOICE 0, log entry 4). The number after the queue last taken, by partition. -/
  lastQ : SMap Nat := []
  /-- 4; 21_work.md R366; reset 0 (DESIGN CHOICE 0, log entry 4). Cluster whose dispatcher decides next, by partition. -/
  turn : SMap Nat := []
  /-- RCB addresses; 23_platform.md R394; reset empty. Regions that the RCB write command has created. -/
  rcbs : List Nat := []
  /-- number; 13_engines.md R255; reset 1. Next number for records of this part. -/
  next : Nat := 1
  deriving DecidableEq, Repr

/-- The fabric side of the package. -/
structure Fabric where
  /-- 12 bits; 15_remote.md R282; reset 0 (DESIGN CHOICE 0, log entry 4). Own package ID. -/
  self : Nat := 0
  /-- 16 bits; 15_remote.md R282; reset 0 (DESIGN CHOICE 0, log entry 4). Own incarnation. -/
  inc : Nat := 0
  /-- 4,096 entries; 15_remote.md R282; reset not valid. Incarnation of each valid member. -/
  members : SMap Nat := []
  /-- 1,024 entries; 15_remote.md R294; reset none. Group table. -/
  groups : SMap FGroup := []
  /-- 32; 15_remote.md R300; reset training. Links. -/
  links : SMap Link := []
  /-- 5 bits; 15_remote.md R297; reset 0 (DESIGN CHOICE 0, log entry 4). Next plane of the spray. -/
  plane : Nat := 0
  /-- packets; 15_remote.md R304; reset empty. Arrived packets by number. -/
  inbox : SMap Packet := []
  /-- number; 15_remote.md R304; reset 0. Next packet number. -/
  nextIn : Nat := 0
  /-- packets; 15_remote.md R291; reset empty. Posted packets. -/
  posts : SMap Post := []
  /-- runs; 13_engines.md R274; reset empty. Exchange runs without acknowledgment: part, run, packet, time. -/
  runs : SMap (Nat × Nat × Packet × Nat) := []
  /-- words; 15_remote.md R288; reset empty. Remote words. -/
  words : SMap RWord := []
  /-- replays; 15_remote.md R288; reset empty. -/
  replays : SMap Replay := []
  /-- 16 bits each; 15_remote.md R298; reset 0 (DESIGN CHOICE 0, log entry 4). Next sequence number by stream. -/
  seqs : SMap Nat := []
  /-- 4,096 entries; 15_remote.md R298; reset empty. Streams at this target: 2^16 × source package + stream. -/
  streams : List Nat := []
  /-- packet numbers; 15_remote.md R298; reset empty. Arrived requests for whose sake no earlier packet of their stream is still under way
  (log entry 40). -/
  whole : List Nat := []
  /-- packets; 15_remote.md R295, R298; reset empty. Group packets applied here: a copy that their sender sends again for another member is
  not applied a second time. -/
  applied : List Packet := []
  /-- lane, status and value; 15_remote.md R290, 16_ordering.md R319; reset empty. Items of an arrived request that have been performed, by
  packet number. -/
  begun : SMap (List (Nat × Nat × Nat)) := []
  /-- number; 15_remote.md R288; reset 1. Next number for records of this part. -/
  next : Nat := 1
  deriving DecidableEq, Repr

/-- The platform: host ports, configuration, power. -/
structure Plat where
  /-- 52 bits; 23_platform.md R391; reset 0. -/
  xroot : Nat := 0
  /-- 52 bits; 23_platform.md R391; reset 0. -/
  qroot : Nat := 0
  /-- 52 bits; 23_platform.md R391; reset 0. -/
  mqroot : Nat := 0
  /-- 5 bits; 23_platform.md R391; reset 0. log2 of the management ring. -/
  mqn : Nat := 0
  /-- 32 bits; 23_platform.md R391; reset 0. Commands completed. -/
  mqhead : Nat := 0
  /-- 32 bits; 23_platform.md R391; reset 0. Commands written. -/
  mqtail : Nat := 0
  /-- 52 bits; 23_platform.md R391; reset 0. -/
  logroot : Nat := 0
  /-- 8 bits; 23_platform.md R391, R398; reset 0. Boot state. -/
  boot : Nat := 0
  /-- 8 bits; 23_platform.md R391, R398; reset 0. Failing boot step. -/
  failed : Nat := 0
  /-- 1 bit; 23_platform.md R391, 11_traps.md R221; reset 0. Device error. -/
  devErr : Bool := false
  /-- 64 bits; 01_machine.md R18, 23_platform.md R391; reset 0. Package time base, ns. -/
  time : Nat := 0
  /-- image; 23_platform.md R398, R399; reset none. The configuration image once verified. -/
  image : Option BootImage := none
  /-- seed; 23_platform.md R398, R401; reset empty. Seed of the identity key pair, once step 2 has derived it. -/
  ident : List Byte := []
  /-- digests; 23_platform.md R401; reset empty. SHAKE256 digests of the images verified so far, in the order of the boot steps. -/
  digests : List (List Byte) := []
  /-- version; 23_platform.md R400; reset 0 (DESIGN CHOICE 0, log entry 4). Monotonic counter of the board controller. -/
  counter : Nat := 0
  /-- 2; 23_platform.md R390; reset up. Host ports that are down, with the time they went down. -/
  down : SMap Nat := []
  /-- 1,024 entries; 09_extents.md R181; reset not valid. Host window table. -/
  wins : SMap HostWin := []
  /-- answers; 09_extents.md R181, 23_platform.md R392; reset none. What the host was last answered, by part of its request. -/
  reply : List HostReply := []
  /-- vectors; 23_platform.md R395; reset empty. MSI-X vectors raised, newest first. -/
  msix : List Nat := []
  /-- command; 09_extents.md R178; reset none. Extent of a retire command that waits. -/
  retiring : Option (Nat × Nat) := none
  /-- 4 × 5 bits; 23_platform.md R404; reset 0 until boot (DESIGN CHOICE 0, log entry 4). Frequency step of each die, in 100 MHz. -/
  freq : SMap Nat := []
  /-- 4; 23_platform.md R404; reset 0 (DESIGN CHOICE 0, log entry 4). Windows in a row under 90 %. -/
  under : SMap Nat := []
  /-- window; 23_platform.md R404; reset none. The 10 µs window that the power managers have handled last. -/
  window : Option Nat := none
  /-- 4; 23_platform.md R403; reset 0 (DESIGN CHOICE 0, log entry 4). Energy headroom of each cluster in µJ. -/
  headroom : SMap Nat := []
  /-- 4; 21_work.md R366; reset 0 (DESIGN CHOICE 0, log entry 4). Largest headroom each cluster has had in µJ. -/
  largest : SMap Nat := []
  /-- W; 23_platform.md R406; reset 0 (DESIGN CHOICE 0, log entry 4). Reduction of P_lim by hot stacks. -/
  hot : Nat := 0
  /-- windows; 21_work.md R368; reset none. Proposals: 2^64 × group + window, member, step. -/
  props : List (Nat × Nat × Nat) := []
  /-- 4 × 32 bits; 11_traps.md R225; reset 1 (a seed of 0 becomes 1). Audit states by partition. -/
  audit : SMap Word := []
  /-- 4 × 5 bits; 11_traps.md R225; reset 10. Audit k by partition. -/
  auditK : SMap Nat := []
  /-- count; 11_traps.md R227; reset 0. Matching replays. -/
  matched : Nat := 0
  deriving DecidableEq, Repr

/-- One turn of the schedule: the model's own way to say which agent moves next (DESIGN CHOICE, log entry 2). -/
inductive Turn
  | issue (core slot : Nat)                    -- an issue slot issues, or its arbiter decides
  | event (e : Instr)                          -- an event of the opcode table
  | tick (ns cycles : Nat)                     -- time passes
  | hostWrite (pa : Nat) (bytes : List Byte)   -- a host processor writes host memory (17_prog_stack.md R329)
  | upset (pa : Nat) (hard : Bool)             -- a sector takes an error (11_traps.md R220)
  | remapUpset (port pc copies : Nat)          -- row-remap copies fail their check (11_traps.md R223)
  | homeUpset (ctx va : Nat)                   -- a dirty sector of a home slice is lost (11_traps.md R220, R221)
  | cacheUpset (core ctx va : Nat)             -- a clean sector of an L1 takes an error (11_traps.md R221)
  | heldUpset (core line e : Nat)              -- d or t of a line that an L1 holds takes an error (12_atomics.md R253)
  | land (req lane byte : Nat)                 -- a lane of a load, an atomic or a local store lands early (02_encoding.md R29)
  | readTile (op off : Nat)                     -- a matrix word reads a scratchpad byte early (19_matrix.md R350)
  | landTile (op lane : Nat)                   -- a lane of a `tmov` lands early (02_encoding.md R29)
  | landRemote (pkt lane : Nat)                -- a lane of an arrived reply lands before the others (02_encoding.md R29)
  | item (pkt lane : Nat)                      -- an item of an arrived request is performed by itself (16_ordering.md R319)
  | whole (pkt : Nat)                          -- no earlier packet that an arrived request waits for is under way (15_remote.md R298)
  | load (k : LoadedKernel) (lo hi : Nat)      -- the loader has put a kernel in code from lo to hi (03_assembly.md R68)
  | unload (ctx entry : Nat)                   -- the loader takes a kernel away
  | bar0Read (off : Nat)                       -- a host reads a BAR0 register (23_platform.md R391)
  deriving DecidableEq, Repr

/-- The whole machine. -/
structure State where
  /-- list of turns; MODEL'S OWN (log entry 2); reset empty (DESIGN CHOICE, log entry 2). Which agents move next. -/
  schedule : List Turn := []
  /-- core and issue slot; MODEL'S OWN (log entry 2); reset (0, 0) (DESIGN CHOICE, log entry 2). The issue slot that moves
  when the schedule is empty, and whose warp a word instruction acts on. -/
  focus : Nat × Nat := (0, 0)
  /-- counter; MODEL'S OWN (log entry 2); reset 0 (DESIGN CHOICE, log entry 2). Free values taken so far. -/
  free : Nat := 0
  /-- 768 cores; 01_machine.md R13, R14; reset idle. By core number. -/
  cores : SMap Core := []
  /-- 33 warp slots per core; 01_machine.md R14, 11_traps.md R218; reset empty. By 33 × core + slot. -/
  warps : SMap Warp := []
  /-- memory; 07_memory.md R148; reset as its fields say. -/
  mem : Mem := {}
  /-- work; 21_work.md; reset as its fields say. -/
  work : Work := {}
  /-- fabric; 15_remote.md; reset as its fields say. -/
  fab : Fabric := {}
  /-- platform; 23_platform.md; reset as its fields say. -/
  plat : Plat := {}
  deriving DecidableEq, Repr

/-- The machine right after reset (23_platform.md R391, R398): no block, no extent, nothing listed in memory. -/
def State.reset : State := {}

end Sys2Proof.Machine
end

