-- ==== Sys2Proof/Machine/Access.lean ====
section
/-! DEFINITION. The accessors of the state: cores, warps, registers, memory bytes by physical address, and the structures the
device reads by physical address. -/
namespace Sys2Proof.Machine

/-- Physical memory: pairs of address and byte with strictly rising addresses, none listing a 0. -/
abbrev Memory := List Host.Cell

/-- What an unlisted byte of memory reads as (DESIGN CHOICE, log entry 3). -/
def unlistedByte : Byte := 0

/-- The canonical form of memory: strictly rising addresses, no entry equal to what an unlisted address reads as. -/
def Memory.wf (m : Memory) : Bool := mwf unlistedByte m

/-- Reading one byte of memory. -/
def Memory.read (m : Memory) (a : Nat) : Byte := mget m unlistedByte a

/-- Writing one byte of memory. -/
def Memory.write (m : Memory) (a : Nat) (b : Byte) : Memory := mset unlistedByte m a b

/-- Whether a physical address holds memory (09_extents.md R179). -/
def paExists (pa : Nat) : Bool := decide (pa < Config.hbmBytes) || (decide (Config.hostBase ≤ pa) && decide (pa < Config.paEnd))

/-- The bytes of physical memory from an address on. -/
def pread (s : State) (pa : Nat) : Nat → List Byte
  | 0 => []
  | n + 1 => s.mem.bytes |> fun m => Memory.read m pa :: pread s (pa + 1) n

/-- Memory with bytes written from an address on. -/
def Memory.writes (m : Memory) (a : Nat) : List Byte → Memory
  | [] => m
  | b :: r => Memory.writes (Memory.write m a b) (a + 1) r

/-- The state with other memory bytes. -/
def State.setBytes (s : State) (m : Memory) : State := { s with mem := { s.mem with bytes := m } }

/-- A poison mark is cleared by a write of all 32 bytes of its sector (11_traps.md R222). -/
def clearMarks (marks : SMap Bool) (pa n : Nat) : SMap Bool :=
  marks.filter (fun p => !(decide (pa ≤ 32 * p.1) && decide (32 * p.1 + 32 ≤ pa + n)))

/-- The scrub write of a granule is cancelled by a demand write to it (11_traps.md R224). -/
def cancelScrubs (scrubs : SMap Scrub) (pa n : Nat) : SMap Scrub :=
  scrubs.map (fun p => (p.1, match p.2.pend with
    | some (g, _) => if decide (pa < g + 32) && decide (g < pa + n) then { p.2 with pend := none } else p.2
    | none => p.2))

/-- A write rewrites a sector's check bits: a correctable error ends, another one with a write of the whole sector. -/
def clearSoft (soft : SMap Bool) (pa n : Nat) : SMap Bool :=
  soft.filter (fun p =>
    let whole := decide (pa ≤ 32 * p.1) && decide (32 * p.1 + 32 ≤ pa + n)
    let part := decide (pa < 32 * p.1 + 32) && decide (32 * p.1 < pa + n)
    !(whole || (p.2 && part)))

/-- Whether the memory ports, and the fabric ports, are out of reset: a failed boot step leaves them held in it (23_platform.md R398). -/
def portsLive (s : State) : Bool := decide (3 ≤ s.plat.boot) && s.plat.failed == 0
def linksLive (s : State) : Bool := decide (4 ≤ s.plat.boot) && s.plat.failed == 0

/-- A demand write of bytes at a physical address (11_traps.md R222, R224). -/
def pwrite (s : State) (pa : Nat) (bs : List Byte) : State :=
  { s with mem := { s.mem with
      bytes := Memory.writes s.mem.bytes pa bs
      marks := clearMarks s.mem.marks pa bs.length
      soft := clearSoft s.mem.soft pa bs.length
      scrubs := cancelScrubs s.mem.scrubs pa bs.length } }

/-- A 64-bit word of physical memory. -/
def pread64 (s : State) (pa : Nat) : Nat := leNat (pread s pa 8)

/-- A 32-bit word of physical memory. -/
def pread32 (s : State) (pa : Nat) : Nat := leNat (pread s pa 4)

/-- Whether a sector (PA / 32) returns an uncorrectable error (11_traps.md R222). -/
def badSector (s : State) (sector : Nat) : Bool := mget s.mem.marks false sector

/-- The next free value, and the state with the counter advanced (log entry 2). -/
def State.takeFree (s : State) : Nat × State := (s.free, { s with free := s.free + 1 })

/-! ### Cores, warps, blocks -/

def State.core (s : State) (c : Nat) : Core := mget s.cores {} c
def State.setCore (s : State) (c : Nat) (k : Core) : State := { s with cores := mset {} s.cores c k }
def State.updCore (s : State) (c : Nat) (f : Core → Core) : State := s.setCore c (f (s.core c))

/-- The key of a warp slot: slots 0 to 31 and the handler context 32 (01_machine.md R14, 11_traps.md R218). -/
def wkey (core wslot : Nat) : Nat := 33 * core + wslot

def State.warp (s : State) (c w : Nat) : Warp := mget s.warps {} (wkey c w)
def State.setWarp (s : State) (c w : Nat) (x : Warp) : State := { s with warps := mset {} s.warps (wkey c w) x }
def State.updWarp (s : State) (c w : Nat) (f : Warp → Warp) : State := s.setWarp c w (f (s.warp c w))

def State.blk (s : State) (b : Nat) : Block := mget s.work.blocks {} b
def State.setBlk (s : State) (b : Nat) (x : Block) : State := { s with work := { s.work with blocks := mput s.work.blocks b x } }
def State.updBlk (s : State) (b : Nat) (f : Block → Block) : State := s.setBlk b (f (s.blk b))

def State.setWork (s : State) (w : Work) : State := { s with work := w }
def State.setMem (s : State) (m : Mem) : State := { s with mem := m }
def State.setFab (s : State) (f : Fabric) : State := { s with fab := f }
def State.setPlat (s : State) (p : Plat) : State := { s with plat := p }

/-- The cluster, x and y of a core number (01_machine.md R13). -/
def coreCluster (c : Nat) : Nat := c / 192
def coreX (c : Nat) : Nat := c % 16
def coreY (c : Nat) : Nat := c % 192 / 16
def coreNo (cluster x y : Nat) : Nat := 192 * cluster + 16 * y + x

/-- The place of a core in log and packet fields: [9:8] cluster, [7:4] x, [3:0] y (11_traps.md R227, 15_remote.md R305). -/
def coreCode (c : Nat) : Nat := 256 * coreCluster c + 16 * coreX c + coreY c

/-! ### Registers -/

/-- 32 lanes of one word each. -/
def zeroRow : List Word := copies 32 0

/-- Lane i of a row. -/
def rowGet (row : List Word) (i : Nat) : Word := row.getD i 0

/-- The row whose lane i is f i. -/
def rowOf (f : Nat → Word) : List Word := (List.range 32).map f

/-- Whether lane i is set in a mask (00_scope.md R6). -/
def laneIn (m : Word) (i : Nat) : Bool := m.getLsbD i

/-- The mask of the lanes that satisfy a test. -/
def maskOf (f : Nat → Bool) : Word :=
  (List.range 32).foldl (fun a i => if f i then a ||| BitVec.ofNat 32 (2 ^ i) else a) 0

/-- The lanes of a mask in ascending order (00_scope.md R8). -/
def lanesOf (m : Word) : List Nat := (List.range 32).filter (laneIn m)

def Warp.v (w : Warp) (r i : Nat) : Word := rowGet (mget w.vregs zeroRow r) i
def Warp.s (w : Warp) (r : Nat) : Word := mget w.sregs 0 r
def Warp.m (w : Warp) (r : Nat) : Word := mget w.mregs 0 r
def Warp.poisoned (w : Warp) (r : Nat) : Word := mget w.poison 0 r

/-- The bits of a status word that are not reserved (11_traps.md R229); reserved bits read as 0 (00_scope.md R5). -/
def statusBits (x : Word) : Word := x &&& 0xFFFF0003

/-- The 64-bit value of a scalar pair (00_scope.md R6). -/
def Warp.pair (w : Warp) (r : Nat) : DWord := w.s (r + 1) ++ w.s r

def Warp.setS (w : Warp) (r : Nat) (x : Word) : Warp := { w with sregs := mset 0 w.sregs r x }
def Warp.setM (w : Warp) (r : Nat) (x : Word) : Warp := { w with mregs := mset 0 w.mregs r x }
def Warp.setScc (w : Warp) (b : Bool) : Warp := { w with scc := b }

/-- Writes lanes of a vector register; a full write of a lane clears its poison bit unless `keep` (06_vector.md R121). -/
def Warp.setV (w : Warp) (r : Nat) (lanes : Word) (f : Nat → Word) (keep : Bool := false) : Warp :=
  let old := mget w.vregs zeroRow r
  { w with
    vregs := mset zeroRow w.vregs r (rowOf (fun i => if laneIn lanes i then f i else rowGet old i))
    poison := if keep then w.poison else mset 0 w.poison r (w.poisoned r &&& ~~~lanes) }

/-- Writes one lane with data, or 0 with its poison bit set (07_memory.md R166). -/
def Warp.setLane (w : Warp) (r i : Nat) (x : Word) (err : Bool) : Warp :=
  let bit := BitVec.ofNat 32 (2 ^ i)
  let w := w.setV r bit (fun _ => if err then 0 else x)
  if err then { w with poison := mset 0 w.poison r (w.poisoned r ||| bit) } else w

def Warp.split (w : Warp) (i : Nat) : Split := mget w.splits {} i
def Warp.setSplit (w : Warp) (i : Nat) (x : Split) : Warp := { w with splits := mset {} w.splits i x }
def Warp.tok (w : Warp) (i : Nat) : Token := mget w.tokens {} i
def Warp.setTok (w : Warp) (i : Nat) (x : Token) : Warp := { w with tokens := mset {} w.tokens i x }

/-- Vector registers of the warp's allocation (02_encoding.md R36). -/
def Warp.regs (w : Warp) : Nat := 8 * w.alloc

/-! ### The issuing word -/

/-- The clause in an issue slot. -/
def Core.slot (k : Core) (i : Nat) : Option Run := if i = 0 then k.slot0 else k.slot1
def Core.setSlot (k : Core) (i : Nat) (r : Option Run) : Core := if i = 0 then { k with slot0 := r } else { k with slot1 := r }

/-- An idle run, read where no clause is granted. -/
def Run.none : Run := ⟨0, 0, 0, 0, [], Option.none, false⟩

/-- The core that issues. -/
def State.hcore (s : State) : Nat := s.focus.1

/-- The clause that issues. -/
def State.run (s : State) : Run := ((s.core s.focus.1).slot s.focus.2).getD Run.none

/-- The warp that issues. -/
def State.hwarp (s : State) : Warp := s.warp s.hcore s.run.wslot
def State.updHere (s : State) (f : Warp → Warp) : State := s.updWarp s.hcore s.run.wslot f

/-- The split that issues. -/
def State.hsplit (s : State) : Split := s.hwarp.split s.run.split

/-- em: the mask of the split that issues (05_control.md, 00_scope.md R6). -/
def State.em (s : State) : Word := s.hsplit.mask

/-- The lanes an instruction visits (00_scope.md R8). -/
def State.active (s : State) (p : Bool) : Word := if p then s.em &&& s.hwarp.m 0 else s.em

/-- Whether the issuing warp is a handler context (11_traps.md R218). -/
def State.inHandler (s : State) : Bool := s.run.wslot == 32

/-- The block of the issuing warp. -/
def State.hblk (s : State) : Block := s.blk s.hwarp.blk

/-! ### Records by number -/

def State.req (s : State) (i : Nat) : Option Req := mfind s.mem.reqs i
def State.setReq (s : State) (i : Nat) (r : Req) : State := { s with mem := { s.mem with reqs := mput s.mem.reqs i r } }
def State.delReq (s : State) (i : Nat) : State := { s with mem := { s.mem with reqs := mdel s.mem.reqs i } }
def State.op (s : State) (i : Nat) : Option Op := mfind s.work.ops i
def State.setOp (s : State) (i : Nat) (o : Op) : State := { s with work := { s.work with ops := mput s.work.ops i o } }
def State.part (s : State) (i : Nat) : Option XPart := mfind s.work.parts i
def State.setPart (s : State) (i : Nat) (o : XPart) : State := { s with work := { s.work with parts := mput s.work.parts i o } }
def State.task (s : State) (i : Nat) : Option Task := mfind s.work.tasks i
def State.setTask (s : State) (i : Nat) (t : Task) : State := { s with work := { s.work with tasks := mput s.work.tasks i t } }
def State.setGroup (s : State) (i : Nat) (g : Group) : State := { s with work := { s.work with groups := mput s.work.groups i g } }
def State.setFrame (s : State) (i : Nat) (f : Frame) : State := { s with work := { s.work with frames := mput s.work.frames i f } }
def State.setMail (s : State) (m : SMap BMail) : State := { s with mem := { s.mem with mail := m } }

/-- A fresh number for a record of the work side. -/
def State.fresh (s : State) : Nat × State := (s.work.next, { s with work := { s.work with next := s.work.next + 1 } })

/-- A fresh number for a record of the fabric side. -/
def State.freshFab (s : State) : Nat × State := (s.fab.next, { s with fab := { s.fab with next := s.fab.next + 1 } })

end Sys2Proof.Machine
end

