-- ==== Sys2Proof/Machine/Extents.lean ====
section
/-! DEFINITION. Extents: descriptors, the walk, placement and translation, and the bytes of global memory at their home
point of coherence (07_memory.md R145 to R149, 09_extents.md R173 to R187). -/
namespace Sys2Proof.Machine

/-- Keys of a byte, a sector and a line of a context's canonical address space. -/
def byteKey (ctx va : Nat) : Nat := 2 ^ 56 * ctx + va
def sectKey (ctx va : Nat) : Nat := 2 ^ 51 * ctx + va / 32
def lineKey (ctx va : Nat) : Nat := 2 ^ 49 * ctx + va / 128
def lineCtx (l : Nat) : Nat := l / 2 ^ 49
def lineVa (l : Nat) : Nat := l % 2 ^ 49 * 128

/-- A descriptor as read from memory (09_extents.md R173). -/
structure Desc where
  ent : EcbEntry
  prio : Nat
  pin : Bool
  pl : Placement
  pa : Nat
  deriving DecidableEq, Repr

/-- What a lookup of an address finds (09_extents.md R175, R177). -/
inductive Walk
  | none
  | corrupt
  | found (d : Desc)
  deriving DecidableEq, Repr

/-- The fields of 64 descriptor bytes (09_extents.md R173). -/
def parseDesc (ctx pa : Nat) (b : List Byte) : Desc :=
  let q (i : Nat) := leNat ((b.drop (8 * i)).take 8)
  let p := bitsOf (q 1) 54 3
  { ent := { ctx := ctx, xid := bitsOf (q 4) 16 16, base := bitsOf (q 0) 0 56, len := bitsOf (q 1) 0 49,
             cls := bitsOf (q 1) 57 3, perms := p, al := bitsOf (q 1) 63 1 == 1, canon := bitsOf (q 2) 0 56,
             il := bitsOf (q 1) 62 1 == 1, home := bitsOf (q 1) 60 2, sv := bitsOf (q 3) 61 1 == 1,
             shift := bitsOf (q 3) 56 5, sbase := bitsOf (q 3) 0 56, bound := bitsOf (q 4) 32 32 }
    prio := bitsOf (q 1) 51 3
    pin := bitsOf (q 5) 63 1 == 1
    pl := { off := bitsOf (q 5) 0 52, sl := bitsOf (q 6) 63 1 == 1, dir := bitsOf (q 6) 62 1 == 1, k := bitsOf (q 6) 58 4,
            noff := bitsOf (q 6) 0 52, fr := bitsOf (q 7) 0 49 }
    pa := pa }

/-- Whether the reserved fields of a descriptor are 0 (09_extents.md R173, R175). -/
def descReservedOk (b : List Byte) : Bool :=
  let q (i : Nat) := leNat ((b.drop (8 * i)).take 8)
  bitsOf (q 0) 56 7 == 0 && bitsOf (q 1) 49 2 == 0 && bitsOf (q 2) 56 8 == 0 && bitsOf (q 3) 62 2 == 0 &&
  bitsOf (q 4) 0 16 == 0 && bitsOf (q 5) 52 11 == 0 && bitsOf (q 6) 52 6 == 0 && bitsOf (q 7) 49 15 == 0

/-- Whether bytes that the device reads by physical address lie in a sector that returns an uncorrectable error: lost metadata (DEDUCED from
11_traps.md R221 row 6, log entry 97). -/
def paBad (s : State) (pa n : Nat) : Bool :=
  !s.mem.marks.isEmpty && (List.range ((pa % 32 + n + 31) / 32)).any (fun i => badSector s (pa / 32 + i))

/-- The descriptor reached through an index entry, or corruption (09_extents.md R175). -/
def readDesc (s : State) (ctx pa idx base : Nat) : Walk :=
  let b := pread s pa 64
  let d := parseDesc ctx pa b
  if paBad s pa 64 then .corrupt
  else if bitsOf (leNat (b.take 8)) 63 1 == 1 && d.ent.xid == idx && d.ent.base == base && decide (d.ent.cls ≤ 5) &&
      decide (d.pl.k ≤ 11) && descReservedOk b then .found d
  else .corrupt

/-- A context's root entry (09_extents.md R176). -/
structure Root where
  v : Bool
  index : Nat
  desc : Nat
  count : Nat
  lowest : Nat
  deriving DecidableEq, Repr

def rootEntry (s : State) (ctx : Nat) : Root :=
  let a := s.plat.xroot + 32 * ctx
  ⟨bitsOf (pread64 s a) 63 1 == 1, bitsOf (pread64 s a) 0 52, bitsOf (pread64 s (a + 8)) 0 52,
   bitsOf (pread64 s (a + 16)) 0 17, bitsOf (pread64 s (a + 24)) 0 56⟩

def indexBase (s : State) (r : Root) (i : Nat) : Nat := bitsOf (pread64 s (r.index + 16 * i)) 0 56
def indexId (s : State) (r : Root) (i : Nat) : Nat := bitsOf (pread64 s (r.index + 16 * i + 8)) 0 16

/-- The 16 probes of the sorted index (09_extents.md R177). -/
def probe (s : State) (r : Root) (va : Nat) : Nat → Nat → Nat
  | 0, pos => pos
  | k + 1, pos =>
    if pos + 2 ^ k < r.count ∧ indexBase s r (pos + 2 ^ k) ≤ va then probe s r va k (pos + 2 ^ k) else probe s r va k pos

/-- Whether an index entry that the probes read cannot be read. -/
def probeBad (s : State) (r : Root) (va : Nat) : Nat → Nat → Bool
  | 0, pos => paBad s (r.index + 16 * pos) 16
  | k + 1, pos =>
    if pos + 2 ^ k < r.count then
      paBad s (r.index + 16 * (pos + 2 ^ k)) 16 ||
        (if indexBase s r (pos + 2 ^ k) ≤ va then probeBad s r va k (pos + 2 ^ k) else probeBad s r va k pos)
    else probeBad s r va k pos

/-- Whether the root entry of a context, or an index entry that a lookup reads, cannot be read. -/
def tablesBad (s : State) (r : Root) (ctx va : Nat) : Bool :=
  !s.mem.marks.isEmpty && (paBad s (s.plat.xroot + 32 * ctx) 32 ||
    (r.v && decide (r.lowest ≤ va) && decide (va < 2 ^ 56) && r.count != 0 && probeBad s r va 16 0))

/-- The lookup of an address of a context in its tables (09_extents.md R177). -/
def walk (s : State) (ctx va : Nat) : Walk :=
  let r := rootEntry s ctx
  if tablesBad s r ctx va then .corrupt
  else if !r.v || decide (va < r.lowest) || decide (2 ^ 56 ≤ va) || r.count == 0 then .none
  else
    let pos := probe s r va 16 0
    match readDesc s ctx (r.desc + 64 * indexId s r pos) (indexId s r pos) (indexBase s r pos) with
    | .found d => if va < d.ent.base + d.ent.len then .found d else .none
    | .corrupt => .corrupt
    | .none => .none

/-- Whether an ECB entry covers an address of a context. -/
def EcbEntry.covers (e : EcbEntry) (ctx va : Nat) : Bool :=
  e.ctx == ctx && decide (e.base ≤ va) && decide (va < e.base + e.len)

/-- The protection part a core finds for an address: its ECB, or the walk (07_memory.md R146, 09_extents.md R177). -/
def protOf (s : State) (core ctx va : Nat) : Walk :=
  match (s.core core).ecb.find? (fun e => e.covers ctx va) with
  | some e => .found ⟨e, 0, false, ⟨0, false, false, 0, 0, 0⟩, 0⟩
  | none => walk s ctx va

/-- The canonical name of an address in an extent (07_memory.md R147). -/
def canonical (e : EcbEntry) (va : Nat) : Nat := if e.al then e.canon + (va - e.base) else va

/-- Whether a class is cached in L1 and L2 (07_memory.md R148). -/
def cachedClass (cls : Nat) : Bool := cls == 0 || cls == 1 || cls == 2 || cls == 4

/-- The home cluster of a line (01_machine.md R16). -/
def homeCluster (e : EcbEntry) (line : Nat) : Nat :=
  if e.il then Config.interleave (lineCtx line) line % 4 else e.home

/-- The extent that fixes a line's home: of those that share the line, the one with the lowest address there (DESIGN CHOICE: 01_machine.md
R16 does not say which, log entry 85). -/
def lineDesc (s : State) (line : Nat) : Walk :=
  ((List.range 128).findSome? (fun i => match walk s (lineCtx line) (lineVa line + i) with
    | .none => none
    | w => some w)).getD .none

/-- The home slice of a line, 64 per cluster (01_machine.md R16). -/
def homeSlice (s : State) (line : Nat) : Nat :=
  let h := match lineDesc s line with
    | .found d => homeCluster d.ent line
    | _ => 0
  64 * h + Config.sliceHash (lineCtx line) line % 64

/-- The physical address of an extent offset under a placement (09_extents.md R180). -/
def place (p : Placement) (o : Nat) : Nat :=
  if p.sl && ((!p.dir && decide (o < p.fr)) || (p.dir && decide (p.fr ≤ o))) then p.noff + o else p.off + o

/-- The slide of an extent, if one is accepted. -/
def slideOf (s : State) (ctx xid : Nat) : Option Slide :=
  s.mem.slides.find? (fun l => l.ctx == ctx && l.xid == xid)

/-- The offsets [lo, hi) of a slide's current step (09_extents.md R183). -/
def Slide.window (l : Slide) : Nat × Nat := (l.step * (32 * 2 ^ l.k), min ((l.step + 1) * (32 * 2 ^ l.k)) l.len)

/-- Whether the sector of an offset overlaps a slide's current window. -/
def Slide.inWindow (l : Slide) (o : Nat) : Bool :=
  decide (l.window.1 ≤ o / 32 * 32 + 31) && decide (o / 32 * 32 < l.window.2)

/-- The placement a port holds for an extent (09_extents.md R180, R182, R183). -/
def portPlace (s : State) (port : Nat) (d : Desc) : Placement :=
  match slideOf s d.ent.ctx d.ent.xid with
  | some l => mget l.views d.pl port
  | none => d.pl

/-- Where the device itself finds an offset of an extent: as the ports do, and at the new place between the copy of a
window and its advance. -/
def devicePlace (s : State) (d : Desc) (o : Nat) : Nat :=
  match slideOf s d.ent.ctx d.ent.xid with
  | some l => if (l.phase == 4 || l.phase == 5) && l.inWindow o then l.noff + o else place d.pl o
  | none => place d.pl o

/-- Whether a port holds newly arriving sectors of an offset (09_extents.md R183, R185). -/
def windowHeld (s : State) (port : Nat) (d : Desc) (o : Nat) : Bool :=
  match slideOf s d.ent.ctx d.ent.xid with
  | some l =>
    l.inWindow o &&
      ((l.phase == 3 && l.took.contains port) || l.phase == 4 || l.phase == 5 || (l.phase == 6 && !l.took.contains port))
  | none => false

/-- The entry port of a request from a cluster (09_extents.md R180). -/
def entryPort (cluster va : Nat) : Nat := 2 * cluster + bitsOf va 12 1

/-! ### Bytes at home -/

/-- One byte of global memory at its place of coherence, and whether it returns an uncorrectable error (07_memory.md R148,
11_traps.md R222). -/
def homeByte (s : State) (d : Desc) (va : Nat) : Byte × Bool :=
  match (if cachedClass d.ent.cls then mfind s.mem.l2 (byteKey d.ent.ctx va) else none) with
  | some b => (b, false)
  | none =>
    let pa := devicePlace s d (va - d.ent.base)
    if badSector s (pa / 32) then (0, true) else (Memory.read s.mem.bytes pa, false)

/-- The canonical descriptor of an address: the non-alias extent that holds it (07_memory.md R147, 09_extents.md R174). -/
def canonDesc (s : State) (ctx va : Nat) : Walk := walk s ctx va

/-- Bytes of global memory at home, or none where an address lies in no extent; the flag says that some byte returned an
uncorrectable error. -/
def homeRead (s : State) (ctx va n : Nat) : Option (List Byte × Bool) :=
  match canonDesc s ctx va with
  | .found d =>
    let l := (List.range n).map (fun i => homeByte s d (va + i))
    some (l.map Prod.fst, l.any Prod.snd)
  | _ => none

/-- Whether a sector of a cached extent would return an error to a narrower write (11_traps.md R222). -/
def narrowError (s : State) (d : Desc) (va n : Nat) : Bool :=
  let sec := va / 32 * 32
  decide (n < 32) && badSector s (devicePlace s d (sec - d.ent.base) / 32) &&
    !(List.range 32).all (fun i => (mfind s.mem.l2 (byteKey d.ent.ctx (sec + i))).isSome)

/-- Bytes set in the dirty bytes of the home slices. -/
def putL2 (m : SMap Byte) (k : Nat) : List Byte → SMap Byte
  | [] => m
  | b :: r => putL2 (mput m k b) (k + 1) r

/-- Whether the home slice of a line has no room for one more dirty line, a slice holding 1 MiB (01_machine.md R20): a write of the line waits
until the slice has written one back. -/
def sliceFull (s : State) (line : Nat) : Bool :=
  let lines := Config.l2SliceBytes / 128
  !decide (s.mem.l2.length < lines) &&
  (let dirty := ((mkeys s.mem.l2).map (· / 128)).eraseDups
   !dirty.contains line && decide (lines ≤ (dirty.filter (fun l => homeSlice s l == homeSlice s line)).length))

/-- The extent is marked as accessed at its port (07_memory.md R150). -/
def markUsed (s : State) (d : Desc) : State :=
  { s with mem := { s.mem with exts := s.mem.exts.map (fun e =>
      if e.ctx == d.ent.ctx && e.xid == d.ent.xid then { e with used := s.plat.time } else e) } }

/-- Writes bytes at the place of coherence of an extent's class: the home slice, or memory for a class that is not cached
(07_memory.md R148). -/
def homeWrite (s : State) (d : Desc) (va : Nat) (bs : List Byte) : State :=
  if cachedClass d.ent.cls then
    { s with mem := { s.mem with
        l2 := putL2 s.mem.l2 (byteKey d.ent.ctx va) bs
        moesi := if d.ent.cls == 2 then mput s.mem.moesi (lineKey d.ent.ctx va) 3 else s.mem.moesi } }
  else markUsed (pwrite s (devicePlace s d (va - d.ent.base)) bs) d

/-- Marks every sector that bytes of an extent touch as poisoned (11_traps.md R222). -/
def homePoison (s : State) (d : Desc) (va n : Nat) : State :=
  let secs := (List.range ((va % 32 + n + 31) / 32)).map (fun i => va / 32 * 32 + 32 * i)
  let s := { s with mem := { s.mem with l2 := s.mem.l2.filter (fun p =>
      !(decide (byteKey d.ent.ctx va ≤ p.1) && decide (p.1 < byteKey d.ent.ctx va + n))) } }
  secs.foldl (fun s v => { s with mem := { s.mem with
      marks := mput s.mem.marks (devicePlace s d (v - d.ent.base) / 32) true } }) s

/-- Permission bits: r 1, w 2, x 4 (09_extents.md R173). -/
def permR : Nat := 1
def permW : Nat := 2
def permX : Nat := 4

/-- The permissions of `need` that `have'` lacks. -/
def lacks (have' need : Nat) : Nat := (have' ^^^ need) &&& need

/-- The live extent record of an extent. -/
def liveExt (s : State) (ctx xid : Nat) : Option LiveExt := s.mem.exts.find? (fun e => e.ctx == ctx && e.xid == xid)

/-- Whether a retire of an extent has passed its step 2 (09_extents.md R178). -/
def retiringExt (s : State) (ctx xid : Nat) : Bool :=
  match liveExt s ctx xid with
  | some e => e.stage != 0
  | none => false

/-- The lookup that a check makes: an extent whose retire has passed step 2 is no longer found (09_extents.md R178). -/
def checkedWalk (s : State) (w : Walk) : Walk :=
  match w with
  | .found d => if retiringExt s d.ent.ctx d.ent.xid then .none else .found d
  | w => w

/-- The ECB with an entry filled (07_memory.md R146). -/
def fillEcb (s : State) (core ctx va : Nat) : State :=
  if (s.core core).ecb.any (fun e => e.covers ctx va) then s
  else
    match checkedWalk s (walk s ctx va) with
    | .found d => s.updCore core (fun k => { k with ecb := (d.ent :: k.ecb).take Config.ecbEntries })
    | _ => s

/-- The check of an access of n bytes against the extent that holds its first byte (07_memory.md R146, R163). A limit past an extent's end
has the byte at that end as its first offending byte, and names the extent that holds that byte, if one does (07_memory.md R163). -/
inductive Check
  | ok (e : EcbEntry)
  | limit (sva : Nat) (xid : Option Nat)
  | perm (missing : Nat) (sva : Nat) (xid : Nat)
  | corrupt
  deriving DecidableEq, Repr

def checkWalk (w : Walk) (va n need : Nat) (after : Nat → Walk) : Check :=
  match w with
  | .none => .limit va none
  | .corrupt => .corrupt
  | .found d =>
    let past := d.ent.base + d.ent.len
    if past < va + n then
      match (if past < 2 ^ 56 then after past else .none) with
      | .found d' => .limit past (some d'.ent.xid)
      | .none => .limit past none
      | .corrupt => .corrupt
    else if lacks d.ent.perms need != 0 then .perm (lacks d.ent.perms need) va d.ent.xid
    else .ok d.ent

/-- A core's check of an access (07_memory.md R146). -/
def coreCheck (s : State) (core ctx va n need : Nat) : Check :=
  if 2 ^ 56 ≤ va then .limit va none else checkWalk (checkedWalk s (protOf s core ctx va)) va n need
    (fun a => checkedWalk s (protOf s core ctx a))

/-- The device's own check of an access, with no ECB (13_engines.md R260, 21_work.md R363). -/
def devCheck (s : State) (ctx va n need : Nat) : Check :=
  if 2 ^ 56 ≤ va then .limit va none else checkWalk (checkedWalk s (walk s ctx va)) va n need (fun a => checkedWalk s (walk s ctx a))

/-- The lookup of a handle: nothing when the ID names no valid extent, corruption as R175 states it (09_extents.md R175, R191). -/
def handleWalk (s : State) (ctx h : Nat) : Walk :=
  let r := rootEntry s ctx
  let pa := r.desc + 64 * h
  let b := pread s pa 64
  let d := parseDesc ctx pa b
  if decide (h < 65536) && (paBad s (s.plat.xroot + 32 * ctx) 32 || (r.v && paBad s pa 64)) then .corrupt
  else if !decide (h < 65536) || !r.v || bitsOf (leNat (b.take 8)) 63 1 != 1 then .none
  else if d.ent.xid != h || decide (5 < d.ent.cls) || decide (11 < d.pl.k) || !descReservedOk b then .corrupt
  else if retiringExt s ctx h then .none
  else .found d

/-- The descriptor of a handle's extent, none when the ID names no valid extent (09_extents.md R191). -/
def handleDesc (s : State) (ctx h : Nat) : Option Desc := match handleWalk s ctx h with | .found d => some d | _ => none

/-- Whether a handle's descriptor is corrupt (09_extents.md R175). -/
def handleCorrupt (s : State) (ctx h : Nat) : Bool := handleWalk s ctx h == .corrupt

/-- The descriptor bytes with a field of 8 bytes changed in its low or high bits. -/
def patch64 (s : State) (pa lo n v : Nat) : State :=
  let old := pread64 s pa
  let cleared := old - bitsOf old lo n * 2 ^ lo
  pwrite s pa (leBytes 8 (cleared + v % 2 ^ n * 2 ^ lo))

end Sys2Proof.Machine
end

