-- ==== Sys2Proof/Machine/Home.lean ====
section
/-! DEFINITION. What an access does at its home point of coherence besides its bytes: channels and host ports that hold it
(11_traps.md R223, 23_platform.md R390, R406, R407), owners and bounded holders (12_atomics.md R233 to R236, R244, R249), errors it finds
(11_traps.md R221), and the accesses that the device itself makes. -/
namespace Sys2Proof.Machine

/-! ### Pseudo-channels -/

/-- The key of a pseudo-channel. -/
def chanKey (port pc : Nat) : Nat := 64 * port + pc

/-- The pseudo-channel of an HBM address: the stack is PA[14:12] (09_extents.md R179). -/
def chanOf (pa : Nat) : Nat := chanKey (bitsOf pa 12 3) (Config.channelOf pa % 64)

def State.chan (s : State) (k : Nat) : Chan := mget s.mem.chans {} k
def State.setChan (s : State) (k : Nat) (c : Chan) : State := { s with mem := { s.mem with chans := mset {} s.mem.chans k c } }

/-- Whether an address is held at its channel: its table is reloading, or it is in a low-power state or leaving one. -/
def chanHeld (s : State) (pa : Nat) : Bool :=
  decide (pa < Config.hbmBytes) && ((s.chan (chanOf pa)).reload || (s.chan (chanOf pa)).power != 0)

/-- A channel in power-down or self-refresh starts its exit (23_platform.md R407). -/
def wakeChan (s : State) (k : Nat) : State :=
  let c := s.chan k
  if c.power = 1 ∨ c.power = 2 then s.setChan k { c with power := 3, from' := c.power, since := s.plat.time } else s

/-- A demand request or Marrow access at a channel: it wakes the channel and restarts its idle timers. -/
def touchChan (s : State) (pa : Nat) : State :=
  if pa < Config.hbmBytes then
    let s := wakeChan s (chanOf pa)
    s.setChan (chanOf pa) { s.chan (chanOf pa) with idle := s.plat.time }
  else s

/-- Whether writes to the stack of an address are held (23_platform.md R406). -/
def hotStack (s : State) (pa : Nat) : Bool := decide (pa < Config.hbmBytes) && mget s.mem.bands 0 (bitsOf pa 12 3) == 3

/-! ### Host ports (23_platform.md R390) -/

/-- Whether a host port is up. -/
def hostUp (s : State) (port : Nat) : Bool := (mfind s.plat.down port).isNone

/-- Whether some host port that runs CXL is up. -/
def cxlUp (s : State) : Bool :=
  (List.range 2).any (fun i => ((s.plat.image.map (fun m => m.cxlPorts.getD i false)).getD false) && hostUp s i)

/-- Whether the host can be reached for a class: CXL for host-coherent extents, any port otherwise. -/
def hostReach (s : State) (cls : Nat) : Bool := if cls == 2 then cxlUp s else hostUp s 0 || hostUp s 1

/-- Whether both CXL ports have been down for 2 ms: a host-coherent access then returns an uncorrectable error. -/
def cxlDead (s : State) : Bool :=
  !cxlUp s && (List.range 2).all (fun i => match mfind s.plat.down i with
    | some t => decide (t + 2000000 ≤ s.plat.time)
    | none => true)

/-! ### Host-coherent lines (12_atomics.md R236) -/

/-- Whether the home slice holds a line so that it may be read or written. -/
def lineReady (s : State) (cls line : Nat) (wr : Bool) : Bool :=
  cls != 2 || (if wr then mget s.mem.moesi 0 line == 2 || mget s.mem.moesi 0 line == 3 else mget s.mem.moesi 0 line != 0)

/-- The home slice asks the host for a line: RdOwn (2) for a write, RdShared (1) for a read. -/
def askLine (s : State) (line : Nat) (wr : Bool) : State :=
  let n := if wr then 2 else max 1 (mget s.mem.cxl 0 line)
  { s with mem := { s.mem with cxl := mput s.mem.cxl line n } }

/-! ### Owned lines (12_atomics.md R233 to R235) -/

/-- Whether the owner of a line is performing an atomic on it: some lanes of the instruction in the line have been performed and some have
not, so that a recall waits (12_atomics.md R235). A bounded add takes no ownership. -/
def lineBusy (s : State) (line : Nat) : Bool :=
  let o := mget s.mem.owner 0 line
  o != 0 && s.mem.reqs.any (fun q =>
    let mine (p : Part) : Bool := cachedClass p.cls && !(q.2.kind == .bred && p.cls == 1) && lineKey q.2.ctx p.addr == line
    q.2.core + 1 == o && q.2.space == .global && (match q.2.kind with | .atomic _ | .bred => true | _ => false) &&
    q.2.parts.any (fun p => p.done && !p.np && mine p) && q.2.parts.any (fun p => !p.done && mine p))

/-- Whether an access of a core to a line waits for a recall of its owner. -/
def recallWait (s : State) (core line : Nat) : Bool := mget s.mem.owner 0 line != core + 1 && lineBusy s line

/-- Whether a core owns a line of a span, of those at home in a slice. -/
def ownsIn (s : State) (slice ctx base size core : Nat) : Bool :=
  s.mem.owner.any (fun p => p.2 == core + 1 && lineCtx p.1 == ctx && decide (base ≤ lineVa p.1) && decide (lineVa p.1 < base + size) &&
    homeSlice s p.1 == slice)

/-- Entries with no owned line left are dropped (12_atomics.md R234). -/
def dirTidy (s : State) : State :=
  { s with mem := { s.mem with dir := s.mem.dir.filter (fun e => ownsIn s e.slice e.ctx e.base e.size e.core) } }

/-- The owner of a line holds it no longer. -/
def dropOwner (s : State) (line : Nat) : State :=
  if mget s.mem.owner 0 line = 0 then s else dirTidy { s with mem := { s.mem with owner := mdel s.mem.owner line } }

/-- The home slice recalls a line from an owner other than the core that asks (12_atomics.md R233). -/
def recallFrom (s : State) (core line : Nat) : State :=
  if mget s.mem.owner 0 line = core + 1 then s else dropOwner s line

/-! ### What holds an access at home -/

/-- Whether a byte of an extent reaches memory rather than a home slice. -/
def reachesMemory (s : State) (d : Desc) (va : Nat) (wr : Bool) : Bool :=
  if cachedClass d.ent.cls then !wr && (mfind s.mem.l2 (byteKey d.ent.ctx va)).isNone else true

/-- Whether a byte can no longer be had: it lies in a host-coherent extent, its line or its host memory is not at hand, and the CXL ports
have been down for 2 ms (23_platform.md R390). -/
def byteDead (s : State) (d : Desc) (va : Nat) (wr : Bool) : Bool :=
  d.ent.cls == 2 && cxlDead s && (!lineReady s 2 (lineKey d.ent.ctx va) wr || reachesMemory s d va wr)

/-- Messages between the L1s and the home slice of a line. -/
def mailFor (s : State) (line : Nat) : Bool := s.mem.mail.any (fun p => p.2.line == line)

/-- What an access of one byte waits for: nothing; another party or a port; its host-coherent line; its channel or its stack; or its
placement has no memory. -/
inductive Hold
  | none
  | wait
  | line
  | memory
  | absent
  deriving DecidableEq, Repr

/-- What a byte waits for where it reaches memory: an open slide window of its port, its host port, its channel or its stack
(09_extents.md R179, R185, 11_traps.md R223, 23_platform.md R390, R406, R407). -/
def memHold (s : State) (port : Nat) (d : Desc) (va : Nat) (wr : Bool) : Hold :=
  let o := va - d.ent.base
  let pa := devicePlace s d o
  if windowHeld s port d o then .wait
  else if !paExists pa then .absent
  else if Config.hostBase ≤ pa ∧ !hostReach s d.ent.cls then .wait
  else if chanHeld s pa || (wr && hotStack s pa) then .memory
  else .none

/-- What a byte waits for at its home slice and beyond: an owner that is performing an atomic, room in the slice, its host-coherent line, or
memory (12_atomics.md R235, R236). A byte that can no longer be had waits for nothing. -/
def homeHold (s : State) (port : Nat) (d : Desc) (va : Nat) (wr : Bool) : Hold :=
  let line := lineKey d.ent.ctx va
  if byteDead s d va wr then .none
  else if lineBusy s line || (wr && cachedClass d.ent.cls && sliceFull s line) then .wait
  else if !lineReady s d.ent.cls line wr then .line
  else if reachesMemory s d va wr then memHold s port d va wr
  else .none

/-- What an access of one byte by another party than a core's L1 waits for: a write of a bounded line also waits for the messages of the line
(12_atomics.md R249). -/
def byteHold (s : State) (port : Nat) (d : Desc) (va : Nat) (wr : Bool) : Hold :=
  if wr && d.ent.cls == 1 && mailFor s (lineKey d.ent.ctx va) then .wait else homeHold s port d va wr

/-! ### Errors that are found (11_traps.md R220, R221) -/

/-- An error is noted: the next step escalates it (log entry 95). -/
def noteUpset (s : State) (u : Upset) : State :=
  if s.mem.upsets.contains u then s else { s with mem := { s.mem with upsets := s.mem.upsets ++ [u] } }

/-- A sector that returned an uncorrectable error, or an error on a write's own bytes, is noted. -/
def noteByte (s : State) (d : Desc) (va : Nat) : State :=
  noteUpset s (.sector d.ent.ctx d.ent.xid d.ent.cls (devicePlace s d (va - d.ent.base) / 32 * 32) (va / 32 * 32))

/-- The state in which an access waits: the host is asked for a line, a channel is woken, a placement with no memory is noted as corruption
(09_extents.md R179). -/
def heldState (s : State) (d : Desc) (va : Nat) (wr : Bool) (h : Hold) : Option State :=
  match h with
  | .none => Option.none
  | .wait => some s
  | .line => some (if cxlUp s then askLine s (lineKey d.ent.ctx va) wr else s)
  | .memory => some (touchChan s (devicePlace s d (va - d.ent.base)))
  | .absent => some (noteUpset s .corrupt)

/-- The state in which an access of one byte waits at memory; none when it need not. -/
def memWait (s : State) (port : Nat) (d : Desc) (va : Nat) (wr : Bool) : Option State := heldState s d va wr (memHold s port d va wr)

/-- The state in which an access of one byte waits; none when it may be performed, or when it can no longer be had. -/
def byteWait (s : State) (port : Nat) (d : Desc) (va : Nat) (wr : Bool) : Option State := heldState s d va wr (byteHold s port d va wr)

/-- What reaching memory does besides the byte: the extent counts as accessed at its port, its channel wakes (07_memory.md R150,
23_platform.md R407). -/
def touchByte (s : State) (d : Desc) (va : Nat) (wr : Bool) : State :=
  if reachesMemory s d va wr then touchChan (markUsed s d) (devicePlace s d (va - d.ent.base)) else s

/-! ### Bounded lines at home (12_atomics.md R244 to R249) -/

/-- The accounting of a bounded line (12_atomics.md R244). -/
def bndLine (s : State) (line bound : Nat) : BndLine := mget s.mem.bnd ⟨bound, []⟩ line

/-- The value of an element at home and whether it returns an uncorrectable error. -/
def homeElem (s : State) (d : Desc) (va : Nat) : Nat × Bool :=
  let l := (List.range 4).map (fun i => homeByte s d (va / 4 * 4 + i))
  (leNat (l.map Prod.fst), l.any Prod.snd)

/-- Home adds a delta to an element with rne, after an owner has been recalled (12_atomics.md R233, R245). An element that returns an
uncorrectable error is left, and the error is escalated; an addition that leaves the bits writes nothing. -/
def addElem (s : State) (line e δ : Nat) : State :=
  let va := lineVa line + 4 * e
  match canonDesc s (lineCtx line) va with
  | .found d =>
    if d.ent.cls != 1 then s
    else
      let s := touchByte (dropOwner s line) d va false
      let v := homeElem s d va
      let x := fadd f32 .rne v.1 δ
      if v.2 then noteByte s d va
      else if x == v.1 then s
      else if narrowError s d va 4 then noteByte s d va
      else homeWrite s d va (leBytes 4 x)
  | .corrupt => noteUpset s .corrupt
  | .none => s

/-- Home adds the 32 deltas of a drain, elements ascending, +0 among them (12_atomics.md R245). -/
def addDeltas (s : State) (line : Nat) (ds : SMap Word) : State :=
  (List.range 32).foldl (fun s e => addElem s line e (mget ds 0 e).toNat) s

/-- A holder's drain is sent and applied: its deltas reach home; a release returns its share to U and removes the holder
(12_atomics.md R245, R247). -/
def drainHolder (s : State) (core line : Nat) (release : Bool) : State :=
  let h := mget (s.core core).held ⟨0, 0, []⟩ line
  let s := addDeltas s line h.d
  if release then
    let s := s.updCore core (fun k => { k with held := mdel k.held line })
    match mfind s.mem.bnd line with
    | some b =>
      let share := ((b.holders.find? (fun p => p.1 == core)).map Prod.snd).getD 0
      let b' : BndLine := ⟨fadd f32 .rz b.u share, b.holders.filter (fun p => p.1 != core)⟩
      { s with mem := { s.mem with bnd := mput s.mem.bnd line b' } }
    | none => s
  else s.updCore core (fun k => if (mfind k.held line).isSome then { k with held := mput k.held line { h with t := 0, d := [] } } else k)

/-- Every holder of a line drains before another kind of access (12_atomics.md R249, log entry 33). -/
def drainLine (s : State) (line : Nat) (release : Bool) : State :=
  match mfind s.mem.bnd line with
  | some b => b.holders.foldl (fun s h => drainHolder s h.1 line release) s
  | none => s

/-- An access by another party than a core's L1: an owner is recalled, and a write drains the holders first (12_atomics.md R233, R249). -/
def visitLine (s : State) (d : Desc) (va : Nat) (wr : Bool) : State :=
  let line := lineKey d.ent.ctx va
  let s := dropOwner s line
  if wr && d.ent.cls == 1 then drainLine s line false else s

/-- What an access of the device, an engine, a host or a peer does besides its bytes (07_memory.md R150, 12_atomics.md R233, R249,
23_platform.md R407). -/
def useByte (s : State) (d : Desc) (va : Nat) (wr : Bool) : State := touchByte (visitLine s d va wr) d va wr

/-! ### Accesses that the device makes itself -/

/-- The entry port of the device's own accesses, which no cluster makes (DESIGN CHOICE, log entry 96). -/
def devicePort (va : Nat) : Nat := entryPort 0 va

/-- The extent and the canonical address of bytes that the device reaches under R146, none where the check fails. -/
def devPlace (s : State) (ctx va n need : Nat) : Option (Desc × Nat) :=
  match devCheck s ctx va n need with
  | .ok e => match canonDesc s ctx (canonical e va) with
    | .found d => some (d, canonical e va)
    | _ => none
  | _ => none

/-- Whether the device's access of some bytes meets a corrupt table (09_extents.md R175). -/
def devCorrupt (s : State) (ctx va n need : Nat) : Bool :=
  match devCheck s ctx va n need with
  | .corrupt => true
  | .ok e => canonDesc s ctx (canonical e va) == .corrupt
  | _ => false

/-- Whether the device's read of some bytes meets a corrupt table (09_extents.md R175). -/
def corruptAt (s : State) (ctx va n : Nat) : Bool := devCheck s ctx va n permR == .corrupt

/-- The first and last address, exclusive, of the bytes of a range in each of its sectors. -/
def sectorSpans (a n : Nat) : List (Nat × Nat) :=
  (List.range ((a % 32 + n + 31) / 32)).map (fun j => (max a (32 * (a / 32 + j)), min (a + n) (32 * (a / 32 + j) + 32)))

/-- Bytes of a context read by the device under R146, none where the check fails or a byte returns an error. -/
def devRead (s : State) (ctx va n : Nat) : Option (List Byte) :=
  match devPlace s ctx va n permR with
  | some (d, a) =>
    let l := (List.range n).map (fun i => if byteDead s d (a + i) false then (0, true) else homeByte s d (a + i))
    if l.any Prod.snd then none else some (l.map Prod.fst)
  | none => none

/-- Bytes of a context written by the device where an extent holds them; nothing is written elsewhere. A narrow write of a sector with an
uncorrectable error is an error on its own bytes (11_traps.md R222). -/
def devWrite (s : State) (ctx va : Nat) (bs : List Byte) : State :=
  if devCorrupt s ctx va bs.length 0 then noteUpset s .corrupt
  else
    match devPlace s ctx va bs.length 0 with
    | some (d, a) =>
      (sectorSpans a bs.length).foldl (fun s x =>
        if byteDead s d x.1 true || narrowError s d x.1 (x.2 - x.1) then noteByte s d x.1
        else homeWrite (useByte s d x.1 true) d x.1 ((bs.drop (x.1 - a)).take (x.2 - x.1))) s
    | none => s

/-- A 64-bit or 32-bit field of a context's memory, 0 where it cannot be read. -/
def devRead64 (s : State) (ctx va : Nat) : Nat := leNat ((devRead s ctx va 8).getD [])
def devRead32 (s : State) (ctx va : Nat) : Nat := leNat ((devRead s ctx va 4).getD [])

/-- The state in which the device's access of some bytes waits, as any access does; none when it need not (11_traps.md R223,
09_extents.md R185, 12_atomics.md R235, R236). -/
def devHold (s : State) (ctx va n : Nat) (wr : Bool) : Option State :=
  match devPlace s ctx va n (if wr then 0 else permR) with
  | some (d, a) => (List.range n).findSome? (fun i => byteWait s (devicePort (a + i)) d (a + i) wr)
  | none => none

/-- What the device's read of some bytes does besides the bytes: an owner is recalled, the extent counts as accessed, its channel wakes, and
an error is escalated (11_traps.md R220). -/
def devUse (s : State) (ctx va n : Nat) : State :=
  if devCorrupt s ctx va n permR then noteUpset s .corrupt
  else
    match devPlace s ctx va n permR with
    | some (d, a) =>
      let s := (sectorSpans a n).foldl (fun s x =>
        let l := (List.range (x.2 - x.1)).map (x.1 + ·)
        useByte s d ((l.find? (fun y => reachesMemory s d y false)).getD x.1) false) s
      (List.range n).foldl (fun s i => if byteDead s d (a + i) false || (homeByte s d (a + i)).2 then noteByte s d (a + i) else s) s
    | none => s

/-- One access of an event of the device: a context, an address, bytes, and whether it writes. -/
structure DevAcc where
  ctx : Nat
  va : Nat
  n : Nat
  wr : Bool
  deriving DecidableEq, Repr

/-- The state in which some accesses of the device wait, none when none of them does. -/
def devHolds (s : State) (l : List DevAcc) : Option State := l.findSome? (fun x => devHold s x.ctx x.va x.n x.wr)

/-- What the reads among some accesses do besides the bytes. -/
def devUses (s : State) (l : List DevAcc) : State := l.foldl (fun s x => if x.wr then s else devUse s x.ctx x.va x.n) s

/-- An event of the device that makes some accesses: it waits while one of them does. -/
def devTurn (s : State) (l : List DevAcc) (act : State → State) : State :=
  match devHolds s l with
  | some s' => s'
  | none => act (devUses s l)

/-- A read of some bytes, and a read and a write of some bytes. -/
def readOf (ctx va n : Nat) : List DevAcc := [⟨ctx, va, n, false⟩]
def changeOf (ctx va n : Nat) : List DevAcc := [⟨ctx, va, n, false⟩, ⟨ctx, va, n, true⟩]

end Sys2Proof.Machine
end

