-- ==== Sys2Proof/Machine/Regions.lean ====
section
/-! DEFINITION. Structures the device reads by physical address that every part of it shares: the log rings
(23_platform.md R395 to R397), region control blocks (21_work.md R356, R357) and fault domains (11_traps.md R211). -/
namespace Sys2Proof.Machine

/-! ### Log rings and MSI-X vectors -/

/-- An MSI-X vector is raised (23_platform.md R395). -/
def raiseMsi (s : State) (v : Nat) : State := { s with plat := { s.plat with msix := v :: s.plat.msix } }

/-- The descriptor of log ring r (23_platform.md R395). -/
def logDesc (s : State) (r : Nat) : Nat := s.plat.logroot + 32 * r

/-- Records written to log ring r. -/
def logHead (s : State) (r : Nat) : Nat := pread32 s (logDesc s r + 8)

/-- A record is written to log ring r, or counted as lost when the ring holds 4,096; without a log ring table nothing is
written (23_platform.md R395, log entry 25). -/
def logRecord (s : State) (r vec : Nat) (bs : List Byte) : State :=
  if s.plat.logroot = 0 then s
  else
    let d := logDesc s r
    let head := pread32 s (d + 8)
    let tail := pread32 s (d + 12)
    if (head + 2 ^ 32 - tail) % 2 ^ 32 = 4096 then
      pwrite s (d + 16) (leBytes 4 (min (pread32 s (d + 16) + 1) (2 ^ 32 - 1)))
    else
      let s := pwrite s (bitsOf (pread64 s d) 0 52 + bs.length * (head % 4096)) bs
      raiseMsi (pwrite s (d + 8) (leBytes 4 (head + 1))) vec

/-- A host error log record (23_platform.md R396). -/
def hostError (s : State) (kind unit ctx detail addr aux : Nat) : State :=
  logRecord s 0 1 (leBytes 8 s.plat.time ++ leBytes 1 kind ++ leBytes 1 unit ++ leBytes 2 ctx ++ leBytes 4 detail ++
    leBytes 8 addr ++ leBytes 8 aux ++ copies 32 0)

/-- An event log record (23_platform.md R397); codes 1 to 3 raise vector 0. -/
def logEvent (s : State) (code value whr : Nat) : State :=
  logRecord s 3 (if code ≤ 3 then 0 else 4)
    (leBytes 8 value ++ leBytes 5 s.plat.time ++ leBytes 1 code ++ leBytes 2 whr)

/-- An audit log record (11_traps.md R227). -/
def auditRecord (s : State) (tcb blk result coreA coreB : Nat) (sigA sigB : DWord) : State :=
  logRecord s 2 3 (leBytes 8 tcb ++ leBytes 4 blk ++ leBytes 4 result ++ leBytes 4 (coreCode coreA) ++
    leBytes 4 (coreCode coreB) ++ leBytes 8 sigA.toNat ++ leBytes 8 sigB.toNat ++ leBytes 8 s.plat.time ++ copies 16 0)

/-! ### Regions -/

/-- A 64-bit field of an RCB. -/
def rcb64 (s : State) (pa off : Nat) : Nat := pread64 s (pa + off)

/-- The chain of a region: its RCB, its parent's, and so on up to a root (21_work.md R356). -/
def chainFrom (s : State) : Nat → Nat → List Nat
  | 0, _ => []
  | k + 1, pa =>
    let up := bitsOf (rcb64 s pa 0) 0 52
    if up = 0 then [pa] else pa :: chainFrom s k up

/-- A chain is cut at 65,536 regions; a tree has no longer one in memory the driver writes. -/
def regionChain (s : State) (pa : Nat) : List Nat := chainFrom s 65536 pa

/-- Override mask of an RCB. -/
def rcbMask (s : State) (pa : Nat) : Nat := bitsOf (rcb64 s pa 8) 48 16

/-- The RCB on the chain whose own value of field group f counts (21_work.md R357). -/
def effRcb (s : State) (pa f : Nat) : Nat :=
  ((regionChain s pa).find? (fun r => bitsOf (rcbMask s r) f 1 == 1)).getD pa

def effPrio (s : State) (r : Nat) : Nat := bitsOf (rcb64 s (effRcb s r 0) 8) 44 4
def effPers (s : State) (r : Nat) : Bool := bitsOf (rcb64 s (effRcb s r 1) 8) 39 1 == 1
def effAud (s : State) (r : Nat) : Bool := bitsOf (rcb64 s (effRcb s r 2) 8) 38 1 == 1
def effThr (s : State) (r : Nat) : Nat := bitsOf (rcb64 s (effRcb s r 3) 8) 26 12
def effFdom (s : State) (r : Nat) : Nat := bitsOf (rcb64 s (effRcb s r 4) 0x28) 0 52
def effCsLen (s : State) (r : Nat) : Nat := bitsOf (rcb64 s (effRcb s r 5) 0x30) 32 26
def effCsBase (s : State) (r : Nat) : Nat := bitsOf (rcb64 s (effRcb s r 5) 0x30) 0 25
def effProg (s : State) (r : Nat) : Nat := bitsOf (rcb64 s (effRcb s r 6) 0x38) 0 32
def effRunlim (s : State) (r : Nat) : Nat := bitsOf (rcb64 s (effRcb s r 7) 0x38) 32 32
def effSpool (s : State) (r : Nat) : Nat := bitsOf (rcb64 s (effRcb s r 8) 0x40) 0 56
def effNslot (s : State) (r : Nat) : Nat := bitsOf (rcb64 s (effRcb s r 8) 0x48) 0 32
def effSslot (s : State) (r : Nat) : Nat := bitsOf (rcb64 s (effRcb s r 8) 0x48) 32 32
def effPart (s : State) (r : Nat) : Nat := bitsOf (rcb64 s (effRcb s r 10) 8) 40 2

/-- Whether region r is region anc or one of its descendants. -/
def regionUnder (s : State) (r anc : Nat) : Bool := (regionChain s r).contains anc

/-- The reserved fields of an RCB that must be 0 (21_work.md R356). -/
def rcbReservedOk (b : List Byte) : Bool :=
  let q (i : Nat) := leNat ((b.drop (8 * i)).take 8)
  bitsOf (q 0) 52 12 == 0 && bitsOf (q 1) 42 2 == 0 && bitsOf (q 1) 0 26 == 0 && bitsOf (q 4) 0 32 == 0 &&
  bitsOf (q 5) 52 12 == 0 && bitsOf (q 6) 58 6 == 0 && bitsOf (q 6) 25 7 == 0 && bitsOf (q 8) 56 8 == 0 &&
  bitsOf (q 13) 0 64 == 0 && bitsOf (q 14) 0 64 == 0 && bitsOf (q 15) 0 64 == 0 && bitsOf (q 1) 59 5 == 0

/-- Whether an RCB is one that R356 admits: in HBM and aligned, its reserved fields 0 and its cluster-store window no longer than a store. -/
def rcbOk (s : State) (r : Nat) : Bool :=
  rcbReservedOk (pread s r 128) && !paBad s r 128 && decide (r % 128 = 0) && decide (r + 128 ≤ Config.hbmBytes) &&
  decide (bitsOf (rcb64 s r 0x30) 32 26 ≤ Config.cstBytes)

/-- Whether a region's chain may launch work (21_work.md R356, R357, R363). -/
def chainOk (s : State) (pa : Nat) : Bool :=
  let c := regionChain s pa
  decide (pa ≠ 0) && c.all (rcbOk s) &&
  (match c.getLast? with | some r => rcbMask s r == 0x07FF | none => false) && effFdom s pa != 0

/-! ### Fault domains -/

/-- A fault domain descriptor (11_traps.md R211). -/
structure Domain where
  ring : Nat
  hctx : Nat
  host : Bool
  n : Nat
  entry : Nat
  head : Nat
  tail : Nat
  parent : Nat
  ok : Bool
  deriving DecidableEq, Repr

/-- The descriptor at a physical address; `ok` is false where R211 treats it as extent-table corruption. -/
def domainAt (s : State) (pa : Nat) : Domain :=
  let q (i : Nat) := pread64 s (pa + 8 * i)
  { ring := bitsOf (q 0) 0 56, hctx := bitsOf (q 1) 16 16, host := bitsOf (q 1) 8 1 == 1, n := bitsOf (q 1) 0 5,
    entry := q 2, head := bitsOf (q 3) 0 32, tail := bitsOf (q 3) 32 32, parent := q 4
    ok := paExists pa && paExists (pa + 63) && !paBad s pa 64 && decide (4 ≤ bitsOf (q 1) 0 5) && decide (bitsOf (q 1) 0 5 ≤ 16) &&
      bitsOf (q 0) 56 8 == 0 && bitsOf (q 1) 32 32 == 0 && bitsOf (q 1) 9 7 == 0 && bitsOf (q 1) 5 3 == 0 &&
      q 5 == 0 && q 6 == 0 && q 7 == 0 }

/-- The root of a domain's tree. -/
def rootDomain (s : State) : Nat → Nat → Nat
  | 0, pa => pa
  | k + 1, pa => if (domainAt s pa).parent = 0 then pa else rootDomain s k (domainAt s pa).parent

/-- The head and tail fields of a domain. -/
def setDomHead (s : State) (pa v : Nat) : State := pwrite s (pa + 0x18) (leBytes 4 v)
def setDomTail (s : State) (pa v : Nat) : State := pwrite s (pa + 0x1C) (leBytes 4 v)

end Sys2Proof.Machine
end

