-- ==== Sys2Proof/Machine/Objects.lean ====
section
/-! DEFINITION. Barrier objects: where they lie, the advance rule and charges (10_sync.md R195 to R200), and the places
that place fields name (02_encoding.md R43, R44). -/
namespace Sys2Proof.Machine

/-! ### Places -/

/-- The block of a block's group at a signed core offset, if it lies in the group rectangle (02_encoding.md R43,
21_work.md R359). -/
def groupBlock (s : State) (blk : Nat) (dx dy : Int) : Option Nat :=
  match mfind s.work.blocks blk with
  | none => none
  | some b =>
    match mfind s.work.groups b.grp with
    | none => none
    | some g =>
      let x := (coreX b.core : Int) + dx - g.x0
      let y := (coreY b.core : Int) + dy - g.y0
      if 0 ≤ x ∧ x < g.w ∧ 0 ≤ y ∧ y < g.h then g.blocks[(y * g.w + x).toNat]? else none

/-- The cluster at a cluster offset (02_encoding.md R44). -/
def clusterAt (c : Nat) (off : Int) : Nat := (((c : Int) + off) % 4).toNat

/-! ### Objects -/

/-- The object that 32 bytes of a cluster store hold (10_sync.md R196). -/
def parseObj (b : List Byte) : BarObj :=
  let q (i : Nat) := leNat ((b.drop (8 * i)).take 8)
  { arr := bitsOf (q 0) 48 16, exparr := bitsOf (q 0) 32 16, phase := bitsOf (q 0) 0 32, expb := bitsOf (q 1) 0 48,
    landed := bitsOf (q 2) 0 48, er := bitsOf (q 3) 20 1 == 1, ab := bitsOf (q 3) 19 1 == 1, scope := bitsOf (q 3) 16 3,
    drops := bitsOf (q 3) 0 16 }

/-- The 32 bytes of an object (10_sync.md R196). -/
def objBytes (o : BarObj) : List Byte :=
  leBytes 8 (2 ^ 48 * o.arr + 2 ^ 32 * o.exparr + o.phase) ++ leBytes 8 o.expb ++ leBytes 8 o.landed ++
  leBytes 8 (2 ^ 20 * o.er.toNat + 2 ^ 19 * o.ab.toNat + 2 ^ 16 * o.scope + o.drops)

/-- Byte o of the store of cluster c. -/
def cstKey (c o : Nat) : Nat := Config.cstBytes * c + o

/-- The object a reference names; the area of a block whose group has ended reads as uninitialised. -/
def objGet (s : State) (r : ObjRef) : BarObj :=
  match r with
  | .area b i => mget (s.blk b).area {} i
  | .store c o => parseObj (mrange s.mem.cst 0 (cstKey c o) 32)

/-- The state with an object replaced. -/
def objPut (s : State) (r : ObjRef) (o : BarObj) : State :=
  match r with
  | .area b i =>
    match mfind s.work.blocks b with
    | some x => s.setBlk b { x with area := mput x.area i o }
    | none => s
  | .store c a => { s with mem := { s.mem with cst := msetRange 0 s.mem.cst (cstKey c a) (objBytes o) } }

/-- The advance rule (10_sync.md R198). -/
def advanceObj (o : BarObj) : BarObj :=
  if !o.ab && o.exparr != 0 && decide (o.exparr ≤ o.arr) && decide (o.expb ≤ o.landed) then
    { o with landed := o.landed - o.expb, expb := 0, exparr := o.exparr - o.drops, drops := 0, arr := 0,
             phase := (o.phase + 1) % 2 ^ 32 }
  else o

/-- Landed bytes are added, and a failure sets er (10_sync.md R199). -/
def chargeObj (o : BarObj) (n : Nat) (fail : Bool) : BarObj :=
  advanceObj { o with landed := min (o.landed + n) (2 ^ 48 - 1), er := o.er || fail || decide (2 ^ 48 - 1 < o.landed + n) }

/-- A charge to the object an operation names, if it names one. -/
def charge (s : State) (r : Option ObjRef) (n : Nat) (fail : Bool) : State :=
  match r with
  | some r => objPut s r (chargeObj (objGet s r) n fail)
  | none => s

/-- Whether a phase has passed (10_sync.md R198). -/
def passed (phase p : Nat) : Bool :=
  let d := (phase + 2 ^ 32 - p) % 2 ^ 32
  decide (1 ≤ d) && decide (d ≤ 2 ^ 31 - 1)

/-- A two's-complement field of n bits. -/
def sfield (x lo n : Nat) : Int := sextInt n (bitsOf x lo n)

/-- What the check of a barrier address finds (10_sync.md R195). -/
inductive BarAddr
  | ok (r : ObjRef)
  | limit
  | misaligned
  deriving DecidableEq, Repr

/-- The check of a barrier address of a warp of a block; a handler context (`h`) has no area and no window
(10_sync.md R195, 11_traps.md R218). -/
def barAddr (s : State) (core blk : Nat) (h : Bool) (a : Nat) : BarAddr :=
  let form := bitsOf a 30 2
  let idx := bitsOf a 0 8
  if form = 0 then
    if !h && bitsOf a 8 22 == 0 && decide (idx < (s.blk blk).bars) then .ok (.area blk idx) else .limit
  else if form = 1 then
    let dx := sfield a 25 5
    let dy := sfield a 20 5
    if !h && bitsOf a 8 12 == 0 && decide (-15 ≤ dx) && decide (-11 ≤ dy) && decide (dy ≤ 11) then
      match groupBlock s blk dx dy with
      | some b => if idx < (s.blk b).bars then .ok (.area b idx) else .limit
      | none => .limit
    else .limit
  else if form = 2 then
    let cl := sfield a 27 3
    let off := bitsOf a 0 25
    if bitsOf a 25 2 != 0 || decide (cl = -4) then .limit
    else if off % 32 ≠ 0 then .misaligned
    else if h || decide (effCsLen s (s.blk blk).region < off + 32) then .limit
    else .ok (.store (clusterAt (coreCluster core) cl) (effCsBase s (s.blk blk).region + off))
  else .limit

/-- Objects that a block's kill abandons: every object of its area (10_sync.md R200). -/
def abandonObj (s : State) (r : ObjRef) : State := objPut s r { objGet s r with ab := true }

end Sys2Proof.Machine
end

