-- ==== Sys2Proof/Machine/Ops.lean ====
section
/-! DEFINITION. The operations that every instruction shares: the control procedures of a warp (05_control.md R100), the end
of a word and of a clause (02_encoding.md R22, R28), taking a fault and returning from one (11_traps.md R211 to R219). -/
namespace Sys2Proof.Machine

/-- A meaning's answer: the next state. -/
abbrev Result := Host.Outcome State Fault Refusal

/-! ### The control procedures (05_control.md R100) -/

/-- The lowest-numbered free split entry. -/
def Warp.freeSplit (w : Warp) : Option Nat := (List.range 8).find? (fun i => (w.split i).state == 0)

/-- The lowest-numbered free token entry. -/
def Warp.freeTok (w : Warp) : Option Nat := (List.range 16).find? (fun i => (w.tok i).kind == 0)

/-- The four procedures of R100 as one step each. -/
inductive Ctl
  | setPc (i x : Nat)
  | arrive (i : Nat)
  | complete (t : Nat)
  | resume
  deriving DecidableEq, Repr

/-- A procedure of R100; the first argument bounds the depth of the calls, which the 8 split and 16 token entries bound. -/
def ctl : Nat → Ctl → Warp → Warp
  | 0, _, w => w
  | k + 1, .setPc i x, w =>
    let sp := w.split i
    let w' := w.setSplit i { sp with pc := x }
    let t := w.tok sp.td
    if sp.tv && (t.kind == 1 || t.kind == 2) && t.pc == x then ctl k (.arrive i) w' else w'
  | k + 1, .arrive i, w =>
    let sp := w.split i
    let t := w.tok sp.td
    let w := (w.setTok sp.td { t with pending := t.pending &&& ~~~sp.mask }).setSplit i {}
    ctl k .resume (ctl k (.complete sp.td) w)
  | k + 1, .complete t, w =>
    let tk := w.tok t
    if tk.pending != 0 then w
    else if tk.rejoin == 0 then w.setTok t {}
    else
      match w.freeSplit with
      | some i =>
        ctl k (.setPc i tk.pc)
          ((w.setTok t {}).setSplit i { pc := tk.pc, mask := tk.rejoin, word := 0, state := 1, tv := tk.pv, td := tk.parent })
      | none => w.setTok t { tk with kind := 3 }
  | k + 1, .resume, w =>
    match (List.range 16).reverse.find? (fun i => (w.tok i).kind == 3), w.freeSplit with
    | some d, some i =>
      let tk := w.tok d
      ctl k .resume (ctl k (.setPc i tk.pc)
        ((w.setSplit i { pc := tk.pc, mask := tk.rejoin, word := 0, state := 1, tv := tk.pv, td := tk.parent }).setTok d {}))
    | _, _ => w

/-- Depth that the calls of R100 cannot pass: each level but the first frees a token or a split entry. -/
def ctlFuel : Nat := 100

/-- set_pc (05_control.md R100). -/
def Warp.setPc (w : Warp) (i x : Nat) : Warp := ctl ctlFuel (.setPc i x) w

/-- The chain of a split: its innermost token first (05_control.md R99). -/
def Warp.chainFrom (w : Warp) : Nat → Bool → Nat → List Nat
  | 0, _, _ => []
  | k + 1, v, t => if v then t :: w.chainFrom k (w.tok t).pv (w.tok t).parent else []

def Warp.chain (w : Warp) (sp : Split) : List Nat := w.chainFrom 16 sp.tv sp.td

/-- leave (05_control.md R100): removes lanes L of split i and sends them to token T. -/
def Warp.leave (w : Warp) (i : Nat) (L : Word) (T : Option Nat) : Warp :=
  let sp := w.split i
  let before := match T with
    | some t => (w.chain sp).takeWhile (· != t)
    | none => w.chain sp
  let sp' := { sp with mask := sp.mask &&& ~~~L }
  let w := w.setSplit i sp'
  let w := before.foldl (fun w u =>
    let t := w.tok u
    w.setTok u { t with pending := t.pending &&& ~~~L, rejoin := t.rejoin &&& ~~~L }) w
  let w := if sp'.mask == 0 then w.setSplit i {} else w
  let w := before.foldl (fun w u => ctl ctlFuel (.complete u) w) w
  let w := match T with
    | some t =>
      let tk := w.tok t
      ctl ctlFuel (.complete t) (w.setTok t { tk with pending := tk.pending &&& ~~~L })
    | none => w
  ctl ctlFuel .resume w

/-- Whether the entry that a split in state 3 waits for is free: a token for `join` and `call`, a token or a split entry for `bdiv`
(05_control.md R102, R103, R105). -/
def Warp.entryFree (w : Warp) (b : Blocked) : Bool :=
  w.freeTok.isSome || (w.freeSplit.isSome && b != .token)

/-- Splits that waited in state 3 for an entry wait no longer when one is free: their BR word issues again (05_control.md R102,
R103, R105, log entry 26). -/
def Warp.wakeWaiting (w : Warp) : Warp :=
  { w with splits := w.splits.map (fun p =>
      if p.2.state == 3 && w.entryFree p.2.on then (p.1, { p.2 with state := 1, on := .none }) else p) }

/-! ### The word that issues -/

/-- Words that follow a header (02_encoding.md R23). -/
def hdrN (hdr : Word) : Nat := bitsOf hdr.toNat 28 4

/-- The clause that follows a clause: F of 05_control.md. -/
def Run.follow (r : Run) : Nat := (r.pc + 4 * (hdrN r.hdr + 1)) % 2 ^ 56

/-- Clause index of the word that issues (05_control.md R97). -/
def State.cidx (s : State) : Nat := max 1 s.hsplit.word

/-- The word that issues. -/
def State.word (s : State) : Word := s.run.words.getD (s.cidx - 1) 0

/-- Whether the a field, and the b field, of an opcode of the SA and VA formats is an operand, which may ask for a literal; a field that names a
vector register, a control byte, a rounding mode or a selector, or must be 0, is none (02_encoding.md R34, R40, R44, 06_vector.md R135). -/
def aIsOperand (op : Nat) : Bool := op < 0x10 || (0x20 ≤ op && op ≤ 0x4A) || (0x50 ≤ op && op ≤ 0x6D) || op == 0x7A
def bIsOperand (op : Nat) : Bool :=
  op < 0x0F || (0x20 ≤ op && op ≤ 0x35) || op == 0x3D || (0x40 ≤ op && op ≤ 0x45) || op == 0x4A || (0x50 ≤ op && op ≤ 0x5F) ||
    op == 0x70 || op == 0x73 || op == 0x7B

/-- Words of an instruction word with its literal, if its fields ask for one (02_encoding.md R34, R35). -/
def wordLen (w : Word) : Nat :=
  let x := w.toNat
  let op := bitsOf x 24 8
  let lo := if op < 0x10 then 2 else 1
  if op < 0x80 then (if (aIsOperand op && bitsOf x (8 + lo) 8 == 0xFF) || (bIsOperand op && bitsOf x lo 8 == 0xFF) then 2 else 1)
  else if (op < 0xB0) ∨ (0xB8 ≤ op ∧ op < 0xC0) then (if bitsOf x 0 1 = 1 then 2 else 1)
  else 1

/-- Arbitration rank after a granted clause (05_control.md R112); the handler context stays at 31 (11_traps.md R218). -/
def rankAfter (s : State) (core wslot : Nat) (hdr : Word) : Nat :=
  if wslot = 32 then 31
  else 2 * (s.blk (s.warp core wslot).blk).prio + (if hdr.getLsbD 5 then 0 else 1)

/-- The slot is free again, or the co-issue partner takes the clause next (02_encoding.md R28, 05_control.md R112, R115). A clause that ends by
a fault or a stop leaves the rank as it is (DESIGN CHOICE, log entry 98). -/
def State.leaveSlot (s : State) : State :=
  let c := s.focus.1
  let r := s.run
  let s := s.updWarp c r.wslot (fun w => { w with rank := rankAfter s c r.wslot r.hdr })
  let next := match r.partner with
    | some (ws, sp) =>
      let e := (s.warp c ws).split sp
      if e.state == 1 && e.pc == r.pc && e.word == 0 then some { r with wslot := ws, split := sp, partner := none, late := true } else none
    | none => none
  s.updCore c (fun k => k.setSlot s.focus.2 next)

/-- The split moves past n words; past the last word of the clause it falls through to the next clause
(02_encoding.md R22, 05_control.md R97, R100). -/
def State.advance (s : State) (n : Nat) : State :=
  let i := s.cidx + n
  let r := s.run
  if i ≤ hdrN r.hdr then s.updHere (fun w => w.setSplit r.split { w.split r.split with word := i })
  else
    (s.updHere (fun w =>
      (w.setSplit r.split { w.split r.split with word := 0 }).setPc r.split r.follow |>.wakeWaiting)).leaveSlot

/-- A word that moves its split itself, as the BR words do: the clause ends (02_encoding.md R27). -/
def State.branch (s : State) (f : Warp → Warp) : State :=
  let r := s.run
  (s.updHere (fun w => (f (w.setSplit r.split { w.split r.split with word := 0 })).wakeWaiting)).leaveSlot

/-- The split blocks on the word that issues (05_control.md R97, 10_sync.md R209). -/
def State.block (s : State) (b : Blocked) : State :=
  let r := s.run
  (s.updHere (fun w => w.setSplit r.split { w.split r.split with state := 2, word := s.cidx, on := b, bn := hdrN r.hdr })).leaveSlot

/-- A blocked split moves past its word, of n words, and is ready (10_sync.md R205, R209). -/
def unblock (s : State) (core wslot split n : Nat) : State :=
  s.updWarp core wslot (fun w =>
    let sp := w.split split
    let i := sp.word + n
    if i ≤ sp.bn then w.setSplit split { sp with state := 1, word := i, on := .none, bn := 0 }
    else
      ((w.setSplit split { sp with state := 1, word := 0, on := .none, bn := 0 }).setPc split
        ((sp.pc + 4 * (sp.bn + 1)) % 2 ^ 56)).wakeWaiting)

/-- Splits that a word blocks stand in state 1 at that word, which they issue again (10_sync.md R209). -/
def Warp.reissue (w : Warp) : Warp :=
  { w with splits := w.splits.map (fun p => if p.2.state == 2 then (p.1, { p.2 with state := 1, on := .none, bn := 0 }) else p) }

/-! ### Taking a fault -/

/-- Fault classes (11_traps.md R216). -/
def clsIllegalClause : Nat := 0x01
def clsIllegal : Nat := 0x02
def clsRange : Nat := 0x03
def clsLimit : Nat := 0x04
def clsPerm : Nat := 0x05
def clsLock : Nat := 0x06
def clsPoison : Nat := 0x07
def clsMisaligned : Nat := 0x08
def clsRejoin : Nat := 0x09
def clsPool : Nat := 0x0A
def clsPair : Nat := 0x0B
def clsWatchdog : Nat := 0x0C
def clsRemote : Nat := 0x0D
def clsFence : Nat := 0x0E
def clsBreak : Nat := 0x0F
def clsTrap : Nat := 0x10
def clsStorage : Nat := 0x11
def clsMemory : Nat := 0x12

/-- What a fault reports beside where it is (11_traps.md R215). -/
structure FaultInfo where
  cls : Nat
  lanes : Word := 0
  sva : Nat := 0
  space : Nat := 0
  xid : Option Nat := none
  detail : Nat := 0
  aux : Nat := 0
  deriving DecidableEq, Repr

/-- Where a fault is (11_traps.md R215): `imp` for an imprecise one, which names a block and no word. -/
structure FaultSite where
  core : Nat
  wslot : Nat
  warp : Nat
  blk : Nat
  split : Nat
  pc : Nat
  cidx : Nat
  n : Nat
  len : Nat
  ctx : Nat
  imp : Bool
  deriving DecidableEq, Repr

/-- The 64 bytes of a frame (11_traps.md R215), with seq 0 until it is written. -/
def frameBytes (s : State) (t : FaultSite) (f : FaultInfo) (cont : Nat) : List Byte :=
  let b := s.blk t.blk
  leBytes 8 (2 ^ 56 * f.cls + t.pc % 2 ^ 56) ++
  leBytes 8 f.sva ++
  leBytes 8 (2 ^ 32 * f.lanes.toNat + 2 ^ 16 * ((f.xid.getD 0) % 2 ^ 16) + 2 ^ 12 * (t.cidx % 16) + 2 ^ 8 * f.space +
    2 ^ 7 * f.xid.isSome.toNat + 2 ^ 6 * t.imp.toNat + 2 ^ 4 * cont + 2 * (t.split % 8)) ++
  leBytes 8 (2 ^ 48 * (t.ctx % 2 ^ 16) + 2 ^ 44 * coreX t.core + 2 ^ 40 * coreY t.core + 2 ^ 38 * (coreCluster t.core % 4) +
    2 ^ 33 * (t.wslot % 32) + 2 ^ 28 * (t.warp % 32) + 2 ^ 25 * (b.bslot % 8)) ++
  leBytes 8 (2 ^ 32 * (f.detail % 2 ^ 32) + b.no % 2 ^ 32) ++
  leBytes 8 s.plat.time ++
  leBytes 8 f.aux ++
  leBytes 8 0

/-- The 16 bytes of a split entry (05_control.md R97). -/
def splitBytes (e : Split) : List Byte :=
  leBytes 8 (2 ^ 61 * e.state + 2 ^ 60 * e.tv.toNat + 2 ^ 56 * e.td + e.pc % 2 ^ 56) ++
  leBytes 8 (2 ^ 32 * e.word + e.mask.toNat)

/-- The 16 bytes of a token entry (05_control.md R98). -/
def tokBytes (e : Token) : List Byte :=
  leBytes 8 (2 ^ 61 * e.kind + 2 ^ 60 * e.pv.toNat + 2 ^ 56 * e.parent + e.pc % 2 ^ 56) ++
  leBytes 8 (2 ^ 32 * e.pending.toNat + e.rejoin.toNat)

/-- The warp control word (05_control.md R99). -/
def Warp.control (w : Warp) : Nat := 2 ^ 36 * w.rank + 2 ^ 35 * w.scc.toNat + 2 ^ 32 * w.rr + w.live.toNat

/-- Records a frame needs. -/
def Frame.records (f : Frame) : Nat := f.bytes.length / 64

/-- A core number that stands for no core: frames of faults that stop none (11_traps.md R213, log entry 27). -/
def noCore : Nat := 768

/-- A warp slot that is none: what a freed warp has left in the write-through queue of its core names it. -/
def goneSlot : Nat := 33 * 768

/-! ### Kills (11_traps.md R219) -/

/-- The slots of the warps of a block that its core still holds. -/
def blockWarps (s : State) (b : Nat) : List Nat :=
  (List.range 32).filter (fun i => (s.warp (s.blk b).core i).present && (s.warp (s.blk b).core i).blk == b)

/-- Takes a warp's results away from everything it has outstanding (11_traps.md R219). -/
def disown (s : State) (core wslot : Nat) : State :=
  { s with
    mem := { s.mem with reqs := s.mem.reqs.map (fun p =>
      if p.2.core == core && p.2.wslot == wslot then (p.1, { p.2 with live := false }) else p) }
    work := { s.work with
      ops := s.work.ops.map (fun p => if p.2.core == core && p.2.wslot == wslot then (p.1, { p.2 with live := false }) else p)
      parts := s.work.parts.map (fun p =>
        if p.2.core == core && p.2.wslot == wslot then (p.1, { p.2 with live := false }) else p)
      mops := s.work.mops.map (fun p =>
        if p.2.core == core && p.2.wslot == wslot then (p.1, { p.2 with live := false }) else p) }
    fab := { s.fab with words := s.fab.words.map (fun p =>
      if p.2.core == core && p.2.wslot == wslot then (p.1, { p.2 with live := false }) else p) } }

/-- A slot drops the clause of a warp. -/
def dropRun (r : Option Run) (wslot : Nat) : Option Run :=
  match r with
  | some x =>
    if x.wslot = wslot then none
    else match x.partner with
      | some (p, _) => if p = wslot then some { x with partner := none } else some x
      | none => some x
  | none => none

/-- Objects a kill abandons: the warp's own block area and its foreign list (10_sync.md R200). -/
def abandonOf (s : State) (core : Nat) (w : Warp) : State :=
  let s := (List.range (s.blk w.blk).bars).foldl (fun s i => abandonObj s (.area w.blk i)) s
  w.foreign.foldl (fun s a =>
    match barAddr s core w.blk false a.toNat with
    | .ok r => abandonObj s r
    | _ => s) s

/-- A warp is killed without abandoning anything, as a flush does (21_work.md R369). -/
def haltWarp (s : State) (core wslot : Nat) : State :=
  let s := disown s core wslot
  let s := s.updWarp core wslot (fun w =>
    { w with killed := true, live := 0, splits := [], tokens := [], arrivals := [], dones := [], errs := [], errCount := 0,
             foreign := [] })
  s.updCore core (fun k => { k with slot0 := dropRun k.slot0 wslot, slot1 := dropRun k.slot1 wslot })

/-- A warp is killed (11_traps.md R219). -/
def killWarp (s : State) (core wslot : Nat) : State :=
  haltWarp (abandonOf s core (s.warp core wslot)) core wslot

/-- Every warp of a block is killed. -/
def killBlock (s : State) (b : Nat) : State :=
  ((blockWarps s b).foldl (fun s i => killWarp s (s.blk b).core i) s).updBlk b (fun x => { x with killed := true })

/-- A completion word: the value in [31:0], a status in [39:32] (21_work.md R363). -/
def completionWord (s : State) (ctx cw cv status : Nat) : State :=
  if cw = 0 then s else devWrite s ctx cw (leBytes 8 (cv + 2 ^ 32 * status))

/-- The st and cause bytes of a TCB (21_work.md R358). -/
def setTcbSt (s : State) (ctx tcb st cause : Nat) : State := devWrite s ctx (tcb + 0x50) [BitVec.ofNat 8 st, BitVec.ofNat 8 cause]

/-- A task is no longer kept. -/
def dropTask (s : State) (i : Nat) : State := { s with work := { s.work with tasks := mdel s.work.tasks i } }

/-- A graph completes when no node of it is ready or running: its completion word reports a cancelled node before a failed one
(21_work.md R361, R363). -/
def finishGraph (s : State) (g : Nat) : State :=
  match mfind s.work.graphs g with
  | none => s
  | some x =>
    let st := x.nodes.map (fun i => (s.task i).map Task.st)
    if st.any (fun a => a == some 1 || a == some 2) then s
    else
      let status := if st.contains (some 6) then 3 else if st.contains (some 4) then 1 else 0
      let s := completionWord s x.ctx x.cw x.cv status
      let s := x.nodes.foldl dropTask s
      { s with work := { s.work with graphs := mdel s.work.graphs g } }

/-- A task of a killed region is discarded: its completion word reports 3 (21_work.md R363, log entry 28). -/
def cancelTask (s : State) (i : Nat) : State :=
  match mfind s.work.tasks i with
  | none => s
  | some t =>
    let s := setTcbSt s t.ctx t.tcb 4 3
    if t.graph = 0 then dropTask (completionWord s t.ctx t.cw t.cv 3) i
    else finishGraph (s.setTask i { t with st := 6, failed := true }) (t.graph - 1)

/-! ### Blocks of a task (21_work.md R359, R372, R380) -/

/-- A 32-bit counter of a TCB moves: `done` at 0x4C, `placed` at 0x48 (21_work.md R358). -/
def tcbCount (s : State) (t : Task) (off : Nat) (k : Int) : State :=
  devWrite s t.ctx (t.tcb + off) (leBytes 4 ((((devRead32 s t.ctx (t.tcb + off) : Nat) : Int) + k) % 2 ^ 32).toNat)

/-- Whether a task is restartable: flag [0] of its TCB (21_work.md R358). -/
def restartable (s : State) (t : Task) : Bool := bitsOf (devRead64 s t.ctx (t.tcb + 0x18)) 0 1 == 1

/-- The withdrawn blocks that a killed or flushed block has not reported return to their tasks, which fail when they are not
restartable (21_work.md R380). -/
def returnTaken (s : State) (b : Block) : State :=
  b.took.foldl (fun s x =>
    if x.2.2 then s
    else
      match s.task x.1 with
      | none => s
      | some t =>
        if restartable s t then tcbCount (s.setTask x.1 { t with withdrawn := t.withdrawn.filter (· != x.2.1) }) t 0x48 (-1)
        else tcbCount (s.setTask x.1 { t with failed := true }) t 0x4C 1) s

/-- Bytes of the slot map of a region's save pool (21_work.md R372). -/
def slotMapLen (s : State) (r : Nat) : Nat := ((effNslot s r + 7) / 8 + 255) / 256 * 256

/-- A save slot of a region's pool is taken or becomes free (21_work.md R372). -/
def markSlot (s : State) (ctx r slot : Nat) (used : Bool) : State :=
  let a := effSpool s r + slot / 8
  let old := leNat ((devRead s ctx a 1).getD [])
  let bit := 2 ^ (slot % 8)
  let rest := old - bitsOf old (slot % 8) 1 * bit
  devWrite s ctx a [BitVec.ofNat 8 (rest + used.toNat * bit)]

/-- The images of a saved group are discarded: its slots become free. -/
def dropSaved (s : State) (k : Nat) : State :=
  match mfind s.work.saved k with
  | none => s
  | some g =>
    let r := (g.blocks.headD {}).region
    let ctx := (g.blocks.headD {}).ctx
    let s := g.slots.foldl (fun s x => match x with | some n => markSlot s ctx r n false | none => s) s
    { s with work := { s.work with saved := mdel s.work.saved k } }

/-- The objects of cluster stores that saved warps keep on their foreign lists are abandoned; those in areas of their own group have no
block while it is saved (10_sync.md R200, R209). -/
def abandonSaved (s : State) (g : Saved) : State :=
  ((mvals g.foreign).flatten.filter (fun r => match r with | .store _ _ => true | .area _ _ => false)).foldl abandonObj s

/-- A block that is selected for audit ends without a replay: its task waits for one fewer (21_work.md R359, 11_traps.md R227). -/
def dropSelected (s : State) (b : Block) : State :=
  if b.role == .selected then
    match s.task b.task with
    | some t => s.setTask b.task { t with audits := t.audits - 1 }
    | none => s
  else s

/-- A saved group is killed: its task fails, and its blocks count as ended (11_traps.md R217, 21_work.md R359, R376). -/
def killSaved (s : State) (k : Nat) : State :=
  match mfind s.work.saved k with
  | none => s
  | some g =>
    let s := dropSaved (abandonSaved s g) k
    let live := ((g.slots.zip g.blocks).filter (fun p => p.1.isSome)).map Prod.snd
    let s := live.foldl dropSelected s
    match s.task g.task with
    | none => s
    | some t => live.foldl returnTaken (tcbCount (s.setTask g.task { t with failed := true }) t 0x4C live.length)

/-- Launch records that a device queue of a killed region holds are discarded (21_work.md R363). -/
def cancelDevQueue (s : State) (r : Nat) : State :=
  let s := (mget s.work.devq [] r).foldl (fun s p =>
    completionWord s p.1 (leNat (p.2.drop 0x10 |>.take 8) % 2 ^ 56) (leNat (p.2.drop 0x18 |>.take 4)) 3) s
  { s with work := { s.work with devq := mdel s.work.devq r } }

/-- An audit of a killed region is discarded; a replay that has not begun leaves a record (11_traps.md R227). -/
def cancelAudit (s : State) (i : Nat) : State :=
  match mfind s.work.audits i with
  | none => s
  | some a =>
    let s := if a.coreB.isSome then s
      else auditRecord s (match mfind s.work.tasks a.task with | some t => t.tcb | none => 0) a.blk.no 3 a.blk.core 0 a.sigA 0
    { s with work := { s.work with audits := mdel s.work.audits i } }

/-- A region is killed (11_traps.md R217, 21_work.md R363, R374): its blocks and its descendants' on every core, its queued
and ready tasks, its saved groups and its audits; its frames count as answered (log entry 20). -/
def killRegion (s : State) (pa : Nat) : State :=
  let under := fun (st : State) (r : Nat) => regionUnder st r pa
  let s := (mkeys s.work.audits).foldl (fun s i =>
    match mfind s.work.audits i with
    | some a => if under s a.blk.region then cancelAudit s i else s
    | none => s) s
  let s := (mkeys s.work.blocks).foldl (fun s b => if under s (s.blk b).region && !(s.blk b).ended then killBlock s b else s) s
  let s := (mkeys s.work.saved).foldl (fun s k => match mfind s.work.saved k with
    | some g => if g.blocks.any (fun b => under s b.region) then dropSaved (abandonSaved s g) k else s
    | none => s) s
  let s := { s with work := { s.work with
      frames := s.work.frames.map (fun p =>
        if (p.2.region != 0 && under s p.2.region) || (p.2.saved != 0 && (mfind s.work.saved (p.2.saved - 1)).isNone) then
          (p.1, { p.2 with answered := true })
        else p)
      fetches := s.work.fetches.filter (fun p => !under s (s.blk p.2.blk).region) } }
  let s := (mkeys s.work.devq).foldl (fun s r => if under s r then cancelDevQueue s r else s) s
  (mkeys s.work.tasks).foldl (fun s i =>
    match mfind s.work.tasks i with
    | some t => if under s t.region then cancelTask s i else s
    | none => s) s

/-- Row 6 of the escalation table (11_traps.md R221): every core stops, every region is killed, the host ports report a
device error, which only a reset clears. -/
def deviceError (s : State) : State :=
  let s := (mkeys s.work.blocks).foldl (fun s b => if (s.blk b).ended then s else killBlock s b) s
  let s := (mvals s.work.saved).foldl abandonSaved s
  let s := (mkeys s.work.audits).foldl cancelAudit s
  let s := (mkeys s.work.devq).foldl cancelDevQueue s
  let s := (mkeys s.work.tasks).foldl cancelTask s
  raiseMsi { s with plat := { s.plat with devErr := true }
                    work := { s.work with saved := [], fetches := [],
                                          frames := (s.work.frames.filter (fun p => p.2.seq.isSome)).map (fun p =>
                                            (p.1, { p.2 with answered := true })) } } 5

/-- Whether a block is an audit's replay. -/
def Block.isReplay (b : Block) : Bool := match b.role with | .replay _ => true | _ => false

/-- A word that an audit replay cannot run ends it with a result (11_traps.md R226): 2 faulted, 4 not replayable. -/
def endReplay (s : State) (blk result cls : Nat) : State :=
  match (s.blk blk).role with
  | .replay i =>
    match mfind s.work.audits i with
    | some a =>
      let a' := { a with result := result, cls := cls }
      killBlock { s with work := { s.work with audits := mput s.work.audits i a' } } blk
    | none => s
  | _ => s

/-! ### Frames -/

/-- Whether a scale read of a `vscvt` that a core's warps have issued is still to be written: the frames of a stop follow it (11_traps.md
R213 step 3, 06_vector.md R122, R134). -/
def scalePending (s : State) (core : Nat) : Bool :=
  s.mem.reqs.any (fun q => q.2.core == core && q.2.live && decide (q.2.wslot < 32) && (match q.2.kind with | .scale _ _ _ => true | _ => false))

/-- Writes a frame and its continuation records where its domain's ring has room and can be reached, releases at `.sys`, and advances head;
a host-answered domain's host is told (11_traps.md R212). -/
def writeFrame (s : State) (i : Nat) : State :=
  match mfind s.work.frames i with
  | none => s
  | some f =>
    let d := domainAt s f.dom
    if (s.core f.core).closing || scalePending s f.core then s
    else if !d.ok then deviceError s
    else
      let k := f.records
      if 2 ^ d.n < (d.head + 2 ^ 32 - d.tail) % 2 ^ 32 + k then s
      else
        let place (j : Nat) : Nat := d.ring + 64 * ((d.head + j) % 2 ^ d.n)
        match (List.range k).findSome? (fun j => devHold s d.hctx (place j) 64 true) with
        | some s' => s'
        | none =>
          let bs := overlay f.bytes 0x3C (leBytes 4 d.head)
          let s := (List.range k).foldl (fun s j => devWrite s d.hctx (place j) ((bs.drop (64 * j)).take 64)) s
          let s := setDomHead s f.dom ((d.head + k) % 2 ^ 32)
          let s := s.setFrame i { f with seq := some d.head, bytes := bs }
          if d.host then logEvent s 1 f.dom (if f.core = noCore then 0 else coreCode f.core) else s

/-- Frames that wait for room are written in order; a frame without room holds back the later ones of its domain. -/
def writeFrames (s : State) : State :=
  ((mkeys s.work.frames).foldl (fun (p : State × List Nat) i =>
    match mfind p.1.work.frames i with
    | some f =>
      if f.seq.isSome || p.2.contains f.dom then p
      else
        let s' := writeFrame p.1 i
        (s', if ((mfind s'.work.frames i).map (fun g => g.seq.isNone)).getD false then f.dom :: p.2 else p.2)
    | none => p) (s, [])).1

/-- The frames of the warps that faulted in a core's stop cycle, none of them written, take their order by warp slot (11_traps.md R213). -/
def sortFrames (s : State) (core : Nat) : State :=
  let l := s.work.frames.filter (fun p => p.2.core == core && p.2.seq.isNone && decide (p.2.wslot < 32))
  if l.length ≤ 1 then s
  else
    let order := (List.range 32).filterMap (fun w => (l.find? (fun p => p.2.wslot == w)).map Prod.snd)
    { s with work := { s.work with frames := ((l.map Prod.fst).zip order).foldl (fun m p => mput m p.1 p.2) s.work.frames } }

/-- A frame joins those of the machine and is written if its ring has room. -/
def addFrame (s : State) (f : Frame) : State :=
  let (i, s) := s.fresh
  writeFrames (sortFrames (s.setFrame i f) f.core)

/-- The clause of an issue slot that a stop leaves: the handler context is not stopped (11_traps.md R218). -/
def handlerRun (r : Option Run) : Option Run := r.filter (fun x => x.wslot == 32)

/-- The core stops: no slot issues, a split stopped inside its clause keeps the index of its next word, and a blocked split
stands at its word (11_traps.md R213, 10_sync.md R209). -/
def stopCore (s : State) (core : Nat) : State :=
  let s := s.updCore core (fun k => { k with stopped := true, closing := false, slot0 := handlerRun k.slot0, slot1 := handlerRun k.slot1 })
  (List.range 32).foldl (fun s i => if (s.warp core i).present then s.updWarp core i Warp.reissue else s) s

/-- A word of a warp faults: the core stops, but a slot that holds another warp's clause may still issue its word of this cycle
(11_traps.md R213). A fault of that word ends the cycle. -/
def beginStop (s : State) (core wslot : Nat) : State :=
  let k := s.core core
  let a := dropRun k.slot0 wslot
  let b := dropRun k.slot1 wslot
  if k.closing || ([a, b].all (fun r => (handlerRun r).isSome == r.isSome)) then stopCore s core
  else s.setCore core { k with stopped := true, closing := true, slot0 := a, slot1 := b }

/-- The stop cycle of a core is over: the frames of the warps that faulted in it are written. -/
def closeStop (s : State) (core : Nat) : State := writeFrames (stopCore s core)

/-- A fault in the handler context: written to no ring; the core stays stopped and the host is told
(11_traps.md R218, 23_platform.md R396). -/
def handlerFault (s : State) (t : FaultSite) (f : FaultInfo) : State :=
  let s := (stopCore s t.core).updCore t.core (fun k => { k with hfault := true, slot0 := none, slot1 := none })
  let head := logHead s 0
  let s := hostError s 3 (coreCluster t.core) t.ctx f.cls 0 0
  let s := logRecord s 0 1 (frameBytes s t f 0)
  logEvent s 3 head (coreCode t.core)

/-- Taking a fault at a place (11_traps.md R213): the core stops, the frame is written with its continuation records, and
the split keeps its pc and records the faulting word's index (05_control.md R116). -/
def faultAt (s : State) (t : FaultSite) (f : FaultInfo) (cont : List Byte := []) : State :=
  let s := if t.cidx = 0 then s
    else s.updWarp t.core t.wslot (fun w => w.setSplit t.split { w.split t.split with word := t.cidx })
  if t.wslot = 32 then handlerFault s t f
  else if (s.blk t.blk).isReplay then endReplay s t.blk 2 f.cls
  else
    let s := beginStop s t.core t.wslot
    addFrame s
      { core := t.core, dom := effFdom s (s.blk t.blk).region, seq := none, wslot := t.wslot, blk := t.blk, cls := f.cls,
        bytes := frameBytes s t f (cont.length / 64) ++ cont, answered := false, since := s.plat.time, full := false,
        saved := 0, split := t.split, follow := (t.pc + 4 * (t.n + 1)) % 2 ^ 56, n := t.n, cidx := t.cidx, len := t.len,
        region := (s.blk t.blk).region }

/-- The place of the word that issues. -/
def State.site (s : State) : FaultSite :=
  let w := s.hwarp
  { core := s.hcore, wslot := s.run.wslot, warp := w.widx, blk := w.blk, split := s.run.split, pc := s.run.pc,
    cidx := s.cidx, n := hdrN s.run.hdr, len := wordLen s.word, ctx := w.ctx, imp := false }

/-- The word that issues raises a fault: it and the words after it have no effect (02_encoding.md R31). -/
def State.raise (s : State) (f : FaultInfo) (cont : List Byte := []) : State := faultAt s s.site f cont

/-- illegal-instruction at the word that issues, with the word as detail and the split's mask as lanes
(11_traps.md R216). -/
def State.illegal (s : State) : State := s.raise { cls := clsIllegal, lanes := s.em, detail := s.word.toNat }

/-- register-range at the word that issues (02_encoding.md R36, 11_traps.md R216). -/
def State.rangeFault (s : State) : State :=
  s.raise { cls := clsRange, lanes := s.em, detail := s.word.toNat, aux := s.hwarp.alloc }

/-- poison-consumed for a register and lanes (06_vector.md R121, 11_traps.md R216). -/
def State.poisonFault (s : State) (reg : Nat) (lanes : Word) : State :=
  s.raise { cls := clsPoison, lanes := lanes, detail := reg }

/-! ### Escalation (11_traps.md R221) -/

/-- The regions of a context: those of its armed tasks. -/
def ctxRegions (s : State) (ctx : Nat) : List Nat :=
  ((s.work.tasks.filter (fun p => p.2.ctx == ctx && decide (p.2.st ≤ 2))).map (fun p => p.2.region)).eraseDups

/-- A memory-error frame to a domain (11_traps.md R216): row in detail, the extent and its context in aux. It comes of no core and no block:
its core is written as core 0 and its block as an empty one (DESIGN CHOICE, log entry 101). -/
def memoryFrame (s : State) (dom ctx xid row space sva : Nat) : State :=
  let t : FaultSite := { core := 0, wslot := 0, warp := 0, blk := 0, split := 0, pc := 0, cidx := 0, n := 0, len := 0, ctx := ctx, imp := true }
  addFrame s
    { core := noCore, dom := dom, seq := none, wslot := 33, blk := 0, cls := clsMemory,
      bytes := frameBytes s t { cls := clsMemory, sva := sva, space := space, xid := some xid, detail := row, aux := 2 ^ 16 * ctx + xid } 0,
      answered := false, since := s.plat.time, full := false, saved := 0, split := 0, follow := 0, n := 0, cidx := 0, len := 0 }

/-- Row 5 of the escalation table: every region of the partitions that some regions lie in is killed, and the host is told by a record of
its error log (11_traps.md R221, log entry 27). -/
def killPartitions (s : State) (rs : List Nat) (ctx pa : Nat) : State :=
  let parts := (rs.map (effPart s)).eraseDups
  hostError ((s.work.tasks.filter (fun p => parts.contains p.2.part)).foldl (fun s p => killRegion s p.2.region) s) 8 0xFF ctx 0 pa 0

/-- A global sector with no good copy (rows 4 and 5): the sector is marked poisoned; the root domain of the context's regions
receives a frame, or, under several root domains or in a peer-symmetric extent, every region of the partition is killed. -/
def escalate (s : State) (ctx xid cls pa space sva : Nat) : State :=
  let s := { s with mem := { s.mem with marks := mput s.mem.marks (pa / 32) true } }
  let rs := ctxRegions s ctx
  let roots := (rs.map (fun r => rootDomain s 64 (effFdom s r))).eraseDups
  match roots with
  | [] => s
  | [d] => if cls == 4 then killPartitions s rs ctx pa else memoryFrame s d ctx xid 4 space sva
  | _ => killPartitions s rs ctx pa

/-- Whether an error of a sector has been reported and not yet answered. -/
def reported (s : State) (ctx sva : Nat) : Bool :=
  s.work.frames.any (fun p => p.2.cls == clsMemory && !p.2.answered && leNat ((p.2.bytes.drop 8).take 8) == sva &&
    leNat ((p.2.bytes.drop 0x1E).take 2) == ctx)

/-- The first error that has been noted is escalated, once while its frame is unanswered (11_traps.md R221, log entry 95). -/
def reportUpset (s : State) : State :=
  match s.mem.upsets with
  | [] => s
  | u :: r =>
    let s := { s with mem := { s.mem with upsets := r } }
    match u with
    | .corrupt => if s.plat.devErr then s else deviceError s
    | .sector ctx xid cls pa va => if s.plat.devErr || reported s ctx va then s else escalate s ctx xid cls pa 1 va

/-! ### Answering a fault -/

/-- Tail advances past the frames at its head that have been answered and that no handler context still answers
(11_traps.md R212). -/
def tailAdvance : Nat → State → Nat → State
  | 0, s, _ => s
  | k + 1, s, dom =>
    let d := domainAt s dom
    match s.work.frames.find? (fun p => p.2.dom == dom && p.2.seq == some d.tail && p.2.answered &&
        s.cores.all (fun c => c.2.handling != some p.1)) with
    | some (i, f) =>
      let s := setDomTail s dom ((d.tail + f.records) % 2 ^ 32)
      tailAdvance k { s with work := { s.work with frames := mdel s.work.frames i } } dom
    | none => s

/-- The core resumes when every frame of its stop has been written and answered (11_traps.md R212, R214). -/
def coreResume (s : State) (core : Nat) : State :=
  if (s.core core).stopped && !(s.core core).closing && !(s.core core).hfault && (s.core core).handling.isNone &&
      !(s.work.frames.any (fun p => p.2.core == core && (!p.2.answered || p.2.seq.isNone))) then
    s.updCore core (fun k => { k with stopped := false })
  else s

/-- Cores that may resume after answers. -/
def resumeCores (s : State) : State := (mkeys s.cores).foldl coreResume s

/-- Answered frames leave their rings, and waiting frames are written in the room that this makes; frames that count as answered before
they are written leave in turn (11_traps.md R212). -/
def settleRings : Nat → State → State
  | 0, s => s
  | k + 1, s =>
    let doms := ((mvals s.work.frames).map Frame.dom).eraseDups
    settleRings k (writeFrames (doms.foldl (fun s d => tailAdvance 65536 s d) s))

/-- What follows every answer: the rings settle, and cores resume. -/
def settleFrames (s : State) : State :=
  let n := (s.work.frames.filter (fun p => p.2.seq.isNone)).length
  resumeCores (settleRings (n + 2) s)

/-- Where a split goes on after a resume or a skip (11_traps.md R217). -/
def resumeSplit (w : Warp) (f : Frame) (skip : Bool) : Warp :=
  let sp := w.split f.split
  let past := f.cls == clsTrap || f.cls == clsBreak || (skip && f.cidx != 0)
  if !past then w.setSplit f.split { sp with state := 1, on := .none }
  else
    let i := f.cidx + f.len
    if i ≤ f.n then w.setSplit f.split { sp with state := 1, word := i, on := .none }
    else ((w.setSplit f.split { sp with state := 1, word := 0, on := .none }).setPc f.split f.follow).wakeWaiting

/-- Elements of a tile take unspecified contents, free values: those of some rows and columns (11_traps.md R217, 19_matrix.md R352). -/
def freeElems (s : State) (core tile rows cols : Nat) : State :=
  let fill (r : Nat) : List Word := (List.range cols).map (fun i => Config.freeWord (s.free + 64 * r + i))
  let s' := s.updCore core (fun k => { k with tiles := (List.range rows).foldl (fun m r => msetRange 0 m (4096 * tile + 64 * r) (fill r)) k.tiles })
  { s' with free := s.free + 4096 }

/-- A whole tile takes unspecified contents. -/
def freeTile (s : State) (core tile : Nat) : State := freeElems s core tile 64 64

/-- The region of a saved group. -/
def savedRegion (s : State) (k : Nat) : Nat := (((mfind s.work.saved k).map (fun g => (g.blocks.headD {}).region)).getD 0)

/-- How a frame is answered (11_traps.md R217). -/
inductive Answer
  | resume
  | skip
  | killWarp
  | killBlock
  | killRegion
  deriving DecidableEq, Repr

/-- Whether the warp that a frame names still holds its slot. -/
def frameWarp (s : State) (f : Frame) : Bool :=
  let w := s.warp f.core f.wslot
  decide (f.wslot < 32) && w.present && !w.killed && w.blk == f.blk

/-- Answers a frame (11_traps.md R217): resume, skip, or a kill. Watchdog frames act on the saved group (21_work.md R376). A frame that
names no block names a context: a kill of its region kills every region of that context (log entry 27). A frame that a kill has answered
already takes no second effect, and neither does one whose warp or block has left. -/
def answerFrame (s : State) (i : Nat) (a : Answer) : State :=
  match mfind s.work.frames i with
  | none => s
  | some f =>
    let s := s.setFrame i { f with answered := true }
    let s :=
      if f.answered then s
      else if f.saved ≠ 0 then
        match a with
        | .resume | .skip =>
          match mfind s.work.saved (f.saved - 1) with
          | some g => { s with work := { s.work with saved := mput s.work.saved (f.saved - 1) { g with held := false } } }
          | none => s
        | .killRegion => killRegion s (savedRegion s (f.saved - 1))
        | _ => killSaved s (f.saved - 1)
      else
        match a with
        | .resume | .skip =>
          if f.cls = clsStorage ∧ f.wslot ≥ 32 then freeTile s f.core (bitsOf (leNat ((f.bytes.drop 0x24).take 4)) 4 2)
          else if frameWarp s f then s.updWarp f.core f.wslot (fun w => resumeSplit w f (a == .skip))
          else s
        | .killWarp => if frameWarp s f then killWarp s f.core f.wslot else s
        | .killBlock => if f.core = noCore ∨ (mfind s.work.blocks f.blk).isNone then s else killBlock s f.blk
        | .killRegion => if f.region = 0 then (ctxRegions s (leNat ((f.bytes.drop 0x1E).take 2))).foldl killRegion s
            else killRegion s f.region
    settleFrames s

end Sys2Proof.Machine
end

