-- ==== Sys2Proof/WellFormed.lean ====
section
/-! DEFINITION. Well-formed instructions: the field values each chapter allows (02_encoding.md R33 to R44 and the encoding
rules of the chapters). A word whose fields break these rules raises illegal-instruction. -/
namespace Sys2Proof

/-- The literal word a source operand carries. -/
def Operand.lit? : Operand → Option Word
  | .lit w => some w
  | _ => none

/-- Two operands that both name the literal read the same word (02_encoding.md R35). -/
def Operand.agree (a b : Operand) : Bool :=
  match a.lit?, b.lit? with
  | some x, some y => x == y
  | _, _ => true

/-- The literal of an instruction with two operands. -/
def lit2 (a b : Operand) : Option Word := a.lit?.or b.lit?

/-- A source an SA instruction takes: no vector register, not %lane (02_encoding.md R34). -/
def Operand.scalarOk : Operand → Bool
  | .v _ => false
  | .sp .lane => false
  | _ => true

/-- A source `sadd64` takes: an even pair, an integer, a special register or the literal (05_control.md R94). -/
def Operand.pairOk : Operand → Bool
  | .v _ => false
  | .s r => r.val % 2 == 0
  | .int _ => true
  | .fc _ => false
  | .sp .lane => false
  | .sp _ => true
  | .lit _ => true

/-- The index source of `vbcast` and `vrdlane` (06_vector.md R135). -/
def Operand.uniformOk : Operand → Bool
  | .v _ => false
  | .fc _ => false
  | .sp .lane => false
  | _ => true

/-- An even register number (02_encoding.md R36). -/
def even {n : Nat} (r : Fin n) : Bool := r.val % 2 == 0

/-- A register number aligned to its group (07_memory.md R152). -/
def aligned {n : Nat} (r : Fin n) (k : Nat) : Bool := r.val % k == 0

/-- A scope code outside WT format (02_encoding.md R37). -/
def scopeOk (sc : Fin 8) : Bool := decide (sc.val ≤ 4)

/-- The conversion control fields an instruction accepts (02_encoding.md R40, 06_vector.md R132). -/
def CvtCtl.ok (k : CvtCtl) (posMax modeMax : Nat) (satOk : Bool) : Bool :=
  decide (k.pos.val ≤ posMax) && decide (k.mode.val ≤ modeMax) && (satOk || !k.sat)

/-- Registers per lane of a local width code (02_encoding.md R39, 07_memory.md R152). -/
def widthRegs (wd : Nat) : Nat := if wd == 3 then 2 else if wd == 4 then 4 else 1

/-- The literal of `ld.cm` and `st.cm` (02_encoding.md R43). -/
def cmLitOk (x : Option Word) : Bool :=
  let w := (x.getD 0).toNat
  let dx := w / 2 ^ 27 % 32
  let dy := w / 2 ^ 22 % 32
  dx != 16 && (decide (dy ≤ 11) || decide (21 ≤ dy)) && w / 2 ^ 18 % 16 == 0

/-- The literal of `ld.cst` and `st.cst` (07_memory.md R144). -/
def cstLitOk (x : Option Word) : Bool :=
  let w := (x.getD 0).toNat
  w / 2 ^ 29 % 8 != 4 && w / 2 ^ 25 % 16 == 0

/-- The control word of an atomic 0xA0 to 0xAE: op and [23:8] are 0 (02_encoding.md R42, 12_atomics.md R243). -/
def atomCtlOk (x : Option Word) : Bool :=
  let w := (x.getD 0).toNat
  w / 2 ^ 24 % 64 == 0 && w / 2 ^ 8 % 65536 == 0

/-- The ordering field of a control word (02_encoding.md R42). -/
def ctlOrd (x : Option Word) : Nat := (x.getD 0).toNat / 2 ^ 30

/-- The operation field of a control word (02_encoding.md R42). -/
def ctlOp (x : Option Word) : Nat := (x.getD 0).toNat / 2 ^ 24 % 64

/-- The tolerance of `ld.bnd`: neither NaN nor negative and nonzero (12_atomics.md R251). -/
def epsOk (x : Option Word) : Bool :=
  let w := (x.getD 0).toNat
  decide (w ≤ 0x7F800000) || w == 0x80000000

/-- Alignment of the data group of a remote atomic by its op (12_atomics.md R239, 15_remote.md R287). -/
def remoteAlign (op : Nat) : Nat :=
  if op == 9 || op == 10 || op == 11 then 2 else if op == 12 then 4 else if op == 13 then 8 else 1

/-- A register other than the code 0x7F that names no peer register (15_remote.md R287). -/
def peerOk (vp : VReg) : Bool := vp.val != 0x7F

/-- A wait field that names no wait or 0 (02_encoding.md R38). -/
def waitField (x none' : Nat) : Bool := x == 0 || x == none'

/-- A group of k scalars from an even register that does not pass s63 (21_work.md R378). -/
def groupOk (r : SReg) (k : Nat) : Bool := even r && decide (r.val + k ≤ 64)

/-- The fields of `frd` (11_traps.md R230). -/
def frdOk (item lane idx : Nat) : Bool :=
  (item == 6 || lane == 0) &&
  decide (idx < (if item == 0 then 32 else if item == 1 then 64 else if item == 2 then 2 else if item == 3 then 64
    else if item == 4 then 8 else if item == 5 then 1 else 128))

/-- The literal word of an instruction (02_encoding.md R35). -/
def Instr.literal? : Instr → Option Word
  | .sadd _ a b => lit2 a b
  | .ssub _ a b => lit2 a b
  | .smul _ a b => lit2 a b
  | .smulhi _ a b => lit2 a b
  | .sand _ a b => lit2 a b
  | .sor _ a b => lit2 a b
  | .sxor _ a b => lit2 a b
  | .sshl _ a b => lit2 a b
  | .sshr _ a b => lit2 a b
  | .ssra _ a b => lit2 a b
  | .smin _ a b => lit2 a b
  | .smax _ a b => lit2 a b
  | .scmp _ a b => lit2 a b
  | .ssel _ a b => lit2 a b
  | .sadd64 _ a b => lit2 a b
  | .smov _ a => a.lit?
  | .jmp _ => none
  | .bscc _ _ => none
  | .bdiv _ _ _ => none
  | .bany _ _ _ => none
  | .ball _ _ _ => none
  | .join _ => none
  | .brk _ _ _ => none
  | .call _ => none
  | .ret => none
  | .exit => none
  | .mand _ _ _ => none
  | .mor _ _ _ => none
  | .mxor _ _ _ => none
  | .mandn _ _ _ => none
  | .mfrom _ => none
  | .mto _ _ => none
  | .vaddI32 _ a b _ => lit2 a b
  | .vsubI32 _ a b _ => lit2 a b
  | .vmulI32 _ a b _ => lit2 a b
  | .vmulhiI32 _ a b _ => lit2 a b
  | .vmulhiN32 _ a b _ => lit2 a b
  | .vmadI32 _ a b _ => lit2 a b
  | .vandB32 _ a b _ => lit2 a b
  | .vorB32 _ a b _ => lit2 a b
  | .vxorB32 _ a b _ => lit2 a b
  | .vshlB32 _ a b _ => lit2 a b
  | .vshrN32 _ a b _ => lit2 a b
  | .vshrI32 _ a b _ => lit2 a b
  | .vminI32 _ a b _ => lit2 a b
  | .vminN32 _ a b _ => lit2 a b
  | .vmaxI32 _ a b _ => lit2 a b
  | .vmaxN32 _ a b _ => lit2 a b
  | .vaddF32 _ a b _ => lit2 a b
  | .vfmaF32 _ a b _ => lit2 a b
  | .vsubF32 _ a b _ => lit2 a b
  | .vmulF32 _ a b _ => lit2 a b
  | .vminF32 _ a b _ => lit2 a b
  | .vmaxF32 _ a b _ => lit2 a b
  | .vrcpF32 _ a _ => a.lit?
  | .vrsqrtF32 _ a _ => a.lit?
  | .vsqrtF32 _ a _ => a.lit?
  | .vexp2F32 _ a _ => a.lit?
  | .vlog2F32 _ a _ => a.lit?
  | .vabsF32 _ a _ => a.lit?
  | .vnegF32 _ a _ => a.lit?
  | .vfmsF32 _ a b _ => lit2 a b
  | .vrndF32 _ a _ _ => a.lit?
  | .vclassF32 _ a _ => a.lit?
  | .vaddF16 _ a b _ => lit2 a b
  | .vfmaF16 _ a b _ => lit2 a b
  | .vmulF16 _ a b _ => lit2 a b
  | .vaddBf16 _ a b _ => lit2 a b
  | .vfmaBf16 _ a b _ => lit2 a b
  | .vmulBf16 _ a b _ => lit2 a b
  | .vmovB32 _ a _ => a.lit?
  | .vpopcB32 _ a _ => a.lit?
  | .vclzB32 _ a _ => a.lit?
  | .vbrevB32 _ a _ => a.lit?
  | .vdot4I8 _ a b _ => lit2 a b
  | .vaddF32Rz _ a b _ => lit2 a b
  | .vaddF32Ru _ a b _ => lit2 a b
  | .vaddF32Rd _ a b _ => lit2 a b
  | .vsubF32Rz _ a b _ => lit2 a b
  | .vsubF32Ru _ a b _ => lit2 a b
  | .vsubF32Rd _ a b _ => lit2 a b
  | .vmulF32Rz _ a b _ => lit2 a b
  | .vmulF32Ru _ a b _ => lit2 a b
  | .vmulF32Rd _ a b _ => lit2 a b
  | .vfmaF32Rz _ a b _ => lit2 a b
  | .vfmaF32Ru _ a b _ => lit2 a b
  | .vfmaF32Rd _ a b _ => lit2 a b
  | .vcmpI32 _ _ a b _ => lit2 a b
  | .vcmpN32 _ _ a b _ => lit2 a b
  | .vcmpF32 _ _ a b _ => lit2 a b
  | .vselB32 _ a b => lit2 a b
  | .vcvtF32I32 _ a _ _ => a.lit?
  | .vcvtF32N32 _ a _ _ => a.lit?
  | .vcvtI32F32 _ a _ _ => a.lit?
  | .vcvtN32F32 _ a _ _ => a.lit?
  | .vcvtF16F32 _ a _ _ => a.lit?
  | .vcvtBf16F32 _ a _ _ => a.lit?
  | .vcvtE4m3F32 _ a _ _ => a.lit?
  | .vcvtE5m2F32 _ a _ _ => a.lit?
  | .vcvtLog6F32 _ a _ _ => a.lit?
  | .vcvtF32F16 _ a _ _ => a.lit?
  | .vcvtF32Bf16 _ a _ _ => a.lit?
  | .vcvtF32E4m3 _ a _ _ => a.lit?
  | .vcvtF32E5m2 _ a _ _ => a.lit?
  | .vcvtF32Log6 _ a _ _ => a.lit?
  | .vscvt _ _ _ _ => none
  | .vshflB32 _ _ b _ => b.lit?
  | .vnblB32 _ _ _ _ => none
  | .vnbrB32 _ _ _ _ => none
  | .vbcastB32 _ _ b _ => b.lit?
  | .vredAddI32 _ _ _ => none
  | .vredAddF32 _ _ _ => none
  | .vredMaxF32 _ _ _ => none
  | .vredMinF32 _ _ _ => none
  | .vscanAddI32 _ _ _ => none
  | .vscanAddF32 _ _ _ => none
  | .vballot _ a _ => a.lit?
  | .vrdlane _ _ b => b.lit?
  | .ldN8 _ _ _ _ x => x
  | .ldI8 _ _ _ _ x => x
  | .ldN16 _ _ _ _ x => x
  | .ldI16 _ _ _ _ x => x
  | .ldB32 _ _ _ _ x => x
  | .ldB64 _ _ _ _ x => x
  | .ldB128 _ _ _ _ x => x
  | .stB8 _ _ _ _ x => x
  | .stB16 _ _ _ _ x => x
  | .stB32 _ _ _ _ x => x
  | .stB64 _ _ _ _ x => x
  | .stB128 _ _ _ _ x => x
  | .ldLane _ _ _ x => x
  | .stLane _ _ _ x => x
  | .ldSp _ _ _ x => x
  | .stSp _ _ _ x => x
  | .ldCm _ _ _ x => x
  | .stCm _ _ _ x => x
  | .ldCst _ _ _ x => x
  | .stCst _ _ _ x => x
  | .sldB32 _ _ _ x => x
  | .sstB32 _ _ _ x => x
  | .pf _ _ _ x => x
  | .cinv _ _ x => x
  | .xprobe _ _ x => x
  | .xinfo _ _ _ => none
  | .hpin _ _ => none
  | .hdemote _ _ => none
  | .hprio _ _ _ => none
  | .hunpin _ _ => none
  | .atomAddI32 _ _ _ _ x => x
  | .atomAddF32 _ _ _ _ x => x
  | .atomMinI32 _ _ _ _ x => x
  | .atomMaxI32 _ _ _ _ x => x
  | .atomMinN32 _ _ _ _ x => x
  | .atomMaxN32 _ _ _ _ x => x
  | .atomAndB32 _ _ _ _ x => x
  | .atomOrB32 _ _ _ _ x => x
  | .atomXchgB32 _ _ _ _ x => x
  | .atomCasB32 _ _ _ _ x => x
  | .atomAddI64 _ _ _ _ x => x
  | .atomXchgB64 _ _ _ _ x => x
  | .atomCasB64 _ _ _ _ x => x
  | .atomCasB128 _ _ _ _ x => x
  | .bredAddF32 _ _ _ _ x => x
  | .ldBnd _ _ _ _ x => x
  | .barInit _ _ _ _ => none
  | .barArrive _ _ _ => none
  | .barExpect _ _ _ => none
  | .barWait _ _ _ => none
  | .barTest _ _ _ => none
  | .barDrop _ _ => none
  | .wait _ _ _ _ _ _ => none
  | .bdrain _ => none
  | .rldB32 _ _ _ _ x => x
  | .rldB64 _ _ _ _ x => x
  | .rldB128 _ _ _ _ x => x
  | .rstB32 _ _ _ _ x => x
  | .rstB64 _ _ _ _ x => x
  | .ratom _ _ _ _ x => x
  | .rred _ _ _ _ x => x
  | .rmcast _ _ _ _ x => x
  | .mmaE4m3 _ _ _ _ _ => none
  | .mmaE5m2 _ _ _ _ _ => none
  | .mmaBf16 _ _ _ _ _ => none
  | .mmaF16 _ _ _ _ _ => none
  | .mmaLog6 _ _ _ _ _ => none
  | .wbldDense _ _ _ => none
  | .wbldSp24 _ _ _ => none
  | .wbldCb4 _ _ _ => none
  | .tzero _ => none
  | .tmov _ _ => none
  | .tst _ _ _ => none
  | .tadd _ _ => none
  | .tld _ _ _ => none
  | .cpStart _ _ => none
  | .cpRect _ _ => none
  | .cpFill _ _ => none
  | .cpTier _ _ => none
  | .xgStart _ _ => none
  | .xgCancel _ _ _ => none
  | .tokTest _ _ => none
  | .cpCancel _ _ => none
  | .xgQuery _ _ _ => none
  | .cpBcast _ _ => none
  | .trap _ => none
  | .brkpt _ => none
  | .rdsr _ _ => none
  | .wrsr _ _ => none
  | .fret _ => none
  | .fkill _ => none
  | .frd _ _ _ _ => none
  | .pclr _ _ => none
  | .wfetch _ _ => none
  | .hbeat => none
  | .rgclaim _ _ => none
  | .rgrel _ _ => none
  | .wdone _ _ => none
  | .wcond _ _ => none
  | .wlaunch _ _ => none
  | .wyield _ => none
  | .clauseGrant _ _ => none
  | .rankAging _ _ => none
  | .impreciseFault _ _ _ _ _ _ => none
  | .ringFull _ => none
  | .handlerStart _ => none
  | .loadComplete _ => none
  | .storeComplete _ => none
  | .writeThroughApply _ _ => none
  | .ecbWalk _ _ _ => none
  | .portTranslate _ => none
  | .rowRemapReloadDone _ _ _ => none
  | .cxlMemRequest _ _ _ => none
  | .bar2Request _ _ _ _ => none
  | .slideStart _ _ => none
  | .portSlideBegin _ _ _ => none
  | .slideOpen _ _ => none
  | .portOpen _ _ _ => none
  | .portOpenAck _ _ _ => none
  | .slideCopy _ _ => none
  | .slideAdvance _ _ => none
  | .portAdvance _ _ _ => none
  | .slideClose _ _ => none
  | .portClose _ _ _ => none
  | .slideCommit _ _ => none
  | .portCommit _ _ _ => none
  | .slideAckTimeout _ _ => none
  | .residencyDemote _ _ => none
  | .residencyPromote _ _ => none
  | .retireAccessesDrained _ _ => none
  | .arrivalCounted _ _ => none
  | .blockedWordResume _ _ _ => none
  | .ownershipRequest _ _ => none
  | .recallLine _ => none
  | .lineSurrender _ => none
  | .directoryMerge _ _ _ => none
  | .l1Eviction _ _ => none
  | .cxlCacheResponse _ _ => none
  | .snpdata _ => none
  | .snpinv _ => none
  | .atomicopCompletion _ _ _ => none
  | .shareReq _ => none
  | .grant _ => none
  | .add _ => none
  | .drain _ => none
  | .fdrain _ => none
  | .bload _ => none
  | .bvalue _ => none
  | .copyPiece _ _ => none
  | .copyComplete _ => none
  | .exchangeRunEmit _ => none
  | .exchangeRun _ => none
  | .runAcknowledgment _ => none
  | .runResend _ _ => none
  | .exchangeEnd _ => none
  | .exchangePartComplete _ => none
  | .xgCancelComplete _ => none
  | .matrixComplete _ => none
  | .remoteReplay _ _ => none
  | .remoteRequest _ => none
  | .remoteReply _ => none
  | .remoteAcknowledgment _ => none
  | .refusal _ => none
  | .responseTimeout _ _ => none
  | .postedTimeout _ => none
  | .flitReceive _ _ => none
  | .replayRequest _ => none
  | .heartbeat _ => none
  | .linkRetrain _ _ => none
  | .linkIdleTimeout _ => none
  | .linkDown _ => none
  | .idleFlit _ => none
  | .throttleProposal _ _ _ _ => none
  | .energyWindow _ => none
  | .doorbell _ _ _ => none
  | .queueTake _ => none
  | .priorityAging _ => none
  | .taskDue _ => none
  | .dispatchDecision _ => none
  | .warpFree _ _ _ => none
  | .taskRetire _ => none
  | .preemptionStarvation _ => none
  | .saveComplete _ => none
  | .rldSaveTimeout _ => none
  | .watchdogExpire _ => none
  | .claimGrant _ => none
  | .wyieldRelease _ => none
  | .wfetchFill _ => none
  | .auditReplay _ _ => none
  | .auditReplayEnd _ => none
  | .scrubRead _ => none
  | .scrubWrite _ => none
  | .powerDownEntry _ _ => none
  | .selfRefreshEntry _ _ => none
  | .hbmThermalBand _ _ => none
  | .inletOvertemp _ _ => none
  | .hostPortDown _ => none
  | .cxlPortWaitTimeout _ => none
  | .reset => none
  | .bootStep _ => none
  | .bar0Write _ _ _ => none
  | .extentCreate => none
  | .extentRetire => none
  | .hostWindowWrite => none
  | .rcbWrite => none
  | .membershipTableEntry => none
  | .groupTableEntry => none
  | .faultFrameAnswer => none
  | .preemptionRequest => none
  | .regionKill => none
  | .attestationQuote => none
  | .acceptWork => none
  | .demotionPool => none
  | .pinQuota => none
  | .auditSetting => none
  | .physicalCopy => none
  | .unknownCommand => none
  | .hostPortUp _ => none
  | .channelExit _ _ => none

/-- The field values that the instruction's chapter allows; an event is a step of the part and has no fields. -/
def Instr.wf : Instr → Bool
  | .sadd _ a b => a.scalarOk && b.scalarOk && a.agree b
  | .ssub _ a b => a.scalarOk && b.scalarOk && a.agree b
  | .smul _ a b => a.scalarOk && b.scalarOk && a.agree b
  | .smulhi _ a b => a.scalarOk && b.scalarOk && a.agree b
  | .sand _ a b => a.scalarOk && b.scalarOk && a.agree b
  | .sor _ a b => a.scalarOk && b.scalarOk && a.agree b
  | .sxor _ a b => a.scalarOk && b.scalarOk && a.agree b
  | .sshl _ a b => a.scalarOk && b.scalarOk && a.agree b
  | .sshr _ a b => a.scalarOk && b.scalarOk && a.agree b
  | .ssra _ a b => a.scalarOk && b.scalarOk && a.agree b
  | .smin _ a b => a.scalarOk && b.scalarOk && a.agree b
  | .smax _ a b => a.scalarOk && b.scalarOk && a.agree b
  | .scmp _ a b => a.scalarOk && b.scalarOk && a.agree b
  | .ssel _ a b => a.scalarOk && b.scalarOk && a.agree b
  | .sadd64 d a b => even d && a.pairOk && b.pairOk && a.agree b
  | .smov _ a => a.scalarOk
  | .jmp _ => true
  | .bscc _ _ => true
  | .bdiv _ _ _ => true
  | .bany _ _ _ => true
  | .ball _ _ _ => true
  | .join _ => true
  | .brk _ _ _ => true
  | .call _ => true
  | .ret => true
  | .exit => true
  | .mand _ _ _ => true
  | .mor _ _ _ => true
  | .mxor _ _ _ => true
  | .mandn _ _ _ => true
  | .mfrom _ => true
  | .mto _ _ => true
  | .vaddI32 _ a b _ => a.agree b
  | .vsubI32 _ a b _ => a.agree b
  | .vmulI32 _ a b _ => a.agree b
  | .vmulhiI32 _ a b _ => a.agree b
  | .vmulhiN32 _ a b _ => a.agree b
  | .vmadI32 _ a b _ => a.agree b
  | .vandB32 _ a b _ => a.agree b
  | .vorB32 _ a b _ => a.agree b
  | .vxorB32 _ a b _ => a.agree b
  | .vshlB32 _ a b _ => a.agree b
  | .vshrN32 _ a b _ => a.agree b
  | .vshrI32 _ a b _ => a.agree b
  | .vminI32 _ a b _ => a.agree b
  | .vminN32 _ a b _ => a.agree b
  | .vmaxI32 _ a b _ => a.agree b
  | .vmaxN32 _ a b _ => a.agree b
  | .vaddF32 _ a b _ => a.agree b
  | .vfmaF32 _ a b _ => a.agree b
  | .vsubF32 _ a b _ => a.agree b
  | .vmulF32 _ a b _ => a.agree b
  | .vminF32 _ a b _ => a.agree b
  | .vmaxF32 _ a b _ => a.agree b
  | .vrcpF32 _ _ _ => true
  | .vrsqrtF32 _ _ _ => true
  | .vsqrtF32 _ _ _ => true
  | .vexp2F32 _ _ _ => true
  | .vlog2F32 _ _ _ => true
  | .vabsF32 _ _ _ => true
  | .vnegF32 _ _ _ => true
  | .vfmsF32 _ a b _ => a.agree b
  | .vrndF32 _ _ _ _ => true
  | .vclassF32 _ _ _ => true
  | .vaddF16 _ a b _ => a.agree b
  | .vfmaF16 _ a b _ => a.agree b
  | .vmulF16 _ a b _ => a.agree b
  | .vaddBf16 _ a b _ => a.agree b
  | .vfmaBf16 _ a b _ => a.agree b
  | .vmulBf16 _ a b _ => a.agree b
  | .vmovB32 _ _ _ => true
  | .vpopcB32 _ _ _ => true
  | .vclzB32 _ _ _ => true
  | .vbrevB32 _ _ _ => true
  | .vdot4I8 _ a b _ => a.agree b
  | .vaddF32Rz _ a b _ => a.agree b
  | .vaddF32Ru _ a b _ => a.agree b
  | .vaddF32Rd _ a b _ => a.agree b
  | .vsubF32Rz _ a b _ => a.agree b
  | .vsubF32Ru _ a b _ => a.agree b
  | .vsubF32Rd _ a b _ => a.agree b
  | .vmulF32Rz _ a b _ => a.agree b
  | .vmulF32Ru _ a b _ => a.agree b
  | .vmulF32Rd _ a b _ => a.agree b
  | .vfmaF32Rz _ a b _ => a.agree b
  | .vfmaF32Ru _ a b _ => a.agree b
  | .vfmaF32Rd _ a b _ => a.agree b
  | .vcmpI32 c _ a b _ => decide (c.val ≤ 5) && a.agree b
  | .vcmpN32 c _ a b _ => decide (c.val ≤ 5) && a.agree b
  | .vcmpF32 _ _ a b _ => a.agree b
  | .vselB32 _ a b => a.agree b
  | .vcvtF32I32 _ _ k _ => k.ok 0 3 false
  | .vcvtF32N32 _ _ k _ => k.ok 0 3 false
  | .vcvtI32F32 _ _ k _ => k.ok 0 3 true
  | .vcvtN32F32 _ _ k _ => k.ok 0 3 true
  | .vcvtF16F32 _ _ k _ => k.ok 1 4 true
  | .vcvtBf16F32 _ _ k _ => k.ok 1 4 true
  | .vcvtE4m3F32 _ _ k _ => k.ok 3 4 true
  | .vcvtE5m2F32 _ _ k _ => k.ok 3 4 true
  | .vcvtLog6F32 _ _ k _ => k.ok 3 4 true
  | .vcvtF32F16 _ _ k _ => k.ok 1 0 false
  | .vcvtF32Bf16 _ _ k _ => k.ok 1 0 false
  | .vcvtF32E4m3 _ _ k _ => k.ok 3 0 false
  | .vcvtF32E5m2 _ _ k _ => k.ok 3 0 false
  | .vcvtF32Log6 _ _ k _ => k.ok 3 0 false
  | .vscvt _ _ k _ => k.ok 3 3 true
  | .vshflB32 _ _ _ _ => true
  | .vnblB32 _ _ _ _ => true
  | .vnbrB32 _ _ _ _ => true
  | .vbcastB32 _ _ b _ => b.uniformOk
  | .vredAddI32 _ _ _ => true
  | .vredAddF32 _ _ _ => true
  | .vredMaxF32 _ _ _ => true
  | .vredMinF32 _ _ _ => true
  | .vscanAddI32 _ _ _ => true
  | .vscanAddF32 _ _ _ => true
  | .vballot _ _ _ => true
  | .vrdlane _ _ b => b.uniformOk
  | .ldN8 _ sb _ sc _ => scopeOk sc && even sb
  | .ldI8 _ sb _ sc _ => scopeOk sc && even sb
  | .ldN16 _ sb _ sc _ => scopeOk sc && even sb
  | .ldI16 _ sb _ sc _ => scopeOk sc && even sb
  | .ldB32 _ sb _ sc _ => scopeOk sc && even sb
  | .ldB64 d sb _ sc _ => scopeOk sc && even sb && aligned d 2
  | .ldB128 d sb _ sc _ => scopeOk sc && even sb && aligned d 4
  | .stB8 _ sb _ sc _ => scopeOk sc && even sb
  | .stB16 _ sb _ sc _ => scopeOk sc && even sb
  | .stB32 _ sb _ sc _ => scopeOk sc && even sb
  | .stB64 d sb _ sc _ => scopeOk sc && even sb && aligned d 2
  | .stB128 d sb _ sc _ => scopeOk sc && even sb && aligned d 4
  | .ldLane d _ wd _ => wd.val != 7 && aligned d (widthRegs wd.val)
  | .stLane d _ wd _ => decide (wd.val ≤ 4) && aligned d (widthRegs wd.val)
  | .ldSp d _ wd _ => wd.val != 7 && aligned d (widthRegs wd.val)
  | .stSp d _ wd _ => decide (wd.val ≤ 4) && aligned d (widthRegs wd.val)
  | .ldCm d _ wd x => wd.val != 7 && aligned d (widthRegs wd.val) && cmLitOk x
  | .stCm d _ wd x => decide (wd.val ≤ 4) && aligned d (widthRegs wd.val) && cmLitOk x
  | .ldCst d _ wd x => wd.val != 7 && aligned d (widthRegs wd.val) && cstLitOk x
  | .stCst d _ wd x => decide (wd.val ≤ 4) && aligned d (widthRegs wd.val) && cstLitOk x
  | .sldB32 _ sb sc _ => scopeOk sc && even sb
  | .sstB32 _ sb sc _ => scopeOk sc && even sb
  | .pf sb _ sc _ => scopeOk sc && even sb
  | .cinv sb _ _ => even sb
  | .xprobe _ sb _ => even sb
  | .xinfo _ sb _ => even sb
  | .hpin _ sb => even sb
  | .hdemote _ sb => even sb
  | .hprio _ sb _ => even sb
  | .hunpin _ sb => even sb
  | .atomAddI32 _ sb _ sc x => scopeOk sc && even sb && atomCtlOk x
  | .atomAddF32 _ sb _ sc x => scopeOk sc && even sb && atomCtlOk x
  | .atomMinI32 _ sb _ sc x => scopeOk sc && even sb && atomCtlOk x
  | .atomMaxI32 _ sb _ sc x => scopeOk sc && even sb && atomCtlOk x
  | .atomMinN32 _ sb _ sc x => scopeOk sc && even sb && atomCtlOk x
  | .atomMaxN32 _ sb _ sc x => scopeOk sc && even sb && atomCtlOk x
  | .atomAndB32 _ sb _ sc x => scopeOk sc && even sb && atomCtlOk x
  | .atomOrB32 _ sb _ sc x => scopeOk sc && even sb && atomCtlOk x
  | .atomXchgB32 _ sb _ sc x => scopeOk sc && even sb && atomCtlOk x
  | .atomCasB32 d sb _ sc x => scopeOk sc && even sb && atomCtlOk x && aligned d 2
  | .atomAddI64 d sb _ sc x => scopeOk sc && even sb && atomCtlOk x && aligned d 2
  | .atomXchgB64 d sb _ sc x => scopeOk sc && even sb && atomCtlOk x && aligned d 2
  | .atomCasB64 d sb _ sc x => scopeOk sc && even sb && atomCtlOk x && aligned d 4
  | .atomCasB128 d sb _ sc x => scopeOk sc && even sb && atomCtlOk x && aligned d 8
  | .bredAddF32 _ sb _ sc x => scopeOk sc && even sb && atomCtlOk x && ctlOrd x % 2 == 0
  | .ldBnd _ sb _ sc x => scopeOk sc && even sb && epsOk x
  | .barInit _ _ _ sc => scopeOk sc
  | .barArrive _ sv d => decide (d ≠ sv)
  | .barExpect _ _ _ => true
  | .barWait _ _ _ => true
  | .barTest _ _ _ => true
  | .barDrop _ _ => true
  | .wait ld st cp tl rm sc => (scopeOk sc && waitField ld.val 31 && waitField st.val 31 && waitField cp.val 7 && waitField tl.val 7 && waitField rm.val 7) || sc.val == 7
  | .bdrain sc => scopeOk sc
  | .rldB32 _ sb vp sc _ => scopeOk sc && even sb && decide (sb.val ≤ 60) && peerOk vp
  | .rldB64 d sb vp sc _ => scopeOk sc && even sb && decide (sb.val ≤ 60) && peerOk vp && aligned d 2
  | .rldB128 d sb vp sc _ => scopeOk sc && even sb && decide (sb.val ≤ 60) && peerOk vp && aligned d 4
  | .rstB32 _ sb vp sc _ => scopeOk sc && even sb && peerOk vp
  | .rstB64 d sb vp sc _ => scopeOk sc && even sb && peerOk vp && aligned d 2
  | .ratom d sb vp sc x => scopeOk sc && even sb && decide (sb.val ≤ 60) && peerOk vp && decide (ctlOp x ≤ 13) && (x.getD 0).toNat / 2 ^ 8 % 65536 == 0 && aligned d (remoteAlign (ctlOp x))
  | .rred d sb vp sc x => scopeOk sc && even sb && peerOk vp && (decide (ctlOp x ≤ 7) || ctlOp x == 10 || ctlOp x == 14) && ctlOrd x % 2 == 0 && (x.getD 0).toNat / 2 ^ 8 % 65536 == 0 && aligned d (remoteAlign (ctlOp x))
  | .rmcast _ sb vp sc _ => scopeOk sc && even sb && peerOk vp
  | .mmaE4m3 _ sa _ _ _ => groupOk sa 4
  | .mmaE5m2 _ sa _ _ _ => groupOk sa 4
  | .mmaBf16 _ sa _ _ _ => groupOk sa 4
  | .mmaF16 _ sa _ _ _ => groupOk sa 4
  | .mmaLog6 _ sa _ _ _ => groupOk sa 4
  | .wbldDense sa _ sk => even sa && groupOk sk 4
  | .wbldSp24 sa _ sk => even sa && groupOk sk 4
  | .wbldCb4 sa _ sk => even sa && groupOk sk 4
  | .tzero _ => true
  | .tmov _ _ => true
  | .tst _ _ sk => even sk
  | .tadd _ _ => true
  | .tld _ _ sk => even sk
  | .cpStart cb _ => even cb && decide (cb.val ≤ 58)
  | .cpRect cb _ => even cb && decide (cb.val ≤ 50)
  | .cpFill cb _ => even cb && decide (cb.val ≤ 58)
  | .cpTier cb _ => even cb && decide (cb.val ≤ 60)
  | .xgStart cb _ => even cb && decide (cb.val ≤ 54)
  | .xgCancel cb _ _ => even cb
  | .tokTest _ _ => true
  | .cpCancel _ _ => true
  | .xgQuery _ _ _ => true
  | .cpBcast cb _ => even cb && decide (cb.val ≤ 58)
  | .trap _ => true
  | .brkpt _ => true
  | .rdsr _ sel => sel.val == 0 || sel.val == 1 || sel.val == 0x10 || sel.val == 0x11 || sel.val == 0x12
  | .wrsr _ sel => sel.val == 0 || sel.val == 0x10
  | .fret _ => true
  | .fkill _ => true
  | .frd _ item lane idx => frdOk item.val lane.val idx.val
  | .pclr _ _ => true
  | .wfetch sg _ => groupOk sg 4
  | .hbeat => true
  | .rgclaim _ n => decide (1 ≤ n.val)
  | .rgrel _ n => decide (1 ≤ n.val)
  | .wdone sg _ => groupOk sg 3
  | .wcond _ _ => true
  | .wlaunch sg _ => groupOk sg 2
  | .wyield _ => true
  | .clauseGrant _ _ => true
  | .rankAging _ _ => true
  | .impreciseFault _ _ _ _ _ _ => true
  | .ringFull _ => true
  | .handlerStart _ => true
  | .loadComplete _ => true
  | .storeComplete _ => true
  | .writeThroughApply _ _ => true
  | .ecbWalk _ _ _ => true
  | .portTranslate _ => true
  | .rowRemapReloadDone _ _ _ => true
  | .cxlMemRequest _ _ _ => true
  | .bar2Request _ _ _ _ => true
  | .slideStart _ _ => true
  | .portSlideBegin _ _ _ => true
  | .slideOpen _ _ => true
  | .portOpen _ _ _ => true
  | .portOpenAck _ _ _ => true
  | .slideCopy _ _ => true
  | .slideAdvance _ _ => true
  | .portAdvance _ _ _ => true
  | .slideClose _ _ => true
  | .portClose _ _ _ => true
  | .slideCommit _ _ => true
  | .portCommit _ _ _ => true
  | .slideAckTimeout _ _ => true
  | .residencyDemote _ _ => true
  | .residencyPromote _ _ => true
  | .retireAccessesDrained _ _ => true
  | .arrivalCounted _ _ => true
  | .blockedWordResume _ _ _ => true
  | .ownershipRequest _ _ => true
  | .recallLine _ => true
  | .lineSurrender _ => true
  | .directoryMerge _ _ _ => true
  | .l1Eviction _ _ => true
  | .cxlCacheResponse _ _ => true
  | .snpdata _ => true
  | .snpinv _ => true
  | .atomicopCompletion _ _ _ => true
  | .shareReq _ => true
  | .grant _ => true
  | .add _ => true
  | .drain _ => true
  | .fdrain _ => true
  | .bload _ => true
  | .bvalue _ => true
  | .copyPiece _ _ => true
  | .copyComplete _ => true
  | .exchangeRunEmit _ => true
  | .exchangeRun _ => true
  | .runAcknowledgment _ => true
  | .runResend _ _ => true
  | .exchangeEnd _ => true
  | .exchangePartComplete _ => true
  | .xgCancelComplete _ => true
  | .matrixComplete _ => true
  | .remoteReplay _ _ => true
  | .remoteRequest _ => true
  | .remoteReply _ => true
  | .remoteAcknowledgment _ => true
  | .refusal _ => true
  | .responseTimeout _ _ => true
  | .postedTimeout _ => true
  | .flitReceive _ _ => true
  | .replayRequest _ => true
  | .heartbeat _ => true
  | .linkRetrain _ _ => true
  | .linkIdleTimeout _ => true
  | .linkDown _ => true
  | .idleFlit _ => true
  | .throttleProposal _ _ _ _ => true
  | .energyWindow _ => true
  | .doorbell _ _ _ => true
  | .queueTake _ => true
  | .priorityAging _ => true
  | .taskDue _ => true
  | .dispatchDecision _ => true
  | .warpFree _ _ _ => true
  | .taskRetire _ => true
  | .preemptionStarvation _ => true
  | .saveComplete _ => true
  | .rldSaveTimeout _ => true
  | .watchdogExpire _ => true
  | .claimGrant _ => true
  | .wyieldRelease _ => true
  | .wfetchFill _ => true
  | .auditReplay _ _ => true
  | .auditReplayEnd _ => true
  | .scrubRead _ => true
  | .scrubWrite _ => true
  | .powerDownEntry _ _ => true
  | .selfRefreshEntry _ _ => true
  | .hbmThermalBand _ _ => true
  | .inletOvertemp _ _ => true
  | .hostPortDown _ => true
  | .cxlPortWaitTimeout _ => true
  | .reset => true
  | .bootStep _ => true
  | .bar0Write _ _ _ => true
  | .extentCreate => true
  | .extentRetire => true
  | .hostWindowWrite => true
  | .rcbWrite => true
  | .membershipTableEntry => true
  | .groupTableEntry => true
  | .faultFrameAnswer => true
  | .preemptionRequest => true
  | .regionKill => true
  | .attestationQuote => true
  | .acceptWork => true
  | .demotionPool => true
  | .pinQuota => true
  | .auditSetting => true
  | .physicalCopy => true
  | .unknownCommand => true
  | .hostPortUp _ => true
  | .channelExit _ _ => true

end Sys2Proof
end

