-- ==== Sys2Proof/Machine/Operands.lean ====
section
/-! DEFINITION. Operand forms: what an operand field supplies (02_encoding.md R34), register ranges (R36), the consumption of
poison (06_vector.md R121), and the shared shapes of the scalar and vector words. -/
namespace Sys2Proof.Machine

/-- Words an instruction with these operand fields occupies (02_encoding.md R35). -/
def opWords (a b : Operand) : Nat := if a.lit?.isSome || b.lit?.isSome then 2 else 1

/-- The value of a special register for lane i (02_encoding.md R34, 05_control.md R90). -/
def State.special (s : State) (x : Special) (i : Nat) : Word :=
  match x with
  | .lane => BitVec.ofNat 32 i
  | .warp => BitVec.ofNat 32 s.hwarp.widx
  | .block => BitVec.ofNat 32 s.hblk.no
  | .cx => BitVec.ofNat 32 (coreX s.hcore)
  | .cy => BitVec.ofNat 32 (coreY s.hcore)
  | .cluster => BitVec.ofNat 32 (coreCluster s.hcore)
  | .ctx => BitVec.ofNat 32 (s.hwarp.ctx % 2 ^ 16)
  | .time => BitVec.ofNat 32 s.plat.time

/-- The inline integer of operand code 0xC0 + k. -/
def inlineInt (k : Nat) : Int := (k : Int) - 16

/-- The inline binary32 constants 0, 0.5, 1, 2, 4, −0.5, −1, −2 (02_encoding.md R34). -/
def inlineF32 (k : Nat) : Nat :=
  [0x00000000, 0x3F000000, 0x3F800000, 0x40000000, 0x40800000, 0xBF000000, 0xBF800000, 0xC0000000].getD k 0

/-- The types an operand field is read as: 32-bit integers and raw bits, binary32, or two halves of a 16-bit format. -/
inductive OpTy
  | raw
  | f32
  | half (f : Fmt)
  deriving DecidableEq, Repr

/-- A 16-bit code in both halves of a word. -/
def bothHalves (c : Nat) : Word := BitVec.ofNat 32 (65536 * c + c)

/-- An inline integer in an operand type (02_encoding.md R34). -/
def inlineIntAs (ty : OpTy) (k : Nat) : Word :=
  let n := inlineInt k
  match ty with
  | .raw => BitVec.ofInt 32 n
  | .f32 => BitVec.ofNat 32 (roundFin f32 .rne false (decide (n < 0)) n.natAbs 0)
  | .half f => bothHalves (roundFin f .rne false (decide (n < 0)) n.natAbs 0)

/-- An inline binary32 constant in an operand type (02_encoding.md R34). -/
def inlineF32As (ty : OpTy) (k : Nat) : Word :=
  match ty with
  | .raw | .f32 => BitVec.ofNat 32 (inlineF32 k)
  | .half f => bothHalves (roundTo f .rne false (decodeF f32 (inlineF32 k)))

/-- What an operand field supplies to lane i (02_encoding.md R34). -/
def State.opVal (s : State) (ty : OpTy) (o : Operand) (i : Nat) : Word :=
  match o with
  | .v r => s.hwarp.v r.val i
  | .s r => s.hwarp.s r.val
  | .int k => inlineIntAs ty k.val
  | .fc k => inlineF32As ty k.val
  | .sp x => s.special x i
  | .lit w => w

/-- What an operand field of an SA word supplies (05_control.md R90, R92). -/
def State.sopVal (s : State) (o : Operand) : Word := s.opVal .raw o 0

/-- What an operand field of `sadd64` supplies (05_control.md R94). -/
def State.sopVal64 (s : State) (o : Operand) : DWord :=
  match o with
  | .s r => s.hwarp.pair r.val
  | .int k => BitVec.ofInt 64 (inlineInt k.val)
  | .lit w => w.signExtend 64
  | .sp x => (s.special x 0).zeroExtend 64
  | _ => 0

/-- The vector register an operand names. -/
def opVregs (o : Operand) : List Nat :=
  match o with
  | .v r => [r.val]
  | _ => []

/-- Whether every register lies in the warp's allocation (02_encoding.md R36). -/
def State.inRange (s : State) (regs : List Nat) : Bool := regs.all (fun r => decide (r < s.hwarp.regs))

/-- Lanes of a mask in which some register of a list is poisoned (06_vector.md R121). -/
def State.poisonLanes (s : State) (regs : List Nat) (lanes : Word) : Word :=
  regs.foldl (fun a r => a ||| (s.hwarp.poisoned r &&& lanes)) 0

/-- The register that a poison frame names: the first of a word's operands, in their order, with a poisoned lane in a mask (DESIGN CHOICE
where several are poisoned, log entry 24). -/
def State.poisonReg (s : State) (regs : List Nat) (lanes : Word) : Nat :=
  (regs.find? (fun r => s.hwarp.poisoned r &&& lanes != 0)).getD 0

/-- The checks that every vector word shares: register-range for the registers it names, then poison-consumed for the lanes
it reads (02_encoding.md R36, 06_vector.md R121); otherwise its effect. -/
def vecChecked (s : State) (names reads : List Nat) (lanes : Word) (ok : State) : Result :=
  if !s.inRange names then .next s.rangeFault
  else if s.poisonLanes reads lanes != 0 then .next (s.poisonFault (s.poisonReg reads lanes) (s.poisonLanes reads lanes))
  else .next ok

/-- The state in which a vector word has written a row of a register and moved past its n words. -/
def State.wrote (s : State) (d : Nat) (lanes : Word) (f : Nat → Word) (n : Nat) (keep : Bool := false) : State :=
  (s.updHere (fun w => w.setV d lanes f keep)).advance n

/-- A vector word of two operands: `f x y z` gives a visited lane's result from a[i], b[i] and the earlier vd[i], which it
consumes when `acc` (06_vector.md R119). -/
def vec2 (s : State) (ty : OpTy) (acc : Bool) (d : VReg) (a b : Operand) (p : Bool) (f : Word → Word → Word → Word) : Result :=
  let lanes := s.active p
  vecChecked s (d.val :: opVregs a ++ opVregs b) (opVregs a ++ opVregs b ++ (if acc then [d.val] else [])) lanes
    (s.wrote d.val lanes (fun i => f (s.opVal ty a i) (s.opVal ty b i) (s.hwarp.v d.val i)) (opWords a b))

/-- A vector word of one operand. -/
def vec1 (s : State) (ty : OpTy) (d : VReg) (a : Operand) (p : Bool) (f : Word → Word) : Result :=
  vec2 s ty false d a (.int 16) p (fun x _ _ => f x)

/-- A scalar word: sd takes a value and the split moves on (05_control.md R92). -/
def sca (s : State) (d : SReg) (a b : Operand) (x : Word) : Result :=
  .next ((s.updHere (fun w => w.setS d.val x)).advance (opWords a b))

/-- A mask word: md takes a value (05_control.md R95). -/
def msk (s : State) (d : MReg) (x : Word) : Result := .next ((s.updHere (fun w => w.setM d.val x)).advance 1)

end Sys2Proof.Machine
end

