-- ==== Sys2Proof/Machine/Flags.lean ====
section
/-! DEFINITION. Conditions and the flag `scc`: the condition codes of `scmp` (05_control.md R93) and `vcmp`
(06_vector.md R130), and the words that write `scc` with a status. -/
namespace Sys2Proof.Machine

/-- A condition of `scmp` (05_control.md R93). -/
def scmpHolds (c : Fin 10) (x y : Word) : Bool :=
  match c.val with
  | 0 => x == y
  | 1 => x != y
  | 2 => x.slt y
  | 3 => x.sle y
  | 4 => y.slt x
  | 5 => y.sle x
  | 6 => x.ult y
  | 7 => x.ule y
  | 8 => y.ult x
  | _ => y.ule x

/-- A condition of `vcmp.i32` (06_vector.md R130). -/
def icmpHolds (c : Fin 8) (x y : Word) : Bool :=
  match c.val with
  | 0 => x == y
  | 1 => x != y
  | 2 => x.slt y
  | 3 => x.sle y
  | 4 => y.slt x
  | _ => y.sle x

/-- A condition of `vcmp.n32` (06_vector.md R130). -/
def ncmpHolds (c : Fin 8) (x y : Word) : Bool :=
  match c.val with
  | 0 => x == y
  | 1 => x != y
  | 2 => x.ult y
  | 3 => x.ule y
  | 4 => y.ult x
  | _ => y.ule x

/-- A condition of `vcmp.f32` (06_vector.md R130). -/
def fcmpHolds (c : Fin 8) (a b : Word) : Bool :=
  let x := decodeF f32 a.toNat
  let y := decodeF f32 b.toNat
  match c.val with
  | 0 => x.eq y
  | 1 => !x.eq y
  | 2 => x.lt y
  | 3 => x.lt y || x.eq y
  | 4 => y.lt x
  | 5 => y.lt x || x.eq y
  | 6 => x.isNan || y.isNan
  | _ => !x.isNan && !y.isNan

/-- A warp's scalar takes a status, and `scc` becomes 1 exactly when the status is 0 (10_sync.md R202, 09_extents.md R194,
21_work.md R378). -/
def Warp.setStatus (w : Warp) (d st : Nat) : Warp := (w.setS d (BitVec.ofNat 32 st)).setScc (st == 0)

/-- The word that issues answers with a status. -/
def State.status (s : State) (d : SReg) (st n : Nat) : State := (s.updHere (fun w => w.setStatus d.val st)).advance n

end Sys2Proof.Machine
end

