-- ==== Sys2Proof/Decode.lean ====
section
/-! DEFINITION. The decoder of instruction words, total and rejecting by name, and after it the encoder (02_encoding.md
R32 to R46 and the encoding rules of each chapter). -/
namespace Sys2Proof

/-- Why a word is no instruction; each raises illegal-instruction at the word (02_encoding.md R33 to R46). -/
inductive DecodeError
  | unassigned (op : Nat)   -- R46
  | unusedField             -- R33: a nonzero bit of a field the instruction does not use
  | badOperand              -- R34: a reserved operand code, or a source the instruction does not take
  | noLiteral               -- R35: the literal lies beyond the clause's last word
  | badValue                -- a field or literal value that the instruction's chapter rejects
  deriving DecidableEq, Repr

/-- The field of width n at bit lo of a word (00_scope.md R1). -/
def fld (w lo n : Nat) : Nat := w / 2 ^ lo % 2 ^ n

/-- A register or code number from a field that is as wide as its range. -/
def fin (n : Nat) [NeZero n] (x : Nat) : Fin n := Fin.ofNat n x

/-- The special registers by operand code − 0xE8 (02_encoding.md R34). -/
def special : Nat → Special
  | 0 => .lane | 1 => .warp | 2 => .block | 3 => .cx | 4 => .cy | 5 => .cluster | 6 => .ctx | _ => .time

/-- The source that an 8-bit operand code names; `lit` is the word after the instruction (02_encoding.md R34, R35). -/
def operand (c : Nat) (lit : Option Word) : Except DecodeError Operand :=
  if c < 0x80 then .ok (.v (fin 128 c))
  else if c < 0xC0 then .ok (.s (fin 64 (c - 0x80)))
  else if c < 0xE0 then .ok (.int (fin 32 (c - 0xC0)))
  else if c < 0xE8 then .ok (.fc (fin 8 (c - 0xE0)))
  else if c < 0xF0 then .ok (.sp (special (c - 0xE8)))
  else if c = 0xFF then
    match lit with
    | some w => .ok (.lit w)
    | none => .error .noLiteral
  else .error .badOperand

/-- The literal of a word with x = 1 (02_encoding.md R32, R35, R42). -/
def literalOf (w : Nat) (lit : Option Word) : Except DecodeError (Option Word) :=
  if fld w 0 1 = 0 then .ok none
  else
    match lit with
    | some l => .ok (some l)
    | none => .error .noLiteral

/-- An instruction that its well-formedness accepts; `unused` says that every unused bit is 0 (02_encoding.md R33). -/
def accept (unused : Bool) (i : Instr) : Except DecodeError Instr :=
  if !unused then .error .unusedField
  else if i.wf then .ok i else .error .badValue

/-- The instruction of each opcode of this form (02_encoding.md R46). -/
def ctorSa : Nat → Option (SReg → Operand → Operand → Instr)
  | 0x00 => some .sadd
  | 0x01 => some .ssub
  | 0x02 => some .smul
  | 0x03 => some .smulhi
  | 0x04 => some .sand
  | 0x05 => some .sor
  | 0x06 => some .sxor
  | 0x07 => some .sshl
  | 0x08 => some .sshr
  | 0x09 => some .ssra
  | 0x0A => some .smin
  | 0x0B => some .smax
  | 0x0D => some .ssel
  | _ => none

/-- The instruction of each opcode of this form (02_encoding.md R46). -/
def ctorMask : Nat → Option (MReg → MReg → MReg → Instr)
  | 0x1A => some .mand
  | 0x1B => some .mor
  | 0x1C => some .mxor
  | 0x1D => some .mandn
  | _ => none

/-- The instruction of each opcode of this form (02_encoding.md R46). -/
def ctorBrOff : Nat → Option (Fin 1048576 → Instr)
  | 0x10 => some .jmp
  | 0x15 => some .join
  | 0x17 => some .call
  | _ => none

/-- The instruction of each opcode of this form (02_encoding.md R46). -/
def ctorBrMask : Nat → Option (MReg → Bool → Fin 1048576 → Instr)
  | 0x12 => some .bdiv
  | 0x13 => some .bany
  | 0x14 => some .ball
  | 0x16 => some .brk
  | _ => none

/-- The instruction of each opcode of this form (02_encoding.md R46). -/
def ctorVaBin : Nat → Option (VReg → Operand → Operand → Bool → Instr)
  | 0x20 => some .vaddI32
  | 0x21 => some .vsubI32
  | 0x22 => some .vmulI32
  | 0x23 => some .vmulhiI32
  | 0x24 => some .vmulhiN32
  | 0x25 => some .vmadI32
  | 0x26 => some .vandB32
  | 0x27 => some .vorB32
  | 0x28 => some .vxorB32
  | 0x29 => some .vshlB32
  | 0x2A => some .vshrN32
  | 0x2B => some .vshrI32
  | 0x2C => some .vminI32
  | 0x2D => some .vminN32
  | 0x2E => some .vmaxI32
  | 0x2F => some .vmaxN32
  | 0x30 => some .vaddF32
  | 0x31 => some .vfmaF32
  | 0x32 => some .vsubF32
  | 0x33 => some .vmulF32
  | 0x34 => some .vminF32
  | 0x35 => some .vmaxF32
  | 0x3D => some .vfmsF32
  | 0x40 => some .vaddF16
  | 0x41 => some .vfmaF16
  | 0x42 => some .vmulF16
  | 0x43 => some .vaddBf16
  | 0x44 => some .vfmaBf16
  | 0x45 => some .vmulBf16
  | 0x4A => some .vdot4I8
  | 0x50 => some .vaddF32Rz
  | 0x51 => some .vaddF32Ru
  | 0x52 => some .vaddF32Rd
  | 0x53 => some .vsubF32Rz
  | 0x54 => some .vsubF32Ru
  | 0x55 => some .vsubF32Rd
  | 0x56 => some .vmulF32Rz
  | 0x57 => some .vmulF32Ru
  | 0x58 => some .vmulF32Rd
  | 0x59 => some .vfmaF32Rz
  | 0x5A => some .vfmaF32Ru
  | 0x5B => some .vfmaF32Rd
  | _ => none

/-- The instruction of each opcode of this form (02_encoding.md R46). -/
def ctorVaUn : Nat → Option (VReg → Operand → Bool → Instr)
  | 0x36 => some .vrcpF32
  | 0x37 => some .vrsqrtF32
  | 0x38 => some .vsqrtF32
  | 0x39 => some .vexp2F32
  | 0x3A => some .vlog2F32
  | 0x3B => some .vabsF32
  | 0x3C => some .vnegF32
  | 0x3F => some .vclassF32
  | 0x46 => some .vmovB32
  | 0x47 => some .vpopcB32
  | 0x48 => some .vclzB32
  | 0x49 => some .vbrevB32
  | _ => none

/-- The instruction of each opcode of this form (02_encoding.md R46). -/
def ctorVcmp : Nat → Option (Fin 8 → MReg → Operand → Operand → Bool → Instr)
  | 0x5C => some .vcmpI32
  | 0x5D => some .vcmpN32
  | 0x5E => some .vcmpF32
  | _ => none

/-- The instruction of each opcode of this form (02_encoding.md R46). -/
def ctorVcvt : Nat → Option (VReg → Operand → CvtCtl → Bool → Instr)
  | 0x60 => some .vcvtF32I32
  | 0x61 => some .vcvtF32N32
  | 0x62 => some .vcvtI32F32
  | 0x63 => some .vcvtN32F32
  | 0x64 => some .vcvtF16F32
  | 0x65 => some .vcvtBf16F32
  | 0x66 => some .vcvtE4m3F32
  | 0x67 => some .vcvtE5m2F32
  | 0x68 => some .vcvtLog6F32
  | 0x69 => some .vcvtF32F16
  | 0x6A => some .vcvtF32Bf16
  | 0x6B => some .vcvtF32E4m3
  | 0x6C => some .vcvtF32E5m2
  | 0x6D => some .vcvtF32Log6
  | _ => none

/-- The instruction of each opcode of this form (02_encoding.md R46). -/
def ctorVnb : Nat → Option (VReg → VReg → Fin 4 → Bool → Instr)
  | 0x71 => some .vnblB32
  | 0x72 => some .vnbrB32
  | _ => none

/-- The instruction of each opcode of this form (02_encoding.md R46). -/
def ctorVred : Nat → Option (VReg → VReg → Bool → Instr)
  | 0x74 => some .vredAddI32
  | 0x75 => some .vredAddF32
  | 0x76 => some .vredMaxF32
  | 0x77 => some .vredMinF32
  | 0x78 => some .vscanAddI32
  | 0x79 => some .vscanAddF32
  | _ => none

/-- The instruction of each opcode of this form (02_encoding.md R46). -/
def ctorLdg : Nat → Option (VReg → SReg → VReg → Fin 8 → Option Word → Instr)
  | 0x80 => some .ldN8
  | 0x81 => some .ldI8
  | 0x82 => some .ldN16
  | 0x83 => some .ldI16
  | 0x84 => some .ldB32
  | 0x85 => some .ldB64
  | 0x86 => some .ldB128
  | _ => none

/-- The instruction of each opcode of this form (02_encoding.md R46). -/
def ctorStg : Nat → Option (VReg → SReg → VReg → Fin 8 → Option Word → Instr)
  | 0x87 => some .stB8
  | 0x88 => some .stB16
  | 0x89 => some .stB32
  | 0x8A => some .stB64
  | 0x8B => some .stB128
  | _ => none

/-- The instruction of each opcode of this form (02_encoding.md R46). -/
def ctorLocal : Nat → Option (VReg → VReg → Fin 8 → Option Word → Instr)
  | 0x8C => some .ldLane
  | 0x8D => some .stLane
  | 0x8E => some .ldSp
  | 0x8F => some .stSp
  | 0x90 => some .ldCm
  | 0x91 => some .stCm
  | 0x92 => some .ldCst
  | 0x93 => some .stCst
  | _ => none

/-- The instruction of each opcode of this form (02_encoding.md R46). -/
def ctorSldst : Nat → Option (SReg → SReg → Fin 8 → Option Word → Instr)
  | 0x94 => some .sldB32
  | 0x95 => some .sstB32
  | _ => none

/-- The instruction of each opcode of this form (02_encoding.md R46). -/
def ctorXsel : Nat → Option (SReg → SReg → Fin 8 → Instr)
  | 0x99 => some .xinfo
  | 0x9C => some .hprio
  | _ => none

/-- The instruction of each opcode of this form (02_encoding.md R46). -/
def ctorXres : Nat → Option (SReg → SReg → Instr)
  | 0x9A => some .hpin
  | 0x9B => some .hdemote
  | 0x9D => some .hunpin
  | _ => none

/-- The instruction of each opcode of this form (02_encoding.md R46). -/
def ctorAtom : Nat → Option (VReg → SReg → VReg → Fin 8 → Option Word → Instr)
  | 0xA0 => some .atomAddI32
  | 0xA1 => some .atomAddF32
  | 0xA2 => some .atomMinI32
  | 0xA3 => some .atomMaxI32
  | 0xA4 => some .atomMinN32
  | 0xA5 => some .atomMaxN32
  | 0xA6 => some .atomAndB32
  | 0xA7 => some .atomOrB32
  | 0xA8 => some .atomXchgB32
  | 0xA9 => some .atomCasB32
  | 0xAA => some .atomAddI64
  | 0xAB => some .atomXchgB64
  | 0xAC => some .atomCasB64
  | 0xAD => some .atomCasB128
  | _ => none

/-- The instruction of each opcode of this form (02_encoding.md R46). -/
def ctorRld : Nat → Option (VReg → SReg → VReg → Fin 8 → Option Word → Instr)
  | 0xB8 => some .rldB32
  | 0xB9 => some .rldB64
  | 0xBA => some .rldB128
  | _ => none

/-- The instruction of each opcode of this form (02_encoding.md R46). -/
def ctorRst : Nat → Option (VReg → SReg → VReg → Fin 8 → Option Word → Instr)
  | 0xBB => some .rstB32
  | 0xBC => some .rstB64
  | 0xBF => some .rmcast
  | _ => none

/-- The instruction of each opcode of this form (02_encoding.md R46). -/
def ctorBar : Nat → Option (SReg → SReg → SReg → Instr)
  | 0xB1 => some .barArrive
  | 0xB2 => some .barExpect
  | 0xB3 => some .barWait
  | 0xB4 => some .barTest
  | _ => none

/-- The instruction of each opcode of this form (02_encoding.md R46). -/
def ctorMma : Nat → Option (Fin 4 → SReg → SReg → SReg → Bool → Instr)
  | 0xC0 => some .mmaE4m3
  | 0xC1 => some .mmaE5m2
  | 0xC2 => some .mmaBf16
  | 0xC3 => some .mmaF16
  | 0xC4 => some .mmaLog6
  | _ => none

/-- The instruction of each opcode of this form (02_encoding.md R46). -/
def ctorWbld : Nat → Option (SReg → SReg → SReg → Instr)
  | 0xC5 => some .wbldDense
  | 0xC6 => some .wbldSp24
  | 0xC7 => some .wbldCb4
  | _ => none

/-- The instruction of each opcode of this form (02_encoding.md R46). -/
def ctorTst : Nat → Option (Fin 4 → SReg → SReg → Instr)
  | 0xCA => some .tst
  | 0xCC => some .tld
  | _ => none

/-- The instruction of each opcode of this form (02_encoding.md R46). -/
def ctorEn : Nat → Option (SReg → SReg → Instr)
  | 0xD0 => some .cpStart
  | 0xD1 => some .cpRect
  | 0xD2 => some .cpFill
  | 0xD3 => some .cpTier
  | 0xD4 => some .xgStart
  | 0xD9 => some .cpBcast
  | _ => none

/-- The instruction of each opcode of this form (02_encoding.md R46). -/
def ctorTok : Nat → Option (SReg → SReg → Instr)
  | 0xD6 => some .tokTest
  | 0xD7 => some .cpCancel
  | _ => none

/-- The instruction of each opcode of this form (02_encoding.md R46). -/
def ctorTrap : Nat → Option (Fin 1024 → Instr)
  | 0xE0 => some .trap
  | 0xE1 => some .brkpt
  | _ => none

/-- The instruction of each opcode of this form (02_encoding.md R46). -/
def ctorSr : Nat → Option (SReg → Fin 256 → Instr)
  | 0xE2 => some .rdsr
  | 0xE3 => some .wrsr
  | _ => none

/-- The instruction of each opcode of this form (02_encoding.md R46). -/
def ctorWsg : Nat → Option (SReg → SReg → Instr)
  | 0xE8 => some .wfetch
  | 0xEC => some .wdone
  | 0xEE => some .wlaunch
  | _ => none

/-- The instruction of each opcode of this form (02_encoding.md R46). -/
def ctorRg : Nat → Option (SReg → Fin 16 → Instr)
  | 0xEA => some .rgclaim
  | 0xEB => some .rgrel
  | _ => none

/-- The forms that only one instruction has, by opcode. -/
def decodeSingle (op w : Nat) (lit : Option Word) : Except DecodeError Instr :=
  match op with
  | 0x0C => do let a ← operand (fld w 10 8) lit; let b ← operand (fld w 2 8) lit; if fld w 18 6 < 10 then accept (fld w 0 2 == 0) (.scmp (fin 10 (fld w 18 6)) a b) else .error .badValue
  | 0x0E => do let a ← operand (fld w 10 8) lit; let b ← operand (fld w 2 8) lit; accept (fld w 0 2 == 0) (.sadd64 (fin 64 (fld w 18 6)) a b)
  | 0x0F => do let a ← operand (fld w 10 8) lit; accept (fld w 0 10 == 0) (.smov (fin 64 (fld w 18 6)) a)
  | 0x11 => accept (fld w 21 3 == 0) (.bscc (fld w 20 1 == 1) (fin 1048576 (fld w 0 20)))
  | 0x18 => accept (fld w 0 24 == 0) .ret
  | 0x19 => accept (fld w 0 24 == 0) .exit
  | 0x1E => accept (fld w 21 3 == 0 && fld w 0 18 == 0) (.mfrom (fin 8 (fld w 18 3)))
  | 0x1F => accept (fld w 21 3 == 0 && fld w 13 5 == 0 && fld w 0 10 == 0) (.mto (fin 8 (fld w 18 3)) (fin 8 (fld w 10 3)))
  | 0x3E => do let a ← operand (fld w 9 8) lit; if fld w 7 1 = 1 then .error .badValue else accept (fld w 8 1 == 0 && fld w 1 4 == 0) (.vrndF32 (fin 128 (fld w 17 7)) a (fin 4 (fld w 5 2)) (fld w 0 1 == 1))
  | 0x5F => do let a ← operand (fld w 9 8) lit; let b ← operand (fld w 1 8) lit; accept (fld w 0 1 == 0) (.vselB32 (fin 128 (fld w 17 7)) a b)
  | 0x6E => if fld w 9 8 < 128 then accept (fld w 1 2 == 0) (.vscvt (fin 128 (fld w 17 7)) (fin 128 (fld w 9 8)) ⟨fld w 8 1 == 1, fin 8 (fld w 5 3), fin 4 (fld w 3 2)⟩ (fld w 0 1 == 1)) else .error .badOperand
  | 0x70 => do let b ← operand (fld w 1 8) lit; if fld w 9 8 < 128 then accept true (.vshflB32 (fin 128 (fld w 17 7)) (fin 128 (fld w 9 8)) b (fld w 0 1 == 1)) else .error .badOperand
  | 0x73 => do let b ← operand (fld w 1 8) lit; if fld w 9 8 < 128 then accept true (.vbcastB32 (fin 128 (fld w 17 7)) (fin 128 (fld w 9 8)) b (fld w 0 1 == 1)) else .error .badOperand
  | 0x7A => do let a ← operand (fld w 9 8) lit; accept (fld w 20 4 == 0 && fld w 1 8 == 0) (.vballot (fin 8 (fld w 17 3)) a (fld w 0 1 == 1))
  | 0x7B => do let b ← operand (fld w 1 8) lit; if fld w 9 8 < 128 then accept (fld w 23 1 == 0 && fld w 0 1 == 0) (.vrdlane (fin 64 (fld w 17 6)) (fin 128 (fld w 9 8)) b) else .error .badOperand
  | 0x96 => do let x ← literalOf w lit; accept (fld w 17 7 == 0) (.pf (fin 64 (fld w 11 6)) (fin 128 (fld w 4 7)) (fin 8 (fld w 1 3)) x)
  | 0x97 => do let x ← literalOf w lit; accept (fld w 17 7 == 0 && fld w 1 3 == 0) (.cinv (fin 64 (fld w 11 6)) (fin 128 (fld w 4 7)) x)
  | 0x98 => do let x ← literalOf w lit; accept (fld w 23 1 == 0 && fld w 4 7 == 0 && fld w 1 3 == 0) (.xprobe (fin 64 (fld w 17 6)) (fin 64 (fld w 11 6)) x)
  | 0xAE => do let x ← literalOf w lit; accept true (.bredAddF32 (fin 128 (fld w 17 7)) (fin 64 (fld w 11 6)) (fin 128 (fld w 4 7)) (fin 8 (fld w 1 3)) x)
  | 0xAF => do let x ← literalOf w lit; accept true (.ldBnd (fin 128 (fld w 17 7)) (fin 64 (fld w 11 6)) (fin 128 (fld w 4 7)) (fin 8 (fld w 1 3)) x)
  | 0xB0 => accept (fld w 0 3 == 0) (.barInit (fin 64 (fld w 18 6)) (fin 64 (fld w 12 6)) (fin 64 (fld w 6 6)) (fin 8 (fld w 3 3)))
  | 0xB5 => accept (fld w 12 6 == 0 && fld w 0 6 == 0) (.barDrop (fin 64 (fld w 18 6)) (fin 64 (fld w 6 6)))
  | 0xB6 => accept (fld w 0 2 == 0) (.wait (fin 32 (fld w 19 5)) (fin 32 (fld w 14 5)) (fin 8 (fld w 11 3)) (fin 8 (fld w 8 3)) (fin 8 (fld w 5 3)) (fin 8 (fld w 2 3)))
  | 0xB7 => accept (fld w 5 19 == 0 && fld w 0 2 == 0) (.bdrain (fin 8 (fld w 2 3)))
  | 0xBD => do let x ← literalOf w lit; accept true (.ratom (fin 128 (fld w 17 7)) (fin 64 (fld w 11 6)) (fin 128 (fld w 4 7)) (fin 8 (fld w 1 3)) x)
  | 0xBE => do let x ← literalOf w lit; accept true (.rred (fin 128 (fld w 17 7)) (fin 64 (fld w 11 6)) (fin 128 (fld w 4 7)) (fin 8 (fld w 1 3)) x)
  | 0xC8 => accept (fld w 0 22 == 0) (.tzero (fin 4 (fld w 22 2)))
  | 0xC9 => accept (fld w 0 16 == 0) (.tmov (fin 4 (fld w 22 2)) (fin 64 (fld w 16 6)))
  | 0xCB => accept (fld w 2 20 == 0) (.tadd (fin 4 (fld w 22 2)) (fin 4 (fld w 0 2)))
  | 0xD5 => accept (fld w 0 6 == 0) (.xgCancel (fin 64 (fld w 18 6)) (fin 64 (fld w 12 6)) (fin 64 (fld w 6 6)))
  | 0xD8 => if fld w 5 1 = 1 then .error .badValue else accept (fld w 18 6 == 0 && fld w 0 3 == 0) (.xgQuery (fin 64 (fld w 12 6)) (fin 64 (fld w 6 6)) (fin 4 (fld w 3 2)))
  | 0xE4 => if fld w 0 10 < 2 then accept (fld w 10 14 == 0) (.fret (fin 2 (fld w 0 10))) else .error .badValue
  | 0xE5 => if fld w 0 10 < 3 then accept (fld w 10 14 == 0) (.fkill (fin 3 (fld w 0 10))) else .error .badValue
  | 0xE6 => accept true (.frd (fin 64 (fld w 18 6)) (fin 8 (fld w 15 3)) (fin 32 (fld w 10 5)) (fin 1024 (fld w 0 10)))
  | 0xE7 => accept (fld w 7 11 == 0) (.pclr (fin 64 (fld w 18 6)) (fin 128 (fld w 0 7)))
  | 0xE9 => accept (fld w 0 24 == 0) .hbeat
  | 0xED => accept (fld w 4 14 == 0) (.wcond (fin 64 (fld w 18 6)) (fin 16 (fld w 0 4)))
  | 0xEF => accept (fld w 0 18 == 0) (.wyield (fin 64 (fld w 18 6)))
  | _ => .error (.unassigned op)

/-- The shared forms of this part of the opcode map (02_encoding.md R45). -/
def decodeScalar (op w : Nat) (lit : Option Word) : Except DecodeError Instr :=
  match ctorSa op with
  | some k => do let a ← operand (fld w 10 8) lit; let b ← operand (fld w 2 8) lit; accept (fld w 0 2 == 0) (k (fin 64 (fld w 18 6)) a b)
  | none =>
  match ctorMask op with
  | some k => accept (fld w 21 3 == 0 && fld w 13 5 == 0 && fld w 5 5 == 0 && fld w 0 2 == 0) (k (fin 8 (fld w 18 3)) (fin 8 (fld w 10 3)) (fin 8 (fld w 2 3)))
  | none =>
  match ctorBrOff op with
  | some k => accept (fld w 20 4 == 0) (k (fin 1048576 (fld w 0 20)))
  | none =>
  match ctorBrMask op with
  | some k => accept true (k (fin 8 (fld w 21 3)) (fld w 20 1 == 1) (fin 1048576 (fld w 0 20)))
  | none =>
  decodeSingle op w lit

/-- The shared forms of this part of the opcode map (02_encoding.md R45). -/
def decodeVector (op w : Nat) (lit : Option Word) : Except DecodeError Instr :=
  match ctorVaBin op with
  | some k => do let a ← operand (fld w 9 8) lit; let b ← operand (fld w 1 8) lit; accept true (k (fin 128 (fld w 17 7)) a b (fld w 0 1 == 1))
  | none =>
  match ctorVaUn op with
  | some k => do let a ← operand (fld w 9 8) lit; accept (fld w 1 8 == 0) (k (fin 128 (fld w 17 7)) a (fld w 0 1 == 1))
  | none =>
  match ctorVcmp op with
  | some k => do let a ← operand (fld w 9 8) lit; let b ← operand (fld w 1 8) lit; if fld w 23 1 = 1 then .error .badValue else accept true (k (fin 8 (fld w 20 3)) (fin 8 (fld w 17 3)) a b (fld w 0 1 == 1))
  | none =>
  match ctorVcvt op with
  | some k => do let a ← operand (fld w 9 8) lit; accept (fld w 1 2 == 0) (k (fin 128 (fld w 17 7)) a ⟨fld w 8 1 == 1, fin 8 (fld w 5 3), fin 4 (fld w 3 2)⟩ (fld w 0 1 == 1))
  | none =>
  match ctorVnb op with
  | some k => if fld w 9 8 < 128 then (if fld w 1 8 < 4 then accept true (k (fin 128 (fld w 17 7)) (fin 128 (fld w 9 8)) (fin 4 (fld w 1 8)) (fld w 0 1 == 1)) else .error .badValue) else .error .badOperand
  | none =>
  match ctorVred op with
  | some k => if fld w 9 8 < 128 then accept (fld w 1 8 == 0) (k (fin 128 (fld w 17 7)) (fin 128 (fld w 9 8)) (fld w 0 1 == 1)) else .error .badOperand
  | none =>
  decodeSingle op w lit

/-- The shared forms of this part of the opcode map (02_encoding.md R45). -/
def decodeMemory (op w : Nat) (lit : Option Word) : Except DecodeError Instr :=
  match ctorLdg op with
  | some k => do let x ← literalOf w lit; accept true (k (fin 128 (fld w 17 7)) (fin 64 (fld w 11 6)) (fin 128 (fld w 4 7)) (fin 8 (fld w 1 3)) x)
  | none =>
  match ctorStg op with
  | some k => do let x ← literalOf w lit; accept true (k (fin 128 (fld w 17 7)) (fin 64 (fld w 11 6)) (fin 128 (fld w 4 7)) (fin 8 (fld w 1 3)) x)
  | none =>
  match ctorLocal op with
  | some k => do let x ← literalOf w lit; accept (fld w 11 6 == 0) (k (fin 128 (fld w 17 7)) (fin 128 (fld w 4 7)) (fin 8 (fld w 1 3)) x)
  | none =>
  match ctorSldst op with
  | some k => do let x ← literalOf w lit; accept (fld w 23 1 == 0 && fld w 4 7 == 0) (k (fin 64 (fld w 17 6)) (fin 64 (fld w 11 6)) (fin 8 (fld w 1 3)) x)
  | none =>
  match ctorXsel op with
  | some k => accept (fld w 23 1 == 0 && fld w 4 7 == 0 && fld w 0 1 == 0) (k (fin 64 (fld w 17 6)) (fin 64 (fld w 11 6)) (fin 8 (fld w 1 3)))
  | none =>
  match ctorXres op with
  | some k => accept (fld w 23 1 == 0 && fld w 4 7 == 0 && fld w 0 4 == 0) (k (fin 64 (fld w 17 6)) (fin 64 (fld w 11 6)))
  | none =>
  match ctorAtom op with
  | some k => do let x ← literalOf w lit; accept true (k (fin 128 (fld w 17 7)) (fin 64 (fld w 11 6)) (fin 128 (fld w 4 7)) (fin 8 (fld w 1 3)) x)
  | none =>
  decodeSingle op w lit

/-- The shared forms of this part of the opcode map (02_encoding.md R45). -/
def decodeOther (op w : Nat) (lit : Option Word) : Except DecodeError Instr :=
  match ctorBar op with
  | some k => accept (fld w 0 6 == 0) (k (fin 64 (fld w 18 6)) (fin 64 (fld w 12 6)) (fin 64 (fld w 6 6)))
  | none =>
  match ctorRld op with
  | some k => do let x ← literalOf w lit; accept true (k (fin 128 (fld w 17 7)) (fin 64 (fld w 11 6)) (fin 128 (fld w 4 7)) (fin 8 (fld w 1 3)) x)
  | none =>
  match ctorRst op with
  | some k => do let x ← literalOf w lit; accept true (k (fin 128 (fld w 17 7)) (fin 64 (fld w 11 6)) (fin 128 (fld w 4 7)) (fin 8 (fld w 1 3)) x)
  | none =>
  match ctorMma op with
  | some k => accept (fld w 0 3 == 0) (k (fin 4 (fld w 22 2)) (fin 64 (fld w 16 6)) (fin 64 (fld w 10 6)) (fin 64 (fld w 4 6)) (fld w 3 1 == 1))
  | none =>
  match ctorWbld op with
  | some k => accept (fld w 22 2 == 0 && fld w 0 4 == 0) (k (fin 64 (fld w 16 6)) (fin 64 (fld w 10 6)) (fin 64 (fld w 4 6)))
  | none =>
  match ctorTst op with
  | some k => accept (fld w 10 6 == 0 && fld w 0 4 == 0) (k (fin 4 (fld w 22 2)) (fin 64 (fld w 16 6)) (fin 64 (fld w 4 6)))
  | none =>
  match ctorEn op with
  | some k => accept (fld w 0 12 == 0) (k (fin 64 (fld w 18 6)) (fin 64 (fld w 12 6)))
  | none =>
  match ctorTok op with
  | some k => accept (fld w 18 6 == 0 && fld w 0 6 == 0) (k (fin 64 (fld w 12 6)) (fin 64 (fld w 6 6)))
  | none =>
  match ctorTrap op with
  | some k => accept (fld w 10 14 == 0) (k (fin 1024 (fld w 0 10)))
  | none =>
  match ctorSr op with
  | some k => accept (fld w 0 10 == 0) (k (fin 64 (fld w 18 6)) (fin 256 (fld w 10 8)))
  | none =>
  match ctorWsg op with
  | some k => accept (fld w 16 2 == 0 && fld w 0 10 == 0) (k (fin 64 (fld w 18 6)) (fin 64 (fld w 10 6)))
  | none =>
  match ctorRg op with
  | some k => accept (fld w 4 14 == 0) (k (fin 64 (fld w 18 6)) (fin 16 (fld w 0 4)))
  | none =>
  decodeSingle op w lit

/-- The instruction that word w is, when `lit` is the word after it in the clause (02_encoding.md R32 to R46). -/
def decodeWord (w : Nat) (lit : Option Word) : Except DecodeError Instr :=
  let op := fld w 24 8
  if op < 0x20 then decodeScalar op w lit
  else if op < 0x80 then decodeVector op w lit
  else if op < 0xB0 then decodeMemory op w lit
  else decodeOther op w lit

/-- The first instruction of a run of words of one clause, with the words after it (02_encoding.md R35). -/
def decode : List Word → Except DecodeError (Instr × List Word)
  | [] => .error .noLiteral
  | w :: rest =>
    match decodeWord w.toNat rest.head? with
    | .error e => .error e
    | .ok i => .ok (i, if i.literal?.isSome then rest.tail else rest)

/-! ### The encoder -/

/-- The operand code of a source (02_encoding.md R34). -/
def Operand.code : Operand → Nat
  | .v r => r.val
  | .s r => 0x80 + r.val
  | .int k => 0xC0 + k.val
  | .fc k => 0xE0 + k.val
  | .sp .lane => 0xE8
  | .sp .warp => 0xE9
  | .sp .block => 0xEA
  | .sp .cx => 0xEB
  | .sp .cy => 0xEC
  | .sp .cluster => 0xED
  | .sp .ctx => 0xEE
  | .sp .time => 0xEF
  | .lit _ => 0xFF

/-- A bit as a number. -/
def bit (b : Bool) : Nat := if b then 1 else 0

/-- SA format (02_encoding.md R32). -/
def encSA (op d a b : Nat) : Nat := op * 2 ^ 24 + d * 2 ^ 18 + a * 2 ^ 10 + b * 2 ^ 2

/-- BR format (02_encoding.md R32). -/
def encBR (op mk c off : Nat) : Nat := op * 2 ^ 24 + mk * 2 ^ 21 + c * 2 ^ 20 + off

/-- VA format (02_encoding.md R32). -/
def encVA (op d a b : Nat) (p : Bool) : Nat := op * 2 ^ 24 + d * 2 ^ 17 + a * 2 ^ 9 + b * 2 + bit p

/-- ME and AT format (02_encoding.md R32). -/
def encME (op d sb vo sc : Nat) (x : Option Word) : Nat :=
  op * 2 ^ 24 + d * 2 ^ 17 + sb * 2 ^ 11 + vo * 2 ^ 4 + sc * 2 + bit x.isSome

/-- MX format (02_encoding.md R32). -/
def encMX (op t sa sw sk pr fl : Nat) : Nat :=
  op * 2 ^ 24 + t * 2 ^ 22 + sa * 2 ^ 16 + sw * 2 ^ 10 + sk * 2 ^ 4 + pr * 2 ^ 3 + fl

/-- EN and BA format (02_encoding.md R32). -/
def encEN (op cb tk fl : Nat) : Nat := op * 2 ^ 24 + cb * 2 ^ 18 + tk * 2 ^ 12 + fl

/-- WT format (02_encoding.md R32). -/
def encWT (op ld st cp tl rm sc : Nat) : Nat :=
  op * 2 ^ 24 + ld * 2 ^ 19 + st * 2 ^ 14 + cp * 2 ^ 11 + tl * 2 ^ 8 + rm * 2 ^ 5 + sc * 2 ^ 2

/-- SY format (02_encoding.md R32). -/
def encSY (op d sub imm : Nat) : Nat := op * 2 ^ 24 + d * 2 ^ 18 + sub * 2 ^ 10 + imm

/-- The control byte of a conversion (02_encoding.md R40). -/
def CvtCtl.byte (k : CvtCtl) : Nat := bit k.sat * 2 ^ 7 + k.mode.val * 2 ^ 4 + k.pos.val * 2 ^ 2

/-- The instruction word of a word instruction; 0 for an event, which has no encoding (02_encoding.md R32, R46). -/
def Instr.head : Instr → Nat
  | .sadd d a b => encSA 0x00 d.val a.code b.code
  | .ssub d a b => encSA 0x01 d.val a.code b.code
  | .smul d a b => encSA 0x02 d.val a.code b.code
  | .smulhi d a b => encSA 0x03 d.val a.code b.code
  | .sand d a b => encSA 0x04 d.val a.code b.code
  | .sor d a b => encSA 0x05 d.val a.code b.code
  | .sxor d a b => encSA 0x06 d.val a.code b.code
  | .sshl d a b => encSA 0x07 d.val a.code b.code
  | .sshr d a b => encSA 0x08 d.val a.code b.code
  | .ssra d a b => encSA 0x09 d.val a.code b.code
  | .smin d a b => encSA 0x0A d.val a.code b.code
  | .smax d a b => encSA 0x0B d.val a.code b.code
  | .scmp c a b => encSA 0x0C c.val a.code b.code
  | .ssel d a b => encSA 0x0D d.val a.code b.code
  | .sadd64 d a b => encSA 0x0E d.val a.code b.code
  | .smov d a => encSA 0x0F d.val a.code 0
  | .jmp off => encBR 0x10 0 0 off.val
  | .bscc c off => encBR 0x11 0 (bit c) off.val
  | .bdiv mk c off => encBR 0x12 mk.val (bit c) off.val
  | .bany mk c off => encBR 0x13 mk.val (bit c) off.val
  | .ball mk c off => encBR 0x14 mk.val (bit c) off.val
  | .join off => encBR 0x15 0 0 off.val
  | .brk mk c off => encBR 0x16 mk.val (bit c) off.val
  | .call off => encBR 0x17 0 0 off.val
  | .ret => encBR 0x18 0 0 0
  | .exit => encBR 0x19 0 0 0
  | .mand d a b => encSA 0x1A d.val a.val b.val
  | .mor d a b => encSA 0x1B d.val a.val b.val
  | .mxor d a b => encSA 0x1C d.val a.val b.val
  | .mandn d a b => encSA 0x1D d.val a.val b.val
  | .mfrom d => encSA 0x1E d.val 0 0
  | .mto d a => encSA 0x1F d.val a.val 0
  | .vaddI32 d a b p => encVA 0x20 d.val a.code b.code p
  | .vsubI32 d a b p => encVA 0x21 d.val a.code b.code p
  | .vmulI32 d a b p => encVA 0x22 d.val a.code b.code p
  | .vmulhiI32 d a b p => encVA 0x23 d.val a.code b.code p
  | .vmulhiN32 d a b p => encVA 0x24 d.val a.code b.code p
  | .vmadI32 d a b p => encVA 0x25 d.val a.code b.code p
  | .vandB32 d a b p => encVA 0x26 d.val a.code b.code p
  | .vorB32 d a b p => encVA 0x27 d.val a.code b.code p
  | .vxorB32 d a b p => encVA 0x28 d.val a.code b.code p
  | .vshlB32 d a b p => encVA 0x29 d.val a.code b.code p
  | .vshrN32 d a b p => encVA 0x2A d.val a.code b.code p
  | .vshrI32 d a b p => encVA 0x2B d.val a.code b.code p
  | .vminI32 d a b p => encVA 0x2C d.val a.code b.code p
  | .vminN32 d a b p => encVA 0x2D d.val a.code b.code p
  | .vmaxI32 d a b p => encVA 0x2E d.val a.code b.code p
  | .vmaxN32 d a b p => encVA 0x2F d.val a.code b.code p
  | .vaddF32 d a b p => encVA 0x30 d.val a.code b.code p
  | .vfmaF32 d a b p => encVA 0x31 d.val a.code b.code p
  | .vsubF32 d a b p => encVA 0x32 d.val a.code b.code p
  | .vmulF32 d a b p => encVA 0x33 d.val a.code b.code p
  | .vminF32 d a b p => encVA 0x34 d.val a.code b.code p
  | .vmaxF32 d a b p => encVA 0x35 d.val a.code b.code p
  | .vrcpF32 d a p => encVA 0x36 d.val a.code 0 p
  | .vrsqrtF32 d a p => encVA 0x37 d.val a.code 0 p
  | .vsqrtF32 d a p => encVA 0x38 d.val a.code 0 p
  | .vexp2F32 d a p => encVA 0x39 d.val a.code 0 p
  | .vlog2F32 d a p => encVA 0x3A d.val a.code 0 p
  | .vabsF32 d a p => encVA 0x3B d.val a.code 0 p
  | .vnegF32 d a p => encVA 0x3C d.val a.code 0 p
  | .vfmsF32 d a b p => encVA 0x3D d.val a.code b.code p
  | .vrndF32 d a mode p => encVA 0x3E d.val a.code (mode.val * 16) p
  | .vclassF32 d a p => encVA 0x3F d.val a.code 0 p
  | .vaddF16 d a b p => encVA 0x40 d.val a.code b.code p
  | .vfmaF16 d a b p => encVA 0x41 d.val a.code b.code p
  | .vmulF16 d a b p => encVA 0x42 d.val a.code b.code p
  | .vaddBf16 d a b p => encVA 0x43 d.val a.code b.code p
  | .vfmaBf16 d a b p => encVA 0x44 d.val a.code b.code p
  | .vmulBf16 d a b p => encVA 0x45 d.val a.code b.code p
  | .vmovB32 d a p => encVA 0x46 d.val a.code 0 p
  | .vpopcB32 d a p => encVA 0x47 d.val a.code 0 p
  | .vclzB32 d a p => encVA 0x48 d.val a.code 0 p
  | .vbrevB32 d a p => encVA 0x49 d.val a.code 0 p
  | .vdot4I8 d a b p => encVA 0x4A d.val a.code b.code p
  | .vaddF32Rz d a b p => encVA 0x50 d.val a.code b.code p
  | .vaddF32Ru d a b p => encVA 0x51 d.val a.code b.code p
  | .vaddF32Rd d a b p => encVA 0x52 d.val a.code b.code p
  | .vsubF32Rz d a b p => encVA 0x53 d.val a.code b.code p
  | .vsubF32Ru d a b p => encVA 0x54 d.val a.code b.code p
  | .vsubF32Rd d a b p => encVA 0x55 d.val a.code b.code p
  | .vmulF32Rz d a b p => encVA 0x56 d.val a.code b.code p
  | .vmulF32Ru d a b p => encVA 0x57 d.val a.code b.code p
  | .vmulF32Rd d a b p => encVA 0x58 d.val a.code b.code p
  | .vfmaF32Rz d a b p => encVA 0x59 d.val a.code b.code p
  | .vfmaF32Ru d a b p => encVA 0x5A d.val a.code b.code p
  | .vfmaF32Rd d a b p => encVA 0x5B d.val a.code b.code p
  | .vcmpI32 c m a b p => encVA 0x5C (c.val * 8 + m.val) a.code b.code p
  | .vcmpN32 c m a b p => encVA 0x5D (c.val * 8 + m.val) a.code b.code p
  | .vcmpF32 c m a b p => encVA 0x5E (c.val * 8 + m.val) a.code b.code p
  | .vselB32 d a b => encVA 0x5F d.val a.code b.code false
  | .vcvtF32I32 d a k p => encVA 0x60 d.val a.code k.byte p
  | .vcvtF32N32 d a k p => encVA 0x61 d.val a.code k.byte p
  | .vcvtI32F32 d a k p => encVA 0x62 d.val a.code k.byte p
  | .vcvtN32F32 d a k p => encVA 0x63 d.val a.code k.byte p
  | .vcvtF16F32 d a k p => encVA 0x64 d.val a.code k.byte p
  | .vcvtBf16F32 d a k p => encVA 0x65 d.val a.code k.byte p
  | .vcvtE4m3F32 d a k p => encVA 0x66 d.val a.code k.byte p
  | .vcvtE5m2F32 d a k p => encVA 0x67 d.val a.code k.byte p
  | .vcvtLog6F32 d a k p => encVA 0x68 d.val a.code k.byte p
  | .vcvtF32F16 d a k p => encVA 0x69 d.val a.code k.byte p
  | .vcvtF32Bf16 d a k p => encVA 0x6A d.val a.code k.byte p
  | .vcvtF32E4m3 d a k p => encVA 0x6B d.val a.code k.byte p
  | .vcvtF32E5m2 d a k p => encVA 0x6C d.val a.code k.byte p
  | .vcvtF32Log6 d a k p => encVA 0x6D d.val a.code k.byte p
  | .vscvt d a k p => encVA 0x6E d.val a.val k.byte p
  | .vshflB32 d a b p => encVA 0x70 d.val a.val b.code p
  | .vnblB32 d a sel p => encVA 0x71 d.val a.val sel.val p
  | .vnbrB32 d a sel p => encVA 0x72 d.val a.val sel.val p
  | .vbcastB32 d a b p => encVA 0x73 d.val a.val b.code p
  | .vredAddI32 d a p => encVA 0x74 d.val a.val 0 p
  | .vredAddF32 d a p => encVA 0x75 d.val a.val 0 p
  | .vredMaxF32 d a p => encVA 0x76 d.val a.val 0 p
  | .vredMinF32 d a p => encVA 0x77 d.val a.val 0 p
  | .vscanAddI32 d a p => encVA 0x78 d.val a.val 0 p
  | .vscanAddF32 d a p => encVA 0x79 d.val a.val 0 p
  | .vballot m a p => encVA 0x7A m.val a.code 0 p
  | .vrdlane d a b => encVA 0x7B d.val a.val b.code false
  | .ldN8 d sb vo sc x => encME 0x80 d.val sb.val vo.val sc.val x
  | .ldI8 d sb vo sc x => encME 0x81 d.val sb.val vo.val sc.val x
  | .ldN16 d sb vo sc x => encME 0x82 d.val sb.val vo.val sc.val x
  | .ldI16 d sb vo sc x => encME 0x83 d.val sb.val vo.val sc.val x
  | .ldB32 d sb vo sc x => encME 0x84 d.val sb.val vo.val sc.val x
  | .ldB64 d sb vo sc x => encME 0x85 d.val sb.val vo.val sc.val x
  | .ldB128 d sb vo sc x => encME 0x86 d.val sb.val vo.val sc.val x
  | .stB8 d sb vo sc x => encME 0x87 d.val sb.val vo.val sc.val x
  | .stB16 d sb vo sc x => encME 0x88 d.val sb.val vo.val sc.val x
  | .stB32 d sb vo sc x => encME 0x89 d.val sb.val vo.val sc.val x
  | .stB64 d sb vo sc x => encME 0x8A d.val sb.val vo.val sc.val x
  | .stB128 d sb vo sc x => encME 0x8B d.val sb.val vo.val sc.val x
  | .ldLane d vo wd x => encME 0x8C d.val 0 vo.val wd.val x
  | .stLane d vo wd x => encME 0x8D d.val 0 vo.val wd.val x
  | .ldSp d vo wd x => encME 0x8E d.val 0 vo.val wd.val x
  | .stSp d vo wd x => encME 0x8F d.val 0 vo.val wd.val x
  | .ldCm d vo wd x => encME 0x90 d.val 0 vo.val wd.val x
  | .stCm d vo wd x => encME 0x91 d.val 0 vo.val wd.val x
  | .ldCst d vo wd x => encME 0x92 d.val 0 vo.val wd.val x
  | .stCst d vo wd x => encME 0x93 d.val 0 vo.val wd.val x
  | .sldB32 d sb sc x => encME 0x94 d.val sb.val 0 sc.val x
  | .sstB32 d sb sc x => encME 0x95 d.val sb.val 0 sc.val x
  | .pf sb vo sc x => encME 0x96 0 sb.val vo.val sc.val x
  | .cinv sb vo x => encME 0x97 0 sb.val vo.val 0 x
  | .xprobe d sb x => encME 0x98 d.val sb.val 0 0 x
  | .xinfo d sb sel => encME 0x99 d.val sb.val 0 sel.val none
  | .hpin d sb => encME 0x9A d.val sb.val 0 0 none
  | .hdemote d sb => encME 0x9B d.val sb.val 0 0 none
  | .hprio d sb sel => encME 0x9C d.val sb.val 0 sel.val none
  | .hunpin d sb => encME 0x9D d.val sb.val 0 0 none
  | .atomAddI32 d sb vo sc x => encME 0xA0 d.val sb.val vo.val sc.val x
  | .atomAddF32 d sb vo sc x => encME 0xA1 d.val sb.val vo.val sc.val x
  | .atomMinI32 d sb vo sc x => encME 0xA2 d.val sb.val vo.val sc.val x
  | .atomMaxI32 d sb vo sc x => encME 0xA3 d.val sb.val vo.val sc.val x
  | .atomMinN32 d sb vo sc x => encME 0xA4 d.val sb.val vo.val sc.val x
  | .atomMaxN32 d sb vo sc x => encME 0xA5 d.val sb.val vo.val sc.val x
  | .atomAndB32 d sb vo sc x => encME 0xA6 d.val sb.val vo.val sc.val x
  | .atomOrB32 d sb vo sc x => encME 0xA7 d.val sb.val vo.val sc.val x
  | .atomXchgB32 d sb vo sc x => encME 0xA8 d.val sb.val vo.val sc.val x
  | .atomCasB32 d sb vo sc x => encME 0xA9 d.val sb.val vo.val sc.val x
  | .atomAddI64 d sb vo sc x => encME 0xAA d.val sb.val vo.val sc.val x
  | .atomXchgB64 d sb vo sc x => encME 0xAB d.val sb.val vo.val sc.val x
  | .atomCasB64 d sb vo sc x => encME 0xAC d.val sb.val vo.val sc.val x
  | .atomCasB128 d sb vo sc x => encME 0xAD d.val sb.val vo.val sc.val x
  | .bredAddF32 d sb vo sc x => encME 0xAE d.val sb.val vo.val sc.val x
  | .ldBnd d sb vo sc x => encME 0xAF d.val sb.val vo.val sc.val x
  | .barInit sb sv d sc => encEN 0xB0 sb.val sv.val (d.val * 64 + sc.val * 8)
  | .barArrive sb sv d => encEN 0xB1 sb.val sv.val (d.val * 64)
  | .barExpect sb sv d => encEN 0xB2 sb.val sv.val (d.val * 64)
  | .barWait sb sv d => encEN 0xB3 sb.val sv.val (d.val * 64)
  | .barTest sb sv d => encEN 0xB4 sb.val sv.val (d.val * 64)
  | .barDrop sb d => encEN 0xB5 sb.val 0 (d.val * 64)
  | .wait ld st cp tl rm sc => encWT 0xB6 ld.val st.val cp.val tl.val rm.val sc.val
  | .bdrain sc => encWT 0xB7 0 0 0 0 0 sc.val
  | .rldB32 d sb vp sc x => encME 0xB8 d.val sb.val vp.val sc.val x
  | .rldB64 d sb vp sc x => encME 0xB9 d.val sb.val vp.val sc.val x
  | .rldB128 d sb vp sc x => encME 0xBA d.val sb.val vp.val sc.val x
  | .rstB32 d sb vp sc x => encME 0xBB d.val sb.val vp.val sc.val x
  | .rstB64 d sb vp sc x => encME 0xBC d.val sb.val vp.val sc.val x
  | .ratom d sb vp sc x => encME 0xBD d.val sb.val vp.val sc.val x
  | .rred d sb vp sc x => encME 0xBE d.val sb.val vp.val sc.val x
  | .rmcast d sb vp sc x => encME 0xBF d.val sb.val vp.val sc.val x
  | .mmaE4m3 t sa sw sk pr => encMX 0xC0 t.val sa.val sw.val sk.val (bit pr) 0
  | .mmaE5m2 t sa sw sk pr => encMX 0xC1 t.val sa.val sw.val sk.val (bit pr) 0
  | .mmaBf16 t sa sw sk pr => encMX 0xC2 t.val sa.val sw.val sk.val (bit pr) 0
  | .mmaF16 t sa sw sk pr => encMX 0xC3 t.val sa.val sw.val sk.val (bit pr) 0
  | .mmaLog6 t sa sw sk pr => encMX 0xC4 t.val sa.val sw.val sk.val (bit pr) 0
  | .wbldDense sa sw sk => encMX 0xC5 0 sa.val sw.val sk.val 0 0
  | .wbldSp24 sa sw sk => encMX 0xC6 0 sa.val sw.val sk.val 0 0
  | .wbldCb4 sa sw sk => encMX 0xC7 0 sa.val sw.val sk.val 0 0
  | .tzero t => encMX 0xC8 t.val 0 0 0 0 0
  | .tmov t sa => encMX 0xC9 t.val sa.val 0 0 0 0
  | .tst t sa sk => encMX 0xCA t.val sa.val 0 sk.val 0 0
  | .tadd td ts => encMX 0xCB td.val 0 0 0 0 ts.val
  | .tld t sa sk => encMX 0xCC t.val sa.val 0 sk.val 0 0
  | .cpStart cb tk => encEN 0xD0 cb.val tk.val 0
  | .cpRect cb tk => encEN 0xD1 cb.val tk.val 0
  | .cpFill cb tk => encEN 0xD2 cb.val tk.val 0
  | .cpTier cb tk => encEN 0xD3 cb.val tk.val 0
  | .xgStart cb tk => encEN 0xD4 cb.val tk.val 0
  | .xgCancel cb tk d => encEN 0xD5 cb.val tk.val (d.val * 64)
  | .tokTest tk d => encEN 0xD6 0 tk.val (d.val * 64)
  | .cpCancel tk d => encEN 0xD7 0 tk.val (d.val * 64)
  | .xgQuery tk d sel => encEN 0xD8 0 tk.val (d.val * 64 + sel.val * 8)
  | .cpBcast cb tk => encEN 0xD9 cb.val tk.val 0
  | .trap imm => encSY 0xE0 0 0 imm.val
  | .brkpt imm => encSY 0xE1 0 0 imm.val
  | .rdsr d sel => encSY 0xE2 d.val sel.val 0
  | .wrsr d sel => encSY 0xE3 d.val sel.val 0
  | .fret mode => encSY 0xE4 0 0 mode.val
  | .fkill unit => encSY 0xE5 0 0 unit.val
  | .frd d item lane idx => encSY 0xE6 d.val (item.val * 32 + lane.val) idx.val
  | .pclr d r => encSY 0xE7 d.val 0 r.val
  | .wfetch sg st => encSY 0xE8 sg.val st.val 0
  | .hbeat => encSY 0xE9 0 0 0
  | .rgclaim d n => encSY 0xEA d.val 0 n.val
  | .rgrel d n => encSY 0xEB d.val 0 n.val
  | .wdone sg st => encSY 0xEC sg.val st.val 0
  | .wcond d idx => encSY 0xED d.val 0 idx.val
  | .wlaunch sg st => encSY 0xEE sg.val st.val 0
  | .wyield d => encSY 0xEF d.val 0 0
  | .clauseGrant _ _ => 0
  | .rankAging _ _ => 0
  | .impreciseFault _ _ _ _ _ _ => 0
  | .ringFull _ => 0
  | .handlerStart _ => 0
  | .loadComplete _ => 0
  | .storeComplete _ => 0
  | .writeThroughApply _ _ => 0
  | .ecbWalk _ _ _ => 0
  | .portTranslate _ => 0
  | .rowRemapReloadDone _ _ _ => 0
  | .cxlMemRequest _ _ _ => 0
  | .bar2Request _ _ _ _ => 0
  | .slideStart _ _ => 0
  | .portSlideBegin _ _ _ => 0
  | .slideOpen _ _ => 0
  | .portOpen _ _ _ => 0
  | .portOpenAck _ _ _ => 0
  | .slideCopy _ _ => 0
  | .slideAdvance _ _ => 0
  | .portAdvance _ _ _ => 0
  | .slideClose _ _ => 0
  | .portClose _ _ _ => 0
  | .slideCommit _ _ => 0
  | .portCommit _ _ _ => 0
  | .slideAckTimeout _ _ => 0
  | .residencyDemote _ _ => 0
  | .residencyPromote _ _ => 0
  | .retireAccessesDrained _ _ => 0
  | .arrivalCounted _ _ => 0
  | .blockedWordResume _ _ _ => 0
  | .ownershipRequest _ _ => 0
  | .recallLine _ => 0
  | .lineSurrender _ => 0
  | .directoryMerge _ _ _ => 0
  | .l1Eviction _ _ => 0
  | .cxlCacheResponse _ _ => 0
  | .snpdata _ => 0
  | .snpinv _ => 0
  | .atomicopCompletion _ _ _ => 0
  | .shareReq _ => 0
  | .grant _ => 0
  | .add _ => 0
  | .drain _ => 0
  | .fdrain _ => 0
  | .bload _ => 0
  | .bvalue _ => 0
  | .copyPiece _ _ => 0
  | .copyComplete _ => 0
  | .exchangeRunEmit _ => 0
  | .exchangeRun _ => 0
  | .runAcknowledgment _ => 0
  | .runResend _ _ => 0
  | .exchangeEnd _ => 0
  | .exchangePartComplete _ => 0
  | .xgCancelComplete _ => 0
  | .matrixComplete _ => 0
  | .remoteReplay _ _ => 0
  | .remoteRequest _ => 0
  | .remoteReply _ => 0
  | .remoteAcknowledgment _ => 0
  | .refusal _ => 0
  | .responseTimeout _ _ => 0
  | .postedTimeout _ => 0
  | .flitReceive _ _ => 0
  | .replayRequest _ => 0
  | .heartbeat _ => 0
  | .linkRetrain _ _ => 0
  | .linkIdleTimeout _ => 0
  | .linkDown _ => 0
  | .idleFlit _ => 0
  | .throttleProposal _ _ _ _ => 0
  | .energyWindow _ => 0
  | .doorbell _ _ _ => 0
  | .queueTake _ => 0
  | .priorityAging _ => 0
  | .taskDue _ => 0
  | .dispatchDecision _ => 0
  | .warpFree _ _ _ => 0
  | .taskRetire _ => 0
  | .preemptionStarvation _ => 0
  | .saveComplete _ => 0
  | .rldSaveTimeout _ => 0
  | .watchdogExpire _ => 0
  | .claimGrant _ => 0
  | .wyieldRelease _ => 0
  | .wfetchFill _ => 0
  | .auditReplay _ _ => 0
  | .auditReplayEnd _ => 0
  | .scrubRead _ => 0
  | .scrubWrite _ => 0
  | .powerDownEntry _ _ => 0
  | .selfRefreshEntry _ _ => 0
  | .hbmThermalBand _ _ => 0
  | .inletOvertemp _ _ => 0
  | .hostPortDown _ => 0
  | .cxlPortWaitTimeout _ => 0
  | .reset => 0
  | .bootStep _ => 0
  | .bar0Write _ _ _ => 0
  | .extentCreate => 0
  | .extentRetire => 0
  | .hostWindowWrite => 0
  | .rcbWrite => 0
  | .membershipTableEntry => 0
  | .groupTableEntry => 0
  | .faultFrameAnswer => 0
  | .preemptionRequest => 0
  | .regionKill => 0
  | .attestationQuote => 0
  | .acceptWork => 0
  | .demotionPool => 0
  | .pinQuota => 0
  | .auditSetting => 0
  | .physicalCopy => 0
  | .unknownCommand => 0
  | .hostPortUp _ => 0
  | .channelExit _ _ => 0

/-- The words of an instruction: its word, then its literal if it has one; an event has none (02_encoding.md R32, R35). -/
def encode (i : Instr) : List Word :=
  if i.isWord then BitVec.ofNat 32 i.head :: i.literal?.toList else []

/-- The instruction the decoder reads from bits numbered as spec/opcode_table.json numbers them: the instruction word is
bits 31..0, its literal bits 63..32, and every bit from nbits on is 0. The words are laid out as the hardware stores
them, little-endian words in ascending address (00_scope.md R2), and given to the decoder. -/
def decodeTableWord (nbits w : Nat) : Option Instr :=
  let v := w % 2 ^ nbits
  match decode [BitVec.ofNat 32 v, BitVec.ofNat 32 (v / 2 ^ 32)] with
  | .ok (i, _) => some i
  | .error _ => none

end Sys2Proof
end

