-- ==== Sys2Proof/Machine/Issue.lean ====
section
/-! DEFINITION. Clauses: header fields (02_encoding.md R23, R24), eligibility and the arbiter's choice (05_control.md R111 to
R115), the fetch of a clause (02_encoding.md R22) and the words that may stand where (R26, R27). -/
namespace Sys2Proof.Machine

/-! ### The header -/

def hdrCL (h : Word) : Nat := bitsOf h.toNat 25 3
def hdrWL (h : Word) : Nat := bitsOf h.toNat 20 5
def hdrWS (h : Word) : Nat := bitsOf h.toNat 15 5
def hdrWC (h : Word) : Nat := bitsOf h.toNat 12 3
def hdrWT (h : Word) : Nat := bitsOf h.toNat 9 3
def hdrWR (h : Word) : Nat := bitsOf h.toNat 6 3

/-- Whether a header's fields are legal (02_encoding.md R24). -/
def hdrOk (h : Word) : Bool :=
  hdrN h != 0 && hdrCL h != 7 && bitsOf h.toNat 4 1 == 0 && bitsOf h.toNat 0 4 == 0xA

/-- Whether a count is at or below a wait value, or the value names no wait (02_encoding.md R23). -/
def waitMet (count value none' : Nat) : Bool := value == none' || decide (count ≤ value)

/-- Whether a warp's counters meet a header's waits (02_encoding.md R25). -/
def hdrMet (w : Warp) (h : Word) : Bool :=
  waitMet w.ld (hdrWL h) 31 && waitMet w.st (hdrWS h) 31 && waitMet w.cp (hdrWC h) 7 && waitMet w.tl (hdrWT h) 7 &&
  waitMet w.rm (hdrWR h) 7

/-- The counter an opcode counts on and its capacity: 0 ld, 1 st, 2 cp, 3 tl, 4 rm (02_encoding.md R30). -/
def counterOf (op : Nat) : Option Nat :=
  if op ≤ 0x86 ∧ 0x80 ≤ op ∨ op = 0x8C ∨ op = 0x8E ∨ op = 0x90 ∨ op = 0x92 ∨ op = 0x94 ∨ (0xA0 ≤ op ∧ op ≤ 0xAD) ∨ op = 0xAF then
    some 0
  else if (0x87 ≤ op ∧ op ≤ 0x8B) ∨ op = 0x8D ∨ op = 0x8F ∨ op = 0x91 ∨ op = 0x93 ∨ op = 0x95 ∨ op = 0xAE then some 1
  else if (0xD0 ≤ op ∧ op ≤ 0xD4) ∨ op = 0xD9 then some 2
  else if 0xC0 ≤ op ∧ op ≤ 0xCC then some 3
  else if 0xB8 ≤ op ∧ op ≤ 0xBF then some 4
  else none

def counterCap (c : Nat) : Nat := if c ≤ 1 then 30 else 6

/-- The major opcodes of a clause's instruction words, literal words skipped (02_encoding.md R35). -/
def clauseOps : List Word → List Nat
  | [] => []
  | [w] => [bitsOf w.toNat 24 8]
  | w :: x :: r => bitsOf w.toNat 24 8 :: (if wordLen w = 2 then clauseOps r else clauseOps (x :: r))

/-- Whether a clause holds no more instructions on a counter than its capacity (02_encoding.md R24). -/
def capacityOk (words : List Word) : Bool :=
  let ops := clauseOps words
  (List.range 5).all (fun c => decide ((ops.filter (fun o => counterOf o == some c)).length ≤ counterCap c))

/-- Whether a clause is co-issuable (05_control.md R114). -/
def coIssuable (h : Word) (words : List Word) : Bool :=
  hdrCL h == 0 && (clauseOps words).all (fun o =>
    !(decide (o ≤ 0x0F) || o == 0x17 || (decide (0x1A ≤ o) && decide (o ≤ 0x1F)) || (decide (0x5C ≤ o) && decide (o ≤ 0x5E)) ||
      (decide (0x70 ≤ o) && decide (o ≤ 0x7B))))

/-! ### Fetch -/

/-- What the fetch of a clause at an address finds (02_encoding.md R22, R24). -/
inductive Fetched
  | ok (hdr : Word) (words : List Word)
  | fault (f : FaultInfo)
  | corrupt
  | error          -- a sector returns an uncorrectable error: the clause is not fetched (log entry 29)
  | held           -- a byte waits at its port, its channel, its host port or its owner
  deriving DecidableEq, Repr

/-- Whether a core's instruction cache holds a code byte. -/
def codeCached (s : State) (core : Nat) (d : Desc) (a : Nat) : Bool := (mfind (s.core core).icache (byteKey d.ent.ctx a)).isSome

/-- What the fetch of a code byte waits for: a byte that the instruction cache holds waits for nothing. -/
def codeHold (s : State) (core : Nat) (d : Desc) (a : Nat) : Hold :=
  if codeCached s core d a then .none else byteHold s (entryPort (coreCluster core) a) d a false

/-- A code byte as a core fetches it. The spec does not say whether the instruction cache of R14 follows a write of code: where the cached
byte and the home's differ, a free value says which of them is read, and a home byte that waits is not (DESIGN CHOICE, log entry 88). -/
def codeByte (s : State) (core : Nat) (d : Desc) (a : Nat) : Byte × Bool :=
  let home := if byteDead s d a false then (0, true) else homeByte s d a
  match mfind (s.core core).icache (byteKey d.ent.ctx a) with
  | some b =>
    if byteHold s (entryPort (coreCluster core) a) d a false != .none ||
        ((home.2 || b != home.1) && Config.freeNat (s.free + a / 32 % 4) % 2 == 1) then (b, false) else home
  | none => home

/-- Code bytes, checked for x permission to the byte (02_encoding.md R22); a place with no memory is corruption (09_extents.md R179). -/
def fetchBytes (s : State) (core ctx va n : Nat) : Except Fetched (List Byte) :=
  match devCheck s ctx va n permX with
  | .ok e =>
    match canonDesc s ctx (canonical e va) with
    | .found d =>
      let holds := (List.range n).map (fun i => codeHold s core d (canonical e va + i))
      let l := (List.range n).map (fun i => codeByte s core d (canonical e va + i))
      if holds.contains .absent then .error .corrupt
      else if holds.any (· != .none) then .error .held
      else if l.any Prod.snd then .error .error else .ok (l.map Prod.fst)
    | .corrupt => .error .corrupt
    | .none => .error .error
  | .limit sva xid => .error (.fault { cls := clsLimit, sva := sva, space := 1, xid := xid })
  | .perm miss sva xid => .error (.fault { cls := clsPerm, sva := sva, space := 1, xid := some xid, detail := miss })
  | .corrupt => .error .corrupt

/-- Words of code, four bytes at a time, stopping at the first that fails. -/
def fetchWords (s : State) (core ctx : Nat) : Nat → Nat → Except Fetched (List Word)
  | _, 0 => .ok []
  | va, n + 1 =>
    match fetchBytes s core ctx va 4 with
    | .error e => .error e
    | .ok bs =>
      match fetchWords s core ctx (va + 4) n with
      | .error e => .error e
      | .ok r => .ok (BitVec.ofNat 32 (leNat bs) :: r)

/-! ### Place relocations (03_assembly.md R65, R66) -/

/-- A coefficient of a place expression: 01 is +1, 11 is −1, and 10 is rejected. -/
def placeCoef (c : Nat) : Int := if c = 1 then 1 else if c = 3 then -1 else 0

/-- The value of a place expression for a group of shape w × h. -/
def placeValue (a w h : Nat) : Int :=
  placeCoef (bitsOf a 8 2) * (w / 2 ^ bitsOf a 10 2 : Nat) + placeCoef (bitsOf a 12 2) * (h / 2 ^ bitsOf a 14 2 : Nat) + sfield a 0 8

/-- Whether a place expression is one that the loader takes (03_assembly.md R66). -/
def PlaceReloc.ok (r : PlaceReloc) : Bool := r.addend < 2 ^ 16 && bitsOf r.addend 8 2 != 2 && bitsOf r.addend 12 2 != 2

/-- Whether a place relocation's value is in the range of R43 for a group of shape w × h. -/
def PlaceReloc.fits (r : PlaceReloc) (w h : Nat) : Bool :=
  let v := placeValue r.addend w h
  let m : Int := if r.dy then 11 else 15
  decide (-m ≤ v) && decide (v ≤ m)

/-- A literal word with the field of a place relocation written in two's complement. -/
def PlaceReloc.patch (r : PlaceReloc) (w h : Nat) (x : Word) : Word :=
  let lo := if r.dy then 22 else 27
  let v := ((placeValue r.addend w h) % 32).toNat
  BitVec.ofNat 32 (x.toNat - bitsOf x.toNat lo 5 * 2 ^ lo + v * 2 ^ lo)

/-- The place relocations of the kernels of a context. -/
def placeRelocs (s : State) (ctx : Nat) : List PlaceReloc := ((s.work.kernels.filter (fun k => k.ctx == ctx)).map LoadedKernel.relocs).flatten

/-- The code that a block runs: the loader's copy for the shape of its group (03_assembly.md R66). -/
def placeWords (rs : List PlaceReloc) (w h : Nat) : Nat → List Word → List Word
  | _, [] => []
  | va, x :: l => (rs.filter (fun r => r.va == va)).foldl (fun x r => r.patch w h x) x :: placeWords rs w h (va + 4) l

/-- The shape of a block's group. -/
def blockShape (s : State) (blk : Nat) : Nat × Nat :=
  match mfind s.work.groups (s.blk blk).grp with | some g => (g.w, g.h) | none => (1, 1)

/-- The fetch and decoding of the clause header and the words of a warp at an address (02_encoding.md R22, R24). -/
def fetchClause (s : State) (core wslot pc : Nat) : Fetched :=
  let ctx := (s.warp core wslot).ctx
  match fetchWords s core ctx pc 1 with
  | .error e => e
  | .ok hs =>
    let h := hs.getD 0 0
    let bad := Fetched.fault { cls := clsIllegalClause, detail := h.toNat }
    if !hdrOk h then bad
    else
      match fetchWords s core ctx (pc + 4) (hdrN h) with
      | .error e => e
      | .ok ws =>
        let shape := blockShape s (s.warp core wslot).blk
        if capacityOk ws then .ok h (placeWords (placeRelocs s ctx) shape.1 shape.2 (pc + 4) ws) else bad

/-- Whether a fetch of some code bytes read from a cached byte that differs from home: its free values are taken. -/
def fetchStale (s : State) (core ctx pc n : Nat) : Bool :=
  (List.range n).any (fun i =>
    match walk s ctx (pc + i) with
    | .found d =>
      let a := canonical d.ent (pc + i)
      match mfind (s.core core).icache (byteKey ctx a), canonDesc s ctx a with
      | some b, .found c => homeByte s c a != (b, false)
      | _, _ => false
    | _ => false)

/-- The instruction cache holds 32 KiB: sectors of freely chosen bytes leave it (log entry 88). -/
def trimCode (m : SMap Byte) (f : Nat) : Nat → SMap Byte
  | 0 => []
  | k + 1 =>
    if m.length ≤ Config.icacheBytes then m
    else
      let x := ((mkeys m).getD (Config.freeNat (f + k) % m.length) 0) / 32
      trimCode (m.filter (fun p => p.1 / 32 != x)) f k

/-- Where a byte of code lies, if it is not in a core's instruction cache. -/
def codePlace (s : State) (core ctx va : Nat) : Option (Desc × Nat) :=
  (devPlace s ctx va 1 permX).filter (fun p => !codeCached s core p.1 p.2)

/-- Code bytes that the instruction cache lacks are read as any access reads them: an owner is recalled, the extent counts as accessed, its
channel wakes (07_memory.md R150, 12_atomics.md R233, 23_platform.md R407). -/
def useCode (s : State) (core ctx pc n : Nat) : State :=
  (List.range n).foldl (fun s i =>
    match codePlace s core ctx (pc + i) with
    | some (d, a) => if i = 0 ∨ a % 32 = 0 ∨ (codePlace s core ctx (pc + i - 1)).isNone then useByte s d a false else s
    | none => s) s

/-- Bytes that the fetch of the clause at an address reads: the header's, and the words' once the header can be read. -/
def fetchSpan (s : State) (core ctx pc : Nat) : Nat :=
  match fetchWords s core ctx pc 1 with
  | .ok hs => 4 * (hdrN (hs.getD 0 0) + 1)
  | .error _ => 4

/-- A fetch that waits, or that has met an uncorrectable error: its channel is woken, its host-coherent line asked for, its error noted
(11_traps.md R221, R223, 23_platform.md R407, log entry 29). -/
def fetchStuck (s : State) (core ctx pc : Nat) : State :=
  (List.range (fetchSpan s core ctx pc)).foldl (fun s i =>
    match codePlace s core ctx (pc + i) with
    | some (d, a) =>
      match byteWait s (entryPort (coreCluster core) a) d a false with
      | some s' => s'
      | none => if byteDead s d a false || (homeByte s d a).2 then noteByte s d a else s
    | none => s) s

/-- The instruction cache takes n bytes of a clause that has been fetched (01_machine.md R14, log entry 88). -/
def keepCode (s : State) (core ctx pc n : Nat) : State :=
  let put (m : SMap Byte) (i : Nat) : SMap Byte :=
    match walk s ctx (pc + i) with
    | .found d =>
      let a := canonical d.ent (pc + i)
      (match canonDesc s ctx a with
      | .found c => mput m (byteKey ctx a) (codeByte s core c a).1
      | _ => m)
    | _ => m
  let s' := (useCode s core ctx pc n).updCore core (fun k => { k with icache := trimCode ((List.range n).foldl put k.icache) s.free 64 })
  if fetchStale s core ctx pc n then { s' with free := s.free + 64 } else s'

/-- Whether a fetched clause may be granted: its waits are met, or it faults (02_encoding.md R24, R25). -/
def Fetched.eligible (f : Fetched) (w : Warp) : Bool :=
  match f with
  | .ok h _ => hdrMet w h
  | .fault _ => true
  | .corrupt => true
  | .error | .held => false

/-! ### The arbiter -/

/-- A group whose warps are stopped between clauses for a save (21_work.md R370, R372). -/
def groupHeld (s : State) (blk : Nat) : Bool :=
  match mfind s.work.groups (s.blk blk).grp with
  | some g => match g.pre with
    | some p => p.way != 0 && p.way != 4
    | none => false
  | none => false

/-- Whether a warp slot holds a warp that may be granted clauses. -/
def mayIssue (s : State) (core wslot : Nat) : Bool :=
  let w := s.warp core wslot
  w.present && !w.killed && w.live != 0 && !groupHeld s w.blk

/-- Whether an issue slot of a core holds a clause of a split, as its own or for it as a partner: such a split has been granted. -/
def granted (s : State) (core wslot split : Nat) : Bool :=
  [(s.core core).slot0, (s.core core).slot1].any (fun o => match o with
    | some r => (r.wslot == wslot && r.split == split) || r.partner == some (wslot, split)
    | none => false)

/-- Whether a split's clause is fetched, eligible and not granted (02_encoding.md R25, 05_control.md R111). -/
def splitEligible (s : State) (core wslot split : Nat) : Bool :=
  let w := s.warp core wslot
  (w.split split).state == 1 && !granted s core wslot split && (fetchClause s core wslot (w.split split).pc).eligible w

/-- The candidate split of a warp (05_control.md R111). -/
def candidate (s : State) (core wslot : Nat) : Option Nat :=
  if mayIssue s core wslot then
    ((List.range 8).map (fun k => ((s.warp core wslot).rr + 1 + k) % 8)).find? (splitEligible s core wslot)
  else none

/-- The warp slots that an issue slot of a core serves now: its 16 warps, or only the handler context while the core is
stopped; the handler of a frame that stops no core runs beside them (22_prog_rolesplit.md R387, 11_traps.md R218). -/
def slotWarps (s : State) (core slot : Nat) : List Nat :=
  if (s.core core).stopped then
    (if slot = 0 ∧ (s.core core).handling.isSome ∧ !(s.core core).hfault then [32] else [])
  else
    (List.range 16).map (fun k => 16 * slot + k) ++
      (if slot = 0 ∧ (s.core core).handling.isSome ∧ !(s.core core).hfault then [32] else [])

/-- Whether party a goes before party b in a decision, each a warp slot and a split (05_control.md R112): higher rank, then longer
eligible, then the lower warp slot. -/
def goesFirst (s : State) (core : Nat) (a b : Nat × Nat) : Bool :=
  let x := s.warp core a.1
  let y := s.warp core b.1
  let ex := mget x.eligible 0 a.2
  let ey := mget y.eligible 0 b.2
  decide (y.rank < x.rank) || (x.rank == y.rank && (decide (ey < ex) || (ex == ey && decide (a.1 ≤ b.1))))

/-- The candidates of an issue slot, in the order of 05_control.md R112: each list is ordered by insertion. -/
def insertBy (s : State) (core : Nat) (x : Nat × Nat) : List (Nat × Nat) → List (Nat × Nat)
  | [] => [x]
  | y :: r => if goesFirst s core x y then x :: y :: r else y :: insertBy s core x r

def candidates (s : State) (core slot : Nat) : List (Nat × Nat) :=
  ((slotWarps s core slot).filterMap (fun w => (candidate s core w).map (fun i => (w, i)))).foldr (insertBy s core) []

/-- The co-issue partner of a granted party, if any (05_control.md R114). A split that stands inside its clause is no partner, and takes none
(DESIGN CHOICE, log entry 98). -/
def partnerOf (s : State) (core wslot split : Nat) (h : Word) (words : List Word) (others : List (Nat × Nat)) :
    Option (Nat × Nat) :=
  let w := s.warp core wslot
  let sp := w.split split
  if !coIssuable h words || sp.word != 0 then none
  else
    let fits (e : Split) : Bool := e.state == 1 && e.pc == sp.pc && e.word == 0 && (e.mask &&& sp.mask) == 0
    match ((List.range 7).map (fun k => (split + 1 + k) % 8)).find? (fun i => fits (w.split i)) with
    | some i => some (wslot, i)
    | none =>
      others.find? (fun p => p.1 != wslot && (s.warp core p.1).blk == w.blk && fits ((s.warp core p.1).split p.2))

/-- Whether a wait with these values names counter c (07_memory.md R167): 0 ld, 1 st, 3 tl. -/
def namesCtr (ld st tl : Nat) (c : Nat) : Bool :=
  (c == 0 && ld != 31) || (c == 1 && st != 31) || (c == 3 && tl != 7)

/-- The deferred error that a passed wait raises, with the warp's list after it (07_memory.md R167). -/
def deferredRaise (w : Warp) (ld st tl : Nat) : Option (FaultInfo × Warp) :=
  match w.errs.find? (fun e => namesCtr ld st tl e.ctr) with
  | some e => some ({ cls := clsPoison, lanes := e.lanes, sva := e.sva, space := 1, detail := 0x80 },
      { w with errs := w.errs.erase e })
  | none =>
    if w.errs.isEmpty && w.errCount != 0 && (ld != 31 || st != 31 || tl != 7) then
      some ({ cls := clsPoison, detail := 0x81, aux := w.errCount }, { w with errCount := 0 })
    else none

/-- Where a fault of a header is: clause index 0 (02_encoding.md R24). -/
def headerSite (s : State) (core wslot split : Nat) (h : Word) : FaultSite :=
  let w := s.warp core wslot
  { core := core, wslot := wslot, warp := w.widx, blk := w.blk, split := split, pc := (w.split split).pc, cidx := 0,
    n := hdrN h, len := 0, ctx := w.ctx, imp := false }

/-- The split entries of a warp as two continuation records (05_control.md R109). -/
def splitRecords (w : Warp) : List Byte := ((List.range 8).map (fun i => splitBytes (w.split i))).flatten

/-- Whether every split entry in use waits in state 3 (05_control.md R108). -/
def Warp.stuck (w : Warp) : Bool :=
  let used := (List.range 8).filter (fun i => (w.split i).state != 0)
  !used.isEmpty && used.all (fun i => (w.split i).state == 3)

/-- rejoin-deadlock of cause 1: every split entry in use waits in state 3 (05_control.md R108). The frame names the
lowest-numbered one; its BR word is the last of its clause. -/
def deadlock1 (s : State) (core wslot : Nat) : State :=
  let w := s.warp core wslot
  if w.stuck then
    let used := (List.range 8).filter (fun i => (w.split i).state != 0)
    let i := used.headD 0
    let sp := w.split i
    faultAt s { headerSite s core wslot i 0 with cidx := sp.word, n := sp.word, len := 1 }
      { cls := clsRejoin, lanes := sp.mask, sva := 1, space := 7 } (splitRecords w)
  else s

/-- A grant's bookkeeping for a party (05_control.md R111, R112): a clause whose fetch or header faults counts as granted
(log entry 81). -/
def grantTo (s : State) (core wslot split : Nat) : State :=
  s.updWarp core wslot (fun w => { w with rr := split, age := 0, eligible := mset 0 w.eligible split 0 })

/-- A grant's bookkeeping for a co-issue partner: a split of the granted warp moves no pointer (05_control.md R114). -/
def grantPartner (s : State) (core wslot : Nat) (p : Nat × Nat) : State :=
  if p.1 = wslot then s.updWarp core wslot (fun w => { w with eligible := mset 0 w.eligible p.2 0 }) else grantTo s core p.1 p.2

/-- A fault of a header: its frame's clause index is 0 (02_encoding.md R24), and the split keeps its word index, so that a split stopped
inside the clause goes on there after a resume (05_control.md R116, log entry 82). -/
def headerFault (s : State) (core wslot split : Nat) (h : Word) (f : FaultInfo) : State :=
  faultAt s (headerSite s core wslot split h) { f with lanes := if f.lanes == 0 && f.detail != 0x81 then
    ((s.warp core wslot).split split).mask else f.lanes }

/-- The warp slot whose remote word holds an issue slot: it has replays still to issue (15_remote.md R288). -/
def remoteHolds (s : State) (core slot : Nat) : Option Nat :=
  if (s.core core).stopped then none
  else (s.fab.words.find? (fun p => p.2.core == core && p.2.wslot / 16 == slot && p.2.live && !p.2.todo.isEmpty)).map (fun p => p.2.wslot)

/-- A warp of an issue slot whose splits all wait in state 3: the last of the others has left (05_control.md R108). -/
def deadlocked (s : State) (core slot : Nat) : Option Nat :=
  (slotWarps s core slot).find? (fun w => mayIssue s core w && (s.warp core w).stuck)

/-- An issue slot with no candidate: the fetches that wait go on waiting, and errors that they have met are noted. -/
def fetchesStuck (s : State) (core slot : Nat) : State :=
  ((slotWarps s core slot).filter (mayIssue s core)).foldl (fun s w =>
    (List.range 8).foldl (fun s i =>
      if ((s.warp core w).split i).state == 1 && !granted s core w i then
        match fetchClause s core w ((s.warp core w).split i).pc with
        | .error | .held => fetchStuck s core (s.warp core w).ctx ((s.warp core w).split i).pc
        | _ => s
      else s) s) s

/-- The arbiter's decision in an issue slot that holds no clause (02_encoding.md R28, 05_control.md R108, R111 to R114). -/
def grantClause (s : State) (core slot : Nat) : State :=
  if s.plat.devErr || ((s.core core).slot slot).isSome || decide (2 ≤ slot) || (remoteHolds s core slot).isSome then s
  else
    match deadlocked s core slot, candidates s core slot with
    | some w, _ => deadlock1 s core w
    | none, [] => fetchesStuck s core slot
    | none, (ws, i) :: rest =>
      let w := s.warp core ws
      let s1 := grantTo s core ws i
      match fetchClause s core ws (w.split i).pc with
      | .error | .held => s
      | .corrupt => deviceError s
      | .fault f => headerFault s1 core ws i 0 f
      | .ok h words =>
        let s1 := keepCode s1 core w.ctx (w.split i).pc (4 * (words.length + 1))
        match deferredRaise w (hdrWL h) (hdrWS h) (hdrWT h) with
        | some (f, _) =>
          headerFault (s1.updWarp core ws (fun w => ((deferredRaise w (hdrWL h) (hdrWS h) (hdrWT h)).map Prod.snd).getD w))
            core ws i h f
        | none =>
          let p := partnerOf s core ws i h words rest
          let s2 := match p with
            | some q => grantPartner s1 core ws q
            | none => s1
          let run : Run := { wslot := ws, split := i, pc := (w.split i).pc, hdr := h, words := words, partner := p }
          s2.updCore core (fun k => k.setSlot slot (some run))

/-- The header waits of a co-issue partner that has taken the clause over: they are passed now, and may raise a deferred error of its warp
(05_control.md R114, R115, 07_memory.md R167). -/
def takeOver (s : State) : State :=
  let r := s.run
  let c := s.hcore
  let s := s.updCore c (fun k => k.setSlot s.focus.2 (some { r with late := false }))
  match deferredRaise s.hwarp (hdrWL r.hdr) (hdrWS r.hdr) (hdrWT r.hdr) with
  | some (f, w) => headerFault (s.updHere (fun _ => w)) c r.wslot r.split r.hdr f
  | none => s

/-- What an issue slot does in the stop cycle of its core: the clause of another warp issues one word, and the cycle is over when no slot
holds one, or when this one issues nothing (11_traps.md R213). -/
def closingSlot (s : State) (issue : State → Result) : Result :=
  let c := s.hcore
  match ((s.core c).slot s.focus.2).filter (fun r => r.wslot != 32) with
  | none => .next (closeStop s c)
  | some r =>
    let s := if r.late then takeOver s else s
    if !(s.core c).closing then .next s
    else
      match issue s with
      | .next t =>
        if !(t.core c).closing then .next t
        else
          let t := t.updCore c (fun k => k.setSlot s.focus.2 none)
          .next (if ((t.core c).slot (1 - s.focus.2)).any (fun x => x.wslot != 32 && x.wslot != r.wslot) then t else closeStop t c)
      | o => o

/-- Each 1,024 cycles of waiting raise a warp's rank by 1, up to 31 (05_control.md R112). -/
def ageRank (s : State) (core wslot : Nat) : State :=
  let w := s.warp core wslot
  if w.age < 1024 then s else s.setWarp core wslot { w with age := w.age - 1024, rank := min 31 (w.rank + 1) }

/-! ### The words of a clause -/

/-- The clause class that an opcode may stand in, none for any class (02_encoding.md R26). -/
def classOf (op : Nat) : Option Nat :=
  if op < 0x80 ∨ op = 0xB6 then none
  else if op < 0xB0 then some 1
  else if op < 0xB8 then some 6
  else if op < 0xC0 then some 4
  else if op < 0xD0 then some 2
  else if op < 0xE0 then some 3
  else some 5

/-- Opcodes that must be the last word of their clause (02_encoding.md R27, 10_sync.md R202, R207, 11_traps.md R228,
12_atomics.md R252). -/
def mustBeLast (op : Nat) : Bool :=
  (decide (0x10 ≤ op) && decide (op ≤ 0x19)) || op == 0xB3 || op == 0xB6 || op == 0xB7 || op == 0xE4 || op == 0xE5

/-- Opcodes that a handler context may not issue (11_traps.md R218). -/
def handlerBars (op : Nat) : Bool :=
  op == 0xEA || (decide (0xB8 ≤ op) && decide (op < 0xE0)) || op == 0xE8 || op == 0xEC || op == 0xED || op == 0xEE

/-- Whether an instruction may stand at a word of a clause: its class (02_encoding.md R26), its place (R27), and what the
handler context allows (11_traps.md R218). -/
def placeOk (h : Word) (op cidx len : Nat) (handler : Bool) : Bool :=
  (match classOf op with | none => true | some c => c == hdrCL h) &&
  (!mustBeLast op || cidx + len - 1 == hdrN h) && !(handler && handlerBars op)

/-- The instruction at the word that issues, with its literal from the clause (02_encoding.md R35), if the word is one that
may stand there. -/
def State.fetchInstr (s : State) : Option Instr :=
  match decode (s.run.words.drop (s.cidx - 1)) with
  | .error _ => none
  | .ok (i, _) =>
    if placeOk s.run.hdr (bitsOf s.word.toNat 24 8) s.cidx (if i.literal?.isSome then 2 else 1) s.inHandler then some i
    else none

/-! ### Time -/

/-- A warp's arbitration counts over some cycles: it waits while it has an eligible candidate that is not granted, and each split's clause
counts how long it has been eligible without a break (05_control.md R112). Cycles in which the core is stopped count too (DESIGN CHOICE, log
entry 98). -/
def tickWarp (s : State) (core wslot cycles : Nat) : State :=
  let cand := (candidate s core wslot).isSome
  let elig := (List.range 8).map (splitEligible s core wslot)
  s.updWarp core wslot (fun w => { w with
    age := if cand then w.age + cycles else w.age
    eligible := (elig.zipIdx).foldl (fun m p => mset 0 m p.2 (if p.1 then mget m 0 p.2 + cycles else 0)) w.eligible })

/-- Time passes: the stop cycles that have begun end (11_traps.md R213), the package time base goes on (01_machine.md R18), with it arbitration
counts and the stopped time of blocks, which counts toward no interval (11_traps.md R214, 21_work.md R372), and frames that wait are tried. -/
def tick (s : State) (ns cycles : Nat) : State :=
  let s := (mkeys s.cores).foldl (fun s c => if (s.core c).closing then closeStop s c else s) s
  let s := { s with plat := { s.plat with time := (s.plat.time + ns) % 2 ^ 64 } }
  let s := (mkeys s.warps).foldl (fun s k => tickWarp s (k / 33) (k % 33) cycles) s
  writeFrames { s with
    mem := { s.mem with dir := s.mem.dir.map (fun d => { d with last := d.last + cycles }) }
    work := { s.work with blocks := s.work.blocks.map (fun p =>
      if (s.core p.2.core).stopped || groupHeld s p.1 then (p.1, { p.2 with idle := p.2.idle + ns }) else p) } }

end Sys2Proof.Machine
end

