-- ==== Sys2Proof/Machine/MemOps.lean ====
section
/-! DEFINITION. What every memory instruction shares: addresses and checks (07_memory.md R145, R163), requests and their
completion (R155, R156, R164), the L1 and its write-through queue (R149), order within a warp (R168), releases and acquires
(12_atomics.md R241), deferred errors (07_memory.md R167). -/
namespace Sys2Proof.Machine

/-! ### Addresses -/

/-- The base of a global address: the pair sb:sb+1 (07_memory.md R145). -/
def State.sbase (s : State) (sb : SReg) : Nat := (s.hwarp.pair sb.val).toNat

/-- An address with a signed offset, modulo 2^64. -/
def addOff (a : Nat) (off : Int) : Nat := (((a : Int) + off) % 2 ^ 64).toNat

/-- Lane i's vector offset; code 0x7F names no register (07_memory.md R151). -/
def State.voff (s : State) (vo : VReg) (i : Nat) : Word := if vo.val = 127 then 0 else s.hwarp.v vo.val i

/-- The registers that an offset field names. -/
def voRegs (vo : VReg) : List Nat := if vo.val = 127 then [] else [vo.val]

/-- A displacement literal, 0 when there is none (07_memory.md R145). -/
def litDisp (x : Option Word) : Int := (x.getD 0).toInt

/-- Words of an instruction with an optional literal. -/
def litWords (x : Option Word) : Nat := if x.isSome then 2 else 1

/-- Lane i's global address (07_memory.md R145). -/
def State.gaddr (s : State) (sb : SReg) (vo : VReg) (disp : Int) (i : Nat) : Nat :=
  addOff (s.sbase sb) ((s.voff vo i).toInt + disp)

/-- Registers of a group of w bytes per lane (07_memory.md R152). -/
def groupRegs (vd w : Nat) : List Nat := (List.range (max 1 (w / 4))).map (vd + ·)

/-- The bytes of lane i's group as a number, the first register lowest (07_memory.md R152). -/
def Warp.group (w : Warp) (vd n i : Nat) : Nat :=
  ((groupRegs vd n).foldr (fun r a => (w.v r i).toNat + 2 ^ 32 * a) 0) % 2 ^ (8 * n)

/-- The mask of a list of lanes. -/
def lanesMask (l : List Nat) : Word := maskOf (fun i => l.contains i)

/-! ### Checks (07_memory.md R163) -/

/-- One lane's access: its lane and its address, or its offset in a level. -/
structure Acc where
  lane : Nat
  va : Nat
  deriving DecidableEq, Repr

/-- What the checks of an instruction find. -/
inductive Verdict
  | ok
  | fault (f : FaultInfo)
  | corrupt
  deriving DecidableEq, Repr

/-- The fault of the lowest failing lane, with every failing lane in its mask (07_memory.md R163); a scalar access names em
instead (R158). -/
def worstOf (all : Option Word) (fails : List (Nat × FaultInfo)) : Option FaultInfo :=
  match fails with
  | [] => none
  | (_, f) :: _ => some { f with
      lanes := all.getD (lanesMask (fails.map Prod.fst))
      detail := if f.cls == clsPerm then fails.foldl (fun a p => a ||| p.2.detail) 0 else f.detail }

/-- Whether an extent is a declared input of an armed auditable task: read-only until the task retires (11_traps.md R225). -/
def auditInput (s : State) (ctx xid : Nat) : Bool :=
  s.work.tasks.any (fun p => p.2.ctx == ctx && p.2.auditable && decide (p.2.st ≤ 2) && p.2.inputs.contains xid)

/-- The core's check of an access, with the inputs of auditable tasks read-only (07_memory.md R146, 11_traps.md R225). -/
def accCheck (s : State) (core ctx va n need : Nat) : Check :=
  match coreCheck s core ctx va n need with
  | .ok e => if need &&& permW != 0 && auditInput s ctx e.xid then .perm permW va e.xid else .ok e
  | c => c

/-- The first locked byte of an access, with the role of its interval and the table it is in (09_extents.md R190): a write
meets every interval, a read only destinations. -/
def lockHit (s : State) (core : Nat) (space : LockSpace) (lo n : Nat) (wr : Bool) : Option (Nat × Bool × Nat) :=
  let pick (ilt : Nat) (t : List Lock) : List (Nat × Bool × Nat) :=
    (t.filter (fun e => e.space == space && (wr || e.dst) && decide (lo < e.hi) && decide (e.lo < lo + n))).map
      (fun e => (max e.lo lo, e.dst, ilt))
  let l := pick 0 (s.core core).ilt ++ pick 1 (mget s.work.ilts [] (coreCluster core))
  l.foldl (fun best x => match best with
    | none => some x
    | some b => if x.1 < b.1 then some x else some b) none

/-- An interval-lock fault, if the access is locked. -/
def lockFault (s : State) (core : Nat) (space : LockSpace) (code lo va n : Nat) (xid : Option Nat) (wr : Bool) : Option FaultInfo :=
  (lockHit s core space lo n wr).map (fun h =>
    { cls := clsLock, sva := va + (h.1 - lo), space := code, xid := xid, detail := h.2.1.toNat, aux := h.2.2 })

/-- The poison-consumed fault of an access: a visited lane of its offset or data registers is poisoned (07_memory.md R163, check 5). The
frame names the first of these registers that is poisoned, the offset's before the data's, with the poisoned lanes of all; no byte is at
fault, so that space, sector VA and extent are 0 (DESIGN CHOICE, log entry 24). -/
def regsFault (w : Warp) (acc : List Acc) (reads : List Nat) : Option FaultInfo :=
  let lanes := lanesMask (acc.map Acc.lane)
  match reads.find? (fun r => w.poisoned r &&& lanes != 0) with
  | some r => some { cls := clsPoison, lanes := reads.foldl (fun a r => a ||| (w.poisoned r &&& lanes)) 0, detail := r }
  | none => none

/-- The checks of a global access in the order of 07_memory.md R163. -/
def globalVerdict (s : State) (core ctx : Nat) (w : Warp) (acc : List Acc) (n need : Nat) (reads : List Nat) (all : Option Word) :
    Verdict :=
  let xidOf (va : Nat) : Option Nat := match coreCheck s core ctx va 1 0 with | .ok e => some e.xid | _ => none
  match worstOf all (acc.filterMap (fun a =>
      if a.va % n ≠ 0 then some (a.lane, { cls := clsMisaligned, sva := a.va, space := 1, xid := xidOf a.va, detail := n }) else none)) with
  | some f => .fault f
  | none =>
    let chk := acc.map (fun a => (a, accCheck s core ctx a.va n need))
    if chk.any (fun p => p.2 == .corrupt) then .corrupt
    else
      match worstOf all (chk.filterMap (fun p => match p.2 with
          | .limit sva xid => some (p.1.lane, { cls := clsLimit, sva := sva, space := 1, xid := xid })
          | _ => none)) with
      | some f => .fault f
      | none =>
        match worstOf all (chk.filterMap (fun p => match p.2 with
            | .perm miss sva xid => some (p.1.lane, { cls := clsPerm, sva := sva, space := 1, xid := some xid, detail := miss })
            | _ => none)) with
        | some f => .fault f
        | none =>
          match worstOf all (chk.filterMap (fun p => match p.2 with
              | .ok e => (lockFault s core (.global ctx) 1 (canonical e p.1.va) p.1.va n (some e.xid) (need &&& permW != 0)).map
                  (fun f => (p.1.lane, f))
              | _ => none)) with
          | some f => .fault f
          | none =>
            match regsFault w acc reads with
            | some f => .fault f
            | none => .ok

/-- A target of a local-level access: its place, the bytes that may be reached there, and the code of its space in a frame
(07_memory.md R140, 11_traps.md R215). -/
structure Level where
  space : Space
  base : Nat
  bound : Nat
  code : Nat
  aux : Nat
  deriving DecidableEq, Repr

/-- The checks of a local-level access; `none` is a target that holds no byte (07_memory.md R140, R163). -/
def localVerdict (s : State) (core : Nat) (w : Warp) (acc : List Acc) (n : Nat) (wr : Bool) (lv : Level) (lock : Option LockSpace)
    (reads : List Nat) : Verdict :=
  match worstOf none (acc.filterMap (fun a =>
      if a.va % n ≠ 0 then some (a.lane, { cls := clsMisaligned, sva := a.va, space := lv.code, detail := n }) else none)) with
  | some f => .fault f
  | none =>
    match worstOf none (acc.filterMap (fun a =>
        if lv.bound < a.va + n then
          some (a.lane, { cls := clsLimit, sva := max a.va lv.bound, space := lv.code, aux := lv.aux })
        else none)) with
    | some f => .fault f
    | none =>
      match worstOf none (acc.filterMap (fun a => match lock with
          | some sp => (lockFault s core sp (if lv.code == 5 then 5 else 3) (lv.base + a.va) a.va n none wr).map (fun f => (a.lane, f))
          | none => none)) with
      | some f => .fault f
      | none =>
        match regsFault w acc reads with
        | some f => .fault f
        | none => .ok

/-! ### Counters and requests -/

def Warp.addLd (w : Warp) (n : Nat) : Warp := { w with ld := w.ld + n }
def Warp.addSt (w : Warp) (n : Nat) : Warp := { w with st := w.st + n }

/-- A request counts on ld or on st (02_encoding.md R30). -/
def ReqKind.onSt : ReqKind → Bool
  | .store | .sstore | .bred => true
  | _ => false

/-- The scale reads of a `vscvt` are counted on no counter (06_vector.md R134). -/
def ReqKind.isScale : ReqKind → Bool
  | .scale _ _ _ => true
  | _ => false

/-- The counter of a request rises at its warp. -/
def raiseCounter (s : State) (r : Req) : State :=
  if r.kind.isScale then s
  else s.updWarp r.core r.wslot (fun w => if r.kind.onSt then w.addSt 1 else w.addLd 1)

/-- The counter of a request falls at its warp. -/
def lowerCounter (s : State) (r : Req) : State :=
  if r.kind.isScale then s
  else s.updWarp r.core r.wslot (fun w => if r.kind.onSt then { w with st := w.st - 1 } else { w with ld := w.ld - 1 })

/-- Whether the counter of a kind of request is full, so that the word is held (02_encoding.md R30). -/
def counterFull (w : Warp) (k : ReqKind) : Bool := if k.onSt then decide (30 ≤ w.st) else decide (30 ≤ w.ld)

/-- The request of the word that issues, without its parts. -/
def State.newReq (s : State) (kind : ReqKind) (space : Space) (w vd sc ord : Nat) : Req :=
  { core := s.hcore, wslot := s.run.wslot, live := true, ctx := s.hwarp.ctx, kind := kind, space := space, w := w, vd := vd,
    sc := sc, ord := ord, parts := [], sects := [], queued := 0, fell := false, em := s.em, cidx := s.cidx }

/-- Numbers k of a list taken in a free order: the n-th choice is a free value (log entry 16). -/
def freeOrder {α : Type} (base : Nat) : Nat → List α → List α
  | 0, l => l
  | k + 1, l =>
    let j := Config.freeNat (base + k) % l.length
    match l[j]? with
    | some x => x :: freeOrder base k (l.eraseIdx j)
    | none => l

/-- Where two lanes of a store to a local level write the same byte, the byte takes the value of one of them, chosen freely for each byte
(07_memory.md R155, log entry 15): every lane then carries the winner's byte. -/
def unifyStores (base w : Nat) (parts : List Part) : List Part :=
  parts.map (fun p =>
    let same := parts.filter (fun q => q.addr == p.addr)
    match same with
    | [] => p
    | q :: _ =>
      let byte (j : Nat) : Nat :=
        match same[Config.freeNat (base + 16 * q.lane + j) % same.length]? with
        | some x => bitsOf x.data (8 * j) 8
        | none => 0
      { p with data := (List.range w).foldr (fun j a => byte j + 256 * a) 0 })

/-- Whether two lanes of a store of w bytes share a byte. -/
def sharedByte (w : Nat) : List Part → Bool
  | [] => false
  | p :: r => r.any (fun q => decide (q.addr < p.addr + w) && decide (p.addr < q.addr + w)) || sharedByte w r

/-- The lanes of a store that share bytes are settled. A global access of one lane is indivisible (17_prog_stack.md R328), so the lanes
are performed whole, in a free order, and the last one's bytes stay; at a local level each byte is free (log entry 15). -/
def settleLanes (s : State) (r : Req) : List Part × State :=
  if (r.kind == .store) && sharedByte r.w r.parts then
    (if r.space == .global then freeOrder s.free r.parts.length r.parts else unifyStores s.free r.w r.parts, { s with free := s.free + 512 })
  else (r.parts, s)

/-- A request is entered and its counter rises; a store's lanes that share bytes are settled. -/
def State.enter (s : State) (r : Req) : State :=
  let (parts, s) := settleLanes s r
  let (id, s) := s.fresh
  raiseCounter (s.setReq id { r with parts := parts }) r

/-! ### The L1 and its write-through queue (07_memory.md R149, 16_ordering.md R313) -/

/-- Drops the L1 sectors of a context (10_sync.md R208). -/
def dropL1 (s : State) (core ctx : Nat) : State :=
  s.updCore core (fun k => { k with l1 := k.l1.filter (fun p => p.1 / 2 ^ 56 != ctx) })

/-- Drops the L1 sectors of a line (07_memory.md R160). -/
def dropLine (k : Core) (ctx va : Nat) : Core :=
  { k with l1 := k.l1.filter (fun p => p.1 / 128 != lineKey ctx va) }

/-- Drops a line in every L1 (12_atomics.md R236). -/
def dropLineAll (s : State) (line : Nat) : State :=
  (mkeys s.cores).foldl (fun s c => s.updCore c (fun k => dropLine k (lineCtx line) (lineVa line))) s

/-- The latest queued store of a core that has not been applied and covers a byte (07_memory.md R149). -/
def queuedByte (s : State) (core ctx a : Nat) : Option Byte :=
  let best := s.mem.reqs.foldl (fun (b : Nat × Option Byte) q =>
    if q.2.queued != 0 && q.2.core == core && q.2.ctx == ctx && decide (b.1 < q.2.queued) then
      match (q.2.parts.filter (fun p => !p.done && decide (p.addr ≤ a) && decide (a < p.addr + q.2.w))).getLast? with
      | some p => (q.2.queued, some (BitVec.ofNat 8 (p.data / 2 ^ (8 * (a - p.addr)))))
      | none => b
    else b) (0, none)
  best.2

/-- A byte as a core's loads read it: its queued stores lie over what it would read (16_ordering.md R313). -/
def viewByte (s : State) (core ctx a : Nat) (under : Byte × Bool) : Byte × Bool :=
  match queuedByte s core ctx a with
  | some b => (b, false)
  | none => under

/-- The bytes of the L1 that are present take a store's (07_memory.md R149). -/
def storeL1 (k : Core) (ctx a : Nat) : List Byte → Core
  | [] => k
  | b :: r =>
    let key := byteKey ctx a
    storeL1 (if (mfind k.l1 key).isSome then { k with l1 := mput k.l1 key b } else k) ctx (a + 1) r

/-- Consecutive bytes of the L1, if all are present. -/
def l1Read (k : Core) (ctx a : Nat) : Nat → Option (List Byte)
  | 0 => some []
  | n + 1 =>
    match mfind k.l1 (byteKey ctx a), l1Read k ctx (a + 1) n with
    | some b, some r => some (b :: r)
    | _, _ => none

/-- The lines of a core's L1: with valid sectors, held for bounded accumulation, owned for atomics. -/
def l1Lines (s : State) (core : Nat) : List Nat :=
  ((mkeys (s.core core).l1).map (· / 128) ++ mkeys (s.core core).held ++
    mkeys (s.mem.owner.filter (fun p => p.2 == core + 1))).eraseDups

/-- Lines of a core's L1 that hold plain data only, so that another line may take their place. -/
def plainLines (s : State) (core : Nat) (lines : List Nat) : List Nat :=
  lines.filter (fun l => (mfind (s.core core).held l).isNone && mget s.mem.owner 0 l != core + 1)

/-- Whether an L1 certainly holds fewer lines than its 512 (01_machine.md R14). -/
def l1Slack (s : State) (core : Nat) : Bool :=
  decide ((s.core core).l1.length + (s.core core).held.length + s.mem.owner.length < Config.l1Bytes / 128)

/-- Whether an L1 of 512 lines can take a line: it has it, a line is unused, or a line with plain data only can leave (01_machine.md R14). -/
def hasRoom (s : State) (core line : Nat) : Bool :=
  l1Slack s core ||
  (let lines := l1Lines s core
   lines.contains line || decide (lines.length < Config.l1Bytes / 128) || !(plainLines s core lines).isEmpty)

/-- Room for a line in an L1 of 512 lines: where none is left, a line with plain data only leaves, and which one is a free choice
(07_memory.md R149, log entry 16). -/
def makeRoom (s : State) (core line : Nat) : State :=
  if l1Slack s core then s
  else
    let lines := l1Lines s core
    if lines.length < Config.l1Bytes / 128 ∨ lines.contains line then s
    else
      let plain := plainLines s core lines
      match plain[Config.freeNat s.free % plain.length]? with
      | some l => { s.updCore core (fun k => { k with l1 := k.l1.filter (fun p => p.1 / 128 != l) }) with free := s.free + 1 }
      | none => s

/-- The bytes of a sector are made valid in an L1; one that returned an uncorrectable error is valid no more. -/
def putL1 (m : SMap Byte) (key : Nat) : List (Byte × Bool) → SMap Byte
  | [] => m
  | (b, bad) :: r => putL1 (if bad then mdel m key else mput m key b) (key + 1) r

/-- The bytes of a sector that lie in their extent, of a class that the L1 holds as plain data, fill the L1; an L1 that holds 512 lines for
atomics and bounded adds takes none (07_memory.md R148, R149, log entry 103). -/
def fillL1 (s : State) (core : Nat) (d : Desc) (a : Nat) (src : Nat → Byte × Bool) : State :=
  let lo := max (a / 32 * 32) d.ent.base
  let n := min (a / 32 * 32 + 32) (d.ent.base + d.ent.len) - lo
  if (d.ent.cls == 0 || d.ent.cls == 2 || d.ent.cls == 4) && hasRoom s core (lineKey d.ent.ctx lo) then
    let l := (List.range n).map (fun i => viewByte s core d.ent.ctx (lo + i) (src (lo + i)))
    (makeRoom s core (lineKey d.ent.ctx lo)).updCore core (fun k => { k with l1 := putL1 k.l1 (byteKey d.ent.ctx lo) l })
  else s

/-! ### Order within a warp (07_memory.md R168) and releases (12_atomics.md R241) -/

/-- Whether a part has its place among the writes and reads of its byte: performed, or in the write-through queue. -/
def Req.placed (q : Req) (p : Part) : Bool := p.done || q.queued != 0

/-- Whether adds or drains that a core's L1 has sent for a line are still in flight (12_atomics.md R245). -/
def sentMail (s : State) (core line : Nat) : Bool :=
  s.mem.mail.any (fun p => p.2.core == core && p.2.line == line && (match p.2.msg with | .add _ _ => true | .drain _ _ _ => true | _ => false))

/-- Whether an access must follow the stores of its core that are still queued: those that are performed at home
(12_atomics.md R232, R249). -/
def ReqKind.atHome (k : ReqKind) (cls : Nat) : Bool :=
  match k with
  | .atomic _ | .bred | .bnd _ => true
  | .load _ | .sload => cls == 1
  | _ => false

/-- Whether every older access of the same warp to a byte of a part has its place (07_memory.md R168), with what a bounded
line and an atomic need beside it. -/
def partClear (s : State) (id : Nat) (r : Req) (p : Part) : Bool :=
  s.mem.reqs.all (fun q =>
    let near := q.2.space == r.space && q.2.ctx == r.ctx && q.2.core == r.core &&
      q.2.parts.any (fun x => decide (x.addr < p.addr + r.w) && decide (p.addr < x.addr + q.2.w) && !x.done)
    !(near && ((decide (q.1 < id) && q.2.wslot == r.wslot && q.2.queued == 0) ||
      (q.1 != id && q.2.queued != 0 && r.kind.atHome p.cls)))) &&
  !(r.space == .global && p.cls == 1 && r.kind.atHome 1 && r.kind != .bred && sentMail s r.core (lineKey r.ctx p.addr))

/-- Whether an earlier acquiring atomic of the warp is still to be performed (12_atomics.md R241, 16_ordering.md R317). -/
def acquirePending (s : State) (core wslot id : Nat) : Bool :=
  s.mem.reqs.any (fun q => decide (q.1 < id) && q.2.core == core && q.2.wslot == wslot && !q.2.fell &&
    (match q.2.kind with | .atomic _ => q.2.ord % 2 == 1 | _ => false)) ||
  s.fab.words.any (fun q => decide (q.1 < id) && q.2.core == core && q.2.wslot == wslot && q.2.live && q.2.op == 5 && q.2.ord % 2 == 1)

/-- Whether everything that a release at a scope waits for has happened to the accesses of a warp with lower numbers
(10_sync.md R204, R208, 12_atomics.md R241). -/
def releaseDone (s : State) (core wslot id sc : Nat) : Bool :=
  s.mem.reqs.all (fun q => !(decide (q.1 < id) && q.2.core == core && q.2.wslot == wslot) || (q.2.fell && sc == 0)) &&
  (decide (sc < 3) ||
    (s.fab.posts.all (fun q => !(q.2.core == core && q.2.wslot == wslot && decide (q.2.word < id))) &&
     s.fab.words.all (fun q => !(decide (q.1 < id) && q.2.core == core && q.2.wslot == wslot &&
       (q.2.op == 3 || q.2.op == 4 || q.2.op == 6 || q.2.op == 7)))))

/-- Whether the accesses that a request waits for have happened. -/
def reqMayRun (s : State) (id : Nat) (r : Req) : Bool :=
  (!(decide (2 ≤ r.ord)) || releaseDone s r.core r.wslot id r.sc) &&
  (r.kind.onSt || !acquirePending s r.core r.wslot id)

/-! ### Host-coherent lines of a request -/

/-- The key of a part's sector in its request: the sector with the extent that holds it (07_memory.md R164). -/
def sectIx (s : State) (r : Req) (p : Part) : Nat :=
  65536 * (p.addr / 32) + (match canonDesc s r.ctx p.addr with | .found d => d.ent.xid | _ => 0)

/-- A part's line is asked of the host, or waits for a CXL port that is down (23_platform.md R390). -/
def askOrWait (s : State) (id : Nat) (r : Req) (p : Part) (line : Nat) (wr : Bool) : State :=
  if cxlUp s then askLine s line wr
  else
    match mget r.sects .none (sectIx s r p) with
    | .down _ | .error => s
    | _ => s.setReq id { r with sects := mput r.sects (sectIx s r p) (.down s.plat.time) }

/-! ### Ownership and bounded lines at a store (12_atomics.md R233, R249) -/

/-- The lines of a part's bytes: two where an alias name places an aligned access across lines. -/
def partLines (r : Req) (p : Part) : List Nat := [lineKey r.ctx p.addr, lineKey r.ctx (p.addr + r.w - 1)].eraseDups

/-! ### Performing parts -/

/-- The value that a load of a core reads for a part at the point of coherence, over bytes that `src` supplies; on a bounded
line each element is the home value plus the core's own delta (12_atomics.md R249). -/
def loadValue (s : State) (core : Nat) (d : Desc) (a w : Nat) (src : Nat → Byte × Bool) : Nat × Bool :=
  if d.ent.cls == 1 then
    let own := mfind (s.core core).held (lineKey d.ent.ctx a)
    let first := a / 4 * 4
    let els := (List.range ((a % 4 + w + 3) / 4)).map (fun k =>
      let va := first + 4 * k
      let l := (List.range 4).map (fun i => viewByte s core d.ent.ctx (va + i) (src (va + i)))
      let v := leNat (l.map Prod.fst)
      (leBytes 4 (match own with | some h => fadd f32 .rne v (mget h.d 0 (va % 128 / 4)).toNat | none => v), l.any Prod.snd))
    (leNat (((els.map Prod.fst).flatten.drop (a % 4)).take w), els.any Prod.snd)
  else
    let l := (List.range w).map (fun i => viewByte s core d.ent.ctx (a + i) (src (a + i)))
    (leNat (l.map Prod.fst), l.any Prod.snd)

/-- A part performed with a value. -/
def Part.performed (p : Part) (v : Nat × Bool) : Part := { p with done := true, res := if v.2 then 0 else v.1, err := v.2 }

/-- Bytes of a local level (07_memory.md R140). -/
def localRead (s : State) (sp : Space) (a n : Nat) : List Byte :=
  match sp with
  | .global => []
  | .slice b _ => mrange (s.blk b).slices 0 a n
  | .spad b => mrange (s.blk b).spad 0 a n
  | .store c => mrange s.mem.cst 0 (cstKey c a) n

/-- Bytes of a local level are written; a block whose group has ended holds none (07_memory.md R143). -/
def localWrite (s : State) (sp : Space) (a : Nat) (bs : List Byte) : State :=
  match sp with
  | .global => s
  | .slice b _ =>
    match mfind s.work.blocks b with
    | some x => s.setBlk b { x with slices := msetRange 0 x.slices a bs }
    | none => s
  | .spad b =>
    match mfind s.work.blocks b with
    | some x => s.setBlk b { x with spad := msetRange 0 x.spad a bs }
    | none => s
  | .store c => { s with mem := { s.mem with cst := msetRange 0 s.mem.cst (cstKey c a) bs } }

/-- Whether a queued `tst` of a block issued before an access: which of their bytes lies in memory in the end is open (19_matrix.md R350). -/
def tstBefore (s : State) (id : Nat) (sp : Space) : Bool :=
  match sp with
  | .spad b => s.work.mops.any (fun q => decide (q.1 < id) && q.2.code == 0xCA && q.2.blk == b)
  | _ => false

/-- Whether an object of a cluster store is in use: a warp, saved ones among them, has it on its foreign list, or an operation, a fetch or a
remote word charges it (10_sync.md R201, log entry 87). -/
def objInUse (s : State) (r : ObjRef) : Bool :=
  s.warps.any (fun w => w.2.foreign.any (fun a => barAddr s (w.1 / 33) w.2.blk false a.toNat == .ok r)) ||
  s.work.ops.any (fun o => o.2.bar == some r) || s.work.parts.any (fun x => x.2.bar == some r) ||
  s.work.fetches.any (fun x => x.2.bar == r) || s.fab.words.any (fun x => x.2.bar == some r) ||
  s.work.saved.any (fun g => (mvals g.2.foreign).any (fun l => l.contains r))

/-- The objects in use that some bytes of a cluster store meet: a store leaves their fields unspecified (10_sync.md R201). -/
def spoiledObjs (s : State) (sp : Space) (a n : Nat) : List Nat :=
  match sp with
  | .store c => ((List.range n).map (fun i => (a + i) / 32 * 32)).eraseDups.filter (fun o => objInUse s (.store c o))
  | _ => []

/-- Objects of a cluster store take unspecified fields: free values. -/
def spoilObjs (s : State) (sp : Space) (l : List Nat) : State :=
  l.foldl (fun s o => { localWrite s sp o ((List.range 32).map (fun i => Config.freeByte (s.free + i))) with free := s.free + 32 }) s

/-- A store's bytes are written at their level; an object in use that they meet is left unspecified, and a `tst` that issued before it
takes note of them. -/
def localStore (s : State) (id : Nat) (sp : Space) (a : Nat) (bs : List Byte) : State :=
  let s := spoilObjs (localWrite s sp a bs) sp (spoiledObjs s sp a bs.length)
  if tstBefore s id sp then
    { s with work := { s.work with mops := s.work.mops.map (fun q =>
        if q.1 < id ∧ q.2.code = 0xCA then (q.1, { q.2 with later := q.2.later ++ (List.range bs.length).map (a + ·) }) else q) } }
  else s

/-- A load's part, if it can be performed without a memory port: at a local level, in the L1 at `.core`, or in the dirty bytes
of its home slice (07_memory.md R148, R156). -/
def loadPart (s : State) (id : Nat) (r : Req) (p : Part) : Option Part :=
  if p.done then some p
  else if !partClear s id r p then none
  else
    match r.space with
    | .global =>
      match (if r.sc == 0 then l1Read (s.core r.core) r.ctx p.addr r.w else none) with
      | some bs => some (p.performed (leNat bs, false))
      | none =>
        if cachedClass p.cls && (List.range r.w).all (fun i => (mfind s.mem.l2 (byteKey r.ctx (p.addr + i))).isSome) &&
            !(partLines r p).any (recallWait s r.core) then
          match canonDesc s r.ctx p.addr with
          | .found d => some (p.performed (loadValue s r.core d p.addr r.w (homeByte s d)))
          | _ => none
        else none
    | sp => some (p.performed (leNat (localRead s sp p.addr r.w), false))

/-! ### Completion -/

/-- A lane's group takes a load's value (07_memory.md R152, R155). -/
def Warp.putGroup (w : Warp) (vd n lane v : Nat) (sgn err : Bool) : Warp :=
  let x := if n < 4 && sgn then (sextInt (8 * n) v % 2 ^ 32).toNat else v
  ((groupRegs vd n).zipIdx).foldl (fun w p => w.setLane p.1 lane (BitVec.ofNat 32 (x / 2 ^ (32 * p.2))) err) w

/-- A deferred error joins those of a warp: five are listed, the rest counted (07_memory.md R167). -/
def Warp.defer (w : Warp) (e : DeferredErr) : Warp :=
  if w.errs.length < 5 then { w with errs := w.errs ++ [e] } else { w with errCount := w.errCount + 1 }

/-- The deferred error of a request whose parts have failed, if any (07_memory.md R167). -/
def Req.deferred (r : Req) : Option DeferredErr :=
  let bad := r.parts.filter Part.err
  match bad with
  | [] => none
  | p :: q =>
    let sec := q.foldl (fun m x => min m (x.va / 32)) (p.va / 32)
    let lanes := match r.kind with
      | .sload | .sstore => r.em
      | _ => lanesMask (bad.map Part.lane)
    some { sva := 32 * sec, lanes := lanes, cidx := r.cidx, ctr := if r.kind.onSt then 1 else 0 }

/-- A warp that still takes a request's results takes its deferred error. -/
def deferReq (s : State) (r : Req) : State :=
  match r.deferred with
  | some e => if r.live then s.updWarp r.core r.wslot (fun w => w.defer e) else s
  | none => s

/-- Size of an atomic in bytes (12_atomics.md R239). -/
def atomSize (op : Nat) : Nat := if op = 13 then 16 else if 10 ≤ op then 8 else 4

/-- The status field [31:24] of a host atomic at its completion: done, or not-performed when a lane was not
(12_atomics.md R237). -/
def hostAtomStatus (w : Warp) (r : Req) : Warp :=
  let host := r.parts.filter (fun p => p.cls == 3)
  if host.isEmpty then w
  else { w with status := w.status &&& 0x00FFFFFF ||| (if host.any (fun p => p.np || p.err) then 0x01000000 else 0) }

/-- A lane of a `vscvt` takes its result: its element by its scale, or a poisoned NaN where the scale read failed (06_vector.md R133). -/
def Warp.putScale (w : Warp) (vd lane mode fmt : Nat) (sat : Bool) (p : Part) : Warp :=
  let bit := BitVec.ofNat 32 (2 ^ lane)
  if p.err then
    let w := w.setV vd bit (fun _ => 0x7FC00000)
    { w with poison := mset 0 w.poison vd (w.poisoned vd ||| bit) }
  else w.setV vd bit (fun _ => BitVec.ofNat 32 (scaledElem (modeOf mode 0) sat (decodeElem fmt p.data) p.res))

/-- A lane's registers take the result of a part that has been performed; a lane that has landed keeps what its registers hold
(02_encoding.md R29, 07_memory.md R155, 12_atomics.md R240). -/
def Warp.takePart (w : Warp) (r : Req) (p : Part) : Warp :=
  if p.landed != 0 then w
  else
    match r.kind with
    | .load sgn => w.putGroup r.vd r.w p.lane p.res sgn p.err
    | .sload => w.setS r.vd (if p.err then 0 else BitVec.ofNat 32 p.res)
    | .atomic _ => if p.np then w else w.putGroup r.vd r.w p.lane p.res false p.err
    | .bnd _ => w.putGroup r.vd 4 p.lane p.res false p.err
    | .scale mode sat fmt => w.putScale r.vd p.lane mode fmt sat p
    | .bred | .store | .sstore => w

/-- A warp takes the results of a completed load or atomic (07_memory.md R155, R158, 12_atomics.md R240). -/
def Warp.take (w : Warp) (r : Req) : Warp :=
  let w := r.parts.foldl (fun w p => w.takePart r p) w
  match r.kind with
  | .atomic _ | .bred => hostAtomStatus w r
  | _ => w

/-- A request whose parts are all performed completes: its warp takes its results, its deferred error and an acquire, and its
counter falls (07_memory.md R156, R167, 12_atomics.md R241, R242). -/
def finishReq (s : State) (id : Nat) (r : Req) : State :=
  let s := if r.live then s.updWarp r.core r.wslot (fun w => w.take r) else s
  let s := match r.kind with
    | .load _ | .atomic _ | .bnd _ | .scale _ _ _ => s
    | _ => deferReq s r
  let s := match r.kind with
    | .atomic _ => if r.ord % 2 == 1 && r.sc != 0 then dropL1 s r.core r.ctx else s
    | _ => s
  let s := if r.fell then s else lowerCounter s r
  s.delReq id

/-! ### Issue -/

/-- The end of the checks of a memory word: a fault, the escalation of a corrupt table, or its effect. -/
def onVerdict (s : State) (v : Verdict) (ok : State) : Result :=
  match v with
  | .fault f => .next (s.raise f)
  | .corrupt => .next (deviceError s)
  | .ok => .next ok

/-- The ECB entries that the checks of an instruction fill (07_memory.md R146). -/
def fillEcbs (s : State) (core ctx : Nat) (acc : List Acc) : State := acc.foldl (fun s a => fillEcb s core ctx a.va) s

/-- A part that has not been performed. -/
def Part.new (lane addr va data cls xid : Nat) : Part :=
  { lane := lane, addr := addr, va := va, data := data, cls := cls, xid := xid, done := false, res := 0, err := false, np := false }

/-- The part of a lane's global access. Its class is the one of the extent that the check used: where an alias names another class than its
canonical extent, the core caches and completes the access by the alias's, and the home point performs it by the canonical extent's (DESIGN
CHOICE, log entry 99). -/
def globalPart (s : State) (core ctx : Nat) (a : Acc) (data : Nat) : Part :=
  match protOf s core ctx a.va with
  | .found d => Part.new a.lane (canonical d.ent a.va) a.va data d.ent.cls d.ent.xid
  | _ => { Part.new a.lane a.va a.va data 5 0 with done := true, err := true }

/-! ### Signatures of audited blocks (11_traps.md R225, R226) -/

/-- The hash of one byte at an address. -/
def auditHash (a : Nat) (b : Byte) : DWord :=
  let h : DWord := BitVec.ofNat 64 (a * 256) ^^^ BitVec.ofNat 64 b.toNat
  let h := (h ^^^ (h >>> 33)) * 0xFF51AFD7ED558CCD
  let h := (h ^^^ (h >>> 33)) * 0xC4CEB9FE1A85EC53
  h ^^^ (h >>> 33)

/-- The hash of a store's bytes. -/
def auditBytes (a : Nat) (bs : List Byte) : DWord := (bs.zipIdx).foldl (fun h p => h + auditHash (a + p.2) p.1) 0

/-- Bytes that an audited block writes outside its own storage are folded into its signature; a replay performs none of them
(11_traps.md R226). -/
def foldSig (s : State) (blk : Nat) (l : List (Nat × List Byte)) : State :=
  match (s.blk blk).role with
  | .none => s
  | _ => s.updBlk blk (fun b => { b with sig := l.foldl (fun h p => h + auditBytes p.1 p.2) b.sig })

end Sys2Proof.Machine
end

