-- ==== Sys2Proof/Machine/Bounded.lean ====
section
/-! DEFINITION. Bounded accumulation: what an L1 and a home slice send each other and do on receipt (12_atomics.md R244 to
R249), and the rows of the opcode table that receive a message. -/
namespace Sys2Proof.Machine

/-- Whether a message goes from an L1 to a home slice. -/
def BMsg.toHome : BMsg → Bool
  | .shareReq | .add _ _ | .drain _ _ _ | .bload _ _ => true
  | _ => false

/-- A message is sent. -/
def sendMail (s : State) (core line : Nat) (m : BMsg) : State :=
  let (i, s) := s.fresh
  s.setMail (mput s.mem.mail i ⟨core, line, m⟩)

/-- A message may be received: none sent earlier in the same direction between the same L1 and slice is in flight
(12_atomics.md R245). -/
def mailFirst (s : State) (i : Nat) (m : BMail) : Bool :=
  s.mem.mail.all (fun p => !(decide (p.1 < i) && p.2.core == m.core && p.2.msg.toHome == m.msg.toHome &&
    homeSlice s p.2.line == homeSlice s m.line))

/-- Receipt of a message: it is taken out of flight and acted on, or it waits in the state that `hold` gives. -/
def onMail (s : State) (i : Nat) (hold : State → BMail → Option State) (act : State → BMail → Option State) : Result :=
  match mfind s.mem.mail i with
  | some m =>
    if mailFirst s i m then
      match hold s m with
      | some s' => .next s'
      | none =>
        match act (s.setMail (mdel s.mem.mail i)) m with
        | some s' => .next s'
        | none => .next s
    else .next s
  | none => .next s

/-- A message that waits for nothing at home. -/
def noHold (_ : State) (_ : BMail) : Option State := none

/-- The state in which the home slice cannot add to some elements of a line yet: an owner is performing an atomic on it, the slice has no
room, or an element is held on its way from memory (12_atomics.md R233, R235, 09_extents.md R185, 23_platform.md R407). -/
def elemsWait (s : State) (line : Nat) (es : List Nat) : Option State :=
  es.findSome? (fun e =>
    let va := lineVa line + 4 * e
    match canonDesc s (lineCtx line) va with
    | .found d =>
      if d.ent.cls != 1 then none
      else
        let port := entryPort (homeCluster d.ent line) va
        (heldState s d va true (homeHold s port d va true)).orElse (fun _ => heldState s d va false (homeHold s port d va false))
    | _ => none)

/-- The bounded extent that holds a line or a part of it. -/
def boundedDesc (s : State) (line : Nat) : Walk :=
  ((List.range 32).findSome? (fun e => match canonDesc s (lineCtx line) (lineVa line + 4 * e) with
    | .found d => if d.ent.cls == 1 then some (Walk.found d) else none
    | _ => none)).getD .none

/-- The bound B of a line's extent as a binary32 code. -/
def boundOf (s : State) (line : Nat) : Nat :=
  match boundedDesc s line with
  | .found d => d.ent.bound
  | _ => 0

/-- The accounting of a line, with U = B when it is first used (12_atomics.md R244). -/
def accounting (s : State) (line : Nat) : BndLine := bndLine s line (boundOf s line)
def setAccounting (s : State) (line : Nat) (b : BndLine) : State := { s with mem := { s.mem with bnd := mput s.mem.bnd line b } }

/-- Holders ordered by share, the largest first, ties by the lower core number (12_atomics.md R247). -/
def bySize (h : Nat × Nat) : List (Nat × Nat) → List (Nat × Nat)
  | [] => [h]
  | x :: r => if fless f32 x.2 h.2 || (!fless f32 h.2 x.2 && decide (h.1 < x.1)) then h :: x :: r else x :: bySize h r

def sortedHolders (l : List (Nat × Nat)) : List (Nat × Nat) := l.foldr bySize []

/-- A bound divided by 2^k, exactly. -/
def divPow (b k : Nat) : Nat := roundTo f32 .rz false (scaleNum (-(k : Int)) (decodeF f32 b))

/-- The home slice grants half of U, or 0 (12_atomics.md R247). -/
def grantShare (s : State) (core line : Nat) : State :=
  let a := accounting s line
  let b := fmul f32 .rz a.u 0x3F000000
  if 8 ≤ a.holders.length ∨ (decodeF f32 b).isZero then sendMail s core line (.grant 0)
  else sendMail (setAccounting s line ⟨fsub f32 .rz a.u b, a.holders ++ [(core, b)]⟩) core line (.grant b)

/-- A share-req at home: reclaim while `reclaiming` and U < B/2, one holder at a time, then the grant (12_atomics.md R247). -/
def serveShare (s : State) (core line : Nat) (reclaiming : Bool) : State :=
  let a := accounting s line
  if !reclaiming && decide (8 ≤ a.holders.length) then sendMail s core line (.grant 0)
  else if (reclaiming && fless f32 a.u (divPow (boundOf s line) 1)) || (!reclaiming && fless f32 a.u (divPow (boundOf s line) 6)) then
    match sortedHolders a.holders with
    | h :: _ =>
      let s := sendMail s h.1 line (.fdrain true)
      { s with mem := { s.mem with waits := s.mem.waits ++ [⟨core, line, 0, [h.1]⟩] } }
    | [] => grantShare s core line
  else grantShare s core line

/-- The elements of a line at home, each of the bounded extent that holds it, with the mask of those that return an uncorrectable error. -/
def lineValues (s : State) (line : Nat) : List Word × Word :=
  let l := (List.range 32).map (fun e => match canonDesc s (lineCtx line) (lineVa line + 4 * e) with
    | .found d => if d.ent.cls == 1 then homeElem s d (lineVa line + 4 * e) else (0, false)
    | _ => (0, false))
  (l.map (fun v => BitVec.ofNat 32 v.1), maskOf (fun e => (l.getD e (0, false)).2))

/-- The elements of a line that lie in bounded extents are read at home: their extents count as accessed, their channels wake
(07_memory.md R150, 23_platform.md R407). -/
def touchLine (s : State) (line : Nat) : State :=
  (List.range 32).foldl (fun s e => match canonDesc s (lineCtx line) (lineVa line + 4 * e) with
    | .found d => if d.ent.cls == 1 then touchByte s d (lineVa line + 4 * e) false else s
    | _ => s) s

/-- Whether a bload may be answered: nothing that the reader's L1 has sent for the line, and no fdrain to it, is in flight
(DEDUCED from 12_atomics.md R248, log entry 34). -/
def readerQuiet (s : State) (core line : Nat) : Bool :=
  !sentMail s core line &&
  s.mem.mail.all (fun p => !(p.2.core == core && p.2.line == line && (match p.2.msg with | .fdrain _ => true | _ => false)))

/-- Home actions whose drains have all been applied go on (12_atomics.md R247). -/
def serveWaits (s : State) : State :=
  let go (s : State) (w : BWait) : State :=
    let keep := { s with mem := { s.mem with waits := s.mem.waits ++ [w] } }
    if !w.wait.isEmpty then keep
    else if w.req = 0 then serveShare s w.core w.line true
    else if readerQuiet s w.core w.line then
      let v := lineValues s w.line
      sendMail (touchLine s w.line) w.core w.line (.bvalue (w.req - 1) v.1 v.2)
    else keep
  s.mem.waits.foldl go { s with mem := { s.mem with waits := [] } }

/-- The shortest prefix of the other holders whose drains bring the rest within a tolerance (12_atomics.md R247). -/
def drainPrefix (eps : Nat) : List (Nat × Nat) → List Nat
  | [] => []
  | h :: r =>
    let rest := (h :: r).foldl (fun a x => fadd f32 .ru a x.2) 0
    if fless f32 eps rest then h.1 :: drainPrefix eps r else []

/-- A core's answer of an fdrain leaves the first wait that awaits it. -/
def answered (core line : Nat) : List BWait → List BWait
  | [] => []
  | w :: r =>
    if w.line == line && w.wait.contains core then { w with wait := w.wait.erase core } :: r else w :: answered core line r

/-! ### The L1's side -/

/-- Whether a bvalue for a line is on its way to a core: the L1 then sends no drain of it (log entry 34). -/
def bvalueDue (s : State) (core line : Nat) : Bool :=
  s.mem.mail.any (fun p => p.2.core == core && p.2.line == line && (match p.2.msg with | .bvalue _ _ _ => true | _ => false))

/-- Whether a core has asked for a share of a line and not been answered. -/
def shareAsked (s : State) (core line : Nat) : Bool :=
  s.mem.mail.any (fun p => p.2.core == core && p.2.line == line && (match p.2.msg with | .shareReq => true | .grant _ => true | _ => false)) ||
  s.mem.waits.any (fun w => w.core == core && w.line == line && w.req == 0)

/-- The L1 sends a line's deltas and starts them at +0 (12_atomics.md R245, R246). -/
def sendDrain (s : State) (core line : Nat) (release answer : Bool) : State :=
  let h := mget (s.core core).held ⟨0, 0, []⟩ line
  let s := sendMail s core line (.drain h.d release answer)
  let held (k : Core) := if release then mdel k.held line
    else if (mfind k.held line).isSome then mput k.held line { h with t := 0, d := [] } else k.held
  s.updCore core (fun k => { k with held := held k })

/-- |δ| of a binary32 code. -/
def absCode (x : Nat) : Nat := x % 2 ^ 31

/-- One lane of `bred.add.f32` on a bounded line (12_atomics.md R246): none where it waits for a grant. -/
def bredLane (s : State) (core line e δ : Nat) : State × Bool :=
  let k := s.core core
  match mfind k.held line with
  | none =>
    if k.noShare.contains line then (sendMail s core line (.add e δ), true)
    else if shareAsked s core line then (s, false)
    else (sendMail s core line .shareReq, false)
  | some h =>
    let x := decodeF f32 δ
    if x.isNan || x.isInf then (sendMail s core line (.add e δ), true)
    else
      let past := fless f32 h.b (fadd f32 .ru h.t (absCode δ))
      if past && bvalueDue s core line then (s, false)
      else
        let s := if past then sendDrain s core line false false else s
        if past && fless f32 h.b (absCode δ) then (sendMail s core line (.add e δ), true)
        else
          let h := mget (s.core core).held ⟨0, 0, []⟩ line
          let h' : Held := { h with d := mset 0 h.d e (BitVec.ofNat 32 (fadd f32 .rne (mget h.d 0 e).toNat δ)), t := fadd f32 .ru h.t (absCode δ) }
          (s.updCore core (fun k => { k with held := mput k.held line h' }), true)

/-- The lanes of a `bred.add.f32` on bounded lines, ascending; a line that waits holds back its later lanes. -/
def bredLanes (s : State) (id : Nat) (r : Req) : State × List Part :=
  let go (a : State × List Part × List Nat) (p : Part) : State × List Part × List Nat :=
    let line := lineKey r.ctx p.addr
    if p.done || p.cls != 1 || a.2.2.contains line || !reqMayRun s id r || !partClear s id r p then
      (a.1, a.2.1 ++ [p], if p.cls == 1 && !p.done then line :: a.2.2 else a.2.2)
    else
      let x := bredLane a.1 r.core line (p.addr % 128 / 4) p.data
      if x.2 then (x.1, a.2.1 ++ [{ p with done := true }], a.2.2) else (x.1, a.2.1 ++ [p], line :: a.2.2)
  let x := r.parts.foldl go (s, [], [])
  (x.1, x.2.1)

/-- The lines of a `ld.bnd` on bounded extents that have not been asked for are asked for (12_atomics.md R251). -/
def sendBloads (s : State) (id : Nat) (r : Req) : State :=
  match r.kind with
  | .bnd eps =>
    if !reqMayRun s id r then s
    else
      let want := r.parts.filter (fun p => !p.done && p.cls == 1)
      let lines := (want.map (fun p => lineKey r.ctx p.addr)).eraseDups
      lines.foldl (fun s line =>
        let busy := s.mem.mail.any (fun m => m.2.core == r.core && m.2.line == line &&
            (match m.2.msg with | .bload i _ => i == id | .bvalue i _ _ => i == id | _ => false)) ||
          s.mem.waits.any (fun w => w.line == line && w.req == id + 1)
        if busy || !(want.filter (fun p => lineKey r.ctx p.addr == line)).all (fun p => partClear s id r p) then s
        else sendMail s r.core line (.bload id eps)) s
  | _ => s

/-! ### Receipt (rows SHARE_REQ to BVALUE) -/

/-- SHARE_REQ (12_atomics.md R247): the slice recalls atomic ownership first (R233, R249). -/
def execShareReq (msg : Nat) (s : State) : Result :=
  onMail s msg noHold (fun s m => match m.msg with
    | .shareReq => if lineBusy s m.line then none else some (serveShare (dropOwner s m.line) m.core m.line false)
    | _ => none)

/-- GRANT (12_atomics.md R245): a share takes a line of the L1, for which it waits (log entry 103). -/
def execGrant (msg : Nat) (s : State) : Result :=
  onMail s msg noHold (fun s m => match m.msg with
    | .grant b =>
      if b = 0 then some (s.updCore m.core (fun k => { k with noShare := m.line :: k.noShare }))
      else if hasRoom s m.core m.line then
        some ((makeRoom s m.core m.line).updCore m.core (fun k => { k with held := mput k.held m.line ⟨b, 0, []⟩ }))
      else none
    | _ => none)

/-- ADD (12_atomics.md R245). -/
def execAdd (msg : Nat) (s : State) : Result :=
  onMail s msg (fun s m => match m.msg with | .add e _ => elemsWait s m.line [e] | _ => none) (fun s m => match m.msg with
    | .add e δ => some (serveWaits (addElem s m.line e δ))
    | _ => none)

/-- DRAIN (12_atomics.md R245). -/
def execDrain (msg : Nat) (s : State) : Result :=
  onMail s msg (fun s m => match m.msg with | .drain _ _ _ => elemsWait s m.line (List.range 32) | _ => none) (fun s m => match m.msg with
    | .drain d release answer =>
      let s := addDeltas s m.line d
      let s := if release then
          let a := accounting s m.line
          match a.holders.find? (fun p => p.1 == m.core) with
          | some h => setAccounting s m.line ⟨fadd f32 .rz a.u h.2, a.holders.filter (fun p => p.1 != m.core)⟩
          | none => s
        else s
      let s := if answer then { s with mem := { s.mem with waits := answered m.core m.line s.mem.waits } } else s
      some (serveWaits s)
    | _ => none)

/-- FDRAIN (12_atomics.md R245, R253): an L1 that holds the line no longer answers with no delta. -/
def execFdrain (msg : Nat) (s : State) : Result :=
  onMail s msg noHold (fun s m => match m.msg with
    | .fdrain release =>
      some (if (mfind (s.core m.core).held m.line).isSome then sendDrain s m.core m.line release true
        else sendMail s m.core m.line (.drain [] false true))
    | _ => none)

/-- BLOAD (12_atomics.md R247): the slice recalls atomic ownership first (R233), and the elements wait where they reach memory. -/
def execBload (msg : Nat) (s : State) : Result :=
  onMail s msg (fun s m => match m.msg with | .bload _ _ => elemsWait s m.line (List.range 32) | _ => none) (fun s m => match m.msg with
    | .bload req eps =>
      let s := dropOwner s m.line
      let f := drainPrefix eps (sortedHolders ((accounting s m.line).holders.filter (fun h => h.1 != m.core)))
      let s := f.foldl (fun s c => sendMail s c m.line (.fdrain false)) s
      some (serveWaits { s with mem := { s.mem with waits := s.mem.waits ++ [⟨m.core, m.line, req + 1, f⟩] } })
    | _ => none)

/-- BVALUE (12_atomics.md R247). -/
def execBvalue (msg : Nat) (s : State) : Result :=
  onMail s msg noHold (fun s m => match m.msg with
    | .bvalue req vals errs =>
      match s.req req with
      | some r =>
        let own := mfind (s.core m.core).held m.line
        let fill (p : Part) : Part :=
          if p.done || p.cls != 1 || lineKey r.ctx p.addr != m.line then p
          else
            let e := p.addr % 128 / 4
            let v := (vals.getD e 0).toNat
            p.performed (match own with | some h => fadd f32 .rne v (mget h.d 0 e).toNat | none => v, laneIn errs e)
        some (s.setReq req { r with parts := r.parts.map fill })
      | none => some s
    | _ => none)

end Sys2Proof.Machine
end

