-- ==== Sys2Proof/Machine/Control.lean ====
section
/-! DEFINITION. The scalar, branch and mask words 0x00 to 0x1F (05_control.md), and the events of the slot arbiter. -/
namespace Sys2Proof.Machine

/-! ### Scalar words (05_control.md R92 to R94) -/

def execSadd (d : SReg) (a b : Operand) (s : State) : Result := sca s d a b (s.sopVal a + s.sopVal b)
def execSsub (d : SReg) (a b : Operand) (s : State) : Result := sca s d a b (s.sopVal a - s.sopVal b)
def execSmul (d : SReg) (a b : Operand) (s : State) : Result := sca s d a b (s.sopVal a * s.sopVal b)

/-- The high word of the signed product (05_control.md R92). -/
def mulhiS (x y : Word) : Word := BitVec.ofInt 32 (x.toInt * y.toInt / 2 ^ 32)

def execSmulhi (d : SReg) (a b : Operand) (s : State) : Result := sca s d a b (mulhiS (s.sopVal a) (s.sopVal b))
def execSand (d : SReg) (a b : Operand) (s : State) : Result := sca s d a b (s.sopVal a &&& s.sopVal b)
def execSor (d : SReg) (a b : Operand) (s : State) : Result := sca s d a b (s.sopVal a ||| s.sopVal b)
def execSxor (d : SReg) (a b : Operand) (s : State) : Result := sca s d a b (s.sopVal a ^^^ s.sopVal b)

/-- Shifts by an unsigned count whose bits above [4:0] are not ignored (05_control.md R92). -/
def shlW (x y : Word) : Word := if y.toNat < 32 then x <<< y.toNat else 0
def shrW (x y : Word) : Word := if y.toNat < 32 then x >>> y.toNat else 0
def sraW (x y : Word) : Word := x.sshiftRight (min y.toNat 32)

def execSshl (d : SReg) (a b : Operand) (s : State) : Result := sca s d a b (shlW (s.sopVal a) (s.sopVal b))
def execSshr (d : SReg) (a b : Operand) (s : State) : Result := sca s d a b (shrW (s.sopVal a) (s.sopVal b))
def execSsra (d : SReg) (a b : Operand) (s : State) : Result := sca s d a b (sraW (s.sopVal a) (s.sopVal b))

/-- The smaller and the larger of two signed or unsigned words. -/
def minS (x y : Word) : Word := if y.slt x then y else x
def maxS (x y : Word) : Word := if x.slt y then y else x
def minU (x y : Word) : Word := if y.ult x then y else x
def maxU (x y : Word) : Word := if x.ult y then y else x

def execSmin (d : SReg) (a b : Operand) (s : State) : Result := sca s d a b (minS (s.sopVal a) (s.sopVal b))
def execSmax (d : SReg) (a b : Operand) (s : State) : Result := sca s d a b (maxS (s.sopVal a) (s.sopVal b))

/-- `scmp.cc` (05_control.md R93). -/
def execScmp (c : Fin 10) (a b : Operand) (s : State) : Result :=
  .next ((s.updHere (fun w => w.setScc (scmpHolds c (s.sopVal a) (s.sopVal b)))).advance (opWords a b))

def execSsel (d : SReg) (a b : Operand) (s : State) : Result :=
  sca s d a b (if s.hwarp.scc then s.sopVal a else s.sopVal b)

/-- `sadd64` (05_control.md R94). -/
def execSadd64 (d : SReg) (a b : Operand) (s : State) : Result :=
  let x := s.sopVal64 a + s.sopVal64 b
  .next ((s.updHere (fun w => (w.setS d.val (x.extractLsb' 0 32)).setS (d.val + 1) (x.extractLsb' 32 32))).advance (opWords a b))

def execSmov (d : SReg) (a : Operand) (s : State) : Result := sca s d a (.int 16) (s.sopVal a)

/-! ### Branches (05_control.md R101 to R108) -/

/-- X: the target of a branch, off words from the clause header (02_encoding.md R32, 05_control.md). -/
def State.target (s : State) (off : Fin 1048576) : Nat :=
  (((s.run.pc : Int) + 4 * sextInt 20 off.val) % 2 ^ 56).toNat

/-- F: the clause that follows. -/
def State.follow (s : State) : Nat := s.run.follow

/-- cond: a mask register or its complement (05_control.md). -/
def State.cond (s : State) (mk : MReg) (c : Bool) : Word := if c then ~~~s.hwarp.m mk.val else s.hwarp.m mk.val

/-- The split goes to the target or falls through (05_control.md R101). -/
def goTo (s : State) (taken : Bool) (off : Fin 1048576) : Result :=
  .next (s.branch (fun w => w.setPc s.run.split (if taken then s.target off else s.follow)))

def execJmp (off : Fin 1048576) (s : State) : Result := goTo s true off
def execBscc (c : Bool) (off : Fin 1048576) (s : State) : Result := goTo s (s.hwarp.scc != c) off
def execBany (mk : MReg) (c : Bool) (off : Fin 1048576) (s : State) : Result := goTo s (s.em &&& s.cond mk c != 0) off
def execBall (mk : MReg) (c : Bool) (off : Fin 1048576) (s : State) : Result := goTo s (s.em &&& ~~~s.cond mk c == 0) off

/-- S enters state 3: its BR word issues again when an entry frees (05_control.md R102, R103, R105). -/
def waitToken (b : Blocked) (s : State) : Result :=
  let r := s.run
  let c := s.hcore
  let s := s.updHere (fun w => w.setSplit r.split { w.split r.split with state := 3, word := s.cidx, on := b })
  .next (deadlock1 s.leaveSlot c r.wslot)

/-- `bdiv` (05_control.md R102). -/
def execBdiv (mk : MReg) (c : Bool) (off : Fin 1048576) (s : State) : Result :=
  let i := s.run.split
  let X := s.target off
  let F := s.follow
  let sp := s.hsplit
  let Lt := sp.mask &&& s.cond mk c
  let Lf := sp.mask &&& ~~~s.cond mk c
  let tk := s.hwarp.tok sp.td
  let direct := sp.tv && X == tk.pc
  if Lt == 0 then goTo s false off
  else if Lf == 0 then goTo s true off
  else if !direct && s.hwarp.freeSplit.isNone && s.hwarp.freeTok.isNone then waitToken .entry s
  else
    .next (s.branch (fun w =>
      let w := w.setSplit i { w.split i with mask := Lf }
      let w :=
        if direct then w.setTok sp.td { tk with pending := tk.pending &&& ~~~Lt }
        else
          match w.freeSplit, w.freeTok with
          | some n, _ => (w.setSplit n { pc := X, mask := Lt, word := 0, state := 1, tv := sp.tv, td := sp.td }).setPc n X
          | none, some t => w.setTok t { kind := 3, pc := X, rejoin := Lt, pending := 0, parent := sp.td, pv := sp.tv }
          | none, none => w
      w.setPc i F))

/-- `join` (05_control.md R103). -/
def execJoin (off : Fin 1048576) (s : State) : Result :=
  match s.hwarp.freeTok with
  | none => waitToken .token s
  | some t =>
    let i := s.run.split
    let sp := s.hsplit
    .next (s.branch (fun w =>
      ((w.setTok t { kind := 1, pc := s.target off, rejoin := sp.mask, pending := sp.mask, parent := sp.td, pv := sp.tv }).setSplit i
        { w.split i with td := t, tv := true }).setPc i s.follow))

/-- `call` (05_control.md R105). -/
def execCall (off : Fin 1048576) (s : State) : Result :=
  match s.hwarp.freeTok with
  | none => waitToken .token s
  | some t =>
    let i := s.run.split
    let sp := s.hsplit
    .next (s.branch (fun w =>
      ((w.setTok t { kind := 2, pc := s.follow, rejoin := sp.mask, pending := sp.mask, parent := sp.td, pv := sp.tv }).setSplit i
        { w.split i with td := t, tv := true }).setPc i (s.target off)))

/-- rejoin-deadlock of cause 2 or 3 at the BR word that issues (05_control.md R109). -/
def State.rejoinFault (s : State) (cause : Nat) : State :=
  s.raise { cls := clsRejoin, lanes := s.em, sva := cause, space := 7 } (splitRecords s.hwarp)

/-- The token that `brk` looks for: the first join token outward whose pc is the target, the search ending at a call token
(05_control.md R104). -/
def Warp.findJoin (w : Warp) (X : Nat) : List Nat → Option Nat
  | [] => none
  | t :: r =>
    if (w.tok t).kind == 2 then none
    else if (w.tok t).kind == 1 && (w.tok t).pc == X then some t
    else w.findJoin X r

/-- `brk` (05_control.md R104). -/
def execBrk (mk : MReg) (c : Bool) (off : Fin 1048576) (s : State) : Result :=
  let i := s.run.split
  let L := s.em &&& s.cond mk c
  if L == 0 then goTo s false off
  else
    match s.hwarp.findJoin (s.target off) (s.hwarp.chain s.hsplit) with
    | none => .next (s.rejoinFault 2)
    | some t =>
      let more := s.em &&& ~~~L != 0
      .next (s.branch (fun w =>
        let w := w.leave i L (some t)
        if more then w.setPc i s.follow else w))

/-- `ret` (05_control.md R106). -/
def execRet (s : State) : Result :=
  match (s.hwarp.chain s.hsplit).find? (fun t => (s.hwarp.tok t).kind == 2) with
  | none => .next (s.rejoinFault 3)
  | some t => .next (s.branch (fun w => w.leave s.run.split s.em (some t)))

/-- `exit` (05_control.md R107). -/
def execExit (s : State) : Result :=
  .next (s.branch (fun w =>
    let w := w.leave s.run.split s.em none
    { w with live := w.live &&& ~~~s.em }))

/-! ### Masks (05_control.md R95) -/

def execMand (d a b : MReg) (s : State) : Result := msk s d (s.hwarp.m a.val &&& s.hwarp.m b.val)
def execMor (d a b : MReg) (s : State) : Result := msk s d (s.hwarp.m a.val ||| s.hwarp.m b.val)
def execMxor (d a b : MReg) (s : State) : Result := msk s d (s.hwarp.m a.val ^^^ s.hwarp.m b.val)
def execMandn (d a b : MReg) (s : State) : Result := msk s d (s.hwarp.m a.val &&& ~~~s.hwarp.m b.val)
def execMfrom (d : MReg) (s : State) : Result := msk s d s.em
def execMto (d a : MReg) (s : State) : Result :=
  msk s d ((s.hwarp.m a.val &&& s.em) ||| (s.hwarp.m d.val &&& ~~~s.em))

/-! ### The slot arbiter -/

/-- CLAUSE_GRANT (02_encoding.md R28). -/
def execClauseGrant (core slot : Nat) (s : State) : Result := .next (grantClause s core slot)

/-- RANK_AGING (05_control.md R112). -/
def execRankAging (core wslot : Nat) (s : State) : Result := .next (ageRank s core wslot)

end Sys2Proof.Machine
end

