-- ==== Sys2Proof/Machine/Memory.lean ====
section
/-! DEFINITION. The load, store, prefetch and invalidate words 0x80 to 0x97 (07_memory.md). -/
namespace Sys2Proof.Machine

/-- The effect of a global word whose checks pass: a request for its visited lanes; an audited block folds its stores, and an
audit replay performs none of them (07_memory.md R155, R164, 11_traps.md R226). -/
def globalEffect (s : State) (kind : ReqKind) (acc : List Acc) (w vd sc ord n : Nat) (data : Nat → Nat) : State :=
  let c := s.hcore
  let ctx := s.hwarp.ctx
  let parts := acc.map (fun a => globalPart s c ctx a (data a.lane))
  let r := { s.newReq kind .global w vd sc ord with parts := parts }
  let isStore := kind == .store || kind == .sstore
  let s1 := fillEcbs s c ctx acc
  let s2 := if isStore then foldSig s1 s.hwarp.blk (parts.map (fun p => (p.addr, leBytes w p.data))) else s1
  (if isStore && s.hblk.isReplay then s2 else s2.enter r).advance n

/-- A global load or store: the checks of R163 over the visited lanes, then its request (07_memory.md R145, R155). -/
def globalWord (s : State) (kind : ReqKind) (w need vd : Nat) (regs data : List Nat) (sb : SReg) (vo : VReg) (disp : Int)
    (sc ord n : Nat) (dataOf : Nat → Nat) : Result :=
  if counterFull s.hwarp kind then .next s
  else if !s.inRange (voRegs vo ++ regs) then .next s.rangeFault
  else
    let acc := (lanesOf s.em).map (fun i => ({ lane := i, va := s.gaddr sb vo disp i } : Acc))
    onVerdict s (globalVerdict s s.hcore s.hwarp.ctx s.hwarp acc w need (voRegs vo ++ data) none)
      (globalEffect s kind acc w vd sc ord n dataOf)

/-- A global load of w bytes per lane. -/
def globalLoad (s : State) (sgn : Bool) (w : Nat) (d : VReg) (sb : SReg) (vo : VReg) (sc : Fin 8) (x : Option Word) : Result :=
  globalWord s (.load sgn) w permR d.val (groupRegs d.val w) [] sb vo (litDisp x) sc.val 0 (litWords x) (fun _ => 0)

/-- A global store of w bytes per lane. -/
def globalStore (s : State) (w : Nat) (d : VReg) (sb : SReg) (vo : VReg) (sc : Fin 8) (x : Option Word) : Result :=
  globalWord s .store w permW d.val (groupRegs d.val w) (groupRegs d.val w) sb vo (litDisp x) sc.val 0 (litWords x)
    (fun i => s.hwarp.group d.val w i)

def execLdN8 (d : VReg) (sb : SReg) (vo : VReg) (sc : Fin 8) (x : Option Word) (s : State) : Result :=
  globalLoad s false 1 d sb vo sc x
def execLdI8 (d : VReg) (sb : SReg) (vo : VReg) (sc : Fin 8) (x : Option Word) (s : State) : Result :=
  globalLoad s true 1 d sb vo sc x
def execLdN16 (d : VReg) (sb : SReg) (vo : VReg) (sc : Fin 8) (x : Option Word) (s : State) : Result :=
  globalLoad s false 2 d sb vo sc x
def execLdI16 (d : VReg) (sb : SReg) (vo : VReg) (sc : Fin 8) (x : Option Word) (s : State) : Result :=
  globalLoad s true 2 d sb vo sc x
def execLdB32 (d : VReg) (sb : SReg) (vo : VReg) (sc : Fin 8) (x : Option Word) (s : State) : Result :=
  globalLoad s false 4 d sb vo sc x
def execLdB64 (d : VReg) (sb : SReg) (vo : VReg) (sc : Fin 8) (x : Option Word) (s : State) : Result :=
  globalLoad s false 8 d sb vo sc x
def execLdB128 (d : VReg) (sb : SReg) (vo : VReg) (sc : Fin 8) (x : Option Word) (s : State) : Result :=
  globalLoad s false 16 d sb vo sc x

def execStB8 (d : VReg) (sb : SReg) (vo : VReg) (sc : Fin 8) (x : Option Word) (s : State) : Result :=
  globalStore s 1 d sb vo sc x
def execStB16 (d : VReg) (sb : SReg) (vo : VReg) (sc : Fin 8) (x : Option Word) (s : State) : Result :=
  globalStore s 2 d sb vo sc x
def execStB32 (d : VReg) (sb : SReg) (vo : VReg) (sc : Fin 8) (x : Option Word) (s : State) : Result :=
  globalStore s 4 d sb vo sc x
def execStB64 (d : VReg) (sb : SReg) (vo : VReg) (sc : Fin 8) (x : Option Word) (s : State) : Result :=
  globalStore s 8 d sb vo sc x
def execStB128 (d : VReg) (sb : SReg) (vo : VReg) (sc : Fin 8) (x : Option Word) (s : State) : Result :=
  globalStore s 16 d sb vo sc x

/-! ### Local levels (07_memory.md R157) -/

/-- The width in bytes of a width code (02_encoding.md R39). -/
def widthOf (wd : Nat) : Nat := [1, 2, 4, 8, 16, 1, 2].getD wd 4

/-- Whether a width code sign-extends. -/
def widthSigned (wd : Nat) : Bool := decide (5 ≤ wd)

/-- Lane i's offset in a level (07_memory.md R157). -/
def State.loff (s : State) (vo : VReg) (d : Word) (i : Nat) : Nat := (s.voff vo i + d).toNat

/-- The level of lane slices: slice bytes of lane i of warp w lie at 2048 × (32w + i) of its block (07_memory.md R141). -/
def laneLevel (s : State) : Level :=
  { space := .slice s.hwarp.blk s.hwarp.widx, base := 0, bound := if s.inHandler then 0 else s.hblk.lane, code := 2, aux := 0 }

/-- The block's scratchpad (07_memory.md R142). -/
def spadLevel (s : State) : Level :=
  { space := .spad s.hwarp.blk, base := 0, bound := if s.inHandler then 0 else s.hblk.spadLen, code := 3, aux := 0 }

/-- The scratchpad of a block of the group that a packed core offset names (02_encoding.md R43, 07_memory.md R143). -/
def cmLevel (s : State) (lit : Word) : Level :=
  let aux := 2 ^ 5 * bitsOf lit.toNat 27 5 + bitsOf lit.toNat 22 5
  match (if s.inHandler then none else groupBlock s s.hwarp.blk (sfield lit.toNat 27 5) (sfield lit.toNat 22 5)) with
  | some b => { space := .spad b, base := 0, bound := (s.blk b).spadLen, code := 4, aux := aux }
  | none => { space := .spad s.hwarp.blk, base := 0, bound := 0, code := 4, aux := aux }

/-- The region's window of a cluster's store (07_memory.md R144). -/
def cstLevel (s : State) (lit : Word) : Level :=
  { space := .store (clusterAt (coreCluster s.hcore) (sfield lit.toNat 29 3)), base := effCsBase s s.hblk.region,
    bound := if s.inHandler then 0 else effCsLen s s.hblk.region, code := 5, aux := 0 }

/-- The interval-lock space of a level; lane slices are never locked (09_extents.md R188). -/
def Level.lock (lv : Level) : Option LockSpace :=
  match lv.space with
  | .spad b => some (.spad b)
  | .store c => some (.store c)
  | _ => none

/-- The place in its level of a lane's bytes. -/
def Level.place (lv : Level) (lane off : Nat) : Nat :=
  match lv.space with
  | .slice _ widx => 2048 * (32 * widx + lane) + off
  | _ => lv.base + off

/-- The address that an audit folds for a byte written outside the block's own storage: 0x2 or 0x3 in [63:60] and the packed
word as issued with the final offset in its offset field (11_traps.md R226). -/
def Level.foldAddr (lv : Level) (lit : Word) (off : Nat) : Nat :=
  if lv.code == 5 then 3 * 2 ^ 60 + (lit.toNat - bitsOf lit.toNat 0 25) + off % 2 ^ 25
  else 2 * 2 ^ 60 + (lit.toNat - bitsOf lit.toNat 0 18) + off % 2 ^ 18

/-- Whether a level is storage that an audit leaves to the block (11_traps.md R226). -/
def Level.own (lv : Level) (s : State) : Bool :=
  match lv.space with
  | .slice _ _ => true
  | .spad b => b == s.hwarp.blk
  | _ => false

/-- A local-level word: the checks of R163, then its request (07_memory.md R157). -/
def localWord (s : State) (kind : ReqKind) (w vd : Nat) (vo : VReg) (lv : Level) (lit disp : Word) (n : Nat) : Result :=
  if counterFull s.hwarp kind then .next s
  else
    let st := kind == .store
    let data := if st then groupRegs vd w else []
    if !s.inRange (voRegs vo ++ groupRegs vd w) then .next s.rangeFault
    else
      let acc := (lanesOf s.em).map (fun i => ({ lane := i, va := s.loff vo disp i } : Acc))
      let parts := acc.map (fun a => Part.new a.lane (lv.place a.lane a.va) a.va (if st then s.hwarp.group vd w a.lane else 0) 0 0)
      let r := { s.newReq kind lv.space w vd 0 0 with parts := parts }
      let s2 := if st && !lv.own s then
          foldSig s s.hwarp.blk (parts.map (fun p => (lv.foldAddr lit p.va, leBytes w p.data))) else s
      onVerdict s (localVerdict s s.hcore s.hwarp acc w st lv lv.lock (voRegs vo ++ data))
        ((if st && !lv.own s && s.hblk.isReplay then s2 else s2.enter r).advance n)

def execLdLane (d : VReg) (vo : VReg) (wd : Fin 8) (x : Option Word) (s : State) : Result :=
  localWord s (.load (widthSigned wd.val)) (widthOf wd.val) d.val vo (laneLevel s) 0 (x.getD 0) (litWords x)
def execStLane (d : VReg) (vo : VReg) (wd : Fin 8) (x : Option Word) (s : State) : Result :=
  localWord s .store (widthOf wd.val) d.val vo (laneLevel s) 0 (x.getD 0) (litWords x)
def execLdSp (d : VReg) (vo : VReg) (wd : Fin 8) (x : Option Word) (s : State) : Result :=
  localWord s (.load (widthSigned wd.val)) (widthOf wd.val) d.val vo (spadLevel s) 0 (x.getD 0) (litWords x)
def execStSp (d : VReg) (vo : VReg) (wd : Fin 8) (x : Option Word) (s : State) : Result :=
  localWord s .store (widthOf wd.val) d.val vo (spadLevel s) 0 (x.getD 0) (litWords x)
def execLdCm (d : VReg) (vo : VReg) (wd : Fin 8) (x : Option Word) (s : State) : Result :=
  localWord s (.load (widthSigned wd.val)) (widthOf wd.val) d.val vo (cmLevel s (x.getD 0)) (x.getD 0) ((x.getD 0) &&& 0x3FFFF) (litWords x)
def execStCm (d : VReg) (vo : VReg) (wd : Fin 8) (x : Option Word) (s : State) : Result :=
  localWord s .store (widthOf wd.val) d.val vo (cmLevel s (x.getD 0)) (x.getD 0) ((x.getD 0) &&& 0x3FFFF) (litWords x)
def execLdCst (d : VReg) (vo : VReg) (wd : Fin 8) (x : Option Word) (s : State) : Result :=
  localWord s (.load (widthSigned wd.val)) (widthOf wd.val) d.val vo (cstLevel s (x.getD 0)) (x.getD 0) ((x.getD 0) &&& 0x1FFFFFF) (litWords x)
def execStCst (d : VReg) (vo : VReg) (wd : Fin 8) (x : Option Word) (s : State) : Result :=
  localWord s .store (widthOf wd.val) d.val vo (cstLevel s (x.getD 0)) (x.getD 0) ((x.getD 0) &&& 0x1FFFFFF) (litWords x)

/-! ### Scalar loads and stores (07_memory.md R158) -/

/-- A scalar access: one access of 4 bytes, whose faults name em. -/
def scalarWord (s : State) (kind : ReqKind) (need vd : Nat) (sb : SReg) (sc : Fin 8) (x : Option Word) (data : Nat) : Result :=
  if counterFull s.hwarp kind then .next s
  else
    let acc : List Acc := [{ lane := 0, va := addOff (s.sbase sb) (litDisp x) }]
    onVerdict s (globalVerdict s s.hcore s.hwarp.ctx s.hwarp acc 4 need [] (some s.em))
      (globalEffect s kind acc 4 vd sc.val 0 (litWords x) (fun _ => data))

def execSldB32 (d sb : SReg) (sc : Fin 8) (x : Option Word) (s : State) : Result := scalarWord s .sload permR d.val sb sc x 0
def execSstB32 (d sb : SReg) (sc : Fin 8) (x : Option Word) (s : State) : Result :=
  scalarWord s .sstore permW d.val sb sc x (s.hwarp.s d.val).toNat

/-! ### Prefetch and invalidation (07_memory.md R159, R160) -/

/-- A sector of a prefetch fills the L1, unless a slide window holds it at its port, its channel or host port is not at hand or an atomic is
being performed on its line: such a sector may arrive later, which changes timing only (07_memory.md R159, 09_extents.md R185,
23_platform.md R407). -/
def prefetchSector (s : State) (core : Nat) (d : Desc) (sec : Nat) : State :=
  let a := max sec d.ent.base
  if d.ent.base + d.ent.len ≤ a ∨ sec + 32 ≤ d.ent.base ∨ recallWait s core (lineKey d.ent.ctx a) then s
  else
    match (if reachesMemory s d a false then memWait s (entryPort (coreCluster core) sec) d a false else none) with
    | some s' => s'
    | none => fillL1 (recallFrom (touchByte s d a false) core (lineKey d.ent.ctx a)) core d a (homeByte s d)

/-- The line of a lane fills the L1 at `.core`, where its access would pass the checks and its bytes are at hand. The checks take the
width of the access as one byte: a prefetch has none (DESIGN CHOICE, log entry 84). -/
def prefetchLane (s : State) (core ctx va : Nat) : State :=
  match coreCheck s core ctx va 1 permR with
  | .ok e =>
    let a := canonical e va
    if (lockHit s core (.global ctx) a 1 false).isSome || !cachedClass e.cls || !lineReady s e.cls (lineKey ctx a) false then s
    else
      match canonDesc s ctx a with
      | .found d => (List.range 4).foldl (fun s i => prefetchSector s core d (a / 128 * 128 + 32 * i)) s
      | _ => s
  | _ => s

/-- Whether the check of a prefetch or an invalidation meets a corrupt extent table (09_extents.md R175). -/
def laneCorrupt (s : State) (core ctx va need : Nat) : Bool :=
  match coreCheck s core ctx va 1 need with
  | .corrupt => true
  | .ok e => canonDesc s ctx (canonical e va) == .corrupt
  | _ => false

/-- `pf`: at `.core` the lines of the visited lanes fill the L1; at other scopes only the home slice, which holds no clean
copies here (log entry 8), takes them. A corrupt extent table is escalated (09_extents.md R175). -/
def execPf (sb : SReg) (vo : VReg) (sc : Fin 8) (x : Option Word) (s : State) : Result :=
  if !s.inRange (voRegs vo) then .next s.rangeFault
  else
    let lanes := (lanesOf s.em).filter (fun i => !laneIn (s.poisonLanes (voRegs vo) s.em) i)
    let va (i : Nat) : Nat := s.gaddr sb vo (litDisp x) i
    if lanes.any (fun i => laneCorrupt s s.hcore s.hwarp.ctx (va i) permR) then .next (deviceError s)
    else
      .next ((if sc.val = 0 then lanes.foldl (fun s' i => prefetchLane s' s.hcore s.hwarp.ctx (va i)) s else s).advance (litWords x))

/-- `cinv`: the visited lanes' lines leave the core's L1. A corrupt extent table is escalated (09_extents.md R175). -/
def execCinv (sb : SReg) (vo : VReg) (x : Option Word) (s : State) : Result :=
  if !s.inRange (voRegs vo) then .next s.rangeFault
  else
    let ctx := s.hwarp.ctx
    let va (i : Nat) : Nat := s.gaddr sb vo (litDisp x) i
    if (lanesOf s.em).any (fun i => laneCorrupt s s.hcore ctx (va i) 0) then .next (deviceError s)
    else
      .next (((lanesOf s.em).foldl (fun s' i =>
        match coreCheck s s.hcore ctx (va i) 1 0 with
        | .ok e => s'.updCore s.hcore (fun k => dropLine k ctx (canonical e (va i)))
        | _ => s') s).advance (litWords x))

end Sys2Proof.Machine
end

