-- ==== Sys2Proof/Machine/Atomics.lean ====
section
/-! DEFINITION. The atomic words 0xA0 to 0xAD, `bred.add.f32` and `ld.bnd` (12_atomics.md R231 to R251), and the steps that move
ownership of a line. -/
namespace Sys2Proof.Machine

/-! ### The operations (12_atomics.md R239) -/

/-- new := f(old) of atomic number `op` (opcode − 0xA0), its inputs in one number, the compare value first. -/
def atomNew (op old data : Nat) : Nat :=
  let x := BitVec.ofNat 32 old
  let y := BitVec.ofNat 32 data
  match op with
  | 0 => (x + y).toNat
  | 1 => fadd f32 .rne x.toNat y.toNat
  | 2 => (minS x y).toNat
  | 3 => (maxS x y).toNat
  | 4 => (minU x y).toNat
  | 5 => (maxU x y).toNat
  | 6 => (x &&& y).toNat
  | 7 => (x ||| y).toNat
  | 8 => y.toNat
  | 9 => if old = data % 2 ^ 32 then data / 2 ^ 32 % 2 ^ 32 else old
  | 10 => (old + data) % 2 ^ 64
  | 11 => data % 2 ^ 64
  | 12 => if old = data % 2 ^ 64 then data / 2 ^ 64 % 2 ^ 64 else old
  | _ => if old = data % 2 ^ 128 then data / 2 ^ 128 % 2 ^ 128 else old

/-- Bytes of the input group of an atomic (12_atomics.md R239). -/
def atomInputs (op : Nat) : Nat := if op = 9 ∨ op = 12 ∨ op = 13 then 2 * atomSize op else atomSize op

/-- Whether PCIe has an AtomicOp for an atomic (12_atomics.md R237). -/
def hasAtomicOp (op : Nat) : Bool := op == 0 || decide (8 ≤ op)

/-- The atomic that a request performs, its size following from its number. -/
def ReqKind.atomOp : ReqKind → Option Nat
  | .atomic op => some op
  | .bred => some 1
  | _ => none

/-! ### Performing lanes -/

/-- The bytes of a part after its atomic step on bytes that `src` supplies, or its error (12_atomics.md R240, R243). -/
def atomStep (op w : Nat) (p : Part) (src : Nat → Byte × Bool) : Part × Option (List Byte) :=
  let l := (List.range w).map (fun i => src (p.addr + i))
  if l.any Prod.snd then (p.performed (0, true), none)
  else
    let old := leNat (l.map Prod.fst)
    (p.performed (old, false), some (leBytes w (atomNew op old p.data)))

/-- A part is replaced in its request. -/
def setPart (s : State) (id : Nat) (p : Part) : State :=
  match s.req id with
  | some r => s.setReq id { r with parts := r.parts.map (fun q => if q.lane = p.lane then p else q) }
  | none => s

/-- A lane of an atomic in the L1 that owns its line: the line's bytes stand at home (log entry 9); those that are read from memory count as
an access there (07_memory.md R150, 23_platform.md R407). -/
def performOwned (s : State) (id : Nat) (r : Req) (p : Part) (op : Nat) : State :=
  match canonDesc s r.ctx p.addr with
  | .found d =>
    let s := (List.range r.w).foldl (fun s i => touchByte s d (p.addr + i) false) s
    let x := atomStep op r.w p (homeByte s d)
    let s := match x.2 with
      | some bs => (homeWrite s d p.addr bs).updCore r.core (fun k => storeL1 k r.ctx p.addr bs)
      | none => s
    setPart s id x.1
  | _ => setPart s id (p.performed (0, true))

/-- The state in which a lane of an atomic on an owned line waits: its slice has no room for the dirty line, or a byte is held on its way
from memory (09_extents.md R185, 11_traps.md R223, 23_platform.md R407). -/
def ownedWait (s : State) (r : Req) (p : Part) : Option State :=
  match canonDesc s r.ctx p.addr with
  | .found d =>
    let port := entryPort (coreCluster r.core) p.addr
    if sliceFull s (lineKey r.ctx p.addr) then some s
    else (List.range r.w).findSome? (fun i =>
      if !reachesMemory s d (p.addr + i) false || byteDead s d (p.addr + i) false then none
      else memWait s port d (p.addr + i) false)
  | _ => none

/-- Whether a lane of a request takes its line into the L1 for an atomic (12_atomics.md R231, R250). -/
def wantsLine (r : Req) (p : Part) : Bool :=
  !p.done && r.space == .global && cachedClass p.cls &&
  (match r.kind with | .atomic _ => true | .bred => p.cls != 1 | _ => false)

/-- Whether a lane of an atomic may be performed on its line, which its core owns. -/
def ownedReady (s : State) (id : Nat) (r : Req) (p : Part) : Bool :=
  let line := lineKey r.ctx p.addr
  wantsLine r p && mget s.mem.owner 0 line == r.core + 1 && lineReady s p.cls line true && partClear s id r p

/-- The lanes of an atomic whose lines its core owns are performed, in a free order (12_atomics.md R235, R240, log entry
16); `only` limits them to one line. Lanes that are held on their way from memory wait, and wake its channels. -/
def performAtoms (s : State) (id : Nat) (r : Req) (only : Option Nat) : State :=
  match r.kind.atomOp with
  | none => s
  | some op =>
    if !reqMayRun s id r then s
    else
      let mine := r.parts.filter (fun p => (only.isNone || only == some (lineKey r.ctx p.addr)) && ownedReady s id r p)
      let ready := mine.filter (fun p => (ownedWait s r p).isNone)
      let s := mine.foldl (fun s p => (ownedWait s r p).getD s) s
      let order := freeOrder s.free ready.length ready
      order.foldl (fun s p => performOwned s id r p op) { s with free := s.free + ready.length }

/-- One lane of an atomic whose line its core owns is performed. -/
def performAtom (s : State) (id : Nat) (r : Req) (p : Part) : State :=
  match r.kind.atomOp with
  | none => s
  | some op =>
    if reqMayRun s id r && ownedReady s id r p then
      match ownedWait s r p with
      | some s' => s'
      | none => performOwned s id r p op
    else s

/-- The owner of a line surrenders it, after every lane on it of an atomic that it is performing (12_atomics.md R232, R235); a lane
that cannot be performed yet keeps the line. -/
def surrender (s : State) (line : Nat) : State :=
  let o := mget s.mem.owner 0 line
  if o = 0 then s
  else
    let s := (mkeys s.mem.reqs).foldl (fun s id => match s.req id with
      | some r => if r.core + 1 = o then performAtoms s id r (some line) else s
      | none => s) s
    if lineBusy s line then s else dropOwner s line

/-! ### The region directory (12_atomics.md R234) -/

/-- The halves that leave the path to a line, from a span down to the line itself. -/
def splitSpan (va : Nat) : Nat → Nat → Nat → List (Nat × Nat)
  | 0, _, _ => []
  | k + 1, base, size =>
    if size ≤ 128 then []
    else
      let h := size / 2
      if va < base + h then (base + h, h) :: splitSpan va k base h else (base, h) :: splitSpan va k (base + h) h

/-- Lines of a directory entry that its owner holds. -/
def entryLines (s : State) (e : DirEntry) : List Nat :=
  mkeys (s.mem.owner.filter (fun p => p.2 == e.core + 1 && lineCtx p.1 == e.ctx && decide (e.base ≤ lineVa p.1) &&
    decide (lineVa p.1 < e.base + e.size) && homeSlice s p.1 == e.slice))

/-- A slice with more than 2,048 entries evicts those whose last request is oldest, and recalls their owned lines; an entry with a line on
which its owner is performing an atomic waits, and so do the entries just made (12_atomics.md R234, R235). -/
def dirEvict : Nat → State → Nat → List DirEntry → State
  | 0, s, _, _ => s
  | k + 1, s, slice, new =>
    if (s.mem.dir.filter (fun e => e.slice == slice)).length ≤ 2048 then s
    else
      let free := s.mem.dir.filter (fun e => e.slice == slice && !new.contains e && !(entryLines s e).any (lineBusy s))
      let oldest := free.foldl (fun (b : Option DirEntry) e => match b with
        | none => some e
        | some x => if x.last < e.last then some e else some x) none
      match oldest with
      | some e =>
        let gone := entryLines s e
        dirEvict k { s with mem := { s.mem with dir := s.mem.dir.erase e
                                                owner := s.mem.owner.filter (fun p => !gone.contains p.1) } } slice new
      | none => s

/-- The directory after a core has taken a line: a span of another owner splits along the path to it; an untracked span is
entered whole; a full directory evicts the entry whose last request is oldest. -/
def dirTake (s : State) (core line : Nat) : State :=
  let slice := homeSlice s line
  let ctx := lineCtx line
  let va := lineVa line
  let inSpan (e : DirEntry) : Bool := e.slice == slice && e.ctx == ctx && decide (e.base ≤ va) && decide (va < e.base + e.size)
  let rest := s.mem.dir.filter (fun e => !inSpan e)
  let add : List DirEntry := match s.mem.dir.find? inSpan with
    | some e =>
      if e.core = core then [{ e with last := 0 }]
      else
        (splitSpan va 10 e.base e.size).filterMap (fun h =>
          if ownsIn s slice ctx h.1 h.2 e.core then some { e with base := h.1, size := h.2 } else none) ++
        [{ slice := slice, ctx := ctx, base := va / 128 * 128, size := 128, core := core, last := 0 }]
    | none => [{ slice := slice, ctx := ctx, base := va / 65536 * 65536, size := 65536, core := core, last := 0 }]
  dirEvict 16 { s with mem := { s.mem with dir := rest ++ add } } slice add

/-! ### Ownership steps -/

/-- Whether a core has an atomic that needs a line. -/
def lineWanted (s : State) (core line : Nat) : Bool :=
  s.mem.reqs.any (fun q => q.2.core == core && q.2.parts.any (fun p => wantsLine q.2 p && lineKey q.2.ctx p.addr == line))

/-- The class of the extent that holds a line. -/
def lineClass (s : State) (line : Nat) : Nat :=
  match lineDesc s line with
  | .found d => d.ent.cls
  | _ => 0

/-- OWNERSHIP_REQUEST (12_atomics.md R232, R236, R249): the home slice grants a line after its owner has surrendered it and its
bounded holders have drained; a host-coherent line is first asked of the host, and a full L1 or a full slice makes it wait (log entry
103). -/
def execOwnershipRequest (core line : Nat) (s : State) : Result :=
  if !lineWanted s core line || mget s.mem.owner 0 line == core + 1 || mailFor s line then .next s
  else if !lineReady s (lineClass s line) line true then .next (askLine s line true)
  else
    let s := surrender s line
    if mget s.mem.owner 0 line ≠ 0 || !hasRoom s core line || sliceFull s line then .next s
    else
      let s := makeRoom (drainLine s line true) core line
      let s := { s with mem := { s.mem with owner := mput s.mem.owner line (core + 1) } }
      .next (dirTidy (dirTake s core line))

/-- RECALL (12_atomics.md R233, R235). -/
def execRecallLine (line : Nat) (s : State) : Result := .next (surrender s line)

/-- LINE_SURRENDER (12_atomics.md R232, R235): the owner writes the line back and no longer holds it; while it is performing an atomic on
the line it keeps it. -/
def execLineSurrender (line : Nat) (s : State) : Result :=
  if lineBusy s line then .next s else .next (dropOwner s line)

/-- DIRECTORY_MERGE (12_atomics.md R234): two sibling entries with one owner merge when neither has seen a request for 65,536
cycles. -/
def execDirectoryMerge (slice base size : Nat) (s : State) : Result :=
  let lower := s.mem.dir.find? (fun e => e.slice == slice && e.base == base && e.size == size && decide (65536 ≤ e.last))
  match lower with
  | none => .next s
  | some e =>
    match s.mem.dir.find? (fun x => x.slice == slice && x.ctx == e.ctx && x.base == base + size && x.size == size && x.core == e.core &&
        decide (65536 ≤ x.last)) with
    | some x =>
      if base % (2 * size) = 0 ∧ size ≤ 32768 then
        .next { s with mem := { s.mem with dir := ((s.mem.dir.erase e).erase x) ++ [{ e with size := 2 * size, last := min e.last x.last }] } }
      else .next s
    | none => .next s

/-- L1_EVICTION (12_atomics.md R233, R245, R253): the line's sectors leave the L1; an owned line is surrendered, a held line
sends drain(release), and a no-share mark ends. -/
def execL1Eviction (core line : Nat) (s : State) : Result :=
  let s := if mget s.mem.owner 0 line = core + 1 then surrender s line else s
  if mget s.mem.owner 0 line = core + 1 then .next s
  else if (mfind (s.core core).held line).isSome && bvalueDue s core line then .next s
  else
    let s := if (mfind (s.core core).held line).isSome then sendDrain s core line true false else s
    .next (s.updCore core (fun k => { dropLine k (lineCtx line) (lineVa line) with noShare := k.noShare.filter (· != line) }))

/-- CXL_CACHE_RESPONSE (12_atomics.md R236): the host grants the outstanding request of a line; RdOwn is granted exclusive, and a
dirty line stays dirty. -/
def execCxlCacheResponse (line : Nat) (exclusive : Bool) (s : State) : Result :=
  match (if cxlUp s then mfind s.mem.cxl line else none) with
  | none => .next s
  | some n =>
    let own := n == 2 || exclusive
    let old := mget s.mem.moesi 0 line
    let new := if own then (if old = 3 ∨ old = 4 then 3 else 2) else if old = 0 then 1 else old
    .next { s with mem := { s.mem with cxl := mdel s.mem.cxl line, moesi := mput s.mem.moesi line new } }

/-- The extents that the dirty bytes of a line lie in. -/
def dirtyDescs (s : State) (line : Nat) : List Walk :=
  let k := byteKey (lineCtx line) (lineVa line)
  (((mkeys s.mem.l2).filter (fun a => decide (k ≤ a) && decide (a < k + 128))).map
    (fun a => canonDesc s (lineCtx line) (lineVa line + (a - k)))).eraseDups

/-- Dirty bytes of a sector in one extent reach memory, each at its place and a whole sector as one write; a narrow write into a sector with
an uncorrectable error is escalated (11_traps.md R221, R222). -/
def flushSector (s : State) (d : Desc) (sec : Nat) : State :=
  let k := byteKey d.ent.ctx sec
  let dirty := s.mem.l2.filter (fun p => decide (k ≤ p.1) && decide (p.1 < k + 32) && decide (byteKey d.ent.ctx d.ent.base ≤ p.1) &&
    decide (p.1 < byteKey d.ent.ctx d.ent.base + d.ent.len))
  let pa (key : Nat) : Nat := devicePlace s d (sec + (key - k) - d.ent.base)
  if dirty.isEmpty then s
  else if dirty.length = 32 then pwrite s (pa k) (dirty.map Prod.snd)
  else if dirty.any (fun p => badSector s (pa p.1 / 32)) then
    escalate s d.ent.ctx d.ent.xid d.ent.cls ((dirty.map (fun p => pa p.1)).headD 0) 1 sec
  else dirty.foldl (fun s p => pwrite s (pa p.1) [p.2]) s

/-- The dirty bytes of a line at its home slice leave it; with `write` they reach memory, each extent's at their own place
(12_atomics.md R236). -/
def flushLine (s : State) (line : Nat) (write : Bool) : State :=
  let k := byteKey (lineCtx line) (lineVa line)
  let s := if write then (dirtyDescs s line).foldl (fun s w => match w with
      | .found d => (List.range 4).foldl (fun s i => flushSector s d (lineVa line + 32 * i)) s
      | .corrupt => noteUpset s .corrupt
      | .none => s) s
    else s
  { s with mem := { s.mem with l2 := s.mem.l2.filter (fun p => !(decide (k ≤ p.1) && decide (p.1 < k + 128))) } }

/-- The state of a host-coherent line. -/
def lineMoesi (s : State) (line n : Nat) : State := { s with mem := { s.mem with moesi := mset 0 s.mem.moesi line n } }

/-- SNPDATA (12_atomics.md R236): E becomes S, M becomes O, others stay. -/
def execSnpdata (line : Nat) (s : State) : Result :=
  let s := surrender s line
  let st := mget s.mem.moesi 0 line
  if lineBusy s line then .next s else .next (lineMoesi s line (if st = 2 then 1 else if st = 3 then 4 else st))

/-- SNPINV (12_atomics.md R236): the host takes a dirty line's data; the line leaves the slice and every L1. -/
def execSnpinv (line : Nat) (s : State) : Result :=
  let s := surrender s line
  let st := mget s.mem.moesi 0 line
  if st = 0 ∨ lineBusy s line then .next s
  else .next (dropLineAll (lineMoesi (flushLine s line (st == 3 || st == 4)) line 0) line)

/-! ### The words -/

/-- ord and displacement of an atomic control word (02_encoding.md R42). -/
def ctlOrd (x : Option Word) : Nat := bitsOf (x.getD 0).toNat 30 2
def ctlDisp (x : Option Word) : Int := sfield (x.getD 0).toNat 0 8

/-- Parts on host-noncoherent extents without an AtomicOp are not performed (12_atomics.md R237). -/
def hostParts (op : Nat) (p : Part) : Part := if p.cls == 3 && !hasAtomicOp op then { p with done := true, np := true } else p

/-- An atomic word (12_atomics.md R239 to R243). -/
def atomWord (s : State) (op : Nat) (d : VReg) (sb : SReg) (vo : VReg) (sc : Fin 8) (x : Option Word) : Result :=
  let w := atomSize op
  let regs := groupRegs d.val (atomInputs op)
  if s.hblk.auditable then .next s.illegal
  else if counterFull s.hwarp (.atomic op) then .next s
  else if !s.inRange (voRegs vo ++ regs) then .next s.rangeFault
  else
    let c := s.hcore
    let ctx := s.hwarp.ctx
    let acc := (lanesOf s.em).map (fun i => ({ lane := i, va := s.gaddr sb vo (ctlDisp x) i } : Acc))
    let parts := acc.map (fun a => hostParts op (globalPart s c ctx a (s.hwarp.group d.val (atomInputs op) a.lane)))
    let r := { s.newReq (.atomic op) .global w d.val sc.val (ctlOrd x) with parts := parts }
    onVerdict s (globalVerdict s c ctx s.hwarp acc w (permR ||| permW) (voRegs vo ++ regs) none)
      (((fillEcbs s c ctx acc).enter r).advance (litWords x))

def execAtomAddI32 (d : VReg) (sb : SReg) (vo : VReg) (sc : Fin 8) (x : Option Word) (s : State) : Result := atomWord s 0 d sb vo sc x
def execAtomAddF32 (d : VReg) (sb : SReg) (vo : VReg) (sc : Fin 8) (x : Option Word) (s : State) : Result := atomWord s 1 d sb vo sc x
def execAtomMinI32 (d : VReg) (sb : SReg) (vo : VReg) (sc : Fin 8) (x : Option Word) (s : State) : Result := atomWord s 2 d sb vo sc x
def execAtomMaxI32 (d : VReg) (sb : SReg) (vo : VReg) (sc : Fin 8) (x : Option Word) (s : State) : Result := atomWord s 3 d sb vo sc x
def execAtomMinN32 (d : VReg) (sb : SReg) (vo : VReg) (sc : Fin 8) (x : Option Word) (s : State) : Result := atomWord s 4 d sb vo sc x
def execAtomMaxN32 (d : VReg) (sb : SReg) (vo : VReg) (sc : Fin 8) (x : Option Word) (s : State) : Result := atomWord s 5 d sb vo sc x
def execAtomAndB32 (d : VReg) (sb : SReg) (vo : VReg) (sc : Fin 8) (x : Option Word) (s : State) : Result := atomWord s 6 d sb vo sc x
def execAtomOrB32 (d : VReg) (sb : SReg) (vo : VReg) (sc : Fin 8) (x : Option Word) (s : State) : Result := atomWord s 7 d sb vo sc x
def execAtomXchgB32 (d : VReg) (sb : SReg) (vo : VReg) (sc : Fin 8) (x : Option Word) (s : State) : Result := atomWord s 8 d sb vo sc x
def execAtomCasB32 (d : VReg) (sb : SReg) (vo : VReg) (sc : Fin 8) (x : Option Word) (s : State) : Result := atomWord s 9 d sb vo sc x
def execAtomAddI64 (d : VReg) (sb : SReg) (vo : VReg) (sc : Fin 8) (x : Option Word) (s : State) : Result := atomWord s 10 d sb vo sc x
def execAtomXchgB64 (d : VReg) (sb : SReg) (vo : VReg) (sc : Fin 8) (x : Option Word) (s : State) : Result := atomWord s 11 d sb vo sc x
def execAtomCasB64 (d : VReg) (sb : SReg) (vo : VReg) (sc : Fin 8) (x : Option Word) (s : State) : Result := atomWord s 12 d sb vo sc x
def execAtomCasB128 (d : VReg) (sb : SReg) (vo : VReg) (sc : Fin 8) (x : Option Word) (s : State) : Result := atomWord s 13 d sb vo sc x

/-- `bred.add.f32` (12_atomics.md R250). -/
def execBredAddF32 (d : VReg) (sb : SReg) (vo : VReg) (sc : Fin 8) (x : Option Word) (s : State) : Result :=
  if s.hblk.auditable then .next s.illegal
  else if counterFull s.hwarp .bred then .next s
  else if !s.inRange (voRegs vo ++ [d.val]) then .next s.rangeFault
  else
    let c := s.hcore
    let ctx := s.hwarp.ctx
    let acc := (lanesOf s.em).map (fun i => ({ lane := i, va := s.gaddr sb vo (ctlDisp x) i } : Acc))
    let parts := acc.map (fun a => hostParts 1 (globalPart s c ctx a (s.hwarp.v d.val a.lane).toNat))
    let r := { s.newReq .bred .global 4 d.val sc.val (ctlOrd x) with parts := parts }
    onVerdict s (globalVerdict s c ctx s.hwarp acc 4 permW (voRegs vo ++ [d.val]) none)
      (((fillEcbs s c ctx acc).enter r).advance (litWords x))

/-- `ld.bnd` (12_atomics.md R251): −0 is taken as +0; its bloads leave with it where nothing holds them back. -/
def execLdBnd (d : VReg) (sb : SReg) (vo : VReg) (sc : Fin 8) (x : Option Word) (s : State) : Result :=
  let eps := if (x.getD 0).toNat = 0x80000000 then 0 else (x.getD 0).toNat
  if counterFull s.hwarp (.bnd eps) then .next s
  else if !s.inRange (voRegs vo ++ [d.val]) then .next s.rangeFault
  else
    let c := s.hcore
    let ctx := s.hwarp.ctx
    let acc := (lanesOf s.em).map (fun i => ({ lane := i, va := s.gaddr sb vo 0 i } : Acc))
    let parts := acc.map (fun a => globalPart s c ctx a 0)
    let r := { s.newReq (.bnd eps) .global 4 d.val sc.val 0 with parts := parts }
    let id := s.work.next
    onVerdict s (globalVerdict s c ctx s.hwarp acc 4 permR (voRegs vo) none)
      ((sendBloads ((fillEcbs s c ctx acc).enter r) id r).advance (litWords x))

end Sys2Proof.Machine
end

