-- ==== Sys2Proof/Machine/Barriers.lean ====
section
/-! DEFINITION. Barrier instructions, counter waits and `bdrain` (10_sync.md R195 to R209, 12_atomics.md R252, 15_remote.md R308,
18_prog_bounded.md R331). -/
namespace Sys2Proof.Machine

/-! ### Objects of a warp -/

/-- Whether an object lies outside a block's own area (10_sync.md R200). -/
def ObjRef.foreignTo (r : ObjRef) (blk : Nat) : Bool :=
  match r with
  | .area b _ => b != blk
  | .store _ _ => true

/-- A warp's foreign list with an address entered; none when it would be a fifth (10_sync.md R200). -/
def Warp.enterForeign (w : Warp) (r : ObjRef) (a : Word) : Option Warp :=
  if !r.foreignTo w.blk || w.foreign.contains a then some w
  else if w.foreign.length < 4 then some { w with foreign := w.foreign ++ [a] }
  else none

/-- The acquire of a wait at a scope (10_sync.md R208). -/
def acquireAt (s : State) (core ctx sc : Nat) : State := if 1 ≤ sc ∧ sc ≤ 4 then dropL1 s core ctx else s

/-- The status of a barrier that is neither abandoned nor uninitialised: done, or barrier-error (10_sync.md R203). -/
def BarObj.erStatus (o : BarObj) : Nat := if o.er then 2 else 0

/-- The failed packets that a release covers: those posted by words before it (15_remote.md R308). -/
def Warp.failedBefore (w : Warp) (id : Nat) : List Nat := (w.failed.filter (fun p => decide (p.1 < id))).map Prod.snd

/-- The fence status [23:16] of a release at `.dom` or `.sys`: fence-error when a covered packet has failed; the failed packets
leave the warp's list (15_remote.md R308). -/
def Warp.fenceStatus (id : Nat) (w : Warp) : Warp :=
  { w with status := w.status &&& 0xFF00FFFF ||| (if (w.failedBefore id).isEmpty then 0 else 0x00010000)
           failed := w.failed.filter (fun p => !decide (p.1 < id)) }

/-- A count of 16 bits after one more: beyond its width the spec states no value (log entry 35). -/
def State.count16 (s : State) (n : Nat) : Nat × State :=
  if n < 65535 then (n + 1, s) else (Config.freeNat s.free % 65536, { s with free := s.free + 1 })

/-- A barrier address word is checked, then the object's flags, then the foreign list when the word enters it; an audit replay
performs nothing at a foreign object (10_sync.md R195, R200, R202, R203, 11_traps.md R226). That barrier-uninit comes before
barrier-abandoned, and that a word so answered enters nothing in the list, are the choices of log entry 100. A warp whose arrival
waits holds its later barrier words (18_prog_bounded.md R331). -/
def barWord (s : State) (sb d : SReg) (init enter : Bool) (act : State → ObjRef → BarObj → State) : Result :=
  let w := s.hwarp
  let a := w.s sb.val
  if !w.arrivals.isEmpty then .next s
  else
    match barAddr s s.hcore w.blk s.inHandler a.toNat with
    | .limit => .next (s.raise { cls := clsLimit, lanes := s.em, sva := a.toNat, space := 6 })
    | .misaligned => .next (s.raise { cls := clsMisaligned, lanes := s.em, sva := a.toNat, space := 6, detail := 32 })
    | .ok r =>
      let o := objGet s r
      if s.hblk.isReplay && r.foreignTo w.blk then .next (s.status d 0 1)
      else if !init && o.exparr == 0 then .next (s.status d 4 1)
      else if !init && o.ab then .next (s.status d 1 1)
      else if enter then
        match w.enterForeign r a with
        | some w' => .next (act (s.setWarp s.hcore s.run.wslot w') r o)
        | none => .next (s.status d 6 1)
      else .next (act s r o)

/-! ### Waiters -/

/-- A blocked split's word completes with a status. -/
def finishStatus (s : State) (core wslot split d st : Nat) : State :=
  unblock (s.updWarp core wslot (fun w => w.setStatus d st)) core wslot split 1

/-- The end of a `bar.wait` whose phase has passed, or else whose object is abandoned: a waiter that an advance has woken completes with
its acquire, whatever abandons the object later (10_sync.md R198, R205). -/
def endBarWait (s : State) (core wslot split : Nat) (r : ObjRef) (p : Word) (d : Nat) : State :=
  let o := objGet s r
  if passed o.phase p.toNat then
    finishStatus (acquireAt s core (s.warp core wslot).ctx o.scope) core wslot split d o.erStatus
  else if o.ab then finishStatus s core wslot split d 1
  else s

/-- Warps blocked on an object that is initialised complete with barrier-abandoned; those whose phase had passed had been woken
by that advance, whatever abandoned the object later (10_sync.md R198, R205, R206). -/
def abandonWaiters (s : State) (r : ObjRef) : State :=
  (mkeys s.warps).foldl (fun s k =>
    (List.range 8).foldl (fun s i =>
      match ((s.warp (k / 33) (k % 33)).split i).on with
      | .bar r' p d =>
        if r' = r then
          if passed (objGet s r).phase p.toNat then endBarWait s (k / 33) (k % 33) i r p d
          else finishStatus s (k / 33) (k % 33) i d 1
        else s
      | _ => s) s) s

/-! ### The release of an arrival (10_sync.md R204) -/

/-- An arrival or drop is counted at its object; a drop is then tested for a bad count once more (DESIGN CHOICE, log entry 100). -/
def countArrival (s : State) (core wslot : Nat) (a : Arrival) : State :=
  let o := objGet s a.obj
  let put (st : Nat) (s : State) : State := s.updWarp core wslot (fun w => w.setStatus a.d st)
  let s := if 3 ≤ o.scope then s.updWarp core wslot (Warp.fenceStatus a.id) else s
  if o.exparr == 0 then put 4 s
  else if o.ab then put 1 s
  else if a.drop && decide (o.exparr ≤ o.drops + 1) then put 5 s
  else
    let (arr, s) := s.count16 o.arr
    let o' : BarObj := { o with arr := arr, drops := if a.drop then o.drops + 1 else o.drops }
    let s := objPut s a.obj (advanceObj o')
    if a.drop then put 0 (s.updWarp core wslot (fun w => { w with foreign := w.foreign.erase a.addr }))
    else put o.erStatus (s.updWarp core wslot (fun w => w.setS a.sv (BitVec.ofNat 32 o.phase)))

/-- An arrival is counted at once when its release has nothing to wait for, else when it has (10_sync.md R204, log entry 10). -/
def arriveOn (s : State) (drop : Bool) (sb sv d : SReg) (r : ObjRef) (o : BarObj) : State :=
  let (id, s) := s.fresh
  let a : Arrival := { obj := r, addr := s.hwarp.s sb.val, drop := drop, d := d.val, sv := sv.val, id := id }
  (if releaseDone s s.hcore s.run.wslot id o.scope then countArrival s s.hcore s.run.wslot a
   else s.updHere (fun w => { w with arrivals := w.arrivals ++ [a] })).advance 1

/-! ### The words 0xB0 to 0xB5 (10_sync.md R203) -/

def execBarInit (sb sv d : SReg) (sc : Fin 8) (s : State) : Result :=
  barWord s sb d true false (fun s r _ =>
    let n := (s.hwarp.s sv.val).toNat
    if n = 0 ∨ 2 ^ 16 ≤ n then s.status d 5 1
    else (objPut (abandonWaiters s r) r { exparr := n, scope := sc.val }).status d 0 1)

def execBarArrive (sb sv d : SReg) (s : State) : Result :=
  barWord s sb d false true (fun s r o => arriveOn s false sb sv d r o)

def execBarExpect (sb sv d : SReg) (s : State) : Result :=
  barWord s sb d false true (fun s r o =>
    let n := o.expb + (s.hwarp.s sv.val).toNat
    if 2 ^ 48 ≤ n then (objPut s r (advanceObj { o with er := true })).status d 2 1
    else (objPut s r (advanceObj { o with expb := n })).status d 0 1)

/-- `bar.wait` (10_sync.md R205). -/
def execBarWait (sb sv d : SReg) (s : State) : Result :=
  barWord s sb d false true (fun s r _ =>
    let p := s.hwarp.s sv.val
    endBarWait (s.block (.bar r p d.val)) s.hcore s.run.wslot s.run.split r p d.val)

def execBarTest (sb sv d : SReg) (s : State) : Result :=
  barWord s sb d false true (fun s _ o =>
    if passed o.phase (s.hwarp.s sv.val).toNat then (acquireAt s s.hcore s.hwarp.ctx o.scope).status d o.erStatus 1
    else s.status d 3 1)

def execBarDrop (sb d : SReg) (s : State) : Result :=
  barWord s sb d false false (fun s r o =>
    if o.exparr ≤ o.drops + 1 then s.status d 5 1 else arriveOn s true sb sb d r o)

/-- The armed task of a TCB. -/
def armedTask (s : State) (ctx tcb : Nat) : Option (Nat × Task) :=
  s.work.tasks.find? (fun p => p.2.ctx == ctx && p.2.tcb == tcb && (p.2.st == 1 || p.2.st == 2))

/-- A `wdone` whose release has been performed counts its block done and answers; a block that has been reported or whose task is no
longer armed gives bad-block (21_work.md R380). -/
def countDone (s : State) (core wslot : Nat) (a : WDone) : State :=
  let s := s.updWarp core wslot (Warp.fenceStatus a.id)
  let b := (s.warp core wslot).blk
  match s.task a.task with
  | some t =>
    if (t.st == 1 || t.st == 2) && (s.blk b).took.contains (a.task, a.no, false) then
      let s := s.updBlk b (fun x => { x with took := x.took.map (fun y => if y == (a.task, a.no, false) then (a.task, a.no, true) else y) })
      (tcbCount s t 0x4C 1).updWarp core wslot (fun w => w.setStatus a.d 0)
    else s.updWarp core wslot (fun w => w.setStatus a.d 4)
  | none => s.updWarp core wslot (fun w => w.setStatus a.d 4)

/-- The oldest `wdone` of a warp whose release is done is counted. -/
def serveDone (s : State) (core wslot : Nat) : State :=
  match (s.warp core wslot).dones with
  | a :: r =>
    if releaseDone s core wslot a.id 4 then countDone (s.updWarp core wslot (fun w => { w with dones := r })) core wslot a else s
  | [] => s

/-- ARRIVAL_COUNTED (10_sync.md R204): the oldest arrival of a warp, or its oldest `wdone` (21_work.md R380), is counted once its
release is done. -/
def execArrivalCounted (core wslot : Nat) (s : State) : Result :=
  match (s.warp core wslot).arrivals with
  | a :: r =>
    if releaseDone s core wslot a.id (objGet s a.obj).scope then
      .next (countArrival (s.updWarp core wslot (fun w => { w with arrivals := r })) core wslot a)
    else .next (serveDone s core wslot)
  | [] => .next (serveDone s core wslot)

/-! ### `wait` and `bdrain` (10_sync.md R207, R208, 12_atomics.md R252) -/

/-- Whether the release of a wait at a scope has nothing more to wait for: stores of the warp that have completed are applied, and
at `.dom` and `.sys` its remote stores are acknowledged (10_sync.md R208, 15_remote.md R308). -/
def waitReleased (s : State) (core wslot sc : Nat) : Bool :=
  decide (sc = 0) || decide (5 ≤ sc) ||
  (s.mem.reqs.all (fun q => !(q.2.core == core && q.2.wslot == wslot && q.2.fell)) &&
   (decide (sc < 3) ||
     (s.fab.posts.all (fun q => !(q.2.core == core && q.2.wslot == wslot)) &&
      s.fab.words.all (fun q => !(q.2.core == core && q.2.wslot == wslot &&
        (q.2.op == 3 || q.2.op == 4 || q.2.op == 6 || q.2.op == 7))))))

/-- Whether a warp's counters are at or below the values that a `wait` names. -/
def Warp.countersMet (w : Warp) (ld st cp tl rm : Nat) : Bool :=
  waitMet w.ld ld 31 && waitMet w.st st 31 && waitMet w.cp cp 7 && waitMet w.tl tl 7 && waitMet w.rm rm 7

/-- A blocked word of one word raises a fault: its split stands in state 1 at it (10_sync.md R209). -/
def faultBlocked (s : State) (core wslot split : Nat) (f : FaultInfo) : State :=
  let w := s.warp core wslot
  let sp := w.split split
  let t : FaultSite := { core := core, wslot := wslot, warp := w.widx, blk := w.blk, split := split, pc := sp.pc, cidx := sp.word,
                         n := sp.bn, len := 1, ctx := w.ctx, imp := false }
  faultAt (s.updWarp core wslot (fun w => w.setSplit split { sp with state := 1, on := .none, bn := 0 })) t f

/-- The end of a `wait` whose counters have fallen: the release, a deferred error (07_memory.md R167), the acquire, and a
fence-error that the warp traps on (10_sync.md R207, 15_remote.md R308). -/
def endWait (s : State) (core wslot split ld st cp tl rm sc : Nat) : State :=
  let w := s.warp core wslot
  if !w.countersMet ld st cp tl rm || !waitReleased s core wslot sc then s
  else
    match deferredRaise w ld st tl with
    | some (f, w') => faultBlocked (s.setWarp core wslot w') core wslot split f
    | none =>
      let s := acquireAt s core w.ctx sc
      if sc = 3 ∨ sc = 4 then
        let bad := w.failedBefore s.work.next
        let s := s.updWarp core wslot (Warp.fenceStatus s.work.next)
        match bad with
        | p :: _ =>
          if w.status.getLsbD 0 then
            faultBlocked s core wslot split
              { cls := clsFence, lanes := (w.split split).mask, detail := min bad.length (2 ^ 32 - 1), aux := p }
          else unblock s core wslot split 1
        | [] => unblock s core wslot split 1
      else unblock s core wslot split 1

/-- The end of a `bdrain`: the L1's deltas of the context are sent, those that have come back to +0 among them; when they and every add it sent
have been applied, the release follows (12_atomics.md R252). -/
def endBdrain (s : State) (core wslot split sc : Nat) : State :=
  let ctx := (s.warp core wslot).ctx
  let mine (line : Nat) : Bool := lineCtx line == ctx
  let open' (h : Held) : Bool := !h.d.isEmpty || h.t != 0
  let due := (s.core core).held.filter (fun p => mine p.1 && open' p.2)
  let s := due.foldl (fun s p => if bvalueDue s core p.1 then s else sendDrain s core p.1 false false) s
  if (s.core core).held.any (fun p => mine p.1 && open' p.2) || s.mem.mail.any (fun p => p.2.core == core &&
      (match p.2.msg with | .add _ _ => true | .drain _ _ _ => mine p.2.line | _ => false)) || !waitReleased s core wslot sc then s
  else unblock (if sc = 3 ∨ sc = 4 then s.updWarp core wslot (Warp.fenceStatus s.work.next) else s) core wslot split 1

def execWait (ld st : Fin 32) (cp tl rm sc : Fin 8) (s : State) : Result :=
  .next (endWait (s.block (.counters ld.val st.val cp.val tl.val rm.val sc.val)) s.hcore s.run.wslot s.run.split
    ld.val st.val cp.val tl.val rm.val sc.val)

def execBdrain (sc : Fin 8) (s : State) : Result :=
  .next (endBdrain (s.block (.bdrain sc.val)) s.hcore s.run.wslot s.run.split sc.val)

end Sys2Proof.Machine
end

