-- ==== Sys2Proof/Machine/MemDone.lean ====
section
/-! DEFINITION. The completion of loads, atomics and stores, and the application of queued stores at home (07_memory.md R149,
R156; 12_atomics.md R242, R246, R251). -/
namespace Sys2Proof.Machine

/-- Whether every part of a request is performed. -/
def Req.allDone (r : Req) : Bool := r.parts.all Part.done

/-- Whether a load's part is served by the L1 alone. -/
def l1Serves (s : State) (r : Req) (p : Part) : Bool := r.sc == 0 && (l1Read (s.core r.core) r.ctx p.addr r.w).isSome

/-- A load's part that is served beyond the L1: owners of its lines are recalled (12_atomics.md R233), and the sectors that it read fill
the L1 (07_memory.md R149, R156). -/
def refill (s : State) (r : Req) (p : Part) : State :=
  if p.done || r.space != .global || l1Serves s r p || !cachedClass p.cls then s
  else
    match canonDesc s r.ctx p.addr with
    | .found d =>
      let s := (partLines r p).foldl (fun s l => recallFrom s r.core l) s
      ([p.addr / 32, (p.addr + r.w - 1) / 32].eraseDups).foldl (fun s x => fillL1 s r.core d (max (32 * x) p.addr) (homeByte s d)) s
    | _ => s

/-- A load whose every part can be performed completes (07_memory.md R156). -/
def completeLoad (s : State) (id : Nat) (r : Req) : State :=
  if !reqMayRun s id r then s
  else
    let ps := r.parts.map (loadPart s id r)
    if ps.any Option.isNone then s
    else finishReq (r.parts.foldl (fun s p => refill s r p) s) id { r with parts := ps.filterMap (fun p => p) }

/-- One lane of a request lands before its instruction completes: a load's or an atomic's lane in its registers, one byte of a local store
at its level (02_encoding.md R29, 16_ordering.md R312, R319). -/
def landLane (s : State) (id lane byte : Nat) : State :=
  match s.req id with
  | none => s
  | some r =>
    match r.parts.find? (fun p => p.lane == lane) with
    | none => s
    | some p =>
      let write (s : State) (p : Part) : State :=
        if p.landed != 0 || p.np then setPart s id p
        else setPart (if r.live then s.updWarp r.core r.wslot (fun w => w.takePart r p) else s) id { p with landed := 1 }
      match r.kind with
      | .load _ =>
        if !reqMayRun s id r then s
        else
          match loadPart s id r p with
          | some x => write (refill s r p) x
          | none => s
      | .atomic _ | .bnd _ => if p.done then write s p else performAtom s id r p
      | .store =>
        if r.space == .global || p.done || r.w ≤ byte || bitsOf p.landed byte 1 == 1 || !partClear s id r p then s
        else setPart (localStore s id r.space (p.addr + byte) [BitVec.ofNat 8 (p.data / 2 ^ (8 * byte))]) id { p with landed := p.landed + 2 ^ byte }
      | .bred => performAtom s id r p
      | .sload | .sstore | .scale _ _ _ => s

/-- A `ld.bnd` asks for its bounded lines; with their values it completes (12_atomics.md R251). -/
def completeBnd (s : State) (id : Nat) (r : Req) : State :=
  let s := sendBloads s id r
  if r.parts.any (fun p => p.cls == 1 && !p.done) then s else completeLoad s id r

/-- The host-coherent lines that the lanes of an atomic still need wait for a CXL port that is down (23_platform.md R390). -/
def waitLines (s : State) (id : Nat) (r : Req) : State :=
  if cxlUp s then s
  else (r.parts.filter (fun p => wantsLine r p && !lineReady s p.cls (lineKey r.ctx p.addr) true)).foldl
    (fun s p => match s.req id with | some r => askOrWait s id r p (lineKey r.ctx p.addr) true | none => s) s

/-- An atomic performs the lanes whose lines its core owns, and completes with its last lane (12_atomics.md R242). -/
def completeAtomic (s : State) (id : Nat) (r : Req) : State :=
  let s := waitLines (performAtoms s id r none) id r
  match s.req id with
  | some r => if r.allDone then finishReq s id r else s
  | none => s

/-- LOAD_COMPLETE (07_memory.md R156, 12_atomics.md R242, R251). -/
def execLoadComplete (req : Nat) (s : State) : Result :=
  match s.req req with
  | none => .next s
  | some r =>
    match r.kind with
    | .load _ | .sload | .scale _ _ _ => .next (completeLoad s req r)
    | .atomic _ => .next (completeAtomic s req r)
    | .bnd _ => .next (completeBnd s req r)
    | .store | .sstore | .bred => .next s

/-! ### Stores -/

/-- A store of cached classes enters the write-through queue, where its place among the warp's accesses allows; the L1 sectors
that are present take its bytes (07_memory.md R149). -/
def enqueueStore (s : State) (id : Nat) (r : Req) : State :=
  let cached := r.parts.filter (fun p => cachedClass p.cls)
  if r.queued != 0 || cached.isEmpty || !cached.all (fun p => partClear s id r p) then s
  else
    let s := cached.foldl (fun s p => s.updCore r.core (fun k => storeL1 k r.ctx p.addr (leBytes r.w p.data))) s
    let n := s.mem.nextQ + 1
    { s.setReq id { r with queued := n } with mem := { (s.setReq id { r with queued := n }).mem with nextQ := n } }

/-- Whether an older queued store of the core covers a byte of a part and has not been applied (07_memory.md R149). -/
def olderQueued (s : State) (id : Nat) (r : Req) (p : Part) : Bool :=
  s.mem.reqs.any (fun q => q.1 != id && q.2.core == r.core && q.2.ctx == r.ctx && q.2.queued != 0 && decide (q.2.queued < r.queued) &&
    q.2.parts.any (fun x => !x.done && decide (x.addr < p.addr + r.w) && decide (p.addr < x.addr + q.2.w)))

/-- Whether a part's write fails: it is narrower than a sector that returns an uncorrectable error, counted with the other lanes' bytes in
that sector (11_traps.md R222). -/
def partBad (s : State) (r : Req) (parts : List Part) (p : Part) : Bool :=
  match canonDesc s r.ctx p.addr with
  | .found d => ([p.addr / 32, (p.addr + r.w - 1) / 32].eraseDups).any (fun x =>
      narrowError s d (32 * x) ((List.range 32).filter (fun i => parts.any (fun q => decide (q.addr ≤ 32 * x + i) &&
        decide (32 * x + i < q.addr + r.w)))).length)
  | _ => false

/-- The bytes of one lane are written at home, or fail with their sector; a corrupt table is escalated (09_extents.md R175). -/
def applyPart (s : State) (id : Nat) (r : Req) (p : Part) (bad : Bool) : State :=
  match canonDesc s r.ctx p.addr with
  | .found d =>
    if bad then setPart s id (p.performed (0, true))
    else setPart (homeWrite s d p.addr (leBytes r.w p.data)) id (p.performed (0, false))
  | .corrupt => setPart (deviceError s) id (p.performed (0, true))
  | .none => setPart s id (p.performed (0, true))

/-- A store that has completed and been applied leaves; its warp takes its deferred error (07_memory.md R167). -/
def settleStore (s : State) (id : Nat) : State :=
  match s.req id with
  | some r => if r.fell && r.allDone then finishReq s id r else s
  | none => s

/-- Whether the home slice of a line of a store's part can serve it: no message of a bounded line is in flight, no owner is performing an
atomic, the host has granted the line, the slice has room for a dirty line (12_atomics.md R235, R236, R249). -/
def homeOpen (s : State) (core : Nat) (cls line : Nat) : Bool :=
  !(cls == 1 && mailFor s line) && !recallWait s core line && lineReady s cls line true && !sliceFull s line

/-- A queued store's bytes in one sector are applied at its home point of coherence: holders of a bounded line drain first, an
owner is recalled, a host-coherent line is asked for; a narrow write of a poisoned sector is an error on its own bytes
(07_memory.md R149, 11_traps.md R222, 12_atomics.md R233, R236, R249). -/
def applySector (s : State) (id sector : Nat) (r : Req) : State :=
  let parts := r.parts.filter (fun p => !p.done && cachedClass p.cls && p.addr / 32 == sector)
  let lines := (parts.map (partLines r)).flatten.eraseDups
  if parts.isEmpty || r.queued == 0 || parts.any (olderQueued s id r) then s
  else
    match parts.find? (fun p => !(partLines r p).all (fun l => lineReady s p.cls l true)) with
    | some p => (partLines r p).foldl (fun s l => match s.req id with
        | some r => if lineReady s p.cls l true then s else askOrWait s id r p l true
        | none => s) s
    | none =>
      if !parts.all (fun p => (partLines r p).all (homeOpen s r.core p.cls)) then s
      else
        let s := lines.foldl (fun s l => recallFrom s r.core l) s
        let s := parts.foldl (fun s p => if p.cls == 1 then (partLines r p).foldl (fun s l => drainLine s l false) s else s) s
        settleStore (parts.foldl (fun s p => applyPart s id r p (partBad s r parts p)) s) id

/-- WRITE_THROUGH_APPLY (07_memory.md R149). -/
def execWriteThroughApply (req sector : Nat) (s : State) : Result :=
  match s.req req with
  | none => .next s
  | some r =>
    if (r.kind == .store || r.kind == .sstore) && r.space == .global then
      let s1 := enqueueStore s req r
      match s1.req req with
      | some r => .next (if r.queued == 0 then s else applySector s1 req sector r)
      | none => .next s
    else .next s

/-- A store's counter falls, and a store that has been applied leaves. -/
def fallStore (s : State) (id : Nat) (r : Req) : State :=
  if r.allDone then finishReq s id r else (lowerCounter s r).setReq id { r with fell := true }

/-- A global store completes: at `.core` when its cached bytes are in the write-through queue, at wider scopes when they have been
applied; bytes of other classes when they have been performed (07_memory.md R156). -/
def completeStore (s : State) (id : Nat) (r : Req) : State :=
  if r.fell then s
  else
    let s1 := enqueueStore s id r
    match s1.req id with
    | some r =>
      let ready := if r.sc == 0 then r.parts.all (fun p => p.done || (cachedClass p.cls && r.queued != 0)) else r.allDone
      if ready then fallStore s1 id r else s1
    | none => s

/-- The bytes of a lane of a local store that have not landed are written. -/
def localRest (s : State) (id : Nat) (r : Req) (p : Part) : State :=
  if p.landed = 0 then localStore s id r.space p.addr (leBytes r.w p.data)
  else (List.range r.w).foldl (fun s j =>
    if bitsOf p.landed j 1 == 1 then s else localStore s id r.space (p.addr + j) [BitVec.ofNat 8 (p.data / 2 ^ (8 * j))]) s

/-- A local store's bytes are written at their level (07_memory.md R157). -/
def completeLocal (s : State) (id : Nat) (r : Req) : State :=
  if r.parts.all (fun p => partClear s id r p) then
    let s := r.parts.foldl (fun s p => localRest s id r p) s
    finishReq s id { r with parts := r.parts.map (fun p => p.performed (0, false)) }
  else s

/-- `bred.add.f32` goes on, and completes when each lane has been added and what it sent has been applied
(12_atomics.md R246, R250). -/
def completeBred (s : State) (id : Nat) (r : Req) : State :=
  let x := bredLanes s id r
  let s := waitLines (performAtoms (x.1.setReq id { r with parts := x.2 }) id { r with parts := x.2 } none) id { r with parts := x.2 }
  match s.req id with
  | some r =>
    if r.allDone && !(r.parts.any (fun p => p.cls == 1 && sentMail s r.core (lineKey r.ctx p.addr))) then finishReq s id r else s
  | none => s

/-- STORE_COMPLETE (07_memory.md R156, 12_atomics.md R246). -/
def execStoreComplete (req : Nat) (s : State) : Result :=
  match s.req req with
  | none => .next s
  | some r =>
    match r.kind with
    | .store | .sstore => .next (if r.space == .global then completeStore s req r else completeLocal s req r)
    | .bred => .next (completeBred s req r)
    | .load _ | .sload | .atomic _ | .bnd _ | .scale _ _ _ => .next s

/-- ECB_WALK (09_extents.md R177): a corrupt table is escalated (R175). -/
def execEcbWalk (core ctx va : Nat) (s : State) : Result :=
  match walk s ctx va with
  | .corrupt => .next (deviceError s)
  | _ => .next (fillEcb s core ctx va)

end Sys2Proof.Machine
end

