-- ==== Sys2Proof/Machine/Ports.lean ====
section
/-! DEFINITION. The memory ports and the host ports: translation and performance of sectors (09_extents.md R180), pseudo-channels
(11_traps.md R223, 23_platform.md R407), thermal bands (R406), the patrol scrubber (11_traps.md R224), escalation of errors
(R221), PCIe AtomicOps (12_atomics.md R237), host port failures (23_platform.md R390). -/
namespace Sys2Proof.Machine

/-- The live extent that holds a physical address, with the offset there (11_traps.md R224). -/
def extentAt (s : State) (pa : Nat) : Option (Desc × Nat) :=
  (s.mem.exts.filterMap (fun e =>
    let d := parseDesc e.ctx e.desc (pread s e.desc 64)
    if d.ent.al then none
    else if d.pl.off ≤ pa ∧ pa < d.pl.off + d.ent.len ∧ place d.pl (pa - d.pl.off) = pa then some (d, pa - d.pl.off)
    else if d.pl.sl ∧ d.pl.noff ≤ pa ∧ pa < d.pl.noff + d.ent.len ∧ place d.pl (pa - d.pl.noff) = pa then some (d, pa - d.pl.noff)
    else none)).head?

/-! ### Sectors of requests -/

/-- The parts of a request in a sector that a port performs: loads, and stores and atomics of classes that no cache holds; a
bounded `ld.bnd` is answered by messages (12_atomics.md R251). -/
def portParts (r : Req) (sector : Nat) : List Part :=
  r.parts.filter (fun p => !p.done && p.addr / 32 == sector &&
    (match r.kind with
     | .load _ | .sload | .scale _ _ _ => true
     | .bnd _ => p.cls != 1
     | .store | .sstore => p.cls == 3 || p.cls == 5
     | .atomic _ | .bred => p.cls == 5))

/-- Those of them that lie in an extent: two extents may share a sector. -/
def extentParts (r : Req) (sector : Nat) (d : Desc) : List Part :=
  (portParts r sector).filter (fun p => decide (d.ent.base ≤ p.addr) && decide (p.addr < d.ent.base + d.ent.len))

/-- The extents that the parts of a request in a sector lie in. -/
def sectorDescs (s : State) (r : Req) (sector : Nat) : List Walk := ((portParts r sector).map (fun p => canonDesc s r.ctx p.addr)).eraseDups

/-- The key of a sector in its request. -/
def sectNo (sector : Nat) (d : Desc) : Nat := 65536 * sector + d.ent.xid

/-- Where a sector's bytes of an extent begin. -/
def sectorStart (d : Desc) (sector : Nat) : Nat := max (32 * sector) d.ent.base

/-- Whether a port holds a sector that lies in an open window (09_extents.md R183, R185): the window may begin or end inside it where the
extent's base is no multiple of 32 (log entry 71). -/
def sectorHeld (s : State) (port : Nat) (d : Desc) (sector : Nat) : Bool :=
  windowHeld s port d (sectorStart d sector - d.ent.base) ||
    windowHeld s port d (min (32 * sector + 31) (d.ent.base + d.ent.len - 1) - d.ent.base)

/-- Whether a request writes memory at a port. -/
def ReqKind.writes (k : ReqKind) : Bool := k.onSt || k.atomOp.isSome

/-- Whether an address is held for a request: at its channel, or a write at its hot stack (11_traps.md R223, 23_platform.md R406, R407). -/
def pathHeld (s : State) (r : Req) (pa : Nat) : Bool := chanHeld s pa || (hotStack s pa && r.kind.writes)

/-- Whether a write that arrived earlier at the stack of an address still waits: held writes are released in arrival order
(23_platform.md R406). -/
def heldBefore (s : State) (r : Req) (pa no : Nat) : Bool :=
  r.kind.writes && s.mem.reqs.any (fun q => q.2.kind.writes && q.2.sects.any (fun x => match x.2 with
    | .channelHeld a n => decide (n < no) && bitsOf a 12 3 == bitsOf pa 12 3 && !chanHeld s a
    | _ => false))

/-- The first turn of a sector at its entry port: held in an open window, or translated (09_extents.md R180, R183), and held
where its channel, its stack or its host port cannot serve it. A base that is no multiple of 32 is log entry 71. -/
def translateSector (s : State) (r : Req) (id sector : Nat) (d : Desc) : State :=
  let port := entryPort (coreCluster r.core) (32 * sector)
  let put (s : State) (x : Sect) : State := s.setReq id { r with sects := mput r.sects (sectNo sector d) x }
  let a := sectorStart d sector
  if sectorHeld s port d sector then put s .held
  else
    let pa := place (portPlace s port d) (a - d.ent.base)
    if !paExists pa then deviceError s
    else
      let s := markUsed s d
      if Config.hostBase ≤ pa ∧ !hostReach s d.ent.cls then put s (.down s.plat.time)
      else if pathHeld s r pa then
        let s := touchChan s pa
        put { s with mem := { s.mem with nextQ := s.mem.nextQ + 1 } } (.channelHeld pa (s.mem.nextQ + 1))
      else put (touchChan s pa) (.translated pa)

/-- The physical address of a byte of a sector that was translated to `pa`; a byte of an access that an alias name carries past the sector
is translated by itself, and so is each byte of an extent whose base is no multiple of 32 (log entry 71). -/
def portPa (s : State) (port : Nat) (d : Desc) (start pa a : Nat) : Nat :=
  if a / 32 = start / 32 ∧ d.ent.base % 32 = 0 then pa + (a - start) else place (portPlace s port d) (a - d.ent.base)

/-- A byte of a sector at the address it was translated to, under the dirty bytes of its home slice. -/
def portByte (s : State) (port : Nat) (d : Desc) (start pa a : Nat) : Byte × Bool :=
  match (if cachedClass d.ent.cls then mfind s.mem.l2 (byteKey d.ent.ctx a) else none) with
  | some b => (b, false)
  | none =>
    let x := portPa s port d start pa a
    if badSector s (x / 32) then (0, true) else (Memory.read s.mem.bytes x, false)

/-- One part is performed at a port: its new form and the bytes it writes. -/
def portPart (s : State) (r : Req) (port : Nat) (d : Desc) (start pa : Nat) (bad : Bool) (p : Part) : Part × Option (List Byte) :=
  match r.kind.atomOp with
  | some op => atomStep op r.w p (portByte s port d start pa)
  | none =>
    if r.kind.onSt then (p.performed (0, bad), if bad then none else some (leBytes r.w p.data))
    else (p.performed (loadValue s r.core d p.addr r.w (portByte s port d start pa)), none)

/-- The physical sectors that lie wholly in some bytes, and those that they touch. -/
def touched (pas : List Nat) : List Nat := (pas.map (· / 32)).eraseDups
def wholeSector (pas : List Nat) (x : Nat) : Bool := (List.range 32).all (fun i => pas.contains (32 * x + i))

/-- The physical addresses of a part's bytes. -/
def partPas (s : State) (r : Req) (port : Nat) (d : Desc) (start pa : Nat) (p : Part) : List Nat :=
  (List.range r.w).map (fun i => portPa s port d start pa (p.addr + i))

/-- The marks and errors of physical sectors that a write covers whole end with it (11_traps.md R222). -/
def clearWhole (s : State) (pas : List Nat) : State :=
  (touched pas).foldl (fun s x => if wholeSector pas x then
    { s with mem := { s.mem with marks := mdel s.mem.marks x, soft := mdel s.mem.soft x } } else s) s

/-- The lanes that one access at a port performs: a sector's lanes together; on a host-noncoherent extent one lane, as one PCIe request,
and which one is free (09_extents.md R281, 17_prog_stack.md R328, log entry 16). -/
def portTurn (s : State) (d : Desc) (parts : List Part) : List Part × State :=
  if d.ent.cls == 3 then
    ((match parts[Config.freeNat s.free % parts.length]? with | some p => [p] | none => []), { s with free := s.free + 1 })
  else (parts, s)

/-- Lanes of a translated sector are performed (09_extents.md R180): loads read it and fill the L1, stores and atomics of uncached classes
write it; a narrow store into a poisoned sector fails on its own bytes, and one of all 32 bytes clears the mark
(11_traps.md R222). -/
def performParts (s : State) (id : Nat) (r : Req) (sector : Nat) (d : Desc) (pa : Nat) (parts : List Part) : State :=
  let port := entryPort (coreCluster r.core) (32 * sector)
  let start := sectorStart d sector
  let s := ((parts.map (partLines r)).flatten.eraseDups).foldl (fun s l => recallFrom s r.core l) s
  let pas := (parts.map (partPas s r port d start pa)).flatten
  let bad (p : Part) : Bool := (touched (partPas s r port d start pa p)).any (fun x => badSector s x && !wholeSector pas x)
  let atom := r.kind.atomOp.isSome
  let s := if r.kind.onSt && !atom then clearWhole s pas else s
  let order := if atom then freeOrder s.free parts.length parts else parts
  let s := if atom then { s with free := s.free + parts.length } else s
  let s := order.foldl (fun s p =>
    let x := portPart s r port d start pa (bad p) p
    let s := match x.2 with
      | some bs => (bs.zipIdx).foldl (fun s b => pwrite s (portPa s port d start pa (p.addr + b.2)) [b.1]) s
      | none => s
    setPart s id x.1) s
  let s := if r.kind.onSt || atom then s
    else ((parts.map (fun p => [p.addr / 32, (p.addr + r.w - 1) / 32])).flatten.eraseDups).foldl
      (fun s x => fillL1 s r.core d (max (32 * x) d.ent.base) (portByte s port d start pa)) s
  match s.req id with
  | some r => if (extentParts r sector d).isEmpty then s.setReq id { r with sects := mput r.sects (sectNo sector d) .done } else s
  | none => s

/-- A translated sector is performed when its lanes may be: their order in the warp allows it, no owner is performing an atomic on
their lines, the host has granted them (09_extents.md R180, 12_atomics.md R235, R236). -/
def performSector (s : State) (id : Nat) (r : Req) (sector : Nat) (d : Desc) (pa : Nat) : State :=
  let port := entryPort (coreCluster r.core) (32 * sector)
  let (parts, s') := portTurn s d (extentParts r sector d)
  let lines := (parts.map (partLines r)).flatten.eraseDups
  if !reqMayRun s id r || !parts.all (partClear s id r) || lines.any (recallWait s r.core) ||
      parts.any (fun p => (p.addr + r.w - 1) / 32 != sector && windowHeld s port d (p.addr + r.w - 1 - d.ent.base)) then s
  else
    match parts.find? (fun p => !(partLines r p).all (fun l => lineReady s d.ent.cls l false)) with
    | some p => (partLines r p).foldl (fun s l => match s.req id with
        | some r => if lineReady s d.ent.cls l false then s else askOrWait s id r p l false
        | none => s) s
    | none => performParts s' id r sector d pa parts

/-- A sector of a request in one extent moves on at its port (09_extents.md R180). -/
def moveExtent (s : State) (id sector : Nat) (r : Req) (d : Desc) : State :=
  let put (s : State) (x : Sect) : State := s.setReq id { r with sects := mput r.sects (sectNo sector d) x }
  match mget r.sects .none (sectNo sector d) with
  | .none => translateSector s r id sector d
  | .held => if sectorHeld s (entryPort (coreCluster r.core) (32 * sector)) d sector then s
    else translateSector s r id sector d
  | .channelHeld pa no => if pathHeld s r pa then touchChan s pa else if heldBefore s r pa no then s else put s (.translated pa)
  | .down _ => if hostReach s d.ent.cls then translateSector s r id sector d else s
  | .translated pa => performSector s id r sector d pa
  | .error => s
  | .done => s

/-- A sector of a request moves on at its port, in each extent that its lanes lie in; a corrupt table is escalated
(09_extents.md R175, R180). -/
def moveSector (s : State) (id sector : Nat) (r : Req) : State :=
  (sectorDescs s r sector).foldl (fun s w => match w, s.req id with
    | .found d, some r => moveExtent s id sector r d
    | .corrupt, _ => deviceError s
    | _, _ => s) s

/-- The dirty bytes of a sector in an extent are written back by the line's home slice and leave it (09_extents.md R180); a narrow write
into a sector with an uncorrectable error is escalated (11_traps.md R221). -/
def writebackSector (s : State) (d : Desc) (sec : Nat) : State :=
  let k := byteKey d.ent.ctx sec
  let mine (p : Nat × Byte) : Bool := decide (k ≤ p.1) && decide (p.1 < k + 32) && decide (byteKey d.ent.ctx d.ent.base ≤ p.1) &&
    decide (p.1 < byteKey d.ent.ctx d.ent.base + d.ent.len)
  let dirty := s.mem.l2.filter mine
  if dirty.isEmpty then s
  else
    let port := entryPort (homeCluster d.ent (lineKey d.ent.ctx sec)) sec
    let a := max sec d.ent.base
    let pa := place (portPlace s port d) (a - d.ent.base)
    let paOf (key : Nat) : Nat := portPa s port d a pa (a + (key - byteKey d.ent.ctx a))
    if sectorHeld s port d (sec / 32) then s
    else if !paExists pa then deviceError s
    else if chanHeld s pa || hotStack s pa || (decide (Config.hostBase ≤ pa) && !hostReach s d.ent.cls) then touchChan s pa
    else
      let s := markUsed (touchChan s pa) d
      let s1 := { s with mem := { s.mem with l2 := s.mem.l2.filter (fun p => !mine p) } }
      let pas := dirty.map (fun p => paOf p.1)
      match (touched pas).find? (fun x => badSector s x && !wholeSector pas x) with
      | some x => escalate s1 d.ent.ctx d.ent.xid d.ent.cls (32 * x) 1 sec
      | none => dirty.foldl (fun s p => pwrite s (paOf p.1) [p.2]) (clearWhole s1 pas)

/-- A host-coherent line with no dirty byte left in its slice leaves it, with DirtyEvict or CleanEvict, and every L1 (12_atomics.md R236; the
L1s: log entry 104). -/
def evictLine (s : State) (line : Nat) : State :=
  let k := byteKey (lineCtx line) (lineVa line)
  if mget s.mem.moesi 0 line = 0 || s.mem.l2.any (fun p => decide (k ≤ p.1) && decide (p.1 < k + 128)) || !cxlUp s then s
  else dropLineAll (lineMoesi s line 0) line

/-- A line is evicted from its home slice: its dirty bytes are written back, each extent's at their own place; an owner surrenders it first
(12_atomics.md R233, R235, R236). -/
def writebackLine (s : State) (line : Nat) : State :=
  if lineBusy s line then s
  else
    let s := dropOwner s line
    let s := (dirtyDescs s line).foldl (fun s w => match w with
      | .found d => (List.range 4).foldl (fun s i => writebackSector s d (lineVa line + 32 * i)) s
      | .corrupt => deviceError s
      | .none => s) s
    evictLine s line

/-- PORT_TRANSLATE (09_extents.md R180). -/
def execPortTranslate (target : PortTarget) (s : State) : Result :=
  match target with
  | .req id sector =>
    match s.req id with
    | some r => .next (if r.space == .global then moveSector s id sector r else s)
    | none => .next s
  | .writeback line => .next (writebackLine s line)

/-! ### Channel steps -/

/-- The idle timers of the configuration image (23_platform.md R407), in ns. -/
def tPd (s : State) : Nat := (s.plat.image.map BootImage.tpd).getD 2000
def tSr (s : State) : Nat := (s.plat.image.map BootImage.tsr).getD 60000

/-- Whether a request is queued on a channel. -/
def chanQueued (s : State) (k : Nat) : Bool :=
  s.mem.reqs.any (fun q => q.2.sects.any (fun x => match x.2 with
    | .translated pa => decide (pa < Config.hbmBytes) && chanOf pa == k
    | .channelHeld pa _ => decide (pa < Config.hbmBytes) && chanOf pa == k
    | _ => false))

/-- POWER_DOWN_ENTRY (23_platform.md R407). -/
def execPowerDownEntry (port pc : Nat) (s : State) : Result :=
  let k := chanKey port pc
  let c := s.chan k
  if portsLive s ∧ port < 8 ∧ pc < 64 ∧ c.power = 0 ∧ !c.reload ∧ tPd s ≠ 0 ∧ c.idle + tPd s ≤ s.plat.time ∧ !chanQueued s k then
    .next (s.setChan k { c with power := 1 })
  else .next s

/-- SELF_REFRESH_ENTRY (23_platform.md R407). -/
def execSelfRefreshEntry (port pc : Nat) (s : State) : Result :=
  let k := chanKey port pc
  let c := s.chan k
  if portsLive s ∧ port < 8 ∧ pc < 64 ∧ c.power = 1 ∧ tSr s ≠ 0 ∧ c.idle + tPd s + tSr s ≤ s.plat.time ∧ !chanQueued s k then
    .next (s.setChan k { c with power := 2 })
  else .next s

/-- CHANNEL_EXIT (23_platform.md R407): 30 ns from power-down, 600 ns from self-refresh. -/
def execChannelExit (port pc : Nat) (s : State) : Result :=
  let k := chanKey port pc
  let c := s.chan k
  if c.power = 3 ∧ c.since + (if c.from' = 2 then 600 else 30) ≤ s.plat.time then .next (s.setChan k { c with power := 0, from' := 0 })
  else .next s

/-- HBM_THERMAL_BAND (23_platform.md R406): a band is entered at once and left 2 °C below its threshold. -/
def execHbmThermalBand (stack temp : Nat) (s : State) : Result :=
  let cur := mget s.mem.bands 0 stack
  let up := ([85, 95, 105].filter (fun t => decide (t < temp))).length
  let down := ([83, 93, 103].filter (fun t => decide (t < temp))).length
  let new := if cur < up then up else min cur down
  if !portsLive s ∨ 8 ≤ stack ∨ new = cur then .next s
  else .next (logEvent { s with mem := { s.mem with bands := mset 0 s.mem.bands stack new } } 5 (stack + 2 ^ 8 * new) 0)

/-! ### The patrol scrubber (11_traps.md R224) -/

/-- The PA of granule g of a stack (09_extents.md R179). -/
def granulePa (stack g : Nat) : Nat := 2 ^ 15 * (32 * g / 4096) + 4096 * stack + 32 * g % 4096

/-- Granules of a stack. -/
def stackGranules : Nat := Config.hbmBytes / 8 / 32

/-- SCRUB_READ: the next granule is read; a channel that sleeps is woken first, without restarting its idle timers. -/
def execScrubRead (port : Nat) (s : State) : Result :=
  let c := mget s.mem.scrubs {} port
  let pa := granulePa port c.pos
  if !portsLive s ∨ 8 ≤ port ∨ c.pend.isSome then .next s
  else if chanHeld s pa then .next (wakeChan s (chanOf pa))
  else
    let c' : Scrub := { pos := (c.pos + 1) % stackGranules, pend := (mfind s.mem.soft (pa / 32)).map (fun ok => (pa, !ok)) }
    .next { s with mem := { s.mem with scrubs := mput s.mem.scrubs port c' } }

/-- SCRUB_WRITE: the corrected value, or the poison mark with its report and escalation. -/
def execScrubWrite (port : Nat) (s : State) : Result :=
  let c := mget s.mem.scrubs {} port
  match c.pend with
  | none => .next s
  | some (pa, hard) =>
    let s := { s with mem := { s.mem with scrubs := mput s.mem.scrubs port { c with pend := none }, soft := mdel s.mem.soft (pa / 32) } }
    if !hard then .next s
    else
      let s := hostError { s with mem := { s.mem with marks := mput s.mem.marks (pa / 32) true } } 9 (0x10 + port)
        (((extentAt s pa).map (fun x => x.1.ent.ctx)).getD 0) 0 pa 0
      match extentAt s pa with
      | some (d, o) =>
        let va := d.ent.base + o
        if cachedClass d.ent.cls && (List.range 32).all (fun i => (mfind s.mem.l2 (byteKey d.ent.ctx (va / 32 * 32 + i))).isSome) then .next s
        else .next (escalate s d.ent.ctx d.ent.xid d.ent.cls pa 8 pa)
      | none => .next s

/-! ### PCIe AtomicOps and host ports -/

/-- ATOMICOP_COMPLETION (12_atomics.md R237, R243): a lane takes the old value of host memory, is not performed, or fails. -/
def execAtomicopCompletion (req lane : Nat) (resp : PcieResp) (s : State) : Result :=
  match s.req req with
  | none => .next s
  | some r =>
    match r.kind.atomOp, r.parts.find? (fun p => p.lane == lane && p.cls == 3 && !p.done) with
    | some op, some p =>
      if !reqMayRun s req r || !partClear s req r p || !hostReach s 3 then .next s
      else
        match resp with
        | .unsupported | .abort => .next (setPart s req { p with done := true, np := true })
        | .poisoned => .next (setPart s req (p.performed (0, true)))
        | .success =>
          match canonDesc s r.ctx p.addr with
          | .found d =>
            let s := markUsed s d
            let x := atomStep op r.w p (homeByte s d)
            .next (setPart (match x.2 with | some bs => homeWrite s d p.addr bs | none => s) req x.1)
          | _ => .next (setPart s req (p.performed (0, true)))
    | _, _ => .next s

/-- HOST_PORT_DOWN and HOST_PORT_UP (23_platform.md R390). -/
def execHostPortDown (port : Nat) (s : State) : Result :=
  if port < 2 ∧ hostUp s port then .next { s with plat := { s.plat with down := mput s.plat.down port s.plat.time } } else .next s

def execHostPortUp (port : Nat) (s : State) : Result :=
  .next { s with plat := { s.plat with down := mdel s.plat.down port } }

/-- CXL_PORT_WAIT_TIMEOUT (23_platform.md R390): a host-coherent access that has waited 2 ms for a down CXL port returns
uncorrectable errors. -/
def execCxlPortWaitTimeout (req : Nat) (s : State) : Result :=
  match s.req req with
  | none => .next s
  | some r =>
    let late := (r.sects.filter (fun x => match x.2 with | .down since => decide (since + 2000000 ≤ s.plat.time) | _ => false)).map Prod.fst
    if cxlUp s || late.isEmpty then .next s
    else
      let r' := { r with
        parts := r.parts.map (fun p => if !p.done && late.contains (sectIx s r p) && p.cls == 2 then p.performed (0, true) else p)
        sects := r.sects.map (fun x => if late.contains x.1 then (x.1, .error) else x) }
      .next (settleStore (s.setReq req r') req)

end Sys2Proof.Machine
end

