-- ==== Sys2Proof/Machine/Slide.lean ====
section
/-! DEFINITION. Placement, the live slide and residency (09_extents.md R182 to R194, 07_memory.md R150), and the evacuation of a
pseudo-channel (11_traps.md R223). -/
namespace Sys2Proof.Machine

/-! ### Placement -/

/-- The descriptor of a live extent. -/
def extDesc (s : State) (e : LiveExt) : Desc := parseDesc e.ctx e.desc (pread s e.desc 64)

/-- Physical ranges that live extents and accepted slides take, each with its extent (09_extents.md R174, R182). -/
def usedRanges (s : State) : List (Nat × Nat × Nat × Nat) :=
  (s.mem.exts.filterMap (fun e =>
    let d := extDesc s e
    if d.ent.al then none else some (d.pl.off, d.pl.off + d.ent.len, e.ctx, e.xid))) ++
  s.mem.slides.map (fun l => (l.noff, l.noff + l.len, l.ctx, l.xid))

/-- Ranges of HBM that hold structures the device reads by physical address: root table, indexes, descriptor arrays, queue
table, management ring, log table and rings (09_extents.md R176, 23_platform.md R391, R395; DEDUCED, log entry 14). -/
def deviceRanges (s : State) : List (Nat × Nat) :=
  let ctxs := (s.mem.exts.map LiveExt.ctx).eraseDups
  [(s.plat.xroot, s.plat.xroot + 2 ^ 21), (s.plat.qroot, s.plat.qroot + 2 ^ 17 * 64),
   (s.plat.mqroot, s.plat.mqroot + 64 * 2 ^ s.plat.mqn), (s.plat.logroot, s.plat.logroot + 128)] ++
  (List.range 4).map (fun r => let a := bitsOf (pread64 s (logDesc s r)) 0 52; (a, a + 4096 * 64)) ++
  (ctxs.map (fun c => let r := rootEntry s c; [(r.index, r.index + 2 ^ 20), (r.desc, r.desc + 2 ^ 22)])).flatten

/-- Whether two ranges meet. -/
def meets (lo hi lo' hi' : Nat) : Bool := decide (lo < hi') && decide (lo' < hi)

/-- Whether a range touches a pseudo-channel that has been retired (11_traps.md R223). -/
def onRetired (s : State) (lo hi : Nat) : Bool :=
  s.mem.chans.any (fun c => c.2.retired) &&
  (List.range ((hi - lo) / 32 + 1)).any (fun i => (s.chan (chanOf (lo + 32 * i))).retired)

/-- Whether a range is free: no extent but the one moved, no slide's target and no structure of the device lies in it; `gone`
lists extents that make room (09_extents.md R182). -/
def rangeFree (s : State) (lo len ctx xid : Nat) (gone : List (Nat × Nat)) : Bool :=
  (usedRanges s).all (fun u => (u.2.2 == (ctx, xid)) || gone.contains u.2.2 || !meets lo (lo + len) u.1 u.2.1) &&
  (decide (Config.hostBase ≤ lo) || ((deviceRanges s).all (fun u => !meets lo (lo + len) u.1 u.2) && !onRetired s lo (lo + len)))

/-- The candidate starts of a first fit: the start of the area and the ends of what is taken in it. -/
def fitStarts (s : State) (base : Nat) : List Nat :=
  base :: ((usedRanges s).map (fun u => (u.2.1 + 31) / 32 * 32) ++ (deviceRanges s).map (fun u => (u.2 + 31) / 32 * 32))

/-- A place for an extent in an area: a free candidate, or the lowest that fits (log entry 14). -/
def findRoom (s : State) (base top len ctx xid old : Nat) (gone : List (Nat × Nat)) : Option Nat :=
  let fits (a : Nat) : Bool := decide (base ≤ a) && decide (a + len ≤ top) && a != old && rangeFree s a len ctx xid gone
  let cand := base + 32 * (Config.freeNat s.free % ((top - base) / 32 + 1))
  if fits cand then some cand
  else
    ((fitStarts s base).filter fits).foldl (fun b a => match b with
      | none => some a
      | some x => if a < x then some a else some x) none

/-- A place in HBM. -/
def findHbm (s : State) (len ctx xid old : Nat) (gone : List (Nat × Nat)) : Option Nat :=
  findRoom s 0 Config.hbmBytes len ctx xid old gone

/-- A place in a partition's demotion pool (09_extents.md R187). -/
def findPool (s : State) (part len ctx xid old : Nat) : Option Nat :=
  match mfind s.mem.pools part with
  | some p => if p.len = 0 then none else findRoom s p.base (p.base + p.len) len ctx xid old []
  | none => none

/-- A place in the lowest-numbered partition's pool that has room (log entry 23). -/
def findAnyPool (s : State) (len ctx xid old : Nat) : Option Nat :=
  (List.range 4).findSome? (fun p => findPool s p len ctx xid old)

/-! ### Accepting a slide (09_extents.md R182) -/

/-- The port whose Marrow engine runs a slide. -/
def slideEngine (off noff : Nat) : Nat :=
  if off < Config.hbmBytes then bitsOf off 12 3 else if noff < Config.hbmBytes then bitsOf noff 12 3 else 0

/-- Whether an engine has taken all it can: 4 running and 64 waiting. -/
def engineFull (s : State) (engine : Nat) : Bool := decide (68 ≤ (s.mem.slides.filter (fun l => l.engine == engine)).length)

/-- A slide is accepted and waits for its start. -/
def acceptSlide (s : State) (d : Desc) (noff k op : Nat) : State :=
  let l : Slide :=
    { ctx := d.ent.ctx
      xid := d.ent.xid
      desc := d.pa
      len := d.ent.len
      engine := slideEngine d.pl.off noff
      noff := noff
      k := k
      step := 0
      phase := 0
      took := []
      acked := []
      views := []
      since := s.plat.time
      stop := false
      op := op }
  { s with mem := { s.mem with slides := s.mem.slides ++ [l] }, free := s.free + 1 }

/-- Whether an extent may slide at all (09_extents.md R182). -/
def Desc.movable (d : Desc) : Bool := !d.ent.al && d.ent.cls != 2 && d.ent.cls != 3

/-- Whether an extent is in host memory. -/
def Desc.inHost (d : Desc) : Bool := decide (Config.hostBase ≤ d.pl.off)

/-- Whether an extent slides or its slide waits. -/
def sliding (s : State) (d : Desc) : Bool := (slideOf s d.ent.ctx d.ent.xid).isSome

/-! ### The evacuation of a retired pseudo-channel (11_traps.md R223) -/

/-- Whether an extent has a byte on a channel. -/
def onChannel (d : Desc) (k : Nat) : Bool :=
  !d.ent.al && decide (d.pl.off < Config.hbmBytes) && (List.range ((d.ent.len + 31) / 32)).any (fun i => chanOf (d.pl.off + 32 * i) == k)

/-- An extent leaves a retired channel: to HBM elsewhere, or to a demotion pool; one that cannot is row 6 of R221. One that slides, or whose
engine has no room, waits: every slide that ends takes the evacuation up again. -/
def evacuate (s : State) (e : LiveExt) (k : Nat) : State :=
  let d := extDesc s e
  if !onChannel d k || sliding s d then s
  else
    match (findHbm s d.ent.len e.ctx e.xid d.pl.off []).orElse (fun _ => findAnyPool s d.ent.len e.ctx e.xid d.pl.off) with
    | some noff => if engineFull s (slideEngine d.pl.off noff) then s else acceptSlide s d noff 7 0
    | none => deviceError s

/-- Every extent with a byte on a retired channel leaves it. -/
def evacuateAll (s : State) : State :=
  ((s.mem.chans.filter (fun c => c.2.retired)).map Prod.fst).foldl (fun s k => s.mem.exts.foldl (fun s e => evacuate s e k) s) s

/-! ### The steps of a slide (09_extents.md R182, R183) -/

def setSlide (s : State) (l : Slide) : State :=
  { s with mem := { s.mem with slides := s.mem.slides.map (fun x => if x.ctx == l.ctx && x.xid == l.xid then l else x) } }
def dropSlide (s : State) (l : Slide) : State :=
  { s with mem := { s.mem with slides := s.mem.slides.filter (fun x => !(x.ctx == l.ctx && x.xid == l.xid)) } }

/-- The placement part that a slide's descriptor holds now. -/
def slidePl (s : State) (l : Slide) : Placement := (parseDesc l.ctx l.desc (pread s l.desc 64)).pl

/-- A step of Marrow on a slide in a phase. -/
def marrow (s : State) (ctx xid phase : Nat) (act : Slide → State) : Result :=
  match slideOf s ctx xid with
  | some l => .next (if l.phase = phase then act l else s)
  | none => .next s

/-- A port takes a broadcast of a phase: its placement cache follows the descriptor where the broadcast carries placement; when
all eight have, the slide goes on. -/
def portTakes (s : State) (port ctx xid phase : Nat) (view : Bool) (after : State → Slide → State) : Result :=
  match slideOf s ctx xid with
  | some l =>
    if l.phase ≠ phase ∨ 8 ≤ port ∨ l.took.contains port then .next s
    else
      let l := { l with took := port :: l.took, views := if view then mput l.views port (slidePl s l) else l.views }
      .next (if l.took.length = 8 then after (setSlide s l) l else setSlide s l)
  | none => .next s

/-- Steps of a slide. -/
def Slide.steps (l : Slide) : Nat := (l.len + 32 * 2 ^ l.k - 1) / (32 * 2 ^ l.k)

/-- SLIDE_START (09_extents.md R182): the first waiting slide of an engine with a place, once its target is free. -/
def execSlideStart (ctx xid : Nat) (s : State) : Result :=
  marrow s ctx xid 0 (fun l =>
    let mine := s.mem.slides.filter (fun x => x.engine == l.engine)
    let first := (mine.find? (fun x => x.phase == 0)).map (fun x => x == l)
    if decide (4 ≤ (mine.filter (fun x => x.phase != 0)).length) || first != some true ||
        !((usedRanges s).all (fun u => (u.2.2 == (ctx, xid)) || !meets l.noff (l.noff + l.len) u.1 u.2.1)) then s
    else
      let old := slidePl s l
      let up := decide (old.off < l.noff)
      let s := patch64 s (l.desc + 0x38) 0 49 (if up then l.len else 0)
      let s := pwrite s (l.desc + 0x30) (leBytes 8 (2 ^ 63 + 2 ^ 62 * up.toNat + 2 ^ 58 * l.k + l.noff))
      let views := (List.range 8).map (fun p => (p, old))
      let step := if up then l.steps - 1 else 0
      setSlide s { l with phase := 1, step := step, took := [], since := s.plat.time, views := views })

/-- PORT_SLIDE_BEGIN (09_extents.md R182). -/
def execPortSlideBegin (port ctx xid : Nat) (s : State) : Result :=
  portTakes s port ctx xid 1 true (fun s l => setSlide s { l with phase := 2, took := [] })

/-- A retire stops a slide at the close of its step: its extent keeps its present placements (09_extents.md R178). -/
def stopSlide (s : State) (l : Slide) : State :=
  let s := if l.op = 0 then s else
    match s.op (l.op - 1) with
    | some o => s.setOp (l.op - 1) { o with ended := true, fail := some (0, 1) }
    | none => s
  evacuateAll (dropSlide s l)

/-- SLIDE_OPEN (09_extents.md R183). -/
def execSlideOpen (ctx xid : Nat) (s : State) : Result :=
  marrow s ctx xid 2 (fun l =>
    let pl := slidePl s l
    if l.stop then stopSlide s l
    else if pl.fr = (if pl.dir then 0 else l.len) then s
    else setSlide s { l with phase := 3, took := [], acked := [], since := s.plat.time })

/-- Sectors of requests that a port has translated in a slide's window and not performed. -/
def windowSectors (s : State) (port : Nat) (l : Slide) (d : Desc) : List (Nat × Nat) :=
  (s.mem.reqs.map (fun q =>
    if q.2.ctx == l.ctx && q.2.space == .global then
      (q.2.sects.filter (fun x =>
        x.1 % 65536 == l.xid && (l.inWindow (sectorStart d (x.1 / 65536) - d.ent.base) ||
          l.inWindow (min (32 * (x.1 / 65536) + 31) (d.ent.base + d.ent.len - 1) - d.ent.base)) &&
        entryPort (coreCluster q.2.core) (32 * (x.1 / 65536)) == port &&
        (match x.2 with | .translated _ => true | .channelHeld _ _ => true | _ => false))).map (fun x => (q.1, x.1 / 65536))
    else [])).flatten

/-- PORT_OPEN (09_extents.md R183): the port holds new sectors of the window and performs those translated before. -/
def execPortOpen (port ctx xid : Nat) (s : State) : Result :=
  match slideOf s ctx xid with
  | some l =>
    if l.phase ≠ 3 ∨ 8 ≤ port ∨ l.took.contains port then .next s
    else
      let d := parseDesc l.ctx l.desc (pread s l.desc 64)
      let todo := windowSectors s port l d
      let s := setSlide s { l with took := port :: l.took }
      .next (todo.foldl (fun s x => match s.req x.1 with
        | some r => moveSector s x.1 x.2 r
        | none => s) s)
  | none => .next s

/-- PORT_OPEN_ACK (09_extents.md R183). -/
def execPortOpenAck (port ctx xid : Nat) (s : State) : Result :=
  match slideOf s ctx xid with
  | some l =>
    if l.phase = 3 ∧ l.took.contains port ∧ !l.acked.contains port ∧
        (windowSectors s port l (parseDesc l.ctx l.desc (pread s l.desc 64))).isEmpty then
      .next (setSlide s { l with acked := port :: l.acked })
    else .next s
  | none => .next s

/-- One sector is copied by Marrow: an uncorrectable old sector is written poisoned, logged (09_extents.md R186) and escalated
(11_traps.md R221 rows 4 and 5); a write of Marrow's cancels a scrub as a demand write does. -/
def copySector (s : State) (d : Desc) (o src dst n : Nat) : State :=
  let s := touchChan (touchChan s src) dst
  if paBad s src n then
    let s := { s with mem := { s.mem with
      marks := mput s.mem.marks (dst / 32) true
      soft := mdel s.mem.soft (dst / 32)
      scrubs := cancelScrubs s.mem.scrubs dst n } }
    let s := hostError s 8 (if src < Config.hbmBytes then 0x10 + bitsOf src 12 3 else 0xFF) d.ent.ctx 2 src 0
    escalate s d.ent.ctx d.ent.xid d.ent.cls dst 1 (d.ent.base + o)
  else
    let s := pwrite s dst (pread s src n)
    { s with mem := { s.mem with marks := mdel s.mem.marks (dst / 32) } }

/-- SLIDE_COPY (09_extents.md R183): the window's sectors in the slide's direction; a hot stack holds it (23_platform.md R406), and so does a
channel that reloads its table or sleeps, which it wakes (11_traps.md R223, 23_platform.md R407). -/
def execSlideCopy (ctx xid : Nat) (s : State) : Result :=
  marrow s ctx xid 3 (fun l =>
    let d := parseDesc l.ctx l.desc (pread s l.desc 64)
    let w := l.window
    let n := (w.2 - w.1 + 31) / 32
    let offs := (List.range n).map (fun i => w.1 + 32 * i)
    let pas := (offs.map (fun o => [d.pl.off + o, l.noff + o])).flatten
    if l.acked.length ≠ 8 ∨ offs.any (fun o => hotStack s (l.noff + o)) then s
    else if pas.any (chanHeld s) then pas.foldl touchChan s
    else
      let s := (if d.pl.dir then offs.reverse else offs).foldl
        (fun s o => copySector s d o (d.pl.off + o) (l.noff + o) (min 32 (w.2 - o))) s
      setSlide s { l with phase := 4 })

/-- SLIDE_ADVANCE (09_extents.md R183). -/
def execSlideAdvance (ctx xid : Nat) (s : State) : Result :=
  marrow s ctx xid 4 (fun l =>
    let w := l.window
    let s := patch64 s (l.desc + 0x38) 0 49 (if (slidePl s l).dir then w.1 else w.2)
    setSlide s { l with phase := 5, took := [], since := s.plat.time })

/-- PORT_ADVANCE (09_extents.md R183). -/
def execPortAdvance (port ctx xid : Nat) (s : State) : Result := portTakes s port ctx xid 5 true (fun s _ => s)

/-- SLIDE_CLOSE (09_extents.md R183). -/
def execSlideClose (ctx xid : Nat) (s : State) : Result :=
  marrow s ctx xid 5 (fun l => if l.took.length = 8 then setSlide s { l with phase := 6, took := [], since := s.plat.time } else s)

/-- PORT_CLOSE (09_extents.md R183): the port's held sectors may move on; after the last port the next step may open. -/
def execPortClose (port ctx xid : Nat) (s : State) : Result :=
  portTakes s port ctx xid 6 false (fun s l =>
    setSlide s { l with phase := 2, took := [], step := if (slidePl s l).dir then l.step - 1 else l.step + 1 })

/-- SLIDE_COMMIT (09_extents.md R183): off := noff, the slide fields are cleared, and the commit is broadcast. -/
def execSlideCommit (ctx xid : Nat) (s : State) : Result :=
  marrow s ctx xid 2 (fun l =>
    let pl := slidePl s l
    if pl.fr ≠ (if pl.dir then 0 else l.len) ∨ l.stop then s
    else
      let s := patch64 s (l.desc + 0x28) 0 52 l.noff
      let s := pwrite (pwrite s (l.desc + 0x30) (leBytes 8 0)) (l.desc + 0x38) (leBytes 8 0)
      setSlide s { l with phase := 7, took := [], since := s.plat.time })

/-- PORT_COMMIT (09_extents.md R183): after the last port the slide has ended, and a `cp.tier` that waits for it may complete
(13_engines.md R266). -/
def execPortCommit (port ctx xid : Nat) (s : State) : Result :=
  portTakes s port ctx xid 7 true (fun s l =>
    let s := evacuateAll (dropSlide s l)
    if l.op = 0 then s
    else
      match s.op (l.op - 1) with
      | some o => s.setOp (l.op - 1) { o with ended := true }
      | none => s)

/-- SLIDE_ACK_TIMEOUT (09_extents.md R186): a phase that a port has not acknowledged after 100 µs stops the slide and is lost remap metadata
(11_traps.md R221 row 6). The phases that R182 and R183 have the ports acknowledge are the begin, the open and the advance. -/
def execSlideAckTimeout (ctx xid : Nat) (s : State) : Result :=
  match slideOf s ctx xid with
  | some l =>
    let waits := ((l.phase = 1 ∨ l.phase = 5) ∧ l.took.length ≠ 8) ∨ (l.phase = 3 ∧ l.acked.length ≠ 8)
    if waits ∧ l.since + 100000 ≤ s.plat.time then .next (deviceError (dropSlide s l)) else .next s
  | none => .next s

/-! ### Residency (09_extents.md R187, R194, 07_memory.md R150) -/

/-- Pinned bytes of a context. -/
def pinnedBytes (s : State) (ctx : Nat) : Nat :=
  (s.mem.exts.filter (fun e => e.ctx == ctx)).foldl (fun n e => if (extDesc s e).pin then n + e.len else n) 0

/-- Extents that a demotion may take, in the order of 07_memory.md R150: lowest priority, then oldest access. -/
def insertVictim (s : State) (e : LiveExt) : List LiveExt → List LiveExt
  | [] => [e]
  | x :: r =>
    let p := (extDesc s e).prio
    let q := (extDesc s x).prio
    if p < q ∨ (p = q ∧ e.used ≤ x.used) then e :: x :: r else x :: insertVictim s e r

def victims (s : State) : List LiveExt :=
  (s.mem.exts.filter (fun e =>
    let d := extDesc s e
    d.movable && !d.pin && !d.inHost && !sliding s d && e.stage == 0)).foldr (insertVictim s) []

/-- Demotions of a list of extents are accepted, if every one finds a pool and an engine. -/
def demoteAll (s : State) : List LiveExt → Option State
  | [] => some s
  | e :: r =>
    let d := extDesc s e
    match findAnyPool s d.ent.len d.ent.ctx d.ent.xid d.pl.off with
    | some noff => if engineFull s (slideEngine d.pl.off noff) then none else demoteAll (acceptSlide s d noff 7 0) r
    | none => none

/-- A place in HBM that the first extents of a list make room for by their demotion, with the state in which their slides are
accepted. -/
def roomByDemotion (s : State) (d : Desc) : List LiveExt → List LiveExt → Option (Nat × State)
  | done, rest =>
    match findHbm s d.ent.len d.ent.ctx d.ent.xid d.pl.off (done.map (fun e => (e.ctx, e.xid))) with
    | some noff => (demoteAll s done).map (fun s' => (noff, s'))
    | none =>
      match rest with
      | [] => none
      | e :: r => roomByDemotion s d (done ++ [e]) r
termination_by structural _ rest => rest

/-- A promotion request with its status (09_extents.md R194). -/
def promote (s : State) (d : Desc) (k op : Nat) (makeRoom : Bool) : Nat × State :=
  match roomByDemotion s d [] (if makeRoom then victims s else []) with
  | some (noff, s') => if engineFull s' (slideEngine d.pl.off noff) then (3, s) else (0, acceptSlide s' d noff k op)
  | none => (6, s)

/-- A demotion request to a partition's pool with its status (09_extents.md R194). -/
def demote (s : State) (d : Desc) (part k op : Nat) : Nat × State :=
  match findPool s part d.ent.len d.ent.ctx d.ent.xid d.pl.off with
  | some noff => if engineFull s (slideEngine d.pl.off noff) then (3, s) else (0, acceptSlide s d noff k op)
  | none => (6, s)

/-- RESIDENCY_DEMOTE (09_extents.md R187): the first extent in the order of 07_memory.md R150. -/
def execResidencyDemote (ctx xid : Nat) (s : State) : Result :=
  match victims s with
  | e :: _ => if e.ctx = ctx ∧ e.xid = xid then .next ((demoteAll s [e]).getD s) else .next s
  | [] => .next s

/-- RESIDENCY_PROMOTE (09_extents.md R187): the unpinned demoted extent of the highest priority, whenever HBM has room. -/
def execResidencyPromote (ctx xid : Nat) (s : State) : Result :=
  let cand := s.mem.exts.filter (fun e =>
    let d := extDesc s e
    d.movable && !d.pin && d.inHost && !sliding s d && e.stage == 0)
  match cand.find? (fun e => e.ctx == ctx && e.xid == xid) with
  | some e =>
    if cand.all (fun x => decide ((extDesc s x).prio ≤ (extDesc s e).prio)) then .next (promote s (extDesc s e) 7 0 false).2 else .next s
  | none => .next s

/-! ### The words 0x98 to 0x9D (09_extents.md R191 to R194) -/

/-- `xprobe` (09_extents.md R192). -/
def execXprobe (d sb : SReg) (x : Option Word) (s : State) : Result :=
  let a := addOff (s.sbase sb) (litDisp x)
  match (if 2 ^ 56 ≤ a then .none else checkedWalk s (protOf s s.hcore s.hwarp.ctx a)) with
  | .corrupt => .next (deviceError s)
  | .found e =>
    .next (((fillEcb s s.hcore s.hwarp.ctx a).updHere (fun w => (w.setS d.val (BitVec.ofNat 32 e.ent.xid)).setScc true)).advance (litWords x))
  | .none => .next ((s.updHere (fun w => (w.setS d.val 0xFFFFFFFF).setScc false)).advance (litWords x))

/-- A field of `xinfo` (09_extents.md R193). -/
def infoField (d : Desc) (sel : Nat) : Nat :=
  match sel with
  | 0 => bitsOf d.ent.base 0 32
  | 1 => bitsOf d.ent.base 32 24
  | 2 => bitsOf d.ent.len 0 32
  | 3 => bitsOf d.ent.len 32 17
  | 4 => 2 ^ 31 * d.pl.sl.toNat + 2 ^ 30 * d.pl.dir.toNat + 2 ^ 26 * d.pl.k + 2 ^ 25 * d.pin.toNat + 2 ^ 24 * bitsOf d.pl.off 51 1 +
      2 ^ 23 * d.ent.al.toNat + 2 ^ 22 * d.ent.il.toNat + 2 ^ 20 * d.ent.home + 2 ^ 17 * d.ent.cls + 2 ^ 14 * d.ent.perms +
      2 ^ 11 * d.prio + 2 ^ 6 * d.ent.shift + 2 ^ 5 * d.ent.sv.toNat
  | 5 => if d.pl.sl then bitsOf d.pl.fr 0 32 else 0
  | 6 => if d.pl.sl then bitsOf d.pl.fr 32 17 else 0
  | _ => d.ent.bound

/-- The extent of a handle of the issuing warp's context (09_extents.md R191). -/
def State.handle (s : State) (sb : SReg) : Option Desc := handleDesc s s.hwarp.ctx (s.sbase sb)

/-- Whether the handle names a corrupt descriptor, which is escalated (09_extents.md R175). -/
def State.badHandle (s : State) (sb : SReg) : Bool := handleCorrupt s s.hwarp.ctx (s.sbase sb)

/-- `xinfo` (09_extents.md R193). -/
def execXinfo (d sb : SReg) (sel : Fin 8) (s : State) : Result :=
  match s.handle sb with
  | some e =>
    let port := entryPort (coreCluster s.hcore) e.ent.base
    let e := { e with pl := portPlace s port e }
    .next ((s.updHere (fun w => (w.setS d.val (BitVec.ofNat 32 (infoField e sel.val))).setScc true)).advance 1)
  | none =>
    if s.badHandle sb then .next (deviceError s)
    else .next ((s.updHere (fun w => (w.setS d.val 0).setScc false)).advance 1)

/-- A residency word answers with a status; an audit replay ends at it (11_traps.md R226), and a corrupt descriptor is escalated
(09_extents.md R175). -/
def residencyWord (s : State) (d sb : SReg) (x : Nat × State) : Result :=
  if s.hblk.isReplay then .next (endReplay s s.hwarp.blk 4 0)
  else if s.badHandle sb then .next (deviceError s)
  else .next (x.2.status d x.1 1)

/-- The pin bit of a descriptor. -/
def setPin (s : State) (d : Desc) (b : Bool) : State := patch64 s (d.pa + 0x28) 63 1 b.toNat

/-- The status and effect of `hpin`: an extent that slides is busy, whatever state it already has (DESIGN CHOICE where R186 and R194 meet,
log entry 92). -/
def hpinOf (s : State) (h : Option Desc) : Nat × State :=
  match h with
  | none => (1, s)
  | some e =>
    if !e.movable then (2, s)
    else if sliding s e then (3, s)
    else if e.pin then (0, s)
    else if mget s.mem.quota 0 e.ent.ctx < pinnedBytes s e.ent.ctx + e.ent.len then (5, s)
    else if e.inHost then
      match promote s e 7 0 true with
      | (0, s') => (0, setPin s' e true)
      | x => x
    else (0, setPin s e true)

/-- The status and effect of `hdemote` to a partition's pool: an extent that slides is busy, whatever state it already has (DESIGN CHOICE
where R186 and R194 meet, log entry 92). -/
def hdemoteOf (s : State) (h : Option Desc) (part : Nat) : Nat × State :=
  match h with
  | none => (1, s)
  | some e =>
    if !e.movable then (2, s)
    else if sliding s e then (3, s)
    else if e.inHost then (0, s)
    else if e.pin then (4, s)
    else demote s e part 7 0

def execHpin (d sb : SReg) (s : State) : Result := residencyWord s d sb (hpinOf s (s.handle sb))
def execHdemote (d sb : SReg) (s : State) : Result := residencyWord s d sb (hdemoteOf s (s.handle sb) (effPart s s.hblk.region))

/-- `hprio` (09_extents.md R194). -/
def execHprio (d sb : SReg) (sel : Fin 8) (s : State) : Result :=
  residencyWord s d sb (match s.handle sb with
    | none => (1, s)
    | some e => (0, patch64 s (e.pa + 0x08) 51 3 sel.val))

/-- `hunpin` (09_extents.md R194). -/
def execHunpin (d sb : SReg) (s : State) : Result :=
  residencyWord s d sb (match s.handle sb with
    | none => (1, s)
    | some e => (0, if e.ent.al then s else setPin s e false))

/-! ### Row-remap tables and the configuration image (11_traps.md R223, 23_platform.md R399, R400) -/

/-- Whether a value is 0 or in a range. -/
def zeroOrIn (x lo hi : Nat) : Bool := x == 0 || (decide (lo ≤ x) && decide (x ≤ hi))

/-- The ranges of R399, in units of 100 MHz, hours, ms, ns and powers of two. -/
def imageFieldsOk (m : BootImage) : Bool :=
  m.repair.length == 4 && m.repair.all (fun l => l.eraseDups.length == 192 && l.length == 192 && l.all (fun c => decide (c < 208))) &&
  decide (12 ≤ m.freqMax) && decide (m.freqMax ≤ 27) &&
  m.partitions.length == 4 && [1, 2, 4].contains m.partitions.eraseDups.length && m.partitions.all (fun p => decide (p < 4)) &&
  m.cxlPorts.length == 2 && decide (1 ≤ m.scrubHours) && decide (m.scrubHours ≤ 168) && decide (1 ≤ m.timeoutMs) &&
  decide (m.timeoutMs ≤ 64) && m.weights.length == 16 && m.weights.all (fun w => decide (w < 2 ^ 16)) &&
  zeroOrIn m.tpd 500 100000 && zeroOrIn m.tsr 10000 10000000 && decide (30 ≤ m.bar2Log) && decide (m.bar2Log ≤ 39)

/-- An image verifies (23_platform.md R400). -/
def imageVerifies (s : State) (m : BootImage) : Bool := m.imageOk && decide (s.plat.counter ≤ m.version) && imageFieldsOk m

/-- The row-remap table that an image gives a pseudo-channel: its first copy that passes its check; none when both fail; a channel for which
the image lists no copy has no failed row. -/
def imageRows (m : BootImage) (port pc : Nat) : Option (List (Nat × Nat)) :=
  let l := m.remap.filter (fun t => t.port == port && t.pc == pc)
  if l.isEmpty then some [] else (l.find? (fun t => t.ok)).map (fun t => t.rows)

/-- The physical address that a row-remap event names: one of the port's stack that the spec does not tell, a free value (23_platform.md
R396, log entry 91). -/
def remapPa (s : State) (port : Nat) : Nat := granulePa port (Config.freeNat s.free % stackGranules)

/-- A row-remap event is logged (23_platform.md R396 kind 7): 1 corrected, 2 reloaded, 3 retired. -/
def remapEvent (s : State) (port pc what : Nat) : State :=
  hostError { s with free := s.free + 1 } 7 (0x10 + port) 0 (pc + 2 ^ 8 * what) (remapPa s port) 0

/-- ROW_REMAP_RELOAD_DONE (11_traps.md R223, 23_platform.md R399): the image, read and checked again, gives the channel its table and the held
requests are released; it raises the monotonic counter as at the boot (R400). An image that does not verify, or a table that fails its check, retires the channel, and its extents leave it. -/
def execRowRemapReloadDone (port pc : Nat) (img : BootImage) (s : State) : Result :=
  let k := chanKey port pc
  let c := s.chan k
  if !c.reload then .next s
  else
    match (if imageVerifies s img then imageRows img port pc else none) with
    | some rows =>
      let s := { s with plat := { s.plat with counter := max s.plat.counter img.version } }
      .next (remapEvent (wakeChan (s.setChan k { c with copies := 2, reload := false, rows := rows }) k) port pc 2)
    | none =>
      let s := wakeChan (s.setChan k { c with copies := 0, reload := false, retired := true, rows := [] }) k
      .next (evacuateAll (remapEvent s port pc 3))

end Sys2Proof.Machine
end

