-- ==== Sys2Proof/Machine/EngineOps.lean ====
section
/-! DEFINITION. What the engines share: engine addresses (13_engines.md R256), the bytes they reach and the checks of each byte
(R260), what makes an access wait at a port or at home, tokens (R258), interval locks (09_extents.md R188, R189). -/
namespace Sys2Proof.Machine

/-- A number joins a rising list. -/
def insertNat (n : Nat) : List Nat → List Nat
  | [] => [n]
  | x :: r => if n < x then n :: x :: r else if n = x then x :: r else x :: insertNat n r

/-! ### Engine addresses -/

/-- An engine address (13_engines.md R256). -/
inductive Eng
  | glob (va : Nat)
  | own (off : Nat)
  | cm (dx dy : Int) (off : Nat)
  | cst (cl : Int) (off : Nat)
  deriving DecidableEq, Repr

/-- The ranges of a packed core offset (02_encoding.md R43). -/
def coreOffOk (dx dy : Int) : Bool := decide (-15 ≤ dx) && decide (-11 ≤ dy) && decide (dy ≤ 11)

/-- An engine address is read; none for a reserved space, a nonzero must-be-zero bit or a rejected place (R256, R257). -/
def parseEng (a : Nat) : Option Eng :=
  let p := a % 2 ^ 60
  match a / 2 ^ 60 with
  | 0 => if p < 2 ^ 56 then some (.glob p) else none
  | 1 => if p < 2 ^ 18 then some (.own p) else none
  | 2 =>
    if p < 2 ^ 32 ∧ bitsOf p 18 4 = 0 ∧ coreOffOk (sfield p 27 5) (sfield p 22 5) then
      some (.cm (sfield p 27 5) (sfield p 22 5) (bitsOf p 0 18))
    else none
  | 3 => if p < 2 ^ 32 ∧ bitsOf p 25 4 = 0 ∧ sfield p 29 3 ≠ -4 then some (.cst (sfield p 29 3) (bitsOf p 0 25)) else none
  | _ => none

/-- An engine address moved by a signed distance: modulo 2^64 in space 0, and within the place's offset field where the command
says so (13_engines.md R263). -/
def Eng.move (e : Eng) (k : Int) (wrap : Bool) : Eng :=
  let off (o bits : Nat) : Nat := if wrap then (((o : Int) + k) % (2 ^ bits : Nat)).toNat else ((o : Int) + k).toNat
  match e with
  | .glob va => .glob (((va : Int) + k) % (2 ^ 64 : Nat)).toNat
  | .own o => .own (off o 18)
  | .cm dx dy o => .cm dx dy (off o 18)
  | .cst cl o => .cst cl (off o 25)

/-- The start of an engine address, and the modulus within which a rectangle's addresses wrap (13_engines.md R263). -/
def Eng.start (e : Eng) : Nat := match e with | .glob va => va | .own o => o | .cm _ _ o => o | .cst _ o => o
def Eng.modulus (e : Eng) : Nat := match e with | .glob _ => 2 ^ 64 | .own _ => 2 ^ 18 | .cm _ _ _ => 2 ^ 18 | .cst _ _ => 2 ^ 25

/-- The address under which an audited block's engine bytes are folded (11_traps.md R226). -/
def Eng.foldAddr (e : Eng) (canon : Nat) : Nat :=
  match e with
  | .glob _ => canon
  | .own o => 2 ^ 60 + o
  | .cm dx dy o => 2 * 2 ^ 60 + (dx % 32).toNat * 2 ^ 27 + (dy % 32).toNat * 2 ^ 22 + o % 2 ^ 18
  | .cst cl o => 3 * 2 ^ 60 + (cl % 8).toNat * 2 ^ 29 + o % 2 ^ 25

/-! ### Bytes -/

/-- Where one byte of an engine's access lies. -/
inductive Loc
  | glob (va canon : Nat)
  | spad (blk off : Nat)
  | cst (cluster off : Nat)
  deriving DecidableEq, Repr

/-- The check of one byte of an engine's access: its place, or the cause of its failure; cause 0 is a corrupt extent table
(13_engines.md R258, R260). The inputs of auditable tasks are read-only (11_traps.md R225). -/
def engByte (s : State) (core blk ctx : Nat) (e : Eng) (need : Nat) : Except Nat Loc :=
  match e with
  | .glob va =>
    match devCheck s ctx va 1 need with
    | .ok x =>
      if need &&& permW != 0 && auditInput s ctx x.xid then .error 2
      else if canonDesc s ctx (canonical x va) == .corrupt then .error 0
      else .ok (.glob va (canonical x va))
    | .limit _ _ => .error 1
    | .perm _ _ _ => .error 2
    | .corrupt => .error 0
  | .own o => if o < (s.blk blk).spadLen then .ok (.spad blk o) else .error 1
  | .cm dx dy o =>
    match groupBlock s blk dx dy with
    | some b => if o < (s.blk b).spadLen then .ok (.spad b o) else .error 1
    | none => .error 1
  | .cst cl o =>
    if o < effCsLen s (s.blk blk).region then .ok (.cst (clusterAt (coreCluster core) cl) (effCsBase s (s.blk blk).region + o))
    else .error 1

/-- One byte at its place, and whether it returns an uncorrectable error. -/
def readLoc (s : State) (ctx : Nat) (l : Loc) : Byte × Bool :=
  match l with
  | .glob _ c =>
    match canonDesc s ctx c with
    | .found d => homeByte s d c
    | _ => (0, true)
  | .spad b o => ((localRead s (.spad b) o 1).getD 0 0, false)
  | .cst c o => ((localRead s (.store c) o 1).getD 0 0, false)

/-! ### What makes an access wait -/

/-- Whether a place waits, and the state in which it does; the port is the entry port of the cluster's requests (09_extents.md R180). -/
def locWait (s : State) (cluster ctx : Nat) (l : Loc) (wr : Bool) : Option State :=
  match l with
  | .glob _ c =>
    match canonDesc s ctx c with
    | .found d => byteWait s (entryPort cluster c) d c wr
    | .corrupt => some (deviceError s)
    | .none => none
  | _ => none

/-- Whether a byte fails because it can no longer be had. -/
def locDead (s : State) (ctx : Nat) (l : Loc) (wr : Bool) : Bool :=
  match l with
  | .glob _ c =>
    match canonDesc s ctx c with
    | .found d => byteDead s d c wr
    | _ => true
  | _ => false

/-- What an engine's read of a place does besides its byte. -/
def useLoc (s : State) (ctx : Nat) (l : Loc) : State :=
  match l with
  | .glob _ c =>
    match canonDesc s ctx c with
    | .found d => useByte s d c false
    | _ => s
  | _ => s

/-- Sectors that some writes of classes no cache holds cover whole lose their marks first (11_traps.md R222). -/
def clearWholes (s : State) (l : List (Desc × Nat)) : State :=
  clearWhole s ((l.filter (fun p => !cachedClass p.1.ent.cls)).map (fun p => devicePlace s p.1 (p.2 - p.1.ent.base)))

/-- The extent bytes of some places. -/
def locBytes (s : State) (ctx : Nat) (l : List Loc) : List (Desc × Nat) :=
  l.filterMap (fun x => match x with
    | .glob _ c => (match canonDesc s ctx c with | .found d => some (d, c) | _ => none)
    | _ => none)

/-- One byte is written at its place; a write of global memory recalls an owner and drains holders first (12_atomics.md R233,
R249). -/
def writeLoc (s : State) (ctx : Nat) (l : Loc) (b : Byte) : State :=
  match l with
  | .glob _ c =>
    match canonDesc s ctx c with
    | .found d => homeWrite (useByte s d c true) d c [b]
    | _ => s
  | .spad b' o => localWrite s (.spad b') o [b]
  | .cst c o => localWrite s (.store c) o [b]

/-- A byte of global memory is written with the poison mark; at a local level nothing is written (13_engines.md R260). -/
def poisonLoc (s : State) (ctx : Nat) (l : Loc) : State :=
  match l with
  | .glob _ c =>
    match canonDesc s ctx c with
    | .found d => homePoison (useByte s d c true) d c 1
    | _ => s
  | _ => s

/-- An error that an engine found in a source byte is escalated (11_traps.md R221). -/
def escalateLoc (s : State) (ctx : Nat) (l : Loc) : State :=
  match l with
  | .glob va c =>
    match canonDesc s ctx c with
    | .found d => escalate s ctx d.ent.xid d.ent.cls (devicePlace s d (c - d.ent.base)) 1 (va / 32 * 32)
    | _ => s
  | _ => s

/-- Whether writing some bytes of a sector, and not all 32, meets a poison mark (11_traps.md R222). -/
def locNarrow (s : State) (ctx : Nat) (all : List Loc) (l : Loc) : Bool :=
  match l with
  | .glob _ c =>
    match canonDesc s ctx c with
    | .found d =>
      let n := ((all.filterMap (fun x => match x with | .glob _ c' => if c' / 32 = c / 32 then some c' else none | _ => none)).eraseDups).length
      narrowError s d c n
    | _ => true
  | _ => false

/-! ### Tokens, barriers and locks -/

/-- A completion token (13_engines.md R258). -/
def tokenWord (st cause off : Nat) : Word := BitVec.ofNat 32 (2 ^ 30 * st + 2 ^ 25 * cause + off % 2 ^ 25)

/-- The check of a command's barrier word; an audit replay's operation charges no foreign object (13_engines.md R256, R257,
11_traps.md R226). -/
def engBar (s : State) (core blk : Nat) (lanes a : Word) : Except FaultInfo (Option ObjRef) :=
  if a = 0xFFFFFFFF then .ok none
  else
    match barAddr s core blk false a.toNat with
    | .ok r =>
      let outside := match r with | .area b _ => b != blk | .store _ _ => true
      .ok (if (s.blk blk).isReplay && outside then none else some r)
    | .limit => .error { cls := clsLimit, lanes := lanes, sva := a.toNat, space := 6 }
    | .misaligned => .error { cls := clsMisaligned, lanes := lanes, sva := a.toNat, space := 6, detail := 32 }

/-- The interval that a side of an operation locks, from offsets given relative to its start; a target outside the group rectangle has none.
A global side counts from its canonical start (09_extents.md R188). -/
def engLock (s : State) (core blk ctx op : Nat) (dst : Bool) (e : Eng) (lo hi : Int) : Option Lock :=
  let mk (sp : LockSpace) (base : Nat) : Lock := ⟨op, dst, sp, ((base : Int) + lo).toNat, ((base : Int) + hi).toNat⟩
  match e with
  | .glob va =>
    let base := match walk s ctx va with | .found d => canonical d.ent va | _ => va
    some (mk (.global ctx) base)
  | .own o => some (mk (.spad blk) o)
  | .cm dx dy o => (groupBlock s blk dx dy).map (fun b => mk (.spad b) o)
  | .cst cl o =>
    let c := clusterAt (coreCluster core) cl
    some (mk (.store c) (effCsBase s (s.blk blk).region + o))

/-- The entries of an operation are freed in its core's table and its cluster's (09_extents.md R189). -/
def freeLocks (s : State) (core op : Nat) : State :=
  let s := s.updCore core (fun k => { k with ilt := k.ilt.filter (fun l => l.op != op) })
  let c := coreCluster core
  { s with work := { s.work with ilts := mset [] s.work.ilts c ((mget s.work.ilts [] c).filter (fun l => l.op != op)) } }

/-- The token of an operation is written to its warp when it still takes it, and the cp counter falls (13_engines.md R259, R269). -/
def putToken (s : State) (core wslot : Nat) (live : Bool) (tk : Nat) (tok : Word) : State :=
  s.updWarp core wslot (fun w => { (if live then w.setS tk tok else w) with cp := w.cp - 1 })

/-- The words of a command block. -/
def State.command (s : State) (cb : SReg) (n : Nat) : List Word := (List.range n).map (fun k => s.hwarp.s (cb.val + k))

/-- Word k of a command block, and the pair of words from k on. -/
def cmdWord (c : List Word) (k : Nat) : Nat := (c.getD k 0).toNat
def cmdPair (c : List Word) (k : Nat) : Nat := cmdWord c k + 2 ^ 32 * cmdWord c (k + 1)

end Sys2Proof.Machine
end

