-- ==== Sys2Proof/Machine/Copies.lean ====
section
/-! DEFINITION. The copy engine: `cp.start`, `cp.rect`, `cp.fill`, `cp.bcast`, `cp.tier`, `tok.test`, `cp.cancel` and the steps of an
operation (13_engines.md R254 to R269). -/
namespace Sys2Proof.Machine

/-- What a copy command says, with the geometry of its box (13_engines.md R262 to R265). -/
structure Copy where
  src : Option Eng
  dst : List Eng
  n0 : Nat
  n1 : Nat
  n2 : Nat
  n3 : Nat
  ss : List Int
  ds : List Int
  wrap : Bool
  pat : Nat
  bar : Word
  deriving DecidableEq, Repr

/-- Bytes of the operation's sequence. -/
def Copy.len (c : Copy) : Nat := c.n0 * c.n1 * c.n2 * c.n3

/-- A copy of one dimension. -/
def linear (src : Option Eng) (dst : List Eng) (n pat : Nat) (bar : Word) : Copy :=
  { src := src, dst := dst, n0 := n, n1 := 1, n2 := 1, n3 := 1, ss := [0, 0, 0], ds := [0, 0, 0], wrap := false, pat := pat, bar := bar }

/-- A stride word. -/
def stride (c : List Word) (k : Nat) : Int := (c.getD k 0).toInt

/-- The targets of a `cp.bcast` (13_engines.md R265). -/
def bcastTargets (x off : Nat) : List Eng :=
  let w := bitsOf x 18 4 + 1
  let h := bitsOf x 14 4 + 1
  ((List.range h).map (fun (t : Nat) => (List.range w).map (fun (u : Nat) => Eng.cm (sfield x 27 5 + (u : Nat)) (sfield x 22 5 + (t : Nat)) off))).flatten

/-- A copy command is read; none where R257 raises illegal-instruction. -/
def parseCopy (code : Nat) (c : List Word) : Option Copy :=
  match code with
  | 0xD0 =>
    match parseEng (cmdPair c 0), parseEng (cmdPair c 2) with
    | some a, some b => if 1 ≤ cmdWord c 4 ∧ cmdWord c 4 ≤ 2 ^ 25 then some (linear (some a) [b] (cmdWord c 4) 0 (c.getD 5 0)) else none
    | _, _ => none
  | 0xD1 =>
    match parseEng (cmdPair c 0), parseEng (cmdPair c 2) with
    | some a, some b =>
      let r : Copy := { src := some a, dst := [b], n0 := bitsOf (cmdWord c 4) 0 16, n1 := bitsOf (cmdWord c 4) 16 16,
                        n2 := bitsOf (cmdWord c 5) 0 16, n3 := bitsOf (cmdWord c 5) 16 16, ss := [stride c 6, stride c 7, stride c 8],
                        ds := [stride c 9, stride c 10, stride c 11], wrap := true, pat := 0, bar := c.getD 12 0 }
      if 1 ≤ r.len ∧ r.len ≤ 2 ^ 25 then some r else none
    | _, _ => none
  | 0xD2 =>
    match parseEng (cmdPair c 0) with
    | some b => if 1 ≤ cmdWord c 2 ∧ cmdWord c 2 ≤ 2 ^ 25 then some (linear none [b] (cmdWord c 2) (cmdWord c 3) (c.getD 4 0)) else none
    | none => none
  | 0xD9 =>
    match parseEng (cmdPair c 0) with
    | some a =>
      let x := cmdWord c 3
      if cmdWord c 2 < 2 ^ 18 ∧ bitsOf x 0 14 = 0 ∧ bitsOf x 14 4 ≤ 11 ∧ coreOffOk (sfield x 27 5) (sfield x 22 5) ∧
          1 ≤ cmdWord c 4 ∧ cmdWord c 4 ≤ 262144 then
        some (linear (some a) (bcastTargets x (cmdWord c 2)) (cmdWord c 4) 0 (c.getD 5 0))
      else none
    | none => none
  | _ => none

/-- The distance of copy offset q from the start of a side (13_engines.md R263). -/
def Copy.dist (c : Copy) (st : List Int) (q : Nat) : Int :=
  (q % c.n0 : Nat) + (q / c.n0 % c.n1 : Nat) * st.getD 0 0 + (q / c.n0 / c.n1 % c.n2 : Nat) * st.getD 1 0 +
    (q / c.n0 / c.n1 / c.n2 : Nat) * st.getD 2 0

/-- The bounds of a side around its start, without the wrap of its address. -/
def Copy.span (c : Copy) (st : List Int) : Int × Int :=
  let ends := [((c.n1 : Int) - 1) * st.getD 0 0, ((c.n2 : Int) - 1) * st.getD 1 0, ((c.n3 : Int) - 1) * st.getD 2 0]
  (ends.foldl (fun a x => a + min 0 x) 0, ends.foldl (fun a x => a + max 0 x) (c.n0 : Int))

/-- The starts of the box's runs of n0 bytes, around the start of a side. -/
def Copy.runs (c : Copy) (st : List Int) : List Int :=
  ((List.range c.n3).map (fun (i3 : Nat) => ((List.range c.n2).map (fun (i2 : Nat) => (List.range c.n1).map (fun (i1 : Nat) =>
    (i1 : Int) * st.getD 0 0 + (i2 : Int) * st.getD 1 0 + (i3 : Int) * st.getD 2 0))).flatten)).flatten

/-- The least range that covers every byte of a side, around its start: where an address of the box wraps in its place's offset field, the
range of the wrapped addresses (13_engines.md R263). -/
def Copy.range (c : Copy) (st : List Int) (e : Eng) : Int × Int :=
  let p := c.span st
  let a : Int := e.start
  let m : Int := e.modulus
  if !c.wrap ∨ (0 ≤ a + p.1 ∧ a + p.2 ≤ m) then p
  else
    let one (r : Int) : Int × Int :=
      let lo := (a + r) % m
      if lo + c.n0 ≤ m then (lo, lo + c.n0) else (0, m)
    match c.runs st with
    | [] => p
    | r :: rs =>
      let x := rs.foldl (fun (b : Int × Int) r => (min b.1 (one r).1, max b.2 (one r).2)) (one r)
      (x.1 - a, x.2 - a)

/-- The intervals that a copy registers: its source and its destination; a broadcast registers the destination only where the
issuing block is a target (13_engines.md R262 to R265, 09_extents.md R188). -/
def copyLocks (s : State) (core blk ctx op code : Nat) (c : Copy) : List Lock :=
  let side (dst : Bool) (st : List Int) (e : Eng) : Option Lock := engLock s core blk ctx op dst e (c.range st e).1 (c.range st e).2
  let src := (c.src.bind (side false c.ss)).toList
  let dst := if code = 0xD9 then
      (c.dst.find? (fun e => match e with | .cm dx dy _ => groupBlock s blk dx dy == some blk | _ => false)).toList
    else c.dst
  src ++ dst.filterMap (side true c.ds)

/-- The block of a broadcast's target. -/
def targetBlock (s : State) (blk : Nat) (e : Eng) : Option Nat :=
  match e with
  | .cm dx dy _ => groupBlock s blk dx dy
  | _ => none

/-- Whether a broadcast fails when it starts: a target lies outside the group rectangle, or holds no object of a form 0 barrier's
index (13_engines.md R265). -/
def bcastBad (s : State) (blk : Nat) (c : Copy) : Bool :=
  c.dst.any (fun e => match targetBlock s blk e with
    | some b => decide (bitsOf c.bar.toNat 30 2 = 0) && decide ((s.blk b).bars ≤ bitsOf c.bar.toNat 0 8)
    | none => true)

/-- Whether a copy word is held: its warp's cp counter or its core's copy engine is full (13_engines.md R255). -/
def copyHeld (s : State) (core : Nat) (w : Warp) : Bool :=
  decide (6 ≤ w.cp) || decide (6 ≤ (s.work.ops.filter (fun p => p.2.core == core)).length)

/-- An operation is entered and counted. -/
def enterOp (s : State) (id : Nat) (o : Op) : State :=
  (s.setOp id o).updWarp o.core o.wslot (fun w => { w with cp := w.cp + 1 })

/-- A new operation. -/
def newOp (core wslot blk ctx code : Nat) (cmd : List Word) (tk : Nat) (bar : Option ObjRef) (len task : Nat) : Op :=
  { core := core, wslot := wslot, live := true, blk := blk, ctx := ctx, code := code, cmd := cmd, tk := tk, bar := bar, len := len,
    pieces := [], done := 0, fail := none, cancel := false, ended := false, task := task }

/-- A copy starts for a warp; none when its locks do not fit (09_extents.md R188). -/
def startCopy (s : State) (core wslot blk ctx code : Nat) (cmd : List Word) (c : Copy) (tk : Nat) (bar : Option ObjRef) (task : Nat) :
    Option State :=
  let (id, s) := s.fresh
  let ls := copyLocks s core blk ctx id code c
  if Config.coreIlt < (s.core core).ilt.length + ls.length then none
  else
    let o := newOp core wslot blk ctx code cmd tk bar c.len task
    let o := if code = 0xD9 ∧ bcastBad s blk c then { o with fail := some (0, 1), ended := true } else o
    some (enterOp (s.updCore core (fun k => { k with ilt := k.ilt ++ ls })) id o)

/-- A copy word (13_engines.md R255, R257). -/
def copyWord (s : State) (code n : Nat) (cb tk : SReg) : Result :=
  if copyHeld s s.hcore s.hwarp then .next s
  else
    let cmd := s.command cb n
    match parseCopy code cmd with
    | none => .next s.illegal
    | some c =>
      match engBar s s.hcore s.hwarp.blk s.em c.bar with
      | .error f => .next (s.raise f)
      | .ok bar =>
        match startCopy s s.hcore s.run.wslot s.hwarp.blk s.hwarp.ctx code cmd c tk.val bar 0 with
        | some s' => .next (s'.advance 1)
        | none => .next s

def execCpStart (cb tk : SReg) (s : State) : Result := copyWord s 0xD0 6 cb tk
def execCpRect (cb tk : SReg) (s : State) : Result := copyWord s 0xD1 13 cb tk
def execCpFill (cb tk : SReg) (s : State) : Result := copyWord s 0xD2 5 cb tk
def execCpBcast (cb tk : SReg) (s : State) : Result := copyWord s 0xD9 6 cb tk

/-! ### `cp.tier` (13_engines.md R266) -/

/-- What a `cp.tier` does when it starts: the cause of its failure, 0 when its slide is accepted, 99 when the extent is in the
requested tier already. -/
def tierStart (s : State) (blk ctx : Nat) (cmd : List Word) (op : Nat) : Nat × State :=
  let k := bitsOf (cmdWord cmd 2) 1 4
  let up := bitsOf (cmdWord cmd 2) 0 1 == 1
  let cause (x : Nat × State) : Nat × State := if x.1 = 0 then x else (if x.1 = 3 then 6 else 8, s)
  match handleDesc s ctx (cmdPair cmd 0) with
  | none => (4, if handleCorrupt s ctx (cmdPair cmd 0) then deviceError s else s)
  | some d =>
    if !d.movable then (5, s)
    else if sliding s d then (6, s)
    else if d.inHost != up then (99, s)
    else if up then cause (promote s d k op true)
    else if d.pin then (7, s)
    else cause (demote s d (effPart s (s.blk blk).region) k op)

/-- A `cp.tier` starts for a warp. -/
def startTier (s : State) (core wslot blk ctx : Nat) (cmd : List Word) (tk : Nat) (bar : Option ObjRef) (task : Nat) : State :=
  let (id, s) := s.fresh
  let x := tierStart s blk ctx cmd (id + 1)
  let o := newOp core wslot blk ctx 0xD3 cmd tk bar 32 task
  enterOp x.2 id (if x.1 = 0 then o else { o with ended := true, fail := if x.1 = 99 then none else some (0, x.1) })

/-- Whether the control word of a `cp.tier` is legal. -/
def tierOk (cmd : List Word) : Bool := decide (cmdWord cmd 2 < 32) && decide (bitsOf (cmdWord cmd 2) 1 4 ≤ 11)

def execCpTier (cb tk : SReg) (s : State) : Result :=
  if s.hblk.isReplay then .next (endReplay s s.hwarp.blk 4 0)
  else if copyHeld s s.hcore s.hwarp then .next s
  else
    let cmd := s.command cb 4
    if !tierOk cmd then .next s.illegal
    else
      match engBar s s.hcore s.hwarp.blk s.em (cmd.getD 3 0) with
      | .error f => .next (s.raise f)
      | .ok bar => .next ((startTier s s.hcore s.run.wslot s.hwarp.blk s.hwarp.ctx cmd tk.val bar 0).advance 1)

/-! ### The pieces of a copy (13_engines.md R260, R261) -/

/-- Pieces of an operation. -/
def Op.count (o : Op) : Nat := (o.len + 31) / 32

/-- The lower failure of two (13_engines.md R260). -/
def lowerFail (a b : Option (Nat × Nat)) : Option (Nat × Nat) :=
  match a, b with
  | some x, some y => if y.1 < x.1 then some y else some x
  | none, y => y
  | x, none => x

/-- One byte of a piece that passes its checks: its copy offset, its source and its targets with the address each is folded at. -/
structure PByte where
  q : Nat
  src : Option Loc
  dst : List (Loc × Nat)
  deriving DecidableEq, Repr

/-- The checks of a byte of a piece: the source first, then each target. -/
def pieceByte (s : State) (o : Op) (c : Copy) (q : Nat) : Except Nat PByte :=
  let src : Except Nat (Option Loc) := match c.src with
    | none => .ok none
    | some e => (engByte s o.core o.blk o.ctx (e.move (c.dist c.ss q) c.wrap) permR).map some
  match src with
  | .error x => .error x
  | .ok l =>
    let go (a : Except Nat (List (Loc × Nat))) (e : Eng) : Except Nat (List (Loc × Nat)) :=
      match a with
      | .error x => .error x
      | .ok ls =>
        let e' := e.move (c.dist c.ds q) c.wrap
        match engByte s o.core o.blk o.ctx e' permW with
        | .error x => .error x
        | .ok d => .ok (ls ++ [(d, e'.foldAddr (match d with | .glob _ k => k | _ => 0))])
    match c.dst.foldl go (.ok []) with
    | .error x => .error x
    | .ok ds => .ok ⟨q, l, ds⟩

/-- The bytes of a piece below its first failing byte, with that failure. -/
def pieceBytes (s : State) (o : Op) (c : Copy) : Nat → Nat → List PByte × Option (Nat × Nat)
  | _, 0 => ([], none)
  | q, n + 1 =>
    match pieceByte s o c q with
    | .error x => ([], some (q, x))
    | .ok b => let r := pieceBytes s o c (q + 1) n; (b :: r.1, r.2)

/-- The bytes below the first that would write part of a poisoned sector (11_traps.md R222) or that cannot reach its host line. -/
def cutNarrow (s : State) (ctx : Nat) (bs : List PByte) (f : Option (Nat × Nat)) : List PByte × Option (Nat × Nat) :=
  let all := (bs.map (fun b => b.dst.map Prod.fst)).flatten
  match bs.find? (fun b => b.dst.any (fun l => locNarrow s ctx all l.1 || locDead s ctx l.1 true)) with
  | some b => (bs.takeWhile (fun x => x.q != b.q), some (b.q, 3))
  | none => (bs, f)

/-- A target of an audited block's engine byte is performed, or only folded (11_traps.md R226). -/
def Op.performs (s : State) (o : Op) (l : Loc) : Bool :=
  match l with
  | .spad b _ => b == o.blk || !(s.blk o.blk).isReplay
  | _ => !(s.blk o.blk).isReplay

/-- Bytes that an audited block's engine writes outside the block's own scratchpad are folded. -/
def foldPiece (s : State) (o : Op) (ws : List (PByte × Byte)) : State :=
  foldSig s o.blk (((ws.map (fun w => (w.1.dst.filter (fun l => match l.1 with | .spad b _ => b != o.blk | _ => true)).map
    (fun l => (l.2, [w.2])))).flatten))

/-- The bytes of a piece are written. -/
def writePiece (s : State) (o : Op) (ws : List (PByte × Byte)) : State :=
  let places := ((ws.map (fun w => (w.1.dst.filter (fun l => o.performs s l.1)).map Prod.fst))).flatten
  ws.foldl (fun s w => w.1.dst.foldl (fun s l => if o.performs s l.1 then writeLoc s o.ctx l.1 w.2 else s) s)
    (clearWholes (foldPiece s o ws) (locBytes s o.ctx places))

/-- What a piece of a copy does: it waits, or its bytes are performed (13_engines.md R260). -/
def performPiece (s : State) (id : Nat) (o : Op) (c : Copy) (j : Nat) : State :=
  let p := pieceBytes s o c (32 * j) (min 32 (o.len - 32 * j))
  let (bs, f) := cutNarrow s o.ctx p.1 p.2
  let cl := coreCluster o.core
  let waits := bs.filterMap (fun b => (b.src.bind (fun l => locWait s cl o.ctx l false)).orElse
    (fun _ => (b.dst.filterMap (fun l => locWait s cl o.ctx l.1 true)).head?))
  match waits with
  | s' :: _ => s'
  | [] =>
    if (f.map Prod.snd) == some 0 then deviceError s
    else
      let read (b : PByte) : Byte × Bool := match b.src with
        | some l => if locDead s o.ctx l false then (0, true) else readLoc s o.ctx l
        | none => (BitVec.ofNat 8 (bitsOf c.pat (8 * (b.q % 4)) 8), false)
      let rs := bs.map (fun b => (b, read b))
      let s := bs.foldl (fun s b => match b.src with | some l => useLoc s o.ctx l | none => s) s
      match rs.find? (fun x => x.2.2) with
      | some x =>
        let s := bs.foldl (fun s b => b.dst.foldl (fun s l => if o.performs s l.1 then poisonLoc s o.ctx l.1 else s) s) s
        let s := s.setOp id { o with pieces := insertNat j o.pieces, fail := lowerFail o.fail (some (32 * j, 3)) }
        match x.1.src with
        | some l => escalateLoc s o.ctx l
        | none => s
      | none =>
        let s := writePiece s o (rs.map (fun x => (x.1, x.2.1)))
        s.setOp id { o with pieces := insertNat j o.pieces, done := o.done + bs.length, fail := lowerFail o.fail f }

/-- COPY_PIECE (13_engines.md R260). -/
def execCopyPiece (op j : Nat) (s : State) : Result :=
  match s.op op with
  | none => .next s
  | some o =>
    if o.stage ≠ 0 || o.ended || o.cancel || o.pieces.contains j || decide (o.count ≤ j) then .next s
    else
      match parseCopy o.code o.cmd with
      | some c => .next (performPiece s op o c j)
      | none => .next s

/-! ### Completion (13_engines.md R259) -/

/-- The lowest offset of a piece that has not been performed. -/
def Op.unperformed (o : Op) : Option Nat := ((List.range o.count).find? (fun j => !o.pieces.contains j)).map (32 * ·)

/-- The token of an operation that ends: state, cause and offset (13_engines.md R258, R268). -/
def Op.result (o : Op) : Nat × Nat × Nat :=
  match (if o.cancel && !o.ended then o.unperformed else none) with
  | some q => (3, 0, match o.fail with | some f => min f.1 q | none => q)
  | none => match o.fail with
    | some f => (2, f.2, f.1)
    | none => (1, 0, 0)

/-- The objects that an operation charges, with their bytes (13_engines.md R260, R265, R266). -/
def opCharges (s : State) (o : Op) : List (ObjRef × Nat) :=
  match o.bar with
  | none => []
  | some r =>
    match (if o.code = 0xD9 then parseCopy o.code o.cmd else none) with
    | some c =>
      if bitsOf c.bar.toNat 30 2 = 0 then
        (c.dst.filterMap (targetBlock s o.blk)).filterMap (fun b =>
          let i := bitsOf c.bar.toNat 0 8
          if i < (s.blk b).bars ∧ (b = o.blk ∨ !(s.blk o.blk).isReplay) then some (.area b i, o.len) else none)
      else [(r, o.len * c.dst.length)]
    | none => [(r, o.len)]

/-- A task whose command has ended fails when the token says so (21_work.md R360). -/
def opTask (s : State) (task st cause : Nat) : State :=
  if task = 0 ∨ st = 1 then s
  else
    match s.task (task - 1) with
    | some t => devWrite (s.setTask (task - 1) { t with failed := true }) t.ctx (t.tcb + 0x51) [BitVec.ofNat 8 cause]
    | none => s

/-- The end of an operation, one stage of R259 at a time: its ILT entries are freed; then its charge is added; then its token is written and
the cp counter falls. What the token will say is settled with the first stage. -/
def completeOp (s : State) (id : Nat) (o : Op) : State :=
  let r := o.close.getD o.result
  match o.stage with
  | 0 => freeLocks (s.setOp id { o with stage := 1, close := some r }) o.core id
  | 1 => (opCharges s o).foldl (fun s c => charge s (some c.1) c.2 (r.1 != 1)) (s.setOp id { o with stage := 2 })
  | _ =>
    let s := putToken s o.core o.wslot o.live o.tk (tokenWord r.1 r.2.1 r.2.2)
    opTask { s with work := { s.work with ops := mdel s.work.ops id } } o.task r.1 r.2.1

/-- What the end of an engine operation of a task writes: the cause of a command that failed (21_work.md R360). -/
def opAccs (s : State) (stage task st : Nat) : List DevAcc :=
  if stage ≤ 1 ∨ task = 0 ∨ st = 1 then []
  else match s.task (task - 1) with | some t => [⟨t.ctx, t.tcb + 0x51, 1, true⟩] | none => []

/-- COPY_COMPLETE (13_engines.md R259, R266). -/
def execCopyComplete (op : Nat) (s : State) : Result :=
  match s.op op with
  | none => .next s
  | some o =>
    if o.stage ≠ 0 || o.ended || (o.code != 0xD3 && (o.cancel || o.unperformed.isNone)) then 
      .next (devTurn s (opAccs s o.stage o.task (o.close.getD o.result).1) (fun s => completeOp s op o))
    else .next s

/-! ### `tok.test` and `cp.cancel` -/

/-- The youngest outstanding operation of a warp that names a token scalar: a copy, or an exchange. -/
def youngestOp (s : State) (core wslot tk : Nat) : Option Nat :=
  (mkeys (s.work.ops.filter (fun p => p.2.core == core && p.2.wslot == wslot && p.2.live && p.2.tk == tk))).getLast?
def youngestPart (s : State) (core wslot tk : Nat) : Option Nat :=
  (mkeys (s.work.parts.filter (fun p => p.2.core == core && p.2.wslot == wslot && p.2.live && p.2.tk == tk))).getLast?

/-- `tok.test` (13_engines.md R267). -/
def execTokTest (tk d : SReg) (s : State) : Result :=
  let c := youngestOp s s.hcore s.run.wslot tk.val
  let x := youngestPart s s.hcore s.run.wslot tk.val
  let answer (v : Word) (b : Bool) : Result := .next ((s.updHere (fun w => (w.setS d.val v).setScc b)).advance 1)
  let bytes (i : Nat) : Nat := match s.op i with | some o => if o.code = 0xD3 then 0 else min o.done 0x1FFFFFF | none => 0
  match c, x with
  | some i, some j => if i < j then answer 0 false else answer (BitVec.ofNat 32 (bytes i)) false
  | some i, none => answer (BitVec.ofNat 32 (bytes i)) false
  | none, some _ => answer 0 false
  | none, none => answer (s.hwarp.s tk.val) true

/-- `cp.cancel` (13_engines.md R268). -/
def execCpCancel (tk d : SReg) (s : State) : Result :=
  match youngestOp s s.hcore s.run.wslot tk.val with
  | some i =>
    let s := match s.op i with | some o => if o.code = 0xD3 ∨ o.stage ≠ 0 then s else s.setOp i { o with cancel := true } | none => s
    .next (s.status d 0 1)
  | none => .next (s.status d 1 1)

end Sys2Proof.Machine
end

