-- ==== Sys2Proof/Machine/Links.lean ====
section
/-! DEFINITION. Fabric links: packets (15_remote.md R305), flits and their CRC (R300, R301, R304), receipt and replay (R302), slots of
the virtual channels (R303). -/
namespace Sys2Proof.Machine

/-! ### Packets (15_remote.md R305) -/

/-- Slots of a packet: 16 bytes each, the 32-byte header included. -/
def Packet.slots (p : Packet) : Nat := (32 + p.body.length + 15) / 16

/-- A packet's bytes, padded with 0 to whole slots. -/
def Packet.bytes (p : Packet) : List Byte :=
  let b := leBytes 1 p.kind ++ leBytes 1 p.op ++ leBytes 2 p.slots ++
    leBytes 4 (p.src % 4096 + 2 ^ 12 * (p.dst % 4096) + 2 ^ 24 * p.grp.toNat) ++ leBytes 2 p.sinc ++ leBytes 2 p.tinc ++
    leBytes 2 p.stream ++ leBytes 2 p.seq ++ leBytes 2 p.ctx ++ leBytes 2 p.tag ++ leBytes 4 p.wtag ++ leBytes 8 p.addr ++ p.body
  b ++ copies (16 * p.slots - b.length) 0

/-- The number in n bytes from an offset on. -/
def fieldAt (b : List Byte) (o n : Nat) : Nat := leNat ((b.drop o).take n)

/-- A packet read from its bytes; its body keeps the padding. -/
def parsePacket (b : List Byte) : Packet :=
  { kind := fieldAt b 0 1, op := fieldAt b 1 1, src := bitsOf (fieldAt b 4 4) 0 12, dst := bitsOf (fieldAt b 4 4) 12 12,
    grp := bitsOf (fieldAt b 4 4) 24 1 == 1, sinc := fieldAt b 8 2, tinc := fieldAt b 10 2, stream := fieldAt b 12 2,
    seq := fieldAt b 14 2, ctx := fieldAt b 16 2, tag := fieldAt b 18 2, wtag := fieldAt b 20 4, addr := fieldAt b 24 8,
    body := b.drop 32 }

/-- The virtual channel of a kind of packet: 0 requests, 1 replies, 2 acknowledgments (15_remote.md R300, log entry 36). -/
def vcOf (kind : Nat) : Nat := if kind = 2 then 1 else if kind = 3 ∨ kind = 4 ∨ kind = 7 then 2 else 0

/-! ### CRC (15_remote.md R301) -/

/-- One bit of the CRC register, most significant first, with the polynomial of ECMA-182. -/
def crcBit (r : DWord) : DWord := if r.getLsbD 63 then (r <<< 1) ^^^ 0x42F0E1EBA9EA3693 else r <<< 1

/-- One byte of the CRC. -/
def crcByte (r : DWord) (b : Byte) : DWord := Nat.repeat crcBit 8 (r ^^^ (b.zeroExtend 64 <<< 56))

/-- The CRC of a flit's bytes 0 to 247 for sequence number q. -/
def crc64 (q : Nat) (bs : List Byte) : Nat := (bs.foldl crcByte (~~~(BitVec.ofNat 64 (q % 2 ^ 32)))).toNat

/-! ### Sending -/

def State.link (s : State) (p : Nat) : Link := mget s.fab.links {} p
def State.setLink (s : State) (p : Nat) (l : Link) : State := { s with fab := { s.fab with links := mset {} s.fab.links p l } }

/-- The 256 bytes of a flit (15_remote.md R300, R304). -/
def flitBytes (q kind vc ret lack frame : Nat) (payload : List Byte) : List Byte :=
  let b := leBytes 8 (2 ^ 60 * kind + 2 ^ 58 * vc + 2 ^ 42 * (ret % 2 ^ 16) + 2 ^ 26 * (lack % 2 ^ 16) + frame % 2 ^ 26) ++ payload ++
    copies (240 - payload.length) 0
  b ++ leBytes 8 (crc64 q b)

/-- A link sends a flit: it is numbered, kept until it is acknowledged, and carries the ret of the next virtual channel in turn
(15_remote.md R301 to R303). -/
def Link.send (l : Link) (now kind vc slots frame : Nat) (payload : List Byte) : Link :=
  { l with
    q := (l.q + 1) % 2 ^ 32
    turn := (l.turn + 1) % 4
    tx := now
    held := l.held ++ [⟨l.q, vc, slots, flitBytes l.q kind l.turn (mget l.freed 0 l.turn) l.e frame payload⟩]
    sent := if slots = 0 then l.sent else mset 0 l.sent vc ((mget l.sent 0 vc + slots) % 2 ^ 16) }

/-- Slots that may be sent on a virtual channel (15_remote.md R303). -/
def Link.credit (l : Link) (vc : Nat) : Nat := (l.init + mget l.last 0 vc + 2 ^ 16 - mget l.sent 0 vc) % 2 ^ 16

/-- Whether a link may send another flit: it keeps 1,024 that are not acknowledged (15_remote.md R302). -/
def Link.room (l : Link) : Bool := l.mode == 0 && decide (l.held.length < 1024)

/-- The entry of the queue that the next data flit takes: the rest of a packet begun before, else the first whose virtual channel has
slots (15_remote.md R303, R304, log entry 36). -/
def Link.nextEntry (l : Link) : Option Nat :=
  match l.queue with
  | [] => none
  | (vc, _) :: _ =>
    if 4 ≤ vc then (if l.credit (vc % 4) = 0 then none else some 0)
    else (List.range l.queue.length).find? (fun i => match l.queue[i]? with
      | some (v, _) => l.credit v != 0
      | none => false)

/-- Data flits leave while slots are free; each carries slots of one packet (15_remote.md R303, R304). -/
def Link.pump : Nat → Nat → Link → Link
  | 0, _, l => l
  | k + 1, now, l =>
    if !l.room then l
    else
      match l.nextEntry with
      | none => l
      | some i =>
        match l.queue[i]? with
        | none => l
        | some (v, bs) =>
          let n := min (min 15 (bs.length / 16)) (l.credit (v % 4))
          let l' := l.send now 1 (v % 4) n (if 4 ≤ v then 2 ^ 15 else 1) (bs.take (16 * n))
          let rest := bs.drop (16 * n)
          let q := l.queue.eraseIdx i
          Link.pump k now { l' with queue := if rest.isEmpty then q else (v % 4 + 4, rest) :: q }

/-- What a link may send now, it sends: each flit takes at least one slot of the queue. -/
def Link.flush (l : Link) (now : Nat) : Link := l.pump (l.queue.foldl (fun a p => a + p.2.length / 16) 0) now

/-- A packet joins the queue of a plane (15_remote.md R304). -/
def sendOn (s : State) (plane : Nat) (p : Packet) : State :=
  let l := s.link plane
  s.setLink plane ({ l with queue := l.queue ++ [(vcOf p.kind, p.bytes)] }.flush s.plat.time)

/-- A control flit (15_remote.md R304). -/
def Link.control (l : Link) (now type : Nat) (fields : List Byte) : Link :=
  if l.room then l.send now 2 3 0 0 (leBytes 1 type ++ copies 3 0 ++ fields) else l

/-! ### Receiving (15_remote.md R302 to R304) -/

/-- The receiver of a payload: the packet in progress, the packets completed, and the slots they free by virtual channel. -/
structure Intake where
  part : List Byte
  done : List Packet
  freed : SMap Nat

/-- One slot of a data flit. -/
def Intake.slot (x : Intake) (frame : Nat) (bs : List Byte) (i : Nat) : Intake :=
  let b := (bs.drop (16 * i)).take 16
  let start := bitsOf frame i 1 == 1
  let part := if start ∨ (i = 0 ∧ bitsOf frame 15 1 = 0) then [] else x.part
  if !start && part.isEmpty then { x with part := [] }
  else
    let p := part ++ b
    if fieldAt p 2 2 * 16 = p.length then
      let k := parsePacket p
      let vc := vcOf k.kind
      { part := [], done := x.done ++ [k], freed := mset 0 x.freed vc ((mget x.freed 0 vc + p.length / 16) % 2 ^ 16) }
    else { x with part := p }

/-- A signed difference of 16-bit counts. -/
def diff16 (a b : Nat) : Int := sextInt 16 (a + 2 ^ 16 - b % 2 ^ 16)

/-- The credit and the acknowledgment of a flit's header (15_remote.md R302, R303). -/
def Link.header (l : Link) (h : Nat) : Link :=
  let vc := bitsOf h 58 2
  let ret := bitsOf h 42 16
  let lack := bitsOf h 26 16
  { l with
    last := if 0 < diff16 ret (mget l.last 0 vc) then mset 0 l.last vc ret else l.last
    held := l.held.filter (fun f => decide (diff16 lack (f.num % 2 ^ 16) ≤ 0)) }

/-- Whether a flit is one that the receiver takes: its CRC is right for the number expected, and its kind and control type are not
reserved (15_remote.md R302, R304). -/
def Link.takes (l : Link) (b : List Byte) : Bool :=
  let h := fieldAt b 0 8
  crc64 l.e (b.take 248) == fieldAt b 248 8 && decide (bitsOf h 60 4 ≤ 2) &&
    (bitsOf h 60 4 != 2 || fieldAt b 8 1 == 1 || fieldAt b 8 1 == 2)

/-- A link begins to retrain (15_remote.md R302). -/
def Link.retrain (l : Link) (now : Nat) : Link := { l with mode := 1, since := now, drop := false, fails := 0, ask := none }

/-- A replay request for the number that a link expects. -/
def Link.askReplay (l : Link) (now : Nat) : Link := { l.control now 1 (leBytes 4 l.e) with drop := true }

/-- A flit that the receiver discards. The first one makes it ask for a replay; whether a later one is the replay that failed is not
in what it sees, so it is a free choice; three failed replays in a row retrain the link (15_remote.md R302, log entry 37). -/
def discardFlit (s : State) (plane : Nat) : State :=
  let l := s.link plane
  if !l.drop then s.setLink plane (l.askReplay s.plat.time)
  else
    let (n, s) := s.takeFree
    if Config.freeNat n % 2 = 0 then s
    else if 3 ≤ l.fails + 1 then s.setLink plane (l.retrain s.plat.time)
    else s.setLink plane { l.askReplay s.plat.time with fails := l.fails + 1 }

/-- A packet that a link has delivered joins the inbox. -/
def deliver (s : State) (p : Packet) : State :=
  { s with fab := { s.fab with inbox := mput s.fab.inbox s.fab.nextIn p, nextIn := s.fab.nextIn + 1 } }

/-- A flit that the receiver takes. -/
def takeFlit (s : State) (plane : Nat) (b : List Byte) : State :=
  let l := (s.link plane).header (fieldAt b 0 8)
  let h := fieldAt b 0 8
  let x : Intake := if bitsOf h 60 4 = 1 then
      (List.range 15).foldl (fun x i => x.slot (bitsOf h 0 26) ((b.drop 8).take 240) i) ⟨l.part, [], l.freed⟩
    else ⟨l.part, [], l.freed⟩
  let ask := if bitsOf h 60 4 = 2 ∧ fieldAt b 8 1 = 1 then some (fieldAt b 12 4) else l.ask
  let l' := { l with e := (l.e + 1) % 2 ^ 32, rx := s.plat.time, drop := false, fails := 0, part := x.part, freed := x.freed, ask := ask }
  (x.done.map (fun p => { p with via := plane })).foldl deliver (s.setLink plane (l'.flush s.plat.time))

/-- FLIT_RECEIVE (15_remote.md R302). -/
def execFlitReceive (plane : Nat) (bytes : List Byte) (s : State) : Result :=
  if 32 ≤ plane ∨ (s.link plane).mode ≠ 0 ∨ bytes.length ≠ 256 then .next s
  else if (s.link plane).takes bytes then .next (takeFlit s plane bytes)
  else .next (discardFlit s plane)

/-- REPLAY_REQUEST (15_remote.md R302): the flits from the one named on are sent again as they are; a flit that is no longer held makes
the link retrain. -/
def execReplayRequest (plane : Nat) (s : State) : Result :=
  let l := s.link plane
  match (if 32 ≤ plane then none else l.ask) with
  | none => .next s
  | some e =>
    if e = l.q ∨ l.held.any (fun f => f.num == e) then .next (s.setLink plane { l with ask := none, tx := s.plat.time })
    else .next (s.setLink plane (l.retrain s.plat.time))

/-- HEARTBEAT (15_remote.md R304). -/
def execHeartbeat (plane : Nat) (s : State) : Result :=
  if 32 ≤ plane then .next s
  else
    .next (s.setLink plane ((s.link plane).control s.plat.time 2
      (copies 4 0 ++ leBytes 8 s.plat.time ++ leBytes 2 (s.fab.self % 4096) ++ leBytes 2 s.fab.inc)))

/-- Held flits numbered from 0 again, with ret and lack 0 (15_remote.md R302). -/
def renumber : Nat → List Flit → List Flit
  | _, [] => []
  | q, f :: r =>
    let h := fieldAt f.bytes 0 8
    ⟨q, f.vc, f.slots, flitBytes q (bitsOf h 60 4) (q % 4) 0 0 (bitsOf h 0 26) ((f.bytes.drop 8).take 240)⟩ :: renumber (q + 1) r

/-- LINK_RETRAIN (15_remote.md R302, R303, 23_platform.md R398: from STATE 4 on): the training ends with the slots it fixed; q, lack and ret are 0 again and the held flits
are sent again. -/
def execLinkRetrain (plane init : Nat) (s : State) : Result :=
  let l := s.link plane
  if !linksLive s ∨ 32 ≤ plane ∨ l.mode ≠ 1 ∨ 32767 < init then .next s
  else
    let held := renumber 0 l.held
    let l' : Link := { mode := 0, q := held.length, held := held, queue := l.queue, init := init, part := l.part,
                       sent := held.foldl (fun m f => mset 0 m f.vc (mget m 0 f.vc + f.slots)) [],
                       turn := held.length % 4, rx := s.plat.time, tx := s.plat.time }
    .next (s.setLink plane (l'.flush s.plat.time))

/-- LINK_IDLE_TIMEOUT (15_remote.md R302): no valid flit for 10 µs. -/
def execLinkIdleTimeout (plane : Nat) (s : State) : Result :=
  let l := s.link plane
  if 32 ≤ plane ∨ l.mode ≠ 0 ∨ s.plat.time < l.rx + 10000 then .next s
  else .next (s.setLink plane (l.retrain s.plat.time))

/-- IDLE_FLIT (15_remote.md R301): no flit has been sent for 100 ns. -/
def execIdleFlit (plane : Nat) (s : State) : Result :=
  let l := s.link plane
  if 32 ≤ plane ∨ s.plat.time < l.tx + 100 ∨ !l.room then .next s
  else .next (s.setLink plane (l.send s.plat.time 0 0 0 0 []))

end Sys2Proof.Machine
end

