-- ==== Sys2Proof/Machine/Fabric.lean ====
section
/-! DEFINITION. The package's side of the fabric: membership (15_remote.md R282, R306), the spray over the planes (R297), posted
packets and their failures (R308), the fabric error log (R309), a link declared down (R302). -/
namespace Sys2Proof.Machine

/-! ### Membership and time -/

/-- Whether a package is reachable (15_remote.md R282). -/
def reachable (s : State) (q : Nat) : Bool := (mfind s.fab.members q).isSome

/-- The response timeout: 4 ms, or what the configuration image sets (15_remote.md R307). -/
def respTimeout (s : State) : Nat := 1000000 * ((s.plat.image.map BootImage.timeoutMs).getD 4)

/-- The stream of a core's warp slot, as packets name it (15_remote.md R298, R305). -/
def streamOf (core wslot : Nat) : Nat := coreCode core + 1024 * (wslot % 32)

/-- A packet of this package to another, with both incarnations (15_remote.md R305, R306); a group has none (log entry 38). -/
def newPacket (s : State) (kind op dst : Nat) (grp : Bool) (stream seq ctx tag wtag addr : Nat) (body : List Byte) : Packet :=
  { kind := kind, op := op, src := s.fab.self, dst := dst, grp := grp, sinc := s.fab.inc,
    tinc := if grp then 0 else mget s.fab.members 0 dst, stream := stream, seq := seq, ctx := ctx, tag := tag, wtag := wtag, addr := addr,
    body := body }

/-- Whether a packet's incarnations are the ones this package holds (15_remote.md R306). -/
def incOk (s : State) (p : Packet) : Bool := mfind s.fab.members p.src == some p.sinc && (p.grp || p.tinc == s.fab.inc)

/-! ### The fabric error log (15_remote.md R309) -/

/-- The target address of a packet's first item, 0 where it carries none: a run's lies in the extent that it names (15_remote.md R305,
R309). -/
def firstItem (s : State) (p : Packet) : Nat :=
  match p.kind with
  | 1 => p.addr + fieldAt p.body 16 1
  | 2 | 3 | 4 => p.addr
  | 5 => ((handleDesc s p.ctx (p.addr % 2 ^ 16)).map (fun d => d.ent.base)).getD 0 + p.addr / 2 ^ 16
  | _ => 0

/-- The item mask of a packet. -/
def Packet.itemMask (p : Packet) : Nat := if 1 ≤ p.kind ∧ p.kind ≤ 3 then fieldAt p.body 0 4 else 0

/-- A fabric error log record about another party: the target package or group of a packet sent from here, the source of one that arrived. -/
def fabricLog (s : State) (p : Packet) (peer cause plane : Nat) : State :=
  logRecord s 1 2 (leBytes 8 (firstItem s p) ++ leBytes 2 p.ctx ++ leBytes 2 (peer + 2 ^ 15 * (p.grp && peer == p.dst).toNat) ++
    leBytes 2 (p.stream % 1024) ++ leBytes 1 (p.stream / 1024 % 32) ++ leBytes 1 cause ++ leBytes 8 s.plat.time ++
    leBytes 4 p.itemMask ++ leBytes 1 (plane % 32) ++ copies 3 0)

/-- A record about a packet that has arrived: its source, and the plane that brought it. -/
def arrivalLog (s : State) (p : Packet) (cause : Nat) : State := fabricLog s { p with grp := false } p.src cause p.via

/-! ### Sending (15_remote.md R297) -/

/-- The plane that the spray takes from a start on: the first one in turn whose link is up, else one that trains (15_remote.md R297, log
entry 36). -/
def sprayPlane (s : State) (start : Nat) : Option Nat :=
  let order := (List.range 32).map (fun k => (start + k) % 32)
  match order.find? (fun p => (s.link p).mode == 0) with
  | some p => some p
  | none => order.find? (fun p => (s.link p).mode == 1)

/-- A packet leaves over the planes: a request takes them in turn, any other packet one of them freely (15_remote.md R297, log entry 36). -/
def spray (s : State) (p : Packet) : Option Nat × State :=
  if p.kind = 1 then
    match sprayPlane s s.fab.plane with
    | some k => let t := sendOn s k p; (some k, { t with fab := { t.fab with plane := (k + 1) % 32 } })
    | none => (none, s)
  else
    let (n, s) := s.takeFree
    match sprayPlane s (Config.freeNat n) with
    | some k => (some k, sendOn s k p)
    | none => (none, s)

/-- A packet is sent to a package, or to a group; one to this package takes its own receive path (15_remote.md R284), named plane
32 here. None when every link is down. -/
def sendTo (s : State) (dest : Nat) (p : Packet) : Option Nat × State :=
  if !p.grp && dest == s.fab.self then (some 32, deliver s p) else spray s p

def sendPacket (s : State) (p : Packet) : Option Nat × State := sendTo s p.dst p

/-- A packet that is kept until it is acknowledged, with the plane that carried it, for the records of R309. -/
def Packet.sentOn (p : Packet) (plane : Option Nat) : Packet := { p with via := plane.getD 32 }

/-- An arrived packet leaves the inbox. -/
def takeIn (s : State) (i : Nat) : State :=
  { s with fab := { s.fab with inbox := mdel s.fab.inbox i, whole := s.fab.whole.filter (· != i), begun := mdel s.fab.begun i } }

/-- An arrived packet is dropped as stale, with a record (15_remote.md R305, R306). -/
def dropStale (s : State) (i : Nat) (p : Packet) : State := arrivalLog (takeIn s i) p 5

/-! ### Posted packets (15_remote.md R291, R308) -/

def State.post (s : State) (i : Nat) : Option Post := mfind s.fab.posts i
def State.setPost (s : State) (i : Nat) (p : Post) : State := { s with fab := { s.fab with posts := mput s.fab.posts i p } }

/-- A failed packet joins those that its warp has not reported (15_remote.md R308). -/
def noteFailed (s : State) (core wslot word : Nat) (p : Packet) : State :=
  if core = noCore then s else s.updWarp core wslot (fun w => { w with failed := w.failed ++ [(word, p.dst)] })

/-- A posted packet is on its list no more. -/
def endPost (s : State) (i : Nat) (q : Post) : State :=
  let s := { s with fab := { s.fab with posts := mdel s.fab.posts i } }
  if q.core = noCore then s else s.updWarp q.core q.wslot (fun w => { w with acks := w.acks.filter (· != i) })

/-- A posted packet fails: it leaves the list, is reported, and one record is written (15_remote.md R308). -/
def failPost (s : State) (i cause : Nat) : State :=
  match s.post i with
  | none => s
  | some q => fabricLog (noteFailed (endPost s i q) q.core q.wslot q.word q.pkt) q.pkt q.pkt.dst cause q.plane

/-- Members of a packet's target. -/
def targets (s : State) (p : Packet) : List Nat :=
  if p.grp then (mget s.fab.groups ⟨false, []⟩ p.dst).members else [p.dst]

/-- A posted packet is handed to the planes and joins its warp's acknowledgment list; it fails at once when its target has been removed
or every link is down (15_remote.md R291, R308). -/
def postPacket (s : State) (core wslot word : Nat) (p : Packet) : State :=
  if !p.grp && !reachable s p.dst then fabricLog (noteFailed s core wslot word p) p p.dst 2 0
  else
    match sendPacket s p with
    | (none, s) => fabricLog (noteFailed s core wslot word p) p p.dst 1 0
    | (some k, s) =>
      let (i, s) := s.freshFab
      (s.setPost i ⟨core, wslot, word, p, k, s.plat.time, targets s p⟩).updWarp core wslot (fun w => { w with acks := w.acks ++ [i] })

/-- LINK_DOWN (15_remote.md R302, R308): a link that has not trained within 2 ms is down, and its posted packets fail. Links in their reset
state do not train (23_platform.md R398). -/
def execLinkDown (plane : Nat) (s : State) : Result :=
  let l := s.link plane
  if !linksLive s ∨ 32 ≤ plane ∨ l.mode ≠ 1 ∨ s.plat.time < l.since + 2000000 then .next s
  else
    let s := s.setLink plane { mode := 2, since := s.plat.time }
    .next ((mkeys (s.fab.posts.filter (fun q => q.2.plane == plane))).foldl (fun s i => failPost s i 1) s)

end Sys2Proof.Machine
end

