-- ==== Sys2Proof/Machine/Remote.lean ====
section
/-! DEFINITION. The remote words 0xB8 to 0xBF (15_remote.md R284 to R293), their replays, the requests that a target performs (R290),
replies, acknowledgments, refusals and timeouts (R291, R298, R306, R307, R409). -/
namespace Sys2Proof.Machine

/-! ### What a word does -/

/-- The atomic operation of a control word (15_remote.md R287). -/
def remoteOp (lit : Word) : Nat := bitsOf lit.toNat 24 6

/-- Bytes of an item by opcode − 0xB8 and control word (15_remote.md R286, R287). -/
def itemSize (op : Nat) (lit : Word) : Nat :=
  match op with
  | 0 => 4
  | 1 => 8
  | 2 => 16
  | 3 => 4
  | 4 => 8
  | 5 => atomSize (remoteOp lit)
  | 6 => if remoteOp lit = 14 then 4 else atomSize (remoteOp lit)
  | _ => 4

/-- Bytes of data that an item carries (15_remote.md R305). -/
def itemData (op : Nat) (lit : Word) : Nat :=
  if op ≤ 2 then 0 else if op = 5 then atomInputs (remoteOp lit) else itemSize op lit

/-- The permissions that an opcode needs (15_remote.md R286). -/
def remotePerm (op : Nat) : Nat := if op ≤ 2 then permR else if op = 5 then permR ||| permW else permW

/-- Whether an opcode's packets are posted (15_remote.md R291). -/
def posted (op : Nat) : Bool := op == 3 || op == 4 || op == 6 || op == 7

/-- Whether a word sends release-class packets (15_remote.md R299). -/
def RWord.release (r : RWord) : Bool := (r.op == 5 || r.op == 6) && decide (2 ≤ r.ord)

/-! ### Checks before the first replay (15_remote.md R285, R287, R289) -/

/-- The checks 1, 2, 3 and 5 of R163; a byte whose extent is not peer-symmetric fails check 2. -/
def remoteVerdict (s : State) (acc : List Acc) (n need : Nat) (reads : List Nat) : Verdict :=
  let c := s.hcore
  let ctx := s.hwarp.ctx
  let at1 (va : Nat) : Option Nat := match coreCheck s c ctx va 1 0 with | .ok e => some e.xid | _ => none
  let chk := acc.map (fun a => (a, accCheck s c ctx a.va n need))
  let limit (a : Acc) (k : Check) : Option (Nat × FaultInfo) := match k with
    | .limit sva xid => match coreCheck s c ctx a.va 1 0 with
      | .ok e => some (a.lane, if e.cls = 4 then { cls := clsLimit, sva := sva, space := 1, xid := xid }
          else { cls := clsLimit, sva := a.va, space := 1, xid := some e.xid })
      | _ => some (a.lane, { cls := clsLimit, sva := sva, space := 1, xid := xid })
    | .ok e => if e.cls = 4 then none else some (a.lane, { cls := clsLimit, sva := a.va, space := 1, xid := some e.xid })
    | .perm _ _ xid => match coreCheck s c ctx a.va n 0 with
      | .ok e => if e.cls = 4 then none else some (a.lane, { cls := clsLimit, sva := a.va, space := 1, xid := some xid })
      | _ => none
    | .corrupt => none
  match worstOf none (acc.filterMap (fun a =>
      if a.va % n ≠ 0 then some (a.lane, { cls := clsMisaligned, sva := a.va, space := 1, xid := at1 a.va, detail := n }) else none)) with
  | some f => .fault f
  | none =>
    if chk.any (fun p => p.2 == .corrupt) then .corrupt
    else
      match worstOf none (chk.filterMap (fun p => limit p.1 p.2)) with
      | some f => .fault f
      | none =>
        match worstOf none (chk.filterMap (fun p => match p.2 with
            | .perm miss sva xid => some (p.1.lane, { cls := clsPerm, sva := sva, space := 1, xid := some xid, detail := miss })
            | _ => none)) with
        | some f => .fault f
        | none =>
          match regsFault s.hwarp acc reads with
          | some f => .fault f
          | none => .ok

/-- Why a peer word is not reachable, 0 when it is (15_remote.md R289). -/
def peerCause (s : State) (op : Nat) (lit p : Word) : Nat :=
  let id := bitsOf p.toNat 0 12
  if bitsOf p.toNat 12 19 ≠ 0 then 1
  else if p.getLsbD 31 then
    match mfind s.fab.groups id with
    | none => 3
    | some g =>
      let k := remoteOp lit
      if op = 7 then (if g.multicast then 0 else 4)
      else if op = 6 then (if !g.multicast && ((decide (1 ≤ k) && decide (k ≤ 5)) || k == 14) then 0 else 4)
      else 4
  else if !reachable s id then 2
  else if op = 7 then 4
  else 0

/-- The remote-unreachable fault of a word, if a lane fails (15_remote.md R289). -/
def peerFault (s : State) (op : Nat) (lit : Word) (vp : Nat) (lanes : Word) : Option FaultInfo :=
  let bad := (lanesOf lanes).filter (fun i => peerCause s op lit (s.hwarp.v vp i) != 0)
  bad.head?.map (fun i => { cls := clsRemote, lanes := lanesMask bad, detail := peerCause s op lit (s.hwarp.v vp i),
                            aux := (s.hwarp.v vp i).toNat })

/-! ### Replays (15_remote.md R288, R305) -/

def State.rword (s : State) (i : Nat) : Option RWord := mfind s.fab.words i
def State.setRword (s : State) (i : Nat) (r : RWord) : State := { s with fab := { s.fab with words := mput s.fab.words i r } }
def State.setReplay (s : State) (i : Nat) (r : Replay) : State := { s with fab := { s.fab with replays := mput s.fab.replays i r } }
def State.delReplay (s : State) (i : Nat) : State := { s with fab := { s.fab with replays := mdel s.fab.replays i } }

/-- The remote word of a warp that has replays still to issue. -/
def pendingWord (s : State) (core wslot : Nat) : Option (Nat × RWord) :=
  s.fab.words.find? (fun p => p.2.core == core && p.2.wslot == wslot && !p.2.todo.isEmpty)

/-- The body of a request packet: the item mask, the control word, and the lanes' entries. -/
def requestBody (r : RWord) (items : List (Nat × Nat × Nat)) : List Byte :=
  leBytes 4 (lanesMask (items.map Prod.fst)).toNat ++ leBytes 4 (if r.op = 5 ∨ r.op = 6 then r.lit.toNat else 0) ++ copies 8 0 ++
  (items.map (fun x => leBytes 1 (x.2.1 % 128) ++ leBytes (itemData r.op r.lit) x.2.2)).flatten

/-- The packets of a replay, one per line, each with the next sequence number of the stream (15_remote.md R290, R298). -/
def replayPackets (s : State) (r : RWord) (peer : Word) (items : List (Nat × Nat × Nat)) (tag : Nat) : State × List (Packet × Nat) :=
  let st := streamOf r.core r.wslot
  let lines := items.foldl (fun a x => insertNat (x.2.1 / 128) a) []
  lines.foldl (fun (a : State × List (Packet × Nat)) line =>
    let seq := mget a.1.fab.seqs 0 st
    let s := { a.1 with fab := { a.1.fab with seqs := mset 0 a.1.fab.seqs st ((seq + 1) % 2 ^ 16) } }
    let p := newPacket s 1 (r.op + 8 * r.release.toNat + 16 * r.sc) (bitsOf peer.toNat 0 12) (peer.getLsbD 31) st seq r.ctx 0 tag
      (128 * line) (requestBody r (items.filter (fun x => x.2.1 / 128 == line)))
    (s, a.2 ++ [(p, 32)])) (s, [])

/-- A word's next replay issues: rm rises (15_remote.md R288). -/
def issueReplay (s : State) (id : Nat) (r : RWord) : State :=
  match r.todo with
  | [] => s
  | (peer, mask) :: rest =>
    let items := r.lanes.filter (fun x => laneIn mask x.1)
    let tag := (s.warp r.core r.wslot).tag
    let (s, pkts) := replayPackets s r peer items tag
    let (i, s) := s.freshFab
    let s := s.setReplay i { word := id, peer := peer, tag := tag, items := items.map (fun x => ⟨x.1, x.2.1, none⟩), pkts := pkts,
                             sent := false, since := s.plat.time }
    (s.setRword id { r with todo := rest, out := r.out + 1 }).updWarp r.core r.wslot (fun w => { w with rm := w.rm + 1 })

/-- The lower of two failing lanes. -/
def lowerLane (a b : Option (Nat × Nat)) : Option (Nat × Nat) := lowerFail a b

/-- A replay of a word has completed: rm falls, and the last one writes the status word (15_remote.md R291). -/
def replayDone (s : State) (id : Nat) (worst : Option (Nat × Nat)) : State :=
  match s.rword id with
  | none => s
  | some r =>
    let r' := { r with out := r.out - 1, worst := lowerLane r.worst worst }
    let s := s.updWarp r.core r.wslot (fun w => { w with rm := w.rm - 1 })
    if r'.out = 0 ∧ r'.todo.isEmpty then
      let code := if posted r.op then 0 else (r'.worst.map Prod.snd).getD 0
      let s := { s with fab := { s.fab with words := mdel s.fab.words id } }
      s.updWarp r.core r.wslot (fun w =>
        let w := { w with rwords := w.rwords.filter (· != id) }
        if r.live then { w with status := w.status &&& 0x00FFFFFF ||| BitVec.ofNat 32 (2 ^ 24 * code) } else w)
    else s.setRword id r'

/-- Packets of a stream that have been sent and not answered (15_remote.md R298). -/
def unanswered (s : State) (st : Nat) : Nat :=
  (s.fab.posts.filter (fun p => p.2.pkt.stream == st)).length +
  s.fab.replays.foldl (fun a p => if p.2.sent then a + (p.2.pkts.filter (fun k => k.1.stream == st)).length else a) 0

/-- Whether an earlier remote atomic of the warp still has to acquire: no later remote packet is sent before that (15_remote.md R299). -/
def remoteAcquire (s : State) (r : RWord) (id : Nat) : Bool :=
  s.fab.words.any (fun q => decide (q.1 < id) && q.2.core == r.core && q.2.wslot == r.wslot && q.2.live && q.2.op == 5 && q.2.ord % 2 == 1)

/-- Whether every earlier remote packet of the warp to another target has been acknowledged or answered (15_remote.md R299). -/
def othersDone (s : State) (r : RWord) (y : Replay) : Bool :=
  let same (p : Word) : Bool := bitsOf p.toNat 0 12 == bitsOf y.peer.toNat 0 12 && p.getLsbD 31 == y.peer.getLsbD 31
  let mine (core wslot word : Nat) : Bool := core == r.core && wslot == r.wslot && decide (word < y.word)
  s.fab.posts.all (fun q => !mine q.2.core q.2.wslot q.2.word ||
    (q.2.pkt.dst == bitsOf y.peer.toNat 0 12 && q.2.pkt.grp == y.peer.getLsbD 31)) &&
  s.fab.words.all (fun q => !mine q.2.core q.2.wslot q.1 || q.2.todo.all (fun t => same t.1)) &&
  s.fab.replays.all (fun q => match s.rword q.2.word with
    | some w => !mine w.core w.wslot q.2.word || same q.2.peer
    | none => true)

/-- Whether a replay's packets may be sent: its stream has room, no earlier remote atomic, and for a load or an atomic no earlier atomic at
all, still has to acquire, and for release-class packets the release has been performed (12_atomics.md R241, 15_remote.md R298, R299). -/
def mayBeSent (s : State) (r : RWord) (y : Replay) : Bool :=
  decide (unanswered s (streamOf r.core r.wslot) + y.pkts.length ≤ 32768) &&
  !(if posted r.op then remoteAcquire s r y.word else acquirePending s r.core r.wslot y.word) &&
  (!r.release || (releaseDone s r.core r.wslot y.word (min r.sc 2) && (decide (r.sc < 3) || othersDone s r y)))

/-- A replay's packets are sent; a posted replay completes with that (15_remote.md R291). -/
def sendReplay (s : State) (i : Nat) (r : RWord) (y : Replay) : State :=
  if posted r.op then
    replayDone (y.pkts.foldl (fun s k => postPacket s r.core r.wslot y.word k.1) (s.delReplay i)) y.word none
  else
    let (s, pkts) := y.pkts.foldl (fun (a : State × List (Packet × Nat)) k =>
      let (plane, s) := sendPacket a.1 k.1
      (s, a.2 ++ [(k.1, plane.getD 32)])) (s, [])
    s.setReplay i { y with pkts := pkts, sent := true, since := s.plat.time }

/-- The replays of a warp that have issued are sent, each as soon as it need not wait: one that waits holds no other back
(15_remote.md R297 to R299). -/
def sendReplays (s : State) (core wslot : Nat) : State :=
  (mkeys s.fab.replays).foldl (fun s i =>
    match mfind s.fab.replays i with
    | none => s
    | some y =>
      match s.rword y.word with
      | none => s
      | some r => if r.core == core && r.wslot == wslot && !y.sent && mayBeSent s r y then sendReplay s i r y else s) s

/-- REMOTE_REPLAY (15_remote.md R288). -/
def execRemoteReplay (core wslot : Nat) (s : State) : Result :=
  let s := sendReplays s core wslot
  match pendingWord s core wslot with
  | some (id, r) => if (s.warp core wslot).rm < 6 then .next (sendReplays (issueReplay s id r) core wslot) else .next s
  | none => .next s

/-! ### The words -/

/-- The distinct peer words of some lanes, ascending, each with its lanes (15_remote.md R288). -/
def peersOf (w : Warp) (vp : Nat) (lanes : Word) : List (Word × Word) :=
  ((lanesOf lanes).foldl (fun a i => insertNat (w.v vp i).toNat a) []).map (fun p =>
    (BitVec.ofNat 32 p, lanes &&& maskOf (fun i => (w.v vp i).toNat == p)))

/-- Bytes that an audited block stores on a peer are folded (11_traps.md R226). -/
def foldPeers (s : State) (vp w : Nat) (lanes : List (Nat × Nat × Nat)) : State :=
  foldSig s s.hwarp.blk (lanes.map (fun x => (x.2.1 ^^^ ((s.hwarp.v vp x.1).toNat * 2 ^ 32), leBytes w x.2.2)))

/-- A remote word (15_remote.md R285 to R289). -/
def remoteWord (s : State) (op : Nat) (d : VReg) (sb : SReg) (vp : VReg) (sc : Fin 8) (x : Option Word) : Result :=
  let lit := x.getD 0
  let w := itemSize op lit
  let data := itemData op lit
  let reads := vp.val :: (vp.val + 1) :: (if data = 0 then [] else groupRegs d.val data)
  let names := vp.val :: (vp.val + 1) :: groupRegs d.val (max w data)
  let disp := if op = 5 ∨ op = 6 then ctlDisp x else litDisp x
  let wp := s.hwarp
  let acc := (lanesOf s.em).map (fun i => ({ lane := i, va := addOff (s.sbase sb) ((wp.v (vp.val + 1) i).toInt + disp) } : Acc))
  if 6 ≤ wp.rm then .next s
  else if !s.inRange names then .next s.rangeFault
  else
    match (if posted op then .ok none else engBar s s.hcore wp.blk s.em (wp.s (sb.val + 2))) with
    | .error f => .next (s.raise f)
    | .ok bar =>
      match remoteVerdict s acc w (remotePerm op) reads with
      | .fault f => .next (s.raise f)
      | .corrupt => .next (deviceError s)
      | .ok =>
        match peerFault s op lit vp.val s.em with
        | some f => .next (s.raise f)
        | none =>
          let lanes := acc.map (fun a => (a.lane, a.va, if data = 0 then 0 else wp.group d.val data a.lane))
          let s := fillEcbs s s.hcore wp.ctx acc
          let s := if posted op then foldPeers s vp.val w lanes else s
          if posted op && s.hblk.isReplay then
            .next ((s.updHere (fun w => { w with status := w.status &&& 0x00FFFFFF })).advance (litWords x))
          else
            let (id, s) := s.fresh
            let r : RWord :=
              { core := s.hcore, wslot := s.run.wslot, live := true, ctx := wp.ctx, op := op, vd := d.val, w := w, sc := sc.val,
                ord := if op = 5 ∨ op = 6 then ctlOrd x else 0, lit := lit, lanes := lanes, bar := bar, baddr := wp.s (sb.val + 2),
                base := s.sbase sb, todo := peersOf wp vp.val s.em, out := 0, worst := none, head := s.word }
            let s := s.updHere (fun w => { w with rwords := w.rwords ++ [id] })
            .next ((sendReplays (issueReplay s id r) s.hcore s.run.wslot).advance (litWords x))

def execRldB32 (d : VReg) (sb : SReg) (vp : VReg) (sc : Fin 8) (x : Option Word) (s : State) : Result := remoteWord s 0 d sb vp sc x
def execRldB64 (d : VReg) (sb : SReg) (vp : VReg) (sc : Fin 8) (x : Option Word) (s : State) : Result := remoteWord s 1 d sb vp sc x
def execRldB128 (d : VReg) (sb : SReg) (vp : VReg) (sc : Fin 8) (x : Option Word) (s : State) : Result := remoteWord s 2 d sb vp sc x
def execRstB32 (d : VReg) (sb : SReg) (vp : VReg) (sc : Fin 8) (x : Option Word) (s : State) : Result := remoteWord s 3 d sb vp sc x
def execRstB64 (d : VReg) (sb : SReg) (vp : VReg) (sc : Fin 8) (x : Option Word) (s : State) : Result := remoteWord s 4 d sb vp sc x
def execRatom (d : VReg) (sb : SReg) (vp : VReg) (sc : Fin 8) (x : Option Word) (s : State) : Result := remoteWord s 5 d sb vp sc x
def execRred (d : VReg) (sb : SReg) (vp : VReg) (sc : Fin 8) (x : Option Word) (s : State) : Result := remoteWord s 6 d sb vp sc x
def execRmcast (d : VReg) (sb : SReg) (vp : VReg) (sc : Fin 8) (x : Option Word) (s : State) : Result := remoteWord s 7 d sb vp sc x

/-! ### At the target (15_remote.md R290, R298, R306) -/

/-- An item of a request packet: lane, address, data. -/
structure Item where
  lane : Nat
  va : Nat
  data : Nat
  deriving DecidableEq, Repr

/-- The control word of a request packet, and the items it carries. -/
def Packet.lit (p : Packet) : Word := BitVec.ofNat 32 (fieldAt p.body 4 4)
def Packet.items (p : Packet) : List Item :=
  let n := 1 + itemData (p.op % 8) p.lit
  ((lanesOf (BitVec.ofNat 32 (fieldAt p.body 0 4))).zipIdx).map (fun x =>
    ⟨x.1, p.addr + fieldAt p.body (16 + n * x.2) 1, fieldAt p.body (17 + n * x.2) (n - 1)⟩)

/-- The check of an item at the target: its extent and canonical address, none when it fails with target-fault (15_remote.md R290). -/
def itemCheck (s : State) (ctx va w need : Nat) : Option (Desc × Nat) :=
  match devCheck s ctx va w need with
  | .ok e =>
    if e.cls ≠ 4 ∨ (need &&& permW ≠ 0 ∧ auditInput s ctx e.xid) then none
    else
      match canonDesc s ctx (canonical e va) with
      | .found d => some (d, canonical e va)
      | _ => none
  | _ => none

/-- Whether an item's check meets a corrupt extent table. -/
def itemCorrupt (s : State) (ctx va w need : Nat) : Bool := devCheck s ctx va w need == .corrupt

/-- An add of two bfloat16 halves (15_remote.md R287). -/
def addBf16 (x y : Nat) : Nat :=
  fadd bf16 .rne (x % 65536) (y % 65536) + 65536 * fadd bf16 .rne (x / 65536 % 65536) (y / 65536 % 65536)

/-- What an item leaves in memory: none where it writes nothing. -/
def itemNew (op : Nat) (lit : Word) (old data : Nat) : Option Nat :=
  match op with
  | 0 | 1 | 2 => none
  | 3 | 4 | 7 => some data
  | 5 => some (atomNew (remoteOp lit) old data)
  | _ => some (if remoteOp lit = 14 then addBf16 old data else atomNew (remoteOp lit) old data)

/-- An item performed at its home slice: its status and the value it replies with (15_remote.md R290). A sector with an uncorrectable
error fails it (log entry 39). -/
def performItem (s : State) (p : Packet) (x : Item) : State × Nat × Nat :=
  let op := p.op % 8
  let w := itemSize op p.lit
  match itemCheck s p.ctx x.va w (remotePerm op) with
  | none => (s, 3, 0)
  | some (d, va) =>
    let s := useByte s d va (decide (3 ≤ op))
    let l := (List.range w).map (fun i => homeByte s d (va + i))
    let old := leNat (l.map Prod.fst)
    let reads := op ≤ 2 ∨ op = 5 ∨ op = 6
    if (List.range w).any (fun i => byteDead s d (va + i) (decide (3 ≤ op))) ∨ (reads ∧ l.any Prod.snd) ∨ (3 ≤ op ∧ narrowError s d va w) then
      (escalate s p.ctx d.ent.xid d.ent.cls (devicePlace s d (va - d.ent.base)) 1 (x.va / 32 * 32), 3, 0)
    else
      match itemNew op p.lit old x.data with
      | some v => (homeWrite s d va (leBytes w v), 0, old)
      | none => (s, 0, old)

/-- The state in which an item waits: for its line, its channel, its stack, or a slide window (15_remote.md R290, 09_extents.md R185). -/
def itemWait (s : State) (p : Packet) (x : Item) : Option State :=
  let op := p.op % 8
  match itemCheck s p.ctx x.va (itemSize op p.lit) (remotePerm op) with
  | some (d, va) =>
    ((List.range (itemSize op p.lit)).filterMap (fun i =>
      byteWait s (entryPort (homeCluster d.ent (lineKey p.ctx (va + i))) (va + i)) d (va + i) (decide (3 ≤ op)))).head?
  | none => none

/-- The reply or acknowledgment of a request (15_remote.md R305). -/
def replyTo (s : State) (p : Packet) (rs : List (Nat × Nat × Nat)) : Packet :=
  let op := p.op % 8
  let rs := (lanesOf (BitVec.ofNat 32 (fieldAt p.body 0 4))).map (fun i => (rs.find? (fun r => r.1 == i)).getD (i, 3, 0))
  let st := rs.map (fun r => BitVec.ofNat 8 r.2.1)
  let body := leBytes 4 (fieldAt p.body 0 4) ++ copies 4 0 ++ st ++ copies (32 - st.length) 0 ++
    (if posted op then [] else (rs.map (fun r => leBytes (itemSize op p.lit) r.2.2)).flatten)
  newPacket s (if posted op then 3 else 2) p.op p.src false p.stream p.seq p.ctx 0 p.wtag p.addr body

/-- The key of a packet's stream at its target. -/
def Packet.streamKey (p : Packet) : Nat := 2 ^ 16 * p.src + p.stream

/-- Whether a packet of a stream goes before another by sequence number. -/
def seqBefore (a b : Nat) : Bool := decide (diff16 a b < 0)

/-- The sectors that a request packet touches. -/
def Packet.sectors (p : Packet) : List Nat := p.items.map (fun x => x.va / 32)

/-- Whether a packet of a stream waits for an earlier one: they touch one sector, or it is of release class (15_remote.md R298). -/
def Packet.follows (p q : Packet) : Bool :=
  q.kind == 1 && q.stream == p.stream && seqBefore q.seq p.seq &&
    (p.op / 8 % 2 == 1 || (q.ctx == p.ctx && q.sectors.any (fun x => p.sectors.contains x)))

/-- A group packet as every copy of it reads, sent or arrived, whichever plane brings it. -/
def Packet.mark (p : Packet) : Packet := parsePacket p.bytes

/-- Whether a group packet is a second copy of one applied here: its sender sent it again for a member that had refused it, and it is not
applied twice (15_remote.md R295, R298, log entry 105). -/
def secondCopy (s : State) (p : Packet) : Bool := p.grp && s.fab.applied.contains p.mark

/-- A group packet has been applied here; the marks of its stream go that lie 16,384 numbers back, or in an earlier incarnation (log entry
105). -/
def markApplied (s : State) (p : Packet) : State :=
  if p.grp then
    let stale (m : Packet) : Bool := m.src == p.src && (m.sinc != p.sinc || (m.stream == p.stream && decide (diff16 m.seq p.seq < -16384)))
    { s with fab := { s.fab with applied := s.fab.applied.filter (fun m => !stale m && m != p.mark) ++ [p.mark] } }
  else s

/-- Whether a packet is addressed to this package, itself or as a member of a group. -/
def forMe (s : State) (p : Packet) : Bool :=
  if p.grp then (mget s.fab.groups ⟨false, []⟩ p.dst).members.contains s.fab.self else p.dst == s.fab.self

/-- Packets of this package to itself that have not been applied here, as far as it has heard: those of its replays that are not sent or
not answered, and those posted that it has not acknowledged (15_remote.md R284, R298). -/
def ownUnderWay (s : State) : List Packet :=
  s.fab.replays.flatMap (fun y => (y.2.pkts.map Prod.fst).filter (fun k =>
    forMe s k && y.2.items.any (fun t => t.st.isNone && t.va / 128 * 128 == k.addr))) ++
  (s.fab.posts.map (fun q => q.2)).filterMap (fun q => if q.wait.contains s.fab.self && !secondCopy s q.pkt then some q.pkt else none)

/-- Whether an arrived request waits for earlier packets of its stream: those of the same sectors, and for a release-class packet all
of them. One that another package has sent also waits until no such packet is still under way (15_remote.md R298, log entry 40); this
package's own wait for those that it has still to send itself, or that are on their way back to it (R284). -/
def streamHeld (s : State) (i : Nat) (p : Packet) : Bool :=
  (if p.src == s.fab.self then (ownUnderWay s).any p.follows else !s.fab.whole.contains i) ||
  s.fab.inbox.any (fun q => q.1 != i && q.2.src == p.src && p.follows q.2)

/-- A stream entry for a packet: none when all 4,096 are in use; an entry none of whose packets waits here is not (15_remote.md R298,
log entry 40). -/
def streamEntry (s : State) (p : Packet) : Option State :=
  if s.fab.streams.contains p.streamKey then some s
  else
    let add (l : List Nat) : State := { s with fab := { s.fab with streams := l ++ [p.streamKey] } }
    if s.fab.streams.length < 4096 then some (add s.fab.streams)
    else
      match s.fab.streams.find? (fun e => !s.fab.inbox.any (fun q => q.2.kind == 1 && q.2.streamKey == e)) with
      | some e => some (add (s.fab.streams.filter (· != e)))
      | none => none

/-- A turn of the schedule: no packet that an arrived request waits for is under way (15_remote.md R298, log entry 40). -/
def noneUnderWay (s : State) (pkt : Nat) : State :=
  if (mfind s.fab.inbox pkt).isSome && !s.fab.whole.contains pkt then { s with fab := { s.fab with whole := s.fab.whole ++ [pkt] } } else s

/-- A packet is refused: the refusal echoes its route, stream, seq and wtag, and goes back to its sender (15_remote.md R298, R305). -/
def refusalOf (s : State) (p : Packet) : Packet :=
  { newPacket s 4 (if p.kind = 1 then p.op else 0) p.dst p.grp p.stream p.seq p.ctx 0 p.wtag (if p.kind = 1 then p.addr else 0) [] with
    src := p.src, tinc := mget s.fab.members 0 p.src }
def refuse (s : State) (i : Nat) (p : Packet) : State := (sendTo (takeIn s i) p.src (refusalOf s p)).2

/-- Results of items: lane, status and value. -/
def begunItems (s : State) (i : Nat) : List (Nat × Nat × Nat) := mget s.fab.begun [] i

/-- The items of a request that have not been performed. -/
def openItems (s : State) (i : Nat) (p : Packet) : List Item := p.items.filter (fun x => !(begunItems s i).any (fun r => r.1 == x.lane))

/-- The items of a request that are left are performed in a free order, the failures logged, and the answer sent (15_remote.md R290). -/
def performRequest (s : State) (i : Nat) (p : Packet) : State :=
  let items := openItems s i p
  let order := freeOrder s.free items.length items
  let s := { s with free := s.free + items.length }
  let (s, rs) := order.foldl (fun (a : State × List (Nat × Nat × Nat)) x =>
    let (s, st, v) := performItem a.1 p x
    (s, a.2 ++ [(x.lane, st, v)])) (takeIn s i, begunItems s i)
  let s := if rs.any (fun r => r.2.1 != 0) then arrivalLog s p 3 else s
  (sendPacket (markApplied s p) (replyTo s p rs)).2

/-- How an arrived request stands: dropped as stale, a second copy, refused for want of a stream entry, held, or ready with its entry. -/
inductive ArrivedAs
  | stale
  | copy
  | refused
  | held (s : State)
  | ready (s : State)

/-- What a target does with an arrived request (15_remote.md R290, R298, R305, R306). -/
def arrival (s : State) (pkt : Nat) (p : Packet) : ArrivedAs :=
  if !incOk s p || !forMe s p then .stale
  else if secondCopy s p then .copy
  else
    match streamEntry s p with
    | none => .refused
    | some s => if streamHeld s pkt p then .held s else .ready s

/-- What stops items of a request: a corrupt extent table (09_extents.md R175), or what one of them waits for. -/
def itemsStopped (s : State) (p : Packet) (items : List Item) : Option State :=
  if items.any (fun x => itemCorrupt s p.ctx x.va (itemSize (p.op % 8) p.lit) (remotePerm (p.op % 8))) then some (deviceError s)
  else (items.filterMap (itemWait s p)).head?

/-- A turn of the schedule: one item of an arrived request is performed before the others (15_remote.md R290, 16_ordering.md R319). -/
def itemTurn (s : State) (pkt lane : Nat) : State :=
  match mfind s.fab.inbox pkt with
  | none => s
  | some p =>
    if p.kind ≠ 1 then s
    else
      match arrival s pkt p with
      | .ready s =>
        match (openItems s pkt p).find? (fun x => x.lane == lane) with
        | none => s
        | some x =>
          match itemsStopped s p [x] with
          | some s' => s'
          | none =>
            let (s, st, v) := performItem s p x
            { s with fab := { s.fab with begun := mput s.fab.begun pkt (begunItems s pkt ++ [(lane, st, v)]) } }
      | _ => s

/-- REMOTE_REQUEST (15_remote.md R290, R298, R305, R306). -/
def execRemoteRequest (pkt : Nat) (s : State) : Result :=
  match mfind s.fab.inbox pkt with
  | none => .next s
  | some p =>
    if p.kind = 0 ∨ 8 ≤ p.kind then .next (dropStale s pkt p)
    else if p.kind ≠ 1 then .next s
    else
      match arrival s pkt p with
      | .stale => .next (dropStale s pkt p)
      | .copy => .next (takeIn s pkt)
      | .refused => .next (refuse s pkt p)
      | .held s => .next s
      | .ready s =>
        match itemsStopped s p (openItems s pkt p) with
        | some s' => .next s'
        | none => .next (performRequest s pkt p)

/-! ### At the requester (15_remote.md R291, R292, R306) -/

/-- The replay that a reply answers. -/
def answeredReplay (s : State) (p : Packet) : Option (Nat × Replay) :=
  s.fab.replays.find? (fun y => y.2.sent && y.2.tag == p.wtag &&
    y.2.pkts.any (fun k => k.1.stream == p.stream && k.1.seq == p.seq && k.1.dst == p.src))

/-- A lane of a replay takes its answer: the value, or 0 and poison (15_remote.md R291, R292). -/
def answerLane (s : State) (r : RWord) (lane st v : Nat) : State :=
  if r.live then s.updWarp r.core r.wslot (fun w => w.putGroup r.vd r.w lane v false (st != 0)) else s

/-- Items of a replay are answered; when every lane has been, the replay completes: its bytes are charged and rm falls
(15_remote.md R291, log entry 39). -/
def answerItems (s : State) (i : Nat) (y : Replay) (rs : List (Nat × Nat × Nat)) : State :=
  match s.rword y.word with
  | none => s.delReplay i
  | some r =>
    let now := rs.filter (fun x => y.items.any (fun t => t.lane == x.1 && t.st.isNone))
    let s := now.foldl (fun s x => answerLane s r x.1 x.2.1 x.2.2) s
    let items := y.items.map (fun t => match now.find? (fun x => x.1 == t.lane) with
      | some x => { t with st := some x.2.1 }
      | none => t)
    let s := if r.op = 5 ∧ r.ord % 2 = 1 ∧ 1 ≤ r.sc ∧ !now.isEmpty then dropL1 s r.core r.ctx else s
    if items.all (fun t => t.st.isSome) then
      let bad := items.filterMap (fun t => match t.st with
        | some c => if c = 0 then none else some (t.lane, c)
        | none => none)
      let worst := bad.foldl (fun a x => lowerLane a (some x)) none
      replayDone (charge (s.delReplay i) r.bar (r.w * items.length) (!bad.isEmpty)) y.word worst
    else s.setReplay i { y with items := items }

/-- The answers that a reply carries. -/
def Packet.answers (p : Packet) (w : Nat) : List (Nat × Nat × Nat) :=
  ((lanesOf (BitVec.ofNat 32 (fieldAt p.body 0 4))).zipIdx).map (fun x =>
    (x.1, if fieldAt p.body (8 + x.2) 1 = 0 then 0 else 3, fieldAt p.body (40 + w * x.2) w))

/-- The replay that an arrived reply answers and the lanes that it still answers, none where it is stale (15_remote.md R306). -/
def replyLanes (s : State) (p : Packet) : Option (Nat × Replay × List (Nat × Nat × Nat)) :=
  match (if p.tinc == s.fab.inc then answeredReplay s p else none) with
  | none => none
  | some (i, y) =>
    match s.rword y.word with
    | none => none
    | some r =>
      let rs := (p.answers r.w).filter (fun x => y.items.any (fun t => t.lane == x.1 && t.st.isNone && t.va / 128 * 128 == p.addr))
      if rs.isEmpty then none else some (i, y, rs)

/-- REMOTE_REPLY (15_remote.md R291, R306). -/
def execRemoteReply (pkt : Nat) (s : State) : Result :=
  match mfind s.fab.inbox pkt with
  | none => .next s
  | some p =>
    if p.kind ≠ 2 then .next s
    else
      match replyLanes s p with
      | none => .next (dropStale s pkt p)
      | some (i, y, rs) => .next (answerItems (takeIn s pkt) i y rs)

/-- A turn of the schedule: one lane of an arrived reply is written before the others; with the last one the reply is taken
(02_encoding.md R29, 15_remote.md R291). -/
def landRemote (s : State) (pkt lane : Nat) : State :=
  match mfind s.fab.inbox pkt with
  | none => s
  | some p =>
    match (if p.kind = 2 then replyLanes s p else none) with
    | none => s
    | some (i, y, rs) =>
      let now := rs.filter (fun x => x.1 == lane)
      let s := if now.length = rs.length then takeIn s pkt else s
      if now.isEmpty then s else answerItems s i y now

/-- The posted packet that an acknowledgment or a refusal names. -/
def namedPost (s : State) (p : Packet) : Option (Nat × Post) :=
  s.fab.posts.find? (fun q => q.2.pkt.stream == p.stream && q.2.pkt.seq == p.seq && q.2.pkt.wtag == p.wtag)

/-- REMOTE_ACKNOWLEDGMENT (15_remote.md R291, R306): a failed item makes the packet fail (R292, log entry 39). -/
def execRemoteAcknowledgment (pkt : Nat) (s : State) : Result :=
  match mfind s.fab.inbox pkt with
  | none => .next s
  | some p =>
    if p.kind ≠ 3 then .next s
    else
      match (if p.tinc == s.fab.inc then namedPost s p else none) with
      | none => .next (dropStale s pkt p)
      | some (i, q) =>
        if !q.wait.contains p.src then .next (dropStale s pkt p)
        else
          let s := takeIn s pkt
          if (p.answers 0).any (fun x => x.2.1 != 0) then .next (failPost s i 3)
          else if (q.wait.filter (· != p.src)).isEmpty then .next (endPost s i q)
          else .next (s.setPost i { q with wait := q.wait.filter (· != p.src) })

/-- An exchange run that a receiver has refused waits to be sent again: its state is 100 (13_engines.md R274). -/
def refuseRun (s : State) (p : Packet) : State :=
  match s.fab.runs.find? (fun q => q.2.2.2.1.stream == p.stream && q.2.2.2.1.seq == p.seq && q.2.2.2.1.ctx == p.ctx &&
      q.2.2.2.1.wtag == p.wtag && q.2.2.2.1.dst == p.dst) with
  | some (_, part, j, _, _) =>
    match s.part part with
    | some x => s.setPart part { x with stat := mput x.stat j 100 }
    | none => s
  | none => s

/-- A packet of a replay that was refused is sent again, and the replay notes its plane (15_remote.md R298, R309). -/
def resendOf (s : State) (i : Nat) (y : Replay) (p : Packet) : State :=
  let (s, l) := y.pkts.foldl (fun (a : State × List (Packet × Nat)) k =>
    if k.1.stream == p.stream && k.1.seq == p.seq then
      let (plane, s) := sendPacket a.1 k.1
      (s, a.2 ++ [(k.1, plane.getD k.2)])
    else (a.1, a.2 ++ [k])) (s, [])
  match mfind s.fab.replays i with
  | some z => s.setReplay i { z with pkts := l }
  | none => s

/-- Whether a refusal echoes a request of this package (15_remote.md R305). -/
def Packet.echoes (p q : Packet) : Bool :=
  q.stream == p.stream && q.seq == p.seq && q.wtag == p.wtag && q.dst == p.dst && q.grp == p.grp && q.op == p.op && q.addr == p.addr

/-- REFUSAL (15_remote.md R298): the packet refused is sent again. -/
def execRefusal (pkt : Nat) (s : State) : Result :=
  match mfind s.fab.inbox pkt with
  | none => .next s
  | some p =>
    if p.kind ≠ 4 then .next s
    else if p.tinc ≠ s.fab.inc ∨ p.src ≠ s.fab.self then .next (dropStale s pkt p)
    else
      let s := takeIn s pkt
      match s.fab.posts.find? (fun q => p.echoes q.2.pkt) with
      | some (i, q) =>
        match sendPacket s q.pkt with
        | (some k, s) => .next (s.setPost i { q with plane := k })
        | (none, s) => .next (failPost s i 1)
      | none =>
        match s.fab.replays.find? (fun y => y.2.sent && y.2.pkts.any (fun k => p.echoes k.1)) with
        | some (i, y) => .next (resendOf s i y p)
        | none => .next (refuseRun s p)

/-- RESPONSE_TIMEOUT (15_remote.md R292, R307). -/
def execResponseTimeout (replay lane : Nat) (s : State) : Result :=
  match mfind s.fab.replays replay with
  | none => .next s
  | some y =>
    match y.items.find? (fun t => t.lane == lane && t.st.isNone) with
    | none => .next s
    | some t =>
      if !y.sent || decide (s.plat.time < y.since + respTimeout s) then .next s
      else
        let s := match y.pkts.find? (fun k => k.1.addr == t.va / 128 * 128) with
          | some k => fabricLog s k.1 k.1.dst 4 k.2
          | none => s
        .next (answerItems s replay y [(lane, 4, 0)])

/-- Outstanding items and posted packets to a package that the fabric manager has removed fail (15_remote.md R307, R308). -/
def failMember (s : State) (q : Nat) : State :=
  let s := (mkeys s.fab.replays).foldl (fun s i => match mfind s.fab.replays i with
    | some y =>
      match s.rword y.word with
      | some r =>
        if posted r.op || bitsOf y.peer.toNat 0 12 != q || y.peer.getLsbD 31 then s
        else answerItems s i y ((y.items.filter (fun t => t.st.isNone)).map (fun t => (t.lane, 2, 0)))
      | none => s
    | none => s) s
  (mkeys s.fab.posts).foldl (fun s i => match s.post i with
    | some p => if p.wait.contains q then failPost s i 2 else s
    | none => s) s

end Sys2Proof.Machine
end

