-- ==== Sys2Proof/Machine/Exchange.lean ====
section
/-! DEFINITION. Exchanges: layout maps (13_engines.md R270, R271), the walk (R273), the words `xg.start`, `xg.cancel` and `xg.query`
(R272, R276, R277), and the steps of a part (R274, R275, 20_prog_exchange.md R354, R355). -/
namespace Sys2Proof.Machine

/-! ### Layout maps (13_engines.md R270, R271) -/

/-- A dimension of a layout map. -/
structure Dim where
  n : Nat
  l : Nat
  s : Nat
  part : Bool
  ax : Nat
  deriving DecidableEq, Repr

/-- A layout map. -/
structure LMap where
  gr : Nat
  es : Nat
  rank : Nat
  xid : Nat
  boff : Nat
  g : List Nat
  dims : List Dim
  reserved : Bool
  deriving DecidableEq, Repr

/-- The map that 128 bytes hold; `reserved` says that its reserved fields and the fields of unused dimensions are 0. -/
def parseMap (b : List Byte) : LMap :=
  let w (o : Nat) : Nat := fieldAt b o 4
  let rank := bitsOf (w 0) 0 8
  { gr := bitsOf (w 0) 16 2, es := bitsOf (w 0) 8 8, rank := rank, xid := bitsOf (w 4) 0 16, boff := fieldAt b 8 7,
    g := [bitsOf (w 0x10) 0 16, bitsOf (w 0x10) 16 16, bitsOf (w 0x14) 0 16],
    dims := (List.range 6).map (fun d => ⟨w (0x20 + 16 * d), w (0x24 + 16 * d), w (0x28 + 16 * d), bitsOf (w (0x2C + 16 * d)) 2 1 == 1,
      bitsOf (w (0x2C + 16 * d)) 0 2⟩)
    reserved := bitsOf (w 0) 18 14 == 0 && bitsOf (w 4) 16 16 == 0 && fieldAt b 15 1 == 0 && bitsOf (w 0x14) 16 16 == 0 &&
      fieldAt b 0x18 8 == 0 && (List.range 6).all (fun d => bitsOf (w (0x2C + 16 * d)) 3 29 == 0 &&
        (decide (d < rank) || fieldAt b (0x20 + 16 * d) 16 == 0)) }

def LMap.dim (m : LMap) (d : Nat) : Dim := m.dims.getD d ⟨0, 0, 0, false, 0⟩
def LMap.grid (m : LMap) (a : Nat) : Nat := m.g.getD a 0

/-- Members of the grid. -/
def LMap.count (m : LMap) : Nat := m.grid 0 * m.grid 1 * m.grid 2

/-- Whether the grid of a map is one of R270 and R271. -/
def LMap.gridOk (m : LMap) : Bool :=
  decide (1 ≤ m.gr) && m.g.all (fun x => decide (1 ≤ x) && decide (x ≤ 4096)) &&
  (List.range 3).all (fun a => decide (a < m.gr) || m.grid a == 1) && decide (m.count ≤ 4096)

/-- Whether a map is valid (13_engines.md R271). -/
def LMap.ok (m : LMap) : Bool :=
  m.reserved && m.gridOk && decide (1 ≤ m.rank) && decide (m.rank ≤ 6) && decide (1 ≤ m.es) && decide (m.es ≤ 16) &&
  (List.range m.rank).all (fun d =>
    let x := m.dim d
    decide (1 ≤ x.n) && (if x.part then decide (x.ax < m.gr) && x.n == x.l * m.grid x.ax else x.l == x.n && x.ax == 0)) &&
  (List.range m.gr).all (fun a => ((List.range m.rank).filter (fun d => (m.dim d).part && (m.dim d).ax == a)).length == 1)

/-- Whether two maps agree (13_engines.md R271). -/
def LMap.agrees (a b : LMap) : Bool :=
  a.rank == b.rank && a.es == b.es && a.gr == b.gr && a.g == b.g && a.dims.map Dim.n == b.dims.map Dim.n

/-- Grid coordinate of axis a of member m. -/
def LMap.coord (m : LMap) (mem a : Nat) : Nat :=
  if a = 0 then mem % m.grid 0 else if a = 1 then mem / m.grid 0 % m.grid 1 else mem / m.grid 0 / m.grid 1

/-- Bytes of a member's local block (13_engines.md R275). -/
def LMap.bytes (m : LMap) : Nat := (List.range m.rank).foldl (fun a d => a * (m.dim d).l) m.es

/-- Whether dmap lets a part that failed as bad be charged: its rank and element size lie in the ranges of R270 (log entry 41). -/
def LMap.charged (m : LMap) : Bool := decide (1 ≤ m.rank) && decide (m.rank ≤ 6) && decide (1 ≤ m.es) && decide (m.es ≤ 16)

/-- The bounds of a member's local block around boff. -/
def LMap.span (m : LMap) : Nat := (List.range m.rank).foldl (fun a d => a + ((m.dim d).l - 1) * (m.dim d).s) m.es

/-! ### The walk (13_engines.md R273) -/

/-- A run: its member, its offset in the destination extent, and the source element it begins at. -/
structure Walked where
  mem : Nat
  off : Nat
  first : List Nat
  count : Nat
  deriving DecidableEq, Repr

/-- The elements of the runs along dimension 0 from element i on: every row of the walk is cut at the same places. -/
def rowRuns (d : LMap) (base l0 : Nat) : Nat → Nat → List (Nat × Nat)
  | 0, _ => []
  | k + 1, i =>
    if l0 ≤ i then []
    else
      let x := d.dim 0
      let most := if x.s = d.es then 192 / d.es else 1
      let left := if x.part then x.l - (base + i) % x.l else l0 - i
      let n := max 1 (min (min most left) (l0 - i))
      (i, n) :: rowRuns d base l0 k (i + n)

/-- Where the elements of a member begin in a partitioned dimension. -/
def LMap.base (m : LMap) (mem d : Nat) : Nat := if (m.dim d).part then m.coord mem (m.dim d).ax * (m.dim d).l else 0

/-- Rows of the walk: the product of the outer local sizes. -/
def LMap.rows (m : LMap) : Nat := (List.range (m.rank - 1)).foldl (fun a d => a * (m.dim (d + 1)).l) 1

/-- The runs of a row. -/
def walkRow (sm dm : LMap) (mem : Nat) : List (Nat × Nat) := rowRuns dm (sm.base mem 0) (sm.dim 0).l (sm.dim 0).l 0

/-- Local index of dimension d ≥ 1 in row q, dimension 1 fastest. -/
def rowIndex (sm : LMap) (q d : Nat) : Nat :=
  q / (List.range (d - 1)).foldl (fun a e => a * (sm.dim (e + 1)).l) 1 % (sm.dim d).l

/-- Run j of the walk of member `mem`. -/
def walkRun (sm dm : LMap) (mem j : Nat) : Walked :=
  let row := walkRow sm dm mem
  let (i, n) := row.getD (j % row.length) (0, 0)
  let l := (List.range sm.rank).map (fun d => if d = 0 then i else rowIndex sm (j / row.length) d)
  let g (d : Nat) : Nat := sm.base mem d + l.getD d 0
  let cd (a : Nat) : Nat := match (List.range dm.rank).find? (fun d => (dm.dim d).part && (dm.dim d).ax == a) with
    | some d => g d / (dm.dim d).l
    | none => 0
  { mem := cd 0 + dm.grid 0 * (cd 1 + dm.grid 1 * cd 2)
    off := (List.range dm.rank).foldl (fun a d => a + g d % (dm.dim d).l * (dm.dim d).s) dm.boff
    first := l, count := n }

/-! ### A part -/

/-- The member index of this package. -/
def XPart.me (s : State) (x : XPart) : Nat := x.group.idxOf s.fab.self
def XPart.sm (x : XPart) : LMap := parseMap x.smap
def XPart.dm (x : XPart) : LMap := parseMap x.dmap
def XPart.run (s : State) (x : XPart) (j : Nat) : Walked := walkRun x.sm x.dm (x.me s) j
def XPart.dest (x : XPart) (m : Nat) : Nat := x.group.getD m 0

/-- Whether a member is gone: the fabric has removed it, or it is not reachable (13_engines.md R275). -/
def XPart.gone (s : State) (x : XPart) (q : Nat) : Bool := q != s.fab.self && (x.removed.contains q || !reachable s q)

/-- The stream field of exchange packets (15_remote.md R305). -/
def XPart.stream (x : XPart) : Nat := 256 * coreCluster x.core

/-- An exchange packet. The runs of a cluster are numbered as they are sent: a refusal names one by stream, seq and wtag (15_remote.md R305,
log entry 105). -/
def XPart.packet (s : State) (x : XPart) (kind dst seq wtag addr : Nat) (body : List Byte) : Packet :=
  newPacket s kind 0 dst false x.stream seq x.ctx x.tag wtag addr body

/-- The sequence number of a cluster's next run. -/
def XPart.nextSeq (s : State) (x : XPart) : Nat × State :=
  let n := mget s.fab.seqs 0 (2 ^ 16 + x.stream)
  (n, { s with fab := { s.fab with seqs := mset 0 s.fab.seqs (2 ^ 16 + x.stream) ((n + 1) % 2 ^ 16) } })

/-- Bytes that arrive are charged as long as the total stays below the part's charge; the rest is held back
(20_prog_exchange.md R355). A run that failed sets er at once (13_engines.md R274). Once the part's completion has begun, nothing more is
charged (R276). -/
def rxCharge (s : State) (x : XPart) (n : Nat) (fail : Bool) : State × XPart :=
  if x.stage ≠ 0 then (s, x)
  else if x.charged + n < x.charge then (charge s x.bar n fail, { x with charged := x.charged + n, er := x.er || fail })
  else (if fail then charge s x.bar 0 true else s, { x with er := x.er || fail })

/-! ### `xg.start` (13_engines.md R272) -/

/-- The package list of a part: none for bad-group. -/
def groupList (s : State) (ctx form list n : Nat) : Option (List Nat) :=
  let go (l : List Nat) : Option (List Nat) := if l.eraseDups.length = l.length ∧ l.contains s.fab.self then some l else none
  if bitsOf form 31 1 = 1 then
    match devRead s ctx list (2 * n) with
    | some b =>
      let l := (List.range n).map (fun m => fieldAt b (2 * m) 2)
      if l.all (fun x => decide (x < 4096)) then go l else none
    | none => none
  else go ((List.range n).map (fun m => (bitsOf form 0 12 + m * bitsOf form 12 12) % 4096))

/-- Whether the words of an exchange command are legal. -/
def xgOk (c : List Word) : Bool :=
  let f := cmdWord c 4
  bitsOf f 24 7 == 0 && (bitsOf f 31 1 == 0 || bitsOf f 0 24 == 0) && bitsOf (cmdWord c 6) 16 16 == 0 && cmdWord c 7 == 0 &&
  (bitsOf f 31 1 == 1 || cmdPair c 8 == 0)

/-- The interval of a map's local block, if its extent exists (09_extents.md R188). -/
def mapLock (s : State) (ctx id : Nat) (dst : Bool) (m : LMap) : Option Lock :=
  (handleDesc s ctx m.xid).map (fun d =>
    let lo := canonical d.ent d.ent.base + m.boff
    ⟨id, dst, .global ctx, lo, lo + m.span⟩)

/-- Whether a command's maps or its list of packages meet a corrupt extent table (09_extents.md R175). -/
def xgCorrupt (s : State) (ctx : Nat) (c : List Word) : Bool :=
  corruptAt s ctx (cmdPair c 0) 128 || corruptAt s ctx (cmdPair c 2) 128 ||
  (bitsOf (cmdWord c 4) 31 1 == 1 && corruptAt s ctx (cmdPair c 8) 2) ||
  [cmdPair c 0, cmdPair c 2].any (fun va => match devRead s ctx va 128 with
    | some b => handleCorrupt s ctx (parseMap b).xid
    | none => false)

/-- Members that the maps of a command give its group, 0 for none. -/
def groupCount (s : State) (ctx : Nat) (c : List Word) : Nat :=
  let sb := devRead s ctx (cmdPair c 0) 128
  let db := devRead s ctx (cmdPair c 2) 128
  let sm := parseMap (sb.getD [])
  let dm := parseMap (db.getD [])
  if sb.isSome && sm.gridOk then sm.count else if db.isSome && dm.gridOk then dm.count else 0

/-- The device's reads of a command's maps and list of packages; the word does not wait for them (02_encoding.md R28, log entry 96). -/
def mapAccs (s : State) (ctx : Nat) (c : List Word) : List DevAcc :=
  readOf ctx (cmdPair c 0) 128 ++ readOf ctx (cmdPair c 2) 128 ++
    (if bitsOf (cmdWord c 4) 31 1 = 1 then readOf ctx (cmdPair c 8) (2 * groupCount s ctx c) else [])

/-- The part that a command starts, before the receive table is charged: maps and group are read now, the 128 bytes of a map from its VA on
whatever its alignment (DESIGN CHOICE, log entry 102). -/
def newPart (s : State) (core wslot blk ctx : Nat) (c : List Word) (tk : Nat) (bar : Option ObjRef) (task id : Nat) : XPart :=
  let sb := devRead s ctx (cmdPair c 0) 128
  let db := devRead s ctx (cmdPair c 2) 128
  let sm := parseMap (sb.getD [])
  let dm := parseMap (db.getD [])
  let mapsOk := sb.isSome && db.isSome && sm.ok && dm.ok && sm.agrees dm
  let n := groupCount s ctx c
  let grp := if n = 0 then none else groupList s ctx (cmdWord c 4) (cmdPair c 8) n
  let me := (grp.getD []).idxOf s.fab.self
  let runs := if mapsOk && grp.isSome then sm.rows * (walkRow sm dm me).length else 0
  let bad := if !mapsOk then 9 else if grp.isNone then 10 else if 2 ^ 25 ≤ runs then 9 else 0
  { core := core, wslot := wslot, live := true, blk := blk, ctx := ctx, tag := bitsOf (cmdWord c 6) 0 16, tk := tk, bar := bar,
    smap := sb.getD [], dmap := db.getD [], group := grp.getD [], runs := if bad = 0 then runs else 0, next := 0, stat := [], sent := [],
    endsSent := [], ends := [], removed := [], got := [], seen := [], written := 0, charged := 0,
    charge := if db.isSome && dm.charged then dm.bytes else 0, er := bad != 0, bad := bad, cancel := none, lockId := id, task := task }

/-- What the receive table keeps for a part joins it, and its bytes are charged run by run (13_engines.md R274, 20_prog_exchange.md R355). -/
def takeRecv (s : State) (x : XPart) : State × XPart :=
  match s.work.recvs.find? (fun r => r.ctx == x.ctx && r.tag == x.tag) with
  | none => (s, x)
  | some r =>
    let s := { s with work := { s.work with recvs := s.work.recvs.erase r } }
    r.runs.foldl (fun a n => rxCharge a.1 a.2 n.1 n.2) (s, { x with got := r.got, seen := r.seen, ends := r.ends, written := r.written })

/-- A part starts for a warp; none when its locks do not fit or 8 exchanges of its cluster are outstanding (13_engines.md R255). -/
def startExchange (s : State) (core wslot blk ctx : Nat) (c : List Word) (tk : Nat) (bar : Option ObjRef) (task : Nat) : Option State :=
  let cl := coreCluster core
  let (id, s) := s.fresh
  let x := newPart s core wslot blk ctx c tk bar task id
  let ls := if x.bad = 0 then (mapLock s ctx id false x.sm).toList ++ (mapLock s ctx id true x.dm).toList else []
  let old := mget s.work.ilts [] cl
  if Config.clusterIlt < old.length + ls.length ∨ 8 ≤ (s.work.parts.filter (fun p => coreCluster p.2.core == cl)).length then none
  else
    let s := devUses s (mapAccs s ctx c)
    let s := { s with work := { s.work with ilts := mset [] s.work.ilts cl (old ++ ls), xgDead := s.work.xgDead.filter (· != (ctx, x.tag)) } }
    let (s, x) := takeRecv s x
    some ((s.setPart id x).updWarp core wslot (fun w => { w with cp := w.cp + 1 }))

def execXgStart (cb tk : SReg) (s : State) : Result :=
  if s.hblk.isReplay then .next (endReplay s s.hwarp.blk 4 0)
  else if 6 ≤ s.hwarp.cp then .next s
  else
    let c := s.command cb 10
    if !xgOk c then .next s.illegal
    else
      match engBar s s.hcore s.hwarp.blk s.em (c.getD 5 0) with
      | .error f => .next (s.raise f)
      | .ok bar =>
        if xgCorrupt s s.hwarp.ctx c then .next (deviceError s)
        else
          match startExchange s s.hcore s.run.wslot s.hwarp.blk s.hwarp.ctx c tk.val bar 0 with
          | some s' => .next (s'.advance 1)
          | none => .next s

/-! ### Arriving runs (13_engines.md R274) -/

/-- What a run's destination check finds: its extent, or the cause of its failure. -/
def runCheck (s : State) (ctx xid off n : Nat) : Except Nat Desc :=
  match handleDesc s ctx xid with
  | none => .error 4
  | some d =>
    if d.ent.len ≤ off then (match walk s ctx (d.ent.base + off) with | .found _ => .error 1 | _ => .error 4)
    else if d.ent.cls ≠ 4 ∨ lacks d.ent.perms permW ≠ 0 ∨ auditInput s ctx xid then .error 2
    else if d.ent.len < off + n then .error 1
    else .ok d

/-- The pieces of a run's bytes by sector: canonical address and bytes. -/
def sectorPieces : Nat → Nat → List Byte → List (Nat × List Byte)
  | 0, _, _ => []
  | k + 1, va, bs =>
    if bs.isEmpty then []
    else
      let n := 32 - va % 32
      (va, bs.take n) :: sectorPieces k (va + n) (bs.drop n)

/-- A run's bytes are written at the point of coherence. -/
def writeRun (s : State) (ctx : Nat) (d : Desc) (off : Nat) (bs : List Byte) : State :=
  (sectorPieces 8 (canonical d.ent (d.ent.base + off)) bs).foldl (fun s p => match canonDesc s ctx p.1 with
    | .found c => homeWrite (useByte s c p.1 true) c p.1 p.2
    | _ => s) s

/-- Whether a run waits at its port or at home, or meets a corrupt table; whether a write of part of a poisoned sector fails it
(11_traps.md R222). -/
def runWait (s : State) (ctx : Nat) (d : Desc) (off : Nat) (bs : List Byte) : Option State :=
  ((sectorPieces 8 (canonical d.ent (d.ent.base + off)) bs).filterMap (fun p => match canonDesc s ctx p.1 with
    | .found c => byteWait s (entryPort (homeCluster c.ent (lineKey ctx p.1)) p.1) c p.1 true
    | .corrupt => some (deviceError s)
    | .none => none)).head?
def runNarrow (s : State) (ctx : Nat) (d : Desc) (off : Nat) (bs : List Byte) : Bool :=
  (sectorPieces 8 (canonical d.ent (d.ent.base + off)) bs).any (fun p => match canonDesc s ctx p.1 with
    | .found c => narrowError s c p.1 p.2.length
    | _ => true)

/-- The part of this package for a context and a tag. -/
def partFor (s : State) (ctx tag : Nat) : Option (Nat × XPart) := s.work.parts.find? (fun p => p.2.ctx == ctx && p.2.tag == tag)

/-- A run from a member lands or fails here: its bytes are written, counted at the part or in the receive table, and charged. One under the
tag of a cancelled exchange is counted for no later one (DESIGN CHOICE, log entry 102). -/
def landRun (s : State) (ctx tag src j xid off : Nat) (bs : List Byte) : State × Nat :=
  let r := runCheck s ctx xid off bs.length
  let cause := match r with
    | .error c => c
    | .ok d => if runNarrow s ctx d off bs then 3 else 0
  let s := match r with
    | .ok d => if cause = 0 then writeRun s ctx d off bs else s
    | .error _ => s
  let n := bs.length
  let won := if cause = 0 then n else 0
  match partFor s ctx tag with
  | some (i, x) =>
    let x := { x with got := mput x.got src (mget x.got 0 src + n), seen := x.seen ++ [(src, j)], written := x.written + won }
    let (s, x) := rxCharge s x n (cause != 0)
    (s.setPart i x, cause)
  | none =>
    if s.work.xgDead.contains (ctx, tag) then (s, cause)
    else
      let r := (s.work.recvs.find? (fun r => r.ctx == ctx && r.tag == tag)).getD ⟨ctx, tag, [], [], [], 0, []⟩
      let r' : Recv := { r with runs := r.runs ++ [(n, cause != 0)], got := mput r.got src (mget r.got 0 src + n),
                                seen := r.seen ++ [(src, j)], written := r.written + won }
      ({ s with work := { s.work with recvs := s.work.recvs.filter (fun q => !(q.ctx == ctx && q.tag == tag)) ++ [r'] } }, cause)

/-- Whether a context and tag have a place for what arrives: a part, a table entry, or room for one (13_engines.md R274). -/
def hasPlace (s : State) (ctx tag : Nat) : Bool :=
  (partFor s ctx tag).isSome || s.work.xgDead.contains (ctx, tag) || s.work.recvs.any (fun r => r.ctx == ctx && r.tag == tag) ||
  decide (s.work.recvs.length < 64)

/-- Runs that have arrived under a context and tag. -/
def seenRuns (s : State) (ctx tag : Nat) : List (Nat × Nat) :=
  match partFor s ctx tag with
  | some (_, x) => x.seen
  | none => ((s.work.recvs.find? (fun r => r.ctx == ctx && r.tag == tag)).map Recv.seen).getD []

/-- EXCHANGE_RUN (13_engines.md R274, R278, 15_remote.md R306). -/
def execExchangeRun (pkt : Nat) (s : State) : Result :=
  match mfind s.fab.inbox pkt with
  | none => .next s
  | some p =>
    if p.kind ≠ 5 then .next s
    else if !incOk s p || p.dst != s.fab.self then .next (dropStale s pkt p)
    else if (seenRuns s p.ctx p.tag).contains (p.src, p.wtag) then .next (takeIn s pkt)
    else if !hasPlace s p.ctx p.tag then .next (refuse s pkt p)
    else
      let bs := (p.body.drop 16).take (fieldAt p.body 0 4)
      let xid := p.addr % 2 ^ 16
      let off := p.addr / 2 ^ 16
      match (if handleCorrupt s p.ctx xid then some (deviceError s)
          else match runCheck s p.ctx xid off bs.length with | .ok d => runWait s p.ctx d off bs | .error _ => none) with
      | some s' => .next s'
      | none =>
        let (s, cause) := landRun (takeIn s pkt) p.ctx p.tag p.src p.wtag xid off bs
        let s := if cause = 0 then s else arrivalLog s p 6
        .next (sendPacket s (newPacket s 7 0 p.src false p.stream p.seq p.ctx p.tag p.wtag 0 (leBytes 4 cause ++ copies 12 0))).2

/-! ### Emission (13_engines.md R273, R278, 20_prog_exchange.md R354) -/

/-- A source byte of a run: its place, or the cause of its failure, 0 for a corrupt extent table. -/
def sourceByte (s : State) (x : XPart) (off : Nat) : Except Nat (Desc × Nat × Nat) :=
  match handleWalk s x.ctx x.sm.xid with
  | .corrupt => .error 0
  | .none => .error 1
  | .found d =>
    if d.ent.len ≤ off then .error 1
    else if lacks d.ent.perms permR ≠ 0 then .error 2
    else
      let va := canonical d.ent (d.ent.base + off)
      match canonDesc s x.ctx va with
      | .found c => .ok (c, va, d.ent.base + off)
      | .corrupt => .error 0
      | .none => .error 1

/-- Offsets of a run's source bytes, elements in order. -/
def runSource (m : LMap) (w : Walked) : List Nat :=
  ((List.range w.count).map (fun k =>
    let o := (List.range m.rank).foldl (fun a d => a + (w.first.getD d 0 + (if d = 0 then k else 0)) * (m.dim d).s) m.boff
    (List.range m.es).map (o + ·))).flatten

/-- A member's end message with the bytes sent to it; the one to this package is recorded at once. -/
def sendEnd (s : State) (i : Nat) (m : Nat) : State :=
  match s.part i with
  | none => s
  | some x =>
    let q := x.dest m
    let n := mget x.sent 0 m
    if x.endsSent.contains m then s
    else if q = s.fab.self then s.setPart i { x with endsSent := x.endsSent ++ [m], ends := mput x.ends q n }
    else
      let s := s.setPart i { x with endsSent := x.endsSent ++ [m] }
      if reachable s q then (sendPacket s (x.packet s 6 q 0 0 n [])).2 else s

/-- Every end message that a part has not sent. -/
def sendEnds (s : State) (i : Nat) : State :=
  match s.part i with
  | none => s
  | some x => (List.range x.group.length).foldl (fun s m => sendEnd s i m) s

/-- The state of a run. -/
def setStat (s : State) (i j v : Nat) : State :=
  match s.part i with
  | some x => s.setPart i { x with stat := mput x.stat j v }
  | none => s

/-- A run is sent to its member, or written here when the member is this package. -/
def sendRun (s : State) (i j : Nat) (x : XPart) (w : Walked) (bs : List Byte) : State :=
  let q := x.dest w.mem
  let s := s.setPart i { x with sent := mput x.sent w.mem (mget x.sent 0 w.mem + bs.length) }
  if q = s.fab.self then
    let (s, cause) := landRun s x.ctx x.tag q j x.dm.xid w.off bs
    let s := if cause = 0 then s else fabricLog s (x.packet s 5 q 0 j (x.dm.xid + 2 ^ 16 * w.off) []) q 6 0
    setStat s i j (if cause = 0 then 1 else 2 + cause)
  else if x.gone s q then setStat s i j 13
  else
    let (n, s) := x.nextSeq s
    let p := x.packet s 5 q n j (x.dm.xid + 2 ^ 16 * w.off) (leBytes 4 bs.length ++ copies 12 0 ++ bs)
    let (plane, s) := sendPacket s p
    let (k, s) := s.freshFab
    setStat { s with fab := { s.fab with runs := mput s.fab.runs k (i, j, p.sentOn plane, s.plat.time) } } i j 0

/-- The next run of a part. -/
def emitRun (s : State) (i : Nat) (x : XPart) : State :=
  let j := x.next
  let w := x.run s j
  let src := (runSource x.sm w).map (sourceByte s x)
  let bad := (src.filterMap (fun r => match r with | .error c => some c | .ok _ => none)).head?
  let oks := src.filterMap (fun r => match r with | .ok l => some l | .error _ => none)
  let own : Option State := if x.dest w.mem = s.fab.self then
      (if handleCorrupt s x.ctx x.dm.xid then some (deviceError s)
       else match runCheck s x.ctx x.dm.xid w.off (w.count * x.sm.es) with
       | .ok d => runWait s x.ctx d w.off (copies (w.count * x.sm.es) 0)
       | .error _ => none)
    else none
  match bad with
  | some 0 => deviceError s
  | some c => setStat (s.setPart i { x with next := j + 1 }) i j (2 + c)
  | none =>
    match ((oks.filterMap (fun l => byteWait s (entryPort (coreCluster x.core) l.2.1) l.1 l.2.1 false)).head?).orElse (fun _ => own) with
    | some s' => s'
    | none =>
      let x := { x with next := j + 1 }
      let s := oks.foldl (fun s l => useByte s l.1 l.2.1 false) s
      match oks.find? (fun l => byteDead s l.1 l.2.1 false || (homeByte s l.1 l.2.1).2) with
      | some l =>
        escalate (setStat (s.setPart i x) i j 5) x.ctx l.1.ent.xid l.1.ent.cls (devicePlace s l.1 (l.2.1 - l.1.ent.base)) 1
          (l.2.2 / 32 * 32)
      | none => sendRun (s.setPart i x) i j x w (oks.map (fun l => (homeByte s l.1 l.2.1).1))

/-- EXCHANGE_RUN_EMIT (13_engines.md R273, 20_prog_exchange.md R354). -/
def execExchangeRunEmit (part : Nat) (s : State) : Result :=
  match s.part part with
  | none => .next s
  | some x =>
    if x.cancel.isSome || x.stage ≠ 0 then .next s
    else if x.runs ≤ x.next then .next (sendEnds s part)
    else
      let w := x.run s x.next
      let s := emitRun s part x
      match s.part part with
      | some y =>
        let later := (List.range (y.runs - y.next)).any (fun k => (y.run s (y.next + k)).mem == w.mem)
        let s := if y.next = x.next ∨ later then s else sendEnd s part w.mem
        .next (if y.runs ≤ y.next then sendEnds s part else s)
      | none => .next s

/-- RUN_ACKNOWLEDGMENT (13_engines.md R274): landed, or not landed with its cause. -/
def execRunAcknowledgment (pkt : Nat) (s : State) : Result :=
  match mfind s.fab.inbox pkt with
  | none => .next s
  | some p =>
    if p.kind ≠ 7 then .next s
    else
      match s.fab.runs.find? (fun r => r.2.2.2.1.ctx == p.ctx && r.2.2.2.1.tag == p.tag && r.2.2.2.1.wtag == p.wtag && r.2.2.2.1.dst == p.src) with
      | some (k, i, j, _, _) =>
        if p.tinc ≠ s.fab.inc then .next (dropStale s pkt p)
        else
          let s := takeIn { s with fab := { s.fab with runs := mdel s.fab.runs k } } pkt
          let c := fieldAt p.body 0 1
          .next (setStat s i j (if c = 0 then 1 else 2 + c))
      | none => .next (dropStale s pkt p)

/-- RUN_RESEND (13_engines.md R274): a run refused for a full receive table is sent again; its timeout runs on (15_remote.md R409). -/
def execRunResend (part j : Nat) (s : State) : Result :=
  match s.fab.runs.find? (fun r => r.2.1 == part && r.2.2.1 == j), s.part part with
  | some (k, _, _, p, t), some x =>
    if mfind x.stat j = some 100 then
      let (plane, s) := sendPacket s p
      .next (setStat { s with fab := { s.fab with runs := mput s.fab.runs k (part, j, p.sentOn plane, t) } } part j 0)
    else .next s
  | _, _ => .next s

/-- EXCHANGE_END (20_prog_exchange.md R354, 13_engines.md R274, R275). One under the tag of a cancelled exchange is kept for no later one
(DESIGN CHOICE, log entry 102). -/
def execExchangeEnd (pkt : Nat) (s : State) : Result :=
  match mfind s.fab.inbox pkt with
  | none => .next s
  | some p =>
    if p.kind ≠ 6 then .next s
    else if !incOk s p || p.dst != s.fab.self then .next (dropStale s pkt p)
    else if !hasPlace s p.ctx p.tag then .next s
    else
      let s := takeIn s pkt
      match partFor s p.ctx p.tag with
      | some (i, x) => .next (s.setPart i { x with ends := mput x.ends p.src p.addr })
      | none =>
        if s.work.xgDead.contains (p.ctx, p.tag) then .next s
        else
          let r := (s.work.recvs.find? (fun r => r.ctx == p.ctx && r.tag == p.tag)).getD ⟨p.ctx, p.tag, [], [], [], 0, []⟩
          let r' : Recv := { r with ends := mput r.ends p.src p.addr }
          .next { s with work := { s.work with recvs := s.work.recvs.filter (fun q => !(q.ctx == p.ctx && q.tag == p.tag)) ++ [r'] } }

/-! ### Completion (13_engines.md R259, R275, R276) -/

/-- Whether every run that a part has sent has been acknowledged. -/
def XPart.settled (x : XPart) : Bool := x.stat.all (fun p => p.2 != 0 && p.2 != 100)

/-- The receive side's failure: a member that is gone, or announced bytes that are not the charge (13_engines.md R275). -/
def XPart.recvFail (s : State) (x : XPart) : Option Nat :=
  if x.group.any (x.gone s) then some 11 else if x.ends.foldl (fun a p => a + p.2) 0 ≠ x.charge then some 12 else none

/-- The record of a receive side that failed beside failed runs: its cause is removed, or run not landed, and it names the member
(13_engines.md R275, 15_remote.md R309, log entry 41). -/
def recvLog (s : State) (x : XPart) : State :=
  match x.recvFail s with
  | none => s
  | some c =>
    let q := ((x.group.find? (fun q => if c = 11 then x.gone s q else mget x.ends 0 q != mget x.got 0 q)).orElse
      (fun _ => x.group.head?)).getD 0
    fabricLog s (x.packet s 6 q 0 0 0 []) q (if c = 11 then 2 else 6) 0

/-- A part ends, one stage of R259 at a time: its ILT entries are freed, the rest of its charge is made, its token is written and cp
falls. A cancelled part is remembered: runs that arrive later are charged to nothing (13_engines.md R276). -/
def endPart (s : State) (i : Nat) (x : XPart) (st cause off : Nat) : State :=
  let r := x.close.getD (st, cause, off)
  match x.stage with
  | 0 => freeLocks (s.setPart i { x with stage := 1, close := some r }) x.core x.lockId
  | 1 => charge (s.setPart i { x with stage := 2 }) x.bar (x.charge - x.charged) (x.er || r.1 != 1)
  | _ =>
    let s := { s with work := { s.work with
      parts := mdel s.work.parts i
      xgDead := if x.cancel.isSome then s.work.xgDead ++ [(x.ctx, x.tag)] else s.work.xgDead } }
    opTask (putToken s x.core x.wslot x.live x.tk (tokenWord r.1 r.2.1 r.2.2)) x.task r.1 r.2.1

/-- How a part that is not cancelled ends: none while it waits. -/
def XPart.verdict (s : State) (x : XPart) : Option (Nat × Nat × Nat) :=
  if x.bad = 10 ∨ (x.bad = 9 ∧ x.endsSent.length = x.group.length) then some (2, x.bad, 0)
  else if x.bad ≠ 0 ∨ x.next < x.runs ∨ !x.settled ∨ x.endsSent.length ≠ x.group.length then none
  else if !x.group.all (fun q => x.gone s q || (match mfind x.ends q with | some n => decide (n ≤ mget x.got 0 q) | none => false)) then none
  else
    match x.stat.find? (fun p => decide (2 ≤ p.2)) with
    | some (j, v) => some (2, v - 2, j)
    | none =>
      match x.recvFail s with
      | some c => some (2, c, 0x1FFFFFF)
      | none => some (1, 0, 0)

/-- EXCHANGE_PART_COMPLETE (13_engines.md R275, 20_prog_exchange.md R355). -/
def execExchangePartComplete (part : Nat) (s : State) : Result :=
  match s.part part with
  | none => .next s
  | some x =>
    match (if x.cancel.isSome then none else x.close.orElse (fun _ => x.verdict s)) with
    | some (st, cause, off) =>
      let s := if x.stage = 0 ∧ st = 2 ∧ x.bad = 0 ∧ off ≠ 0x1FFFFFF then recvLog s x else s
      .next (devTurn s (opAccs s x.stage x.task st) (fun s => endPart s part x st cause off))
    | none => .next s

/-- `xg.cancel` (13_engines.md R276). -/
def execXgCancel (cb tk d : SReg) (s : State) : Result :=
  if s.hblk.isReplay then .next (endReplay s s.hwarp.blk 4 0)
  else
    match youngestPart s s.hcore s.run.wslot tk.val with
    | none => .next (s.status d 1 1)
    | some i =>
      match s.part i with
      | none => .next (s.status d 1 1)
      | some x =>
        let s := if x.cancel.isSome || x.stage ≠ 0 then s
          else sendEnds (s.setPart i { x with cancel := some (s.hwarp.pair cb.val).toNat }) i
        .next (s.status d 0 1)

/-- The bytes of a cancel report: bit j mod 8 of byte j / 8 says that run j landed. -/
def reportBytes (x : XPart) : List Byte :=
  (List.range ((x.runs + 7) / 8)).map (fun b =>
    BitVec.ofNat 8 ((List.range 8).foldl (fun a k => if mfind x.stat (8 * b + k) = some 1 then a + 2 ^ k else a) 0))

/-- XG_CANCEL_COMPLETE (13_engines.md R276): the report is written when the completion begins. Where every run has landed the offset is the
number of runs (DESIGN CHOICE, log entry 102). -/
def execXgCancelComplete (part : Nat) (s : State) : Result :=
  match s.part part with
  | none => .next s
  | some x =>
    match x.cancel with
    | none => .next s
    | some va =>
      if x.stage ≠ 0 then .next (endPart s part x 3 0 0)
      else if !x.settled then .next s
      else
        let bs := reportBytes x
        let ls := (List.range bs.length).map (fun k => engByte s x.core x.blk x.ctx (.glob (va + k)) permW)
        let places := ls.filterMap (fun l => match l with | .ok p => some p | .error _ => none)
        let off := ((List.range x.runs).find? (fun j => mfind x.stat j != some 1)).getD x.runs
        if va = 0 then .next (endPart s part x 3 0 off)
        else if ls.any (fun l => match l with | .error c => c == 0 | .ok _ => false) then .next (deviceError s)
        else if places.length ≠ bs.length ∨ places.any (fun l => locNarrow s x.ctx places l || locDead s x.ctx l true) then
          .next (endPart s part x 3 1 off)
        else
          match (places.filterMap (fun l => locWait s (coreCluster x.core) x.ctx l true)).head? with
          | some s' => .next s'
          | none =>
            let s := (places.zip bs).foldl (fun s b => writeLoc s x.ctx b.1 b.2) (clearWholes s (locBytes s x.ctx places))
            .next (endPart s part x 3 0 off)

/-- `xg.query` (13_engines.md R277). -/
def execXgQuery (tk d : SReg) (sel : Fin 4) (s : State) : Result :=
  match (youngestPart s s.hcore s.run.wslot tk.val).bind s.part with
  | none => .next ((s.updHere (fun w => (w.setS d.val 0).setScc false)).advance 1)
  | some x =>
    let n := match sel.val with
      | 0 => x.runs
      | 1 => (x.stat.filter (fun p => p.2 == 1)).length
      | 2 => x.written
      | _ => x.ends.length
    .next ((s.updHere (fun w => (w.setS d.val (BitVec.ofNat 32 n)).setScc true)).advance 1)

/-! ### Liveness (15_remote.md R307, R308, R409) -/

/-- A run to a member that is gone fails with unreachable. -/
def failRun (s : State) (k cause : Nat) : State :=
  match mfind s.fab.runs k with
  | none => s
  | some (i, j, p, _) =>
    let s := setStat { s with fab := { s.fab with runs := mdel s.fab.runs k } } i j 13
    fabricLog s p p.dst cause p.via

/-- POSTED_TIMEOUT (15_remote.md R409): a posted packet or a run without acknowledgment for the response timeout fails; the part of a
run takes its member as removed. -/
def execPostedTimeout (post : Nat) (s : State) : Result :=
  match s.post post with
  | some q => if q.since + respTimeout s ≤ s.plat.time then .next (failPost s post 4) else .next s
  | none =>
    match mfind s.fab.runs post with
    | some (i, _, p, t) =>
      if t + respTimeout s ≤ s.plat.time then
        let s := failRun s post 4
        match s.part i with
        | some x => .next (s.setPart i { x with removed := x.removed ++ [p.dst] })
        | none => .next s
      else .next s
    | none => .next s

/-- A package is removed: every outstanding item, posted packet and run to it fails (15_remote.md R307). -/
def memberRemoved (s : State) (q : Nat) : State :=
  let s := failMember s q
  let s := (mkeys s.fab.runs).foldl (fun s k => match mfind s.fab.runs k with
    | some (_, _, p, _) => if p.dst = q then failRun s k 2 else s
    | none => s) s
  (mkeys s.work.parts).foldl (fun s i => match s.part i with
    | some x => if x.group.contains q then s.setPart i { x with removed := x.removed ++ [q] } else s
    | none => s) s

end Sys2Proof.Machine
end

