-- ==== Sys2Proof/Machine/Tasks.lean ====
section
/-! DEFINITION. Tasks (21_work.md R358 to R365): task control blocks, launch records and queues, graphs, the ready list, retirement and
the arming of successors. -/
namespace Sys2Proof.Machine

/-! ### Task control blocks (21_work.md R358) -/

/-- A TCB. -/
structure Tcb where
  kind : Nat
  arg : Nat
  region : Nat
  succ : Nat
  pred : Nat
  pred0 : Nat
  nsucc : Nat
  flags : Nat
  h : Nat
  w : Nat
  lane : Nat
  sregs : Nat
  bars : Nat
  rblk : Nat
  warps : Nat
  blocks : Nat
  spad : Nat
  param : Nat
  est : Nat
  prog : Nat
  nin : Nat
  inputs : Nat
  done : Nat
  placed : Nat
  mean : Nat
  pw : List Word
  rsvd : Bool
  deriving DecidableEq, Repr

/-- The fields of 128 TCB bytes; `rsvd` says that the reserved bits at 0x00 to 0x28 and flags [15:4] are 0. -/
def parseTcb (b : List Byte) : Tcb :=
  let q (i : Nat) := leNat ((b.drop (8 * i)).take 8)
  { kind := bitsOf (q 0) 61 3, arg := bitsOf (q 0) 0 56, region := bitsOf (q 1) 0 52, succ := bitsOf (q 2) 0 56,
    pred := bitsOf (q 3) 48 16, pred0 := bitsOf (q 3) 32 16, nsucc := bitsOf (q 3) 16 16, flags := bitsOf (q 3) 0 16,
    h := bitsOf (q 4) 56 8, w := bitsOf (q 4) 48 8, lane := bitsOf (q 4) 32 16, sregs := bitsOf (q 4) 24 8, bars := bitsOf (q 4) 16 8,
    rblk := bitsOf (q 4) 8 8, warps := bitsOf (q 4) 0 8, blocks := bitsOf (q 5) 32 24, spad := bitsOf (q 5) 0 32,
    param := bitsOf (q 6) 0 56, est := bitsOf (q 7) 32 32, prog := bitsOf (q 7) 0 32, nin := bitsOf (q 8) 56 8,
    inputs := bitsOf (q 8) 0 56, done := bitsOf (q 9) 32 32, placed := bitsOf (q 9) 0 32, mean := bitsOf (q 11) 0 32,
    pw := (List.range 8).map (fun j => BitVec.ofNat 32 (leNat ((b.drop (0x60 + 4 * j)).take 4)))
    rsvd := bitsOf (q 0) 56 5 == 0 && bitsOf (q 1) 52 12 == 0 && bitsOf (q 2) 56 8 == 0 && bitsOf (q 3) 4 12 == 0 &&
      bitsOf (q 5) 56 8 == 0 }

/-- The TCB at a VA of a context; one that cannot be read reads as zeros (log entry 45). -/
def tcbAt (s : State) (ctx va : Nat) : Tcb := parseTcb ((devRead s ctx va 128).getD (copies 128 0))

/-- The TCB of a task. A copy or exchange task is one block of one warp without resources (21_work.md R360). -/
def taskTcb (s : State) (t : Task) : Tcb :=
  let x := tcbAt s t.ctx t.tcb
  if t.kind = 1 ∨ t.kind = 2 then { x with w := 1, h := 1, lane := 0, bars := 0, rblk := 0, warps := 1, blocks := 1, spad := 0, sregs := 0 }
  else x

/-- Scratchpad bytes of a block, its lane slices and barrier area included (03_assembly.md R55, 21_work.md R366). -/
def Tcb.bytes (x : Tcb) : Nat := x.spad + 32 * x.lane * x.warps + 32 * x.bars

/-- Blocks of a group. -/
def Tcb.size (x : Tcb) : Nat := x.w * x.h

/-- Whether a TCB's own fields are valid: its kind, its reserved bits, for a while node its one predecessor (21_work.md R361), and for a
kernel its resources (01_machine.md R14, 03_assembly.md R54, R55), its shape and its block count (21_work.md R358, R359, R363). -/
def Tcb.valid (x : Tcb) : Bool :=
  decide (x.kind ≤ 4) && x.rsvd && decide (x.nsucc ≤ 4096) && (x.kind != 4 || x.pred0 == 1) &&
  (x.kind != 0 || (decide (1 ≤ x.warps) && decide (x.warps ≤ 32) && decide (1 ≤ x.rblk) && decide (x.rblk ≤ 16) &&
    decide (x.rblk * x.warps ≤ Config.coreRblk) && decide (x.sregs ≤ 64) && decide (x.lane ≤ 2048) && decide (x.lane % 4 = 0) &&
    decide (x.bytes ≤ Config.spadBytes) && decide (1 ≤ x.w) && decide (x.w ≤ 16) && decide (1 ≤ x.h) && decide (x.h ≤ 12) &&
    decide (1 ≤ x.blocks) && decide (x.blocks % x.size = 0)))

/-! ### Arming (21_work.md R361, R363) -/

/-- What a launch writes into a TCB: the block count override, and the shape when flag [3] is set. -/
def launched (x : Tcb) (b w h : Nat) : Tcb :=
  let x := if b = 0 then x else { x with blocks := b }
  if x.flags / 8 % 2 = 1 then { x with w := w, h := h } else x

/-- The kernel that the loader has put at an entry clause (03_assembly.md R62, R68). -/
def kernelAt (s : State) (ctx entry : Nat) : Option LoadedKernel := s.work.kernels.find? (fun k => k.ctx == ctx && k.entry == entry)

/-- Whether the kernel at an entry clause is a matrix kernel (19_matrix.md R334); for code that no kernel of the loader's covers the answer
is free (log entry 52). -/
def kernelMatrix (s : State) (ctx entry : Nat) : Bool := ((kernelAt s ctx entry).map LoadedKernel.matrix).getD (Config.matrixKernel ctx entry)

/-- Whether the place expressions of a TCB's kernel have values for its shape that R43 admits (03_assembly.md R66, 21_work.md R363). -/
def placesOk (s : State) (ctx : Nat) (x : Tcb) : Bool :=
  x.kind != 0 || (match kernelAt s ctx x.arg with
    | some k => k.relocs.all (fun r => r.ok && r.fits x.w x.h)
    | none => true)

/-- Whether a launch of a TCB is accepted (21_work.md R363); `alone` for a record that names it, with its count and shape. -/
def launchOk (s : State) (ctx home va : Nat) (x : Tcb) (alone : Bool) (b w h : Nat) : Bool :=
  let y := launched x b w h
  (match devCheck s ctx va 128 (permR ||| permW) with | .ok _ => true | _ => false) && va % 128 == 0 && y.valid &&
  placesOk s ctx y &&
  decide (b < 2 ^ 24) && (!alone || decide (x.kind ≤ 2)) && (x.flags / 8 % 2 == 1 || (w == 0 && h == 0)) && chainOk s x.region &&
  (x.flags / 4 % 2 == 0 || effPers s x.region) && regionUnder s x.region home

/-- A task in its state after arming. -/
def newTask (s : State) (ctx home va : Nat) (x : Tcb) (st cw cv graph : Nat) (acq : Bool) : Task :=
  { ctx := ctx, tcb := va, region := x.region, part := effPart s x.region, kind := x.kind, st := st, since := s.plat.time, aged := 0,
    first := none, due := false, cw := cw, cv := cv, graph := graph, withdrawn := [], groups := [], failed := false, audits := 0,
    inputs := (List.range x.nin).map (fun k => devRead64 s ctx (x.inputs + 8 * k) % 2 ^ 16), auditable := x.flags / 2 % 2 == 1,
    posts := [], stores := [], home := home, acq := acq }

/-- The st byte of a TCB. -/
def tcbState (s : State) (ctx va st : Nat) : State := devWrite s ctx (va + 0x50) [BitVec.ofNat 8 st]

/-- A task is armed: its TCB takes st and no cause, and pred := pred0 (21_work.md R358, R361, R363). -/
def armTask (s : State) (ctx home va : Nat) (x : Tcb) (ready : Bool) (cw cv graph : Nat) : Nat × State :=
  let st := if ready then 1 else 0
  let (i, s) := s.fresh
  let s := devWrite s ctx (va + 0x1E) (leBytes 2 x.pred0)
  (i, (setTcbSt s ctx va st 0).setTask i (newTask s ctx home va x st cw cv graph false))

/-- A refused record (21_work.md R363): a TCB that can be read and written takes st 5 and cause 2. -/
def refuseTask (s : State) (ctx va : Nat) : State :=
  match devCheck s ctx va 128 (permR ||| permW) with
  | .ok _ => setTcbSt s ctx va 5 2
  | _ => s

/-- A launch record that names a task. -/
def launchTask (s : State) (ctx home va b w h cw cv : Nat) (pw : List Byte) : State :=
  let x := tcbAt s ctx va
  if launchOk s ctx home va x true b w h then
    let y := launched x b w h
    let s := devWrite s ctx (va + 0x26) (leBytes 1 y.w ++ leBytes 1 y.h)
    let s := devWrite (devWrite s ctx (va + 0x2C) (leBytes 3 y.blocks)) ctx (va + 0x60) pw
    (armTask s ctx home va y (x.pred0 == 0) cw cv 0).2
  else completionWord (refuseTask s ctx va) ctx cw cv 2

/-- A launch record that names a graph (21_work.md R361). -/
def launchGraph (s : State) (ctx home va cw cv : Nat) : State :=
  let head := devRead64 s ctx va
  let n := head % 2 ^ 32
  let roots := head / 2 ^ 32
  let ok := match devCheck s ctx va 16 permR with
    | .ok _ => (match devCheck s ctx va (16 + 8 * n) permR with | .ok _ => decide (roots ≤ n) | _ => false)
    | _ => false
  let nodes := if ok then (List.range n).map (fun k => devRead64 s ctx (va + 16 + 8 * k) % 2 ^ 56) else []
  if !ok || nodes.any (fun v => !launchOk s ctx home v (tcbAt s ctx v) false 0 0 0) then completionWord s ctx cw cv 2
  else
    let (g, s) := s.fresh
    let (s, ids) := (nodes.zipIdx).foldl (fun (a : State × List Nat) p =>
      let s := devWrite a.1 ctx (p.1 + 0x48) (copies 8 0)
      let (i, s) := armTask s ctx home p.1 (tcbAt s ctx p.1) (decide (p.2 < roots)) 0 0 (g + 1)
      (s, a.2 ++ [i])) (s, [])
    let x : Graph := { ctx := ctx, va := va, cw := cw, cv := cv, cond := [], nodes := ids }
    finishGraph { s with work := { s.work with graphs := mput s.work.graphs g x } } g

/-- Taking a launch record of a queue (21_work.md R363). -/
def launchRecord (s : State) (ctx home : Nat) (r : List Byte) : State :=
  let q (i : Nat) := leNat ((r.drop (8 * i)).take 8)
  let target := bitsOf (q 1) 0 56
  let cw := bitsOf (q 2) 0 56
  let cv := bitsOf (q 3) 0 32
  match bitsOf (q 0) 0 8 with
  | 1 => launchTask s ctx home target (bitsOf (q 0) 32 32) (bitsOf (q 0) 16 8) (bitsOf (q 0) 24 8) cw cv (r.drop 0x20)
  | 2 => launchGraph s ctx home target cw cv
  | _ => completionWord (refuseTask s ctx target) ctx cw cv 2

/-! ### Queues (21_work.md R362, R364) -/

/-- A queue descriptor. -/
structure Queue where
  no : Nat
  en : Bool
  n : Nat
  ring : Nat
  ctx : Nat
  region : Nat
  head : Nat
  tail : Nat
  deriving DecidableEq, Repr

/-- Queues of the queue table. -/
def queueCount : Nat := 131072

/-- The descriptor of queue q. -/
def queueAt (s : State) (q : Nat) : Queue :=
  let a := s.plat.qroot + 32 * q
  let x := pread64 s a
  let y := pread64 s (a + 8)
  { no := q, en := bitsOf x 63 1 == 1 && decide (4 ≤ bitsOf x 56 5) && decide (bitsOf x 56 5 ≤ 20), n := bitsOf x 56 5,
    ring := bitsOf x 0 56, ctx := bitsOf y 48 16, region := bitsOf y 0 52, head := pread32 s (a + 0x10), tail := pread32 s (a + 0x14) }

/-- DOORBELL (21_work.md R362). -/
def execDoorbell (port q tail : Nat) (s : State) : Result :=
  if s.plat.qroot = 0 ∨ queueCount ≤ q ∨ 2 ≤ port ∨ !hostUp s port then .next s
  else
    let x := queueAt s q
    let tail := tail % 2 ^ 32
    if 2 ^ x.n < (tail + 2 ^ 32 - x.head) % 2 ^ 32 then .next (hostError s 1 (0x20 + port) x.ctx q tail 0)
    else .next (pwrite s (s.plat.qroot + 32 * q + 0x14) (leBytes 4 tail))

/-- Numbers of a rising list without repeats. -/
def dedup : List Nat → List Nat
  | [] => []
  | x :: r => match r with
    | y :: _ => if x = y then dedup r else x :: dedup r
    | [] => [x]

/-- The queues whose descriptors hold a byte that is not 0, ascending: the others are not enabled. -/
def writtenQueues (s : State) : List Nat :=
  dedup (s.mem.bytes.filterMap (fun c =>
    if s.plat.qroot ≤ c.1 ∧ c.1 < s.plat.qroot + 32 * queueCount then some ((c.1 - s.plat.qroot) / 32) else none))

/-- The queues of a partition with records pending, ascending, with the priorities of their regions; a region's device queue comes after
the queues of the table (log entry 46). -/
def pendingQueues (s : State) (part : Nat) : List (Nat × Nat) :=
  let host := (writtenQueues s).filterMap (fun q =>
    let x := queueAt s q
    if x.en && x.head != x.tail && effPart s x.region == part then some (q, effPrio s x.region) else none)
  let dev := s.work.devq.filterMap (fun p =>
    if !p.2.isEmpty && effPart s p.1 == part then some (queueCount + p.1, effPrio s p.1) else none)
  host ++ dev

/-- The queue that a partition's arbiter takes from next: the highest priority, then round-robin after the one last taken. -/
def nextQueue (s : State) (part : Nat) : Option Nat :=
  let l := pendingQueues s part
  let top := l.foldl (fun a p => max a p.2) 0
  let l := (l.filter (fun p => p.2 == top)).map Prod.fst
  match l.find? (fun q => decide (mget s.work.lastQ 0 part ≤ q)) with
  | some q => some q
  | none => l.head?

/-! ### The ready list (21_work.md R365) -/

/-- Effective priority of a task. -/
def taskPrio (s : State) (t : Task) : Nat := min 15 (effPrio s t.region + t.aged)

/-- The lowest-numbered group of a kernel task of which no block has been placed or withdrawn (21_work.md R359, R379). -/
def freshGroup (t : Task) (x : Tcb) : Option Nat :=
  let used (g : Nat) : Bool := t.groups.contains g || t.withdrawn.any (fun b => b / x.size == g)
  (List.range (min (x.blocks / x.size) (t.groups.length + t.withdrawn.length + 1))).find? (fun g => !used g)

/-- A task's next group: a saved one that may be placed again, lowest group first, else an unplaced one (log entry 47). -/
inductive NextGroup
  | saved (k : Nat)
  | fresh (g : Nat)
  deriving DecidableEq, Repr

/-- The saved groups of a task that wait for a place, in order of their group index. -/
def savedOf (s : State) (i : Nat) : List (Nat × Saved) := s.work.saved.filter (fun p => p.2.task == i && !p.2.held)

def nextGroup (s : State) (i : Nat) (t : Task) : Option NextGroup :=
  match (savedOf s i).foldl (fun (a : Option (Nat × Nat)) p => match a with
    | some b => if p.2.idx < b.2 then some (p.1, p.2.idx) else some b
    | none => some (p.1, p.2.idx)) none with
  | some b => some (.saved b.1)
  | none => (freshGroup t (taskTcb s t)).map .fresh

/-- Whether a task is ready with blocks to place. -/
def waiting (s : State) (p : Nat × Task) : Bool :=
  (p.2.st == 1 || p.2.st == 2) && decide (p.2.kind ≤ 2) && (nextGroup s p.1 p.2).isSome

/-- Whether one ready task stands before another: higher effective priority, then ready longer, then armed earlier. -/
def readyBefore (s : State) (a b : Nat × Task) : Bool :=
  let pa := taskPrio s a.2
  let pb := taskPrio s b.2
  decide (pb < pa) || (pa == pb && (decide (a.2.since < b.2.since) || (a.2.since == b.2.since && decide (a.1 ≤ b.1))))

def insertReady (s : State) (x : Nat × Task) : List (Nat × Task) → List (Nat × Task)
  | [] => [x]
  | y :: r => if readyBefore s x y then x :: y :: r else y :: insertReady s x r

/-- The ready list of a partition. -/
def readyList (s : State) (part : Nat) : List (Nat × Task) :=
  (s.work.tasks.filter (fun p => p.2.part == part && waiting s p)).foldr (insertReady s) []

/-- The time since which a partition's first ready task has stood first; a task that stands first no longer has no such time, and one that no
longer waits for a block to be placed is not due. -/
def settleReady (s : State) : State :=
  let heads := (List.range 4).filterMap (fun part => (readyList s part).head?.map Prod.fst)
  { s with work := { s.work with tasks := s.work.tasks.map (fun p =>
      (p.1, { p.2 with first := if heads.contains p.1 then some (p.2.first.getD s.plat.time) else none, due := p.2.due && waiting s p })) } }

/-- PRIORITY_AGING (21_work.md R365): each ms that a task is ready raises its effective priority by 1. -/
def execPriorityAging (task : Nat) (s : State) : Result :=
  match s.task task with
  | some t =>
    if waiting s (task, t) && decide (taskPrio s t < 15) && decide (t.since + 1000000 * (t.aged + 1) ≤ s.plat.time) then
      .next (settleReady (s.setTask task { t with aged := t.aged + 1 }))
    else .next s
  | none => .next s

/-- TASK_DUE (21_work.md R365): the first task of the list has stood there for 8 ms without a block placed. -/
def execTaskDue (part : Nat) (s : State) : Result :=
  let s := settleReady s
  match readyList s part with
  | (i, t) :: _ =>
    if t.first.any (fun x => decide (x + 8000000 ≤ s.plat.time)) then .next (s.setTask i { t with due := true }) else .next s
  | [] => .next s

/-- Whether the device meets a corrupt extent table in the launch of a record: at its target, a graph's node table, or a node's TCB
(09_extents.md R175, 21_work.md R363). -/
def launchCorrupt (s : State) (ctx : Nat) (r : List Byte) : Bool :=
  let va := bitsOf (leNat ((r.drop 8).take 8)) 0 56
  let cw := bitsOf (leNat ((r.drop 16).take 8)) 0 56
  (cw != 0 && corruptAt s ctx cw 8) ||
  (match bitsOf (leNat (r.take 8)) 0 8 with
  | 2 =>
    let n := devRead64 s ctx va % 2 ^ 32
    corruptAt s ctx va 16 || corruptAt s ctx va (16 + 8 * n) ||
      ((devRead s ctx va (16 + 8 * n)).isSome && (List.range n).any (fun k => corruptAt s ctx (devRead64 s ctx (va + 16 + 8 * k) % 2 ^ 56) 128))
  | _ => corruptAt s ctx va 128)

/-- What the device reads and writes when it takes a record (21_work.md R361, R363). -/
def launchAccs (s : State) (ctx : Nat) (r : List Byte) : List DevAcc :=
  let va := bitsOf (leNat ((r.drop 8).take 8)) 0 56
  let cw := bitsOf (leNat ((r.drop 16).take 8)) 0 56
  let n := devRead64 s ctx va % 2 ^ 32
  (if cw = 0 then [] else [⟨ctx, cw, 8, true⟩]) ++
  (if bitsOf (leNat (r.take 8)) 0 8 = 2 then
    readOf ctx va 16 ++ (if (devRead s ctx va (16 + 8 * n)).isSome then
      readOf ctx va (16 + 8 * n) ++ (List.range n).flatMap (fun k => changeOf ctx (devRead64 s ctx (va + 16 + 8 * k) % 2 ^ 56) 128) else [])
  else changeOf ctx va 128)

/-- QUEUE_TAKE (21_work.md R362 to R364): the device accepts work in STATE 4 (23_platform.md R398). -/
def execQueueTake (part : Nat) (s : State) : Result :=
  if s.plat.devErr ∨ s.plat.boot ≠ 4 ∨ 4 ≤ part then .next s
  else
    match nextQueue s part with
    | none => .next s
    | some q =>
      let s := { s with work := { s.work with lastQ := mset 0 s.work.lastQ part (q + 1) } }
      if q < queueCount then
        let x := queueAt s q
        let at' := x.ring + 64 * (x.head % 2 ^ x.n)
        let r := (devRead s x.ctx at' 64).getD (copies 64 0)
        if corruptAt s x.ctx at' 64 || launchCorrupt s x.ctx r then .next (deviceError s)
        else
          .next (devTurn s (readOf x.ctx at' 64 ++ launchAccs s x.ctx r) (fun s =>
            settleReady (launchRecord (pwrite s (s.plat.qroot + 32 * q + 0x10) (leBytes 4 (x.head + 1))) x.ctx x.region r)))
      else
        match mget s.work.devq [] (q - queueCount) with
        | p :: rest =>
          if launchCorrupt s p.1 p.2 then .next (deviceError s)
          else
            .next (devTurn s (launchAccs s p.1 p.2) (fun s =>
              settleReady (launchRecord { s with work := { s.work with devq := mset [] s.work.devq (q - queueCount) rest } } p.1
                (q - queueCount) p.2)))
        | [] => .next s

/-! ### Retirement (21_work.md R359, R361) -/

/-- The task of a TCB in a graph, or outside all graphs. -/
def taskFor (s : State) (ctx va graph : Nat) : Option Nat :=
  (s.work.tasks.find? (fun p => p.2.ctx == ctx && p.2.tcb == va && p.2.graph == graph)).map Prod.fst

/-- A task becomes ready by its last predecessor: a node that has run before, or a TCB that no record has armed, is armed under R363. -/
def readyTask (s : State) (t : Task) (va : Nat) : State :=
  let x := tcbAt s t.ctx va
  match taskFor s t.ctx va t.graph with
  | some i =>
    match s.task i with
    | some u =>
      if u.st = 6 then s
      else (setTcbSt s t.ctx va 1 0).setTask i { newTask s u.ctx u.home va x 1 u.cw u.cv u.graph true with audits := u.audits }
    | none => s
  | none =>
    if launchOk s t.ctx t.home va x (t.graph == 0) 0 0 0 then
      let (i, s) := s.fresh
      (setTcbSt s t.ctx va 1 0).setTask i (newTask s t.ctx t.home va x 1 0 0 t.graph true)
    else refuseTask s t.ctx va

/-- A successor's pred is decremented in one step; at 0 the successor is armed (21_work.md R359). -/
def decPred (s : State) (t : Task) (va : Nat) : State :=
  let n := (leNat ((devRead s t.ctx (va + 0x1E) 2).getD []) + 65535) % 65536
  let s := devWrite s t.ctx (va + 0x1E) (leBytes 2 n)
  if n = 0 then readyTask s t va else s

/-- Successor k of a task. -/
def succVa (s : State) (t : Task) (x : Tcb) (k : Nat) : Nat := devRead64 s t.ctx (x.succ + 8 * k) % 2 ^ 56

/-- A condition word of the graph of a task. -/
def condWord (s : State) (t : Task) (x : Tcb) : Nat :=
  match (if t.graph = 0 then none else mfind s.work.graphs (t.graph - 1)) with
  | some g => (mget g.cond 0 (x.arg % 16)).toNat
  | none => 0

/-- The successors that a task's retirement decrements, in list order (21_work.md R359, R361). -/
def successors (s : State) (t : Task) (x : Tcb) : List Nat :=
  if t.failed ∨ x.nsucc = 0 then []
  else if t.kind = 3 then [succVa s t x (min (condWord s t x) (x.nsucc - 1))]
  else if t.kind = 4 then (let k := if condWord s t x = 0 then 1 else 0; if k < x.nsucc then [succVa s t x k] else [])
  else (List.range x.nsucc).map (succVa s t x)

/-- Whether blocks of a task are resident, saved, or still audited, or a store or a posted packet of an ended block is not settled. -/
def taskBusy (s : State) (i : Nat) (t : Task) : Bool :=
  s.work.groups.any (fun p => p.2.task == i) || s.work.saved.any (fun p => p.2.task == i) || t.audits != 0 ||
  t.stores.any (fun n => (s.req n).isSome) || t.posts.any (fun n => (s.post n).isSome)

/-- Whether a task has nothing left to do. -/
def taskDone (s : State) (i : Nat) (t : Task) : Bool :=
  let x := taskTcb s t
  if t.kind = 3 ∨ t.kind = 4 then t.st == 1
  else (t.st == 1 || t.st == 2) && x.done == x.blocks && !taskBusy s i t

/-- Whether the device meets a corrupt extent table in the retirement of a task: at its TCB, its completion word, its list of successors or
a successor's TCB (09_extents.md R175). -/
def retireCorrupt (s : State) (t : Task) (x : Tcb) : Bool :=
  corruptAt s t.ctx t.tcb 128 || (t.cw != 0 && corruptAt s t.ctx t.cw 8) || (x.nsucc != 0 && corruptAt s t.ctx x.succ (8 * x.nsucc)) ||
  (successors s t x).any (fun va => corruptAt s t.ctx va 128)

/-- The st and cause of a retired task: a kernel that failed takes the status of R363, a command keeps the cause of its token
(21_work.md R358, R360, log entry 50). -/
def retiredState (s : State) (t : Task) : State :=
  if !t.failed then setTcbSt s t.ctx t.tcb 3 0
  else
    let cause := leNat ((devRead s t.ctx (t.tcb + 0x51) 1).getD [])
    setTcbSt s t.ctx t.tcb 4 (if t.kind = 0 ∨ cause = 0 then 1 else cause)

/-- What the device reads and writes when a task retires. -/
def retireAccs (s : State) (t : Task) (x : Tcb) : List DevAcc :=
  changeOf t.ctx t.tcb 128 ++ (if t.graph = 0 ∧ t.cw ≠ 0 then [⟨t.ctx, t.cw, 8, true⟩] else []) ++
  (if t.failed ∨ x.nsucc = 0 then [] else readOf t.ctx x.succ (8 * x.nsucc)) ++ (successors s t x).flatMap (fun va => changeOf t.ctx va 128)

/-- A task retires: its TCB, its completion word and its successors (21_work.md R359, R361). -/
def retireTask (task : Nat) (t : Task) (s : State) : State :=
  let x := taskTcb s t
  let next := successors s t x
  let st := if t.failed then 4 else 3
  let s := devWrite (devWrite s t.ctx (t.tcb + 0x1E) (leBytes 2 x.pred0)) t.ctx (t.tcb + 0x48) (copies 8 0)
  let s := retiredState s t
  let s := s.setTask task { t with st := st, groups := [], withdrawn := [], posts := [], stores := [] }
  let s := if t.graph = 0 then completionWord s t.ctx t.cw t.cv (if t.failed then 1 else 0) else s
  let s := next.foldl (fun s va => decPred s t va) s
  settleReady (if t.graph = 0 then dropTask s task else finishGraph s (t.graph - 1))

/-- TASK_RETIRE (21_work.md R359 to R361, R363). -/
def execTaskRetire (task : Nat) (s : State) : Result :=
  match s.task task with
  | none => .next s
  | some t =>
    if corruptAt s t.ctx t.tcb 128 then .next (deviceError s)
    else if !taskDone s task t then .next s
    else if retireCorrupt s t (taskTcb s t) then .next (deviceError s)
    else .next (devTurn s (retireAccs s t (taskTcb s t)) (retireTask task t))

end Sys2Proof.Machine
end

