-- ==== Sys2Proof/Machine/Blocks.lean ====
section
/-! DEFINITION. Blocks: the fit of a group (21_work.md R366), the in-use fields of regions (R356, R357), placement (R359, R360, R366,
22_prog_rolesplit.md R387), the end of a block (05_control.md R107, 21_work.md R359, R367, R380) and the dispatcher's decision. -/
namespace Sys2Proof.Machine

/-- A cluster's dispatcher or partition: the image assigns clusters to 1, 2 or 4 partitions (23_platform.md R399). -/
def partOf (s : State) (cluster : Nat) : Nat := ((s.plat.image.map (fun m => m.partitions.getD cluster 0)).getD 0)

/-! ### What a core has (21_work.md R366, 07_memory.md R143) -/

/-- Blocks on a core. -/
def blocksOn (s : State) (core : Nat) : List Block := (s.work.blocks.filter (fun p => p.2.core == core)).map Prod.snd

/-- Whether a block's slot, warp slots and registers are taken: until it ends, or while its group drains (21_work.md R369). -/
def slotsHeld (s : State) (b : Block) : Bool :=
  !b.ended || (match mfind s.work.groups b.grp with
    | some g => (match g.pre with | some p => p.way == 0 || p.way == 4 | none => false)
    | none => false)

/-- Scratchpad bytes of a block, its lane slices and barrier area included. -/
def Block.bytes (b : Block) : Nat := b.spadLen + 32 * b.lane * b.warps + 32 * b.bars

/-- The lowest free block slot of a core. -/
def freeBslot (s : State) (core : Nat) : Option Nat :=
  (List.range 8).find? (fun i => !(blocksOn s core).any (fun b => slotsHeld s b && b.bslot == i))

/-- Warp slots of an issue slot that are taken. -/
def slotsUsed (s : State) (core slot : Nat) : Nat :=
  ((List.range 16).filter (fun i => (s.warp core (16 * slot + i)).present)).length +
  ((blocksOn s core).filter (fun b => b.ended && slotsHeld s b)).foldl (fun a b => a + (b.warps + 1 - slot) / 2) 0

/-- What a block of a task takes. -/
structure Need where
  warps : Nat
  rblk : Nat
  bars : Nat
  bytes : Nat
  est : Nat
  matrix : Bool
  deriving DecidableEq, Repr

/-- Whether a core of a rectangle has room for a block (21_work.md R366): a matrix block takes a core whose matrix storage no block holds and
no queued matrix word still writes (19_matrix.md R334, R335). -/
def coreFits (s : State) (core : Nat) (n : Need) : Bool :=
  let bs := blocksOn s core
  (freeBslot s core).isSome &&
  decide (slotsUsed s core 0 + (n.warps + 1) / 2 ≤ 16) && decide (slotsUsed s core 1 + n.warps / 2 ≤ 16) &&
  decide ((bs.filter (slotsHeld s)).foldl (fun a b => a + b.rblk * b.warps) 0 + n.rblk ≤ Config.coreRblk) &&
  decide ((bs.filter (fun b => !(b.ended && b.isReplay))).foldl (fun a b => a + b.bytes) 0 + n.bytes ≤ Config.spadBytes) &&
  !(n.matrix && (bs.any (fun b => b.matrix && !b.ended) || s.work.mops.any (fun o => o.2.core == core || o.2.partner == some core)))

/-- The cores of a rectangle, row-major. -/
def rectCores (cluster x0 y0 w h : Nat) : List Nat :=
  ((List.range h).map (fun dy => (List.range w).map (fun dx => coreNo cluster (x0 + dx) (y0 + dy)))).flatten

/-! ### Regions in use (21_work.md R356, R357) -/

/-- The cores that hold a resident block of a region or of its descendants. -/
def regionCores (s : State) (r : Nat) : List Nat :=
  ((s.work.blocks.filter (fun p => !p.2.ended && regionUnder s p.2.region r)).map (fun p => p.2.core)).eraseDups

/-- Whether a region's chain admits more blocks with needs in sum on some cores. -/
def admits (s : State) (region rblk bars bytes est : Nat) (cores : List Nat) : Bool :=
  (regionChain s region).all (fun r =>
    bitsOf (rcbMask s r) 9 1 == 0 ||
    (decide (pread32 s (r + 0x54) + rblk ≤ pread32 s (r + 0x14)) &&
     decide ((regionCores s r ++ cores).eraseDups.length ≤ pread32 s (r + 0x10)) &&
     decide (pread32 s (r + 0x5C) + bars ≤ pread32 s (r + 0x1C)) &&
     decide (pread32 s (r + 0x58) + bytes ≤ pread32 s (r + 0x18)) &&
     decide (pread32 s (r + 0x64) + est ≤ pread32 s (r + 0x24))))

/-- A 32-bit field of an RCB moves. -/
def rcbAdd (s : State) (pa : Nat) (k : Int) : State := pwrite s pa (leBytes 4 (((pread32 s pa : Nat) : Int) + k).toNat)

/-- The in-use fields of every region on a chain move by some blocks' needs; the count of cores is taken anew. -/
def useRegion (s : State) (region : Nat) (rblk bars bytes est blocks : Int) : State :=
  (regionChain s region).foldl (fun s r =>
    let s := rcbAdd (rcbAdd (rcbAdd s (r + 0x54) rblk) (r + 0x5C) bars) (r + 0x58) bytes
    let s := rcbAdd (rcbAdd s (r + 0x64) est) (r + 0x60) blocks
    pwrite s (r + 0x50) (leBytes 4 (regionCores s r).length)) s

/-! ### Placement -/

/-- The energy estimate of a block: an est of 0 is 1/64 of the cluster's largest headroom (21_work.md R367, log entry 48). -/
def estOf (s : State) (cluster est : Nat) : Nat := if est = 0 then mget s.plat.largest 0 cluster / 64 else est

/-- E(c): the estimates of the blocks resident on a cluster (21_work.md R366). -/
def residentEst (s : State) (cluster : Nat) : Nat :=
  (s.work.blocks.filter (fun p => !p.2.ended && coreCluster p.2.core == cluster)).foldl (fun a p => a + p.2.est) 0

/-- The need of a block of a task on a cluster. -/
def needOf (s : State) (cluster : Nat) (t : Task) (x : Tcb) : Need :=
  { warps := x.warps, rblk := x.rblk * x.warps, bars := x.bars, bytes := x.bytes, est := estOf s cluster x.est,
    matrix := t.kind == 0 && kernelMatrix s t.ctx x.arg }

/-- The lowest free warp slot of an issue slot (22_prog_rolesplit.md R387). -/
def freeWslot (s : State) (core slot : Nat) : Nat :=
  16 * slot + ((List.range 16).find? (fun i => !(s.warp core (16 * slot + i)).present)).getD 0

/-- Parameter word j of a task; a word that cannot be read is a free value (21_work.md R358). -/
def paramWord (s : State) (t : Task) (x : Tcb) (j : Nat) : Word :=
  if j < 8 then x.pw.getD j 0
  else
    match devRead s t.ctx (x.param + 4 * (j - 8)) 4 with
    | some b => BitVec.ofNat 32 (leNat b)
    | none => Config.freeWord (s.free + j)

/-- The scalars of a warp at its start. -/
def startScalars (s : State) (t : Task) (x : Tcb) : SMap Word :=
  (List.range x.sregs).foldl (fun m j => mset 0 m j (paramWord s t x j)) []

/-- Warps w, w + 1, … of a block start: each takes the lowest free warp slot of issue slot w mod 2, with every lane live
(05_control.md R89, R99, R112, 22_prog_rolesplit.md R387, log entry 49). -/
def startWarps (s : State) (b core : Nat) (base : Warp) : Nat → Nat → State
  | 0, _ => s
  | k + 1, w => startWarps (s.setWarp core (freeWslot s core (w % 2)) { base with widx := w }) b core base k (w + 1)

/-- A new block's record. -/
def newBlock (s : State) (core grp task no : Nat) (t : Task) (x : Tcb) (n : Need) : Block :=
  { core := core, bslot := (freeBslot s core).getD 0, grp := grp, task := task, ctx := t.ctx, region := t.region, no := no,
    warps := x.warps, rblk := x.rblk, lane := x.lane, spadLen := x.spad, bars := x.bars, matrix := n.matrix,
    prio := effPrio s t.region, est := n.est, began := s.plat.time, progress := 0, idle := 0,
    prog := if x.flags / 4 % 2 = 1 then (if x.prog = 0 then effProg s t.region else x.prog) else 0,
    runlim := if x.flags / 4 % 2 = 1 then 0 else effRunlim s t.region, auditable := t.auditable,
    area := (List.range x.bars).map (fun i => (i, { exparr := x.warps })) }

/-- Whether a region's auditable tasks are audited, so that a new block of the task is put to the audit unit (21_work.md R356). -/
def audited (s : State) (t : Task) : Bool := t.auditable && effAud s t.region

/-- The audit unit's state advances for an auditable block; whether it selects it (11_traps.md R225). -/
def auditSelect (s : State) (part : Nat) : Bool × State :=
  let x := mget s.plat.audit 1 part
  let y := if x.getLsbD 0 then (x >>> 1) ^^^ 0x80200003 else x >>> 1
  (y.toNat % 2 ^ (mget s.plat.auditK 10 part) == 0, { s with plat := { s.plat with audit := mset 1 s.plat.audit part y } })

/-- The first warp state of a block of a kernel task. -/
def baseWarp (b : Nat) (x : Block) (entry : Nat) (sregs : SMap Word) : Warp :=
  { present := true, blk := b, ctx := x.ctx, alloc := x.rblk, sregs := sregs, live := 0xFFFFFFFF, rank := 2 * x.prio + 1,
    splits := [(0, { pc := entry, mask := 0xFFFFFFFF, state := 1 })] }

/-- A matrix block owns its core's tiles and weight buffer, all of them cleared (19_matrix.md R334). -/
def clearMatrix (s : State) (core : Nat) : State :=
  s.updCore core (fun k => { k with tiles := [], wbuf := [], images := [], wbad := [], area := [] })

/-- A block of a kernel task is placed on a core: its number and the state. -/
def placeBlock (s : State) (core grp task no : Nat) (t : Task) (x : Tcb) (n : Need) : Nat × State :=
  let (b, s) := s.fresh
  let k := newBlock s core grp task no t x n
  let (sel, s) := if audited s t then auditSelect s t.part else (false, s)
  let k := if sel then { k with role := .selected } else k
  let s := if sel then (match s.task task with | some u => s.setTask task { u with audits := u.audits + 1 } | none => s) else s
  let s := if t.acq then dropL1 s core t.ctx else s
  let s := if n.matrix then clearMatrix s core else s
  (b, s.setBlk b k)

/-- The warps of a group's blocks start, once every block has been placed and every barrier area written. -/
def startBlocks (s : State) (t : Task) (x : Tcb) (ids : List Nat) : State :=
  let sregs := startScalars s t x
  let s := if 8 < x.sregs then { s with free := s.free + 64 } else s
  ids.foldl (fun s b => startWarps s b (s.blk b).core (baseWarp b (s.blk b) x.arg sregs) x.warps 0) s

/-- The command of a copy or exchange task starts on its one-warp launch; none while its engine or its locks have no room; a corrupt extent
table is a device error (09_extents.md R175); a command area that breaks R360 fails the task, with a cause that the spec does not state
(21_work.md R360, log entry 50). -/
def startCommand (s : State) (core wslot b i : Nat) (t : Task) (x : Tcb) : Option State :=
  let a := (devRead s t.ctx x.arg 64).getD (copies 64 0)
  let code := fieldAt a 0 1
  let cmd := (List.range 15).map (fun k => BitVec.ofNat 32 (fieldAt a (4 + 4 * k) 4))
  let bad : State := (opTask s (i + 1) 2 (Config.freeNat s.free % 256))
  let bad : State := { bad with free := bad.free + 1 }
  let barOk (k : Nat) : Bool := cmd.getD k 0 == 0xFFFFFFFF
  if corruptAt s t.ctx x.arg 64 || (code == 0xD4 && xgCorrupt s t.ctx cmd) then some (deviceError s)
  else
  match code with
  | 0xD3 =>
    if 6 ≤ (s.work.ops.filter (fun p => p.2.core == core)).length then none
    else if tierOk cmd && barOk 3 then some (startTier s core wslot b t.ctx cmd 0 none (i + 1)) else some bad
  | 0xD4 => if xgOk cmd && barOk 5 then startExchange s core wslot b t.ctx cmd 0 none (i + 1) else some bad
  | _ =>
    match parseCopy code cmd with
    | some c =>
      if 6 ≤ (s.work.ops.filter (fun p => p.2.core == core)).length then none
      else if c.bar == 0xFFFFFFFF then startCopy s core wslot b t.ctx code cmd c 0 none (i + 1) else some bad
    | none => some bad

/-- The word of an internal launch issues when its command area can be read and its engine has room; until then it waits, as a word at issue
does (02_encoding.md R28, 21_work.md R360). -/
def issueCommand (s : State) (b : Nat) : State :=
  let k := s.blk b
  match (if k.cmd && !k.ended then s.task k.task else none) with
  | none => s
  | some t =>
    let x := taskTcb s t
    devTurn s (readOf t.ctx t.tcb 128 ++ readOf t.ctx x.arg 64) (fun s =>
      match startCommand (s.updBlk b (fun y => { y with cmd := false })) k.core ((blockWarps s b).headD 0) b k.task t x with
      | some s' => s'
      | none => s)

/-- Every launch whose word waits is tried again. -/
def issueCommands (s : State) : State := (mkeys (s.work.blocks.filter (fun p => p.2.cmd))).foldl issueCommand s

/-- A group is placed on a rectangle (21_work.md R359, R366); a copy or exchange task is placed like a block of one warp, and its word issues
when it can (21_work.md R360). -/
def placeGroup (s : State) (cluster x0 y0 i : Nat) (t : Task) (x : Tcb) (g : Nat) (n : Need) : State :=
  if decide (8 < x.sregs) && corruptAt s t.ctx x.param (4 * (x.sregs - 8)) then deviceError s
  else
  let (k, s) := s.fresh
  let cores := rectCores cluster x0 y0 x.w x.h
  let (s, ids) := (cores.zipIdx).foldl (fun (a : State × List Nat) p =>
    let (b, s) := placeBlock a.1 p.1 k i (g * x.size + p.2) t x n
    (s, a.2 ++ [b])) (s, [])
  let grp : Group := { cluster := cluster, x0 := x0, y0 := y0, w := x.w, h := x.h, task := i, idx := g, blocks := ids, pre := none }
  let s := s.setGroup k grp
  let s := useRegion s t.region (x.size * n.rblk) (x.size * n.bars) (x.size * n.bytes) (x.size * n.est) x.size
  let s := tcbCount (tcbState s t.ctx t.tcb 2) t 0x48 x.size
  let s := match s.task i with
    | some u => s.setTask i { u with st := 2, groups := u.groups ++ [g], due := false, first := none, waits := none }
    | none => s
  if t.kind = 0 then startBlocks s t x ids
  else
    ids.foldl (fun s b =>
      let core := (s.blk b).core
      let w : Warp := { present := true, blk := b, ctx := t.ctx, rank := 2 * (s.blk b).prio + 1 }
      issueCommand ((s.setWarp core (freeWslot s core 0) w).updBlk b (fun y => { y with cmd := true })) b) s

/-! ### Where a group fits (21_work.md R366) -/

/-- The needs in sum of a task's next group: register blocks, barrier objects, bytes and estimates. -/
def groupNeeds (s : State) (x : Tcb) (n : Need) (g : NextGroup) : Nat × Nat × Nat × Nat :=
  match g with
  | .fresh _ => (x.size * n.rblk, x.size * n.bars, x.size * n.bytes, x.size * n.est)
  | .saved k =>
    match mfind s.work.saved k with
    | some v =>
      let lb := v.blocks.filter (fun b => !b.ended)
      (lb.foldl (fun a b => a + b.rblk * b.warps) 0, lb.foldl (fun a b => a + b.bars) 0, v.blocks.foldl (fun a b => a + b.bytes) 0,
        lb.length * n.est)
    | none => (0, 0, 0, 0)

/-- The shape of a task's next group. -/
def groupShape (s : State) (x : Tcb) (g : NextGroup) : Nat × Nat :=
  match g with
  | .fresh _ => (x.w, x.h)
  | .saved k => match mfind s.work.saved k with | some v => (v.w, v.h) | none => (x.w, x.h)

/-- Whether a task's next group fits at a place of a cluster (21_work.md R366). -/
def fitsAt (s : State) (cluster region : Nat) (n : Need) (shape : Nat × Nat) (sums : Nat × Nat × Nat × Nat) (p : Nat × Nat) : Bool :=
  let cs := rectCores cluster p.1 p.2 shape.1 shape.2
  cs.all (fun c => coreFits s c n) && admits s region sums.1 sums.2.1 sums.2.2.1 sums.2.2.2 cs

/-- The places of a shape on a cluster, lowest y first, then lowest x. -/
def placesFor (shape : Nat × Nat) : List (Nat × Nat) :=
  ((List.range (Config.gridH + 1 - shape.2)).map (fun y => (List.range (Config.gridW + 1 - shape.1)).map (fun x => (x, y)))).flatten

/-- The places where a task's next group fits on a cluster, lowest y first, then lowest x (21_work.md R366). -/
def fitting (s : State) (cluster region : Nat) (n : Need) (shape : Nat × Nat) (sums : Nat × Nat × Nat × Nat) : List (Nat × Nat) :=
  (placesFor shape).filter (fitsAt s cluster region n shape sums)

/-! ### The end of a block -/

/-- A task's number that is no longer placed or withdrawn. -/
def unplace (t : Task) (g : Nat) : Task := { t with groups := t.groups.filter (· != g) }

/-- A running average of the dispatcher: old + ⌈(m − old)/8⌉ (21_work.md R367). -/
def average (old m : Nat) : Nat := ((old : Int) + -((-((m : Int) - old)) / 8)).toNat

/-- Time that a block has run, stopped time left out, in ns (11_traps.md R214). -/
def ranFor (s : State) (b : Block) : Nat := s.plat.time - b.began - b.idle

/-- The energy of a block per 10 µs window of its run: its activity counters, weighted by the configuration image, over the windows
(21_work.md R367). The counts themselves are an input of the model, and a weight counts in µJ (log entry 89). -/
def measuredEnergy (s : State) (b : Block) (counts : List Nat) : Nat :=
  let weights := (s.plat.image.map (fun m => m.weights)).getD []
  (weights.zip counts).foldl (fun a p => a + p.1 * p.2) 0 / max 1 ((ranFor s b + 9999) / 10000)

/-- The estimates that a block's end updates in its TCB. -/
def updateMeans (s : State) (t : Task) (b : Block) (energy : Nat) : State :=
  let s := devWrite s t.ctx (t.tcb + 0x3C) (leBytes 4 (average (devRead32 s t.ctx (t.tcb + 0x3C)) energy))
  devWrite s t.ctx (t.tcb + 0x58) (leBytes 4 (average (devRead32 s t.ctx (t.tcb + 0x58)) (ranFor s b / 1000)))

/-- Withdrawn blocks that a block which ends has not reported are counted done (21_work.md R380). -/
def countTaken (s : State) (b : Block) : State :=
  b.took.foldl (fun s x =>
    if x.2.2 then s else match s.task x.1 with | some t => tcbCount s t 0x4C 1 | none => s) s

/-- Whether a group is being flushed (21_work.md R369). -/
def Group.flushed (g : Group) : Bool := match g.pre with | some p => p.way == 3 | none => false

/-- A group all of whose blocks have ended is no longer kept, with its scratchpads; a flushed group returns to its task as unplaced, with
the blocks of it that had ended before (21_work.md R369, log entry 51). -/
def endGroup (s : State) (k : Nat) : State :=
  match mfind s.work.groups k with
  | none => s
  | some g =>
    if !g.blocks.all (fun b => (s.blk b).ended) then s
    else
      let bs := g.blocks.map s.blk
      let region := (bs.headD {}).region
      let replay := (bs.headD {}).isReplay
      let s := if replay then s else useRegion s region 0 0 (-(bs.foldl (fun (a : Int) b => a + b.bytes) 0)) 0 0
      let s := if g.flushed then
          match s.task g.task with
          | some t =>
            let s := tcbCount (tcbCount s t 0x48 (-(g.blocks.length : Int))) t 0x4C (-((bs.filter (fun b => !b.killed)).length : Int))
            s.setTask g.task (unplace t g.idx)
          | none => s
        else s
      { s with work := { s.work with groups := mdel s.work.groups k, blocks := g.blocks.foldl mdel s.work.blocks } }

/-- A block ends: its last warp has been freed. A replay's block leaves its region at once, with its bytes: it is alone in its group
(11_traps.md R226, 21_work.md R357). -/
def endBlock (s : State) (b energy : Nat) : State :=
  let x := s.blk b
  let x := { x with killed := x.killed || !x.survived }
  let s := { s with work := { s.work with fetches := s.work.fetches.filter (fun p => p.2.blk != b) } }
  let s := s.setBlk b { x with ended := true }
  if x.isReplay then
    let s := useRegion s x.region (-((x.rblk * x.warps : Nat) : Int)) (-(x.bars : Int)) (-(x.bytes : Int)) (-(x.est : Int)) (-1)
    (if (match x.role with | .replay i => (mfind s.work.audits i).isSome | _ => false) then s else endGroup s x.grp)
  else
    let flush := ((mfind s.work.groups x.grp).map Group.flushed).getD false && x.killed
    let s := useRegion s x.region (-((x.rblk * x.warps : Nat) : Int)) (-(x.bars : Int)) 0 (-(x.est : Int)) (-1)
    let s := if x.killed then returnTaken s x else countTaken s x
    let s := match s.task x.task with
      | none => s
      | some t =>
        let s := if flush then s else tcbCount (updateMeans s t x energy) t 0x4C 1
        let t := (s.task x.task).getD t
        let t := if x.killed && !flush then { t with failed := true } else t
        if x.role == .selected then
          if x.killed then s.setTask x.task { t with audits := t.audits - 1 }
          else
            let (i, s) := s.fresh
            let a : Audit := { task := x.task, blk := { x with spad := [], slices := [], area := [] }, sigA := x.sig, coreB := none,
                               rblk := 0, result := 0, cls := 0 }
            { s with work := { s.work with audits := mput s.work.audits i a } }
        else s.setTask x.task t
    endGroup s x.grp

/-- What a freed warp leaves behind: its stores in the write-through queue and its posted packets, which its task waits for
(05_control.md R107, 21_work.md R359). -/
def leaveBehind (s : State) (core wslot task : Nat) : State :=
  let reqs := mkeys (s.mem.reqs.filter (fun p => p.2.core == core && p.2.wslot == wslot))
  let posts := mkeys (s.fab.posts.filter (fun p => p.2.core == core && p.2.wslot == wslot))
  let reqMap := s.mem.reqs.map (fun (p : Nat × Req) =>
    if p.2.core == core && p.2.wslot == wslot then (p.1, { p.2 with wslot := goneSlot, live := false }) else p)
  let postMap := s.fab.posts.map (fun (p : Nat × Post) =>
    if p.2.core == core && p.2.wslot == wslot then (p.1, { p.2 with core := noCore }) else p)
  let s := { s with mem := { s.mem with reqs := reqMap }, fab := { s.fab with posts := postMap } }
  match s.task task with
  | some t => s.setTask task { t with stores := t.stores ++ reqs, posts := t.posts ++ posts }
  | none => s

/-- Whether an ended warp may be freed: its counters are 0, its scale reads are complete (06_vector.md R134), every replay of its remote words
has been issued, its arrivals have been counted, and the word of an internal launch has issued (05_control.md R107, 21_work.md R360, log
entry 44). -/
def mayFree (s : State) (core wslot : Nat) : Bool :=
  let w := s.warp core wslot
  w.present && w.live == 0 && !(s.blk w.blk).cmd &&
  !s.mem.reqs.any (fun p => p.2.core == core && p.2.wslot == wslot && p.2.kind.isScale) &&
  w.ld == 0 && w.st == 0 && w.cp == 0 && w.tl == 0 && w.rm == 0 && w.arrivals.isEmpty && w.dones.isEmpty &&
  !s.fab.words.any (fun p => p.2.core == core && p.2.wslot == wslot)

/-- A warp is freed; with its last warp a block ends. -/
def freeWarp (core wslot : Nat) (counts : List Nat) (s : State) : State :=
  let w := s.warp core wslot
  let b := w.blk
  let s := leaveBehind s core wslot (s.blk b).task
  let s := if w.killed then s else s.updBlk b (fun x => { x with survived := true })
  let s := s.setWarp core wslot {}
  settleReady (if (blockWarps s b).isEmpty then endBlock s b (measuredEnergy s (s.blk b) counts) else s)

/-- What the device reads and writes when the last warp of a block is freed: the TCB of its task (21_work.md R358, R359, R367). -/
def freeAccs (s : State) (b : Nat) : List DevAcc :=
  if 1 < (blockWarps s b).length ∨ (s.blk b).isReplay then []
  else match s.task (s.blk b).task with | some t => changeOf t.ctx t.tcb 128 | none => []

/-- WARP_FREE (05_control.md R107, 11_traps.md R219): the slot and the registers are freed; with its last warp a block ends. -/
def execWarpFree (core wslot : Nat) (counts : List Nat) (s : State) : Result :=
  if 32 ≤ wslot ∨ !mayFree s core wslot then .next s
  else .next (devTurn s (freeAccs s (s.warp core wslot).blk) (freeWarp core wslot counts))

end Sys2Proof.Machine
end

