-- ==== Sys2Proof/Machine/HostPort.lean ====
section
/-! DEFINITION. What arrives at the host ports: CXL.mem and BAR2 requests through the host window table (09_extents.md R181,
14_prog_frontier.md R280, 23_platform.md R392) and writes of the BAR0 registers (R391). -/
namespace Sys2Proof.Machine

/-! ### Host windows -/

/-- The window that covers a host byte of a space (14_prog_frontier.md R280: no two do). -/
def hostWindow (s : State) (bar : Bool) (h : Nat) : Option HostWin :=
  (mvals s.plat.wins).find? (fun w => w.space == bar && decide (w.base ≤ h) && decide (h < w.base + w.len))

/-- What a host byte resolves to (09_extents.md R181). -/
inductive HostByte
  | fail
  | corrupt
  | at (d : Desc) (va : Nat)
  deriving DecidableEq, Repr

/-- A host byte's extent and canonical address, checked to the byte against the extent's length and the window's permissions
(09_extents.md R181). -/
def hostByte (s : State) (bar wr : Bool) (h : Nat) : HostByte :=
  match hostWindow s bar h with
  | none => .fail
  | some w =>
    match handleDesc s w.ctx w.xid with
    | none => if handleCorrupt s w.ctx w.xid then .corrupt else .fail
    | some d =>
      let o := w.o0 + (h - w.base)
      if d.ent.len ≤ o ∨ !(if wr then w.w else w.r) then .fail
      else
        let va := canonical d.ent (d.ent.base + o)
        match canonDesc s w.ctx va with
        | .found c => .at c va
        | .corrupt => .corrupt
        | .none => .fail

/-- The entry port of a host port's requests (09_extents.md R180). -/
def hostPort (port : Nat) : Nat := Config.hostEntry port % 8

/-- The state in which a host byte waits, as any access does; a CXL.mem write also reaches memory, since it leaves no copy in the home slice
(07_memory.md R148, 09_extents.md R185). -/
def hostWait (s : State) (port : Nat) (bar wr : Bool) (d : Desc) (va : Nat) : Option State :=
  match byteWait s (hostPort port) d va wr with
  | some s' => some s'
  | none => if wr && !bar && !byteDead s d va wr then memWait s (hostPort port) d va wr else none

/-- A host access that failed is logged, with the context of the window that its first byte matched (23_platform.md R396 kind 2), and
answered; a failed write is discarded. -/
def hostFail (s : State) (port : Nat) (bar wr : Bool) (h : Nat) : State × HostReply :=
  let ctx := ((hostWindow s bar h).map HostWin.ctx).getD 0
  (hostError s 2 (0x20 + port) ctx (wr.toNat + 2 * bar.toNat) h 0, if bar then .unsupported else .poisoned)

/-- The bytes of a part are read at home; an uncorrectable error is escalated and answered as poisoned data (11_traps.md R221). -/
def hostRead (s : State) (l : List (Desc × Nat)) : State × HostReply :=
  let s := l.foldl (fun s p => useByte s p.1 p.2 false) s
  let bs := l.map (fun p => if byteDead s p.1 p.2 false then (0, true) else homeByte s p.1 p.2)
  match (l.zip bs).find? (fun p => p.2.2) with
  | some ((d, va), _) =>
    (escalate s d.ent.ctx d.ent.xid d.ent.cls (devicePlace s d (va - d.ent.base)) 1 (va / 32 * 32), .poisoned)
  | none => (s, .data (bs.map Prod.fst))

/-- The bytes of a part are written at home; a CXL.mem write leaves no copy in the home slice (07_memory.md R148). A write of less than a
poisoned sector is an error on its own bytes (11_traps.md R222), and so is one whose host line can no longer be had (23_platform.md R390);
each such sector escalates once (11_traps.md R221). -/
def hostWrite (s : State) (bar : Bool) (l : List ((Desc × Nat) × Byte)) : State × HostReply :=
  let s := l.foldl (fun s p => useByte s p.1.1 p.1.2 true) s
  let bad (s : State) (d : Desc) (va : Nat) : Bool :=
    let n := (l.filter (fun q => q.1.1.ent.ctx == d.ent.ctx && q.1.1.ent.xid == d.ent.xid && q.1.2 / 32 == va / 32)).length
    byteDead s d va true || narrowError s d va n
  let fails := l.filter (fun p => bad s p.1.1 p.1.2)
  let good := l.filter (fun p => !bad s p.1.1 p.1.2)
  let s := good.foldl (fun s p => homeWrite s p.1.1 p.1.2 [p.2]) (clearWholes s (good.map Prod.fst))
  let once := fails.foldl (fun a p => if a.any (fun q => q.1.1.ent == p.1.1.ent && q.1.2 / 32 == p.1.2 / 32) then a else a ++ [p]) []
  let s := once.foldl (fun s p => escalate s p.1.1.ent.ctx p.1.1.ent.xid p.1.1.ent.cls (devicePlace s p.1.1 (p.1.2 - p.1.1.ent.base)) 1
    (p.1.2 / 32 * 32)) s
  let lines := (l.map (fun p => lineKey p.1.1.ent.ctx p.1.2)).eraseDups
  (if bar then s else lines.foldl writebackLine s, .written)

/-- One part of a host request: what it answers, or the state in which it waits (09_extents.md R181, R185). -/
def hostPart (s : State) (port : Nat) (bar : Bool) (h n : Nat) (wr : Option (List Byte)) : Except State (State × HostReply) :=
  let w := wr.isSome
  let bytes := (List.range n).map (fun i => hostByte s bar w (h + i))
  if bytes.any (fun b => match b with | .corrupt => true | _ => false) then .ok (deviceError s, .poisoned)
  else
    let l := bytes.filterMap (fun b => match b with | .at d va => some (d, va) | _ => none)
    if l.length ≠ n then .ok (hostFail s port bar w h)
    else
      match l.findSome? (fun p => hostWait s port bar w p.1 p.2) with
      | some s' => .error s'
      | none =>
        match wr with
        | none => .ok (hostRead s l)
        | some bs => .ok (hostWrite s bar (l.zip bs))

/-- The parts of a request, split at 64-byte boundaries (23_platform.md R392): start, offset in the request, length. -/
def splitHost (off len : Nat) : List (Nat × Nat × Nat) :=
  if len = 0 then []
  else
    (List.range ((off % 64 + len + 63) / 64)).map (fun k =>
      let lo := if k = 0 then off else off / 64 * 64 + 64 * k
      let hi := min (off + len) (off / 64 * 64 + 64 * (k + 1))
      (lo, lo - off, hi - lo))

/-- The parts of a request are resolved one after another; one that waits holds the whole request (log entry 57). -/
def performHost (port : Nat) (bar : Bool) (wr : Option (List Byte)) :
    List (Nat × Nat × Nat) → State → List HostReply → Except State (State × List HostReply)
  | [], s, a => .ok (s, a)
  | p :: r, s, a =>
    match hostPart s port bar p.1 p.2.2 (wr.map (fun b => (b.drop p.2.1).take p.2.2)) with
    | .error s' => .error s'
    | .ok (s', x) => performHost port bar wr r s' (a ++ [x])

/-- Whether the host ports serve requests: they have trained and the port is up (23_platform.md R390, R398). A device error stops cores and
regions, not the host ports (11_traps.md R221). -/
def hostServed (s : State) (port : Nat) : Bool :=
  decide (port < 2) && decide (3 ≤ s.plat.boot) && s.plat.failed == 0 && hostUp s port

/-- A request at a host port: where a part waits, no part is performed. -/
def hostRequest (s : State) (port : Nat) (bar : Bool) (wr : Option (List Byte)) (parts : List (Nat × Nat × Nat)) : Result :=
  match parts.findSome? (fun p =>
      match hostPart s port bar p.1 p.2.2 (wr.map (fun b => (b.drop p.2.1).take p.2.2)) with
      | .error s' => some s'
      | .ok _ => none) with
  | some s' => .next s'
  | none =>
    match performHost port bar wr parts s [] with
    | .ok (s', l) => .next { s' with plat := { s'.plat with reply := l } }
    | .error s' => .next s'

/-- CXL_MEM_REQUEST (14_prog_frontier.md R280): one 64-byte line, at a port that runs CXL. -/
def execCxlMemRequest (port addr : Nat) (wr : Option (List Byte)) (s : State) : Result :=
  let cxl := (s.plat.image.map (fun m => m.cxlPorts.getD port false)).getD false
  let whole := match wr with | some b => b.length == 64 | none => true
  if !hostServed s port || !cxl || !whole || addr % 64 != 0 then .next s else hostRequest s port false wr [(addr, 0, 64)]

/-- BAR2_REQUEST (23_platform.md R392). -/
def execBar2Request (port off len : Nat) (wr : Option (List Byte)) (s : State) : Result :=
  let size := 2 ^ ((s.plat.image.map BootImage.bar2Log).getD 36)
  let whole := match wr with | some b => b.length == len | none => true
  if !hostServed s port || !whole || decide (size < off + len) then .next s else hostRequest s port true wr (splitHost off len)

/-! ### BAR0 (23_platform.md R391) -/

/-- The low bits of a BAR0 write. -/
def lowBits (v : DWord) (n : Nat) : Nat := v.toNat % 2 ^ n

/-- A write of a root register outside STATE 3 is discarded and logged (23_platform.md R391, R396 kind 6). -/
def rootWrite (s : State) (port off : Nat) (v : DWord) (p : Plat) : State :=
  if s.plat.boot = 3 then { s with plat := p } else hostError s 6 (0x20 + port) 0 off 0 v.toNat

/-- BAR0_WRITE (23_platform.md R391): read-only and reserved places discard the write. -/
def execBar0Write (port off : Nat) (value : DWord) (s : State) : Result :=
  if 2 ≤ port ∨ !hostUp s port then .next s
  else
    match off with
    | 0x00 => .next (rootWrite s port off value { s.plat with xroot := lowBits value 52 })
    | 0x08 => .next (rootWrite s port off value { s.plat with qroot := lowBits value 52 })
    | 0x10 => .next (rootWrite s port off value { s.plat with mqroot := lowBits value 52, mqn := bitsOf value.toNat 52 5 })
    | 0x18 => .next { s with plat := { s.plat with mqtail := lowBits value 32 } }
    | 0x20 => .next { s with plat := { s.plat with logroot := lowBits value 52 } }
    | _ => .next s

end Sys2Proof.Machine
end

