-- ==== Sys2Proof/Machine/Vector.lean ====
section
/-! DEFINITION. The vector words 0x20 to 0x6D (06_vector.md R119 to R132). -/
namespace Sys2Proof.Machine

/-! ### Integer and bit words (06_vector.md R124) -/

/-- The high word of the unsigned product. -/
def mulhiU (x y : Word) : Word := BitVec.ofNat 32 (x.toNat * y.toNat / 2 ^ 32)

/-- The number of 1 bits of a word. -/
def popc (x : Word) : Word := BitVec.ofNat 32 ((List.range 32).filter (laneIn x)).length

/-- The number of 0 bits above the highest 1 bit. -/
def clzW (x : Word) : Word := BitVec.ofNat 32 (32 - bitLen x.toNat)

/-- Bit j of the result is bit 31 − j of the word. -/
def brev (x : Word) : Word := maskOf (fun j => laneIn x (31 - j))

/-- The sum of the four signed byte products added to an accumulator. -/
def dot4 (x y z : Word) : Word :=
  (List.range 4).foldl (fun a j => a + BitVec.ofInt 32 (sextInt 8 (bitsOf x.toNat (8 * j) 8) * sextInt 8 (bitsOf y.toNat (8 * j) 8))) z

def execVaddI32 (d : VReg) (a b : Operand) (p : Bool) (s : State) : Result := vec2 s .raw false d a b p (fun x y _ => x + y)
def execVsubI32 (d : VReg) (a b : Operand) (p : Bool) (s : State) : Result := vec2 s .raw false d a b p (fun x y _ => x - y)
def execVmulI32 (d : VReg) (a b : Operand) (p : Bool) (s : State) : Result := vec2 s .raw false d a b p (fun x y _ => x * y)
def execVmulhiI32 (d : VReg) (a b : Operand) (p : Bool) (s : State) : Result := vec2 s .raw false d a b p (fun x y _ => mulhiS x y)
def execVmulhiN32 (d : VReg) (a b : Operand) (p : Bool) (s : State) : Result := vec2 s .raw false d a b p (fun x y _ => mulhiU x y)
def execVmadI32 (d : VReg) (a b : Operand) (p : Bool) (s : State) : Result := vec2 s .raw true d a b p (fun x y z => x * y + z)
def execVandB32 (d : VReg) (a b : Operand) (p : Bool) (s : State) : Result := vec2 s .raw false d a b p (fun x y _ => x &&& y)
def execVorB32 (d : VReg) (a b : Operand) (p : Bool) (s : State) : Result := vec2 s .raw false d a b p (fun x y _ => x ||| y)
def execVxorB32 (d : VReg) (a b : Operand) (p : Bool) (s : State) : Result := vec2 s .raw false d a b p (fun x y _ => x ^^^ y)
def execVshlB32 (d : VReg) (a b : Operand) (p : Bool) (s : State) : Result := vec2 s .raw false d a b p (fun x y _ => shlW x y)
def execVshrN32 (d : VReg) (a b : Operand) (p : Bool) (s : State) : Result := vec2 s .raw false d a b p (fun x y _ => shrW x y)
def execVshrI32 (d : VReg) (a b : Operand) (p : Bool) (s : State) : Result := vec2 s .raw false d a b p (fun x y _ => sraW x y)
def execVminI32 (d : VReg) (a b : Operand) (p : Bool) (s : State) : Result := vec2 s .raw false d a b p (fun x y _ => minS x y)
def execVminN32 (d : VReg) (a b : Operand) (p : Bool) (s : State) : Result := vec2 s .raw false d a b p (fun x y _ => minU x y)
def execVmaxI32 (d : VReg) (a b : Operand) (p : Bool) (s : State) : Result := vec2 s .raw false d a b p (fun x y _ => maxS x y)
def execVmaxN32 (d : VReg) (a b : Operand) (p : Bool) (s : State) : Result := vec2 s .raw false d a b p (fun x y _ => maxU x y)

/-! ### binary32 words (06_vector.md R125 to R128) -/

/-- A binary32 function of three words. -/
def w32 (f : Nat → Nat → Nat → Nat) (x y z : Word) : Word := BitVec.ofNat 32 (f x.toNat y.toNat z.toNat)

def execVaddF32 (d : VReg) (a b : Operand) (p : Bool) (s : State) : Result := vec2 s .f32 false d a b p (fun x y z => w32 (fun x y _ => fadd f32 .rne x y) x y z)
def execVfmaF32 (d : VReg) (a b : Operand) (p : Bool) (s : State) : Result := vec2 s .f32 true d a b p (fun x y z => w32 (fun x y z => ffma f32 .rne x y z) x y z)
def execVsubF32 (d : VReg) (a b : Operand) (p : Bool) (s : State) : Result := vec2 s .f32 false d a b p (fun x y z => w32 (fun x y _ => fsub f32 .rne x y) x y z)
def execVmulF32 (d : VReg) (a b : Operand) (p : Bool) (s : State) : Result := vec2 s .f32 false d a b p (fun x y z => w32 (fun x y _ => fmul f32 .rne x y) x y z)
def execVminF32 (d : VReg) (a b : Operand) (p : Bool) (s : State) : Result := vec2 s .f32 false d a b p (fun x y z => w32 (fun x y _ => fmin f32 x y) x y z)
def execVmaxF32 (d : VReg) (a b : Operand) (p : Bool) (s : State) : Result := vec2 s .f32 false d a b p (fun x y z => w32 (fun x y _ => fmax f32 x y) x y z)
def execVrcpF32 (d : VReg) (a : Operand) (p : Bool) (s : State) : Result := vec1 s .f32 d a p (fun x => BitVec.ofNat 32 (frcp x.toNat))
def execVrsqrtF32 (d : VReg) (a : Operand) (p : Bool) (s : State) : Result := vec1 s .f32 d a p (fun x => BitVec.ofNat 32 (frsqrt x.toNat))
def execVsqrtF32 (d : VReg) (a : Operand) (p : Bool) (s : State) : Result := vec1 s .f32 d a p (fun x => BitVec.ofNat 32 (fsqrt x.toNat))
def execVexp2F32 (d : VReg) (a : Operand) (p : Bool) (s : State) : Result := vec1 s .f32 d a p (fun x => BitVec.ofNat 32 (fexp2 x.toNat))
def execVlog2F32 (d : VReg) (a : Operand) (p : Bool) (s : State) : Result := vec1 s .f32 d a p (fun x => BitVec.ofNat 32 (flog2 x.toNat))
def execVabsF32 (d : VReg) (a : Operand) (p : Bool) (s : State) : Result := vec1 s .f32 d a p (fun x => x &&& 0x7FFFFFFF)
def execVnegF32 (d : VReg) (a : Operand) (p : Bool) (s : State) : Result := vec1 s .f32 d a p (fun x => x ^^^ 0x80000000)
def execVfmsF32 (d : VReg) (a b : Operand) (p : Bool) (s : State) : Result := vec2 s .f32 true d a b p (fun x y z => w32 (fun x y z => ffms f32 .rne x y z) x y z)
/-- `vrnd.f32` (06_vector.md R127). -/
def execVrndF32 (d : VReg) (a : Operand) (mode : Fin 4) (p : Bool) (s : State) : Result :=
  vec1 s .f32 d a p (fun x => BitVec.ofNat 32 (frnd (modeOf mode.val 0) x.toNat))
def execVclassF32 (d : VReg) (a : Operand) (p : Bool) (s : State) : Result := vec1 s .f32 d a p (fun x => BitVec.ofNat 32 (fclass x.toNat))

/-! ### Packed 16-bit words (06_vector.md R129) -/

/-- A function of 16-bit codes applied to both halves. -/
def halves (f : Nat → Nat → Nat → Nat) (x y z : Word) : Word :=
  BitVec.ofNat 32 (65536 * f (bitsOf x.toNat 16 16) (bitsOf y.toNat 16 16) (bitsOf z.toNat 16 16) +
    f (bitsOf x.toNat 0 16) (bitsOf y.toNat 0 16) (bitsOf z.toNat 0 16))

def execVaddF16 (d : VReg) (a b : Operand) (p : Bool) (s : State) : Result := vec2 s (.half f16) false d a b p (fun x y z => halves (fun x y _ => fadd f16 .rne x y) x y z)
def execVfmaF16 (d : VReg) (a b : Operand) (p : Bool) (s : State) : Result := vec2 s (.half f16) true d a b p (fun x y z => halves (fun x y z => ffma f16 .rne x y z) x y z)
def execVmulF16 (d : VReg) (a b : Operand) (p : Bool) (s : State) : Result := vec2 s (.half f16) false d a b p (fun x y z => halves (fun x y _ => fmul f16 .rne x y) x y z)
def execVaddBf16 (d : VReg) (a b : Operand) (p : Bool) (s : State) : Result := vec2 s (.half bf16) false d a b p (fun x y z => halves (fun x y _ => fadd bf16 .rne x y) x y z)
def execVfmaBf16 (d : VReg) (a b : Operand) (p : Bool) (s : State) : Result := vec2 s (.half bf16) true d a b p (fun x y z => halves (fun x y z => ffma bf16 .rne x y z) x y z)
def execVmulBf16 (d : VReg) (a b : Operand) (p : Bool) (s : State) : Result := vec2 s (.half bf16) false d a b p (fun x y z => halves (fun x y _ => fmul bf16 .rne x y) x y z)

/-! ### Copies and bit counts (06_vector.md R124) -/

def execVmovB32 (d : VReg) (a : Operand) (p : Bool) (s : State) : Result := vec1 s .raw d a p (fun x => x)
def execVpopcB32 (d : VReg) (a : Operand) (p : Bool) (s : State) : Result := vec1 s .raw d a p (fun x => popc x)
def execVclzB32 (d : VReg) (a : Operand) (p : Bool) (s : State) : Result := vec1 s .raw d a p (fun x => clzW x)
def execVbrevB32 (d : VReg) (a : Operand) (p : Bool) (s : State) : Result := vec1 s .raw d a p (fun x => brev x)
def execVdot4I8 (d : VReg) (a b : Operand) (p : Bool) (s : State) : Result := vec2 s .raw true d a b p (fun x y z => dot4 x y z)

/-! ### Directed rounding (06_vector.md R125) -/

def execVaddF32Rz (d : VReg) (a b : Operand) (p : Bool) (s : State) : Result := vec2 s .f32 false d a b p (fun x y z => w32 (fun x y _ => fadd f32 .rz x y) x y z)
def execVaddF32Ru (d : VReg) (a b : Operand) (p : Bool) (s : State) : Result := vec2 s .f32 false d a b p (fun x y z => w32 (fun x y _ => fadd f32 .ru x y) x y z)
def execVaddF32Rd (d : VReg) (a b : Operand) (p : Bool) (s : State) : Result := vec2 s .f32 false d a b p (fun x y z => w32 (fun x y _ => fadd f32 .rd x y) x y z)
def execVsubF32Rz (d : VReg) (a b : Operand) (p : Bool) (s : State) : Result := vec2 s .f32 false d a b p (fun x y z => w32 (fun x y _ => fsub f32 .rz x y) x y z)
def execVsubF32Ru (d : VReg) (a b : Operand) (p : Bool) (s : State) : Result := vec2 s .f32 false d a b p (fun x y z => w32 (fun x y _ => fsub f32 .ru x y) x y z)
def execVsubF32Rd (d : VReg) (a b : Operand) (p : Bool) (s : State) : Result := vec2 s .f32 false d a b p (fun x y z => w32 (fun x y _ => fsub f32 .rd x y) x y z)
def execVmulF32Rz (d : VReg) (a b : Operand) (p : Bool) (s : State) : Result := vec2 s .f32 false d a b p (fun x y z => w32 (fun x y _ => fmul f32 .rz x y) x y z)
def execVmulF32Ru (d : VReg) (a b : Operand) (p : Bool) (s : State) : Result := vec2 s .f32 false d a b p (fun x y z => w32 (fun x y _ => fmul f32 .ru x y) x y z)
def execVmulF32Rd (d : VReg) (a b : Operand) (p : Bool) (s : State) : Result := vec2 s .f32 false d a b p (fun x y z => w32 (fun x y _ => fmul f32 .rd x y) x y z)
def execVfmaF32Rz (d : VReg) (a b : Operand) (p : Bool) (s : State) : Result := vec2 s .f32 true d a b p (fun x y z => w32 (fun x y z => ffma f32 .rz x y z) x y z)
def execVfmaF32Ru (d : VReg) (a b : Operand) (p : Bool) (s : State) : Result := vec2 s .f32 true d a b p (fun x y z => w32 (fun x y z => ffma f32 .ru x y z) x y z)
def execVfmaF32Rd (d : VReg) (a b : Operand) (p : Bool) (s : State) : Result := vec2 s .f32 true d a b p (fun x y z => w32 (fun x y z => ffma f32 .rd x y z) x y z)

/-! ### Compare and select (06_vector.md R130, R131) -/

/-- A compare: md takes the condition in every visited lane and keeps its other bits (06_vector.md R130). -/
def vecCmp (s : State) (ty : OpTy) (m : MReg) (a b : Operand) (p : Bool) (f : Word → Word → Bool) : Result :=
  let lanes := s.active p
  let hit := maskOf (fun i => f (s.opVal ty a i) (s.opVal ty b i))
  vecChecked s (opVregs a ++ opVregs b) (opVregs a ++ opVregs b) lanes
    ((s.updHere (fun w => w.setM m.val ((w.m m.val &&& ~~~lanes) ||| (hit &&& lanes)))).advance (opWords a b))

def execVcmpI32 (c : Fin 8) (m : MReg) (a b : Operand) (p : Bool) (s : State) : Result := vecCmp s .raw m a b p (icmpHolds c)
def execVcmpN32 (c : Fin 8) (m : MReg) (a b : Operand) (p : Bool) (s : State) : Result := vecCmp s .raw m a b p (ncmpHolds c)
def execVcmpF32 (c : Fin 8) (m : MReg) (a b : Operand) (p : Bool) (s : State) : Result := vecCmp s .f32 m a b p (fcmpHolds c)

/-- `vsel.b32`: m0 selects, and both operands are sources of every lane of em (06_vector.md R131). -/
def execVselB32 (d : VReg) (a b : Operand) (s : State) : Result :=
  let m := s.hwarp.m 0
  vecChecked s (d.val :: opVregs a ++ opVregs b) (opVregs a ++ opVregs b) s.em
    (s.wrote d.val s.em (fun i => if laneIn m i then s.opVal .raw a i else s.opVal .raw b i) (opWords a b))

/-! ### Conversions (06_vector.md R132) -/

/-- A conversion that writes all of vd[i]. -/
def vecCvt (s : State) (ty : OpTy) (d : VReg) (a : Operand) (p : Bool) (f : Word → Nat) : Result :=
  vec1 s ty d a p (fun x => BitVec.ofNat 32 (f x))

/-- A word with the field of n bits at bit lo replaced. -/
def putField (old : Word) (lo n v : Nat) : Word :=
  BitVec.ofNat 32 (old.toNat - bitsOf old.toNat lo n * 2 ^ lo + v % 2 ^ n * 2 ^ lo)

/-- A narrowing conversion: it writes its n-bit field of vd[i], keeps the lane's other bits and its poison bit, and does not
consume vd; `.rs` hashes s63, the lane and pos (04_numbers.md R76, 06_vector.md R132). -/
def vecNarrow (s : State) (d : VReg) (a : Operand) (k : CvtCtl) (p : Bool) (n : Nat) (f : RMode → Nat → Nat) : Result :=
  let lanes := s.active p
  let mode (i : Nat) := modeOf k.mode.val (stochasticHash (s.hwarp.s 63) i k.pos.val)
  vecChecked s (d.val :: opVregs a) (opVregs a) lanes
    (s.wrote d.val lanes (fun i => putField (s.hwarp.v d.val i) (n * k.pos.val) n (f (mode i) (s.opVal .f32 a i).toNat))
      (opWords a (.int 16)) true)

def execVcvtF32I32 (d : VReg) (a : Operand) (k : CvtCtl) (p : Bool) (s : State) : Result := vecCvt s .raw d a p (fun x => intToF true (modeOf k.mode.val 0) x)
def execVcvtF32N32 (d : VReg) (a : Operand) (k : CvtCtl) (p : Bool) (s : State) : Result := vecCvt s .raw d a p (fun x => intToF false (modeOf k.mode.val 0) x)
def execVcvtI32F32 (d : VReg) (a : Operand) (k : CvtCtl) (p : Bool) (s : State) : Result := vecCvt s .f32 d a p (fun x => fToInt true k.sat (modeOf k.mode.val 0) x.toNat)
def execVcvtN32F32 (d : VReg) (a : Operand) (k : CvtCtl) (p : Bool) (s : State) : Result := vecCvt s .f32 d a p (fun x => fToInt false k.sat (modeOf k.mode.val 0) x.toNat)
def execVcvtF16F32 (d : VReg) (a : Operand) (k : CvtCtl) (p : Bool) (s : State) : Result :=
  vecNarrow s d a k p 16 (fun m x => roundTo f16 m k.sat (decodeF f32 x))
def execVcvtBf16F32 (d : VReg) (a : Operand) (k : CvtCtl) (p : Bool) (s : State) : Result :=
  vecNarrow s d a k p 16 (fun m x => roundTo bf16 m k.sat (decodeF f32 x))
def execVcvtE4m3F32 (d : VReg) (a : Operand) (k : CvtCtl) (p : Bool) (s : State) : Result :=
  vecNarrow s d a k p 8 (fun m x => roundTo e4m3 m k.sat (decodeF f32 x))
def execVcvtE5m2F32 (d : VReg) (a : Operand) (k : CvtCtl) (p : Bool) (s : State) : Result :=
  vecNarrow s d a k p 8 (fun m x => roundTo e5m2 m k.sat (decodeF f32 x))
def execVcvtLog6F32 (d : VReg) (a : Operand) (k : CvtCtl) (p : Bool) (s : State) : Result :=
  vecNarrow s d a k p 8 (fun m x => roundLog6 m k.sat (decodeF f32 x))

/-- The binary32 code of a value that binary32 holds exactly (04_numbers.md R81). -/
def widen (x : Num) : Nat := roundTo f32 .rne false x

def execVcvtF32F16 (d : VReg) (a : Operand) (k : CvtCtl) (p : Bool) (s : State) : Result := vecCvt s (.half f16) d a p (fun x => widen (decodeF f16 (bitsOf x.toNat (16 * k.pos.val) 16)))
def execVcvtF32Bf16 (d : VReg) (a : Operand) (k : CvtCtl) (p : Bool) (s : State) : Result := vecCvt s (.half bf16) d a p (fun x => widen (decodeF bf16 (bitsOf x.toNat (16 * k.pos.val) 16)))
def execVcvtF32E4m3 (d : VReg) (a : Operand) (k : CvtCtl) (p : Bool) (s : State) : Result := vecCvt s .raw d a p (fun x => widen (decodeF e4m3 (bitsOf x.toNat (8 * k.pos.val) 8)))
def execVcvtF32E5m2 (d : VReg) (a : Operand) (k : CvtCtl) (p : Bool) (s : State) : Result := vecCvt s .raw d a p (fun x => widen (decodeF e5m2 (bitsOf x.toNat (8 * k.pos.val) 8)))
def execVcvtF32Log6 (d : VReg) (a : Operand) (k : CvtCtl) (p : Bool) (s : State) : Result := vecCvt s .raw d a p (fun x => widen (decodeLog6 (bitsOf x.toNat (8 * k.pos.val) 8)))

end Sys2Proof.Machine
end

