-- ==== Sys2Proof/Machine/Lanes.lean ====
section
/-! DEFINITION. The words that read lanes other than their own, 0x70 to 0x7B (06_vector.md R135 to R139). -/
namespace Sys2Proof.Machine

/-- The checks of a cross-lane word: register-range for the registers it names, then poison-consumed where `bad` lists, for
each register, the visited lanes that would receive a poisoned value (06_vector.md R121, R135); otherwise its effect. -/
def laneChecked (s : State) (names : List Nat) (bad : List (Nat × Word)) (ok : State) : Result :=
  if !s.inRange names then .next s.rangeFault
  else
    match bad.find? (fun p => p.2 != 0) with
    | some (r, _) => .next (s.poisonFault r (bad.foldl (fun m p => m ||| p.2) 0))
    | none => .next ok

/-- The visited lanes whose lane i passes a test. -/
def visited (lanes : Word) (f : Nat → Bool) : Word := lanes &&& maskOf f

/-- A word in which visited lane i reads lane `src i` of register a. -/
def laneRead (s : State) (d a : VReg) (b : Operand) (p : Bool) (src : Nat → Nat) : Result :=
  let lanes := s.active p
  let w := s.hwarp
  laneChecked s (d.val :: a.val :: opVregs b)
    ((opVregs b).map (fun r => (r, w.poisoned r &&& lanes)) ++ [(a.val, visited lanes (fun i => laneIn (w.poisoned a.val) (src i)))])
    (s.wrote d.val lanes (fun i => w.v a.val (src i)) (opWords (.v a) b))

/-- `vshfl.b32` (06_vector.md R135). -/
def execVshflB32 (d a : VReg) (b : Operand) (p : Bool) (s : State) : Result :=
  laneRead s d a b p (fun i => (s.opVal .raw b i).toNat % 32)

/-- `vbcast.b32` (06_vector.md R135). -/
def execVbcastB32 (d a : VReg) (b : Operand) (p : Bool) (s : State) : Result :=
  laneRead s d a b p (fun _ => (s.opVal .raw b 0).toNat % 32)

/-- The running warp with a warp index of a block, if it is resident (06_vector.md R136). -/
def warpOf (s : State) (blk widx : Nat) : Option Warp :=
  ((blockWarps s blk).map (s.warp (s.blk blk).core)).find? (fun w => w.widx == widx && w.live != 0 && !w.killed)

/-- The warp that an edge lane reads for a neighbour selector, `dir` being −1 for `vnbl` and 1 for `vnbr`
(06_vector.md R136). -/
def edgeWarp (s : State) (sel : Fin 4) (dir : Int) : Option Warp :=
  let w := s.hwarp
  match sel.val with
  | 0 => none
  | 1 => some w
  | 2 =>
    let i := (w.widx : Int) + dir
    if s.inHandler || decide (i < 0) || decide ((s.hblk.warps : Int) ≤ i) then none else warpOf s w.blk i.toNat
  | _ =>
    if s.inHandler then none
    else
      match groupBlock s w.blk dir 0 with
      | some b => warpOf s b w.widx
      | none => none

/-- What an edge lane reads from lane `j` of a register: the value and whether it is poisoned; 0 where no warp is named or
the register lies beyond the named warp's allocation. -/
def edgeRead (o : Option Warp) (r j : Nat) : Word × Bool :=
  match o with
  | some w => if r < w.regs then (w.v r j, laneIn (w.poisoned r) j) else (0, false)
  | none => (0, false)

/-- A neighbour read: visited lane i takes lane i + dir, the edge lane what its selector names (06_vector.md R136). -/
def neighbour (s : State) (d a : VReg) (sel : Fin 4) (p : Bool) (dir : Int) : Result :=
  let lanes := s.active p
  let w := s.hwarp
  let edge := if dir < 0 then 0 else 31
  let e := edgeRead (edgeWarp s sel dir) a.val (31 - edge)
  let src (i : Nat) := ((i : Int) + dir).toNat
  laneChecked s [d.val, a.val]
    [(a.val, visited lanes (fun i => if i = edge then e.2 else laneIn (w.poisoned a.val) (src i)))]
    (s.wrote d.val lanes (fun i => if i = edge then e.1 else w.v a.val (src i)) 1)

def execVnblB32 (d a : VReg) (sel : Fin 4) (p : Bool) (s : State) : Result := neighbour s d a sel p (-1)
def execVnbrB32 (d a : VReg) (sel : Fin 4) (p : Bool) (s : State) : Result := neighbour s d a sel p 1

/-- The combinations of a register over visited lanes in ascending order, each with its lane, from `start` of the first lane's value: the last
is the reduction (06_vector.md R138). -/
def combine (w : Warp) (a : Nat) (start : Word → Word) (f : Word → Word → Word) : Option Word → List Nat → List (Nat × Word)
  | _, [] => []
  | none, j :: r => (j, start (w.v a j)) :: combine w a start f (some (start (w.v a j))) r
  | some x, j :: r => (j, f x (w.v a j)) :: combine w a start f (some (f x (w.v a j))) r

/-- A reduction (`scan` false) or an inclusive scan (06_vector.md R138, R139). -/
def reduce (s : State) (d a : VReg) (p scan : Bool) (start : Word → Word) (f : Word → Word → Word) : Result :=
  let lanes := s.active p
  let w := s.hwarp
  let acc := combine w a.val start f none (lanesOf lanes)
  let last := (acc.getLast?.map Prod.snd).getD 0
  laneChecked s [d.val, a.val] [(a.val, if w.poisoned a.val &&& lanes != 0 then lanes else 0)]
    (s.wrote d.val lanes (fun i => if scan then mget acc 0 i else last) 1)

/-- The first value of a binary32 combination: a NaN is the default NaN (04_numbers.md R78). -/
def startF (x : Word) : Word := if (decodeF f32 x.toNat).isNan then 0x7FC00000 else x

/-- The binary32 combinations of R138. -/
def addF (x y : Word) : Word := BitVec.ofNat 32 (fadd f32 .rne x.toNat y.toNat)
def maxF (x y : Word) : Word := BitVec.ofNat 32 (fmax f32 x.toNat y.toNat)
def minF (x y : Word) : Word := BitVec.ofNat 32 (fmin f32 x.toNat y.toNat)

def execVredAddI32 (d a : VReg) (p : Bool) (s : State) : Result := reduce s d a p false id (· + ·)
def execVredAddF32 (d a : VReg) (p : Bool) (s : State) : Result := reduce s d a p false startF addF
def execVredMaxF32 (d a : VReg) (p : Bool) (s : State) : Result := reduce s d a p false startF maxF
def execVredMinF32 (d a : VReg) (p : Bool) (s : State) : Result := reduce s d a p false startF minF
def execVscanAddI32 (d a : VReg) (p : Bool) (s : State) : Result := reduce s d a p true id (· + ·)
def execVscanAddF32 (d a : VReg) (p : Bool) (s : State) : Result := reduce s d a p true startF addF

/-- `vballot` (06_vector.md R135). -/
def execVballot (m : MReg) (a : Operand) (p : Bool) (s : State) : Result :=
  let lanes := s.active p
  vecChecked s (opVregs a) (opVregs a) lanes
    ((s.updHere (fun w => w.setM m.val (visited lanes (fun i => s.opVal .raw a i != 0)))).advance (opWords a (.int 16)))

/-- `vrdlane` (06_vector.md R135): the scalar takes the place of every lane of em. -/
def execVrdlane (d : SReg) (a : VReg) (b : Operand) (s : State) : Result :=
  let w := s.hwarp
  let j := (s.opVal .raw b 0).toNat % 32
  laneChecked s [a.val] [(a.val, if laneIn (w.poisoned a.val) j then s.em else 0)]
    ((s.updHere (fun x => x.setS d.val (w.v a.val j))).advance (opWords (.v a) b))

end Sys2Proof.Machine
end

