-- ==== Sys2Proof/Machine/Scale.lean ====
section
/-! DEFINITION. The scale address generator (04_numbers.md R87) and `vscvt` (06_vector.md R133, R134). -/
namespace Sys2Proof.Machine

/-- The address of the scale of an element of an extent (04_numbers.md R87). -/
def scaleAddr (e : EcbEntry) (n : Nat) : Nat := e.sbase + n / 2 ^ e.shift

/-- One byte of global memory as a load of a core at `.core` reads it: in the L1, or at home under its queued stores. -/
def coreByte (s : State) (core ctx va : Nat) : Byte × Bool :=
  match mfind (s.core core).l1 (byteKey ctx va) with
  | some b => (b, false)
  | none =>
    match canonDesc s ctx va with
    | .found d => viewByte s core ctx va (if byteDead s d va false then (0, true) else homeByte s d va)
    | _ => (0, true)

/-- The canonical address of a scale that passes its check. -/
def scaleCanon (s : State) (core ctx a : Nat) : Nat :=
  match protOf s core ctx a with
  | .found d => canonical d.ent a
  | _ => a

/-- The E8M0 code that a core reads for an element, 127 in an extent without scale data; none for an uncorrectable error
(06_vector.md R133). -/
def scaleCode (s : State) (core ctx : Nat) (e : EcbEntry) (n : Nat) : Option Nat :=
  if e.sv then
    let v := coreByte s core ctx (scaleCanon s core ctx (scaleAddr e n))
    if v.2 then none else some v.1.toNat
  else some 127

/-- The state in which a scale read of a core waits, as any access does: at its port or at home; a byte of the L1 waits for nothing, and a
corrupt table is escalated (09_extents.md R175, R179, R185, 12_atomics.md R233, R236). -/
def scaleWait (s : State) (core ctx a : Nat) : Option State :=
  let c := scaleCanon s core ctx a
  if (mfind (s.core core).l1 (byteKey ctx c)).isSome then none
  else
    match canonDesc s ctx c with
    | .found d => byteWait s (entryPort (coreCluster core) c) d c false
    | .corrupt => some (deviceError s)
    | .none => none

/-- What a scale read does besides its byte: another owner is recalled, the extent counts as accessed, its channel wakes (07_memory.md R150,
12_atomics.md R233, 23_platform.md R407). -/
def useScale (s : State) (core ctx a : Nat) : State :=
  let c := scaleCanon s core ctx a
  if (mfind (s.core core).l1 (byteKey ctx c)).isSome then s
  else
    match canonDesc s ctx c with
    | .found d => touchByte (recallFrom s core (lineKey ctx c)) d c false
    | _ => s

/-- The checks of `vscvt` in order: the extent X of s60:s61, the length of X for each lane, the scale reads, which are checked like any
other access of one byte (04_numbers.md R87, 06_vector.md R133, 07_memory.md R163). A fault on X itself names every visited lane (DESIGN
CHOICE, log entry 83). -/
def scvtVerdict (s : State) (lanes : Word) (n : Nat → Nat) (x : Check) : Verdict :=
  match x with
  | .corrupt => .corrupt
  | .limit sva xid => .fault { cls := clsLimit, lanes := lanes, sva := sva, space := 1, xid := xid }
  | .perm miss sva xid => .fault { cls := clsPerm, lanes := lanes, sva := sva, space := 1, xid := some xid, detail := miss }
  | .ok e =>
    match worstOf none ((lanesOf lanes).filterMap (fun i =>
        if e.len ≤ n i then some (i, { cls := clsLimit, sva := e.base + n i, space := 1, xid := some e.xid }) else none)) with
    | some f => .fault f
    | none =>
      if e.sv then
        globalVerdict s s.hcore s.hwarp.ctx s.hwarp ((lanesOf lanes).map (fun i => { lane := i, va := scaleAddr e (n i) })) 1 permR [] none
      else .ok

/-- The element format that s62 names (06_vector.md R133). -/
def scvtFmt (x : Word) : Nat := if x.toNat = 0 then 0 else if x.toNat = 1 then 1 else 4

/-- The element code of a lane (06_vector.md R133). -/
def scvtCode (s : State) (a : VReg) (k : CvtCtl) (i : Nat) : Nat :=
  bitsOf (s.hwarp.v a.val i).toNat (8 * k.pos.val) (if scvtFmt (s.hwarp.s 62) = 4 then 6 else 8)

/-- The request of the scale reads of the visited lanes (06_vector.md R134). -/
def scvtReq (s : State) (d a : VReg) (k : CvtCtl) (lanes : Word) (acc : List Acc) : Req :=
  { s.newReq (.scale k.mode.val k.sat (scvtFmt (s.hwarp.s 62))) .global 1 d.val 0 0 with
    em := lanes, parts := acc.map (fun x => globalPart s s.hcore s.hwarp.ctx x (scvtCode s a k x.lane)) }

/-- The effect of `vscvt` whose checks pass: in an extent without scale data each scale is 1; else the scale reads are loads of the warp with
no scope and no counter, and the lanes are written when they complete (06_vector.md R133, R134). -/
def scvtEffect (s : State) (d a : VReg) (k : CvtCtl) (lanes : Word) (e : EcbEntry) (n : Nat → Nat) : State :=
  let fmt := scvtFmt (s.hwarp.s 62)
  if e.sv && lanes != 0 then
    let acc : List Acc := (lanesOf lanes).map (fun i => { lane := i, va := scaleAddr e (n i) })
    ((fillEcbs s s.hcore s.hwarp.ctx acc).enter (scvtReq s d a k lanes acc)).advance 1
  else
    s.wrote d.val lanes (fun i =>
      BitVec.ofNat 32 (scaledElem (modeOf k.mode.val 0) k.sat (decodeElem fmt (scvtCode s a k i)) 127)) 1

/-- `vscvt` (06_vector.md R133, R134): an illegal s62 comes before a register-range, poison before the checks of X and of the scale reads
(DESIGN CHOICE, log entry 83). -/
def execVscvt (d a : VReg) (k : CvtCtl) (p : Bool) (s : State) : Result :=
  let lanes := s.active p
  let n (i : Nat) := (s.hwarp.v (a.val + 1) i).toNat
  if 3 ≤ (s.hwarp.s 62).toNat then .next s.illegal
  else
    let x := accCheck s s.hcore s.hwarp.ctx (s.hwarp.pair 60).toNat 1 permR
    vecChecked s [d.val, a.val, a.val + 1] [a.val, a.val + 1] lanes
      (match scvtVerdict s lanes n x with
       | .fault f => s.raise f
       | .corrupt => deviceError s
       | .ok =>
         match x with
         | .ok e => scvtEffect s d a k lanes e n
         | _ => s)

end Sys2Proof.Machine
end

