-- ==== Sys2Proof/Machine/Matrix.lean ====
section
/-! DEFINITION. The matrix unit: the words 0xC0 to 0xCC (19_matrix.md R334 to R353) with their checks at issue, and
MATRIX_COMPLETE, which performs them in the order of R335. -/
namespace Sys2Proof.Machine

/-! ### Formats, images -/

/-- Bytes of an element of a format: 0 E4M3, 1 E5M2, 2 bfloat16, 3 binary16, 4 LOG6 (19_matrix.md R337). -/
def elemBytes (fmt : Nat) : Nat := if fmt = 2 ∨ fmt = 3 then 2 else 1

/-- Largest K of a format (19_matrix.md R338). -/
def maxK (fmt : Nat) : Nat := if fmt ≤ 1 then 512 else if fmt ≤ 3 then 256 else 1024

/-- Products of a block or chunk (04_numbers.md R82 to R85). -/
def blockK (fmt : Nat) : Nat := if fmt = 2 ∨ fmt = 3 then 8 else 32

/-- Bytes of a column: form 0 dense, 1 sp24, 2 cb4 (19_matrix.md R339). -/
def columnBytes (form k es : Nat) : Nat :=
  if form = 0 then k * es else if form = 1 then k * es / 2 + (k + 7) / 8 else k / 32 * (16 * es + 16)

/-- Bytes of an image (19_matrix.md R338). -/
def imageBytes (form fmt k n : Nat) (scaled : Bool) : Nat :=
  (64 + n * columnBytes form k (elemBytes fmt) + (if scaled then n * ((k + 31) / 32) else 0) + 63) / 64 * 64

/-- Where a column and its scales lie in the weight buffer; the layout cannot be observed (19_matrix.md R338, log entry 42). -/
def Image.column (i : Image) (n : Nat) : Nat := i.off + 64 + n * columnBytes i.form i.k (elemBytes i.fmt)
def Image.scales (i : Image) : Nat := i.off + 64 + i.n * columnBytes i.form i.k (elemBytes i.fmt)

/-- The code of n bytes of the weight buffer. -/
def bufCode (c : Core) (a n : Nat) : Nat := leNat (mrange c.wbuf 0 a n)

/-- Nibble j of a byte run, none where its byte's source sector failed (19_matrix.md R339, R341). -/
def bufNibble (c : Core) (a j : Nat) : Option Nat :=
  if c.wbad.contains (a + j / 2) then none else some (bitsOf (bufCode c (a + j / 2) 1) (4 * (j % 2)) 4)

/-- The code of element (k, n) of an image (19_matrix.md R339); one whose index failed reads z0 (R341). -/
def imageCode (c : Core) (i : Image) (k n : Nat) : Nat :=
  let es := elemBytes i.fmt
  let a := i.column n
  if i.form = 0 then bufCode c (a + k * es) es
  else if i.form = 1 then
    let g := k / 4
    match bufNibble c (a + i.k * es / 2) g with
    | none => 0
    | some x =>
      if k % 4 = x / 4 then bufCode c (a + (2 * g + 1) * es) es
      else if k % 4 = x % 4 then bufCode c (a + 2 * g * es) es
      else 0
  else
    let b := a + k / 32 * (16 * es + 16)
    match bufNibble c (b + 16 * es) (k % 32) with
    | none => 0
    | some x => bufCode c (b + x * es) es

/-- Whether byte b of a column holds indices (19_matrix.md R339). -/
def Image.isIndex (i : Image) (b : Nat) : Bool :=
  let es := elemBytes i.fmt
  if i.form = 0 then false else if i.form = 1 then decide (i.k * es / 2 ≤ b) else decide (16 * es ≤ b % (16 * es + 16))

/-- The scale of block j of column n (19_matrix.md R340). -/
def imageScale (c : Core) (i : Image) (j n : Nat) : Nat :=
  if i.scaled then bufCode c (i.scales + n * ((i.k + 31) / 32) + j) 1 else 127

/-! ### Issue (19_matrix.md R336) -/

/-- Whether a matrix word of a warp is held: tl is full, or its core or the partner queues 16 words. -/
def matHeld (s : State) (core : Nat) (partner : Option Nat) (w : Warp) : Bool :=
  let queued (c : Nat) : Nat := (s.work.mops.filter (fun p => p.2.core == c || p.2.partner == some c)).length
  decide (6 ≤ w.tl) || decide (16 ≤ queued core) || (match partner with | some c => decide (16 ≤ queued c) | none => false)

/-- The record of the matrix word that issues. -/
def State.newMop (s : State) (code t ts : Nat) (args : List Word) : MOp :=
  { core := s.hcore, wslot := s.run.wslot, live := true, blk := s.hwarp.blk, code := code, t := t, ts := ts, args := args, em := s.em,
    partner := none, cidx := s.cidx, img := none, pimg := none }

/-- A matrix word issues: it takes its place in the order of its core, tl rises, and the split moves on. -/
def State.enterMop (s : State) (o : MOp) : State :=
  let (id, s) := s.fresh
  let s := { s with work := { s.work with mops := mput s.work.mops id o } }
  (s.updHere (fun w => { w with tl := w.tl + 1 })).advance 1

/-- A precise fault of a matrix word: its lanes are em (19_matrix.md R337). -/
def State.matFault (s : State) (f : FaultInfo) : State := s.raise { f with lanes := s.em }

/-- A check of one byte of global memory. -/
inductive ByteCheck
  | ok
  | limit (sva : Nat) (xid : Option Nat)
  | perm (sva xid : Nat)
  | corrupt
  deriving DecidableEq, Repr

def byteCheck (s : State) (va : Nat) : ByteCheck :=
  match accCheck s s.hcore s.hwarp.ctx va 1 permR with
  | .ok _ => .ok
  | .limit sva xid => .limit sva xid
  | .perm _ sva xid => .perm sva xid
  | .corrupt => .corrupt

/-- The verdict on a list of bytes: limit before permission, the first byte of each. -/
def bytesVerdict (s : State) (vas : List Nat) : Verdict :=
  let cs := vas.map (byteCheck s)
  if cs.any (· == .corrupt) then .corrupt
  else
    match cs.find? (fun c => match c with | .limit _ _ => true | _ => false) with
    | some (.limit sva xid) => .fault { cls := clsLimit, sva := sva, space := 1, xid := xid }
    | _ =>
      match cs.find? (fun c => match c with | .perm _ _ => true | _ => false) with
      | some (.perm sva xid) => .fault { cls := clsPerm, sva := sva, space := 1, xid := some xid, detail := permR }
      | _ => .ok

/-- The first offset of rows of bytes that lies at or beyond the block's scratchpad. -/
def rowsLimit (s : State) (off dist rows n : Nat) : Option FaultInfo :=
  let bound := s.hblk.spadLen
  ((List.range rows).filterMap (fun r =>
    let a := off + r * dist
    if bound < a + n then some { cls := clsLimit, sva := max a bound, space := 3 } else none)).head?

/-- The misaligned fault of an offset and a row distance. -/
def rowsAlign (off dist es : Nat) : Option FaultInfo :=
  if off % es ≠ 0 ∨ dist % es ≠ 0 then some { cls := clsMisaligned, sva := off, space := 3, detail := es } else none

/-- The extent that holds a scale origin, and the addresses of the scales of some element offsets from it: none where the extent
carries no scale data (19_matrix.md R340, R342). -/
def scaleVas (s : State) (ctx org : Nat) (offs : List Nat) : List Nat :=
  match protOf s s.hcore ctx org with
  | .found d => if d.ent.sv then offs.map (fun o => scaleAddr d.ent (org - d.ent.base + o)) else []
  | _ => []

/-! ### `wbld` (19_matrix.md R338 to R341) -/

/-- The image that a `wbld` makes, from its form, offset and descriptor. -/
def wbldImage (form : Nat) (wo d : Word) : Image :=
  let fmt := bitsOf d.toNat 17 3
  let k := bitsOf d.toNat 6 11 + 1
  let n := bitsOf d.toNat 0 6 + 1
  let scaled := d.getLsbD 20
  { off := wo.toNat, size := imageBytes form fmt k n scaled, fmt := fmt, form := form, k := k, n := n, scaled := scaled,
    from' := none }

/-- Whether the operands of a `wbld` are legal (19_matrix.md R338). -/
def wbldOk (src : Option Eng) (i : Image) (d : Word) : Bool :=
  (match src with | some (.glob _) => true | some (.own _) => true | _ => false) &&
  i.off % 64 == 0 && bitsOf d.toNat 21 11 == 0 && decide (i.fmt ≤ 4) && (!i.scaled || i.fmt ≤ 1 || i.fmt == 4) &&
  decide (i.k ≤ maxK i.fmt) && (i.form != 1 || i.k % 4 == 0) && (i.form != 2 || i.k % 32 == 0) &&
  decide (i.off + i.size ≤ Config.wbufBytes)

/-- The source bytes of an image, column after column. -/
def wbldBytes (a cst : Nat) (i : Image) : List Nat :=
  let c := columnBytes i.form i.k (elemBytes i.fmt)
  ((List.range i.n).map (fun n => (List.range c).map (fun b => a + n * cst + b))).flatten

/-- The element offsets of an image's scales. -/
def wbldScales (i : Image) : List Nat :=
  ((List.range i.n).map (fun n => (List.range ((i.k + 31) / 32)).map (fun j => n * i.k + 32 * j))).flatten

/-- The checks 2 and 3 of a `wbld` (19_matrix.md R341). -/
def wbldVerdict (s : State) (src : Eng) (i : Image) (cst org : Nat) : Verdict :=
  let es := elemBytes i.fmt
  let a := match src with | .glob va => va | .own o => o | _ => 0
  let space := match src with | .glob _ => 1 | _ => 3
  if a % es ≠ 0 ∨ cst % es ≠ 0 then .fault { cls := clsMisaligned, sva := a, space := space, detail := es }
  else
    let scales := if i.scaled then org :: scaleVas s s.hwarp.ctx org (wbldScales i) else []
    match src with
    | .glob _ => bytesVerdict s ((wbldBytes a cst i).map (· % 2 ^ 64) ++ scales)
    | _ =>
      match (wbldBytes a cst i).find? (fun o => decide (s.hblk.spadLen ≤ o)) with
      | some o => .fault { cls := clsLimit, sva := o, space := 3 }
      | none => bytesVerdict s scales

/-- Images that a new one overlaps leave the table (19_matrix.md R341); of its 64 entries (21_work.md R373) the oldest is given up when all
are in use (log entry 42). -/
def enterImage (c : Core) (i : Image) : Core :=
  let l := c.images.filter (fun x => decide (x.off + x.size ≤ i.off) || decide (i.off + i.size ≤ x.off)) ++ [i]
  { c with images := l.drop (l.length - 64) }

/-- The 64 bytes with which an image begins: its shape, and the words that loaded it from global memory (log entry 42). -/
def imageHeader (i : Image) : List Byte :=
  let src := match i.from' with
    | some ws => leBytes 1 1 ++ ((List.range 5).map (fun k => leBytes 4 (ws.getD k 0).toNat)).flatten
    | none => copies 21 0
  leBytes 1 i.fmt ++ leBytes 1 i.form ++ leBytes 2 i.k ++ leBytes 1 i.n ++ leBytes 1 i.scaled.toNat ++ src ++ copies 37 0

/-- The image at an offset of a weight buffer, read from its first bytes. -/
def imageAt (b : SMap Byte) (off size : Nat) : Image :=
  let h := mrange b 0 off 27
  let f (o n : Nat) : Nat := leNat ((h.drop o).take n)
  { off := off, size := size, fmt := f 0 1, form := f 1 1, k := f 2 2, n := f 4 1, scaled := f 5 1 == 1
    from' := if f 6 1 = 1 then some ((List.range 5).map (fun k => BitVec.ofNat 32 (f (7 + 4 * k) 4))) else none }

/-- A `wbld` word. -/
def wbldWord (s : State) (form : Nat) (sa sw sk : SReg) : Result :=
  let w := s.hwarp
  if matHeld s s.hcore none w then .next s
  else
    let a := w.pair sa.val
    let d := w.s sk.val
    let i := wbldImage form (w.s sw.val) d
    let org := w.pair (sk.val + 2)
    match (if wbldOk (parseEng a.toNat) i d then parseEng a.toNat else none) with
    | none => .next s.illegal
    | some src =>
      match wbldVerdict s src i (w.s (sk.val + 1)).toNat org.toNat with
      | .fault f => .next (s.matFault f)
      | .corrupt => .next (deviceError s)
      | .ok =>
        let args := [w.s sa.val, w.s (sa.val + 1), w.s (sk.val + 1), w.s (sk.val + 2), w.s (sk.val + 3)]
        let i := { i with from' := match src with | .glob _ => some args | _ => none }
        let o := { s.newMop (0xC5 + form) 0 0 args with img := some i }
        .next ((s.updCore s.hcore (fun c => enterImage c i)).enterMop o)

def execWbldDense (sa sw sk : SReg) (s : State) : Result := wbldWord s 0 sa sw sk
def execWbldSp24 (sa sw sk : SReg) (s : State) : Result := wbldWord s 1 sa sw sk
def execWbldCb4 (sa sw sk : SReg) (s : State) : Result := wbldWord s 2 sa sw sk

/-! ### `mma` (19_matrix.md R342 to R346) -/

/-- The operands of an `mma`. -/
structure Mma where
  fmt : Nat
  aoff : Nat
  ast : Nat
  org : Nat
  wo : Nat
  z : Bool
  scaled : Bool
  k : Nat
  n : Nat
  m : Nat
  deriving DecidableEq, Repr

/-- The operands that the scalars of an `mma` hold. -/
def parseMma (fmt : Nat) (args : List Word) : Mma :=
  let x (i : Nat) : Nat := (args.getD i 0).toNat
  { fmt := fmt, aoff := x 0, ast := x 1, org := x 2 + 2 ^ 32 * x 3, wo := x 4, z := bitsOf (x 5) 25 1 == 1,
    scaled := bitsOf (x 5) 24 1 == 1, k := bitsOf (x 5) 13 11 + 1, n := bitsOf (x 5) 6 7 + 1, m := bitsOf (x 5) 0 6 + 1 }

/-- Columns that each core computes. -/
def Mma.nc (o : Mma) (pr : Bool) : Nat := if pr then o.n / 2 else o.n

/-- The image of a core's table that an `mma` may use: at its offset, of its format, with its columns and its depth. -/
def mmaImage (c : Core) (o : Mma) (nc : Nat) : Option Image :=
  c.images.find? (fun i => i.off == o.wo && i.fmt == o.fmt && decide (nc ≤ i.n) && decide (o.k ≤ i.k))

/-- Whether the operands of an `mma` are legal (19_matrix.md R342). -/
def mmaOk (o : Mma) (pr : Bool) (sk : Word) : Bool :=
  decide (o.aoff < 2 ^ 18) && decide (o.ast < 2 ^ 18) && bitsOf sk.toNat 26 6 == 0 && (!o.scaled || o.fmt ≤ 1 || o.fmt == 4) &&
  decide (o.k ≤ maxK o.fmt) && (if pr then o.n % 2 == 0 else decide (o.n ≤ 64))

/-- The partner's block of a pair, and why there is none (19_matrix.md R345, R346). -/
def pairOf (s : State) : Except Nat Nat :=
  if coreX s.hcore % 2 = 1 then .error 2
  else
    match groupBlock s s.hwarp.blk 1 0 with
    | some b => .ok b
    | none => .error 3

/-- Whether a queued matrix word names a tile of a core. -/
def MOp.names (o : MOp) (core t : Nat) : Bool :=
  (o.core == core || o.partner == some core) && (decide (o.code ≤ 0xC4) || decide (0xC8 ≤ o.code)) && (o.t == t || (o.code == 0xCB && o.ts == t))

/-- The pair-busy fault of a pair operation, or its partner and the partner's image (19_matrix.md R346). A partner whose block has ended has
no image that is valid for the group: it owns its core's buffer no more (R334, log entry 86). -/
def pairCheck (s : State) (o : Mma) (t : Nat) : Except FaultInfo (Nat × Image) :=
  let busy (reason slot : Nat) : FaultInfo := { cls := clsPair, detail := t, aux := 2 ^ 8 * slot + reason }
  match pairOf s with
  | .error r => .error (busy r 0)
  | .ok b =>
    let c := (s.blk b).core
    match s.work.mops.find? (fun p => p.2.names c t && (s.blk p.2.blk).grp == (s.blk b).grp) with
    | some (_, q) => .error (busy 1 q.wslot)
    | none =>
      match (if (s.blk b).ended then none else mmaImage (s.core c) o (o.nc true)) with
      | some i => .ok (c, i)
      | none => .error (busy 4 0)

/-- Element offsets of the scales of A. -/
def mmaScales (o : Mma) : List Nat :=
  ((List.range o.m).map (fun m => (List.range ((o.k + 31) / 32)).map (fun j => m * o.ast + 32 * j))).flatten

/-- The checks 3 to 5 of an `mma` (19_matrix.md R344). -/
def mmaVerdict (s : State) (o : Mma) : Verdict :=
  let es := elemBytes o.fmt
  match rowsAlign o.aoff o.ast es with
  | some f => .fault f
  | none =>
    match rowsLimit s o.aoff o.ast o.m (o.k * es) with
    | some f => .fault f
    | none =>
      if o.scaled then
        match bytesVerdict s [o.org] with
        | .ok => bytesVerdict s (scaleVas s s.hwarp.ctx o.org (mmaScales o))
        | v => v
      else .ok

/-- The partner core that a pair operation would have, for the hold of its queue. -/
def pairCore (s : State) (pr : Bool) : Option Nat :=
  if pr then (match pairOf s with | .ok b => if (s.blk b).ended then none else some (s.blk b).core | .error _ => none) else none

/-- An `mma` word. -/
def mmaWord (s : State) (fmt : Nat) (t : Fin 4) (sa sw sk : SReg) (pr : Bool) : Result :=
  let w := s.hwarp
  if matHeld s s.hcore (pairCore s pr) w then .next s
  else
    let args := [w.s sa.val, w.s (sa.val + 1), w.s (sa.val + 2), w.s (sa.val + 3), w.s sw.val, w.s sk.val]
    let o := parseMma fmt args
    match (if mmaOk o pr (w.s sk.val) then mmaImage (s.core s.hcore) o (o.nc pr) else none) with
    | none => .next s.illegal
    | some i =>
      match (if pr then (pairCheck s o t.val).map some else .ok none) with
      | .error f => .next (s.matFault f)
      | .ok p =>
        match mmaVerdict s o with
        | .fault f => .next (s.matFault f)
        | .corrupt => .next (deviceError s)
        | .ok =>
          .next (s.enterMop { s.newMop (0xC0 + fmt) t.val 0 args with
                              img := some i, partner := p.map Prod.fst, pimg := p.map Prod.snd })

def execMmaE4m3 (t : Fin 4) (sa sw sk : SReg) (pr : Bool) (s : State) : Result := mmaWord s 0 t sa sw sk pr
def execMmaE5m2 (t : Fin 4) (sa sw sk : SReg) (pr : Bool) (s : State) : Result := mmaWord s 1 t sa sw sk pr
def execMmaBf16 (t : Fin 4) (sa sw sk : SReg) (pr : Bool) (s : State) : Result := mmaWord s 2 t sa sw sk pr
def execMmaF16 (t : Fin 4) (sa sw sk : SReg) (pr : Bool) (s : State) : Result := mmaWord s 3 t sa sw sk pr
def execMmaLog6 (t : Fin 4) (sa sw sk : SReg) (pr : Bool) (s : State) : Result := mmaWord s 4 t sa sw sk pr

/-! ### Tile words (19_matrix.md R347 to R349) -/

def execTzero (t : Fin 4) (s : State) : Result :=
  if matHeld s s.hcore none s.hwarp then .next s else .next (s.enterMop (s.newMop 0xC8 t.val 0 []))

def execTadd (td ts : Fin 4) (s : State) : Result :=
  if matHeld s s.hcore none s.hwarp then .next s else .next (s.enterMop (s.newMop 0xCB td.val ts.val []))

def execTmov (t : Fin 4) (sa : SReg) (s : State) : Result :=
  let c := s.hwarp.s sa.val
  let vd := bitsOf c.toNat 0 7
  if matHeld s s.hcore none s.hwarp then .next s
  else if vd % 2 = 1 ∨ bitsOf c.toNat 13 19 ≠ 0 then .next s.illegal
  else if !s.inRange [vd, vd + 1] then .next s.rangeFault
  else .next (s.enterMop (s.newMop 0xC9 t.val 0 [c]))

/-- Bytes of an element that `tst` writes. -/
def tstBytes (fmt : Nat) : Nat := if fmt = 0 then 4 else if fmt ≤ 2 then 2 else 1

/-- A `tst` or a `tld` word. -/
def tileRows (s : State) (code : Nat) (t : Fin 4) (sa sk : SReg) : Result :=
  let w := s.hwarp
  let off := w.s sa.val
  let c := (w.s sk.val).toNat
  let rst := w.s (sk.val + 1)
  let fmt := bitsOf c 0 3
  let mode := bitsOf c 3 3
  let rows := bitsOf c 13 6 + 1
  let legal := decide (off.toNat < 2 ^ 18) && decide (rst.toNat < 2 ^ 18) && bitsOf c 19 13 == 0 && decide (bitsOf c 7 6 + rows ≤ 64) &&
    (if code = 0xCC then bitsOf c 0 7 == 0 else decide (mode ≤ 4) && decide (fmt ≤ 5) && (fmt != 0 || bitsOf c 3 4 == 0))
  if matHeld s s.hcore none w then .next s
  else if !legal then .next s.illegal
  else
    match (rowsAlign off.toNat rst.toNat (tstBytes fmt)).orElse (fun _ => rowsLimit s off.toNat rst.toNat rows (64 * tstBytes fmt)) with
    | some f => .next (s.matFault f)
    | none => .next (s.enterMop (s.newMop code t.val 0 [off, w.s sk.val, rst, w.s 63]))

def execTst (t : Fin 4) (sa sk : SReg) (s : State) : Result := tileRows s 0xCA t sa sk
def execTld (t : Fin 4) (sa sk : SReg) (s : State) : Result := tileRows s 0xCC t sa sk

/-! ### Performing (19_matrix.md R335, R336, R343) -/

/-- Element (m, n) of a tile. -/
def Core.tile (c : Core) (t m n : Nat) : Nat := (mget c.tiles 0 (4096 * t + 64 * m + n)).toNat

/-- A core with rows of a tile written: `f m n` for the elements of rows m0 to m0 + rows − 1 and columns below cols. -/
def Core.setTile (c : Core) (t m0 rows cols : Nat) (f : Nat → Nat → Nat) : Core :=
  { c with tiles := (List.range rows).foldl (fun ts r =>
      msetRange 0 ts (4096 * t + 64 * (m0 + r)) ((List.range cols).map (fun n => BitVec.ofNat 32 (f (m0 + r) n)))) c.tiles }

/-- An error of a word that still has its warp is held for a wait on tl (19_matrix.md R341). -/
def deferMop (s : State) (o : MOp) (va : Nat) : State :=
  if o.live then s.updWarp o.core o.wslot (fun w => w.defer { sva := va / 32 * 32, lanes := o.em, cidx := o.cidx, ctr := 3 }) else s

/-- The code of a scale, with the address of a sector that returned an uncorrectable error. -/
def mopScale (s : State) (o : MOp) (org off : Nat) : Nat × Option Nat :=
  let ctx := (s.blk o.blk).ctx
  match protOf s o.core ctx org with
  | .found d =>
    match scaleCode s o.core ctx d.ent (org - d.ent.base + off) with
    | some c => (c, none)
    | none => (0xFF, some (scaleAddr d.ent (org - d.ent.base + off)))
  | _ => (127, none)

/-- A scratchpad byte that a matrix word reads: as it was at some moment since its issue (19_matrix.md R350). -/
def mopByte (s : State) (o : MOp) (a : Nat) : Byte := (mfind o.early a).getD (mget (s.blk o.blk).spad 0 a)
def mopBytes (s : State) (o : MOp) (a n : Nat) : List Byte :=
  if o.early.isEmpty then mrange (s.blk o.blk).spad 0 a n else (List.range n).map (fun i => mopByte s o (a + i))

/-- The canonical place of a global source byte of a `wbld`. -/
def wbldPlace (s : State) (o : MOp) (a : Nat) : Option (Desc × Nat) :=
  let ctx := (s.blk o.blk).ctx
  match walk s ctx (a % 2 ^ 64) with
  | .found e => match canonDesc s ctx (canonical e.ent (a % 2 ^ 64)) with
    | .found d => some (d, canonical e.ent (a % 2 ^ 64))
    | _ => none
  | _ => none

/-- A source byte of a `wbld`, with its address when it returned an uncorrectable error. -/
def wbldByte (s : State) (o : MOp) (glob : Bool) (a : Nat) : Byte × Option Nat :=
  if glob then
    match wbldPlace s o a with
    | some (d, va) =>
      let b := homeByte s d va
      if byteDead s d va false || b.2 then (0, some (a % 2 ^ 64)) else (b.1, none)
    | none => (0, some (a % 2 ^ 64))
  else (mopByte s o a, none)

/-- The state in which a `wbld` waits for a source byte, at its port or at home; corruption is escalated (09_extents.md R175). -/
def wbldWait (s : State) (o : MOp) (vas : List Nat) : Option State :=
  (vas.filterMap (fun a => match wbldPlace s o a with
    | some (d, va) => byteWait s (entryPort (coreCluster o.core) va) d va false
    | none => if walk s (s.blk o.blk).ctx (a % 2 ^ 64) == .corrupt then some (deviceError s) else none)).head?

/-- The first of some sectors, by lowest address. -/
def lowestVa (l : List Nat) : Option Nat := l.foldl (fun m x => match m with | none => some x | some y => some (min x y)) none

/-- The offsets in the weight buffer of the index bytes among some source bytes, numbered in the order of `wbldBytes`. -/
def badIndices (i : Image) (bs : List (Byte × Option Nat)) : List Nat :=
  let c := columnBytes i.form i.k (elemBytes i.fmt)
  ((bs.zipIdx).filter (fun b => b.1.2.isSome && i.isIndex (b.2 % c))).map (fun b => i.off + 64 + b.2)

/-- The source bytes of a `wbld`, once owners have been recalled and extents count as accessed, with their addresses: none where it names no
space that it may read. -/
def wbldUse (s : State) (o : MOp) (i : Image) : Option (State × Bool × List Nat) :=
  let x (k : Nat) : Nat := (o.args.getD k 0).toNat
  (parseEng (x 0 + 2 ^ 32 * x 1)).map (fun src =>
    let glob := match src with | .glob _ => true | _ => false
    let a := match src with | .glob va => va | .own off => off | _ => 0
    let vas := wbldBytes a (x 2) i
    (if glob then (vas.filterMap (wbldPlace s o)).foldl (fun s p => useByte s p.1 p.2 false) s else s, glob, vas))

/-- The codes of a scaled image's scales, with the addresses of those that returned an uncorrectable error. -/
def wbldCodes (s : State) (o : MOp) (i : Image) : List (Nat × Option Nat) :=
  let x (k : Nat) : Nat := (o.args.getD k 0).toNat
  if i.scaled then (wbldScales i).map (fun off => mopScale s o (x 3 + 2 ^ 32 * x 4) off) else []

/-- The lowest address of an uncorrectable error that a `wbld` meets (19_matrix.md R341). -/
def wbldError (s : State) (o : MOp) (i : Image) : Option Nat :=
  match wbldUse s o i with
  | some (s, glob, vas) => lowestVa (vas.filterMap (fun a => (wbldByte s o glob a).2) ++ (wbldCodes s o i).filterMap Prod.snd)
  | none => none

/-- A `wbld` is performed: its bytes reach the weight buffer. -/
def performWbld (s : State) (o : MOp) (i : Image) : State :=
  match wbldUse s o i with
  | some (s, glob, vas) =>
    let bs := vas.map (wbldByte s o glob)
    let sc := wbldCodes s o i
    let new := imageHeader i ++ bs.map Prod.fst ++ sc.map (fun c => BitVec.ofNat 8 c.1)
    let s := s.updCore o.core (fun c => { c with
      wbuf := msetRange 0 c.wbuf i.off new
      wbad := (badIndices i bs).foldl (fun l n => insertNat n l)
        (c.wbad.filter (fun n => decide (n < i.off) || decide (i.off + i.size ≤ n))) })
    match lowestVa (bs.filterMap Prod.snd ++ sc.filterMap Prod.snd) with
    | some va => deferMop s o va
    | none => s
  | none => s

/-- An accumulator element after every block or chunk of k, ascending (04_numbers.md R84 to R86). -/
def mmaElem (s : State) (o : MOp) (x : Mma) (c : Core) (i : Image) (scale : Nat → Nat) (m n acc : Nat) : Nat :=
  let es := elemBytes x.fmt
  let b := blockK x.fmt
  (List.range ((x.k + b - 1) / b)).foldl (fun acc j =>
    let prods := (List.range (min b (x.k - b * j))).map (fun r =>
      let k := b * j + r
      elemProduct x.fmt (leNat (mopBytes s o (x.aoff + m * x.ast + k * es) es)) (imageCode c i k n))
    accumulate acc (blockValue x.fmt (b == 32) (scale j) (imageScale c i j n) prods)) acc

/-- An `mma` is performed on one core: Nc columns of its tile. -/
def performMma (s : State) (o : MOp) (x : Mma) (core nc : Nat) (i : Image) (scale : Nat → Nat → Nat) : State :=
  s.updCore core (fun c =>
    { c.setTile o.t 0 x.m nc (fun m n => mmaElem s o x c i (scale m) m n (if x.z then 0 else c.tile o.t m n)) with
      area := mput c.area o.t (x.m, nc) })

/-- An `mma` is performed; the scales of A are read once. -/
def performMmas (s : State) (o : MOp) : State :=
  let x := parseMma (o.code - 0xC0) o.args
  let sc (m j : Nat) : Nat × Option Nat := if x.scaled then mopScale s o x.org (m * x.ast + 32 * j) else (127, none)
  let bad := if x.scaled then (mmaScales x).filterMap (fun off => (mopScale s o x.org off).2) else []
  let nc := x.nc o.partner.isSome
  let s1 := match o.img with
    | some i => performMma s o x o.core nc i (fun m j => (sc m j).1)
    | none => s
  let s2 := match o.partner, o.pimg with
    | some c, some i => performMma s1 o x c nc i (fun m j => (sc m j).1)
    | _, _ => s1
  match lowestVa bad with
  | some va => deferMop s2 o va
  | none => s2

/-- The code that `tst` writes for an element (19_matrix.md R349). -/
def tstCode (fmt : Nat) (mode : RMode) (sat : Bool) (x : Nat) : Nat :=
  let v := decodeF f32 x
  match fmt with
  | 0 => if v.isNan then f32.nan else x
  | 1 => roundTo bf16 mode sat v
  | 2 => roundTo f16 mode sat v
  | 3 => roundTo e4m3 mode sat v
  | 4 => roundTo e5m2 mode sat v
  | _ => roundLog6 mode sat v

/-- The bytes that a `tst` writes by row: each row's scratchpad offset and its bytes. -/
def tstRows (s : State) (o : MOp) : List (Nat × List Byte) :=
  let a (k : Nat) : Nat := (o.args.getD k 0).toNat
  let fmt := bitsOf (a 1) 0 3
  let es := tstBytes fmt
  let c := s.core o.core
  (List.range (bitsOf (a 1) 13 6 + 1)).map (fun r =>
    let w := bitsOf (a 1) 7 6 + r
    (a 0 + r * a 2, ((List.range 64).map (fun col =>
      let mode := modeOf (bitsOf (a 1) 3 3) (stochasticHash (o.args.getD 3 0) (col % 32) (2 * w + col / 32))
      leBytes es (tstCode fmt mode (bitsOf (a 1) 6 1 == 1) (c.tile o.t w col)))).flatten))

/-- A `tst` is performed. Where a store that issued after it has written one of its bytes, which of the two stays is a free choice, byte by
byte (19_matrix.md R350). -/
def performTst (s : State) (o : MOp) : State :=
  if o.later.isEmpty then (tstRows s o).foldl (fun s r => localWrite s (.spad o.blk) r.1 r.2) s
  else
    let stays (a : Nat) : Bool := o.later.contains a && Config.freeNat (s.free + a) % 2 == 1
    let t := (tstRows s o).foldl (fun s r => (r.2.zipIdx).foldl (fun s b =>
      if stays (r.1 + b.2) then s else localWrite s (.spad o.blk) (r.1 + b.2) [b.1]) s) s
    { t with free := s.free + Config.spadBytes }

/-- A `tld` is performed. -/
def performTld (s : State) (o : MOp) : State :=
  let a (k : Nat) : Nat := (o.args.getD k 0).toNat
  let row0 := bitsOf (a 1) 7 6
  s.updCore o.core (fun c => c.setTile o.t row0 (bitsOf (a 1) 13 6 + 1) 64 (fun w col =>
    leNat (mopBytes s o (a 0 + (w - row0) * a 2 + 4 * col) 4)))

/-- A row of a tile goes to a register pair in some lanes of a warp that still takes it, with their poison cleared (19_matrix.md R348). -/
def tmovLanes (s : State) (o : MOp) (lanes : Word) : State :=
  let x := (o.args.getD 0 0).toNat
  let c := s.core o.core
  let row := bitsOf x 7 6
  let put (w : Warp) (r base : Nat) : Warp := w.setV r lanes (fun i => BitVec.ofNat 32 (c.tile o.t row (base + i)))
  if o.live then s.updWarp o.core o.wslot (fun w => put (put w (bitsOf x 0 7) 0) (bitsOf x 0 7 + 1) 32) else s

/-- A `tmov` is performed: the lanes that have not landed are written. -/
def performTmov (s : State) (o : MOp) : State := tmovLanes s o (o.em &&& ~~~(lanesMask o.landed))

/-- What a matrix word does when it is performed. -/
def performMop (s : State) (o : MOp) : State :=
  if o.code ≤ 0xC4 then performMmas s o
  else if o.code ≤ 0xC7 then (match o.img with | some i => performWbld s o i | none => s)
  else if o.code = 0xC8 then s.updCore o.core (fun c => c.setTile o.t 0 64 64 (fun _ _ => 0))
  else if o.code = 0xC9 then performTmov s o
  else if o.code = 0xCA then performTst s o
  else if o.code = 0xCB then
    s.updCore o.core (fun c => c.setTile o.t 0 64 64 (fun m n => fadd f32 .rne (c.tile o.t m n) (c.tile o.ts m n)))
  else performTld s o

/-- The scale origin of a matrix word that reads scales, with the element offsets from it (19_matrix.md R340, R342). -/
def mopOrg (o : MOp) : Option (Nat × List Nat) :=
  let x (k : Nat) : Nat := (o.args.getD k 0).toNat
  let m := parseMma (o.code - 0xC0) o.args
  if 0xC8 ≤ o.code then none
  else if 0xC5 ≤ o.code then
    match o.img with
    | some i => if i.scaled then some (x 3 + 2 ^ 32 * x 4, wbldScales i) else none
    | none => none
  else if m.scaled then some (m.org, mmaScales m) else none

/-- The addresses of the scales that a matrix word reads. -/
def mopScaleVas (s : State) (o : MOp) : List Nat :=
  match mopOrg o with
  | some (org, offs) =>
    match protOf s o.core (s.blk o.blk).ctx org with
    | .found d => if d.ent.sv then offs.map (fun f => scaleAddr d.ent (org - d.ent.base + f)) else []
    | _ => []
  | none => []

/-- Whether the lookup of a matrix word's scale origin meets a corrupt table (09_extents.md R175). -/
def mopCorrupt (s : State) (o : MOp) : Bool :=
  match mopOrg o with
  | some (org, _) => protOf s o.core (s.blk o.blk).ctx org == .corrupt
  | none => false

/-- The state in which a matrix word waits: for a scale, or for a byte of a global source. -/
def mopWait (s : State) (o : MOp) : Option State :=
  let x (k : Nat) : Nat := (o.args.getD k 0).toNat
  if mopCorrupt s o then some (deviceError s)
  else
    match (mopScaleVas s o).findSome? (scaleWait s o.core (s.blk o.blk).ctx) with
    | some s' => some s'
    | none =>
    match (if 0xC5 ≤ o.code ∧ o.code ≤ 0xC7 then parseEng (x 0 + 2 ^ 32 * x 1) else none), o.img with
    | some (.glob va), some i => wbldWait s o (wbldBytes va (x 2) i)
    | _, _ => none

/-- Whether a matrix word is the oldest on each of its cores (19_matrix.md R335). -/
def oldestMop (s : State) (id : Nat) (o : MOp) : Bool :=
  let shares (q : MOp) : Bool :=
    q.core == o.core || q.partner == some o.core || (match o.partner with | some c => q.core == c || q.partner == some c | none => false)
  s.work.mops.all (fun q => !(decide (q.1 < id) && shares q.2))

/-- A turn of the schedule: a lane of the oldest word of its core, a `tmov`, lands before the word completes (02_encoding.md R29). -/
def landTile (s : State) (op lane : Nat) : State :=
  match mfind s.work.mops op with
  | none => s
  | some o =>
    if o.code ≠ 0xC9 || !oldestMop s op o || !laneIn o.em lane || o.landed.contains lane then s
    else
      let s := tmovLanes s o (lanesMask [lane])
      { s with work := { s.work with mops := mput s.work.mops op { o with landed := o.landed ++ [lane] } } }

/-- Whether a `tst` writes a scratchpad offset of its block (19_matrix.md R349). -/
def tstCovers (o : MOp) (off : Nat) : Bool :=
  let a (k : Nat) : Nat := (o.args.getD k 0).toNat
  o.code == 0xCA && (List.range (bitsOf (a 1) 13 6 + 1)).any (fun r =>
    decide (a 0 + r * a 2 ≤ off) && decide (off < a 0 + r * a 2 + 64 * tstBytes (bitsOf (a 1) 0 3)))

/-- A turn of the schedule: a matrix word reads a scratchpad byte at this moment (19_matrix.md R350), which no `tst` before it has still to
write (R335). -/
def readTile (s : State) (op off : Nat) : State :=
  match mfind s.work.mops op with
  | none => s
  | some o =>
    if s.work.mops.any (fun q => decide (q.1 < op) && q.2.blk == o.blk && tstCovers q.2 off) then s else
    let o' : MOp := { o with early := mput o.early off (mget (s.blk o.blk).spad 0 off) }
    { s with work := { s.work with mops := mput s.work.mops op o' } }

/-- MATRIX_COMPLETE (19_matrix.md R335, R336): the oldest word of its core, and of its partner, is performed, and tl falls. -/
def execMatrixComplete (op : Nat) (s : State) : Result :=
  match mfind s.work.mops op with
  | none => .next s
  | some o =>
    if !oldestMop s op o then .next s
    else
      match mopWait s o with
      | some s' => .next s'
      | none =>
        let s := performMop ((mopScaleVas s o).foldl (fun s a => useScale s o.core (s.blk o.blk).ctx a) s) o
        .next ({ s with work := { s.work with mops := mdel s.work.mops op } }.updWarp o.core o.wslot (fun w => { w with tl := w.tl - 1 }))

end Sys2Proof.Machine
end

