-- ==== Sys2Proof/Machine/Saves.lean ====
section
/-! DEFINITION. Pre-emption (21_work.md R369 to R371), save images and their restore (R372 to R374), the watchdog (R375, R376). -/
namespace Sys2Proof.Machine

/-! ### Warp records (21_work.md R373) -/

/-- Words as bytes, from a function of their index. -/
def wordBytes (n : Nat) (f : Nat → Word) : List Byte := ((List.range n).map (fun i => leBytes 4 (f i).toNat)).flatten

/-- A split as an image holds it: one in state 2 is recorded in state 1 (21_work.md R370). -/
def savedSplit (e : Split) : Split := if e.state = 2 then { e with state := 1 } else e

/-- The counters as `rdsr` 0x01 gives them, with only rm. -/
def rmWord (n : Nat) : Nat := 2 ^ 16 * n

/-- A deferred error's 16 bytes. -/
def errBytes (e : DeferredErr) : List Byte := leBytes 8 e.sva ++ leBytes 4 e.lanes.toNat ++ leBytes 4 e.cidx

/-- A warp record with its replay records. -/
def warpRecord (w : Warp) (reps : List (List Byte)) : List Byte :=
  ((List.range 8).map (fun i => splitBytes (savedSplit (w.split i)))).flatten ++
  ((List.range 16).map (fun i => tokBytes (w.tok i))).flatten ++
  leBytes 8 w.control ++ leBytes 4 w.status.toNat ++ leBytes 4 (rmWord reps.length) ++
  leBytes 8 (w.alloc + 2 ^ 8 * reps.length) ++
  (w.foreign.map (fun a => leBytes 4 a.toNat)).flatten ++ copies (16 - 4 * w.foreign.length) 0xFF ++
  (w.errs.map errBytes).flatten ++ copies (80 - 16 * w.errs.length) 0 ++ leBytes 4 w.errCount ++ copies 4 0 ++
  wordBytes 64 w.s ++ wordBytes 8 w.m ++ wordBytes 128 w.poisoned ++
  reps.flatten ++ copies (960 - 160 * reps.length) 0 ++ copies 32 0 ++
  ((List.range (8 * w.alloc)).map (fun r => wordBytes 32 (w.v r))).flatten

/-- A 16-byte split entry read back. -/
def parseSplit (b : List Byte) : Split :=
  let q := fieldAt b 0 8
  { pc := bitsOf q 0 56, mask := BitVec.ofNat 32 (fieldAt b 8 4), word := bitsOf (fieldAt b 12 4) 0 4, state := bitsOf q 61 3, tv := bitsOf q 60 1 == 1,
    td := bitsOf q 56 4 }

/-- A 16-byte token entry read back. -/
def parseTok (b : List Byte) : Token :=
  let q := fieldAt b 0 8
  { pending := BitVec.ofNat 32 (fieldAt b 12 4), rejoin := BitVec.ofNat 32 (fieldAt b 8 4), kind := bitsOf q 61 3, pv := bitsOf q 60 1 == 1,
    parent := bitsOf q 56 4, pc := bitsOf q 0 56 }

/-- A sparse map filled from a function of its keys. -/
def fillMap {α : Type} [DecidableEq α] (d : α) (n : Nat) (f : Nat → α) : SMap α :=
  (List.range n).foldl (fun m i => mset d m i (f i)) []

/-- A warp read back from its record, with its replay records. -/
def parseWarp (b : List Byte) (base : Warp) : Warp × List (List Byte) :=
  let word (o : Nat) : Word := BitVec.ofNat 32 (fieldAt b o 4)
  let alloc := fieldAt b 0x190 1
  let ctl := fieldAt b 0x180 8
  let errs := ((List.range 5).map (fun i =>
    ({ sva := fieldAt b (0x1A8 + 16 * i) 8, lanes := word (0x1B0 + 16 * i), cidx := fieldAt b (0x1B4 + 16 * i) 4, ctr := 0 } : DeferredErr))).filter
      (fun e => e.lanes != 0)
  ({ base with
     present := true, alloc := alloc
     vregs := fillMap zeroRow (8 * alloc) (fun r => rowOf (fun i => word (0x900 + 128 * r + 4 * i)))
     poison := fillMap 0 128 (fun r => word (0x320 + 4 * r))
     sregs := fillMap 0 64 (fun r => word (0x200 + 4 * r))
     mregs := fillMap 0 8 (fun r => word (0x300 + 4 * r))
     scc := bitsOf ctl 35 1 == 1, live := BitVec.ofNat 32 ctl, rr := bitsOf ctl 32 3, rank := bitsOf ctl 36 5
     splits := fillMap {} 8 (fun i => parseSplit ((b.drop (16 * i)).take 16))
     tokens := fillMap {} 16 (fun i => parseTok ((b.drop (0x80 + 16 * i)).take 16))
     status := statusBits (word 0x188)
     foreign := ((List.range 4).map (fun i => word (0x198 + 4 * i))).filter (· != 0xFFFFFFFF)
     errs := errs, errCount := fieldAt b 0x1F8 4 },
   (List.range (fieldAt b 0x191 1)).map (fun i => (b.drop (0x520 + 160 * i)).take 160))

/-- A mask that joins others with which it shares no lane. -/
def joinMask (a : Word × Bool) (m : Word) : Word × Bool := (a.1 ||| m, a.2 && (a.1 &&& m == 0))

/-- Whether a restored control state satisfies 05_control.md R96 to R99: no reserved state or kind, and the live mask is the disjoint union
of the masks of the splits, the rejoin masks of the deferred tokens and the lanes that have arrived at the others. A save records no split
in state 2 (21_work.md R370), and an image that holds one is rejected (DESIGN CHOICE, log entry 94). -/
def Warp.controlOk (w : Warp) : Bool :=
  let sp := (List.range 8).map w.split
  let tk := (List.range 16).map w.tok
  let masks := (sp.filter (fun e => e.state != 0)).map Split.mask ++
    (tk.filter (fun e => e.kind != 0)).map (fun e => if e.kind = 3 then e.rejoin else e.rejoin &&& ~~~e.pending)
  let u := masks.foldl joinMask (0, true)
  sp.all (fun e => decide (e.state ≤ 3) && e.state != 2) && tk.all (fun e => decide (e.kind ≤ 3)) && u.2 && u.1 == w.live

/-! ### Block images (21_work.md R372) -/

/-- Offsets of an image's parts, one after the other from 256 on (log entry 53). -/
def offsetsFrom (o : Nat) : List Nat → List Nat
  | [] => []
  | n :: r => o :: offsetsFrom (o + n) r

/-- The matrix area: the tiles, the weight buffer, the table of valid images. -/
def matrixArea (k : Core) : List Byte :=
  wordBytes 16384 (mget k.tiles 0) ++ mrange k.wbuf 0 0 Config.wbufBytes ++
  (k.images.map (fun i => leBytes 4 i.off ++ leBytes 4 i.size)).flatten ++ copies (512 - 8 * k.images.length) 0

/-- Lane slices in order of warp, lane and byte (log entry 53). -/
def sliceArea (b : Block) : List Byte :=
  ((List.range (32 * b.warps)).map (fun i => mrange b.slices 0 (2048 * i) b.lane)).flatten

/-- Zeros up to a multiple of 256 bytes. -/
def pad256 (b : List Byte) : List Byte := b ++ copies ((256 - b.length % 256) % 256) 0

/-- A block's image, from its record, its warps' records by %warp, and its core's matrix unit. -/
def imageOf (b : Block) (tcb tag : Nat) (ws : SMap (List Byte)) (k : Core) : List Byte :=
  let spad := mrange b.spad 0 0 b.spadLen
  let sl := sliceArea b
  let area := ((List.range b.bars).map (fun i => objBytes (mget b.area {} i))).flatten
  let mx := if b.matrix then matrixArea k else []
  let recs := mvals ws
  let offs := offsetsFrom 256 (recs.map List.length ++ [spad.length, sl.length, area.length])
  let woff (i : Nat) : Nat := match (mkeys ws).idxOf? i with | some j => offs.getD j 0 | none => 0
  let a0 := offs.getD recs.length 0
  let body := recs.flatten ++ spad ++ sl ++ area ++ mx
  let len := (256 + body.length + 255) / 256 * 256
  pad256 (leBytes 4 1 ++ leBytes 4 len ++ leBytes 8 tcb ++ leBytes 4 b.no ++ leBytes 1 b.warps ++ leBytes 1 b.bars ++ leBytes 2 b.lane ++
    leBytes 8 (b.spadLen + 2 ^ 32 * (tag % 256) + 2 ^ 40 * b.matrix.toNat) ++ ((List.range 32).map (fun i => leBytes 4 (woff i))).flatten ++
    leBytes 4 a0 ++ leBytes 4 (a0 + spad.length) ++ leBytes 4 (a0 + spad.length + sl.length) ++
    leBytes 4 (a0 + spad.length + sl.length + area.length) ++ copies 80 0 ++ body)

/-- Bytes of a block's image. -/
def imageSize (s : State) (b : Nat) : Nat :=
  let x := s.blk b
  let ws := (blockWarps s b).foldl (fun a i => a + 0x900 + 1024 * (s.warp x.core i).alloc) 0
  (256 + ws + x.bytes + (if x.matrix then 262656 else 0) + 255) / 256 * 256

/-! ### Pre-emption (21_work.md R369) -/

/-- The blocks of a group that have not ended. -/
def liveBlocks (s : State) (g : Group) : List Nat := g.blocks.filter (fun b => !(s.blk b).ended)

/-- Whether a remote word reads or replaces: `rld` or `ratom`. -/
def RWord.replies (r : RWord) : Bool := !posted r.op

/-- Whether a block has an `rld` or a `ratom` outstanding. -/
def blockReplies (s : State) (b : Nat) : Bool :=
  s.fab.words.any (fun p => p.2.replies && p.2.core == (s.blk b).core && (s.warp p.2.core p.2.wslot).blk == b && decide (p.2.wslot < 32))

/-- A block's remaining time Cd in ns; none when its mean is unknown. -/
def drainTime (s : State) (t : Task) (b : Nat) : Option Nat :=
  let mean := devRead32 s t.ctx (t.tcb + 0x58)
  if mean = 0 then none else some (1000 * mean - ranFor s (s.blk b))

/-- 64 times the save time Cs of a block of a group in ns: 50 µs more when any `rld` or `ratom` of the group is outstanding. -/
def saveTime64 (s : State) (g : Group) (b : Nat) : Nat :=
  64 * 2000 + imageSize s b + (if (liveBlocks s g).any (blockReplies s) then 64 * 50000 else 0)

/-- Whether an issue slot holds a clause of a block or of its co-issue partner: pre-emption takes effect only between clauses
(02_encoding.md R28). -/
def blockIssuing (s : State) (b : Nat) : Bool :=
  let k := s.core (s.blk b).core
  let ws := blockWarps s b
  [k.slot0, k.slot1].any (fun o => match o with
    | some r => ws.contains r.wslot || (match r.partner with | some p => ws.contains p.1 | none => false)
    | none => false)

/-- Whether a block of a group that has not ended stands on a stopped core (11_traps.md R214). -/
def groupStopped (s : State) (g : Group) : Bool := (liveBlocks s g).any (fun b => (s.core (s.blk b).core).stopped)

/-- Every warp of a group's blocks that are between clauses, and not stopped by a fault, is killed without a frame, and its objects are not abandoned
(21_work.md R369, log entry 54). -/
def flushBlocks (s : State) (g : Group) : State :=
  ((liveBlocks s g).filter (fun b => !(s.blk b).killed && !blockIssuing s b && !(s.core (s.blk b).core).stopped)).foldl (fun s b =>
    ((blockWarps s b).foldl (fun s i => haltWarp s (s.blk b).core i) s).updBlk b (fun x => { x with killed := true })) s

/-- A group is flushed: none of its warps is granted a clause again, and each block is killed between its clauses; the blocks return as
unplaced. -/
def flushGroup (s : State) (k : Nat) (g : Group) : State :=
  let s := flushBlocks s g
  s.setGroup k { g with pre := some { way := 3, since := s.plat.time, watchdog := none, yield := [], late := false } }

/-- A watchdog frame for a block (21_work.md R376); it stops no core. -/
def watchdogFrame (s : State) (b detail saved : Nat) : Frame :=
  let x := s.blk b
  let t : FaultSite := { core := x.core, wslot := 0, warp := 0, blk := b, split := 0, pc := 0, cidx := 0, n := 0, len := 0, ctx := x.ctx,
                         imp := true }
  { core := noCore, dom := effFdom s x.region, seq := none, wslot := 33, blk := b, cls := clsWatchdog,
    bytes := frameBytes s t { cls := clsWatchdog, detail := detail } 0, answered := false, since := s.plat.time, full := false, saved := saved,
    split := 0, follow := 0, n := 0, cidx := 0, len := 0, region := x.region }

/-- A save begins; an image above the slot size makes it a flush, or is refused and kills its block (21_work.md R372). -/
def beginSave (s : State) (k : Nat) (g : Group) (watchdog : Option (Nat × Nat)) (yield : List Nat) : State :=
  let big := (liveBlocks s g).filter (fun b => decide (effSslot s (s.blk b).region < imageSize s b))
  match s.task g.task with
  | none => s
  | some t =>
    if big.isEmpty then
      s.setGroup k { g with pre := some { way := 1, since := s.plat.time, watchdog := watchdog, yield := yield, late := false } }
    else
      let frame : Option Frame := watchdog.map (fun w => watchdogFrame s w.1 w.2 0)
      let s := if restartable s t then flushGroup s k g
        else big.foldl (fun s b => hostError (killBlock s b) 4 g.cluster t.ctx 1 t.tcb (s.blk b).no) s
      match frame with
      | some f => addFrame s f
      | none => s

/-- A save of a group is asked for; while a block of it is stopped the request waits for the end of the stop (11_traps.md R214). -/
def requestSave (s : State) (k : Nat) (g : Group) (watchdog : Option (Nat × Nat)) (yield : List Nat) : State :=
  if groupStopped s g then
    s.setGroup k { g with pre := some { way := 4, since := s.plat.time, watchdog := watchdog, yield := yield, late := false } }
  else beginSave s k g watchdog yield

/-- A pre-emption request for a group with a bound L in µs takes one way (21_work.md R369); while a block of the group is stopped it waits
for the end of the stop (11_traps.md R214). -/
def preempt (s : State) (k L : Nat) : State :=
  match mfind s.work.groups k with
  | none => s
  | some g =>
    match s.task g.task with
    | none => s
    | some t =>
      let busy := match g.pre with | some p => p.way != 0 | none => false
      let bs := liveBlocks s g
      if busy || bs.isEmpty then s
      else if groupStopped s g then
        s.setGroup k { g with pre := some { way := 4, since := s.plat.time, watchdog := none, yield := [], late := false, bound := L } }
      else
        let drains := bs.all (fun b => match drainTime s t b with | some c => decide (c ≤ 1000 * L) | none => false)
        let saves := bs.all (fun b => decide (saveTime64 s g b ≤ 64 * 1000 * L))
        if drains then s.setGroup k { g with pre := some { way := 0, since := s.plat.time, watchdog := none, yield := [], late := false } }
        else if saves || !restartable s t then beginSave s k g none []
        else flushGroup s k g

/-- The request that a stop has held back is handled when the stop has ended: a save where the watchdog or a `wyield` asks for one. -/
def takeRequest (s : State) (k : Nat) (g : Group) (p : Preempt) : State :=
  if groupStopped s g then s
  else
    let g := { g with pre := none }
    if p.watchdog.isSome || !p.yield.isEmpty then beginSave (s.setGroup k g) k g p.watchdog p.yield else preempt (s.setGroup k g) k p.bound

/-- The machine without some groups: what they take is free. -/
def withoutGroups (s : State) (ks : List Nat) : State :=
  ks.foldl (fun s k =>
    match mfind s.work.groups k with
    | none => s
    | some g =>
      let bs := g.blocks.map s.blk
      let lb := bs.filter (fun b => !b.ended)
      let sum (f : Block → Nat) (l : List Block) : Int := -((l.foldl (fun a b => a + f b) 0 : Nat) : Int)
      let region := (bs.headD {}).region
      let s := g.blocks.foldl (fun s b => (blockWarps s b).foldl (fun s i => s.setWarp (s.blk b).core i {}) s) s
      let s := { s with work := { s.work with groups := mdel s.work.groups k, blocks := g.blocks.foldl mdel s.work.blocks } }
      useRegion s region (sum (fun b => b.rblk * b.warps) lb) (sum Block.bars lb) (sum Block.bytes bs) (sum Block.est lb) (-(lb.length : Int))) s

/-- The places where a ready task's next group fits on a cluster. -/
def placesOf (s : State) (cluster i : Nat) (t : Task) : List (Nat × Nat) × (Nat × Nat) :=
  let x := taskTcb s t
  let n := needOf s cluster t x
  match nextGroup s i t with
  | none => ([], (1, 1))
  | some g => (fitting s cluster t.region n (groupShape s x g) (groupNeeds s x n g), groupShape s x g)

/-- Whether a ready task has blocks to place and its next group fits nowhere: it waits for resources (21_work.md R369). -/
def starved (s : State) (i : Nat) (t : Task) : Bool :=
  waiting s (i, t) && ((List.range 4).filter (fun c => partOf s c == t.part)).all (fun c => (placesOf s c i t).1.isEmpty)

/-- The groups with a block on some cores. -/
def groupsOn (s : State) (cores : List Nat) : List Nat :=
  mkeys (s.work.groups.filter (fun p => p.2.blocks.any (fun b => cores.contains (s.blk b).core)))

/-- Whether a place on a cluster would do for a task's next group if some groups were gone. -/
def wouldFit (s : State) (cluster i : Nat) (t : Task) (gone : List Nat) (p : Nat × Nat) : Bool :=
  let u := withoutGroups s gone
  let x := taskTcb u t
  let n := needOf u cluster t x
  match nextGroup u i t with
  | none => false
  | some g => fitsAt u cluster t.region n (groupShape u x g) (groupNeeds u x n g) p

/-- Whether a task waits for resources that group k holds: its next group fits nowhere, and there is a place where it would fit if, of some
groups that may go, those there and k were gone, besides those that are going, and would not fit if k stayed (21_work.md R369, R386, log
entry 90). -/
def awaits (s : State) (i : Nat) (t : Task) (may going : List Nat) (k : Nat) : Bool :=
  starved s i t &&
  ((List.range 4).filter (fun c => partOf s c == t.part)).any (fun c =>
    let q := placesOf (withoutGroups s (may ++ going)) c i t
    q.1.any (fun p =>
      let there := (groupsOn s (rectCores c p.1 p.2 q.2.1 q.2.2)).filter (fun j => may.contains j && j != k)
      wouldFit s c i t (k :: there ++ going) p && !wouldFit s c i t (there ++ going) p))

/-- The groups of a partition that are going: they drain, are saved or are flushed. -/
def goingGroups (s : State) : List Nat := mkeys (s.work.groups.filter (fun p => p.2.pre.isSome))

/-- The time since which each ready task has waited for resources (21_work.md R369). -/
def noteWaits (s : State) : State :=
  { s with work := { s.work with tasks := s.work.tasks.map (fun p =>
      (p.1, { p.2 with waits := if starved s p.1 p.2 then some (p.2.waits.getD s.plat.time) else none })) } }

/-- PREEMPTION_STARVATION (21_work.md R369): of the groups that hold resources for which a task has waited 1 ms, the youngest of the lowest
priority, at least 4 below the task's. -/
def execPreemptionStarvation (task : Nat) (s : State) : Result :=
  let s := noteWaits s
  match s.task task with
  | none => .next s
  | some t =>
    if !t.waits.any (fun x => decide (x + 1000000 ≤ s.plat.time)) then .next s
    else
      let prio (g : Group) : Nat := match s.task g.task with | some u => taskPrio s u | none => 15
      let age (g : Group) : Nat := (s.blk (g.blocks.headD 0)).began
      let l := s.work.groups.filter (fun p => partOf s p.2.cluster == t.part && p.2.pre.isNone && !(s.blk (p.2.blocks.headD 0)).isReplay &&
        decide (prio p.2 + 4 ≤ taskPrio s t))
      match (l.filter (fun p => awaits s task t (mkeys l) (goingGroups s) p.1)).foldl (fun (a : Option (Nat × Group)) p => match a with
          | none => some p
          | some q => if prio p.2 < prio q.2 ∨ (prio p.2 = prio q.2 ∧ age q.2 < age p.2) then some p else some q) none with
      | some p => .next (preempt s p.1 100)
      | none => .next s

/-- Time passes: the ready lists and the waits for resources are noted, and the words of internal launches that wait are tried again
(21_work.md R360, R365, R369). -/
def passTime (s : State) (ns cycles : Nat) : State := tick (noteWaits (issueCommands (settleReady s))) ns cycles

/-! ### Saving (21_work.md R370, R371) -/

/-- Whether nothing of a warp is outstanding that a save waits for; after 50 µs, replays of `rld` words may be (21_work.md R370, R371). -/
def warpQuiet (s : State) (core wslot : Nat) (late : Bool) : Bool :=
  let w := s.warp core wslot
  w.live != 0 && w.ld == 0 && w.st == 0 && w.cp == 0 && w.tl == 0 && w.arrivals.isEmpty && w.dones.isEmpty &&
  !s.mem.reqs.any (fun p => p.2.core == core && p.2.wslot == wslot) && !s.fab.posts.any (fun p => p.2.core == core && p.2.wslot == wslot) &&
  s.fab.words.all (fun p => !(p.2.core == core && p.2.wslot == wslot) || (late && decide (p.2.op ≤ 2) && p.2.todo.isEmpty))

/-- Whether a block may be saved now: its core is not stopped (11_traps.md R214), no clause of it is under way (02_encoding.md R28), its
warps are quiet, and no `wfetch` of it is still to be served (log entry 54). -/
def blockQuiet (s : State) (b : Nat) (late : Bool) : Bool :=
  let c := (s.blk b).core
  !(s.core c).stopped && !blockIssuing s b && (blockWarps s b).all (fun i => warpQuiet s c i late) && !s.work.fetches.any (fun p => p.2.blk == b)

/-- The replay record of a replay of a remote word (21_work.md R373): every lane of the replay is read again (log entry 55). -/
def replayRecord (r : RWord) (y : Replay) : List Byte :=
  let disp := r.lit.toInt
  let off (i : Nat) : Nat := match y.items.find? (fun t => t.lane == i) with
    | some t => ((((t.va : Nat) : Int) - r.base - disp) % 2 ^ 32).toNat
    | none => 0
  leBytes 4 r.head.toNat ++ leBytes 4 r.lit.toNat ++ leBytes 4 (lanesMask (y.items.map RItem.lane)).toNat ++ leBytes 4 y.peer.toNat ++
  leBytes 8 r.base ++ leBytes 4 r.baddr.toNat ++ ((List.range 32).map (fun i => leBytes 4 (off i))).flatten ++ copies 4 0

/-- The replay records of a warp. -/
def replayRecords (s : State) (core wslot : Nat) : List (List Byte) :=
  s.fab.replays.filterMap (fun y => match s.rword y.2.word with
    | some r => if r.core = core ∧ r.wslot = wslot then some (replayRecord r y.2) else none
    | none => none)

/-- The free save slots of a region's pool, lowest first, as many as are asked for. -/
def freeSlots (s : State) (ctx r n : Nat) : List Nat :=
  ((List.range (effNslot s r)).filter (fun i => bitsOf (leNat ((devRead s ctx (effSpool s r + i / 8) 1).getD [])) (i % 8) 1 == 0)).take n

/-- Whether the device meets a corrupt extent table in a region's save pool (09_extents.md R175). -/
def poolCorrupt (s : State) (ctx r : Nat) : Bool :=
  corruptAt s ctx (effSpool s r) (slotMapLen s r) || corruptAt s ctx (effSpool s r + slotMapLen s r) (effNslot s r * effSslot s r)

/-- VA of save slot i. -/
def slotVa (s : State) (r i : Nat) : Nat := effSpool s r + slotMapLen s r + i * effSslot s r

/-- The splits of a block's warps that wait at `wyield` go on with a value (21_work.md R386). -/
def releaseYield (s : State) (b : Nat) (v : Word) : State :=
  let c := (s.blk b).core
  (blockWarps s b).foldl (fun s i => (List.range 8).foldl (fun s j =>
    match ((s.warp c i).split j).on with
    | .yield d => unblock (s.updWarp c i (fun w => w.setS d v)) c i j 1
    | _ => s) s) s

/-- The remote words of a warp and their replays are kept no more. -/
def dropWords (s : State) (core wslot : Nat) : State :=
  let ids := mkeys (s.fab.words.filter (fun p => p.2.core == core && p.2.wslot == wslot))
  { s with fab := { s.fab with words := s.fab.words.filter (fun p => !ids.contains p.1),
                               replays := s.fab.replays.filter (fun y => !ids.contains y.2.word) } }

/-- A block's image is written to a slot, and its warps leave the core. -/
def saveBlock (s : State) (b slot tcb : Nat) : State :=
  let x := s.blk b
  let ws := blockWarps s b
  let recs := ws.foldl (fun m i => mput m (s.warp x.core i).widx (warpRecord (s.warp x.core i) (replayRecords s x.core i))) []
  let tag := (s.warp x.core (ws.headD 0)).tag + 1
  let s := devWrite s x.ctx (slotVa s x.region slot) (imageOf x tcb tag recs (s.core x.core))
  let s := markSlot s x.ctx x.region slot true
  let s := ws.foldl (fun s i => (dropWords s x.core i).setWarp x.core i {}) s
  if x.matrix then clearMatrix s x.core else s

/-- What the dispatcher keeps of a saved block beside its image: an ended block of the group keeps its storage. -/
def keptBlock (s : State) (b : Nat) : Block :=
  let x := s.blk b
  if x.ended then x else { x with began := ranFor s x, idle := 0, spad := [], slices := [], area := [] }

/-- What the dispatcher keeps of the warps of a group. -/
def keptWarps {α : Type} (s : State) (bs : List Nat) (f : Warp → List α) : SMap (List α) :=
  (bs.zipIdx).foldl (fun m p => (blockWarps s p.1).foldl (fun m i =>
    let w := s.warp (s.blk p.1).core i
    if (f w).isEmpty then m else mput m (32 * p.2 + w.widx) (f w)) m) []

/-- The failed index bytes of the weight buffers of a group's matrix blocks, by place (19_matrix.md R341). -/
def keptBad (s : State) (bs : List Nat) : SMap (List Nat) :=
  (bs.zipIdx).foldl (fun m p =>
    let x := s.blk p.1
    if x.ended || !x.matrix || (s.core x.core).wbad.isEmpty then m else mput m p.2 (s.core x.core).wbad) []

/-- The objects on the foreign lists of a group's warps, by place; an object in an area of the group names the place of its block: saved warps
keep their lists (10_sync.md R200, R209). -/
def keptForeign (s : State) (bs : List Nat) : SMap (List ObjRef) :=
  (bs.zipIdx).foldl (fun m p =>
    let c := (s.blk p.1).core
    let l := ((blockWarps s p.1).map (fun i => (s.warp c i).foreign.filterMap (fun a =>
      match barAddr s c p.1 false a.toNat with
      | .ok (.store k o) => some (ObjRef.store k o)
      | .ok (.area b o) => (bs.idxOf? b).map (fun q => ObjRef.area q o)
      | _ => none))).flatten
    if l.isEmpty then m else mput m p.2 l) []

/-- A group's images are written, its resources are freed, and the watchdog's frame follows (21_work.md R370 to R372, R376). -/
def saveGroup (s : State) (k : Nat) (g : Group) (p : Preempt) (t : Task) (slots : List Nat) : State :=
  let live := liveBlocks s g
  let s := p.yield.foldl (fun s b => releaseYield s b 1) s
  let region := (s.blk (g.blocks.headD 0)).region
  let slotOf (b : Nat) : Option Nat := match live.idxOf? b with | some i => slots[i]? | none => none
  let (n, s) := s.fresh
  let keep : Saved := { task := g.task, idx := g.idx, w := g.w, h := g.h, slots := g.blocks.map slotOf, blocks := g.blocks.map (keptBlock s),
                        ctrs := keptWarps s g.blocks (fun w => w.errs.map DeferredErr.ctr),
                        failed := keptWarps s g.blocks (fun w => w.failed), wbad := keptBad s g.blocks, foreign := keptForeign s g.blocks,
                        held := p.watchdog.isSome }
  let frame := p.watchdog.map (fun w => watchdogFrame s w.1 w.2 (n + 1))
  let s := (live.zip slots).foldl (fun s q => saveBlock s q.1 q.2 t.tcb) s
  let bs := g.blocks.map s.blk
  let sum (f : Block → Nat) (l : List Block) : Int := -((l.foldl (fun a b => a + f b) 0 : Nat) : Int)
  let lb := bs.filter (fun b => !b.ended)
  let s := g.blocks.foldl (fun s b => s.updBlk b (fun x => { x with ended := true })) s
  let s := useRegion s region (sum (fun b => b.rblk * b.warps) lb) (sum Block.bars lb) (sum Block.bytes bs) (sum Block.est lb) (-(lb.length : Int))
  let s := { s with work := { s.work with groups := mdel s.work.groups k, blocks := g.blocks.foldl mdel s.work.blocks,
                                          saved := mput s.work.saved n keep } }
  settleReady (match frame with | some f => addFrame s f | none => s)

/-- What the device reads and writes when it saves a group to some slots: the slot map and the images (21_work.md R372). -/
def saveAccs (s : State) (live slots : List Nat) : List DevAcc :=
  (live.zip slots).flatMap (fun q =>
    let b := s.blk q.1
    changeOf b.ctx (effSpool s b.region + q.2 / 8) 1 ++ [⟨b.ctx, slotVa s b.region q.2, imageSize s q.1, true⟩])

/-- SAVE_COMPLETE (21_work.md R370, R372); for a group that is being flushed, its blocks that have come to the end of a clause are
killed (21_work.md R369); a request that a stop has held back is handled (11_traps.md R214). -/
def execSaveComplete (group : Nat) (s : State) : Result :=
  match mfind s.work.groups group with
  | none => .next s
  | some g =>
    match g.pre, s.task g.task with
    | some p, some t =>
      let live := liveBlocks s g
      if p.way = 3 then .next (flushBlocks s g)
      else if p.way = 4 then .next (takeRequest s group g p)
      else if (p.way != 1 && p.way != 2) || !live.all (fun b => blockQuiet s b p.late) then .next s
      else
        let b := s.blk (live.headD 0)
        if poolCorrupt s b.ctx b.region then .next (deviceError s)
        else
        let slots := freeSlots s b.ctx b.region live.length
        if live.length ≤ slots.length then .next (devTurn s (saveAccs s live slots) (fun s => saveGroup s group g p t slots))
        else if p.watchdog.isSome then
          if p.way = 2 then .next s
          else .next (hostError (s.setGroup group { g with pre := some { p with way := 2 } }) 4 g.cluster t.ctx 2 t.tcb b.no)
        else
          let s := s.setGroup group { g with pre := some { p with way := 0, yield := [] } }
          .next (p.yield.foldl (fun s y => releaseYield s y 0) s)
    | _, _ => .next s

/-- RLD_SAVE_TIMEOUT (21_work.md R371). -/
def execRldSaveTimeout (group : Nat) (s : State) : Result :=
  match mfind s.work.groups group with
  | some g =>
    match g.pre with
    | some p =>
      if (p.way == 1 || p.way == 2) && decide (p.since + 50000 ≤ s.plat.time) then
        .next (s.setGroup group { g with pre := some { p with late := true } })
      else .next s
    | none => .next s
  | none => .next s

/-- The interval of a block that has expired, as a watchdog frame's detail (21_work.md R375, R376). -/
def expired (s : State) (b : Block) : Option Nat :=
  let ran := ranFor s b
  if b.prog ≠ 0 then (if b.progress + 1000 * b.prog < ran then some (b.prog % 2 ^ 31) else none)
  else if b.runlim ≠ 0 then (if 1000 * b.runlim < ran then some (2 ^ 31 + b.runlim % 2 ^ 31) else none)
  else none

/-- WATCHDOG_EXPIRE (21_work.md R375, R376). -/
def execWatchdogExpire (block : Nat) (s : State) : Result :=
  let b := s.blk block
  match (if b.ended then none else expired s b), mfind s.work.groups b.grp with
  | some detail, some g =>
    let busy := match g.pre with | some p => p.way != 0 | none => false
    if busy || b.isReplay then .next s else .next (requestSave s b.grp g (some (block, detail)) [])
  | _, _ => .next s

/-! ### Restoring (21_work.md R374) -/

/-- A saved block's storage and warps as an image holds them. -/
structure Restored where
  blk : Block
  tag : Nat
  warps : List (Nat × Warp × List (List Byte))
  core : Core
  deriving DecidableEq, Repr

/-- The parts of an image. -/
def parseImage (b : List Byte) (x : Block) (base : Warp) : Restored :=
  let f (o n : Nat) : Nat := fieldAt b o n
  let ws := (List.range 32).filterMap (fun i =>
    let o := f (0x20 + 4 * i) 4
    if o = 0 then none else some (i, parseWarp (b.drop o) { base with widx := i }))
  let at0 := f 0xA0 4
  let at1 := f 0xA4 4
  let at2 := f 0xA8 4
  let at3 := f 0xAC 4
  let imgs := (List.range 64).filterMap (fun i => if f (at3 + 262144 + 8 * i + 4) 4 = 0 then none
    else some (f (at3 + 262144 + 8 * i) 4, f (at3 + 262144 + 8 * i + 4) 4))
  let wbuf := if x.matrix then fillMap 0 Config.wbufBytes (fun i => b.getD (at3 + 65536 + i) 0) else []
  { tag := f 0x1C 1
    warps := ws
    core := { tiles := if x.matrix then fillMap 0 16384 (fun i => BitVec.ofNat 32 (f (at3 + 4 * i) 4)) else [], wbuf := wbuf
              images := if x.matrix then imgs.map (fun i => imageAt wbuf i.1 i.2) else [] }
    blk := { x with
      spad := fillMap 0 x.spadLen (fun i => b.getD (at0 + i) 0)
      slices := (List.range (32 * x.warps)).foldl (fun m i => msetRange 0 m (2048 * i) ((b.drop (at1 + x.lane * i)).take x.lane)) []
      area := (List.range x.bars).map (fun i => (i, parseObj ((b.drop (at2 + 32 * i)).take 32))) } }

/-- Whether an image is one that R372, R373 and R96 to R99 admit: written again it gives the same bytes, and its warps are lawful. -/
def Restored.lawful (r : Restored) (b : List Byte) (tcb : Nat) : Bool :=
  let recs : SMap (List Byte) := r.warps.foldl (fun m p => mput m p.1 (warpRecord p.2.1 p.2.2)) []
  imageOf r.blk tcb r.tag recs r.core == b && !r.warps.isEmpty &&
  r.warps.all (fun p => p.2.1.controlOk && decide (1 ≤ p.2.1.alloc) && decide (p.2.1.alloc ≤ 16) && decide (p.2.2.length ≤ 6) &&
    decide (p.1 < r.blk.warps)) &&
  decide (r.warps.foldl (fun a p => a + p.2.1.alloc) 0 ≤ r.blk.rblk * r.blk.warps)

/-- A replay record is issued again as a replay of its own (21_work.md R374): its destination lanes are poisoned until it writes them
(R371). -/
def reissueReplay (s : State) (core wslot : Nat) (b : List Byte) : State :=
  let head : Word := BitVec.ofNat 32 (fieldAt b 0 4)
  let lit : Word := BitVec.ofNat 32 (fieldAt b 4 4)
  let mask : Word := BitVec.ofNat 32 (fieldAt b 8 4)
  let peer : Word := BitVec.ofNat 32 (fieldAt b 12 4)
  let base := fieldAt b 16 8
  let baddr : Word := BitVec.ofNat 32 (fieldAt b 24 4)
  let w := s.warp core wslot
  match decode [head, lit] with
  | .error _ => s
  | .ok (i, _) =>
    let make (op : Nat) (d : VReg) (sc : Fin 8) : State :=
      let n := itemSize op lit
      let lanes := (lanesOf mask).map (fun l => (l, addOff base ((BitVec.ofNat 32 (fieldAt b (28 + 4 * l) 4)).toInt + lit.toInt), 0))
      let bar := match engBar s core w.blk mask baddr with | .ok r => r | .error _ => none
      let (id, s) := s.fresh
      let r : RWord := { core := core, wslot := wslot, live := true, ctx := w.ctx, op := op, vd := d.val, w := n, sc := sc.val, ord := 0,
                         lit := lit, lanes := lanes, bar := bar, baddr := baddr, base := base, todo := [(peer, mask)], out := 0,
                         worst := none, head := head }
      let s := s.updWarp core wslot (fun w =>
        { (groupRegs d.val n).foldl (fun w g => { w with poison := mset 0 w.poison g (w.poisoned g ||| mask) }) w with
          rwords := w.rwords ++ [id] })
      sendReplays (issueReplay s id r) core wslot
    match i with
    | .rldB32 d _ _ sc _ => make 0 d sc
    | .rldB64 d _ _ sc _ => make 1 d sc
    | .rldB128 d _ _ sc _ => make 2 d sc
    | _ => s

/-- What a split in state 3 of an image waits for: its BR word says it, a token for `join` and `call`, any entry for `bdiv`. Where the clause
cannot be fetched, the word issues again when any entry is free (05_control.md R102, R103, R105, R117, log entry 106). -/
def waitsFor (s : State) (core wslot : Nat) (e : Split) : Blocked :=
  if e.state ≠ 3 then .none
  else
    match fetchClause s core wslot e.pc with
    | .ok _ ws => if bitsOf (ws.getD e.word 0).toNat 24 8 = 0x12 then .entry else .token
    | _ => .entry

/-- The warps of a restored block start. -/
def restoreWarps (s : State) (b place : Nat) (g : Saved) (r : Restored) : State :=
  let core := (s.blk b).core
  r.warps.foldl (fun s p =>
    let ws := freeWslot s core (p.1 % 2)
    let ctrs := mget g.ctrs [] (32 * place + p.1)
    let w := { p.2.1 with blk := b, tag := r.tag, rank := 2 * (s.blk b).prio + 1, failed := mget g.failed [] (32 * place + p.1),
                          errs := (p.2.1.errs.zipIdx).map (fun e => { e.1 with ctr := ctrs.getD e.2 0 }) }
    let s := s.setWarp core ws w
    let s := s.updWarp core ws (fun w => { w with splits := w.splits.map (fun q => (q.1, { q.2 with on := waitsFor s core ws q.2 })) })
    p.2.2.foldl (fun s y => reissueReplay s core ws y) s) s

/-- A saved block is placed on a core: its storage is written; a rejected image kills the block as `fkill` 1 does, with its area abandoned
(21_work.md R374, 10_sync.md R200). -/
def restoreBlock (s : State) (core grp i : Nat) (t : Task) (n : Need) (x : Block) (slot : Option Nat) (wbad : List Nat) :
    State × Nat × Option Restored :=
  let (b, s) := s.fresh
  let y := { x with core := core, bslot := (freeBslot s core).getD 0, grp := grp, prio := effPrio s t.region }
  match slot with
  | none => (s.setBlk b y, b, none)
  | some k =>
    let va := slotVa s t.region k
    let len := (leNat ((devRead s t.ctx (va + 4) 4).getD []))
    let bytes := if len ≤ effSslot s t.region then (devRead s t.ctx va len).getD [] else []
    let r := parseImage bytes x { ctx := t.ctx }
    let s := markSlot s t.ctx t.region k false
    if r.lawful bytes t.tcb then
      let z := { r.blk with core := core, bslot := y.bslot, grp := grp, prio := y.prio, est := n.est, began := s.plat.time - x.began, idle := 0 }
      let s := if x.matrix then s.updCore core (fun c => { c with tiles := r.core.tiles, wbuf := r.core.wbuf, images := r.core.images,
                                                                        wbad := wbad, area := [] }) else s
      (s.setBlk b z, b, some r)
    else
      let s := hostError s 5 (coreCluster core) t.ctx 0 t.tcb x.no
      let s := match s.task i with
        | some u => tcbCount (s.setTask i { u with failed := true }) u 0x4C 1
        | none => s
      let s := dropSelected s x
      let area := (List.range x.bars).map (fun i => (i, ({ exparr := x.warps, ab := true } : BarObj)))
      ((returnTaken s x).setBlk b { y with ended := true, killed := true, area := area }, b, none)

/-- The objects on the foreign lists of a rejected block's warps are abandoned; those in the group's areas are found by the blocks placed
(10_sync.md R200, 21_work.md R374). -/
def abandonKept (s : State) (blocks : List Nat) (l : List ObjRef) : State :=
  (l.map (fun r => match r with
    | .area q o => ObjRef.area (blocks.getD q 0) o
    | .store k o => ObjRef.store k o)).foldl abandonObj s

/-- A saved group is placed whole on a rectangle, every area before any of its warps starts (21_work.md R374). -/
def restoreGroup (s : State) (cluster x0 y0 k : Nat) (g : Saved) (i : Nat) (t : Task) (n : Need) : State :=
  let (gk, s) := s.fresh
  let items := ((rectCores cluster x0 y0 g.w g.h).zip (g.blocks.zip g.slots)).zipIdx
  let (s, out) := items.foldl (fun (a : State × List (Nat × Option Restored)) p =>
    let (s, b, r) := restoreBlock a.1 p.1.1 gk i t n p.1.2.1 p.1.2.2 (mget g.wbad [] p.2)
    (s, a.2 ++ [(b, r)])) (s, [])
  let s := (out.zipIdx).foldl (fun s p => if p.1.2.isNone then abandonKept s (out.map Prod.fst) (mget g.foreign [] p.2) else s) s
  let grp : Group := { cluster := cluster, x0 := x0, y0 := y0, w := g.w, h := g.h, task := i, idx := g.idx, blocks := out.map Prod.fst,
                       pre := none }
  let s := { s with work := { s.work with saved := mdel s.work.saved k } }
  let s := s.setGroup gk grp
  let bs := grp.blocks.map s.blk
  let lb := bs.filter (fun b => !b.ended)
  let sum (f : Block → Nat) (l : List Block) : Int := ((l.foldl (fun a b => a + f b) 0 : Nat) : Int)
  let s := useRegion s t.region (sum (fun b => b.rblk * b.warps) lb) (sum Block.bars lb) (sum Block.bytes bs) (sum Block.est lb) lb.length
  let s := match s.task i with | some u => s.setTask i { u with st := 2, due := false, first := none, waits := none } | none => s
  let s := (out.zipIdx).foldl (fun s p => match p.1.2 with | some r => restoreWarps s p.1.1 p.2 g r | none => s) s
  endGroup s gk

/-! ### The dispatcher's decision (21_work.md R366) -/

/-- What the device reads and writes when it places a task's next group: the TCB, the parameter words, the command area, and the images of a
saved group (21_work.md R358, R360, R374). -/
def placeAccs (s : State) (t : Task) (x : Tcb) (g : NextGroup) : List DevAcc :=
  changeOf t.ctx t.tcb 128 ++
  (match g with
  | .fresh _ => if 8 < x.sregs then readOf t.ctx x.param (4 * (x.sregs - 8)) else []
  | .saved k =>
    match mfind s.work.saved k with
    | some v => v.slots.flatMap (fun o => match o with
      | some j =>
        let va := slotVa s t.region j
        readOf t.ctx va (min (max 8 (devRead32 s t.ctx (va + 4))) (effSslot s t.region))
      | none => [])
    | none => [])

/-- A task's next group is placed at a place where it fits; a corrupt extent table under its images is a device error
(09_extents.md R175). -/
def placeNext (s : State) (cluster i : Nat) (t : Task) (x : Tcb) (n : Need) (g : NextGroup) (p : Nat × Nat) : State :=
  devTurn s (placeAccs s t x g) (fun s =>
    match g with
    | .fresh k => placeGroup s cluster p.1 p.2 i t x k n
    | .saved k =>
      if poolCorrupt s t.ctx t.region then deviceError s
      else
        match mfind s.work.saved k with
        | some v => restoreGroup s cluster p.1 p.2 k v i t n
        | none => s)

/-- The decision over a list of ready tasks; pw is the priority that waits for energy (21_work.md R366). -/
def decideOver (s : State) (cluster : Nat) : Option Nat → List (Nat × Task) → State
  | _, [] => s
  | pw, (i, t) :: rest =>
    if pw.any (fun p => p != taskPrio s t) then s
    else
      let x := taskTcb s t
      let n := needOf s cluster t x
      match nextGroup s i t with
      | none => decideOver s cluster pw rest
      | some g =>
        let shape := groupShape s x g
        match fitting s cluster t.region n shape (groupNeeds s x n g) with
        | [] => decideOver s cluster pw rest
        | place :: _ =>
          let cost := min (mget s.plat.largest 0 cluster) (n.est * (shape.1 * shape.2))
          if mget s.plat.headroom 0 cluster < residentEst s cluster + cost then
            decideOver s cluster (some (pw.getD (taskPrio s t))) rest
          else
            placeNext s cluster i t x n g place

/-- The next cluster of a partition after one, ascending and then from its first. -/
def nextTurn (s : State) (part cluster : Nat) : Nat :=
  let cs := (List.range 4).filter (fun c => partOf s c == part)
  (cs.find? (fun c => decide (cluster < c))).getD (cs.headD 0)

/-- DISPATCH_DECISION (21_work.md R366): the dispatchers of a partition decide in turn. -/
def execDispatchDecision (cluster : Nat) (s : State) : Result :=
  let part := partOf s cluster
  let due := mget s.work.turn (nextTurn s part 4) part
  if s.plat.devErr ∨ 4 ≤ cluster ∨ cluster ≠ due then .next s
  else
    let s := { s with work := { s.work with turn := mput s.work.turn part (nextTurn s part cluster) } }
    let l := readyList s part
    let l := match l.find? (fun p => p.2.due) with | some d => [d] | none => l
    if mget s.plat.headroom 0 cluster = 0 then .next s
    else .next (settleReady (decideOver s cluster none l))

end Sys2Proof.Machine
end

