-- ==== Sys2Proof/Machine/Shake.lean ====
section
/-! DEFINITION. SHAKE256, the hash of the boot sequence and of a quote (23_platform.md R398, R401). The spec names it and does not define
it: PRESUMED, as FIPS 202 defines it (log entry 59). The 1,600 bits of its state are one bit vector: lane (x, y) stands at bit 64 (x + 5 y),
and the five lanes of one y are a plane of 320 bits. -/
namespace Sys2Proof.Machine

/-- A plane of the state. -/
def spongePlane (a : BitVec 1600) (y : Nat) : BitVec 320 := a.extractLsb' (320 * y) 320

/-- The state of five planes. -/
def ofPlanes (f : Nat → BitVec 320) : BitVec 1600 := f 4 ++ f 3 ++ f 2 ++ f 1 ++ f 0

/-- Every lane of a plane turned left by one bit. -/
def turnLanes (p : BitVec 320) : BitVec 320 :=
  let q (x : Nat) : BitVec 64 := (p.extractLsb' (64 * x) 64).rotateLeft 1
  q 4 ++ q 3 ++ q 2 ++ q 1 ++ q 0

/-- Step θ: each column takes the parities of its two neighbours. -/
def stepTheta (a : BitVec 1600) : BitVec 1600 :=
  let par := [1, 2, 3, 4].foldl (fun p y => p ^^^ spongePlane a y) (spongePlane a 0)
  let d := par.rotateLeft 64 ^^^ turnLanes (par.rotateRight 64)
  ofPlanes (fun y => spongePlane a y ^^^ d)

/-- The walk of steps ρ and π: it moves lane (x, y) to (y, 2x + 3y), the n-th of its moves turning the lane by n (n + 1) / 2 bits. A move is
its two lane numbers and its turn. -/
def laneMoves : Nat → Nat → Nat → Nat → List (Nat × Nat × Nat)
  | 0, _, _, _ => []
  | k + 1, n, x, y =>
    let v := (2 * x + 3 * y) % 5
    (x + 5 * y, y + 5 * v, n * (n + 1) / 2 % 64) :: laneMoves k (n + 1) y v

/-- Steps ρ and π; lane 0 stays. -/
def stepWalk (a : BitVec 1600) : BitVec 1600 :=
  (laneMoves 24 1 1 0).foldl
    (fun b m => b ||| ((a.extractLsb' (64 * m.1) 64).rotateLeft m.2.2).zeroExtend 1600 <<< (64 * m.2.1))
    (a &&& BitVec.ofNat 1600 (2 ^ 64 - 1))

/-- Step χ: each lane with its two successors in the plane. -/
def stepChi (a : BitVec 1600) : BitVec 1600 :=
  ofPlanes (fun y =>
    let p := spongePlane a y
    p ^^^ (p.rotateRight 128 &&& ~~~p.rotateRight 64))

/-- The bits of step ι come from a shift register of 8 bits, x^8 + x^6 + x^5 + x^4 + 1: its state after a number of steps. -/
def shiftReg : Nat → Nat
  | 0 => 1
  | k + 1 => let r := 2 * shiftReg k; if r < 256 then r else (r - 256) ^^^ 0x71

/-- Step ι of a round: seven bits of the register at the bits 2^j − 1 of lane 0. -/
def iotaWord (round : Nat) : Nat :=
  (List.range 7).foldl (fun w j => w + shiftReg (7 * round + j) % 2 * 2 ^ (2 ^ j - 1)) 0

/-- The permutation: 24 rounds. -/
def permute (a : BitVec 1600) : BitVec 1600 :=
  (List.range 24).foldl (fun a n => stepChi (stepWalk (stepTheta a)) ^^^ BitVec.ofNat 1600 (iotaWord n)) a

/-- Bytes of a block of SHAKE256. -/
def shakeRate : Nat := 136

/-- A message with its suffix and padding: the first byte after it takes 0x1F and the last byte of the block 0x80. -/
def shakePad (m : List Byte) : List Byte :=
  let k := shakeRate - m.length % shakeRate
  m ++ leBytes k (0x1F + 2 ^ (8 * k - 1))

/-- Some blocks of a padded message are taken in. -/
def shakeAbsorb : Nat → List Byte → BitVec 1600 → BitVec 1600
  | 0, _, a => a
  | n + 1, m, a => shakeAbsorb n (m.drop shakeRate) (permute (a ^^^ BitVec.ofNat 1600 (leNat (m.take shakeRate))))

/-- Some blocks of output. -/
def shakeSqueeze : Nat → BitVec 1600 → List Byte
  | 0, _ => []
  | n + 1, a => leBytes shakeRate a.toNat ++ shakeSqueeze n (permute a)

/-- Bytes of a digest (PRESUMED: SHAKE256 has any number, log entry 59). -/
def digestBytes : Nat := 64

/-- Bytes of the seed of a Falcon-1024 key pair (PRESUMED, log entry 59). -/
def seedBytes : Nat := 48

/-- SHAKE256 of a message, with n bytes of output. -/
def shake256 (m : List Byte) (n : Nat) : List Byte :=
  let p := shakePad m
  (shakeSqueeze ((n + shakeRate - 1) / shakeRate) (shakeAbsorb (p.length / shakeRate) p 0)).take n

end Sys2Proof.Machine
end

