-- ==== Sys2Proof/Machine/Mgmt.lean ====
section
/-! DEFINITION. The management ring and its commands (23_platform.md R393, R394), the create and the retire of extents
(09_extents.md R173, R174, R178). -/
namespace Sys2Proof.Machine

/-! ### The ring (23_platform.md R393) -/

/-- Statuses of commands. -/
def stDone : Nat := 0
def stInUse : Nat := 1
def stInvalid : Nat := 2
def stNoRoom : Nat := 3
def stNoExtent : Nat := 4
def stWrongState : Nat := 5
def stUnknown : Nat := 0xFF

/-- PA of the next command. -/
def mqSlot (s : State) : Nat := s.plat.mqroot + 64 * (s.plat.mqhead % 2 ^ s.plat.mqn)

/-- Whether the ring holds a command that may be performed: from STATE 3 on, one at a time (23_platform.md R393). A device error stops cores
and regions, not the management ring (11_traps.md R221). -/
def mqReady (s : State) : Bool :=
  decide (3 ≤ s.plat.boot) && s.plat.failed == 0 && s.plat.mqhead != s.plat.mqtail && s.plat.retiring.isNone

/-- A command completes: its status is written and mqhead passes it. -/
def mqDone (s : State) (status : Nat) : State :=
  let s := pwrite s (mqSlot s + 1) [BitVec.ofNat 8 status]
  { s with plat := { s.plat with mqhead := (s.plat.mqhead + 1) % 2 ^ 32 } }

/-- An operand: 8 bytes at an offset of the command. -/
def opnd (c : List Byte) (off : Nat) : Nat := leNat ((c.drop off).take 8)

/-- A field of an operand. -/
def opndBits (c : List Byte) (off lo n : Nat) : Nat := bitsOf (opnd c off) lo n

/-- Whether every byte that a command's layout does not name is 0 (23_platform.md R393, R394); `named` lists the offsets and lengths of
its operands. -/
def unnamedZero (c : List Byte) (named : List (Nat × Nat)) : Bool :=
  (List.range 64).all (fun i => decide (i < 2) || named.any (fun p => decide (p.1 ≤ i) && decide (i < p.1 + p.2)) || c.getD i 0 == 0)

/-- A command of a code that completes at once: its effect, or a status other than done and no effect (23_platform.md R393). -/
def command (s : State) (code : Nat) (named : List (Nat × Nat)) (act : List Byte → Except Nat State) : Result :=
  let c := pread s (mqSlot s) 64
  if !mqReady s ∨ (c.getD 0 0).toNat ≠ code then .next s
  else if !unnamedZero c named then .next (mqDone s stInvalid)
  else
    match act c with
    | .ok s' => .next (mqDone s' stDone)
    | .error st => .next (mqDone s st)

/-! ### Extent create (23_platform.md R394 code 1) -/

/-- The rules of R173 for the protection part of an image. -/
def imageOk173 (d : Desc) (b : List Byte) (xid : Nat) : Bool :=
  let e := d.ent
  let q (i : Nat) := leNat ((b.drop (8 * i)).take 8)
  bitsOf (q 0) 56 7 == 0 && bitsOf (q 1) 49 2 == 0 && bitsOf (q 2) 56 8 == 0 && bitsOf (q 3) 62 2 == 0 && bitsOf (q 4) 0 16 == 0 &&
  decide (e.cls ≤ 5) && decide (1 ≤ e.len) && decide (e.len ≤ 2 ^ 48) && decide (e.base + e.len ≤ 2 ^ 56) && e.xid == xid &&
  (!e.il || e.home == 0) && (e.al || e.canon == 0) && (e.sv || e.sbase == 0) &&
  (if e.cls == 1 then decide (0 < e.bound) && decide (e.bound < 0x7F800000) else e.bound == 0)

/-- Whether two ranges of addresses meet. -/
def extMeets (a b : Desc) : Bool := meets a.ent.base (a.ent.base + a.ent.len) b.ent.base (b.ent.base + b.ent.len)

/-- The rules of R174: an alias lies inside one non-alias extent of its context, and no two extents of a context overlap. -/
def imageOk174 (s : State) (d : Desc) : Bool :=
  let mine := (s.mem.exts.filter (fun e => e.ctx == d.ent.ctx)).map (extDesc s)
  mine.all (fun x => !extMeets x d) &&
  (!d.ent.al || mine.any (fun x => !x.ent.al && decide (x.ent.base ≤ d.ent.canon) &&
    decide (d.ent.canon + d.ent.len ≤ x.ent.base + x.ent.len)))

/-- Whether an extent's placement is the host's, as its image gives it (09_extents.md R174). -/
def hostPlaced (d : Desc) : Bool := !d.ent.al && (d.ent.cls == 2 || d.ent.cls == 3)

/-- The placement an image gives for host memory may be taken: PA[51] set, a multiple of 32, apart from every other extent. -/
def hostPlaceOk (s : State) (d : Desc) : Bool :=
  decide (Config.hostBase ≤ d.pl.off) && decide (d.pl.off + d.ent.len ≤ Config.paEnd) && d.pl.off % 32 == 0 &&
  (usedRanges s).all (fun u => !meets d.pl.off (d.pl.off + d.ent.len) u.1 u.2.1)

/-- The 64 bytes of a new descriptor (09_extents.md R173, reset column). -/
def newDescBytes (b : List Byte) (off : Nat) : List Byte :=
  leBytes 8 (leNat (b.take 8) % 2 ^ 63 + 2 ^ 63) ++ (b.drop 8).take 0x20 ++ leBytes 8 off ++ copies 16 0

/-- An index entry is inserted in order and the root entry counts it (09_extents.md R176; DEDUCED: the device keeps count and lowest,
log entry 58). -/
def indexInsert (s : State) (ctx base xid : Nat) : State :=
  let r := rootEntry s ctx
  let pos := ((List.range r.count).filter (fun i => decide (indexBase s r i < base))).length
  let tail := pread s (r.index + 16 * pos) (16 * (r.count - pos))
  let s := pwrite s (r.index + 16 * (pos + 1)) tail
  let s := pwrite s (r.index + 16 * pos) (leBytes 8 base ++ leBytes 8 xid)
  let a := s.plat.xroot + 32 * ctx
  let s := patch64 s (a + 0x10) 0 17 (r.count + 1)
  if pos = 0 then patch64 s (a + 0x18) 0 56 base else s

/-- The index entry of an extent is removed. -/
def indexRemove (s : State) (ctx base : Nat) : State :=
  let r := rootEntry s ctx
  match (List.range r.count).find? (fun i => indexBase s r i == base) with
  | none => s
  | some pos =>
    let tail := pread s (r.index + 16 * (pos + 1)) (16 * (r.count - pos - 1))
    let s := pwrite s (r.index + 16 * pos) (tail ++ copies 16 0)
    let a := s.plat.xroot + 32 * ctx
    let s := patch64 s (a + 0x10) 0 17 (r.count - 1)
    if pos ≠ 0 then s else patch64 s (a + 0x18) 0 56 (if r.count = 1 then 2 ^ 56 - 1 else indexBase s r 0)

/-- The descriptor and the index entry of a new extent are written at a placement (09_extents.md R178). -/
def createAt (s : State) (d : Desc) (b : List Byte) (off : Nat) : State :=
  let ctx := d.ent.ctx
  let pa := (rootEntry s ctx).desc + 64 * d.ent.xid
  let s := indexInsert (pwrite s pa (newDescBytes b off)) ctx d.ent.base d.ent.xid
  let e : LiveExt := { ctx := ctx, xid := d.ent.xid, desc := pa, len := d.ent.len, stage := 0, used := s.plat.time }
  { s with mem := { s.mem with exts := s.mem.exts ++ [e] } }

/-- Whether some host port runs CXL (23_platform.md R390). -/
def runsCxl (s : State) : Bool := (s.plat.image.map (fun m => m.cxlPorts.any (fun b => b))).getD false

/-- Extent create (23_platform.md R394). -/
def createExtent (s : State) (ctx xid img : Nat) : Except Nat State :=
  let b := pread s img 64
  let d := parseDesc ctx 0 b
  if !imageOk173 d b xid ∨ (liveExt s ctx xid).isSome ∨ !(rootEntry s ctx).v ∨ !imageOk174 s d ∨ (d.ent.cls = 2 ∧ !runsCxl s) then
    .error stInvalid
  else if d.ent.al then .ok (createAt s d b 0)
  else if hostPlaced d then (if hostPlaceOk s d then .ok (createAt s d b d.pl.off) else .error stInvalid)
  else
    match findHbm s d.ent.len ctx xid Config.paEnd [] with
    | some off => .ok (createAt { s with free := s.free + 1 } d b off)
    | none => .error stNoRoom

/-- EXTENT_CREATE. -/
def execExtentCreate (s : State) : Result :=
  command s 1 [(0x08, 4), (0x10, 8)] (fun c => createExtent s (opndBits c 0x08 0 16) (opndBits c 0x08 16 16) (opndBits c 0x10 0 52))

/-! ### Extent retire (09_extents.md R178) -/

/-- Whether an alias names an extent as canonical. -/
def aliased (s : State) (d : Desc) : Bool :=
  s.mem.exts.any (fun e =>
    let x := (extDesc s e).ent
    e.ctx == d.ent.ctx && x.al && decide (d.ent.base ≤ x.canon) && decide (x.canon < d.ent.base + d.ent.len))

/-- EXTENT_RETIRE (09_extents.md R178 steps 1 and 2): refused while an alias names it; else its ECB entries are invalidated everywhere, and
later checks no longer find it. The command completes with RETIRE_ACCESSES_DRAINED. -/
def execExtentRetire (s : State) : Result :=
  let c := pread s (mqSlot s) 64
  let ctx := opndBits c 0x08 0 16
  let xid := opndBits c 0x08 16 16
  if !mqReady s ∨ (c.getD 0 0).toNat ≠ 2 then .next s
  else if !unnamedZero c [(0x08, 4)] then .next (mqDone s stInvalid)
  else
    match liveExt s ctx xid with
    | none => .next (mqDone s stNoExtent)
    | some e =>
      if aliased s (extDesc s e) then .next (mqDone s stInUse)
      else
        let exts := s.mem.exts.map (fun (x : LiveExt) => if x.ctx == ctx && x.xid == xid then { x with stage := 1 } else x)
        let cores := s.cores.map (fun (p : Nat × Core) => (p.1, { p.2 with ecb := p.2.ecb.filter (fun x => !(x.ctx == ctx && x.xid == xid)) }))
        .next { s with
          cores := cores
          mem := { s.mem with exts := exts }
          plat := { s.plat with retiring := some (ctx, xid) } }

/-- Whether a matrix word that has issued and not completed reads a byte of an extent, the origin of its scales among them: its check has
passed (19_matrix.md R340 to R342). -/
def mopMeets (s : State) (d : Desc) (o : MOp) : Bool :=
  let x (k : Nat) : Nat := (o.args.getD k 0).toNat
  let src := match (if 0xC5 ≤ o.code ∧ o.code ≤ 0xC7 then parseEng (x 0 + 2 ^ 32 * x 1) else none), o.img with
    | some (.glob va), some i => (wbldBytes va (x 2) i).map (· % 2 ^ 64)
    | _, _ => []
  let org := match mopOrg o with | some (a, _) => [a] | none => []
  (s.blk o.blk).ctx == d.ent.ctx && (src ++ org ++ mopScaleVas s o).any (fun a =>
    decide (d.ent.base ≤ a) && decide (a < d.ent.base + d.ent.len))

/-- Whether an access that passed its check against an extent has not completed: a request, a matrix word, or a message about one of its
bounded lines (09_extents.md R178 step 3). -/
def extBusy (s : State) (d : Desc) : Bool :=
  s.mem.reqs.any (fun r => r.2.ctx == d.ent.ctx && r.2.parts.any (fun p => p.xid == d.ent.xid && r.2.space == .global)) ||
  s.work.mops.any (fun o => mopMeets s d o.2) ||
  (!d.ent.al && s.mem.mail.any (fun m => lineCtx m.2.line == d.ent.ctx && decide (d.ent.base < lineVa m.2.line + 128) &&
    decide (lineVa m.2.line < d.ent.base + d.ent.len)))

/-- Lines of an extent that a cache, an owner or the bounded accounting knows. -/
def extLines (s : State) (d : Desc) : List Nat :=
  let inExt (l : Nat) : Bool :=
    lineCtx l == d.ent.ctx && decide (d.ent.base < lineVa l + 128) && decide (lineVa l < d.ent.base + d.ent.len)
  ((mkeys s.mem.l2).map (fun k => lineKey (k / 2 ^ 56) (k % 2 ^ 56)) ++ mkeys s.mem.owner ++ mkeys s.mem.moesi ++ mkeys s.mem.cxl ++
    mkeys s.mem.bnd).eraseDups.filter inExt

/-- Dirty bytes of an extent at home. -/
def extDirty (s : State) (d : Desc) : Bool :=
  s.mem.l2.any (fun p => decide (byteKey d.ent.ctx d.ent.base ≤ p.1) && decide (p.1 < byteKey d.ent.ctx (d.ent.base + d.ent.len)))

/-- A line of an extent is drained, written back and dropped in every cache (09_extents.md R178 step 4). -/
def retireLine (s : State) (d : Desc) (line : Nat) : State :=
  let s := drainLine s line true
  let s := writebackLine (dropOwner s line) line
  if extDirty s d then s
  else { s with mem := { s.mem with bnd := mdel s.mem.bnd line, moesi := mdel s.mem.moesi line, cxl := mdel s.mem.cxl line } }

/-- The cached bytes of an extent are dropped in every core, code included, and the no-share marks of its lines end. -/
def dropExtL1 (s : State) (d : Desc) : State :=
  let lo := byteKey d.ent.ctx d.ent.base
  let hi := byteKey d.ent.ctx (d.ent.base + d.ent.len)
  let out (k : Nat) : Bool := !(decide (lo ≤ k) && decide (k < hi))
  let cores := s.cores.map (fun (p : Nat × Core) => (p.1,
    { p.2 with l1 := p.2.l1.filter (fun x => out x.1)
               icache := p.2.icache.filter (fun x => out x.1)
               noShare := p.2.noShare.filter (fun l => !(decide (lo / 128 ≤ l) && decide (l ≤ (hi - 1) / 128))) }))
  { s with cores := cores }

/-- The extent is removed: index entry, descriptor, placement (09_extents.md R178 step 6), and its command completes. -/
def removeExtent (s : State) (e : LiveExt) (d : Desc) : State :=
  let s := pwrite (indexRemove s e.ctx d.ent.base) e.desc (copies 64 0)
  let exts := s.mem.exts.filter (fun x => !(x.ctx == e.ctx && x.xid == e.xid))
  let cores := s.cores.map (fun (p : Nat × Core) => (p.1, { p.2 with ecb := p.2.ecb.filter (fun x => !(x.ctx == e.ctx && x.xid == e.xid)) }))
  mqDone { s with cores := cores, mem := { s.mem with exts := exts }, plat := { s.plat with retiring := none } } stDone

/-- RETIRE_ACCESSES_DRAINED (09_extents.md R178 steps 3 to 6): once its accesses have completed, and no owner is performing an atomic on one
of its lines (12_atomics.md R235), the extent's lines are written back and
dropped; a slide is stopped after the close of its step; then the extent is removed. -/
def execRetireAccessesDrained (ctx xid : Nat) (s : State) : Result :=
  match liveExt s ctx xid with
  | none => .next s
  | some e =>
    let d := extDesc s e
    if s.plat.retiring ≠ some (ctx, xid) ∨ extBusy s d ∨ (!d.ent.al && (extLines s d).any (lineBusy s)) then .next s
    else
      let s := if d.ent.al then s else dropExtL1 ((extLines s d).foldl (fun s l => retireLine s d l) s) d
      if !d.ent.al && extDirty s d then .next s
      else
        match slideOf s ctx xid with
        | none => .next (removeExtent s e d)
        | some l => .next (if l.phase = 0 then removeExtent (stopSlide s l) e d else setSlide s { l with stop := true })

/-! ### Commands 3 to 6 (23_platform.md R394) -/

/-- Host window write (23_platform.md R394 code 3, 14_prog_frontier.md R280). -/
def writeWindow (s : State) (c : List Byte) : Except Nat State :=
  let n := opndBits c 0x08 0 10
  let w : HostWin :=
    { space := opndBits c 0x08 19 1 == 1
      r := opndBits c 0x08 17 1 == 1
      w := opndBits c 0x08 18 1 == 1
      base := opnd c 0x10
      len := opnd c 0x18
      ctx := opndBits c 0x20 0 16
      xid := opndBits c 0x20 16 16
      o0 := opnd c 0x28 }
  let valid := opndBits c 0x08 16 1 == 1
  let overlap := s.plat.wins.any (fun p => p.1 != n && p.2.space == w.space && meets w.base (w.base + w.len) p.2.base (p.2.base + p.2.len))
  if (valid && overlap) || (!w.space && !runsCxl s) then .error stInvalid
  else .ok { s with plat := { s.plat with wins := if valid then mput s.plat.wins n w else mdel s.plat.wins n } }

/-- HOST_WINDOW_WRITE. -/
def execHostWindowWrite (s : State) : Result :=
  command s 3 [(0x08, 3), (0x10, 8), (0x18, 8), (0x20, 4), (0x28, 8)] (writeWindow s)

/-- The cluster-store window that a new region gives itself reads 0 (07_memory.md R144). -/
def clearStore (s : State) (base len : Nat) : State :=
  { s with mem := { s.mem with cst := s.mem.cst.filter (fun p =>
      !(decide (base ≤ p.1 % Config.cstBytes) && decide (p.1 % Config.cstBytes < base + len))) } }

/-- RCB write (23_platform.md R394 code 4, 21_work.md R356). -/
def writeRcb (s : State) (pa img : Nat) : Except Nat State :=
  let b := pread s img 128
  let fresh := !s.work.rcbs.contains pa
  let ok := rcbReservedOk b && pa % 128 == 0 && pa != 0 && decide (pa + 128 ≤ Config.hbmBytes) &&
    decide (bitsOf (leNat ((b.drop 0x30).take 8)) 32 26 ≤ 2 ^ 25)
  if !ok then .error stInvalid
  else
    let s := pwrite s pa (b.take 0x50)
    if !fresh then .ok s
    else
      let s := pwrite s (pa + 0x50) (copies 0x30 0)
      let s := if bitsOf (rcbMask s pa) 5 1 == 1 then clearStore s (effCsBase s pa) (effCsLen s pa) else s
      .ok { s with work := { s.work with rcbs := pa :: s.work.rcbs } }

/-- RCB_WRITE. -/
def execRcbWrite (s : State) : Result :=
  command s 4 [(0x08, 8), (0x10, 8)] (fun c => writeRcb s (opndBits c 0x08 0 52) (opndBits c 0x10 0 52))

/-- Membership table entry (23_platform.md R394 code 5, 15_remote.md R282, R307): an entry that is cleared, or that takes another
incarnation, removes the member that it held. -/
def writeMember (s : State) (c : List Byte) : State :=
  let q := opndBits c 0x08 0 12
  let valid := opndBits c 0x08 16 1 == 1
  let inc := opndBits c 0x08 32 16
  let old := mfind s.fab.members q
  let s := { s with fab := { s.fab with members := if valid then mput s.fab.members q inc else mdel s.fab.members q } }
  let s := if opndBits c 0x08 17 1 == 1 then { s with fab := { s.fab with self := q, inc := inc } } else s
  if old.isSome && old != (if valid then some inc else none) then memberRemoved s q else s

/-- MEMBERSHIP_TABLE_ENTRY. -/
def execMembershipTableEntry (s : State) : Result := command s 5 [(0x08, 8)] (fun c => .ok (writeMember s c))

/-- Group table entry (23_platform.md R394 code 6, 15_remote.md R294). -/
def writeGroup (s : State) (c : List Byte) : State :=
  let g := opndBits c 0x08 0 10
  let map := pread s (opndBits c 0x10 0 52) 512
  let members := (List.range 4096).filter (fun n => bitsOf (map.getD (n / 8) 0).toNat (n % 8) 1 == 1)
  let e : FGroup := { multicast := opndBits c 0x08 17 1 == 1, members := members }
  { s with fab := { s.fab with groups := if opndBits c 0x08 16 1 == 1 then mput s.fab.groups g e else mdel s.fab.groups g } }

/-- GROUP_TABLE_ENTRY. -/
def execGroupTableEntry (s : State) : Result := command s 6 [(0x08, 3), (0x10, 8)] (fun c => .ok (writeGroup s c))

/-! ### Commands 7 to 9 -/

/-- The answer a command names: 0 resume, 1 skip, 2 kill with its unit. -/
def answerOf (a unit : Nat) : Option Answer :=
  match a, unit with
  | 0, _ => some .resume
  | 1, _ => some .skip
  | 2, 0 => some .killWarp
  | 2, 1 => some .killBlock
  | 2, 2 => some .killRegion
  | _, _ => none

/-- FAULT_FRAME_ANSWER (23_platform.md R394 code 7, 11_traps.md R217). -/
def execFaultFrameAnswer (s : State) : Result :=
  command s 7 [(0x08, 8), (0x10, 4), (0x18, 2)] (fun c =>
    let dom := opndBits c 0x08 0 52
    let seq := opndBits c 0x10 0 32
    match s.work.frames.find? (fun p => p.2.dom == dom && p.2.seq == some seq && !p.2.answered),
        answerOf (opndBits c 0x18 0 2) (opndBits c 0x18 8 2) with
    | some (i, _), some a => if (domainAt s dom).host then .ok (answerFrame s i a) else .error stInvalid
    | _, _ => .error stInvalid)

/-- The placed group that holds a block of a task that has not ended. -/
def residentGroup (s : State) (ctx tcb no : Nat) : Option Nat :=
  (s.work.groups.find? (fun p =>
    (match s.task p.2.task with
     | some t => t.ctx == ctx && t.tcb == tcb
     | none => false) && p.2.blocks.any (fun b => (s.blk b).no == no && !(s.blk b).ended))).map Prod.fst

/-- PREEMPTION_REQUEST (23_platform.md R394 code 8, 21_work.md R369). -/
def execPreemptionRequest (s : State) : Result :=
  command s 8 [(0x08, 2), (0x10, 8), (0x18, 4), (0x20, 4)] (fun c =>
    match residentGroup s (opndBits c 0x08 0 16) (opndBits c 0x10 0 56) (opndBits c 0x18 0 32) with
    | some k => .ok (preempt s k (opndBits c 0x20 0 32))
    | none => .error stInvalid)

/-- REGION_KILL (23_platform.md R394 code 9): as `fkill` 2. -/
def execRegionKill (s : State) : Result := command s 9 [(0x08, 8)] (fun c => .ok (settleFrames (killRegion s (opndBits c 0x08 0 52))))

/-! ### Commands 10 to 15 -/

/-- Bytes of a Falcon-1024 signature as the record holds it (PRESUMED, log entry 59). -/
def sigBytes : Nat := 1280

/-- The fields of a quote, in the order in which R401 names them: the nonce, the digests of the verified images and of the current
configuration, the time base, and the signature over all of these with the identity key (23_platform.md R401). -/
def quoteFields (s : State) (nonce : List Byte) : List (List Byte) :=
  let body := [nonce] ++ s.plat.digests ++ [shake256 (Config.settings ((s.plat.image.map BootImage.raw).getD [])) digestBytes, leBytes 8 s.plat.time]
  let sig := Config.falconSign s.plat.ident body.flatten
  body ++ [(List.range sigBytes).map (fun i => sig.getD i 0)]

/-- Fields laid out one after another in a record of n bytes, with gaps whose sizes and contents are free values. -/
def layOut (f : Nat) : Nat → List (List Byte) → List Byte
  | n, [] => (List.range n).map (fun i => Config.freeByte (f + (8192 - n) + i))
  | n, x :: r =>
    let rest := (x :: r).foldl (fun a y => a + y.length) 0
    let gap := Config.freeNat (f + n) % (n - rest + 1)
    (List.range gap).map (fun i => Config.freeByte (f + (8192 - n) + i)) ++ x ++ layOut f (n - gap - x.length) r

/-- A quote: a record of 8 KiB. The spec does not give the places of its fields, nor what its other bytes hold: free values (log entry 59). -/
def quoteBytes (s : State) (nonce : List Byte) : List Byte := (layOut (s.free + 1) 8192 (quoteFields s nonce)).take 8192

/-- ATTESTATION_QUOTE (23_platform.md R394 code 10). -/
def execAttestationQuote (s : State) : Result :=
  command s 10 [(0x08, 0x20), (0x28, 8)] (fun c =>
    let pa := opndBits c 0x28 0 52
    if paExists pa && paExists (pa + 8191) then
      .ok { pwrite s pa (quoteBytes s ((c.drop 8).take 32)) with free := s.free + 16384 }
    else .error stInvalid)

/-- ACCEPT_WORK (23_platform.md R394 code 11, R398): the fabric links train. -/
def execAcceptWork (s : State) : Result :=
  command s 11 [] (fun _ =>
    if s.plat.boot ≠ 3 ∨ s.plat.xroot = 0 ∨ s.plat.qroot = 0 then .error stWrongState
    else
      let links : SMap Link := (List.range 32).map (fun p => (p, { since := s.plat.time }))
      let s := { s with plat := { s.plat with boot := 4 }, fab := { s.fab with links := links } }
      .ok (logEvent s 4 4 0))

/-- DEMOTION_POOL (23_platform.md R394 code 12, 09_extents.md R187). -/
def execDemotionPool (s : State) : Result :=
  command s 12 [(0x08, 1), (0x10, 8), (0x18, 8)] (fun c =>
    let part := opndBits c 0x08 0 2
    let base := opndBits c 0x10 0 52
    let len := opnd c 0x18
    let old := mget s.mem.pools ⟨0, 0⟩ part
    if len % 4096 ≠ 0 ∨ (len ≠ 0 ∧ (base % 4096 ≠ 0 ∨ base < Config.hostBase ∨ Config.paEnd < base + len)) then .error stInvalid
    else if (usedRanges s).any (fun u => meets old.base (old.base + old.len) u.1 u.2.1) then .error stInUse
    else .ok { s with mem := { s.mem with pools := if len = 0 then mdel s.mem.pools part else mput s.mem.pools part ⟨base, len⟩ } })

/-- PIN_QUOTA (23_platform.md R394 code 13). -/
def execPinQuota (s : State) : Result :=
  command s 13 [(0x08, 2), (0x10, 8)] (fun c =>
    let ctx := opndBits c 0x08 0 16
    if opnd c 0x10 < pinnedBytes s ctx then .error stInUse
    else .ok { s with mem := { s.mem with quota := mset 0 s.mem.quota ctx (opnd c 0x10) } })

/-- AUDIT_SETTING (23_platform.md R394 code 14, 11_traps.md R225). -/
def execAuditSetting (s : State) : Result :=
  command s 14 [(0x08, 2)] (fun c =>
    let k := opndBits c 0x08 8 5
    if k < 4 ∨ 16 < k then .error stInvalid
    else .ok { s with plat := { s.plat with auditK := mput s.plat.auditK (opndBits c 0x08 0 2) k } })

/-- The sectors that receive bytes of an unreadable source sector take the poison mark (log entry 60). -/
def copyMarks (s : State) (src dst n : Nat) : State :=
  ((List.range n).filter (fun i => badSector s ((src + i) / 32))).foldl (fun s' i =>
    { s' with mem := { s'.mem with marks := mput s'.mem.marks ((dst + i) / 32) true } }) s

/-- PHYSICAL_COPY (23_platform.md R394 code 15): an operand that names a physical address without memory breaks its rule, and the command is
invalid (09_extents.md R179, 23_platform.md R393, log entry 60). -/
def execPhysicalCopy (s : State) : Result :=
  command s 15 [(0x08, 8), (0x10, 8), (0x18, 8)] (fun c =>
    let src := opndBits c 0x08 0 52
    let dst := opndBits c 0x10 0 52
    let n := opnd c 0x18
    if !(decide (1 ≤ n) && decide (n ≤ 2 ^ 20)) ∨ !(paExists src && paExists (src + n - 1) && paExists dst && paExists (dst + n - 1)) ∨
        (usedRanges s).any (fun u => meets dst (dst + n) u.1 u.2.1) then .error stInvalid
    else .ok (copyMarks (pwrite s dst (pread s src n)) src dst n))

/-- UNKNOWN_COMMAND (23_platform.md R393). -/
def execUnknownCommand (s : State) : Result :=
  let code := ((pread s (mqSlot s) 64).getD 0 0).toNat
  if mqReady s ∧ (code = 0 ∨ 15 < code) then .next (mqDone s stUnknown) else .next s

end Sys2Proof.Machine
end

