-- ==== Sys2Proof/Machine/Platform.lean ====
section
/-! DEFINITION. Reset, the boot sequence and the configuration image (23_platform.md R398 to R400), the power manager and the collective
throttle (R403, R404, 21_work.md R368), cooling (23_platform.md R405). -/
namespace Sys2Proof.Machine

/-! ### Reset and boot (23_platform.md R398) -/

/-- RESET: every register takes its reset value. The bytes of memory with their marks, and the board controller's monotonic counter, are
kept (log entry 61). -/
def execReset (s : State) : Result :=
  .next
    { State.reset with
      schedule := s.schedule
      focus := s.focus
      free := s.free
      mem := { State.reset.mem with bytes := s.mem.bytes, marks := s.mem.marks, soft := s.mem.soft }
      plat := { State.reset.plat with counter := s.plat.counter } }

/-- STATE[7:0] changes, with its event record (23_platform.md R397). -/
def bootTo (s : State) (n : Nat) : State := logEvent { s with plat := { s.plat with boot := n } } 4 n 0

/-- A failed step stops the sequence (23_platform.md R398). -/
def bootFail (s : State) (n : Nat) : State := { s with plat := { s.plat with failed := n } }

/-- A pseudo-channel takes its row-remap table from the image; one whose two copies fail their check is reloaded (11_traps.md R223,
23_platform.md R398, R399). -/
def loadRows (s : State) (m : BootImage) (t : RemapTable) : State :=
  let k := chanKey t.port t.pc
  match imageRows m t.port t.pc with
  | some rows => s.setChan k { s.chan k with rows := rows }
  | none => s.setChan k { s.chan k with copies := 0, reload := true, since := s.plat.time }

/-- What steps 2 and 3 take from the images verified: the digests of the other controllers' firmware and of the configuration, and the identity key's seed; the row-remap tables, clock limits and audit seeds.
Everything else is read from the image where it is used (23_platform.md R398, R399, R401, 11_traps.md R225). -/
def loadImage (s : State) (m : BootImage) : State :=
  let seed : Word := if m.auditSeed = 0 then 1 else m.auditSeed
  let s := m.remap.foldl (fun s t => loadRows s m t) s
  { s with plat := { s.plat with
      image := some m
      ident := shake256 Config.pufResponse seedBytes
      digests := s.plat.digests ++ m.others.map (shake256 · digestBytes) ++ [shake256 m.raw digestBytes]
      counter := m.version
      freq := (List.range 4).map (fun d => (d, m.freqMax))
      audit := (List.range 4).map (fun p => (p, seed)) } }

/-- What step 1 leaves: the digest of the firmware it has verified. -/
def takeFirmware (s : State) (m : BootImage) : State :=
  { s with plat := { s.plat with digests := [shake256 m.firmware digestBytes] } }

/-- BOOT_STEP (23_platform.md R398): the sequence starts, or its step completes or fails; the host's command ends step 3. -/
def execBootStep (img : BootImage) (s : State) : Result :=
  if s.plat.failed ≠ 0 then .next s
  else
    match s.plat.boot with
    | 0 => .next (bootTo s 1)
    | 1 => .next (if img.firmwareOk then bootTo (takeFirmware s img) 2 else bootFail s 1)
    | 2 => .next (if imageVerifies s img then bootTo (loadImage s img) 3 else bootFail s 2)
    | _ => .next s

/-! ### The power manager (23_platform.md R403, R404) -/

/-- Key of a group's proposals for a window. -/
def propKey (group window : Nat) : Nat := 2 ^ 64 * group + window

/-- The member number of a die of this package (log entry 63). -/
def dieMember (s : State) (die : Nat) : Nat := 4 * s.fab.self + die

/-- THROTTLE_PROPOSAL (21_work.md R368): another member's proposal for the window that begins at 10 µs × window, in steps of 100 MHz; one that
comes less than 20 µs before it does not count. The dies of this package form their own (log entry 63). -/
def execThrottleProposal (group member window mhz : Nat) (s : State) : Result :=
  if group = 0 ∨ 4096 ≤ group ∨ member / 4 = s.fab.self ∨ mhz < 1200 ∨ 2700 < mhz ∨ mhz % 100 ≠ 0 ∨
      10000 * window < s.plat.time + 20000 then .next s
  else .next { s with plat := { s.plat with props := s.plat.props ++ [(propKey group window, member, mhz / 100)] } }

/-- Watts of the package's limit: the design power, the inlet limit and the limit of hot stacks (23_platform.md R403, R405, R406). -/
def powerLimit (inlet hot : Nat) : Nat := min 3200 (min (3200 - 80 * (inlet - 55)) (3200 - hot))

/-- Whether a cluster holds work: a placed group, or a ready task or saved group of its partition (23_platform.md R403, log entry 62). -/
def holdsWork (s : State) (cluster : Nat) : Bool :=
  let part := partOf s cluster
  s.work.groups.any (fun g => g.2.cluster == cluster) ||
  s.work.tasks.any (fun t => t.2.part == part && waiting s t) ||
  s.work.saved.any (fun g => match s.task g.2.task with | some t => t.part == part | none => false)

/-- The headroom of a cluster in µJ (23_platform.md R403). -/
def headroomOf (s : State) (plim fixed cluster : Nat) : Nat :=
  let busy := ((List.range 4).filter (holdsWork s)).length
  if holdsWork s cluster then (10 * plim - fixed) / busy else 0

/-- Throttle groups of a die: those of the regions whose blocks it holds (21_work.md R368). -/
def dieGroups (s : State) (cluster : Nat) : List Nat :=
  (((s.work.blocks.filter (fun b => coreCluster b.2.core == cluster && !b.2.ended)).map (fun b => effThr s b.2.region)).filter
    (fun g => g != 0)).eraseDups

/-- A die's own step for the next window: one lower after a window above the limit, one higher after 8 windows in a row under 90 %
(23_platform.md R404). -/
def ownStep (top cur used plim under : Nat) : Nat :=
  if 10 * plim < used then max 12 (cur - 1) else if 8 ≤ under then min top (cur + 1) else cur

/-- Whether a member's proposal for a window has arrived. -/
def proposed (s : State) (key member : Nat) : Bool := s.plat.props.any (fun p => p.1 == key && p.2.1 == member)

/-- The result of a throttle group for a window: the lowest step proposed by its members. Each die of this package that is in the group is a
member; whether there is a member elsewhere whose proposal has not arrived is a free value (21_work.md R368, log entry 63). -/
def groupStep (s : State) (group window free : Nat) : Nat :=
  let key := propKey group window
  let mine := (List.range 4).filter (fun d => (dieGroups s d).contains group)
  let got := (s.plat.props.filter (fun p => p.1 == key)).map (fun p => p.2.2)
  if mine.any (fun d => !proposed s key (dieMember s d)) || Config.freeNat (free + group) % 2 == 1 then 12 else got.foldl min 27

/-- The step of a die: its own, or, in throttle groups, their lowest result in its place (21_work.md R368, 23_platform.md R404). -/
def dieStep (s : State) (window free : Nat) (own : Nat → Nat) (die : Nat) : Nat :=
  match dieGroups s die with
  | [] => own die
  | l => l.foldl (fun a g => min a (groupStep s g window free)) 27

/-- The proposals that the dies of this package send their groups at a window boundary: the step that each can hold, for the window that begins
20 µs later (21_work.md R368). -/
def ownProposals (s : State) (window : Nat) (own : Nat → Nat) : List (Nat × Nat × Nat) :=
  (List.range 4).flatMap (fun d => (dieGroups s d).map (fun g => (propKey g (window + 2), dieMember s d, own d)))

/-- A die takes its step, and a change is logged (23_platform.md R397). -/
def setStep (s : State) (die step : Nat) : State :=
  if mget s.plat.freq 0 die = step then s
  else logEvent { s with plat := { s.plat with freq := mput s.plat.freq die step } } 6 (die + 2 ^ 8 * step) 0

/-- ENERGY_WINDOW (23_platform.md R403 to R406, 21_work.md R368), once per window of 10 µs: P_lim, the headrooms and the frequency steps of
the window that begins. Windows count as in a row only when none between them was left out. -/
def execEnergyWindow (meas : EnergyMeas) (s : State) : Result :=
  let window := s.plat.time / 10000
  if s.plat.boot < 3 ∨ s.plat.failed ≠ 0 ∨ s.plat.window = some window then .next s
  else
    let hot := if s.mem.bands.any (fun b => decide (2 ≤ b.2)) then s.plat.hot + 100 else 0
    let plim := powerLimit meas.inlet hot
    let top := (s.plat.image.map BootImage.freqMax).getD 27
    let low := decide (10 * meas.package < 9 * (10 * plim))
    let row := s.plat.window.any (fun w => w + 1 == window)
    let under (d : Nat) : Nat := if low then (if row then mget s.plat.under 0 d else 0) + 1 else 0
    let own (d : Nat) : Nat := ownStep top (mget s.plat.freq 0 d) meas.package plim (under d)
    let steps := (List.range 4).map (fun d => (d, dieStep s window s.free own d))
    let heads := (List.range 4).map (fun c => (c, headroomOf s plim meas.fixed c))
    let s := { s with
      free := s.free + 4096
      plat := { s.plat with
        window := some window
        hot := hot
        headroom := heads.filter (fun p => p.2 != 0)
        largest := heads.foldl (fun m p => mset 0 m p.1 (max (mget m 0 p.1) p.2)) s.plat.largest
        under := ((List.range 4).map (fun d => (d, if 8 ≤ under d then 0 else under d))).filter (fun p => p.2 != 0)
        props := s.plat.props.filter (fun p => decide (window < p.1 % 2 ^ 64)) ++ ownProposals s window own } }
    .next (steps.foldl (fun s p => setStep s p.1 p.2) s)

/-- INLET_OVERTEMP (23_platform.md R405): an inlet at 60 °C or a junction at 110 °C. -/
def execInletOvertemp (inlet junction : Nat) (s : State) : Result :=
  if inlet < 60 ∧ junction < 110 then .next s else .next (deviceError s)

end Sys2Proof.Machine
end

