-- ==== Sys2Proof/Machine/System.lean ====
section
/-! DEFINITION. The system and trap words 0xE0 to 0xE7 (11_traps.md R228 to R230), the handler context (R218), imprecise faults
(R213, R221, 19_matrix.md R352) and the ring-full event (R212). -/
namespace Sys2Proof.Machine

/-! ### The handler context (11_traps.md R218) -/

/-- The frame that the handler context of a core answers. -/
def State.handled (s : State) (core : Nat) : Option (Nat × Frame) :=
  match (s.core core).handling with
  | some i => (mfind s.work.frames i).map (fun f => (i, f))
  | none => none

/-- The warp of a frame; an imprecise frame has none, and reads as a warp that holds nothing (log entry 43). -/
def targetWarp (s : State) (f : Frame) : Warp := if f.wslot < 32 then s.warp f.core f.wslot else {}

/-- The target's warp is changed; an imprecise frame has none. -/
def updTarget (s : State) (f : Frame) (g : Warp → Warp) : State := if f.wslot < 32 then s.updWarp f.core f.wslot g else s

/-- The frames that the handler context of a core may take next: written to a ring that a handler answers, of the core or of no core,
not answered, and handled by no other core (11_traps.md R212, R218). -/
def handlerFrame (s : State) (core : Nat) : Option (Nat × Frame) :=
  s.work.frames.find? (fun p => (p.2.core == core || p.2.core == noCore) && p.2.seq.isSome && !p.2.answered &&
    !(domainAt s p.2.dom).host && s.cores.all (fun c => c.2.handling != some p.1))

/-- HANDLER_START (11_traps.md R218). -/
def execHandlerStart (core : Nat) (s : State) : Result :=
  if s.plat.devErr ∨ 768 ≤ core ∨ (s.core core).handling.isSome ∨ (s.core core).hfault then .next s
  else
    match handlerFrame s core with
    | none => .next s
    | some (i, f) =>
      let d := domainAt s f.dom
      let va := d.ring + 64 * (f.seq.getD 0 % 2 ^ d.n)
      let w : Warp := { present := true, ctx := d.hctx, alloc := 1, live := 0xFFFFFFFF, rank := 31,
                        splits := [(0, { pc := d.entry % 2 ^ 56, mask := 0xFFFFFFFF, state := 1 })] }
      let w := ((w.setS 0 (BitVec.ofNat 32 va)).setS 1 (BitVec.ofNat 32 (va / 2 ^ 32))).setS 2 (BitVec.ofNat 32 f.records)
      .next ((s.setWarp core 32 w).updCore core (fun k => { k with handling := some i }))

/-- The handler's run ends: what it has outstanding completes without it. -/
def endHandler (s : State) (core : Nat) : State :=
  let reqs := s.mem.reqs.map (fun (p : Nat × Req) =>
    if p.2.core == core && p.2.wslot == 32 then (p.1, { p.2 with wslot := goneSlot, live := false }) else p)
  let s := { s with mem := { s.mem with reqs := reqs } }
  let s := s.setWarp core 32 {}
  s.updCore core (fun k => { k with handling := none, slot0 := dropRun k.slot0 32, slot1 := dropRun k.slot1 32 })

/-- A privileged word acts for the handler context; elsewhere it is illegal (11_traps.md R228). -/
def privileged (s : State) (act : Nat → Frame → State) : Result :=
  match (if s.inHandler then s.handled s.hcore else none) with
  | some (i, f) => .next (act i f)
  | none => .next s.illegal

/-! ### The words (11_traps.md R228) -/

/-- `trap`. -/
def execTrap (imm : Fin 1024) (s : State) : Result :=
  .next (s.raise { cls := clsTrap, lanes := s.em, detail := imm.val })

/-- `brkpt`: the status bit be is bit 1 (11_traps.md R229). -/
def execBrkpt (imm : Fin 1024) (s : State) : Result :=
  if s.hwarp.status.getLsbD 1 then .next (s.raise { cls := clsBreak, lanes := s.em, detail := imm.val }) else .next (s.advance 1)

/-- The counters as `rdsr` reads them (11_traps.md R229). -/
def Warp.countersWord (w : Warp) : Word :=
  BitVec.ofNat 32 (w.ld % 32 + 2 ^ 5 * (w.st % 32) + 2 ^ 10 * (w.cp % 8) + 2 ^ 13 * (w.tl % 8) + 2 ^ 16 * (w.rm % 8))

/-- Frames of the current stop that have not been answered: those of the core, with the one that is handled (11_traps.md R229). -/
def unansweredFrames (s : State) (core i : Nat) : Nat :=
  (s.work.frames.filter (fun p => !p.2.answered && (p.2.core == core || p.1 == i))).length

/-- The word that issues writes a scalar. -/
def State.put (s : State) (d : SReg) (x : Word) : State := (s.updHere (fun w => w.setS d.val x)).advance 1

/-- `rdsr` (11_traps.md R229). -/
def execRdsr (d : SReg) (sel : Fin 256) (s : State) : Result :=
  match sel.val with
  | 0 => .next (s.put d s.hwarp.status)
  | 1 => .next (s.put d s.hwarp.countersWord)
  | 0x10 => privileged s (fun _ f => s.put d (targetWarp s f).status)
  | 0x11 => privileged s (fun _ f => s.put d (targetWarp s f).countersWord)
  | 0x12 => privileged s (fun i _ => s.put d (BitVec.ofNat 32 (unansweredFrames s s.hcore i)))
  | _ => .next s.illegal

/-- `wrsr` (11_traps.md R229); its source scalar stands in the field sd. -/
def execWrsr (d : SReg) (sel : Fin 256) (s : State) : Result :=
  let x := s.hwarp.s d.val
  match sel.val with
  | 0 => .next ((s.updHere (fun w => { w with status := w.status &&& 0xFFFFFFFC ||| (x &&& 3) })).advance 1)
  | 0x10 => privileged s (fun _ f => (updTarget s f (fun w => { w with status := statusBits x })).advance 1)
  | _ => .next s.illegal

/-- `fret` (11_traps.md R217, R228). -/
def execFret (mode : Fin 2) (s : State) : Result :=
  privileged s (fun i _ => answerFrame (endHandler s s.hcore) i (if mode.val = 0 then .resume else .skip))

/-- `fkill` (11_traps.md R217, R228). -/
def execFkill (unit : Fin 3) (s : State) : Result :=
  privileged s (fun i _ => answerFrame (endHandler s s.hcore) i
    (if unit.val = 0 then .killWarp else if unit.val = 1 then .killBlock else .killRegion))

/-- A 32-bit word of the bytes of an entry. -/
def entryWord (b : List Byte) (w : Nat) : Word := BitVec.ofNat 32 (leNat ((b.drop (4 * w)).take 4))

/-- What `frd` reads, none for a register beyond the target's allocation (11_traps.md R230). -/
def frdValue (w : Warp) (item lane idx : Nat) : Option Word :=
  match item with
  | 0 => some (entryWord (splitBytes (w.split (idx % 8))) (idx / 8 % 4))
  | 1 => some (entryWord (tokBytes (w.tok (idx % 16))) (idx / 16 % 4))
  | 2 => some (entryWord (leBytes 8 w.control) (idx % 2))
  | 3 => some (w.s (idx % 64))
  | 4 => some (w.m (idx % 8))
  | 5 => some (BitVec.ofNat 32 w.alloc)
  | 6 => if idx < w.regs then some (w.v idx lane) else none
  | _ => if idx < w.regs then some (w.poisoned idx) else none

/-- `frd` (11_traps.md R230). -/
def execFrd (d : SReg) (item : Fin 8) (lane : Fin 32) (idx : Fin 1024) (s : State) : Result :=
  privileged s (fun _ f =>
    let x := frdValue (targetWarp s f) item.val lane.val idx.val
    (s.updHere (fun w => (w.setS d.val (x.getD 0)).setScc x.isSome)).advance 1)

/-- `pclr` (11_traps.md R228). -/
def execPclr (m : SReg) (r : Fin 128) (s : State) : Result :=
  privileged s (fun _ f =>
    let inside := decide (r.val < (targetWarp s f).regs)
    let lanes := s.hwarp.s m.val
    let s := if inside then updTarget s f (fun w => { w with poison := mset 0 w.poison r.val (w.poisoned r.val &&& ~~~lanes) }) else s
    (s.updHere (fun w => w.setScc inside)).advance 1)

/-! ### Imprecise faults (11_traps.md R213, R221, 19_matrix.md R352) -/

/-- The block in a block slot of a core. -/
def blockIn (s : State) (core bslot : Nat) : Option Nat :=
  (s.work.blocks.find? (fun p => p.2.core == core && p.2.bslot == bslot && !p.2.ended)).map Prod.fst

/-- An imprecise frame for a block (11_traps.md R215): its stop has begun. -/
def blockFrame (s : State) (b : Nat) (f : FaultInfo) (answered : Bool) : State :=
  let x := s.blk b
  let t : FaultSite := { core := x.core, wslot := 0, warp := 0, blk := b, split := 0, pc := 0, cidx := 0, n := 0, len := 0, ctx := x.ctx,
                         imp := true }
  addFrame s
    { core := x.core, dom := effFdom s x.region, seq := none, wslot := 33, blk := b, cls := f.cls, bytes := frameBytes s t f 0,
      answered := answered, since := s.plat.time, full := false, saved := 0, split := 0, follow := 0, n := 0, cidx := 0, len := 0,
      region := x.region }

/-- The image of a core's weight buffer that holds an offset, with the words that loaded it, when it came from global memory. -/
def globalImage (k : Core) (off : Nat) : Option (Image × List Word) :=
  match k.images.find? (fun i => decide (i.off ≤ off) && decide (off < i.off + i.size)) with
  | some i => i.from'.map (fun ws => (i, ws))
  | none => none

/-- Row 1 of the escalation table for the weight buffer: the image is fetched again from its source, which is read as it stands then, and the
refetch is logged (11_traps.md R221, 19_matrix.md R352, 23_platform.md R396). None where the source has an uncorrectable error: then there is
no good copy. -/
def refetchImage (s : State) (core b : Nat) (i : Image) (ws : List Word) : Option State :=
  let o : MOp := { core := core, wslot := goneSlot, live := false, blk := b, code := 0xC5 + i.form, t := 0, ts := 0, args := ws, em := 0,
                   partner := none, img := some i, pimg := none, cidx := 0 }
  match mopWait s o with
  | some s' => some s'
  | none =>
    let va := (ws.getD 0 0).toNat + 2 ^ 32 * (ws.getD 1 0).toNat
    let pa := match wbldPlace s o va with | some (d, c) => devicePlace s d (c - d.ent.base) | none => 0
    if (wbldError s o i).isSome then none else some (hostError (performWbld s o i) 8 (coreCluster core) (s.blk b).ctx 1 pa 0)

/-- Row 3 of the escalation table: storage private to a block fails, the block is killed and its frame counts as answered; an error of the
matrix array (unit 1) kills nothing, and the elements that the operation wrote take unspecified values (11_traps.md R221, 19_matrix.md
R352). -/
def blockFault (s : State) (core b : Nat) (memory : Bool) (unit tile addr : Nat) : State :=
  let f : FaultInfo := if memory then { cls := clsMemory, sva := addr, space := 8, detail := 3, aux := 2 ^ 16 * (s.blk b).ctx }
    else { cls := clsStorage, detail := unit % 16 + 16 * (tile % 4) }
  if (s.blk b).isReplay then endReplay s b 2 f.cls
  else
    let s := stopCore s core
    if !memory && unit == 1 then
      let area := mget (s.core core).area (64, 64) (tile % 4)
      blockFrame (freeElems s core (tile % 4) area.1 area.2) b f false
    else settleFrames (blockFrame (killBlock s b) b f true)

/-- IMPRECISE_FAULT: storage private to a block fails (row 3 of 11_traps.md R221). An image that came from global memory is fetched again
(19_matrix.md R352); `addr` is then an offset in the weight buffer. An error that is corrected there leaves no trace (log entry 107). -/
def execImpreciseFault (core bslot : Nat) (memory : Bool) (unit tile addr : Nat) (s : State) : Result :=
  match blockIn s core bslot with
  | none => .next s
  | some b =>
    if !memory && (unit == 0 || decide (4 ≤ unit)) then .next s
    else
      match (if !memory && unit == 3 then globalImage (s.core core) addr else none) with
      | some (i, ws) => .next ((refetchImage s core b i ws).getD (blockFault s core b memory unit tile addr))
      | none => .next (blockFault s core b memory unit tile addr)

/-- RING_FULL (11_traps.md R212): a frame of the core has waited 10 ms for room. -/
def execRingFull (core : Nat) (s : State) : Result :=
  match s.work.frames.find? (fun p => p.2.core == core && p.2.seq.isNone && !p.2.full && decide (p.2.since + 10000000 ≤ s.plat.time)) with
  | some (i, f) => .next (logEvent (s.setFrame i { f with full := true }) 2 f.dom (if f.core = noCore then 0 else coreCode f.core))
  | none => .next s

end Sys2Proof.Machine
end

