-- ==== Sys2Proof/Machine/WorkWords.lean ====
section
/-! DEFINITION. The work and register words 0xE8 to 0xEF (21_work.md R378 to R386, 22_prog_rolesplit.md R388, R389), what serves them, and
the audit unit's replays (11_traps.md R225 to R227). -/
namespace Sys2Proof.Machine

/-! ### Progress and conditions -/

/-- Progress of the issuing warp's block (21_work.md R375). -/
def State.progress (s : State) : State :=
  if s.inHandler then s else s.updBlk s.hwarp.blk (fun b => { b with progress := ranFor s b })

/-- `hbeat` (21_work.md R381). -/
def execHbeat (s : State) : Result := .next (s.progress.advance 1)

/-- `wcond` (21_work.md R384). -/
def execWcond (d : SReg) (idx : Fin 16) (s : State) : Result :=
  if s.hblk.isReplay then .next (endReplay s s.hwarp.blk 4 0)
  else
    let x := s.hwarp.s d.val
    match (s.task s.hblk.task).bind (fun t => if t.graph = 0 then none else (mfind s.work.graphs (t.graph - 1)).map (fun g => (t.graph - 1, g))) with
    | some (k, g) =>
      let s := { s with work := { s.work with graphs := mput s.work.graphs k { g with cond := mset 0 g.cond idx.val x } } }
      .next ((s.updHere (fun w => w.setScc true)).advance 1)
    | none => .next ((s.updHere (fun w => w.setScc false)).advance 1)

/-! ### Fetching work (21_work.md R379, R380) -/

/-- The check of a TCB that a word names (21_work.md R379). -/
def tcbCheck (s : State) (va n need : Nat) : Except Verdict Unit :=
  match coreCheck s s.hcore s.hwarp.ctx va n need with
  | .ok _ => .ok ()
  | .limit sva xid => .error (.fault { cls := clsLimit, lanes := s.em, sva := sva, space := 1, xid := xid })
  | .perm miss sva xid => .error (.fault { cls := clsPerm, lanes := s.em, sva := sva, space := 1, xid := some xid, detail := miss })
  | .corrupt => .error .corrupt

/-- Whether the issuing block may take work of a TCB: it is of kind 0, in the issuer's region or below it. -/
def tcbPermitted (s : State) (x : Tcb) : Bool := x.kind == 0 && regionUnder s x.region s.hblk.region

/-- `wfetch` (21_work.md R379). -/
def execWfetch (sg st : SReg) (s : State) : Result :=
  let w := s.hwarp
  let va := (w.pair sg.val).toNat
  let bar := (w.s (sg.val + 2)).toNat
  let off := (w.s (sg.val + 3)).toNat
  let len := s.hblk.spadLen
  if s.hblk.isReplay then .next (endReplay s w.blk 4 0)
  else
    match barAddr s s.hcore w.blk s.inHandler bar with
    | .limit => .next (s.raise { cls := clsLimit, lanes := s.em, sva := bar, space := 6 })
    | .misaligned => .next (s.raise { cls := clsMisaligned, lanes := s.em, sva := bar, space := 6, detail := 32 })
    | .ok r =>
      if off % 16 ≠ 0 then .next (s.raise { cls := clsMisaligned, lanes := s.em, sva := off, space := 3, detail := 16 })
      else if len < off + 16 then .next (s.raise { cls := clsLimit, lanes := s.em, sva := max off len, space := 3 })
      else
        match tcbCheck s va 128 (permR ||| permW) with
        | .error v => onVerdict s v s
        | .ok _ =>
          let s := devUses s (readOf w.ctx va 128)
          if !tcbPermitted s (tcbAt s w.ctx va) then .next (s.progress.status st 2 1)
          else
            let (i, s) := s.progress.fresh
            let f : Fetch := { blk := w.blk, ctx := w.ctx, tcb := va, bar := r, off := off }
            .next ({ s with work := { s.work with fetches := mput s.work.fetches i f } }.status st 0 1)

/-- The lowest-numbered block of a task that may be withdrawn: of a group none of whose blocks has been placed (21_work.md R379). -/
def freeBlock (t : Task) (x : Tcb) : Option Nat :=
  let groups := x.blocks / x.size
  let whole (g : Nat) : Bool := ((List.range x.size).all (fun k => t.withdrawn.contains (g * x.size + k)))
  match (List.range (min groups (t.groups.length + t.withdrawn.length + 1))).find? (fun g => !t.groups.contains g && !whole g) with
  | some g => ((List.range x.size).map (fun k => g * x.size + k)).find? (fun b => !t.withdrawn.contains b)
  | none => none

/-- The mailbox of a `wfetch` is written and its barrier charged. -/
def fillMailbox (s : State) (f : Fetch) (no res : Nat) : State :=
  charge (localWrite s (.spad f.blk) f.off (leBytes 4 no ++ leBytes 4 res ++ copies 8 0)) (some f.bar) 16 false

/-- A `wfetch` is served: it takes the lowest block that is still unplaced, or finds none. -/
def serveFetch (idx : Nat) (f : Fetch) (s : State) : State :=
  let s := { s with work := { s.work with fetches := mdel s.work.fetches idx } }
  match (armedTask s f.ctx f.tcb).bind (fun p => (freeBlock p.2 (taskTcb s p.2)).map (fun b => (p, b))) with
  | some ((i, t), b) =>
    let s := tcbCount (s.setTask i { t with withdrawn := t.withdrawn ++ [b] }) t 0x48 1
    let s := s.updBlk f.blk (fun x => { x with took := x.took ++ [(i, b, false)] })
    settleReady (fillMailbox s f b 0)
  | none => fillMailbox s f 0xFFFFFFFF 1

/-- WFETCH_FILL (21_work.md R379). -/
def execWfetchFill (idx : Nat) (s : State) : Result :=
  match mfind s.work.fetches idx with
  | none => .next s
  | some f =>
    if corruptAt s f.ctx f.tcb 128 then .next (deviceError s)
    else .next (devTurn s (changeOf f.ctx f.tcb 128) (serveFetch idx f))

/-- A `wdone` is counted at once when its release has nothing to wait for, else when it has; its status is an interlocked result
(21_work.md R378, R380). -/
def reportDone (s : State) (task no d : Nat) : State :=
  let (id, s) := s.fresh
  let a : WDone := { task := task, no := no, d := d, id := id }
  (if s.hwarp.dones.isEmpty && releaseDone s s.hcore s.run.wslot id 4 then countDone s s.hcore s.run.wslot a
   else s.updHere (fun w => { w with dones := w.dones ++ [a] })).advance 1

/-- `wdone` (21_work.md R380). -/
def execWdone (sg st : SReg) (s : State) : Result :=
  let w := s.hwarp
  let va := (w.pair sg.val).toNat
  let no := (w.s (sg.val + 2)).toNat
  if s.hblk.isReplay then .next (endReplay s w.blk 4 0)
  else
    match tcbCheck s va 128 (permR ||| permW) with
    | .error v => onVerdict s v s
    | .ok _ =>
      let s := devUses s (readOf w.ctx va 128)
      if !tcbPermitted s (tcbAt s w.ctx va) then .next (s.status st 2 1)
      else
        match armedTask s w.ctx va with
        | none => .next (s.status st 4 1)
        | some (i, _) =>
          if !s.hblk.took.contains (i, no, false) then .next (s.status st 4 1)
          else .next (reportDone s i no st.val)

/-- `wlaunch` (21_work.md R385). -/
def execWlaunch (sg st : SReg) (s : State) : Result :=
  let w := s.hwarp
  let va := (w.pair sg.val).toNat
  if s.hblk.isReplay then .next (endReplay s w.blk 4 0)
  else if va % 64 ≠ 0 then .next (s.raise { cls := clsMisaligned, lanes := s.em, sva := va, space := 1, detail := 64 })
  else
    match tcbCheck s va 64 permR with
    | .error v => onVerdict s v s
    | .ok _ =>
      let r := s.hblk.region
      let q := mget s.work.devq [] r
      if 256 ≤ q.length then .next (s.status st 3 1)
      else
        let rec' := (devRead s w.ctx va 64).getD (copies 64 0)
        let s := devUses s (readOf w.ctx va 64)
        let s := { s with work := { s.work with devq := mput s.work.devq r (q ++ [(w.ctx, rec')]) } }
        .next (s.status st 0 1)

/-! ### The register pool (21_work.md R377, R382, R383) -/

/-- The core pool count: register blocks that no live warp holds. -/
def poolCount (s : State) (core : Nat) : Nat :=
  Config.coreRblk - (List.range 32).foldl (fun a i => a + (if (s.warp core i).present then (s.warp core i).alloc else 0)) 0

/-- Register blocks that the warps of a block hold. -/
def heldBlocks (s : State) (b : Nat) : Nat := (blockWarps s b).foldl (fun a i => a + (s.warp (s.blk b).core i).alloc) 0

/-- Rb. -/
def Block.reserve (b : Block) : Nat := b.rblk * b.warps

/-- A warp with another allocation: registers outside it hold nothing. -/
def Warp.resize (w : Warp) (n : Nat) : Warp :=
  { w with alloc := n, vregs := w.vregs.filter (fun p => decide (p.1 < 8 * n)), poison := w.poison.filter (fun p => decide (p.1 < 8 * n)) }

/-- A claim that fits is granted in one step (22_prog_rolesplit.md R389). -/
def grantClaim (s : State) (b core wslot split n d : Nat) : State :=
  if heldBlocks s b + n ≤ (s.blk b).reserve then
    let s := s.updWarp core wslot (fun w => w.resize (w.alloc + n))
    let s := s.updWarp core wslot (fun w => w.setS d (BitVec.ofNat 32 (poolCount s core)))
    unblock s core wslot split 1
  else s

/-- Waiting claims of a block, in ascending warp slot. -/
def claimsOf (s : State) (b : Nat) : List (Nat × Nat × Nat × Nat) :=
  let c := (s.blk b).core
  ((blockWarps s b).map (fun i => (List.range 8).filterMap (fun j =>
    match ((s.warp c i).split j).on with
    | .claim n d => some (i, j, n, d)
    | _ => none))).flatten

/-- What a split of a stuck warp waits on: a claim, or a `bar.wait` on an object of the block's own area whose bytes have landed and whose
phase has not passed (21_work.md R383, 10_sync.md R198). -/
def stuckSplit (s : State) (b : Nat) (e : Split) : Bool :=
  e.state == 2 && (match e.on with
    | .claim _ _ => true
    | .bar r p _ => !r.foreignTo b && !passed (objGet s r).phase p.toNat && decide ((objGet s r).expb ≤ (objGet s r).landed)
    | _ => false)

/-- Whether every live warp of a block is stuck. -/
def blockStuck (s : State) (b : Nat) : Bool :=
  (blockWarps s b).all (fun i =>
    let w := s.warp (s.blk b).core i
    w.live != 0 && (List.range 8).all (fun j => (w.split j).state == 0 || stuckSplit s b (w.split j)))

/-- Bit %warp for the warps of a block that have a split of a kind. -/
def warpBits (s : State) (b : Nat) (f : Blocked → Bool) : Nat :=
  (blockWarps s b).foldl (fun a i =>
    let w := s.warp (s.blk b).core i
    if (List.range 8).any (fun j => f (w.split j).on) then a + 2 ^ w.widx else a) 0

/-- pool-deadlock (21_work.md R382, R383). -/
def poolFault (s : State) (b n reason : Nat) (lanes : Word) : FaultInfo :=
  { cls := clsPool, lanes := lanes
    detail := 2 ^ 22 * ((s.blk b).reserve % 2 ^ 10) + 2 ^ 12 * (heldBlocks s b % 2 ^ 10) + 2 ^ 8 * (n % 16) + reason
    aux := 2 ^ 32 * warpBits s b (fun x => match x with | .bar _ _ _ => true | _ => false) +
      warpBits s b (fun x => match x with | .claim _ _ => true | _ => false) }

/-- The waiting claims of a block are examined; when none fits and every live warp is stuck, the lowest waiting warp slot faults
(21_work.md R383, 22_prog_rolesplit.md R388, R389). -/
def serveClaims (s : State) (b : Nat) : State :=
  let c := (s.blk b).core
  let s := (claimsOf s b).foldl (fun s x => grantClaim s b c x.1 x.2.1 x.2.2.1 x.2.2.2) s
  match claimsOf s b with
  | (i, j, n, _) :: _ => if blockStuck s b then faultBlocked s c i j (poolFault s b n 2 ((s.warp c i).split j).mask) else s
  | [] => s

/-- `rgclaim` (21_work.md R382). -/
def execRgclaim (d : SReg) (n : Fin 16) (s : State) : Result :=
  let w := s.hwarp
  let b := w.blk
  if 16 < w.alloc + n.val then .next s.illegal
  else if s.hblk.reserve < w.alloc + n.val + ((blockWarps s b).length - 1) then .next (s.raise (poolFault s b n.val 1 s.em))
  else .next (serveClaims (s.block (.claim n.val d.val)) b)

/-- CLAIM_GRANT (22_prog_rolesplit.md R389). -/
def execClaimGrant (block : Nat) (s : State) : Result := if (s.blk block).ended then .next s else .next (serveClaims s block)

/-- The end of an `rgrel`: its warp's ld, tl and rm counters are 0 (21_work.md R382). -/
def endRelease (s : State) (core wslot split n d : Nat) : State :=
  let w := s.warp core wslot
  if w.ld ≠ 0 ∨ w.tl ≠ 0 ∨ w.rm ≠ 0 then s
  else
    let s := s.updWarp core wslot (fun w => w.resize (w.alloc - n))
    let s := s.updWarp core wslot (fun w => w.setS d (BitVec.ofNat 32 (poolCount s core)))
    unblock s core wslot split 1

/-- `rgrel` (21_work.md R382). -/
def execRgrel (d : SReg) (n : Fin 16) (s : State) : Result :=
  if s.hwarp.alloc ≤ n.val then .next s.illegal
  else .next (endRelease (s.block (.release n.val d.val)) s.hcore s.run.wslot s.run.split n.val d.val)

/-! ### `wyield` (21_work.md R386) -/

/-- Whether a warp has issued `wyield` and waits. -/
def Warp.yields (w : Warp) : Bool := (List.range 8).any (fun j => match (w.split j).on with | .yield _ => true | _ => false)

/-- Whether every live warp of a block has issued `wyield`, and one waits. -/
def allYield (s : State) (b : Nat) : Bool :=
  let ws := (blockWarps s b).map (fun i => s.warp (s.blk b).core i)
  ws.any Warp.yields && ws.all (fun w => w.live == 0 || w.yields)

/-- The warps of a block that have all yielded go on, or their group is saved. -/
def serveYield (s : State) (b : Nat) : State :=
  if !allYield s b then s
  else
    match mfind s.work.groups (s.blk b).grp with
    | none => releaseYield s b 0
    | some g =>
      let due := s.work.tasks.any (fun p => p.2.due && p.2.part == partOf s g.cluster && 
        awaits s p.1 p.2 (mkeys s.work.groups) (goingGroups s) (s.blk b).grp)
      match g.pre with
      | some p =>
        if p.way = 0 then requestSave s (s.blk b).grp g none [b]
        else if p.yield.contains b then s
        else s.setGroup (s.blk b).grp { g with pre := some { p with yield := p.yield ++ [b] } }
      | none => if due && !(s.blk b).isReplay then requestSave s (s.blk b).grp g none [b] else releaseYield s b 0

/-- `wyield`; the handler context has no block, and goes on at once. -/
def execWyield (d : SReg) (s : State) : Result :=
  if s.inHandler then .next ((s.updHere (fun w => w.setS d.val 0)).advance 1)
  else .next (serveYield (s.block (.yield d.val)) s.hwarp.blk)

/-- WYIELD_RELEASE (21_work.md R386). -/
def execWyieldRelease (block : Nat) (s : State) : Result := .next (serveYield s block)

/-! ### Blocked words -/

/-- BLOCKED_WORD_RESUME (10_sync.md R205 to R209, 12_atomics.md R252, 21_work.md R382); a handler context goes on while its core is stopped
(11_traps.md R218). -/
def execBlockedWordResume (core wslot split : Nat) (s : State) : Result :=
  let e := (s.warp core wslot).split split
  if e.state ≠ 2 ∨ ((s.core core).stopped ∧ wslot ≠ 32) then .next s
  else
    match e.on with
    | .bar r p d => .next (endBarWait s core wslot split r p d)
    | .counters ld st cp tl rm sc => .next (endWait s core wslot split ld st cp tl rm sc)
    | .bdrain sc => .next (endBdrain s core wslot split sc)
    | .release n d => .next (endRelease s core wslot split n d)
    | .claim _ _ => .next (serveClaims s (s.warp core wslot).blk)
    | .yield _ => .next (serveYield s (s.warp core wslot).blk)
    | .none | .token | .entry => .next s

/-! ### Audit replays (11_traps.md R225 to R227) -/

/-- A block of an audit replay's group other than the replayed one: it holds no bytes but zeros (log entry 31). -/
def phantom (core grp idx : Nat) (x : Tcb) : Block :=
  { core := core, grp := grp, warps := x.warps, lane := x.lane, spadLen := x.spad, bars := x.bars, role := .replay idx, ended := true }

/-- AUDIT_REPLAY (11_traps.md R225, R226): the block runs alone on a core of another cluster, at its place of a rectangle of its group's
shape, when its region admits it (21_work.md R357). -/
def execAuditReplay (idx core : Nat) (s : State) : Result :=
  match mfind s.work.audits idx with
  | none => .next s
  | some a =>
    match s.task a.task with
    | none => .next s
    | some t =>
      let x := taskTcb s t
      let place := a.blk.no % x.size
      let dx := place % x.w
      let dy := place / x.w
      let cl := coreCluster core
      let n := needOf s cl t x
      let inside := dx ≤ coreX core ∧ dy ≤ coreY core ∧ coreX core - dx + x.w ≤ Config.gridW ∧ coreY core - dy + x.h ≤ Config.gridH
      if s.plat.devErr ∨ a.coreB.isSome ∨ 768 ≤ core ∨ cl = coreCluster a.blk.core ∨ !coreFits s core n ∨ ¬ inside ∨
          !admits s t.region n.rblk n.bars n.bytes n.est [core] then .next s
      else if corruptAt s t.ctx t.tcb 128 || (decide (8 < x.sregs) && corruptAt s t.ctx x.param (4 * (x.sregs - 8))) then .next (deviceError s)
      else
        let (gk, s) := s.fresh
        let cells := rectCores cl (coreX core - dx) (coreY core - dy) x.w x.h
        let (s, ids) := cells.foldl (fun (st : State × List Nat) c =>
          let (b, s) := st.1.fresh
          let k := if c = core then { newBlock s core gk a.task a.blk.no t x n with role := .replay idx }
            else phantom c gk idx x
          (s.setBlk b k, st.2 ++ [b])) (s, [])
        let b := ids.getD place 0
        let g : Group := { cluster := cl, x0 := coreX core - dx, y0 := coreY core - dy, w := x.w, h := x.h, task := a.task,
                           idx := a.blk.no / x.size, blocks := ids, pre := none }
        let a' : Audit := { a with coreB := some core, rblk := b }
        let s := { s.setGroup gk g with work := { (s.setGroup gk g).work with audits := mput s.work.audits idx a' } }
        let s := if t.acq then dropL1 s core t.ctx else s
        let s := if n.matrix then clearMatrix s core else s
        .next (startBlocks (useRegion s t.region n.rblk n.bars n.bytes n.est 1) t x [b])

/-- AUDIT_REPLAY_END (11_traps.md R227): the signatures are compared, and a mismatch, a fault or a block that cannot be replayed is
recorded. -/
def execAuditReplayEnd (idx : Nat) (s : State) : Result :=
  match mfind s.work.audits idx with
  | none => .next s
  | some a =>
    let b := s.blk a.rblk
    if a.coreB.isNone || !b.ended then .next s
    else
      let tcb := match s.task a.task with | some t => t.tcb | none => 0
      let s := if a.result = 0 ∧ b.sig = a.sigA then { s with plat := { s.plat with matched := s.plat.matched + 1 } }
        else
          let res := if a.result = 0 then 1 else a.result + 2 ^ 8 * (if a.result = 2 then a.cls else 0)
          auditRecord s tcb a.blk.no res a.blk.core (a.coreB.getD 0) a.sigA (if a.result = 0 then b.sig else 0)
      let s := { s with work := { s.work with audits := mdel s.work.audits idx } }
      let s := match s.task a.task with
        | some t => s.setTask a.task { t with audits := t.audits - 1 }
        | none => s
      .next (endGroup s b.grp)

end Sys2Proof.Machine
end

