-- ==== Sys2Proof/Machine/Dispatch.lean ====
section
/-! DEFINITION. One arm per constructor of Instr: a direct call of its meaning. -/
namespace Sys2Proof.Machine

def exec (i : Instr) (s : State) : Host.Outcome State Fault Refusal :=
  match i with
  | .sadd d a b => Sys2Proof.Machine.execSadd d a b s
  | .ssub d a b => Sys2Proof.Machine.execSsub d a b s
  | .smul d a b => Sys2Proof.Machine.execSmul d a b s
  | .smulhi d a b => Sys2Proof.Machine.execSmulhi d a b s
  | .sand d a b => Sys2Proof.Machine.execSand d a b s
  | .sor d a b => Sys2Proof.Machine.execSor d a b s
  | .sxor d a b => Sys2Proof.Machine.execSxor d a b s
  | .sshl d a b => Sys2Proof.Machine.execSshl d a b s
  | .sshr d a b => Sys2Proof.Machine.execSshr d a b s
  | .ssra d a b => Sys2Proof.Machine.execSsra d a b s
  | .smin d a b => Sys2Proof.Machine.execSmin d a b s
  | .smax d a b => Sys2Proof.Machine.execSmax d a b s
  | .scmp c a b => Sys2Proof.Machine.execScmp c a b s
  | .ssel d a b => Sys2Proof.Machine.execSsel d a b s
  | .sadd64 d a b => Sys2Proof.Machine.execSadd64 d a b s
  | .smov d a => Sys2Proof.Machine.execSmov d a s
  | .jmp off => Sys2Proof.Machine.execJmp off s
  | .bscc c off => Sys2Proof.Machine.execBscc c off s
  | .bdiv mk c off => Sys2Proof.Machine.execBdiv mk c off s
  | .bany mk c off => Sys2Proof.Machine.execBany mk c off s
  | .ball mk c off => Sys2Proof.Machine.execBall mk c off s
  | .join off => Sys2Proof.Machine.execJoin off s
  | .brk mk c off => Sys2Proof.Machine.execBrk mk c off s
  | .call off => Sys2Proof.Machine.execCall off s
  | .ret => Sys2Proof.Machine.execRet s
  | .exit => Sys2Proof.Machine.execExit s
  | .mand d a b => Sys2Proof.Machine.execMand d a b s
  | .mor d a b => Sys2Proof.Machine.execMor d a b s
  | .mxor d a b => Sys2Proof.Machine.execMxor d a b s
  | .mandn d a b => Sys2Proof.Machine.execMandn d a b s
  | .mfrom d => Sys2Proof.Machine.execMfrom d s
  | .mto d a => Sys2Proof.Machine.execMto d a s
  | .vaddI32 d a b p => Sys2Proof.Machine.execVaddI32 d a b p s
  | .vsubI32 d a b p => Sys2Proof.Machine.execVsubI32 d a b p s
  | .vmulI32 d a b p => Sys2Proof.Machine.execVmulI32 d a b p s
  | .vmulhiI32 d a b p => Sys2Proof.Machine.execVmulhiI32 d a b p s
  | .vmulhiN32 d a b p => Sys2Proof.Machine.execVmulhiN32 d a b p s
  | .vmadI32 d a b p => Sys2Proof.Machine.execVmadI32 d a b p s
  | .vandB32 d a b p => Sys2Proof.Machine.execVandB32 d a b p s
  | .vorB32 d a b p => Sys2Proof.Machine.execVorB32 d a b p s
  | .vxorB32 d a b p => Sys2Proof.Machine.execVxorB32 d a b p s
  | .vshlB32 d a b p => Sys2Proof.Machine.execVshlB32 d a b p s
  | .vshrN32 d a b p => Sys2Proof.Machine.execVshrN32 d a b p s
  | .vshrI32 d a b p => Sys2Proof.Machine.execVshrI32 d a b p s
  | .vminI32 d a b p => Sys2Proof.Machine.execVminI32 d a b p s
  | .vminN32 d a b p => Sys2Proof.Machine.execVminN32 d a b p s
  | .vmaxI32 d a b p => Sys2Proof.Machine.execVmaxI32 d a b p s
  | .vmaxN32 d a b p => Sys2Proof.Machine.execVmaxN32 d a b p s
  | .vaddF32 d a b p => Sys2Proof.Machine.execVaddF32 d a b p s
  | .vfmaF32 d a b p => Sys2Proof.Machine.execVfmaF32 d a b p s
  | .vsubF32 d a b p => Sys2Proof.Machine.execVsubF32 d a b p s
  | .vmulF32 d a b p => Sys2Proof.Machine.execVmulF32 d a b p s
  | .vminF32 d a b p => Sys2Proof.Machine.execVminF32 d a b p s
  | .vmaxF32 d a b p => Sys2Proof.Machine.execVmaxF32 d a b p s
  | .vrcpF32 d a p => Sys2Proof.Machine.execVrcpF32 d a p s
  | .vrsqrtF32 d a p => Sys2Proof.Machine.execVrsqrtF32 d a p s
  | .vsqrtF32 d a p => Sys2Proof.Machine.execVsqrtF32 d a p s
  | .vexp2F32 d a p => Sys2Proof.Machine.execVexp2F32 d a p s
  | .vlog2F32 d a p => Sys2Proof.Machine.execVlog2F32 d a p s
  | .vabsF32 d a p => Sys2Proof.Machine.execVabsF32 d a p s
  | .vnegF32 d a p => Sys2Proof.Machine.execVnegF32 d a p s
  | .vfmsF32 d a b p => Sys2Proof.Machine.execVfmsF32 d a b p s
  | .vrndF32 d a mode p => Sys2Proof.Machine.execVrndF32 d a mode p s
  | .vclassF32 d a p => Sys2Proof.Machine.execVclassF32 d a p s
  | .vaddF16 d a b p => Sys2Proof.Machine.execVaddF16 d a b p s
  | .vfmaF16 d a b p => Sys2Proof.Machine.execVfmaF16 d a b p s
  | .vmulF16 d a b p => Sys2Proof.Machine.execVmulF16 d a b p s
  | .vaddBf16 d a b p => Sys2Proof.Machine.execVaddBf16 d a b p s
  | .vfmaBf16 d a b p => Sys2Proof.Machine.execVfmaBf16 d a b p s
  | .vmulBf16 d a b p => Sys2Proof.Machine.execVmulBf16 d a b p s
  | .vmovB32 d a p => Sys2Proof.Machine.execVmovB32 d a p s
  | .vpopcB32 d a p => Sys2Proof.Machine.execVpopcB32 d a p s
  | .vclzB32 d a p => Sys2Proof.Machine.execVclzB32 d a p s
  | .vbrevB32 d a p => Sys2Proof.Machine.execVbrevB32 d a p s
  | .vdot4I8 d a b p => Sys2Proof.Machine.execVdot4I8 d a b p s
  | .vaddF32Rz d a b p => Sys2Proof.Machine.execVaddF32Rz d a b p s
  | .vaddF32Ru d a b p => Sys2Proof.Machine.execVaddF32Ru d a b p s
  | .vaddF32Rd d a b p => Sys2Proof.Machine.execVaddF32Rd d a b p s
  | .vsubF32Rz d a b p => Sys2Proof.Machine.execVsubF32Rz d a b p s
  | .vsubF32Ru d a b p => Sys2Proof.Machine.execVsubF32Ru d a b p s
  | .vsubF32Rd d a b p => Sys2Proof.Machine.execVsubF32Rd d a b p s
  | .vmulF32Rz d a b p => Sys2Proof.Machine.execVmulF32Rz d a b p s
  | .vmulF32Ru d a b p => Sys2Proof.Machine.execVmulF32Ru d a b p s
  | .vmulF32Rd d a b p => Sys2Proof.Machine.execVmulF32Rd d a b p s
  | .vfmaF32Rz d a b p => Sys2Proof.Machine.execVfmaF32Rz d a b p s
  | .vfmaF32Ru d a b p => Sys2Proof.Machine.execVfmaF32Ru d a b p s
  | .vfmaF32Rd d a b p => Sys2Proof.Machine.execVfmaF32Rd d a b p s
  | .vcmpI32 c m a b p => Sys2Proof.Machine.execVcmpI32 c m a b p s
  | .vcmpN32 c m a b p => Sys2Proof.Machine.execVcmpN32 c m a b p s
  | .vcmpF32 c m a b p => Sys2Proof.Machine.execVcmpF32 c m a b p s
  | .vselB32 d a b => Sys2Proof.Machine.execVselB32 d a b s
  | .vcvtF32I32 d a k p => Sys2Proof.Machine.execVcvtF32I32 d a k p s
  | .vcvtF32N32 d a k p => Sys2Proof.Machine.execVcvtF32N32 d a k p s
  | .vcvtI32F32 d a k p => Sys2Proof.Machine.execVcvtI32F32 d a k p s
  | .vcvtN32F32 d a k p => Sys2Proof.Machine.execVcvtN32F32 d a k p s
  | .vcvtF16F32 d a k p => Sys2Proof.Machine.execVcvtF16F32 d a k p s
  | .vcvtBf16F32 d a k p => Sys2Proof.Machine.execVcvtBf16F32 d a k p s
  | .vcvtE4m3F32 d a k p => Sys2Proof.Machine.execVcvtE4m3F32 d a k p s
  | .vcvtE5m2F32 d a k p => Sys2Proof.Machine.execVcvtE5m2F32 d a k p s
  | .vcvtLog6F32 d a k p => Sys2Proof.Machine.execVcvtLog6F32 d a k p s
  | .vcvtF32F16 d a k p => Sys2Proof.Machine.execVcvtF32F16 d a k p s
  | .vcvtF32Bf16 d a k p => Sys2Proof.Machine.execVcvtF32Bf16 d a k p s
  | .vcvtF32E4m3 d a k p => Sys2Proof.Machine.execVcvtF32E4m3 d a k p s
  | .vcvtF32E5m2 d a k p => Sys2Proof.Machine.execVcvtF32E5m2 d a k p s
  | .vcvtF32Log6 d a k p => Sys2Proof.Machine.execVcvtF32Log6 d a k p s
  | .vscvt d a k p => Sys2Proof.Machine.execVscvt d a k p s
  | .vshflB32 d a b p => Sys2Proof.Machine.execVshflB32 d a b p s
  | .vnblB32 d a sel p => Sys2Proof.Machine.execVnblB32 d a sel p s
  | .vnbrB32 d a sel p => Sys2Proof.Machine.execVnbrB32 d a sel p s
  | .vbcastB32 d a b p => Sys2Proof.Machine.execVbcastB32 d a b p s
  | .vredAddI32 d a p => Sys2Proof.Machine.execVredAddI32 d a p s
  | .vredAddF32 d a p => Sys2Proof.Machine.execVredAddF32 d a p s
  | .vredMaxF32 d a p => Sys2Proof.Machine.execVredMaxF32 d a p s
  | .vredMinF32 d a p => Sys2Proof.Machine.execVredMinF32 d a p s
  | .vscanAddI32 d a p => Sys2Proof.Machine.execVscanAddI32 d a p s
  | .vscanAddF32 d a p => Sys2Proof.Machine.execVscanAddF32 d a p s
  | .vballot m a p => Sys2Proof.Machine.execVballot m a p s
  | .vrdlane d a b => Sys2Proof.Machine.execVrdlane d a b s
  | .ldN8 d sb vo sc x => Sys2Proof.Machine.execLdN8 d sb vo sc x s
  | .ldI8 d sb vo sc x => Sys2Proof.Machine.execLdI8 d sb vo sc x s
  | .ldN16 d sb vo sc x => Sys2Proof.Machine.execLdN16 d sb vo sc x s
  | .ldI16 d sb vo sc x => Sys2Proof.Machine.execLdI16 d sb vo sc x s
  | .ldB32 d sb vo sc x => Sys2Proof.Machine.execLdB32 d sb vo sc x s
  | .ldB64 d sb vo sc x => Sys2Proof.Machine.execLdB64 d sb vo sc x s
  | .ldB128 d sb vo sc x => Sys2Proof.Machine.execLdB128 d sb vo sc x s
  | .stB8 d sb vo sc x => Sys2Proof.Machine.execStB8 d sb vo sc x s
  | .stB16 d sb vo sc x => Sys2Proof.Machine.execStB16 d sb vo sc x s
  | .stB32 d sb vo sc x => Sys2Proof.Machine.execStB32 d sb vo sc x s
  | .stB64 d sb vo sc x => Sys2Proof.Machine.execStB64 d sb vo sc x s
  | .stB128 d sb vo sc x => Sys2Proof.Machine.execStB128 d sb vo sc x s
  | .ldLane d vo wd x => Sys2Proof.Machine.execLdLane d vo wd x s
  | .stLane d vo wd x => Sys2Proof.Machine.execStLane d vo wd x s
  | .ldSp d vo wd x => Sys2Proof.Machine.execLdSp d vo wd x s
  | .stSp d vo wd x => Sys2Proof.Machine.execStSp d vo wd x s
  | .ldCm d vo wd x => Sys2Proof.Machine.execLdCm d vo wd x s
  | .stCm d vo wd x => Sys2Proof.Machine.execStCm d vo wd x s
  | .ldCst d vo wd x => Sys2Proof.Machine.execLdCst d vo wd x s
  | .stCst d vo wd x => Sys2Proof.Machine.execStCst d vo wd x s
  | .sldB32 d sb sc x => Sys2Proof.Machine.execSldB32 d sb sc x s
  | .sstB32 d sb sc x => Sys2Proof.Machine.execSstB32 d sb sc x s
  | .pf sb vo sc x => Sys2Proof.Machine.execPf sb vo sc x s
  | .cinv sb vo x => Sys2Proof.Machine.execCinv sb vo x s
  | .xprobe d sb x => Sys2Proof.Machine.execXprobe d sb x s
  | .xinfo d sb sel => Sys2Proof.Machine.execXinfo d sb sel s
  | .hpin d sb => Sys2Proof.Machine.execHpin d sb s
  | .hdemote d sb => Sys2Proof.Machine.execHdemote d sb s
  | .hprio d sb sel => Sys2Proof.Machine.execHprio d sb sel s
  | .hunpin d sb => Sys2Proof.Machine.execHunpin d sb s
  | .atomAddI32 d sb vo sc x => Sys2Proof.Machine.execAtomAddI32 d sb vo sc x s
  | .atomAddF32 d sb vo sc x => Sys2Proof.Machine.execAtomAddF32 d sb vo sc x s
  | .atomMinI32 d sb vo sc x => Sys2Proof.Machine.execAtomMinI32 d sb vo sc x s
  | .atomMaxI32 d sb vo sc x => Sys2Proof.Machine.execAtomMaxI32 d sb vo sc x s
  | .atomMinN32 d sb vo sc x => Sys2Proof.Machine.execAtomMinN32 d sb vo sc x s
  | .atomMaxN32 d sb vo sc x => Sys2Proof.Machine.execAtomMaxN32 d sb vo sc x s
  | .atomAndB32 d sb vo sc x => Sys2Proof.Machine.execAtomAndB32 d sb vo sc x s
  | .atomOrB32 d sb vo sc x => Sys2Proof.Machine.execAtomOrB32 d sb vo sc x s
  | .atomXchgB32 d sb vo sc x => Sys2Proof.Machine.execAtomXchgB32 d sb vo sc x s
  | .atomCasB32 d sb vo sc x => Sys2Proof.Machine.execAtomCasB32 d sb vo sc x s
  | .atomAddI64 d sb vo sc x => Sys2Proof.Machine.execAtomAddI64 d sb vo sc x s
  | .atomXchgB64 d sb vo sc x => Sys2Proof.Machine.execAtomXchgB64 d sb vo sc x s
  | .atomCasB64 d sb vo sc x => Sys2Proof.Machine.execAtomCasB64 d sb vo sc x s
  | .atomCasB128 d sb vo sc x => Sys2Proof.Machine.execAtomCasB128 d sb vo sc x s
  | .bredAddF32 d sb vo sc x => Sys2Proof.Machine.execBredAddF32 d sb vo sc x s
  | .ldBnd d sb vo sc x => Sys2Proof.Machine.execLdBnd d sb vo sc x s
  | .barInit sb sv d sc => Sys2Proof.Machine.execBarInit sb sv d sc s
  | .barArrive sb sv d => Sys2Proof.Machine.execBarArrive sb sv d s
  | .barExpect sb sv d => Sys2Proof.Machine.execBarExpect sb sv d s
  | .barWait sb sv d => Sys2Proof.Machine.execBarWait sb sv d s
  | .barTest sb sv d => Sys2Proof.Machine.execBarTest sb sv d s
  | .barDrop sb d => Sys2Proof.Machine.execBarDrop sb d s
  | .wait ld st cp tl rm sc => Sys2Proof.Machine.execWait ld st cp tl rm sc s
  | .bdrain sc => Sys2Proof.Machine.execBdrain sc s
  | .rldB32 d sb vp sc x => Sys2Proof.Machine.execRldB32 d sb vp sc x s
  | .rldB64 d sb vp sc x => Sys2Proof.Machine.execRldB64 d sb vp sc x s
  | .rldB128 d sb vp sc x => Sys2Proof.Machine.execRldB128 d sb vp sc x s
  | .rstB32 d sb vp sc x => Sys2Proof.Machine.execRstB32 d sb vp sc x s
  | .rstB64 d sb vp sc x => Sys2Proof.Machine.execRstB64 d sb vp sc x s
  | .ratom d sb vp sc x => Sys2Proof.Machine.execRatom d sb vp sc x s
  | .rred d sb vp sc x => Sys2Proof.Machine.execRred d sb vp sc x s
  | .rmcast d sb vp sc x => Sys2Proof.Machine.execRmcast d sb vp sc x s
  | .mmaE4m3 t sa sw sk pr => Sys2Proof.Machine.execMmaE4m3 t sa sw sk pr s
  | .mmaE5m2 t sa sw sk pr => Sys2Proof.Machine.execMmaE5m2 t sa sw sk pr s
  | .mmaBf16 t sa sw sk pr => Sys2Proof.Machine.execMmaBf16 t sa sw sk pr s
  | .mmaF16 t sa sw sk pr => Sys2Proof.Machine.execMmaF16 t sa sw sk pr s
  | .mmaLog6 t sa sw sk pr => Sys2Proof.Machine.execMmaLog6 t sa sw sk pr s
  | .wbldDense sa sw sk => Sys2Proof.Machine.execWbldDense sa sw sk s
  | .wbldSp24 sa sw sk => Sys2Proof.Machine.execWbldSp24 sa sw sk s
  | .wbldCb4 sa sw sk => Sys2Proof.Machine.execWbldCb4 sa sw sk s
  | .tzero t => Sys2Proof.Machine.execTzero t s
  | .tmov t sa => Sys2Proof.Machine.execTmov t sa s
  | .tst t sa sk => Sys2Proof.Machine.execTst t sa sk s
  | .tadd td ts => Sys2Proof.Machine.execTadd td ts s
  | .tld t sa sk => Sys2Proof.Machine.execTld t sa sk s
  | .cpStart cb tk => Sys2Proof.Machine.execCpStart cb tk s
  | .cpRect cb tk => Sys2Proof.Machine.execCpRect cb tk s
  | .cpFill cb tk => Sys2Proof.Machine.execCpFill cb tk s
  | .cpTier cb tk => Sys2Proof.Machine.execCpTier cb tk s
  | .xgStart cb tk => Sys2Proof.Machine.execXgStart cb tk s
  | .xgCancel cb tk d => Sys2Proof.Machine.execXgCancel cb tk d s
  | .tokTest tk d => Sys2Proof.Machine.execTokTest tk d s
  | .cpCancel tk d => Sys2Proof.Machine.execCpCancel tk d s
  | .xgQuery tk d sel => Sys2Proof.Machine.execXgQuery tk d sel s
  | .cpBcast cb tk => Sys2Proof.Machine.execCpBcast cb tk s
  | .trap imm => Sys2Proof.Machine.execTrap imm s
  | .brkpt imm => Sys2Proof.Machine.execBrkpt imm s
  | .rdsr d sel => Sys2Proof.Machine.execRdsr d sel s
  | .wrsr d sel => Sys2Proof.Machine.execWrsr d sel s
  | .fret mode => Sys2Proof.Machine.execFret mode s
  | .fkill unit => Sys2Proof.Machine.execFkill unit s
  | .frd d item lane idx => Sys2Proof.Machine.execFrd d item lane idx s
  | .pclr d r => Sys2Proof.Machine.execPclr d r s
  | .wfetch sg st => Sys2Proof.Machine.execWfetch sg st s
  | .hbeat => Sys2Proof.Machine.execHbeat s
  | .rgclaim d n => Sys2Proof.Machine.execRgclaim d n s
  | .rgrel d n => Sys2Proof.Machine.execRgrel d n s
  | .wdone sg st => Sys2Proof.Machine.execWdone sg st s
  | .wcond d idx => Sys2Proof.Machine.execWcond d idx s
  | .wlaunch sg st => Sys2Proof.Machine.execWlaunch sg st s
  | .wyield d => Sys2Proof.Machine.execWyield d s
  | .clauseGrant core slot => Sys2Proof.Machine.execClauseGrant core slot s
  | .rankAging core wslot => Sys2Proof.Machine.execRankAging core wslot s
  | .impreciseFault core bslot memory unit tile addr => Sys2Proof.Machine.execImpreciseFault core bslot memory unit tile addr s
  | .ringFull core => Sys2Proof.Machine.execRingFull core s
  | .handlerStart core => Sys2Proof.Machine.execHandlerStart core s
  | .loadComplete req => Sys2Proof.Machine.execLoadComplete req s
  | .storeComplete req => Sys2Proof.Machine.execStoreComplete req s
  | .writeThroughApply req sector => Sys2Proof.Machine.execWriteThroughApply req sector s
  | .ecbWalk core ctx va => Sys2Proof.Machine.execEcbWalk core ctx va s
  | .portTranslate target => Sys2Proof.Machine.execPortTranslate target s
  | .rowRemapReloadDone port pc img => Sys2Proof.Machine.execRowRemapReloadDone port pc img s
  | .cxlMemRequest port addr wr => Sys2Proof.Machine.execCxlMemRequest port addr wr s
  | .bar2Request port off len wr => Sys2Proof.Machine.execBar2Request port off len wr s
  | .slideStart ctx xid => Sys2Proof.Machine.execSlideStart ctx xid s
  | .portSlideBegin port ctx xid => Sys2Proof.Machine.execPortSlideBegin port ctx xid s
  | .slideOpen ctx xid => Sys2Proof.Machine.execSlideOpen ctx xid s
  | .portOpen port ctx xid => Sys2Proof.Machine.execPortOpen port ctx xid s
  | .portOpenAck port ctx xid => Sys2Proof.Machine.execPortOpenAck port ctx xid s
  | .slideCopy ctx xid => Sys2Proof.Machine.execSlideCopy ctx xid s
  | .slideAdvance ctx xid => Sys2Proof.Machine.execSlideAdvance ctx xid s
  | .portAdvance port ctx xid => Sys2Proof.Machine.execPortAdvance port ctx xid s
  | .slideClose ctx xid => Sys2Proof.Machine.execSlideClose ctx xid s
  | .portClose port ctx xid => Sys2Proof.Machine.execPortClose port ctx xid s
  | .slideCommit ctx xid => Sys2Proof.Machine.execSlideCommit ctx xid s
  | .portCommit port ctx xid => Sys2Proof.Machine.execPortCommit port ctx xid s
  | .slideAckTimeout ctx xid => Sys2Proof.Machine.execSlideAckTimeout ctx xid s
  | .residencyDemote ctx xid => Sys2Proof.Machine.execResidencyDemote ctx xid s
  | .residencyPromote ctx xid => Sys2Proof.Machine.execResidencyPromote ctx xid s
  | .retireAccessesDrained ctx xid => Sys2Proof.Machine.execRetireAccessesDrained ctx xid s
  | .arrivalCounted core wslot => Sys2Proof.Machine.execArrivalCounted core wslot s
  | .blockedWordResume core wslot split => Sys2Proof.Machine.execBlockedWordResume core wslot split s
  | .ownershipRequest core line => Sys2Proof.Machine.execOwnershipRequest core line s
  | .recallLine line => Sys2Proof.Machine.execRecallLine line s
  | .lineSurrender line => Sys2Proof.Machine.execLineSurrender line s
  | .directoryMerge slice base size => Sys2Proof.Machine.execDirectoryMerge slice base size s
  | .l1Eviction core line => Sys2Proof.Machine.execL1Eviction core line s
  | .cxlCacheResponse line exclusive => Sys2Proof.Machine.execCxlCacheResponse line exclusive s
  | .snpdata line => Sys2Proof.Machine.execSnpdata line s
  | .snpinv line => Sys2Proof.Machine.execSnpinv line s
  | .atomicopCompletion req lane resp => Sys2Proof.Machine.execAtomicopCompletion req lane resp s
  | .shareReq msg => Sys2Proof.Machine.execShareReq msg s
  | .grant msg => Sys2Proof.Machine.execGrant msg s
  | .add msg => Sys2Proof.Machine.execAdd msg s
  | .drain msg => Sys2Proof.Machine.execDrain msg s
  | .fdrain msg => Sys2Proof.Machine.execFdrain msg s
  | .bload msg => Sys2Proof.Machine.execBload msg s
  | .bvalue msg => Sys2Proof.Machine.execBvalue msg s
  | .copyPiece op j => Sys2Proof.Machine.execCopyPiece op j s
  | .copyComplete op => Sys2Proof.Machine.execCopyComplete op s
  | .exchangeRunEmit part => Sys2Proof.Machine.execExchangeRunEmit part s
  | .exchangeRun pkt => Sys2Proof.Machine.execExchangeRun pkt s
  | .runAcknowledgment pkt => Sys2Proof.Machine.execRunAcknowledgment pkt s
  | .runResend part j => Sys2Proof.Machine.execRunResend part j s
  | .exchangeEnd pkt => Sys2Proof.Machine.execExchangeEnd pkt s
  | .exchangePartComplete part => Sys2Proof.Machine.execExchangePartComplete part s
  | .xgCancelComplete part => Sys2Proof.Machine.execXgCancelComplete part s
  | .matrixComplete op => Sys2Proof.Machine.execMatrixComplete op s
  | .remoteReplay core wslot => Sys2Proof.Machine.execRemoteReplay core wslot s
  | .remoteRequest pkt => Sys2Proof.Machine.execRemoteRequest pkt s
  | .remoteReply pkt => Sys2Proof.Machine.execRemoteReply pkt s
  | .remoteAcknowledgment pkt => Sys2Proof.Machine.execRemoteAcknowledgment pkt s
  | .refusal pkt => Sys2Proof.Machine.execRefusal pkt s
  | .responseTimeout replay lane => Sys2Proof.Machine.execResponseTimeout replay lane s
  | .postedTimeout post => Sys2Proof.Machine.execPostedTimeout post s
  | .flitReceive plane bytes => Sys2Proof.Machine.execFlitReceive plane bytes s
  | .replayRequest plane => Sys2Proof.Machine.execReplayRequest plane s
  | .heartbeat plane => Sys2Proof.Machine.execHeartbeat plane s
  | .linkRetrain plane init => Sys2Proof.Machine.execLinkRetrain plane init s
  | .linkIdleTimeout plane => Sys2Proof.Machine.execLinkIdleTimeout plane s
  | .linkDown plane => Sys2Proof.Machine.execLinkDown plane s
  | .idleFlit plane => Sys2Proof.Machine.execIdleFlit plane s
  | .throttleProposal group member window mhz => Sys2Proof.Machine.execThrottleProposal group member window mhz s
  | .energyWindow meas => Sys2Proof.Machine.execEnergyWindow meas s
  | .doorbell port q tail => Sys2Proof.Machine.execDoorbell port q tail s
  | .queueTake part => Sys2Proof.Machine.execQueueTake part s
  | .priorityAging task => Sys2Proof.Machine.execPriorityAging task s
  | .taskDue part => Sys2Proof.Machine.execTaskDue part s
  | .dispatchDecision cluster => Sys2Proof.Machine.execDispatchDecision cluster s
  | .warpFree core wslot counts => Sys2Proof.Machine.execWarpFree core wslot counts s
  | .taskRetire task => Sys2Proof.Machine.execTaskRetire task s
  | .preemptionStarvation task => Sys2Proof.Machine.execPreemptionStarvation task s
  | .saveComplete group => Sys2Proof.Machine.execSaveComplete group s
  | .rldSaveTimeout group => Sys2Proof.Machine.execRldSaveTimeout group s
  | .watchdogExpire block => Sys2Proof.Machine.execWatchdogExpire block s
  | .claimGrant block => Sys2Proof.Machine.execClaimGrant block s
  | .wyieldRelease block => Sys2Proof.Machine.execWyieldRelease block s
  | .wfetchFill idx => Sys2Proof.Machine.execWfetchFill idx s
  | .auditReplay idx core => Sys2Proof.Machine.execAuditReplay idx core s
  | .auditReplayEnd idx => Sys2Proof.Machine.execAuditReplayEnd idx s
  | .scrubRead port => Sys2Proof.Machine.execScrubRead port s
  | .scrubWrite port => Sys2Proof.Machine.execScrubWrite port s
  | .powerDownEntry port pc => Sys2Proof.Machine.execPowerDownEntry port pc s
  | .selfRefreshEntry port pc => Sys2Proof.Machine.execSelfRefreshEntry port pc s
  | .hbmThermalBand stack temp => Sys2Proof.Machine.execHbmThermalBand stack temp s
  | .inletOvertemp inlet junction => Sys2Proof.Machine.execInletOvertemp inlet junction s
  | .hostPortDown port => Sys2Proof.Machine.execHostPortDown port s
  | .cxlPortWaitTimeout req => Sys2Proof.Machine.execCxlPortWaitTimeout req s
  | .reset => Sys2Proof.Machine.execReset s
  | .bootStep img => Sys2Proof.Machine.execBootStep img s
  | .bar0Write port off value => Sys2Proof.Machine.execBar0Write port off value s
  | .extentCreate => Sys2Proof.Machine.execExtentCreate s
  | .extentRetire => Sys2Proof.Machine.execExtentRetire s
  | .hostWindowWrite => Sys2Proof.Machine.execHostWindowWrite s
  | .rcbWrite => Sys2Proof.Machine.execRcbWrite s
  | .membershipTableEntry => Sys2Proof.Machine.execMembershipTableEntry s
  | .groupTableEntry => Sys2Proof.Machine.execGroupTableEntry s
  | .faultFrameAnswer => Sys2Proof.Machine.execFaultFrameAnswer s
  | .preemptionRequest => Sys2Proof.Machine.execPreemptionRequest s
  | .regionKill => Sys2Proof.Machine.execRegionKill s
  | .attestationQuote => Sys2Proof.Machine.execAttestationQuote s
  | .acceptWork => Sys2Proof.Machine.execAcceptWork s
  | .demotionPool => Sys2Proof.Machine.execDemotionPool s
  | .pinQuota => Sys2Proof.Machine.execPinQuota s
  | .auditSetting => Sys2Proof.Machine.execAuditSetting s
  | .physicalCopy => Sys2Proof.Machine.execPhysicalCopy s
  | .unknownCommand => Sys2Proof.Machine.execUnknownCommand s
  | .hostPortUp port => Sys2Proof.Machine.execHostPortUp port s
  | .channelExit port pc => Sys2Proof.Machine.execChannelExit port pc s

end Sys2Proof.Machine
end

