-- ==== Sys2Proof/Machine/Interlock.lean ====
section
/-! DEFINITION. The interlock of words with results that are not yet written (02_encoding.md R28): the registers and the flag `scc` that
each word reads or writes. Such results are the status of an arrival or a `wdone` whose release has not been performed (10_sync.md R202,
R204, 21_work.md R378, R380) and the vector result of a `vscvt` whose scales have not been read (06_vector.md R134). -/
namespace Sys2Proof.Machine

/-- The scalar an operand field names. -/
def opScalar : Operand → List Nat
  | .s r => [r.val]
  | _ => []

/-- The scalars an operand field of `sadd64` names: a pair. -/
def opPair : Operand → List Nat
  | .s r => [r.val, r.val + 1]
  | _ => []

/-- n scalars from one on. -/
def scalars (r n : Nat) : List Nat := (List.range n).map (r + ·)

/-- The scalars that a word reads or writes when it issues (02_encoding.md R28). -/
def namedScalars : Instr → List Nat
  | .sadd d a b => [d.val] ++ opScalar a ++ opScalar b
  | .ssub d a b => [d.val] ++ opScalar a ++ opScalar b
  | .smul d a b => [d.val] ++ opScalar a ++ opScalar b
  | .smulhi d a b => [d.val] ++ opScalar a ++ opScalar b
  | .sand d a b => [d.val] ++ opScalar a ++ opScalar b
  | .sor d a b => [d.val] ++ opScalar a ++ opScalar b
  | .sxor d a b => [d.val] ++ opScalar a ++ opScalar b
  | .sshl d a b => [d.val] ++ opScalar a ++ opScalar b
  | .sshr d a b => [d.val] ++ opScalar a ++ opScalar b
  | .ssra d a b => [d.val] ++ opScalar a ++ opScalar b
  | .smin d a b => [d.val] ++ opScalar a ++ opScalar b
  | .smax d a b => [d.val] ++ opScalar a ++ opScalar b
  | .scmp _ a b => opScalar a ++ opScalar b
  | .ssel d a b => [d.val] ++ opScalar a ++ opScalar b
  | .sadd64 d a b => scalars d.val 2 ++ opPair a ++ opPair b
  | .smov d a => [d.val] ++ opScalar a
  | .jmp _ => []
  | .bscc _ _ => []
  | .bdiv _ _ _ => []
  | .bany _ _ _ => []
  | .ball _ _ _ => []
  | .join _ => []
  | .brk _ _ _ => []
  | .call _ => []
  | .ret => []
  | .exit => []
  | .mand _ _ _ => []
  | .mor _ _ _ => []
  | .mxor _ _ _ => []
  | .mandn _ _ _ => []
  | .mfrom _ => []
  | .mto _ _ => []
  | .vaddI32 _ a b _ => opScalar a ++ opScalar b
  | .vsubI32 _ a b _ => opScalar a ++ opScalar b
  | .vmulI32 _ a b _ => opScalar a ++ opScalar b
  | .vmulhiI32 _ a b _ => opScalar a ++ opScalar b
  | .vmulhiN32 _ a b _ => opScalar a ++ opScalar b
  | .vmadI32 _ a b _ => opScalar a ++ opScalar b
  | .vandB32 _ a b _ => opScalar a ++ opScalar b
  | .vorB32 _ a b _ => opScalar a ++ opScalar b
  | .vxorB32 _ a b _ => opScalar a ++ opScalar b
  | .vshlB32 _ a b _ => opScalar a ++ opScalar b
  | .vshrN32 _ a b _ => opScalar a ++ opScalar b
  | .vshrI32 _ a b _ => opScalar a ++ opScalar b
  | .vminI32 _ a b _ => opScalar a ++ opScalar b
  | .vminN32 _ a b _ => opScalar a ++ opScalar b
  | .vmaxI32 _ a b _ => opScalar a ++ opScalar b
  | .vmaxN32 _ a b _ => opScalar a ++ opScalar b
  | .vaddF32 _ a b _ => opScalar a ++ opScalar b
  | .vfmaF32 _ a b _ => opScalar a ++ opScalar b
  | .vsubF32 _ a b _ => opScalar a ++ opScalar b
  | .vmulF32 _ a b _ => opScalar a ++ opScalar b
  | .vminF32 _ a b _ => opScalar a ++ opScalar b
  | .vmaxF32 _ a b _ => opScalar a ++ opScalar b
  | .vrcpF32 _ a _ => opScalar a
  | .vrsqrtF32 _ a _ => opScalar a
  | .vsqrtF32 _ a _ => opScalar a
  | .vexp2F32 _ a _ => opScalar a
  | .vlog2F32 _ a _ => opScalar a
  | .vabsF32 _ a _ => opScalar a
  | .vnegF32 _ a _ => opScalar a
  | .vfmsF32 _ a b _ => opScalar a ++ opScalar b
  | .vrndF32 _ a _ _ => opScalar a
  | .vclassF32 _ a _ => opScalar a
  | .vaddF16 _ a b _ => opScalar a ++ opScalar b
  | .vfmaF16 _ a b _ => opScalar a ++ opScalar b
  | .vmulF16 _ a b _ => opScalar a ++ opScalar b
  | .vaddBf16 _ a b _ => opScalar a ++ opScalar b
  | .vfmaBf16 _ a b _ => opScalar a ++ opScalar b
  | .vmulBf16 _ a b _ => opScalar a ++ opScalar b
  | .vmovB32 _ a _ => opScalar a
  | .vpopcB32 _ a _ => opScalar a
  | .vclzB32 _ a _ => opScalar a
  | .vbrevB32 _ a _ => opScalar a
  | .vdot4I8 _ a b _ => opScalar a ++ opScalar b
  | .vaddF32Rz _ a b _ => opScalar a ++ opScalar b
  | .vaddF32Ru _ a b _ => opScalar a ++ opScalar b
  | .vaddF32Rd _ a b _ => opScalar a ++ opScalar b
  | .vsubF32Rz _ a b _ => opScalar a ++ opScalar b
  | .vsubF32Ru _ a b _ => opScalar a ++ opScalar b
  | .vsubF32Rd _ a b _ => opScalar a ++ opScalar b
  | .vmulF32Rz _ a b _ => opScalar a ++ opScalar b
  | .vmulF32Ru _ a b _ => opScalar a ++ opScalar b
  | .vmulF32Rd _ a b _ => opScalar a ++ opScalar b
  | .vfmaF32Rz _ a b _ => opScalar a ++ opScalar b
  | .vfmaF32Ru _ a b _ => opScalar a ++ opScalar b
  | .vfmaF32Rd _ a b _ => opScalar a ++ opScalar b
  | .vcmpI32 _ _ a b _ => opScalar a ++ opScalar b
  | .vcmpN32 _ _ a b _ => opScalar a ++ opScalar b
  | .vcmpF32 _ _ a b _ => opScalar a ++ opScalar b
  | .vselB32 _ a b => opScalar a ++ opScalar b
  | .vcvtF32I32 _ a _ _ => opScalar a
  | .vcvtF32N32 _ a _ _ => opScalar a
  | .vcvtI32F32 _ a _ _ => opScalar a
  | .vcvtN32F32 _ a _ _ => opScalar a
  | .vcvtF16F32 _ a k _ => opScalar a ++ (if k.mode.val == 4 then [63] else [])
  | .vcvtBf16F32 _ a k _ => opScalar a ++ (if k.mode.val == 4 then [63] else [])
  | .vcvtE4m3F32 _ a k _ => opScalar a ++ (if k.mode.val == 4 then [63] else [])
  | .vcvtE5m2F32 _ a k _ => opScalar a ++ (if k.mode.val == 4 then [63] else [])
  | .vcvtLog6F32 _ a k _ => opScalar a ++ (if k.mode.val == 4 then [63] else [])
  | .vcvtF32F16 _ a _ _ => opScalar a
  | .vcvtF32Bf16 _ a _ _ => opScalar a
  | .vcvtF32E4m3 _ a _ _ => opScalar a
  | .vcvtF32E5m2 _ a _ _ => opScalar a
  | .vcvtF32Log6 _ a _ _ => opScalar a
  | .vscvt _ _ k _ => [60, 61, 62] ++ (if k.mode.val == 4 then [63] else [])
  | .vshflB32 _ _ b _ => opScalar b
  | .vnblB32 _ _ _ _ => []
  | .vnbrB32 _ _ _ _ => []
  | .vbcastB32 _ _ b _ => opScalar b
  | .vredAddI32 _ _ _ => []
  | .vredAddF32 _ _ _ => []
  | .vredMaxF32 _ _ _ => []
  | .vredMinF32 _ _ _ => []
  | .vscanAddI32 _ _ _ => []
  | .vscanAddF32 _ _ _ => []
  | .vballot _ a _ => opScalar a
  | .vrdlane d _ b => d.val :: opScalar b
  | .ldN8 _ sb _ _ _ => scalars sb.val 2
  | .ldI8 _ sb _ _ _ => scalars sb.val 2
  | .ldN16 _ sb _ _ _ => scalars sb.val 2
  | .ldI16 _ sb _ _ _ => scalars sb.val 2
  | .ldB32 _ sb _ _ _ => scalars sb.val 2
  | .ldB64 _ sb _ _ _ => scalars sb.val 2
  | .ldB128 _ sb _ _ _ => scalars sb.val 2
  | .stB8 _ sb _ _ _ => scalars sb.val 2
  | .stB16 _ sb _ _ _ => scalars sb.val 2
  | .stB32 _ sb _ _ _ => scalars sb.val 2
  | .stB64 _ sb _ _ _ => scalars sb.val 2
  | .stB128 _ sb _ _ _ => scalars sb.val 2
  | .ldLane _ _ _ _ => []
  | .stLane _ _ _ _ => []
  | .ldSp _ _ _ _ => []
  | .stSp _ _ _ _ => []
  | .ldCm _ _ _ _ => []
  | .stCm _ _ _ _ => []
  | .ldCst _ _ _ _ => []
  | .stCst _ _ _ _ => []
  | .sldB32 d sb _ _ => d.val :: scalars sb.val 2
  | .sstB32 d sb _ _ => d.val :: scalars sb.val 2
  | .pf sb _ _ _ => scalars sb.val 2
  | .cinv sb _ _ => scalars sb.val 2
  | .xprobe d sb _ => d.val :: scalars sb.val 2
  | .xinfo d sb _ => d.val :: scalars sb.val 2
  | .hpin d sb => d.val :: scalars sb.val 2
  | .hdemote d sb => d.val :: scalars sb.val 2
  | .hprio d sb _ => d.val :: scalars sb.val 2
  | .hunpin d sb => d.val :: scalars sb.val 2
  | .atomAddI32 _ sb _ _ _ => scalars sb.val 2
  | .atomAddF32 _ sb _ _ _ => scalars sb.val 2
  | .atomMinI32 _ sb _ _ _ => scalars sb.val 2
  | .atomMaxI32 _ sb _ _ _ => scalars sb.val 2
  | .atomMinN32 _ sb _ _ _ => scalars sb.val 2
  | .atomMaxN32 _ sb _ _ _ => scalars sb.val 2
  | .atomAndB32 _ sb _ _ _ => scalars sb.val 2
  | .atomOrB32 _ sb _ _ _ => scalars sb.val 2
  | .atomXchgB32 _ sb _ _ _ => scalars sb.val 2
  | .atomCasB32 _ sb _ _ _ => scalars sb.val 2
  | .atomAddI64 _ sb _ _ _ => scalars sb.val 2
  | .atomXchgB64 _ sb _ _ _ => scalars sb.val 2
  | .atomCasB64 _ sb _ _ _ => scalars sb.val 2
  | .atomCasB128 _ sb _ _ _ => scalars sb.val 2
  | .bredAddF32 _ sb _ _ _ => scalars sb.val 2
  | .ldBnd _ sb _ _ _ => scalars sb.val 2
  | .barInit sb sv d _ => [sb.val, sv.val, d.val]
  | .barArrive sb sv d => [sb.val, sv.val, d.val]
  | .barExpect sb sv d => [sb.val, sv.val, d.val]
  | .barWait sb sv d => [sb.val, sv.val, d.val]
  | .barTest sb sv d => [sb.val, sv.val, d.val]
  | .barDrop sb d => [sb.val, d.val]
  | .wait _ _ _ _ _ _ => []
  | .bdrain _ => []
  | .rldB32 _ sb _ _ _ => scalars sb.val 3
  | .rldB64 _ sb _ _ _ => scalars sb.val 3
  | .rldB128 _ sb _ _ _ => scalars sb.val 3
  | .rstB32 _ sb _ _ _ => scalars sb.val 2
  | .rstB64 _ sb _ _ _ => scalars sb.val 2
  | .ratom _ sb _ _ _ => scalars sb.val 3
  | .rred _ sb _ _ _ => scalars sb.val 2
  | .rmcast _ sb _ _ _ => scalars sb.val 2
  | .mmaE4m3 _ sa sw sk _ => scalars sa.val 2 ++ [sw.val, sk.val]
  | .mmaE5m2 _ sa sw sk _ => scalars sa.val 2 ++ [sw.val, sk.val]
  | .mmaBf16 _ sa sw sk _ => scalars sa.val 2 ++ [sw.val, sk.val]
  | .mmaF16 _ sa sw sk _ => scalars sa.val 2 ++ [sw.val, sk.val]
  | .mmaLog6 _ sa sw sk _ => scalars sa.val 2 ++ [sw.val, sk.val]
  | .wbldDense sa sw sk => scalars sa.val 2 ++ (sw.val :: scalars sk.val 2)
  | .wbldSp24 sa sw sk => scalars sa.val 2 ++ (sw.val :: scalars sk.val 2)
  | .wbldCb4 sa sw sk => scalars sa.val 2 ++ (sw.val :: scalars sk.val 2)
  | .tzero _ => []
  | .tmov _ sa => [sa.val]
  | .tst _ sa sk => sa.val :: scalars sk.val 2
  | .tadd _ _ => []
  | .tld _ sa sk => sa.val :: scalars sk.val 2
  | .cpStart cb tk => tk.val :: scalars cb.val 6
  | .cpRect cb tk => tk.val :: scalars cb.val 13
  | .cpFill cb tk => tk.val :: scalars cb.val 5
  | .cpTier cb tk => tk.val :: scalars cb.val 4
  | .xgStart cb tk => tk.val :: scalars cb.val 10
  | .xgCancel cb _ d => d.val :: scalars cb.val 2
  | .tokTest _ d => [d.val]
  | .cpCancel _ d => [d.val]
  | .xgQuery _ d _ => [d.val]
  | .cpBcast cb tk => tk.val :: scalars cb.val 6
  | .trap _ => []
  | .brkpt _ => []
  | .rdsr d _ => [d.val]
  | .wrsr d _ => [d.val]
  | .fret _ => []
  | .fkill _ => []
  | .frd d _ _ _ => [d.val]
  | .pclr d _ => [d.val]
  | .wfetch sg st => st.val :: scalars sg.val 4
  | .hbeat => []
  | .rgclaim d _ => [d.val]
  | .rgrel d _ => [d.val]
  | .wdone sg st => st.val :: scalars sg.val 3
  | .wcond d _ => [d.val]
  | .wlaunch sg st => st.val :: scalars sg.val 2
  | .wyield d => [d.val]
  | .clauseGrant _ _ => []
  | .rankAging _ _ => []
  | .impreciseFault _ _ _ _ _ _ => []
  | .ringFull _ => []
  | .handlerStart _ => []
  | .loadComplete _ => []
  | .storeComplete _ => []
  | .writeThroughApply _ _ => []
  | .ecbWalk _ _ _ => []
  | .portTranslate _ => []
  | .rowRemapReloadDone _ _ _ => []
  | .cxlMemRequest _ _ _ => []
  | .bar2Request _ _ _ _ => []
  | .slideStart _ _ => []
  | .portSlideBegin _ _ _ => []
  | .slideOpen _ _ => []
  | .portOpen _ _ _ => []
  | .portOpenAck _ _ _ => []
  | .slideCopy _ _ => []
  | .slideAdvance _ _ => []
  | .portAdvance _ _ _ => []
  | .slideClose _ _ => []
  | .portClose _ _ _ => []
  | .slideCommit _ _ => []
  | .portCommit _ _ _ => []
  | .slideAckTimeout _ _ => []
  | .residencyDemote _ _ => []
  | .residencyPromote _ _ => []
  | .retireAccessesDrained _ _ => []
  | .arrivalCounted _ _ => []
  | .blockedWordResume _ _ _ => []
  | .ownershipRequest _ _ => []
  | .recallLine _ => []
  | .lineSurrender _ => []
  | .directoryMerge _ _ _ => []
  | .l1Eviction _ _ => []
  | .cxlCacheResponse _ _ => []
  | .snpdata _ => []
  | .snpinv _ => []
  | .atomicopCompletion _ _ _ => []
  | .shareReq _ => []
  | .grant _ => []
  | .add _ => []
  | .drain _ => []
  | .fdrain _ => []
  | .bload _ => []
  | .bvalue _ => []
  | .copyPiece _ _ => []
  | .copyComplete _ => []
  | .exchangeRunEmit _ => []
  | .exchangeRun _ => []
  | .runAcknowledgment _ => []
  | .runResend _ _ => []
  | .exchangeEnd _ => []
  | .exchangePartComplete _ => []
  | .xgCancelComplete _ => []
  | .matrixComplete _ => []
  | .remoteReplay _ _ => []
  | .remoteRequest _ => []
  | .remoteReply _ => []
  | .remoteAcknowledgment _ => []
  | .refusal _ => []
  | .responseTimeout _ _ => []
  | .postedTimeout _ => []
  | .flitReceive _ _ => []
  | .replayRequest _ => []
  | .heartbeat _ => []
  | .linkRetrain _ _ => []
  | .linkIdleTimeout _ => []
  | .linkDown _ => []
  | .idleFlit _ => []
  | .throttleProposal _ _ _ _ => []
  | .energyWindow _ => []
  | .doorbell _ _ _ => []
  | .queueTake _ => []
  | .priorityAging _ => []
  | .taskDue _ => []
  | .dispatchDecision _ => []
  | .warpFree _ _ _ => []
  | .taskRetire _ => []
  | .preemptionStarvation _ => []
  | .saveComplete _ => []
  | .rldSaveTimeout _ => []
  | .watchdogExpire _ => []
  | .claimGrant _ => []
  | .wyieldRelease _ => []
  | .wfetchFill _ => []
  | .auditReplay _ _ => []
  | .auditReplayEnd _ => []
  | .scrubRead _ => []
  | .scrubWrite _ => []
  | .powerDownEntry _ _ => []
  | .selfRefreshEntry _ _ => []
  | .hbmThermalBand _ _ => []
  | .inletOvertemp _ _ => []
  | .hostPortDown _ => []
  | .cxlPortWaitTimeout _ => []
  | .reset => []
  | .bootStep _ => []
  | .bar0Write _ _ _ => []
  | .extentCreate => []
  | .extentRetire => []
  | .hostWindowWrite => []
  | .rcbWrite => []
  | .membershipTableEntry => []
  | .groupTableEntry => []
  | .faultFrameAnswer => []
  | .preemptionRequest => []
  | .regionKill => []
  | .attestationQuote => []
  | .acceptWork => []
  | .demotionPool => []
  | .pinQuota => []
  | .auditSetting => []
  | .physicalCopy => []
  | .unknownCommand => []
  | .hostPortUp _ => []
  | .channelExit _ _ => []

/-- Whether a word reads or writes `scc`. -/
def usesScc : Instr → Bool
  | .sadd _ _ _ => false
  | .ssub _ _ _ => false
  | .smul _ _ _ => false
  | .smulhi _ _ _ => false
  | .sand _ _ _ => false
  | .sor _ _ _ => false
  | .sxor _ _ _ => false
  | .sshl _ _ _ => false
  | .sshr _ _ _ => false
  | .ssra _ _ _ => false
  | .smin _ _ _ => false
  | .smax _ _ _ => false
  | .scmp _ _ _ => true
  | .ssel _ _ _ => true
  | .sadd64 _ _ _ => false
  | .smov _ _ => false
  | .jmp _ => false
  | .bscc _ _ => true
  | .bdiv _ _ _ => false
  | .bany _ _ _ => false
  | .ball _ _ _ => false
  | .join _ => false
  | .brk _ _ _ => false
  | .call _ => false
  | .ret => false
  | .exit => false
  | .mand _ _ _ => false
  | .mor _ _ _ => false
  | .mxor _ _ _ => false
  | .mandn _ _ _ => false
  | .mfrom _ => false
  | .mto _ _ => false
  | .vaddI32 _ _ _ _ => false
  | .vsubI32 _ _ _ _ => false
  | .vmulI32 _ _ _ _ => false
  | .vmulhiI32 _ _ _ _ => false
  | .vmulhiN32 _ _ _ _ => false
  | .vmadI32 _ _ _ _ => false
  | .vandB32 _ _ _ _ => false
  | .vorB32 _ _ _ _ => false
  | .vxorB32 _ _ _ _ => false
  | .vshlB32 _ _ _ _ => false
  | .vshrN32 _ _ _ _ => false
  | .vshrI32 _ _ _ _ => false
  | .vminI32 _ _ _ _ => false
  | .vminN32 _ _ _ _ => false
  | .vmaxI32 _ _ _ _ => false
  | .vmaxN32 _ _ _ _ => false
  | .vaddF32 _ _ _ _ => false
  | .vfmaF32 _ _ _ _ => false
  | .vsubF32 _ _ _ _ => false
  | .vmulF32 _ _ _ _ => false
  | .vminF32 _ _ _ _ => false
  | .vmaxF32 _ _ _ _ => false
  | .vrcpF32 _ _ _ => false
  | .vrsqrtF32 _ _ _ => false
  | .vsqrtF32 _ _ _ => false
  | .vexp2F32 _ _ _ => false
  | .vlog2F32 _ _ _ => false
  | .vabsF32 _ _ _ => false
  | .vnegF32 _ _ _ => false
  | .vfmsF32 _ _ _ _ => false
  | .vrndF32 _ _ _ _ => false
  | .vclassF32 _ _ _ => false
  | .vaddF16 _ _ _ _ => false
  | .vfmaF16 _ _ _ _ => false
  | .vmulF16 _ _ _ _ => false
  | .vaddBf16 _ _ _ _ => false
  | .vfmaBf16 _ _ _ _ => false
  | .vmulBf16 _ _ _ _ => false
  | .vmovB32 _ _ _ => false
  | .vpopcB32 _ _ _ => false
  | .vclzB32 _ _ _ => false
  | .vbrevB32 _ _ _ => false
  | .vdot4I8 _ _ _ _ => false
  | .vaddF32Rz _ _ _ _ => false
  | .vaddF32Ru _ _ _ _ => false
  | .vaddF32Rd _ _ _ _ => false
  | .vsubF32Rz _ _ _ _ => false
  | .vsubF32Ru _ _ _ _ => false
  | .vsubF32Rd _ _ _ _ => false
  | .vmulF32Rz _ _ _ _ => false
  | .vmulF32Ru _ _ _ _ => false
  | .vmulF32Rd _ _ _ _ => false
  | .vfmaF32Rz _ _ _ _ => false
  | .vfmaF32Ru _ _ _ _ => false
  | .vfmaF32Rd _ _ _ _ => false
  | .vcmpI32 _ _ _ _ _ => false
  | .vcmpN32 _ _ _ _ _ => false
  | .vcmpF32 _ _ _ _ _ => false
  | .vselB32 _ _ _ => false
  | .vcvtF32I32 _ _ _ _ => false
  | .vcvtF32N32 _ _ _ _ => false
  | .vcvtI32F32 _ _ _ _ => false
  | .vcvtN32F32 _ _ _ _ => false
  | .vcvtF16F32 _ _ _ _ => false
  | .vcvtBf16F32 _ _ _ _ => false
  | .vcvtE4m3F32 _ _ _ _ => false
  | .vcvtE5m2F32 _ _ _ _ => false
  | .vcvtLog6F32 _ _ _ _ => false
  | .vcvtF32F16 _ _ _ _ => false
  | .vcvtF32Bf16 _ _ _ _ => false
  | .vcvtF32E4m3 _ _ _ _ => false
  | .vcvtF32E5m2 _ _ _ _ => false
  | .vcvtF32Log6 _ _ _ _ => false
  | .vscvt _ _ _ _ => false
  | .vshflB32 _ _ _ _ => false
  | .vnblB32 _ _ _ _ => false
  | .vnbrB32 _ _ _ _ => false
  | .vbcastB32 _ _ _ _ => false
  | .vredAddI32 _ _ _ => false
  | .vredAddF32 _ _ _ => false
  | .vredMaxF32 _ _ _ => false
  | .vredMinF32 _ _ _ => false
  | .vscanAddI32 _ _ _ => false
  | .vscanAddF32 _ _ _ => false
  | .vballot _ _ _ => false
  | .vrdlane _ _ _ => false
  | .ldN8 _ _ _ _ _ => false
  | .ldI8 _ _ _ _ _ => false
  | .ldN16 _ _ _ _ _ => false
  | .ldI16 _ _ _ _ _ => false
  | .ldB32 _ _ _ _ _ => false
  | .ldB64 _ _ _ _ _ => false
  | .ldB128 _ _ _ _ _ => false
  | .stB8 _ _ _ _ _ => false
  | .stB16 _ _ _ _ _ => false
  | .stB32 _ _ _ _ _ => false
  | .stB64 _ _ _ _ _ => false
  | .stB128 _ _ _ _ _ => false
  | .ldLane _ _ _ _ => false
  | .stLane _ _ _ _ => false
  | .ldSp _ _ _ _ => false
  | .stSp _ _ _ _ => false
  | .ldCm _ _ _ _ => false
  | .stCm _ _ _ _ => false
  | .ldCst _ _ _ _ => false
  | .stCst _ _ _ _ => false
  | .sldB32 _ _ _ _ => false
  | .sstB32 _ _ _ _ => false
  | .pf _ _ _ _ => false
  | .cinv _ _ _ => false
  | .xprobe _ _ _ => true
  | .xinfo _ _ _ => true
  | .hpin _ _ => true
  | .hdemote _ _ => true
  | .hprio _ _ _ => true
  | .hunpin _ _ => true
  | .atomAddI32 _ _ _ _ _ => false
  | .atomAddF32 _ _ _ _ _ => false
  | .atomMinI32 _ _ _ _ _ => false
  | .atomMaxI32 _ _ _ _ _ => false
  | .atomMinN32 _ _ _ _ _ => false
  | .atomMaxN32 _ _ _ _ _ => false
  | .atomAndB32 _ _ _ _ _ => false
  | .atomOrB32 _ _ _ _ _ => false
  | .atomXchgB32 _ _ _ _ _ => false
  | .atomCasB32 _ _ _ _ _ => false
  | .atomAddI64 _ _ _ _ _ => false
  | .atomXchgB64 _ _ _ _ _ => false
  | .atomCasB64 _ _ _ _ _ => false
  | .atomCasB128 _ _ _ _ _ => false
  | .bredAddF32 _ _ _ _ _ => false
  | .ldBnd _ _ _ _ _ => false
  | .barInit _ _ _ _ => true
  | .barArrive _ _ _ => true
  | .barExpect _ _ _ => true
  | .barWait _ _ _ => true
  | .barTest _ _ _ => true
  | .barDrop _ _ => true
  | .wait _ _ _ _ _ _ => false
  | .bdrain _ => false
  | .rldB32 _ _ _ _ _ => false
  | .rldB64 _ _ _ _ _ => false
  | .rldB128 _ _ _ _ _ => false
  | .rstB32 _ _ _ _ _ => false
  | .rstB64 _ _ _ _ _ => false
  | .ratom _ _ _ _ _ => false
  | .rred _ _ _ _ _ => false
  | .rmcast _ _ _ _ _ => false
  | .mmaE4m3 _ _ _ _ _ => false
  | .mmaE5m2 _ _ _ _ _ => false
  | .mmaBf16 _ _ _ _ _ => false
  | .mmaF16 _ _ _ _ _ => false
  | .mmaLog6 _ _ _ _ _ => false
  | .wbldDense _ _ _ => false
  | .wbldSp24 _ _ _ => false
  | .wbldCb4 _ _ _ => false
  | .tzero _ => false
  | .tmov _ _ => false
  | .tst _ _ _ => false
  | .tadd _ _ => false
  | .tld _ _ _ => false
  | .cpStart _ _ => false
  | .cpRect _ _ => false
  | .cpFill _ _ => false
  | .cpTier _ _ => false
  | .xgStart _ _ => false
  | .xgCancel _ _ _ => true
  | .tokTest _ _ => true
  | .cpCancel _ _ => true
  | .xgQuery _ _ _ => true
  | .cpBcast _ _ => false
  | .trap _ => false
  | .brkpt _ => false
  | .rdsr _ _ => false
  | .wrsr _ _ => false
  | .fret _ => false
  | .fkill _ => false
  | .frd _ _ _ _ => true
  | .pclr _ _ => true
  | .wfetch _ _ => true
  | .hbeat => false
  | .rgclaim _ _ => false
  | .rgrel _ _ => false
  | .wdone _ _ => true
  | .wcond _ _ => true
  | .wlaunch _ _ => true
  | .wyield _ => false
  | .clauseGrant _ _ => false
  | .rankAging _ _ => false
  | .impreciseFault _ _ _ _ _ _ => false
  | .ringFull _ => false
  | .handlerStart _ => false
  | .loadComplete _ => false
  | .storeComplete _ => false
  | .writeThroughApply _ _ => false
  | .ecbWalk _ _ _ => false
  | .portTranslate _ => false
  | .rowRemapReloadDone _ _ _ => false
  | .cxlMemRequest _ _ _ => false
  | .bar2Request _ _ _ _ => false
  | .slideStart _ _ => false
  | .portSlideBegin _ _ _ => false
  | .slideOpen _ _ => false
  | .portOpen _ _ _ => false
  | .portOpenAck _ _ _ => false
  | .slideCopy _ _ => false
  | .slideAdvance _ _ => false
  | .portAdvance _ _ _ => false
  | .slideClose _ _ => false
  | .portClose _ _ _ => false
  | .slideCommit _ _ => false
  | .portCommit _ _ _ => false
  | .slideAckTimeout _ _ => false
  | .residencyDemote _ _ => false
  | .residencyPromote _ _ => false
  | .retireAccessesDrained _ _ => false
  | .arrivalCounted _ _ => false
  | .blockedWordResume _ _ _ => false
  | .ownershipRequest _ _ => false
  | .recallLine _ => false
  | .lineSurrender _ => false
  | .directoryMerge _ _ _ => false
  | .l1Eviction _ _ => false
  | .cxlCacheResponse _ _ => false
  | .snpdata _ => false
  | .snpinv _ => false
  | .atomicopCompletion _ _ _ => false
  | .shareReq _ => false
  | .grant _ => false
  | .add _ => false
  | .drain _ => false
  | .fdrain _ => false
  | .bload _ => false
  | .bvalue _ => false
  | .copyPiece _ _ => false
  | .copyComplete _ => false
  | .exchangeRunEmit _ => false
  | .exchangeRun _ => false
  | .runAcknowledgment _ => false
  | .runResend _ _ => false
  | .exchangeEnd _ => false
  | .exchangePartComplete _ => false
  | .xgCancelComplete _ => false
  | .matrixComplete _ => false
  | .remoteReplay _ _ => false
  | .remoteRequest _ => false
  | .remoteReply _ => false
  | .remoteAcknowledgment _ => false
  | .refusal _ => false
  | .responseTimeout _ _ => false
  | .postedTimeout _ => false
  | .flitReceive _ _ => false
  | .replayRequest _ => false
  | .heartbeat _ => false
  | .linkRetrain _ _ => false
  | .linkIdleTimeout _ => false
  | .linkDown _ => false
  | .idleFlit _ => false
  | .throttleProposal _ _ _ _ => false
  | .energyWindow _ => false
  | .doorbell _ _ _ => false
  | .queueTake _ => false
  | .priorityAging _ => false
  | .taskDue _ => false
  | .dispatchDecision _ => false
  | .warpFree _ _ _ => false
  | .taskRetire _ => false
  | .preemptionStarvation _ => false
  | .saveComplete _ => false
  | .rldSaveTimeout _ => false
  | .watchdogExpire _ => false
  | .claimGrant _ => false
  | .wyieldRelease _ => false
  | .wfetchFill _ => false
  | .auditReplay _ _ => false
  | .auditReplayEnd _ => false
  | .scrubRead _ => false
  | .scrubWrite _ => false
  | .powerDownEntry _ _ => false
  | .selfRefreshEntry _ _ => false
  | .hbmThermalBand _ _ => false
  | .inletOvertemp _ _ => false
  | .hostPortDown _ => false
  | .cxlPortWaitTimeout _ => false
  | .reset => false
  | .bootStep _ => false
  | .bar0Write _ _ _ => false
  | .extentCreate => false
  | .extentRetire => false
  | .hostWindowWrite => false
  | .rcbWrite => false
  | .membershipTableEntry => false
  | .groupTableEntry => false
  | .faultFrameAnswer => false
  | .preemptionRequest => false
  | .regionKill => false
  | .attestationQuote => false
  | .acceptWork => false
  | .demotionPool => false
  | .pinQuota => false
  | .auditSetting => false
  | .physicalCopy => false
  | .unknownCommand => false
  | .hostPortUp _ => false
  | .channelExit _ _ => false

/-- The vector registers that a word reads or writes when it issues; those of `tmov` stand in a scalar. -/
def namedVectors : Instr → List Nat
  | .sadd _ _ _ => []
  | .ssub _ _ _ => []
  | .smul _ _ _ => []
  | .smulhi _ _ _ => []
  | .sand _ _ _ => []
  | .sor _ _ _ => []
  | .sxor _ _ _ => []
  | .sshl _ _ _ => []
  | .sshr _ _ _ => []
  | .ssra _ _ _ => []
  | .smin _ _ _ => []
  | .smax _ _ _ => []
  | .scmp _ _ _ => []
  | .ssel _ _ _ => []
  | .sadd64 _ _ _ => []
  | .smov _ _ => []
  | .jmp _ => []
  | .bscc _ _ => []
  | .bdiv _ _ _ => []
  | .bany _ _ _ => []
  | .ball _ _ _ => []
  | .join _ => []
  | .brk _ _ _ => []
  | .call _ => []
  | .ret => []
  | .exit => []
  | .mand _ _ _ => []
  | .mor _ _ _ => []
  | .mxor _ _ _ => []
  | .mandn _ _ _ => []
  | .mfrom _ => []
  | .mto _ _ => []
  | .vaddI32 d a b _ => d.val :: (opVregs a ++ opVregs b)
  | .vsubI32 d a b _ => d.val :: (opVregs a ++ opVregs b)
  | .vmulI32 d a b _ => d.val :: (opVregs a ++ opVregs b)
  | .vmulhiI32 d a b _ => d.val :: (opVregs a ++ opVregs b)
  | .vmulhiN32 d a b _ => d.val :: (opVregs a ++ opVregs b)
  | .vmadI32 d a b _ => d.val :: (opVregs a ++ opVregs b)
  | .vandB32 d a b _ => d.val :: (opVregs a ++ opVregs b)
  | .vorB32 d a b _ => d.val :: (opVregs a ++ opVregs b)
  | .vxorB32 d a b _ => d.val :: (opVregs a ++ opVregs b)
  | .vshlB32 d a b _ => d.val :: (opVregs a ++ opVregs b)
  | .vshrN32 d a b _ => d.val :: (opVregs a ++ opVregs b)
  | .vshrI32 d a b _ => d.val :: (opVregs a ++ opVregs b)
  | .vminI32 d a b _ => d.val :: (opVregs a ++ opVregs b)
  | .vminN32 d a b _ => d.val :: (opVregs a ++ opVregs b)
  | .vmaxI32 d a b _ => d.val :: (opVregs a ++ opVregs b)
  | .vmaxN32 d a b _ => d.val :: (opVregs a ++ opVregs b)
  | .vaddF32 d a b _ => d.val :: (opVregs a ++ opVregs b)
  | .vfmaF32 d a b _ => d.val :: (opVregs a ++ opVregs b)
  | .vsubF32 d a b _ => d.val :: (opVregs a ++ opVregs b)
  | .vmulF32 d a b _ => d.val :: (opVregs a ++ opVregs b)
  | .vminF32 d a b _ => d.val :: (opVregs a ++ opVregs b)
  | .vmaxF32 d a b _ => d.val :: (opVregs a ++ opVregs b)
  | .vrcpF32 d a _ => d.val :: opVregs a
  | .vrsqrtF32 d a _ => d.val :: opVregs a
  | .vsqrtF32 d a _ => d.val :: opVregs a
  | .vexp2F32 d a _ => d.val :: opVregs a
  | .vlog2F32 d a _ => d.val :: opVregs a
  | .vabsF32 d a _ => d.val :: opVregs a
  | .vnegF32 d a _ => d.val :: opVregs a
  | .vfmsF32 d a b _ => d.val :: (opVregs a ++ opVregs b)
  | .vrndF32 d a _ _ => d.val :: opVregs a
  | .vclassF32 d a _ => d.val :: opVregs a
  | .vaddF16 d a b _ => d.val :: (opVregs a ++ opVregs b)
  | .vfmaF16 d a b _ => d.val :: (opVregs a ++ opVregs b)
  | .vmulF16 d a b _ => d.val :: (opVregs a ++ opVregs b)
  | .vaddBf16 d a b _ => d.val :: (opVregs a ++ opVregs b)
  | .vfmaBf16 d a b _ => d.val :: (opVregs a ++ opVregs b)
  | .vmulBf16 d a b _ => d.val :: (opVregs a ++ opVregs b)
  | .vmovB32 d a _ => d.val :: opVregs a
  | .vpopcB32 d a _ => d.val :: opVregs a
  | .vclzB32 d a _ => d.val :: opVregs a
  | .vbrevB32 d a _ => d.val :: opVregs a
  | .vdot4I8 d a b _ => d.val :: (opVregs a ++ opVregs b)
  | .vaddF32Rz d a b _ => d.val :: (opVregs a ++ opVregs b)
  | .vaddF32Ru d a b _ => d.val :: (opVregs a ++ opVregs b)
  | .vaddF32Rd d a b _ => d.val :: (opVregs a ++ opVregs b)
  | .vsubF32Rz d a b _ => d.val :: (opVregs a ++ opVregs b)
  | .vsubF32Ru d a b _ => d.val :: (opVregs a ++ opVregs b)
  | .vsubF32Rd d a b _ => d.val :: (opVregs a ++ opVregs b)
  | .vmulF32Rz d a b _ => d.val :: (opVregs a ++ opVregs b)
  | .vmulF32Ru d a b _ => d.val :: (opVregs a ++ opVregs b)
  | .vmulF32Rd d a b _ => d.val :: (opVregs a ++ opVregs b)
  | .vfmaF32Rz d a b _ => d.val :: (opVregs a ++ opVregs b)
  | .vfmaF32Ru d a b _ => d.val :: (opVregs a ++ opVregs b)
  | .vfmaF32Rd d a b _ => d.val :: (opVregs a ++ opVregs b)
  | .vcmpI32 _ _ a b _ => opVregs a ++ opVregs b
  | .vcmpN32 _ _ a b _ => opVregs a ++ opVregs b
  | .vcmpF32 _ _ a b _ => opVregs a ++ opVregs b
  | .vselB32 d a b => d.val :: (opVregs a ++ opVregs b)
  | .vcvtF32I32 d a _ _ => d.val :: opVregs a
  | .vcvtF32N32 d a _ _ => d.val :: opVregs a
  | .vcvtI32F32 d a _ _ => d.val :: opVregs a
  | .vcvtN32F32 d a _ _ => d.val :: opVregs a
  | .vcvtF16F32 d a _ _ => d.val :: opVregs a
  | .vcvtBf16F32 d a _ _ => d.val :: opVregs a
  | .vcvtE4m3F32 d a _ _ => d.val :: opVregs a
  | .vcvtE5m2F32 d a _ _ => d.val :: opVregs a
  | .vcvtLog6F32 d a _ _ => d.val :: opVregs a
  | .vcvtF32F16 d a _ _ => d.val :: opVregs a
  | .vcvtF32Bf16 d a _ _ => d.val :: opVregs a
  | .vcvtF32E4m3 d a _ _ => d.val :: opVregs a
  | .vcvtF32E5m2 d a _ _ => d.val :: opVregs a
  | .vcvtF32Log6 d a _ _ => d.val :: opVregs a
  | .vscvt d a _ _ => [d.val, a.val, a.val + 1]
  | .vshflB32 d a b _ => d.val :: a.val :: opVregs b
  | .vnblB32 d a _ _ => [d.val, a.val]
  | .vnbrB32 d a _ _ => [d.val, a.val]
  | .vbcastB32 d a b _ => d.val :: a.val :: opVregs b
  | .vredAddI32 d a _ => [d.val, a.val]
  | .vredAddF32 d a _ => [d.val, a.val]
  | .vredMaxF32 d a _ => [d.val, a.val]
  | .vredMinF32 d a _ => [d.val, a.val]
  | .vscanAddI32 d a _ => [d.val, a.val]
  | .vscanAddF32 d a _ => [d.val, a.val]
  | .vballot _ a _ => opVregs a
  | .vrdlane _ a b => a.val :: opVregs b
  | .ldN8 d _ vo _ _ => groupRegs d.val 1 ++ voRegs vo
  | .ldI8 d _ vo _ _ => groupRegs d.val 1 ++ voRegs vo
  | .ldN16 d _ vo _ _ => groupRegs d.val 2 ++ voRegs vo
  | .ldI16 d _ vo _ _ => groupRegs d.val 2 ++ voRegs vo
  | .ldB32 d _ vo _ _ => groupRegs d.val 4 ++ voRegs vo
  | .ldB64 d _ vo _ _ => groupRegs d.val 8 ++ voRegs vo
  | .ldB128 d _ vo _ _ => groupRegs d.val 16 ++ voRegs vo
  | .stB8 d _ vo _ _ => groupRegs d.val 1 ++ voRegs vo
  | .stB16 d _ vo _ _ => groupRegs d.val 2 ++ voRegs vo
  | .stB32 d _ vo _ _ => groupRegs d.val 4 ++ voRegs vo
  | .stB64 d _ vo _ _ => groupRegs d.val 8 ++ voRegs vo
  | .stB128 d _ vo _ _ => groupRegs d.val 16 ++ voRegs vo
  | .ldLane d vo wd _ => groupRegs d.val (widthOf wd.val) ++ voRegs vo
  | .stLane d vo wd _ => groupRegs d.val (widthOf wd.val) ++ voRegs vo
  | .ldSp d vo wd _ => groupRegs d.val (widthOf wd.val) ++ voRegs vo
  | .stSp d vo wd _ => groupRegs d.val (widthOf wd.val) ++ voRegs vo
  | .ldCm d vo wd _ => groupRegs d.val (widthOf wd.val) ++ voRegs vo
  | .stCm d vo wd _ => groupRegs d.val (widthOf wd.val) ++ voRegs vo
  | .ldCst d vo wd _ => groupRegs d.val (widthOf wd.val) ++ voRegs vo
  | .stCst d vo wd _ => groupRegs d.val (widthOf wd.val) ++ voRegs vo
  | .sldB32 _ _ _ _ => []
  | .sstB32 _ _ _ _ => []
  | .pf _ vo _ _ => voRegs vo
  | .cinv _ vo _ => voRegs vo
  | .xprobe _ _ _ => []
  | .xinfo _ _ _ => []
  | .hpin _ _ => []
  | .hdemote _ _ => []
  | .hprio _ _ _ => []
  | .hunpin _ _ => []
  | .atomAddI32 d _ vo _ _ => groupRegs d.val (atomInputs 0) ++ voRegs vo
  | .atomAddF32 d _ vo _ _ => groupRegs d.val (atomInputs 1) ++ voRegs vo
  | .atomMinI32 d _ vo _ _ => groupRegs d.val (atomInputs 2) ++ voRegs vo
  | .atomMaxI32 d _ vo _ _ => groupRegs d.val (atomInputs 3) ++ voRegs vo
  | .atomMinN32 d _ vo _ _ => groupRegs d.val (atomInputs 4) ++ voRegs vo
  | .atomMaxN32 d _ vo _ _ => groupRegs d.val (atomInputs 5) ++ voRegs vo
  | .atomAndB32 d _ vo _ _ => groupRegs d.val (atomInputs 6) ++ voRegs vo
  | .atomOrB32 d _ vo _ _ => groupRegs d.val (atomInputs 7) ++ voRegs vo
  | .atomXchgB32 d _ vo _ _ => groupRegs d.val (atomInputs 8) ++ voRegs vo
  | .atomCasB32 d _ vo _ _ => groupRegs d.val (atomInputs 9) ++ voRegs vo
  | .atomAddI64 d _ vo _ _ => groupRegs d.val (atomInputs 10) ++ voRegs vo
  | .atomXchgB64 d _ vo _ _ => groupRegs d.val (atomInputs 11) ++ voRegs vo
  | .atomCasB64 d _ vo _ _ => groupRegs d.val (atomInputs 12) ++ voRegs vo
  | .atomCasB128 d _ vo _ _ => groupRegs d.val (atomInputs 13) ++ voRegs vo
  | .bredAddF32 d _ vo _ _ => d.val :: voRegs vo
  | .ldBnd d _ vo _ _ => d.val :: voRegs vo
  | .barInit _ _ _ _ => []
  | .barArrive _ _ _ => []
  | .barExpect _ _ _ => []
  | .barWait _ _ _ => []
  | .barTest _ _ _ => []
  | .barDrop _ _ => []
  | .wait _ _ _ _ _ _ => []
  | .bdrain _ => []
  | .rldB32 d _ vp _ x => vp.val :: (vp.val + 1) :: groupRegs d.val (max (itemSize 0 (x.getD 0)) (itemData 0 (x.getD 0)))
  | .rldB64 d _ vp _ x => vp.val :: (vp.val + 1) :: groupRegs d.val (max (itemSize 1 (x.getD 0)) (itemData 1 (x.getD 0)))
  | .rldB128 d _ vp _ x => vp.val :: (vp.val + 1) :: groupRegs d.val (max (itemSize 2 (x.getD 0)) (itemData 2 (x.getD 0)))
  | .rstB32 d _ vp _ x => vp.val :: (vp.val + 1) :: groupRegs d.val (max (itemSize 3 (x.getD 0)) (itemData 3 (x.getD 0)))
  | .rstB64 d _ vp _ x => vp.val :: (vp.val + 1) :: groupRegs d.val (max (itemSize 4 (x.getD 0)) (itemData 4 (x.getD 0)))
  | .ratom d _ vp _ x => vp.val :: (vp.val + 1) :: groupRegs d.val (max (itemSize 5 (x.getD 0)) (itemData 5 (x.getD 0)))
  | .rred d _ vp _ x => vp.val :: (vp.val + 1) :: groupRegs d.val (max (itemSize 6 (x.getD 0)) (itemData 6 (x.getD 0)))
  | .rmcast d _ vp _ x => vp.val :: (vp.val + 1) :: groupRegs d.val (max (itemSize 7 (x.getD 0)) (itemData 7 (x.getD 0)))
  | .mmaE4m3 _ _ _ _ _ => []
  | .mmaE5m2 _ _ _ _ _ => []
  | .mmaBf16 _ _ _ _ _ => []
  | .mmaF16 _ _ _ _ _ => []
  | .mmaLog6 _ _ _ _ _ => []
  | .wbldDense _ _ _ => []
  | .wbldSp24 _ _ _ => []
  | .wbldCb4 _ _ _ => []
  | .tzero _ => []
  | .tmov _ _ => []
  | .tst _ _ _ => []
  | .tadd _ _ => []
  | .tld _ _ _ => []
  | .cpStart _ _ => []
  | .cpRect _ _ => []
  | .cpFill _ _ => []
  | .cpTier _ _ => []
  | .xgStart _ _ => []
  | .xgCancel _ _ _ => []
  | .tokTest _ _ => []
  | .cpCancel _ _ => []
  | .xgQuery _ _ _ => []
  | .cpBcast _ _ => []
  | .trap _ => []
  | .brkpt _ => []
  | .rdsr _ _ => []
  | .wrsr _ _ => []
  | .fret _ => []
  | .fkill _ => []
  | .frd _ _ _ _ => []
  | .pclr _ _ => []
  | .wfetch _ _ => []
  | .hbeat => []
  | .rgclaim _ _ => []
  | .rgrel _ _ => []
  | .wdone _ _ => []
  | .wcond _ _ => []
  | .wlaunch _ _ => []
  | .wyield _ => []
  | .clauseGrant _ _ => []
  | .rankAging _ _ => []
  | .impreciseFault _ _ _ _ _ _ => []
  | .ringFull _ => []
  | .handlerStart _ => []
  | .loadComplete _ => []
  | .storeComplete _ => []
  | .writeThroughApply _ _ => []
  | .ecbWalk _ _ _ => []
  | .portTranslate _ => []
  | .rowRemapReloadDone _ _ _ => []
  | .cxlMemRequest _ _ _ => []
  | .bar2Request _ _ _ _ => []
  | .slideStart _ _ => []
  | .portSlideBegin _ _ _ => []
  | .slideOpen _ _ => []
  | .portOpen _ _ _ => []
  | .portOpenAck _ _ _ => []
  | .slideCopy _ _ => []
  | .slideAdvance _ _ => []
  | .portAdvance _ _ _ => []
  | .slideClose _ _ => []
  | .portClose _ _ _ => []
  | .slideCommit _ _ => []
  | .portCommit _ _ _ => []
  | .slideAckTimeout _ _ => []
  | .residencyDemote _ _ => []
  | .residencyPromote _ _ => []
  | .retireAccessesDrained _ _ => []
  | .arrivalCounted _ _ => []
  | .blockedWordResume _ _ _ => []
  | .ownershipRequest _ _ => []
  | .recallLine _ => []
  | .lineSurrender _ => []
  | .directoryMerge _ _ _ => []
  | .l1Eviction _ _ => []
  | .cxlCacheResponse _ _ => []
  | .snpdata _ => []
  | .snpinv _ => []
  | .atomicopCompletion _ _ _ => []
  | .shareReq _ => []
  | .grant _ => []
  | .add _ => []
  | .drain _ => []
  | .fdrain _ => []
  | .bload _ => []
  | .bvalue _ => []
  | .copyPiece _ _ => []
  | .copyComplete _ => []
  | .exchangeRunEmit _ => []
  | .exchangeRun _ => []
  | .runAcknowledgment _ => []
  | .runResend _ _ => []
  | .exchangeEnd _ => []
  | .exchangePartComplete _ => []
  | .xgCancelComplete _ => []
  | .matrixComplete _ => []
  | .remoteReplay _ _ => []
  | .remoteRequest _ => []
  | .remoteReply _ => []
  | .remoteAcknowledgment _ => []
  | .refusal _ => []
  | .responseTimeout _ _ => []
  | .postedTimeout _ => []
  | .flitReceive _ _ => []
  | .replayRequest _ => []
  | .heartbeat _ => []
  | .linkRetrain _ _ => []
  | .linkIdleTimeout _ => []
  | .linkDown _ => []
  | .idleFlit _ => []
  | .throttleProposal _ _ _ _ => []
  | .energyWindow _ => []
  | .doorbell _ _ _ => []
  | .queueTake _ => []
  | .priorityAging _ => []
  | .taskDue _ => []
  | .dispatchDecision _ => []
  | .warpFree _ _ _ => []
  | .taskRetire _ => []
  | .preemptionStarvation _ => []
  | .saveComplete _ => []
  | .rldSaveTimeout _ => []
  | .watchdogExpire _ => []
  | .claimGrant _ => []
  | .wyieldRelease _ => []
  | .wfetchFill _ => []
  | .auditReplay _ _ => []
  | .auditReplayEnd _ => []
  | .scrubRead _ => []
  | .scrubWrite _ => []
  | .powerDownEntry _ _ => []
  | .selfRefreshEntry _ _ => []
  | .hbmThermalBand _ _ => []
  | .inletOvertemp _ _ => []
  | .hostPortDown _ => []
  | .cxlPortWaitTimeout _ => []
  | .reset => []
  | .bootStep _ => []
  | .bar0Write _ _ _ => []
  | .extentCreate => []
  | .extentRetire => []
  | .hostWindowWrite => []
  | .rcbWrite => []
  | .membershipTableEntry => []
  | .groupTableEntry => []
  | .faultFrameAnswer => []
  | .preemptionRequest => []
  | .regionKill => []
  | .attestationQuote => []
  | .acceptWork => []
  | .demotionPool => []
  | .pinQuota => []
  | .auditSetting => []
  | .physicalCopy => []
  | .unknownCommand => []
  | .hostPortUp _ => []
  | .channelExit _ _ => []

/-- The scalars that a word reads in some forms alone: `tst` reads s63 in mode 4, `mma` and `wbld` their scale origin when `as` is 1, and
`tok.test` its token scalar when no outstanding operation names it (19_matrix.md R338, R342, R349, 13_engines.md R267). -/
def formScalars (s : State) (i : Instr) : List Nat :=
  let w := s.hwarp
  match i with
  | .tst _ _ sk => if bitsOf (w.s sk.val).toNat 3 3 = 4 then [63] else []
  | .mmaE4m3 _ sa _ sk _ | .mmaE5m2 _ sa _ sk _ | .mmaBf16 _ sa _ sk _ | .mmaF16 _ sa _ sk _ | .mmaLog6 _ sa _ sk _ =>
    if (w.s sk.val).getLsbD 24 then [sa.val + 2, sa.val + 3] else []
  | .wbldDense _ _ sk | .wbldSp24 _ _ sk | .wbldCb4 _ _ sk =>
    if (w.s sk.val).getLsbD 20 then [sk.val + 2, sk.val + 3] else []
  | .tokTest tk _ =>
    if (youngestOp s s.hcore s.run.wslot tk.val).isNone && (youngestPart s s.hcore s.run.wslot tk.val).isNone then [tk.val] else []
  | _ => []

/-- The scalars that a word which is to issue reads or writes. -/
def State.scalarsOf (s : State) (i : Instr) : List Nat := namedScalars i ++ formScalars s i

/-- The vector registers that a word of a warp reads or writes: `tmov` names its pair in a scalar (19_matrix.md R348). -/
def Warp.vectorsOf (w : Warp) (i : Instr) : List Nat :=
  match i with
  | .tmov _ sa => [bitsOf (w.s sa.val).toNat 0 7, bitsOf (w.s sa.val).toNat 0 7 + 1]
  | _ => namedVectors i

/-- Whether a result of a warp that is not yet written holds a word: it names the status or phase scalar of an arrival, the status scalar
of a `wdone`, or `scc`, which these have still to write (10_sync.md R202, R204, 21_work.md R378). -/
def State.pendingHolds (s : State) (i : Instr) : Bool :=
  s.hwarp.arrivals.any (fun a => usesScc i || (s.scalarsOf i).contains a.d || (!a.drop && (s.scalarsOf i).contains a.sv)) ||
  s.hwarp.dones.any (fun a => usesScc i || (s.scalarsOf i).contains a.d)

/-- Whether a word names the result of a `vscvt` of its warp that is not yet written (02_encoding.md R28, 06_vector.md R134). -/
def scaleHolds (s : State) (i : Instr) : Bool :=
  s.mem.reqs.any (fun q => q.2.core == s.hcore && q.2.wslot == s.run.wslot && q.2.kind.isScale && (s.hwarp.vectorsOf i).contains q.2.vd)

/-- Whether the word that would issue is held by a result that is not yet written (02_encoding.md R28). -/
def State.held (s : State) (i : Instr) : Bool := s.pendingHolds i || scaleHolds s i

end Sys2Proof.Machine
end

