-- ==== Sys2Proof/Machine/Turns.lean ====
section
/-! DEFINITION. Turns of the schedule that are no rows of the opcode table: a host processor's write of host memory and its reads of the
BAR0 registers (17_prog_stack.md R329, 23_platform.md R391), memory and cache errors (11_traps.md R220, R221, 12_atomics.md R253), a
row-remap table that fails its check (11_traps.md R223), and the loader's work (03_assembly.md R66, R68). -/
namespace Sys2Proof.Machine

/-! ### The host -/

/-- Whether a home slice holds a host-coherent line of these bytes: the host must snoop it before it writes
(12_atomics.md R236). Each byte of the line is placed by its own extent. -/
def hostHeld (s : State) (pa n : Nat) : Bool :=
  s.mem.moesi.any (fun p => p.2 != 0 && (List.range 128).any (fun i =>
    match canonDesc s (lineCtx p.1) (lineVa p.1 + i) with
    | .found d =>
      let x := devicePlace s d (lineVa p.1 + i - d.ent.base)
      d.ent.cls == 2 && decide (pa ≤ x) && decide (x < pa + n)
    | _ => false))

/-- A host processor writes host memory; a write elsewhere, or of a line that the device holds, does nothing. -/
def hostStore (s : State) (pa : Nat) (bs : List Byte) : State :=
  if decide (Config.hostBase ≤ pa) && decide (pa + bs.length ≤ Config.paEnd) && !hostHeld s pa bs.length then pwrite s pa bs else s

/-- The eight bytes of a BAR0 register: STATE holds the boot state in [7:0], the failing step in [15:8] and the device error in [16]; a place
that names no register, and the doorbell window, read as 0 (23_platform.md R391, 00_scope.md R5). -/
def bar0Value (s : State) (off : Nat) : Nat :=
  match off with
  | 0x00 => s.plat.xroot
  | 0x08 => s.plat.qroot
  | 0x10 => s.plat.mqroot + 2 ^ 52 * s.plat.mqn
  | 0x18 => s.plat.mqtail + 2 ^ 32 * s.plat.mqhead
  | 0x20 => s.plat.logroot
  | 0x28 => s.plat.boot + 2 ^ 8 * s.plat.failed + 2 ^ 16 * s.plat.devErr.toNat
  | 0x30 => s.plat.time
  | _ => 0

/-- A host reads a BAR0 register. -/
def bar0Read (s : State) (off : Nat) : State := { s with plat := { s.plat with reply := [.data (leBytes 8 (bar0Value s off))] } }

/-! ### Errors -/

/-- A sector takes an error: a correctable one waits for the scrubber, an uncorrectable one is returned to later reads. -/
def takeUpset (s : State) (pa : Nat) (hard : Bool) : State :=
  if !paExists pa then s
  else if hard then { s with mem := { s.mem with marks := mput s.mem.marks (pa / 32) true, soft := mput s.mem.soft (pa / 32) false } }
  else { s with mem := { s.mem with soft := mput s.mem.soft (pa / 32) true } }

/-- A sector of a home slice takes an uncorrectable error. Its dirty bytes have no good copy: a later read of its memory returns an error. A
clean sector of a cached extent is dropped, the next access fetches it again, and the event is logged (11_traps.md R221, 23_platform.md
R396 kind 8, log entries 8, 93). -/
def homeUpset (s : State) (ctx va : Nat) : State :=
  match canonDesc s ctx va with
  | .found d =>
    let k := byteKey ctx (va / 32 * 32)
    let lost (p : Nat × Byte) : Bool := decide (k ≤ p.1) && decide (p.1 < k + 32)
    let at' := max (va / 32 * 32) d.ent.base
    let pa := devicePlace s d (at' - d.ent.base)
    if !cachedClass d.ent.cls then s
    else if !s.mem.l2.any lost then hostError s 8 (homeCluster d.ent (lineKey ctx at')) ctx 1 pa 0
    else
      { s with mem := { s.mem with
          l2 := s.mem.l2.filter (fun p => !lost p)
          marks := mput s.mem.marks (pa / 32) true
          soft := mput s.mem.soft (pa / 32) false } }
  | _ => s

/-- Row 1 of the escalation table: a sector of an L1 takes an error. It is clean, for an L1 writes through; it is dropped, the next load
fetches it again, and the event is logged (11_traps.md R221, 23_platform.md R396 kind 8). -/
def cacheUpset (s : State) (core ctx va : Nat) : State :=
  let k := byteKey ctx (va / 32 * 32)
  let lost (p : Nat × Byte) : Bool := decide (k ≤ p.1) && decide (p.1 < k + 32)
  if !(s.core core).l1.any lost then s
  else
    let pa := match canonDesc s ctx va with | .found d => devicePlace s d (va - d.ent.base) | _ => 0
    hostError (s.updCore core (fun c => { c with l1 := c.l1.filter (fun p => !lost p) })) 8 (coreCluster core) ctx 1 pa 0

/-- An uncorrectable error in the deltas or the tracker of a line that an L1 holds: the withheld deltas have no other copy, so that the error
escalates as one of a global sector without a good copy, that of the element or the line (12_atomics.md R253, 11_traps.md R221,
log entry 93). -/
def heldUpset (s : State) (core line e : Nat) : State :=
  match mfind (s.core core).held line, canonDesc s (lineCtx line) (lineVa line + 4 * (e % 32)) with
  | some h, .found d =>
    let va := lineVa line + 4 * (e % 32)
    let s := s.updCore core (fun c => { c with held := mput c.held line { h with t := 0, d := [] } })
    escalate s d.ent.ctx d.ent.xid d.ent.cls (devicePlace s d (va - d.ent.base)) 1 (va / 32 * 32)
  | _, _ => s

/-- Copies of a pseudo-channel's row-remap table fail their check: one is corrected from the other and logged; when both
fail, the port holds the channel and reloads its table (11_traps.md R223). -/
def remapUpset (s : State) (port pc copies : Nat) : State :=
  if 8 ≤ port ∨ 64 ≤ pc then s
  else
    let c := s.chan (chanKey port pc)
    if c.retired ∨ c.reload ∨ copies = 0 then s
    else if copies = 1 then remapEvent s port pc 1
    else s.setChan (chanKey port pc) { c with copies := 0, reload := true, since := s.plat.time }

/-! ### The loader (03_assembly.md R62, R66, R68) -/

/-- Whether a clause of the code from a place on has CL = 2 (19_matrix.md R334); n bounds the clauses, each of 8 bytes or more. -/
def matrixCode (s : State) (ctx hi : Nat) : Nat → Nat → Bool
  | 0, _ => false
  | n + 1, va =>
    if hi ≤ va then false
    else
      match devRead s ctx va 4 with
      | some b =>
        let h : Word := BitVec.ofNat 32 (leNat b)
        hdrCL h == 2 || matrixCode s ctx hi n (va + 4 * (hdrN h + 1))
      | none => false

/-- The loader has put a kernel in code from lo to hi: it takes place expressions that R66 admits, and walks the code for matrix clauses.
`k.matrix` says that the image's `e_flags`[8] is 1, so that every kernel of it counts as a matrix kernel (19_matrix.md R334). -/
def loadKernel (s : State) (k : LoadedKernel) (lo hi : Nat) : State :=
  if !k.relocs.all PlaceReloc.ok then s
  else
    let k := { k with matrix := k.matrix || matrixCode s k.ctx hi ((hi - lo) / 8 + 1) lo }
    { s with work := { s.work with kernels := k :: s.work.kernels.filter (fun x => !(x.ctx == k.ctx && x.entry == k.entry)) } }

/-- The loader takes a kernel away. -/
def unloadKernel (s : State) (ctx entry : Nat) : State :=
  { s with work := { s.work with kernels := s.work.kernels.filter (fun x => !(x.ctx == ctx && x.entry == entry)) } }

end Sys2Proof.Machine
end

