-- ==== Sys2Proof/Machine/Step.lean ====
section
/-! DEFINITION. One step of the machine: the next turn of the schedule, or the issue slot in focus. -/
namespace Sys2Proof.Machine

/-- The word that issues is decoded and run; a word that is not valid where it stands raises illegal-instruction
(02_encoding.md R26, R27, R33, R46). A word that an arrival holds does not issue yet (R28, 10_sync.md R202). -/
def issueWord (s : State) : Result :=
  match s.fetchInstr with
  | some i => if s.held i then .next s else exec i s
  | none => .next s.illegal

/-- An issue slot moves: a remote word that holds it issues its next replay (15_remote.md R288), else it issues its next word, a co-issue
partner passes its header waits (05_control.md R115), or the arbiter decides (02_encoding.md R28). -/
def issueSlot (s : State) : Result :=
  if s.plat.devErr then .next s
  else if (s.core s.focus.1).closing then closingSlot s issueWord
  else
    match remoteHolds s s.focus.1 s.focus.2 with
    | some w => execRemoteReplay s.focus.1 w s
    | none =>
      match (s.core s.focus.1).slot s.focus.2 with
      | some r => if r.late then .next (takeOver s) else issueWord s
      | none => execClauseGrant s.focus.1 s.focus.2 s

/-- A turn of the schedule. Events are the rows of the opcode table that are no words; a word is issued by its slot only. -/
def runTurn (t : Turn) (s : State) : Result :=
  match t with
  | .issue core slot => issueSlot { s with focus := (core, slot) }
  | .event e => if e.isWord then .next s else exec e s
  | .tick ns cycles => .next (passTime s ns cycles)
  | .hostWrite pa bytes => .next (hostStore s pa bytes)
  | .upset pa hard => .next (takeUpset s pa hard)
  | .remapUpset port pc copies => .next (remapUpset s port pc copies)
  | .homeUpset ctx va => .next (homeUpset s ctx va)
  | .cacheUpset core ctx va => .next (cacheUpset s core ctx va)
  | .heldUpset core line e => .next (heldUpset s core line e)
  | .land req lane byte => .next (landLane s req lane byte)
  | .readTile op off => .next (readTile s op off)
  | .landTile op lane => .next (landTile s op lane)
  | .landRemote pkt lane => .next (landRemote s pkt lane)
  | .item pkt lane => .next (itemTurn s pkt lane)
  | .whole pkt => .next (noneUnderWay s pkt)
  | .load k lo hi => .next (loadKernel s k lo hi)
  | .unload ctx entry => .next (unloadKernel s ctx entry)
  | .bar0Read off => .next (bar0Read s off)

/-- One step: an error that an access has noted is reported (11_traps.md R220, log entry 95); else the first turn of the schedule, or the slot
in focus when the schedule is empty. -/
def step (s : State) : Host.Outcome State Fault Refusal :=
  if !s.mem.upsets.isEmpty then .next (reportUpset s)
  else
    match s.schedule with
    | [] => issueSlot s
    | t :: r => runTurn t { s with schedule := r }

/-- The clause that withFetchWord puts in the focus slot. -/
def fetchWordHeader (w n : Nat) : Word :=
  let cl := (classOf (w / 2 ^ 24 % 256)).getD 0
  BitVec.ofNat 32 (2 ^ 28 * n + 2 ^ 25 * cl + 0x01FFFFCA)

/-- The state with an instruction stored where `step` fetches its next one: the words of the clause that the issue slot in
focus holds. Where the slot holds no clause, a warp of the full allocation is placed in its first warp slot with every lane
live, as the end of the dispatch that log entry 21 describes. -/
def State.withFetchWord (s : State) (nbits w : Nat) : State :=
  let v := w % 2 ^ nbits
  let w0 : Word := BitVec.ofNat 32 v
  let words := if wordLen w0 = 2 then [w0, BitVec.ofNat 32 (v / 2 ^ 32)] else [w0]
  let hdr := fetchWordHeader v words.length
  let c := s.focus.1
  let k := s.core c
  let r : Run := match k.slot s.focus.2 with
    | some r => { r with hdr := hdr, words := words, late := false }
    | none => { wslot := 16 * s.focus.2, split := 0, pc := 0, hdr := hdr, words := words }
  let wp := s.warp c r.wslot
  let wp : Warp := if wp.present then wp.setSplit r.split { wp.split r.split with word := 0 }
    else { present := true, alloc := 16, live := 0xFFFFFFFF, rank := 1, splits := [(0, { mask := 0xFFFFFFFF, state := 1 })] }
  { (s.setCore c (k.setSlot s.focus.2 (some r))).setWarp c r.wslot wp with schedule := [], mem := { s.mem with upsets := [] } }

end Sys2Proof.Machine
end

