-- ==== Sys2Proof/Safety.lean ====
section
/-! DEFINITION. The words in which claims about the machine are stated: what a safe state is, and what a word that completes
changes and leaves alone. -/
namespace Sys2Proof

/-- The physical memory of a state is in canonical form: equal memories are equal data. -/
def MemoryCanonical (s : Machine.State) : Prop := Machine.Memory.wf s.mem.bytes = true

namespace Machine

/-- A warp's registers, flags, counters and lists: all of it but the splits and tokens, which the control procedures move
(05_control.md R100), and the arbitration rank (R112). -/
def Warp.data (w : Warp) : Warp := { w with splits := [], tokens := [], rank := 0 }

/-- A core without the clauses that its issue slots hold. -/
def Core.data (k : Core) : Core := { k with slot0 := none, slot1 := none }

/-- The state t follows s by a word of the issuing warp that only moves on: the warp's data become those of `g`, every other
warp and core is as before, and so are memory, blocks, engines, fabric and platform. The program counter may change. -/
structure Moved (s t : State) (g : Warp → Warp) : Prop where
  here : (t.warp s.hcore s.run.wslot).data = (g s.hwarp).data
  warps : ∀ c w, wkey c w ≠ wkey s.hcore s.run.wslot → t.warp c w = s.warp c w
  core : (t.core s.hcore).data = (s.core s.hcore).data
  cores : ∀ c, c ≠ s.hcore → t.core c = s.core c
  mem : t.mem = s.mem
  work : t.work = s.work
  fab : t.fab = s.fab
  plat : t.plat = s.plat
  free : t.free = s.free
  focus : t.focus = s.focus
  schedule : t.schedule = s.schedule

/-- Words that an instruction takes in its clause: two where it has a literal (02_encoding.md R35). -/
def wordsOf (i : Instr) : Nat := if i.literal?.isSome then 2 else 1

/-- The state t is where the issuing split of s moves on past the instruction's words, what the instruction did leaving the splits and
tokens of its warp and the issue slot as they were (05_control.md R97). -/
def Onward (i : Instr) (s t : State) : Prop :=
  ∃ v : State, t = v.advance (wordsOf i) ∧ v.focus = s.focus ∧ v.run = s.run ∧ v.hwarp.splits = s.hwarp.splits ∧ v.hwarp.tokens = s.hwarp.tokens

/-- The word completes: its warp's data become those of `g`, its split moves past its words, and nothing else changes. -/
def Completes (i : Instr) (s : State) (g : Warp → Warp) : Prop := ∃ t, exec i s = .next t ∧ Moved s t g ∧ Onward i s t

/-- The branch word completes: its clause ends, `f` has moved the splits and tokens, the warp's data become those of `g`, and nothing
else changes (05_control.md R100). -/
def BranchesBy (i : Instr) (s : State) (f g : Warp → Warp) : Prop := exec i s = .next (s.branch f) ∧ Moved s (s.branch f) g

/-- The word completes: each visited lane of a vector register takes `f` and is no longer poisoned, and nothing else changes but
the program counter (06_vector.md R119, R121). -/
def RowWord (i : Instr) (s : State) (d : VReg) (p : Bool) (f : Nat → Word) : Prop :=
  Completes i s (fun w => w.setV d.val (s.active p) f)

/-- The word completes by first bringing the machine to `u`, its effect, and then moving on past its words. -/
def CompletesVia (i : Instr) (s u : State) : Prop := ∃ t, exec i s = .next t ∧ Moved u t id ∧ Onward i s t

/-- What S is in that waits in state 3 for an entry: its clause has left the slot, and its BR word will issue again (05_control.md R102,
R103, R105). -/
def State.waiting (s : State) (b : Blocked) : State :=
  (s.updHere (fun w => w.setSplit s.run.split { w.split s.run.split with state := 3, word := s.cidx, on := b })).leaveSlot

/-- The word waits in state 3 for an entry; where every split entry in use then waits in state 3, the warp raises rejoin-deadlock of
cause 1, whose frame names the lowest-numbered one: the header of its clause, the index of its BR word, which is the last of its clause,
and its mask (05_control.md R108, R109). -/
def WaitsFor (i : Instr) (s : State) (b : Blocked) : Prop :=
  let u := s.waiting b
  let w := u.warp s.hcore s.run.wslot
  let used := (List.range 8).filter (fun k => (w.split k).state != 0)
  (used.any (fun k => (w.split k).state != 3) → exec i s = .next u) ∧
  ∀ k r, used = k :: r → used.all (fun k => (w.split k).state == 3) →
    exec i s = .next (faultAt u
      { core := s.hcore, wslot := s.run.wslot, warp := w.widx, blk := w.blk, split := k, pc := (w.split k).pc
        cidx := (w.split k).word, n := (w.split k).word, len := 1, ctx := w.ctx, imp := false }
      { cls := clsRejoin, lanes := (w.split k).mask, sva := 1, space := 7 } (splitRecords w))

/-- The accesses of a global word: each visited lane's address is the 64-bit base, its signed offset and the displacement, modulo
2^64 (07_memory.md R145). -/
def State.accesses (s : State) (sb : SReg) (vo : VReg) (disp : Int) : List Acc :=
  (lanesOf s.em).map (fun l => ⟨l, (((s.sbase sb : Int) + (s.voff vo l).toInt + disp) % 2 ^ 64).toNat⟩)

/-- A matrix word has joined the queue of its core, and the tl counter of its warp has risen (19_matrix.md R335, R336). -/
def State.entered (s : State) (o : MOp) : State :=
  { s with work := { s.work with mops := mput s.work.mops s.work.next o, next := s.work.next + 1 } }.updHere
    (fun w => { w with tl := w.tl + 1 })

/-- A remote word has been entered under the next number and its first replay has issued; what may be sent has been sent
(15_remote.md R288). -/
def State.remoteBegun (s : State) (r : RWord) : State :=
  let s' := { s with work := { s.work with next := s.work.next + 1 } }.updHere (fun w => { w with rwords := w.rwords ++ [s.work.next] })
  sendReplays (issueReplay s' s.work.next r) s.hcore s.run.wslot

/-- Every byte of physical memory is as before. -/
def SameBytes (s t : State) : Prop := ∀ a, Memory.read t.mem.bytes a = Memory.read s.mem.bytes a

/-- The vector registers that a word names lie in its warp's allocation, and none that it reads is poisoned in a lane it
reads (02_encoding.md R36, 06_vector.md R121). -/
def Clean (s : State) (names reads : List Nat) (lanes : Word) : Prop :=
  s.inRange names = true ∧ s.poisonLanes reads lanes = 0

end Machine
end Sys2Proof
end

