-- ==== Sys2Proof/Certificates/Slice0/Obligations.lean ====
section
/-! DEFINITION. The statements for the provers, each a rule of the spec about what an instruction or the machine does. -/
open Sys2Proof Sys2Proof.Machine

/-! ### Scalar, mask and branch words (05_control.md) -/

/-- R92, R94: every SA word that writes a scalar completes in every state, with the value the table gives it; nothing else changes.
Shift counts of 32 and more are not taken modulo 32. R93: `scmp` writes `scc` and nothing else, under each of the ten condition
codes. R95: the mask words complete in every state; `mto` writes only the bits of lanes of em. -/
def Obligations.ScalarWords : Prop :=
  (∀ (s : State) (d : SReg) (a b : Operand),
     let x := s.sopVal a
     let y := s.sopVal b
     Completes (.sadd d a b) s (·.setS d.val (x + y)) ∧
     Completes (.ssub d a b) s (·.setS d.val (x - y)) ∧
     Completes (.smul d a b) s (·.setS d.val (x * y)) ∧
     Completes (.smulhi d a b) s (·.setS d.val (BitVec.ofInt 32 (x.toInt * y.toInt / 2 ^ 32))) ∧
     Completes (.sand d a b) s (·.setS d.val (x &&& y)) ∧
     Completes (.sor d a b) s (·.setS d.val (x ||| y)) ∧
     Completes (.sxor d a b) s (·.setS d.val (x ^^^ y)) ∧
     Completes (.sshl d a b) s (·.setS d.val (if y.toNat < 32 then x <<< y.toNat else 0)) ∧
     Completes (.sshr d a b) s (·.setS d.val (if y.toNat < 32 then x >>> y.toNat else 0)) ∧
     Completes (.ssra d a b) s (·.setS d.val
       (if y.toNat < 32 then x.sshiftRight y.toNat else if x.msb then 0xFFFFFFFF else 0)) ∧
     Completes (.smin d a b) s (·.setS d.val (if x.toInt ≤ y.toInt then x else y)) ∧
     Completes (.smax d a b) s (·.setS d.val (if y.toInt ≤ x.toInt then x else y)) ∧
     Completes (.ssel d a b) s (·.setS d.val (if s.hwarp.scc then x else y)) ∧
     Completes (.smov d a) s (·.setS d.val x) ∧
     Completes (.sadd64 d a b) s (fun w =>
       (w.setS d.val ((s.sopVal64 a + s.sopVal64 b).setWidth 32)).setS (d.val + 1)
         ((s.sopVal64 a + s.sopVal64 b) >>> 32 |>.setWidth 32))) ∧
  (∀ (s : State) (a b : Operand),
     let x := s.sopVal a
     let y := s.sopVal b
     Completes (.scmp 0 a b) s (·.setScc (decide (x = y))) ∧
     Completes (.scmp 1 a b) s (·.setScc (decide (x ≠ y))) ∧
     Completes (.scmp 2 a b) s (·.setScc (decide (x.toInt < y.toInt))) ∧
     Completes (.scmp 3 a b) s (·.setScc (decide (x.toInt ≤ y.toInt))) ∧
     Completes (.scmp 4 a b) s (·.setScc (decide (y.toInt < x.toInt))) ∧
     Completes (.scmp 5 a b) s (·.setScc (decide (y.toInt ≤ x.toInt))) ∧
     Completes (.scmp 6 a b) s (·.setScc (decide (x.toNat < y.toNat))) ∧
     Completes (.scmp 7 a b) s (·.setScc (decide (x.toNat ≤ y.toNat))) ∧
     Completes (.scmp 8 a b) s (·.setScc (decide (y.toNat < x.toNat))) ∧
     Completes (.scmp 9 a b) s (·.setScc (decide (y.toNat ≤ x.toNat)))) ∧
  (∀ (s : State) (d a b : MReg),
     Completes (.mand d a b) s (·.setM d.val (s.hwarp.m a.val &&& s.hwarp.m b.val)) ∧
     Completes (.mor d a b) s (·.setM d.val (s.hwarp.m a.val ||| s.hwarp.m b.val)) ∧
     Completes (.mxor d a b) s (·.setM d.val (s.hwarp.m a.val ^^^ s.hwarp.m b.val)) ∧
     Completes (.mandn d a b) s (·.setM d.val (s.hwarp.m a.val &&& ~~~s.hwarp.m b.val)) ∧
     Completes (.mfrom d) s (·.setM d.val s.em) ∧
     ∃ x : Word, Completes (.mto d a) s (·.setM d.val x) ∧
       ∀ i, i < 32 → x.getLsbD i = if s.em.getLsbD i then (s.hwarp.m a.val).getLsbD i else (s.hwarp.m d.val).getLsbD i)

/-- R34, R90, R94: what each operand form supplies to a scalar word: a scalar register, an inline integer −16 to 15, an inline binary32
constant, the literal, each special register; to `sadd64` a pair, a sign-extended integer or literal, a zero-extended special
register. -/
def Obligations.ScalarOperandsSupply : Prop :=
  ∀ (s : State) (r : SReg) (k : Fin 32) (w : Word) (x : Special),
    s.sopVal (.s r) = s.hwarp.s r.val ∧
    (s.sopVal (.int k)).toInt = (k.val : Int) - 16 ∧
    (List.finRange 8).map (fun c => s.sopVal (.fc c)) =
      [0x00000000, 0x3F000000, 0x3F800000, 0x40000000, 0x40800000, 0xBF000000, 0xBF800000, 0xC0000000] ∧
    s.sopVal (.lit w) = w ∧
    s.sopVal (.sp .warp) = BitVec.ofNat 32 s.hwarp.widx ∧
    s.sopVal (.sp .block) = BitVec.ofNat 32 s.hblk.no ∧
    s.sopVal (.sp .cx) = BitVec.ofNat 32 (s.hcore % 16) ∧
    s.sopVal (.sp .cy) = BitVec.ofNat 32 (s.hcore % 192 / 16) ∧
    s.sopVal (.sp .cluster) = BitVec.ofNat 32 (s.hcore / 192) ∧
    s.sopVal (.sp .ctx) = BitVec.ofNat 32 (s.hwarp.ctx % 2 ^ 16) ∧
    s.sopVal (.sp .time) = BitVec.ofNat 32 s.plat.time ∧
    s.sopVal64 (.s r) = s.hwarp.s (r.val + 1) ++ s.hwarp.s r.val ∧
    (s.sopVal64 (.int k)).toInt = (k.val : Int) - 16 ∧
    s.sopVal64 (.lit w) = w.signExtend 64 ∧
    s.sopVal64 (.sp x) = (s.sopVal (.sp x)).zeroExtend 64

/-- R97, R22, R35: every word that completes (`Completes` and `CompletesVia`, which every statement of a word's result concludes) moves
its split past its words, two with a literal: within its clause to a later word of it, in the same slot. Past the last word of the clause
the split goes to the clause that follows; R114, R115: the slot then takes the co-issue partner where that still stands at the head of
the clause, whose waits it passes as it takes over, and is free where there is none or the partner has gone on. -/
def Obligations.WordsMoveTheSplitOn : Prop :=
  (∀ (s t : State) (i : Instr), Onward i s t → s.cidx + wordsOf i ≤ hdrN s.run.hdr →
    t.hsplit = { s.hsplit with word := s.cidx + wordsOf i } ∧ t.run = s.run) ∧
  (∀ (s : State) (d : SReg) (r : SReg) (x : Word), s.cidx + 2 ≤ hdrN s.run.hdr →
    (∃ t, exec (.smov d (.lit x)) s = .next t ∧ t.hsplit = { s.hsplit with word := s.cidx + 2 }) ∧
    (∃ t, exec (.smov d (.s r)) s = .next t ∧ t.hsplit = { s.hsplit with word := s.cidx + 1 })) ∧
  ∀ (s t : State) (i : Instr), Onward i s t → hdrN s.run.hdr < s.cidx + wordsOf i → s.hsplit.tv = false → s.hsplit.state = 1 →
    (t.warp s.hcore s.run.wslot).split s.run.split =
      { s.hsplit with word := 0, pc := (s.run.pc + 4 * (hdrN s.run.hdr + 1)) % 2 ^ 56 } ∧
    (s.run.partner = none → (t.core s.hcore).slot s.focus.2 = none) ∧
    ∀ ws k, s.run.partner = some (ws, k) →
      let e := (t.warp s.hcore ws).split k
      (t.core s.hcore).slot s.focus.2 = if e.state = 1 ∧ e.pc = s.run.pc ∧ e.word = 0 then
        some { s.run with wslot := ws, split := k, partner := none, late := true } else none

/-- R101: the uniform branches complete in every state: the whole split goes to the target, or to the clause that follows. -/
def Obligations.UniformBranchesSetThePc : Prop :=
  ∀ (s : State) (mk : MReg) (c : Bool) (off : Fin 1048576),
    let target := (((s.run.pc : Int) + 4 * (if off.val < 524288 then (off.val : Int) else (off.val : Int) - 1048576)) % 2 ^ 56).toNat
    let follow := (s.run.pc + 4 * (hdrN s.run.hdr + 1)) % 2 ^ 56
    let cond := if c then ~~~s.hwarp.m mk.val else s.hwarp.m mk.val
    let go (taken : Bool) := s.branch (fun w => w.setPc s.run.split (if taken then target else follow))
    exec (.jmp off) s = .next (go true) ∧
    exec (.bscc c off) s = .next (go (s.hwarp.scc ^^ c)) ∧
    exec (.bany mk c off) s = .next (go (decide (s.hsplit.mask &&& cond ≠ 0))) ∧
    exec (.ball mk c off) s = .next (go (decide (s.hsplit.mask &&& ~~~cond = 0)))

/-- R102 to R107: what each divergent branch does with the splits and tokens, by the procedures of R100 (`ControlProcedures` says what they
do): `bdiv` with all its lanes one way moves the whole split, whatever the tables hold; else the lanes of cond leave, to the target's
token where the split stands in it, to the lowest-numbered free split entry, or to a deferred token. `join` and `call` open a token,
`brk` takes its lanes to the loop's token, `ret` to the call's, `exit` out of every token and of the live mask. No branch changes a
register, a mask, a flag, a counter or memory. R108, R109: with no entry free the split waits in state 3, and a warp whose splits all do
raises rejoin-deadlock of cause 1; `brk` without its token and `ret` outside a call raise causes 2 and 3 with the tables as they stood. -/
def Obligations.DivergentBranchesKeepTheWarpData : Prop :=
  ∀ (s : State) (mk : MReg) (c : Bool) (off : Fin 1048576),
    let i := s.run.split
    let sp := s.hsplit
    let X := (((s.run.pc : Int) + 4 * (if off.val < 524288 then (off.val : Int) else (off.val : Int) - 1048576)) % 2 ^ 56).toNat
    let F := (s.run.pc + 4 * (hdrN s.run.hdr + 1)) % 2 ^ 56
    let cond := if c then ~~~s.hwarp.m mk.val else s.hwarp.m mk.val
    let Lt := sp.mask &&& cond
    let Lf := sp.mask &&& ~~~cond
    let tk := s.hwarp.tok sp.td
    let direct := sp.tv = true ∧ X = tk.pc
    let chain := s.hwarp.chain sp
    (Lt = 0 → BranchesBy (.bdiv mk c off) s (·.setPc i F) id ∧ BranchesBy (.brk mk c off) s (·.setPc i F) id) ∧
    (Lt ≠ 0 → Lf = 0 → BranchesBy (.bdiv mk c off) s (·.setPc i X) id) ∧
    (Lt ≠ 0 → Lf ≠ 0 →
      let keep (w : Warp) := w.setSplit i { w.split i with mask := Lf }
      (direct → BranchesBy (.bdiv mk c off) s (fun w => ((keep w).setTok sp.td { tk with pending := tk.pending &&& ~~~Lt }).setPc i F) id) ∧
      (∀ n, ¬ direct → s.hwarp.freeSplit = some n → BranchesBy (.bdiv mk c off) s (fun w =>
        (((keep w).setSplit n { pc := X, mask := Lt, word := 0, state := 1, tv := sp.tv, td := sp.td }).setPc n X).setPc i F) id) ∧
      (∀ d, ¬ direct → s.hwarp.freeSplit = none → s.hwarp.freeTok = some d → BranchesBy (.bdiv mk c off) s (fun w =>
        ((keep w).setTok d { kind := 3, pc := X, rejoin := Lt, pending := 0, parent := sp.td, pv := sp.tv }).setPc i F) id) ∧
      (¬ direct → s.hwarp.freeSplit = none → s.hwarp.freeTok = none → WaitsFor (.bdiv mk c off) s .entry)) ∧
    (∀ d, s.hwarp.freeTok = some d →
      let opened (w : Warp) (kind pc : Nat) :=
        (w.setTok d { kind := kind, pc := pc, rejoin := sp.mask, pending := sp.mask, parent := sp.td, pv := sp.tv }).setSplit i
          { w.split i with td := d, tv := true }
      BranchesBy (.join off) s (fun w => (opened w 1 X).setPc i F) id ∧ BranchesBy (.call off) s (fun w => (opened w 2 F).setPc i X) id) ∧
    (s.hwarp.freeTok = none → WaitsFor (.join off) s .token ∧ WaitsFor (.call off) s .token) ∧
    (Lt ≠ 0 → s.hwarp.findJoin X chain = none → exec (.brk mk c off) s =
      .next (s.raise { cls := clsRejoin, lanes := sp.mask, sva := 2, space := 7 } (splitRecords s.hwarp))) ∧
    (∀ T, Lt ≠ 0 → s.hwarp.findJoin X chain = some T →
      (Lf ≠ 0 → BranchesBy (.brk mk c off) s (fun w => (w.leave i Lt (some T)).setPc i F) id) ∧
      (Lf = 0 → BranchesBy (.brk mk c off) s (fun w => w.leave i Lt (some T)) id)) ∧
    (chain.find? (fun T => (s.hwarp.tok T).kind == 2) = none → exec .ret s =
      .next (s.raise { cls := clsRejoin, lanes := sp.mask, sva := 3, space := 7 } (splitRecords s.hwarp))) ∧
    (∀ T, chain.find? (fun T => (s.hwarp.tok T).kind == 2) = some T → BranchesBy .ret s (fun w => w.leave i sp.mask (some T)) id) ∧
    BranchesBy .exit s (fun w => let v := w.leave i sp.mask none; { v with live := v.live &&& ~~~sp.mask })
      (fun w => { w with live := w.live &&& ~~~sp.mask })

/-! ### Vector words (06_vector.md) -/

/-- R119: a row write changes exactly the lanes of its mask of one register, and R121: it clears their poison bits; every other
lane, register and poison bit is as before. -/
def Obligations.RowWritesChangeOnlyVisitedLanes : Prop :=
  ∀ (w : Warp) (d r : Nat) (m : Word) (f : Nat → Word) (l : Nat), l < 32 →
    (w.setV d m f).v r l = (if r = d ∧ m.getLsbD l then f l else w.v r l) ∧
    ((w.setV d m f).poisoned r).getLsbD l = ((w.poisoned r).getLsbD l && !(decide (r = d) && m.getLsbD l)) ∧
    (w.setV d m f true).v r l = (if r = d ∧ m.getLsbD l then f l else w.v r l) ∧
    (w.setV d m f true).poisoned r = w.poisoned r

/-- R124: the integer and bit words of two operands complete when their registers are in range and no visited source lane is
poisoned: each visited lane of vd takes the table's value, and nothing else changes. R124: the accumulating integer words also
consume vd, and complete with the table's values; the byte products of `vdot4.i8` are signed and its sum is taken modulo 2^32. -/
def Obligations.IntegerAndBitVectorWords : Prop :=
  (∀ (s : State) (d : VReg) (a b : Operand) (p : Bool),
     Clean s (d.val :: opVregs a ++ opVregs b) (opVregs a ++ opVregs b) (s.active p) →
     let x := s.opVal .raw a
     let y := s.opVal .raw b
     RowWord (.vaddI32 d a b p) s d p (fun l => x l + y l) ∧
     RowWord (.vsubI32 d a b p) s d p (fun l => x l - y l) ∧
     RowWord (.vmulI32 d a b p) s d p (fun l => x l * y l) ∧
     RowWord (.vmulhiI32 d a b p) s d p (fun l => BitVec.ofInt 32 ((x l).toInt * (y l).toInt / 2 ^ 32)) ∧
     RowWord (.vmulhiN32 d a b p) s d p (fun l => BitVec.ofNat 32 ((x l).toNat * (y l).toNat / 2 ^ 32)) ∧
     RowWord (.vandB32 d a b p) s d p (fun l => x l &&& y l) ∧
     RowWord (.vorB32 d a b p) s d p (fun l => x l ||| y l) ∧
     RowWord (.vxorB32 d a b p) s d p (fun l => x l ^^^ y l) ∧
     RowWord (.vshlB32 d a b p) s d p (fun l => if (y l).toNat < 32 then x l <<< (y l).toNat else 0) ∧
     RowWord (.vshrN32 d a b p) s d p (fun l => if (y l).toNat < 32 then x l >>> (y l).toNat else 0) ∧
     RowWord (.vshrI32 d a b p) s d p (fun l => if (y l).toNat < 32 then (x l).sshiftRight (y l).toNat else if (x l).msb then 0xFFFFFFFF else 0) ∧
     RowWord (.vminI32 d a b p) s d p (fun l => if (x l).toInt ≤ (y l).toInt then x l else y l) ∧
     RowWord (.vminN32 d a b p) s d p (fun l => if (x l).toNat ≤ (y l).toNat then x l else y l) ∧
     RowWord (.vmaxI32 d a b p) s d p (fun l => if (y l).toInt ≤ (x l).toInt then x l else y l) ∧
     RowWord (.vmaxN32 d a b p) s d p (fun l => if (y l).toNat ≤ (x l).toNat then x l else y l)) ∧
  (∀ (s : State) (d : VReg) (a b : Operand) (p : Bool),
     Clean s (d.val :: opVregs a ++ opVregs b) (opVregs a ++ opVregs b ++ [d.val]) (s.active p) →
     let x := s.opVal .raw a
     let y := s.opVal .raw b
     let byte (w : Word) (j : Nat) : Int := (w.extractLsb' (8 * j) 8).toInt
     RowWord (.vmadI32 d a b p) s d p (fun l => x l * y l + s.hwarp.v d.val l) ∧
     RowWord (.vdot4I8 d a b p) s d p (fun l => BitVec.ofInt 32 ((s.hwarp.v d.val l).toInt +
       byte (x l) 0 * byte (y l) 0 + byte (x l) 1 * byte (y l) 1 + byte (x l) 2 * byte (y l) 2 + byte (x l) 3 * byte (y l) 3)))

/-- R124, R125: the unary integer and bit words complete with the table's values: `vmov` every bit, `vpopc` the number of 1 bits,
`vclz` the leading zeros, `vbrev` the bits reversed, `vabs.f32` and `vneg.f32` the sign bit cleared or inverted. R126 to R128:
the unary binary32 words complete, `vrnd` in each of its four modes. -/
def Obligations.UnaryVectorWords : Prop :=
  (∀ (s : State) (d : VReg) (a : Operand) (p : Bool), Clean s (d.val :: opVregs a) (opVregs a) (s.active p) →
     let x := s.opVal .raw a
     let y := s.opVal .f32 a
     RowWord (.vmovB32 d a p) s d p x ∧
     RowWord (.vpopcB32 d a p) s d p (fun l => BitVec.ofNat 32 ((List.range 32).countP (x l).getLsbD)) ∧
     RowWord (.vclzB32 d a p) s d p (fun l => if x l = 0 then 32 else BitVec.ofNat 32 (31 - Nat.log2 (x l).toNat)) ∧
     RowWord (.vbrevB32 d a p) s d p (fun l => (x l).reverse) ∧
     RowWord (.vabsF32 d a p) s d p (fun l => y l &&& 0x7FFFFFFF) ∧
     RowWord (.vnegF32 d a p) s d p (fun l => y l ^^^ 0x80000000)) ∧
  (∀ (s : State) (d : VReg) (a : Operand) (p : Bool), Clean s (d.val :: opVregs a) (opVregs a) (s.active p) →
     let x (l : Nat) := (s.opVal .f32 a l).toNat
     RowWord (.vrcpF32 d a p) s d p (fun l => BitVec.ofNat 32 (frcp (x l))) ∧
     RowWord (.vrsqrtF32 d a p) s d p (fun l => BitVec.ofNat 32 (frsqrt (x l))) ∧
     RowWord (.vsqrtF32 d a p) s d p (fun l => BitVec.ofNat 32 (fsqrt (x l))) ∧
     RowWord (.vexp2F32 d a p) s d p (fun l => BitVec.ofNat 32 (fexp2 (x l))) ∧
     RowWord (.vlog2F32 d a p) s d p (fun l => BitVec.ofNat 32 (flog2 (x l))) ∧
     RowWord (.vclassF32 d a p) s d p (fun l => BitVec.ofNat 32 (fclass (x l))) ∧
     RowWord (.vrndF32 d a 0 p) s d p (fun l => BitVec.ofNat 32 (frnd .rne (x l))) ∧
     RowWord (.vrndF32 d a 1 p) s d p (fun l => BitVec.ofNat 32 (frnd .rz (x l))) ∧
     RowWord (.vrndF32 d a 2 p) s d p (fun l => BitVec.ofNat 32 (frnd .ru (x l))) ∧
     RowWord (.vrndF32 d a 3 p) s d p (fun l => BitVec.ofNat 32 (frnd .rd (x l))))

/-- R125: the binary32 words of two operands complete: each visited lane takes the exact result rounded once, in the mode that the
word names; `vmin` and `vmax` take the number of R79. R125: the fused binary32 words also consume vd, and complete with the
product and the sum rounded once. -/
def Obligations.Binary32VectorWords : Prop :=
  (∀ (s : State) (d : VReg) (a b : Operand) (p : Bool),
     Clean s (d.val :: opVregs a ++ opVregs b) (opVregs a ++ opVregs b) (s.active p) →
     let x (l : Nat) := (s.opVal .f32 a l).toNat
     let y (l : Nat) := (s.opVal .f32 b l).toNat
     RowWord (.vaddF32 d a b p) s d p (fun l => BitVec.ofNat 32 (fadd f32 .rne (x l) (y l))) ∧
     RowWord (.vsubF32 d a b p) s d p (fun l => BitVec.ofNat 32 (fsub f32 .rne (x l) (y l))) ∧
     RowWord (.vmulF32 d a b p) s d p (fun l => BitVec.ofNat 32 (fmul f32 .rne (x l) (y l))) ∧
     RowWord (.vaddF32Rz d a b p) s d p (fun l => BitVec.ofNat 32 (fadd f32 .rz (x l) (y l))) ∧
     RowWord (.vaddF32Ru d a b p) s d p (fun l => BitVec.ofNat 32 (fadd f32 .ru (x l) (y l))) ∧
     RowWord (.vaddF32Rd d a b p) s d p (fun l => BitVec.ofNat 32 (fadd f32 .rd (x l) (y l))) ∧
     RowWord (.vsubF32Rz d a b p) s d p (fun l => BitVec.ofNat 32 (fsub f32 .rz (x l) (y l))) ∧
     RowWord (.vsubF32Ru d a b p) s d p (fun l => BitVec.ofNat 32 (fsub f32 .ru (x l) (y l))) ∧
     RowWord (.vsubF32Rd d a b p) s d p (fun l => BitVec.ofNat 32 (fsub f32 .rd (x l) (y l))) ∧
     RowWord (.vmulF32Rz d a b p) s d p (fun l => BitVec.ofNat 32 (fmul f32 .rz (x l) (y l))) ∧
     RowWord (.vmulF32Ru d a b p) s d p (fun l => BitVec.ofNat 32 (fmul f32 .ru (x l) (y l))) ∧
     RowWord (.vmulF32Rd d a b p) s d p (fun l => BitVec.ofNat 32 (fmul f32 .rd (x l) (y l))) ∧
     RowWord (.vminF32 d a b p) s d p (fun l => BitVec.ofNat 32 (fmin f32 (x l) (y l))) ∧
     RowWord (.vmaxF32 d a b p) s d p (fun l => BitVec.ofNat 32 (fmax f32 (x l) (y l)))) ∧
  (∀ (s : State) (d : VReg) (a b : Operand) (p : Bool),
     Clean s (d.val :: opVregs a ++ opVregs b) (opVregs a ++ opVregs b ++ [d.val]) (s.active p) →
     let x (l : Nat) := (s.opVal .f32 a l).toNat
     let y (l : Nat) := (s.opVal .f32 b l).toNat
     let z (l : Nat) := (s.hwarp.v d.val l).toNat
     RowWord (.vfmaF32 d a b p) s d p (fun l => BitVec.ofNat 32 (ffma f32 .rne (x l) (y l) (z l))) ∧
     RowWord (.vfmaF32Rz d a b p) s d p (fun l => BitVec.ofNat 32 (ffma f32 .rz (x l) (y l) (z l))) ∧
     RowWord (.vfmaF32Ru d a b p) s d p (fun l => BitVec.ofNat 32 (ffma f32 .ru (x l) (y l) (z l))) ∧
     RowWord (.vfmaF32Rd d a b p) s d p (fun l => BitVec.ofNat 32 (ffma f32 .rd (x l) (y l) (z l))) ∧
     RowWord (.vfmsF32 d a b p) s d p (fun l => BitVec.ofNat 32 (ffms f32 .rne (x l) (y l) (z l))))

/-- R129: the packed words complete: each half of a visited lane is computed on its own in the element format, with `rne`. The fused
ones also consume vd. -/
def Obligations.PackedHalfWords : Prop :=
  ∀ (s : State) (d : VReg) (a b : Operand) (p : Bool),
    let half (w : Word) (h : Nat) := (w.extractLsb' (16 * h) 16).toNat
    let both (f : Nat → Nat) := BitVec.ofNat 32 (65536 * f 1 + f 0)
    let x (f : Fmt) (l : Nat) := half (s.opVal (.half f) a l)
    let y (f : Fmt) (l : Nat) := half (s.opVal (.half f) b l)
    let z (l : Nat) := half (s.hwarp.v d.val l)
    (Clean s (d.val :: opVregs a ++ opVregs b) (opVregs a ++ opVregs b) (s.active p) →
      RowWord (.vaddF16 d a b p) s d p (fun l => both (fun h => fadd f16 .rne (x f16 l h) (y f16 l h))) ∧
      RowWord (.vmulF16 d a b p) s d p (fun l => both (fun h => fmul f16 .rne (x f16 l h) (y f16 l h))) ∧
      RowWord (.vaddBf16 d a b p) s d p (fun l => both (fun h => fadd bf16 .rne (x bf16 l h) (y bf16 l h))) ∧
      RowWord (.vmulBf16 d a b p) s d p (fun l => both (fun h => fmul bf16 .rne (x bf16 l h) (y bf16 l h)))) ∧
    (Clean s (d.val :: opVregs a ++ opVregs b) (opVregs a ++ opVregs b ++ [d.val]) (s.active p) →
      RowWord (.vfmaF16 d a b p) s d p (fun l => both (fun h => ffma f16 .rne (x f16 l h) (y f16 l h) (z l h))) ∧
      RowWord (.vfmaBf16 d a b p) s d p (fun l => both (fun h => ffma bf16 .rne (x bf16 l h) (y bf16 l h) (z l h))))

/-- R130: the compares complete: bit l of md becomes the condition in every visited lane and keeps its value in the others. The
unordered conditions 6 and 7 are those of binary32 alone. R131: `vsel.b32` completes and takes a where m0 has a 1 bit and b
elsewhere, in every lane of em; both are consumed. -/
def Obligations.CompareAndSelectWords : Prop :=
  (∀ (s : State) (c : Fin 8) (m : MReg) (a b : Operand) (p : Bool),
     Clean s (opVregs a ++ opVregs b) (opVregs a ++ opVregs b) (s.active p) →
     let wrote (i : Instr) (hit : Nat → Bool) := ∃ x : Word, Completes i s (·.setM m.val x) ∧
       ∀ l, l < 32 → x.getLsbD l = if (s.active p).getLsbD l then hit l else (s.hwarp.m m.val).getLsbD l
     let int (lt : Word → Word → Bool) (l : Nat) : Bool :=
       let x := s.opVal .raw a l
       let y := s.opVal .raw b l
       [x == y, x != y, lt x y, !lt y x, lt y x, !lt x y].getD c.val false
     let flt (l : Nat) : Bool :=
       let x := decodeF f32 (s.opVal .f32 a l).toNat
       let y := decodeF f32 (s.opVal .f32 b l).toNat
       [x.eq y, !x.eq y, x.lt y, x.lt y || x.eq y, y.lt x, y.lt x || x.eq y, x.isNan || y.isNan, !x.isNan && !y.isNan].getD c.val false
     (c.val < 6 → wrote (.vcmpI32 c m a b p) (int (fun x y => decide (x.toInt < y.toInt))) ∧
       wrote (.vcmpN32 c m a b p) (int (fun x y => decide (x.toNat < y.toNat)))) ∧
     wrote (.vcmpF32 c m a b p) flt) ∧
  (∀ (s : State) (d : VReg) (a b : Operand),
     Clean s (d.val :: opVregs a ++ opVregs b) (opVregs a ++ opVregs b) s.em →
     Completes (.vselB32 d a b) s (fun w => w.setV d.val s.em
       (fun l => if (s.hwarp.m 0).getLsbD l then s.opVal .raw a l else s.opVal .raw b l)))

/-- R132, R81: the conversions that write all of a lane complete; the widening ones read the byte or half that pos names. R132, R76,
R121: the narrowing conversions complete: they replace the half or byte that pos names, rounded in the mode of the control byte
(mode 4 hashes s63, the lane and pos; for LOG6 that is log entry 17), keep the lane's other bits and leave its poison bit as it was. R133:
`vscvt` in an extent without scale data completes: each visited lane takes the element of byte pos, its block scale being 1, in the format
that s62 names; in an extent with scale data it completes by entering the request of its scale reads, one byte a visited lane at the
scale base plus n shifted (R87, R134), whose lanes `MemoryEvents` lands. A value of s62 above 2 raises illegal-instruction, before
register-range and poison by the choice of log entry 83. -/
def Obligations.Conversions : Prop :=
  (∀ (s : State) (d : VReg) (a : Operand) (k : CvtCtl) (p : Bool), Clean s (d.val :: opVregs a) (opVregs a) (s.active p) →
     let raw := s.opVal .raw a
     let field (w : Word) (n : Nat) := (w.toNat / 2 ^ (n * k.pos.val)) % 2 ^ n
     let out (v : Machine.Num) := BitVec.ofNat 32 (roundTo f32 .rne false v)
     let mode := modeOf k.mode.val 0
     RowWord (.vcvtF32I32 d a k p) s d p (fun l => BitVec.ofNat 32 (intToF true mode (raw l))) ∧
     RowWord (.vcvtF32N32 d a k p) s d p (fun l => BitVec.ofNat 32 (intToF false mode (raw l))) ∧
     RowWord (.vcvtI32F32 d a k p) s d p (fun l => BitVec.ofNat 32 (fToInt true k.sat mode (s.opVal .f32 a l).toNat)) ∧
     RowWord (.vcvtN32F32 d a k p) s d p (fun l => BitVec.ofNat 32 (fToInt false k.sat mode (s.opVal .f32 a l).toNat)) ∧
     RowWord (.vcvtF32F16 d a k p) s d p (fun l => out (decodeF f16 (field (s.opVal (.half f16) a l) 16))) ∧
     RowWord (.vcvtF32Bf16 d a k p) s d p (fun l => out (decodeF bf16 (field (s.opVal (.half bf16) a l) 16))) ∧
     RowWord (.vcvtF32E4m3 d a k p) s d p (fun l => out (decodeF e4m3 (field (raw l) 8))) ∧
     RowWord (.vcvtF32E5m2 d a k p) s d p (fun l => out (decodeF e5m2 (field (raw l) 8))) ∧
     RowWord (.vcvtF32Log6 d a k p) s d p (fun l => out (decodeLog6 (field (raw l) 8)))) ∧
  (∀ (s : State) (d : VReg) (a : Operand) (k : CvtCtl) (p : Bool), Clean s (d.val :: opVregs a) (opVregs a) (s.active p) →
     let narrow (i : Instr) (n : Nat) (code : RMode → Machine.Num → Nat) := ∃ f : Nat → Word,
       Completes i s (fun w => w.setV d.val (s.active p) f true) ∧
       ∀ l j, l < 32 → j < 32 → (f l).getLsbD j =
         if n * k.pos.val ≤ j ∧ j < n * k.pos.val + n then
           (code (modeOf k.mode.val (stochasticHash (s.hwarp.s 63) l k.pos.val)) (decodeF f32 (s.opVal .f32 a l).toNat)).testBit (j - n * k.pos.val)
         else (s.hwarp.v d.val l).getLsbD j
     (k.pos.val < 2 → narrow (.vcvtF16F32 d a k p) 16 (fun m x => roundTo f16 m k.sat x) ∧
       narrow (.vcvtBf16F32 d a k p) 16 (fun m x => roundTo bf16 m k.sat x)) ∧
     narrow (.vcvtE4m3F32 d a k p) 8 (fun m x => roundTo e4m3 m k.sat x) ∧
     narrow (.vcvtE5m2F32 d a k p) 8 (fun m x => roundTo e5m2 m k.sat x) ∧
     narrow (.vcvtLog6F32 d a k p) 8 (fun m x => roundLog6 m k.sat x)) ∧
  (∀ (s : State) (d a : VReg) (k : CvtCtl) (p : Bool) (e : EcbEntry),
     (3 ≤ (s.hwarp.s 62).toNat → exec (.vscvt d a k p) s = .next s.illegal) ∧
     ((s.hwarp.s 62).toNat < 3 → Clean s [d.val, a.val, a.val + 1] [a.val, a.val + 1] (s.active p) →
       accCheck s s.hcore s.hwarp.ctx (s.hwarp.pair 60).toNat 1 permR = .ok e → e.sv = false →
       (∀ l, l < 32 → (s.active p).getLsbD l → (s.hwarp.v (a.val + 1) l).toNat < e.len) →
       ∃ t, exec (.vscvt d a k p) s = .next t ∧ t.mem = s.mem ∧ ∀ r l, l < 32 →
         (t.warp s.hcore s.run.wslot).v r l = if r = d.val ∧ (s.active p).getLsbD l then
           BitVec.ofNat 32 (scaledElem (modeOf k.mode.val 0) k.sat
             (decodeElem (scvtFmt (s.hwarp.s 62)) (((s.hwarp.v a.val l).toNat / 2 ^ (8 * k.pos.val)) %
               2 ^ (if (s.hwarp.s 62).toNat = 2 then 6 else 8))) 127)
         else s.hwarp.v r l) ∧
     ((s.hwarp.s 62).toNat < 3 → Clean s [d.val, a.val, a.val + 1] [a.val, a.val + 1] (s.active p) →
       accCheck s s.hcore s.hwarp.ctx (s.hwarp.pair 60).toNat 1 permR = .ok e → e.sv = true → s.active p ≠ 0 →
       (∀ l, l < 32 → (s.active p).getLsbD l → (s.hwarp.v (a.val + 1) l).toNat < e.len) →
       let acc : List Acc := (lanesOf (s.active p)).map (fun l => ⟨l, e.sbase + (s.hwarp.v (a.val + 1) l).toNat / 2 ^ e.shift⟩)
       globalVerdict s s.hcore s.hwarp.ctx s.hwarp acc 1 permR [] none = .ok →
       CompletesVia (.vscvt d a k p) s ((fillEcbs s s.hcore s.hwarp.ctx acc).enter (scvtReq s d a k (s.active p) acc))))

/-- R135, R136: the words that read one other lane complete when the lanes they read are clean: `vshfl` and `vbcast` the lane of an
index modulo 32, whatever its em bit; `vnbl` and `vnbr` the neighbour, and in the edge lane what the selector names: 0 for
`zero`, the same warp's far lane for `wrap`, for the others the named warp's far lane as it stands at issue (log entry 56: R137 allows any
cycle up to completion). R135: `vballot` completes and writes all 32 bits of md, 1 exactly in the visited
lanes whose source is not 0; `vrdlane` completes and gives a scalar register one lane of a vector register. -/
def Obligations.LaneReadsAndBallot : Prop :=
  (∀ (s : State) (d a : VReg) (b : Operand) (sel : Fin 4) (p : Bool),
     let w := s.hwarp
     let fine (src : Nat → Nat) := ∀ l, l < 32 → (s.active p).getLsbD l → (w.poisoned a.val).getLsbD (src l) = false
     let shuffle (l : Nat) := (s.opVal .raw b l).toNat % 32
     let first (_ : Nat) := (s.opVal .raw b 0).toNat % 32
     (s.inRange (d.val :: a.val :: opVregs b) → (∀ r ∈ opVregs b, w.poisoned r &&& s.active p = 0) →
       (fine shuffle → RowWord (.vshflB32 d a b p) s d p (fun l => w.v a.val (shuffle l))) ∧
       (fine first → RowWord (.vbcastB32 d a b p) s d p (fun l => w.v a.val (first l)))) ∧
     (s.inRange [d.val, a.val] →
       let left := edgeRead (edgeWarp s sel (-1)) a.val 31
       let right := edgeRead (edgeWarp s sel 1) a.val 0
       ((∀ l, l < 31 → (s.active p).getLsbD (l + 1) → (w.poisoned a.val).getLsbD l = false) →
         ((s.active p).getLsbD 0 → left.2 = false) →
         RowWord (.vnblB32 d a sel p) s d p (fun l => if l = 0 then left.1 else w.v a.val (l - 1))) ∧
       ((∀ l, l < 31 → (s.active p).getLsbD l → (w.poisoned a.val).getLsbD (l + 1) = false) →
         ((s.active p).getLsbD 31 → right.2 = false) →
         RowWord (.vnbrB32 d a sel p) s d p (fun l => if l = 31 then right.1 else w.v a.val (l + 1))) ∧
       (sel = 0 → left = (0, false) ∧ right = (0, false)) ∧
       (sel = 1 → left = (w.v a.val 31, (w.poisoned a.val).getLsbD 31) ∧ right = (w.v a.val 0, (w.poisoned a.val).getLsbD 0)))) ∧
  (∀ (s : State) (m : MReg) (d : SReg) (a : Operand) (r : VReg) (b : Operand) (p : Bool),
     (Clean s (opVregs a) (opVregs a) (s.active p) → ∃ x : Word, Completes (.vballot m a p) s (·.setM m.val x) ∧
       ∀ l, l < 32 → x.getLsbD l = ((s.active p).getLsbD l && decide (s.opVal .raw a l ≠ 0))) ∧
     (let j := (s.opVal .raw b 0).toNat % 32
      s.inRange [r.val] → (s.hwarp.poisoned r.val).getLsbD j = false →
       Completes (.vrdlane d r b) s (·.setS d.val (s.hwarp.v r.val j))))

/-- R138: the reductions and scans complete and combine the visited lanes in ascending order, one rounding per step: a reduction
gives every visited lane the combination of all of them, an inclusive scan that of the visited lanes up to it. The first value of a
binary32 combination is the first visited lane's, a NaN as the default NaN (R78). -/
def Obligations.ReductionsAndScans : Prop :=
  ∀ (s : State) (d a : VReg) (p : Bool), s.inRange [d.val, a.val] → s.hwarp.poisoned a.val &&& s.active p = 0 →
    let upTo (l : Nat) := (List.range (l + 1)).filter (s.active p).getLsbD
    let first (x : Word) : Word := if 0x7F800000 < x.toNat % 2 ^ 31 then 0x7FC00000 else x
    let fold (start : Word → Word) (f : Word → Word → Word) (l : List Nat) : Word := match l with
      | [] => 0
      | j :: r => r.foldl (fun acc k => f acc (s.hwarp.v a.val k)) (start (s.hwarp.v a.val j))
    let sum (x y : Word) := BitVec.ofNat 32 (fadd f32 .rne x.toNat y.toNat)
    RowWord (.vredAddI32 d a p) s d p (fun _ => fold id (· + ·) (upTo 31)) ∧
    RowWord (.vredAddF32 d a p) s d p (fun _ => fold first sum (upTo 31)) ∧
    RowWord (.vredMaxF32 d a p) s d p (fun _ => fold first (fun x y => BitVec.ofNat 32 (fmax f32 x.toNat y.toNat)) (upTo 31)) ∧
    RowWord (.vredMinF32 d a p) s d p (fun _ => fold first (fun x y => BitVec.ofNat 32 (fmin f32 x.toNat y.toNat)) (upTo 31)) ∧
    RowWord (.vscanAddI32 d a p) s d p (fun l => fold id (· + ·) (upTo l)) ∧
    RowWord (.vscanAddF32 d a p) s d p (fun l => fold first sum (upTo l))

/-- R36, R121, R135, R138: a vector word that names a register outside its warp's allocation raises register-range, before every other
check but that of s62 in `vscvt` (log entry 83); else, one that reads a poisoned lane raises poison-consumed, whose frame lists exactly the
lanes concerned: those poisoned in a source for a word that reads its own lanes, `vscvt` among them; for `vshfl` those whose index is
poisoned or that would receive a poisoned value, for `vbcast`, `vnbl` and `vnbr` those that would receive one (the edge lane of another
warp as it stands at issue, log entry 56), every visited lane for a reduction or a scan, every lane of em for `vrdlane`. Which of several
poisoned registers the frame names, and the lanes of `vrdlane`, are the choices of log entry 24. Neither fault has another effect. -/
def Obligations.VectorWordsTrap : Prop :=
  ∀ (s : State) (d e : VReg) (g : SReg) (a b : Operand) (m : MReg) (c : Fin 8) (r : Fin 4) (k : CvtCtl) (p : Bool),
    let range := s.raise { cls := 3, lanes := s.hsplit.mask, detail := s.word.toNat, aux := s.hwarp.alloc }
    let poison (i : Instr) (lanes : Word) (reg : Nat) : Prop := exec i s = .next (s.raise { cls := 7, lanes := lanes, detail := reg })
    let traps (l : List Instr) (names reads : List Nat) (lanes : Word) : Prop := ∀ i ∈ l,
      (s.inRange names = false → exec i s = .next range) ∧
      (s.inRange names → s.poisonLanes reads lanes ≠ 0 → poison i (s.poisonLanes reads lanes) (s.poisonReg reads lanes))
    let ab := opVregs a ++ opVregs b
    traps [.vaddI32 d a b p, .vsubI32 d a b p, .vmulI32 d a b p, .vmulhiI32 d a b p, .vmulhiN32 d a b p, .vandB32 d a b p, .vorB32 d a b p,
      .vxorB32 d a b p, .vshlB32 d a b p, .vshrN32 d a b p, .vshrI32 d a b p, .vminI32 d a b p, .vminN32 d a b p, .vmaxI32 d a b p,
      .vmaxN32 d a b p, .vaddF32 d a b p, .vsubF32 d a b p, .vmulF32 d a b p, .vminF32 d a b p, .vmaxF32 d a b p, .vaddF16 d a b p,
      .vmulF16 d a b p, .vaddBf16 d a b p, .vmulBf16 d a b p, .vaddF32Rz d a b p, .vaddF32Ru d a b p, .vaddF32Rd d a b p,
      .vsubF32Rz d a b p, .vsubF32Ru d a b p, .vsubF32Rd d a b p, .vmulF32Rz d a b p, .vmulF32Ru d a b p, .vmulF32Rd d a b p]
      (d.val :: ab) ab (s.active p) ∧
    traps [.vmadI32 d a b p, .vdot4I8 d a b p, .vfmaF32 d a b p, .vfmsF32 d a b p, .vfmaF32Rz d a b p, .vfmaF32Ru d a b p, .vfmaF32Rd d a b p,
      .vfmaF16 d a b p, .vfmaBf16 d a b p] (d.val :: ab) (ab ++ [d.val]) (s.active p) ∧
    traps [.vmovB32 d a p, .vpopcB32 d a p, .vclzB32 d a p, .vbrevB32 d a p, .vabsF32 d a p, .vnegF32 d a p, .vrcpF32 d a p, .vrsqrtF32 d a p,
      .vsqrtF32 d a p, .vexp2F32 d a p, .vlog2F32 d a p, .vclassF32 d a p, .vrndF32 d a r p, .vcvtF32I32 d a k p, .vcvtF32N32 d a k p,
      .vcvtI32F32 d a k p, .vcvtN32F32 d a k p, .vcvtF32F16 d a k p, .vcvtF32Bf16 d a k p, .vcvtF32E4m3 d a k p, .vcvtF32E5m2 d a k p,
      .vcvtF32Log6 d a k p, .vcvtF16F32 d a k p, .vcvtBf16F32 d a k p, .vcvtE4m3F32 d a k p, .vcvtE5m2F32 d a k p, .vcvtLog6F32 d a k p]
      (d.val :: opVregs a) (opVregs a) (s.active p) ∧
    traps [.vcmpI32 c m a b p, .vcmpN32 c m a b p, .vcmpF32 c m a b p] ab ab (s.active p) ∧
    ((s.hwarp.s 62).toNat < 3 → traps [.vscvt d e k p] [d.val, e.val, e.val + 1] [e.val, e.val + 1] (s.active p)) ∧
    traps [.vselB32 d a b] (d.val :: ab) ab s.em ∧ traps [.vballot m a p] (opVregs a) (opVregs a) (s.active p) ∧
    (s.inRange (d.val :: e.val :: opVregs b) = false → exec (.vshflB32 d e b p) s = .next range ∧ exec (.vbcastB32 d e b p) s = .next range) ∧
    (s.inRange (d.val :: e.val :: opVregs b) → (∀ q ∈ opVregs b, s.hwarp.poisoned q &&& s.active p = 0) →
      let fails (i : Instr) (src : Nat → Nat) : Prop := ∀ l, l < 32 → (s.active p).getLsbD l → (s.hwarp.poisoned e.val).getLsbD (src l) →
        ∃ x : Word, poison i x e.val ∧
          ∀ j, j < 32 → x.getLsbD j = ((s.active p).getLsbD j && (s.hwarp.poisoned e.val).getLsbD (src j))
      fails (.vshflB32 d e b p) (fun l => (s.opVal .raw b l).toNat % 32) ∧ fails (.vbcastB32 d e b p) (fun _ => (s.opVal .raw b 0).toNat % 32)) ∧
    (∀ q : VReg, b = .v q → s.inRange [d.val, e.val, q.val] → s.hwarp.poisoned q.val &&& s.active p ≠ 0 →
      ∃ x : Word, poison (.vshflB32 d e b p) x q.val ∧ ∀ j, j < 32 → x.getLsbD j = ((s.active p).getLsbD j &&
        ((s.hwarp.poisoned q.val).getLsbD j || (s.hwarp.poisoned e.val).getLsbD ((s.opVal .raw b j).toNat % 32)))) ∧
    (∀ i ∈ [Instr.vredAddI32 d e p, .vredAddF32 d e p, .vredMaxF32 d e p, .vredMinF32 d e p, .vscanAddI32 d e p, .vscanAddF32 d e p],
      (s.inRange [d.val, e.val] = false → exec i s = .next range) ∧
      (s.inRange [d.val, e.val] → s.hwarp.poisoned e.val &&& s.active p ≠ 0 → poison i (s.active p) e.val)) ∧
    (s.inRange [d.val, e.val] = false → exec (.vnblB32 d e r p) s = .next range ∧ exec (.vnbrB32 d e r p) s = .next range) ∧
    (s.inRange [d.val, e.val] →
      let fails (i : Instr) (hit : Nat → Bool) : Prop := ∀ l, l < 32 → (s.active p).getLsbD l → hit l →
        ∃ x : Word, poison i x e.val ∧ ∀ j, j < 32 → x.getLsbD j = ((s.active p).getLsbD j && hit j)
      fails (.vnblB32 d e r p) (fun l => if l = 0 then (edgeRead (edgeWarp s r (-1)) e.val 31).2 else (s.hwarp.poisoned e.val).getLsbD (l - 1)) ∧
      fails (.vnbrB32 d e r p) (fun l => if l = 31 then (edgeRead (edgeWarp s r 1) e.val 0).2 else (s.hwarp.poisoned e.val).getLsbD (l + 1))) ∧
    (s.inRange [e.val] = false → exec (.vrdlane g e b) s = .next range) ∧
    (s.inRange [e.val] → s.em ≠ 0 → (s.hwarp.poisoned e.val).getLsbD ((s.opVal .raw b 0).toNat % 32) → poison (.vrdlane g e b) s.em e.val)

/-! ### Loads, stores and atomics (07_memory.md, 12_atomics.md) -/

/-- R145, R155, R163: each global load completes when its counter has room, its registers are in range and its checks pass: one
request for the visited lanes is entered, of the width and the extension the word names, and no byte of memory changes. R145,
R155, R163: each global store completes when its counter has room, its registers are in range and its checks pass: one request
is entered that carries each visited lane's bytes, low register first; no byte of memory changes before it is applied. A store
of an audit replay (R226) enters none. R158: the scalar load and store complete with one access of 4 bytes, whose request is
entered. -/
def Obligations.GlobalAccessesEnterRequests : Prop :=
  (∀ (s : State) (d : VReg) (sb : SReg) (vo : VReg) (sc : Fin 8) (x : Option Word),
     let acc := s.accesses sb vo (x.getD 0).toInt
     let load (i : Instr) (w : Nat) (sgn : Bool) : Prop :=
       let u := (fillEcbs s s.hcore s.hwarp.ctx acc).enter { s.newReq (.load sgn) .global w d.val sc.val 0 with
         parts := acc.map (fun a => globalPart s s.hcore s.hwarp.ctx a 0) }
       s.hwarp.ld < 30 → s.inRange (voRegs vo ++ groupRegs d.val w) →
       globalVerdict s s.hcore s.hwarp.ctx s.hwarp acc w permR (voRegs vo) none = .ok → CompletesVia i s u ∧ u.mem.bytes = s.mem.bytes
     load (.ldN8 d sb vo sc x) 1 false ∧
     load (.ldI8 d sb vo sc x) 1 true ∧
     load (.ldN16 d sb vo sc x) 2 false ∧
     load (.ldI16 d sb vo sc x) 2 true ∧
     load (.ldB32 d sb vo sc x) 4 false ∧
     load (.ldB64 d sb vo sc x) 8 false ∧
     load (.ldB128 d sb vo sc x) 16 false) ∧
  (∀ (s : State) (d : VReg) (sb : SReg) (vo : VReg) (sc : Fin 8) (x : Option Word),
     let acc := s.accesses sb vo (x.getD 0).toInt
     let store (i : Instr) (w : Nat) : Prop :=
       let parts := acc.map (fun a => globalPart s s.hcore s.hwarp.ctx a (s.hwarp.group d.val w a.lane))
       let v := foldSig (fillEcbs s s.hcore s.hwarp.ctx acc) s.hwarp.blk (parts.map (fun p => (p.addr, leBytes w p.data)))
       let u := v.enter { s.newReq .store .global w d.val sc.val 0 with parts := parts }
       s.hwarp.st < 30 → s.inRange (voRegs vo ++ groupRegs d.val w) →
       globalVerdict s s.hcore s.hwarp.ctx s.hwarp acc w permW (voRegs vo ++ groupRegs d.val w) none = .ok →
       (s.hblk.isReplay = false → CompletesVia i s u ∧ u.mem.bytes = s.mem.bytes) ∧
       (s.hblk.isReplay = true → CompletesVia i s v ∧ v.mem = s.mem)
     store (.stB8 d sb vo sc x) 1 ∧
     store (.stB16 d sb vo sc x) 2 ∧
     store (.stB32 d sb vo sc x) 4 ∧
     store (.stB64 d sb vo sc x) 8 ∧
     store (.stB128 d sb vo sc x) 16) ∧
  (∀ (s : State) (d sb : SReg) (sc : Fin 8) (x : Option Word),
     let acc : List Acc := [⟨0, (((s.sbase sb : Int) + (x.getD 0).toInt) % 2 ^ 64).toNat⟩]
     let part (data : Nat) := acc.map (fun a => globalPart s s.hcore s.hwarp.ctx a data)
     let fine (need : Nat) := globalVerdict s s.hcore s.hwarp.ctx s.hwarp acc 4 need [] (some s.em) = .ok
     (s.hwarp.ld < 30 → fine permR → CompletesVia (.sldB32 d sb sc x) s ((fillEcbs s s.hcore s.hwarp.ctx acc).enter
       { s.newReq .sload .global 4 d.val sc.val 0 with parts := part 0 })) ∧
     (let store := part (s.hwarp.s d.val).toNat
      let v := foldSig (fillEcbs s s.hcore s.hwarp.ctx acc) s.hwarp.blk (store.map (fun p => (p.addr, leBytes 4 p.data)))
      s.hwarp.st < 30 → fine permW → CompletesVia (.sstB32 d sb sc x) s
       (if s.hblk.isReplay then v else v.enter { s.newReq .sstore .global 4 d.val sc.val 0 with parts := store })))

/-- R157: the loads of the lane slices, the scratchpad, cluster memory and the cluster store complete when their counter has room,
their registers are in range and the level's checks pass: a request is entered that names the level and each lane's place. R157:
the stores to the same levels complete likewise, with each lane's bytes; a store of an audited block beyond its own storage is
folded into its signature, and one of a replay there is not performed (R226). -/
def Obligations.LocalAccessesEnterRequests : Prop :=
  (∀ (s : State) (d : VReg) (vo : VReg) (wd : Fin 8) (x : Option Word),
     let lit := x.getD 0
     let w := widthOf wd.val
     let load (i : Instr) (lv : Level) (disp : Word) : Prop :=
       let acc := (lanesOf s.em).map (fun l => Acc.mk l (s.voff vo l + disp).toNat)
       s.hwarp.ld < 30 → s.inRange (voRegs vo ++ groupRegs d.val w) →
       localVerdict s s.hcore s.hwarp acc w false lv lv.lock (voRegs vo) = .ok →
       CompletesVia i s (s.enter { s.newReq (.load (widthSigned wd.val)) lv.space w d.val 0 0 with
         parts := acc.map (fun a => Part.new a.lane (lv.place a.lane a.va) a.va 0 0 0) })
     load (.ldLane d vo wd x) (laneLevel s) lit ∧
     load (.ldSp d vo wd x) (spadLevel s) lit ∧
     load (.ldCm d vo wd x) (cmLevel s lit) (lit &&& 0x3FFFF) ∧
     load (.ldCst d vo wd x) (cstLevel s lit) (lit &&& 0x1FFFFFF)) ∧
  (∀ (s : State) (d : VReg) (vo : VReg) (wd : Fin 8) (x : Option Word),
     let lit := x.getD 0
     let w := widthOf wd.val
     let store (i : Instr) (lv : Level) (packed disp : Word) : Prop :=
       let acc := (lanesOf s.em).map (fun l => Acc.mk l (s.voff vo l + disp).toNat)
       let parts := acc.map (fun a => Part.new a.lane (lv.place a.lane a.va) a.va (s.hwarp.group d.val w a.lane) 0 0)
       let v := if lv.own s then s else foldSig s s.hwarp.blk (parts.map (fun p => (lv.foldAddr packed p.va, leBytes w p.data)))
       s.hwarp.st < 30 → s.inRange (voRegs vo ++ groupRegs d.val w) →
       localVerdict s s.hcore s.hwarp acc w true lv lv.lock (voRegs vo ++ groupRegs d.val w) = .ok →
       CompletesVia i s (if !lv.own s && s.hblk.isReplay then v else
         v.enter { s.newReq .store lv.space w d.val 0 0 with parts := parts })
     store (.stLane d vo wd x) (laneLevel s) 0 lit ∧
     store (.stSp d vo wd x) (spadLevel s) 0 lit ∧
     store (.stCm d vo wd x) (cmLevel s lit) lit (lit &&& 0x3FFFF) ∧
     store (.stCst d vo wd x) (cstLevel s lit) lit (lit &&& 0x1FFFFFF))

/-- R159, R160: `pf` and `cinv` complete whenever their offset register is in range, whatever their lanes' addresses, and trap for none of
them. A prefetch at `.core` changes no byte of memory or of a home slice, no register and no other core: it fills the L1 of its core, whose
room it may take from lines that it evicts, recalls an owner and wakes a channel as a read does. Beyond `.core` it changes nothing: the home
slice holds no clean copies here and a last access is not moved (log entry 8). `cinv` changes nothing but the L1 of its core, where no
visited lane's line remains. R175: a lane whose check meets a corrupt extent table escalates that instead. -/
def Obligations.PrefetchAndInvalidate : Prop :=
  ∀ (s : State) (sb : SReg) (vo : VReg) (sc : Fin 8) (x : Option Word), s.inRange (voRegs vo) →
    let va (l : Nat) := s.gaddr sb vo (x.getD 0).toInt l
    let asked (l : Nat) : Prop := l < 32 ∧ s.em.getLsbD l ∧ (s.poisonLanes (voRegs vo) s.em).getLsbD l = false
    let ownL1 (u : State) : Prop := u.mem.bytes = s.mem.bytes ∧ u.mem.l2 = s.mem.l2 ∧ u.mem.reqs = s.mem.reqs ∧ u.warps = s.warps ∧
      u.work = s.work ∧ u.fab = s.fab ∧ u.plat = s.plat ∧ u.focus = s.focus ∧ (∀ c, c ≠ s.hcore → u.core c = s.core c) ∧
      { u.core s.hcore with l1 := [] } = { s.core s.hcore with l1 := [] }
    ((∀ l, asked l → laneCorrupt s s.hcore s.hwarp.ctx (va l) permR = false) →
      ∃ u, ownL1 u ∧ CompletesVia (.pf sb vo sc x) s u ∧ (sc ≠ 0 → u = s)) ∧
    ((∃ l, asked l ∧ laneCorrupt s s.hcore s.hwarp.ctx (va l) permR) → exec (.pf sb vo sc x) s = .next (deviceError s)) ∧
    ((∀ l, l < 32 → s.em.getLsbD l → laneCorrupt s s.hcore s.hwarp.ctx (va l) 0 = false) →
      ∃ u, ownL1 u ∧ u.mem = s.mem ∧ u.free = s.free ∧ CompletesVia (.cinv sb vo x) s u ∧
        ∀ l, l < 32 → s.em.getLsbD l → ∀ e, coreCheck s s.hcore s.hwarp.ctx (va l) 1 0 = .ok e →
          ∀ k ∈ (u.core s.hcore).l1, k.1 / 128 ≠ lineKey s.hwarp.ctx (canonical e (va l))) ∧
    ((∃ l, l < 32 ∧ s.em.getLsbD l ∧ laneCorrupt s s.hcore s.hwarp.ctx (va l) 0) → exec (.cinv sb vo x) s = .next (deviceError s))

/-- R163: the checks of a global access run in the order misaligned, limit, permission, interval-lock, poison-consumed, each over every
visited lane; the first that a lane fails is raised, and its frame lists exactly the lanes that fail it, or em for a scalar access, and the
sector VA of the lowest. A global load, store, atomic, `bred` or `ld.bnd` of more than one byte raises misaligned for the lanes whose address
is no multiple of the width, before every other check; every global word raises what its checks find, and has no other effect. The register
that a poison-consumed frame names is the choice of log entry 24. -/
def Obligations.MisalignedAccessTraps : Prop :=
  ∀ (s : State) (d : VReg) (g sb : SReg) (vo : VReg) (sc : Fin 8) (x : Option Word) (l : Nat),
    let odd (disp : Int) (w j : Nat) : Bool := s.em.getLsbD j && decide (s.gaddr sb vo disp j % w ≠ 0)
    let traps (i : Instr) (disp : Int) (w n : Nat) : Prop := s.inRange (voRegs vo ++ groupRegs d.val n) → l < 32 → odd disp w l →
      ∃ f : FaultInfo, exec i s = .next (s.raise f) ∧ f.cls = 8 ∧ f.detail = w ∧ f.space = 1 ∧
        ∀ j, j < 32 → f.lanes.getLsbD j = odd disp w j
    let full := (x.getD 0).toInt
    let near := ((x.getD 0).extractLsb' 0 8).toInt
    let scalar (i : Instr) : Prop := (((s.sbase sb : Int) + full) % 2 ^ 64).toNat % 4 ≠ 0 →
      ∃ f : FaultInfo, exec i s = .next (s.raise f) ∧ f.cls = 8 ∧ f.detail = 4 ∧ f.space = 1 ∧ f.lanes = s.em
    (s.hwarp.ld < 30 → traps (.ldN16 d sb vo sc x) full 2 2 ∧ traps (.ldI16 d sb vo sc x) full 2 2 ∧ traps (.ldB32 d sb vo sc x) full 4 4 ∧
      traps (.ldB64 d sb vo sc x) full 8 8 ∧ traps (.ldB128 d sb vo sc x) full 16 16 ∧ traps (.ldBnd d sb vo sc x) 0 4 4 ∧
      scalar (.sldB32 g sb sc x)) ∧
    (s.hwarp.st < 30 → traps (.stB16 d sb vo sc x) full 2 2 ∧ traps (.stB32 d sb vo sc x) full 4 4 ∧ traps (.stB64 d sb vo sc x) full 8 8 ∧
      traps (.stB128 d sb vo sc x) full 16 16 ∧ scalar (.sstB32 g sb sc x)) ∧
    (∀ (c ctx : Nat) (w : Warp) (acc : List Acc) (n need : Nat) (reads : List Nat) (all : Option Word),
      let chk (a : Acc) := accCheck s c ctx a.va n need
      let limits := acc.filterMap (fun a => match chk a with | .limit v o => some (a.lane, v, o) | _ => none)
      let perms := acc.filterMap (fun a => match chk a with | .perm _ v o => some (a.lane, v, some o) | _ => none)
      let locks := acc.filterMap (fun a => match chk a with
        | .ok e => (lockHit s c (.global ctx) (canonical e a.va) n (need &&& permW != 0)).map (fun h => (a.lane, a.va + (h.1 - canonical e a.va), some e.xid))
        | _ => none)
      let poisons (l : Nat) : Bool := acc.any (fun a => a.lane == l) && reads.any (fun r => (w.poisoned r).getLsbD l)
      let raises (cls : Nat) (hits : List (Nat × Nat × Option Nat)) : Prop := ∀ p r, hits = p :: r →
        ∃ f : FaultInfo, globalVerdict s c ctx w acc n need reads all = .fault f ∧ f.cls = cls ∧ f.space = 1 ∧ f.sva = p.2.1 ∧ f.xid = p.2.2 ∧
          ∀ l, l < 32 → f.lanes.getLsbD l = match all with
            | some m => m.getLsbD l
            | none => hits.any (fun h => h.1 == l)
      (∀ a ∈ acc, a.va % n = 0) → (∀ a ∈ acc, chk a ≠ .corrupt) →
        raises 4 limits ∧ (limits = [] → raises 5 perms) ∧ (limits = [] → perms = [] → raises 6 locks) ∧
        (limits = [] → perms = [] → locks = [] → ∀ l, l < 32 → poisons l → ∃ f : FaultInfo,
          globalVerdict s c ctx w acc n need reads all = .fault f ∧ f.cls = 7 ∧ ∀ j, j < 32 → f.lanes.getLsbD j = poisons j) ∧
        (limits = [] → perms = [] → locks = [] → (∀ l, l < 32 → poisons l = false) → (∀ a ∈ acc, a.lane < 32) →
          globalVerdict s c ctx w acc n need reads all = .ok)) ∧
    (∀ (f : FaultInfo),
      let meets (i : Instr) (disp : Int) (w need n : Nat) (data : List Nat) : Prop := s.inRange (voRegs vo ++ groupRegs d.val n) →
        globalVerdict s s.hcore s.hwarp.ctx s.hwarp (s.accesses sb vo disp) w need (voRegs vo ++ data) none = .fault f → exec i s = .next (s.raise f)
      let one (i : Instr) (need : Nat) : Prop := globalVerdict s s.hcore s.hwarp.ctx s.hwarp
        [⟨0, (((s.sbase sb : Int) + full) % 2 ^ 64).toNat⟩] 4 need [] (some s.em) = .fault f → exec i s = .next (s.raise f)
      (s.hwarp.ld < 30 → (∀ p ∈ [(Instr.ldN8 d sb vo sc x, 1), (.ldI8 d sb vo sc x, 1), (.ldN16 d sb vo sc x, 2), (.ldI16 d sb vo sc x, 2),
        (.ldB32 d sb vo sc x, 4), (.ldB64 d sb vo sc x, 8), (.ldB128 d sb vo sc x, 16)], meets p.1 full p.2 permR p.2 []) ∧
        meets (.ldBnd d sb vo sc x) 0 4 permR 4 [] ∧ one (.sldB32 g sb sc x) permR) ∧
      (s.hwarp.st < 30 → (∀ p ∈ [(Instr.stB8 d sb vo sc x, 1), (.stB16 d sb vo sc x, 2), (.stB32 d sb vo sc x, 4), (.stB64 d sb vo sc x, 8),
        (.stB128 d sb vo sc x, 16)], meets p.1 full p.2 permW p.2 (groupRegs d.val p.2)) ∧ one (.sstB32 g sb sc x) permW) ∧
      (s.hblk.auditable = false → s.hwarp.st < 30 → meets (.bredAddF32 d sb vo sc x) near 4 permW 4 [d.val]) ∧
      (s.hblk.auditable = false → s.hwarp.ld < 30 → ∀ p ∈ [(Instr.atomAddI32 d sb vo sc x, 4, 4), (.atomAddF32 d sb vo sc x, 4, 4),
        (.atomMinI32 d sb vo sc x, 4, 4), (.atomMaxI32 d sb vo sc x, 4, 4), (.atomMinN32 d sb vo sc x, 4, 4), (.atomMaxN32 d sb vo sc x, 4, 4),
        (.atomAndB32 d sb vo sc x, 4, 4), (.atomOrB32 d sb vo sc x, 4, 4), (.atomXchgB32 d sb vo sc x, 4, 4), (.atomCasB32 d sb vo sc x, 4, 8),
        (.atomAddI64 d sb vo sc x, 8, 8), (.atomXchgB64 d sb vo sc x, 8, 8), (.atomCasB64 d sb vo sc x, 8, 16), (.atomCasB128 d sb vo sc x, 16, 32)],
        meets p.1 near p.2.1 (permR ||| permW) p.2.2 (groupRegs d.val p.2.2))) ∧
    (s.hblk.auditable = false → s.hwarp.st < 30 → traps (.bredAddF32 d sb vo sc x) near 4 4) ∧
    (s.hblk.auditable = false → s.hwarp.ld < 30 →
      (∀ i ∈ [Instr.atomAddI32 d sb vo sc x, .atomAddF32 d sb vo sc x, .atomMinI32 d sb vo sc x, .atomMaxI32 d sb vo sc x, .atomMinN32 d sb vo sc x,
        .atomMaxN32 d sb vo sc x, .atomAndB32 d sb vo sc x, .atomOrB32 d sb vo sc x, .atomXchgB32 d sb vo sc x], traps i near 4 4) ∧
      traps (.atomCasB32 d sb vo sc x) near 4 8 ∧ traps (.atomAddI64 d sb vo sc x) near 8 8 ∧ traps (.atomXchgB64 d sb vo sc x) near 8 8 ∧
      traps (.atomCasB64 d sb vo sc x) near 8 16 ∧ traps (.atomCasB128 d sb vo sc x) near 16 32)

/-- R239, R241: each atomic completes when its block is not auditable, its counter has room, its registers are in range and its
checks for reading and writing pass: a request is entered with its inputs, its scope and its order; its result comes with its
completion. R250, R251: `bred.add.f32` and `ld.bnd` complete when their counter has room, their registers are in range and their
checks pass; a bounded load takes an epsilon of −0 as +0 and asks for its lines at once. In an auditable block `bred.add.f32`
and the atomics raise illegal-instruction (R225). -/
def Obligations.AtomicsAndBoundedEnterRequests : Prop :=
  (∀ (s : State) (d : VReg) (sb : SReg) (vo : VReg) (sc : Fin 8) (x : Option Word),
     let acc := s.accesses sb vo (((x.getD 0).extractLsb' 0 8).toInt)
     let atom (i : Instr) (op size inputs : Nat) : Prop :=
       s.hblk.auditable = false → s.hwarp.ld < 30 → s.inRange (voRegs vo ++ groupRegs d.val inputs) →
       globalVerdict s s.hcore s.hwarp.ctx s.hwarp acc size (permR ||| permW) (voRegs vo ++ groupRegs d.val inputs) none = .ok →
       CompletesVia i s ((fillEcbs s s.hcore s.hwarp.ctx acc).enter
         { s.newReq (.atomic op) .global size d.val sc.val ((x.getD 0).toNat / 2 ^ 30) with
           parts := acc.map (fun a => hostParts op (globalPart s s.hcore s.hwarp.ctx a (s.hwarp.group d.val inputs a.lane))) })
     atom (.atomAddI32 d sb vo sc x) 0 4 4 ∧
     atom (.atomAddF32 d sb vo sc x) 1 4 4 ∧
     atom (.atomMinI32 d sb vo sc x) 2 4 4 ∧
     atom (.atomMaxI32 d sb vo sc x) 3 4 4 ∧
     atom (.atomMinN32 d sb vo sc x) 4 4 4 ∧
     atom (.atomMaxN32 d sb vo sc x) 5 4 4 ∧
     atom (.atomAndB32 d sb vo sc x) 6 4 4 ∧
     atom (.atomOrB32 d sb vo sc x) 7 4 4 ∧
     atom (.atomXchgB32 d sb vo sc x) 8 4 4 ∧
     atom (.atomCasB32 d sb vo sc x) 9 4 8 ∧
     atom (.atomAddI64 d sb vo sc x) 10 8 8 ∧
     atom (.atomXchgB64 d sb vo sc x) 11 8 8 ∧
     atom (.atomCasB64 d sb vo sc x) 12 8 16 ∧
     atom (.atomCasB128 d sb vo sc x) 13 16 32) ∧
  (∀ (s : State) (d : VReg) (sb : SReg) (vo : VReg) (sc : Fin 8) (x : Option Word),
     let near := s.accesses sb vo (((x.getD 0).extractLsb' 0 8).toInt)
     let here := s.accesses sb vo 0
     let eps := if x.getD 0 = 0x80000000 then 0 else (x.getD 0).toNat
     let load := { s.newReq (.bnd eps) .global 4 d.val sc.val 0 with parts := here.map (fun a => globalPart s s.hcore s.hwarp.ctx a 0) }
     (s.hblk.auditable = true → ∀ i ∈ [Instr.bredAddF32 d sb vo sc x, .atomAddI32 d sb vo sc x, .atomAddF32 d sb vo sc x, .atomMinI32 d sb vo sc x,
       .atomMaxI32 d sb vo sc x, .atomMinN32 d sb vo sc x, .atomMaxN32 d sb vo sc x, .atomAndB32 d sb vo sc x, .atomOrB32 d sb vo sc x,
       .atomXchgB32 d sb vo sc x, .atomCasB32 d sb vo sc x, .atomAddI64 d sb vo sc x, .atomXchgB64 d sb vo sc x, .atomCasB64 d sb vo sc x,
       .atomCasB128 d sb vo sc x], exec i s = .next s.illegal) ∧
     (s.hblk.auditable = false → s.hwarp.st < 30 → s.inRange (voRegs vo ++ [d.val]) →
       globalVerdict s s.hcore s.hwarp.ctx s.hwarp near 4 permW (voRegs vo ++ [d.val]) none = .ok →
       CompletesVia (.bredAddF32 d sb vo sc x) s ((fillEcbs s s.hcore s.hwarp.ctx near).enter
         { s.newReq .bred .global 4 d.val sc.val ((x.getD 0).toNat / 2 ^ 30) with
           parts := near.map (fun a => hostParts 1 (globalPart s s.hcore s.hwarp.ctx a (s.hwarp.v d.val a.lane).toNat)) })) ∧
     (s.hwarp.ld < 30 → s.inRange (voRegs vo ++ [d.val]) →
       globalVerdict s s.hcore s.hwarp.ctx s.hwarp here 4 permR (voRegs vo) none = .ok →
       CompletesVia (.ldBnd d sb vo sc x) s (sendBloads ((fillEcbs s s.hcore s.hwarp.ctx here).enter load) s.work.next load)))

/-- R239: what each atomic stores over the old value: integer operations modulo 2^32 or 2^64, one rounding of the binary32 sum,
signed and unsigned minima and maxima, exchange, and a compare whose new value is stored only on equality. -/
def Obligations.AtomicResults : Prop :=
  ∀ (x y z : Word) (a b : DWord) (c n : BitVec 128),
    atomNew 0 x.toNat y.toNat = (x + y).toNat ∧
    atomNew 1 x.toNat y.toNat = fadd f32 .rne x.toNat y.toNat ∧
    atomNew 2 x.toNat y.toNat = (if x.toInt ≤ y.toInt then x else y).toNat ∧
    atomNew 3 x.toNat y.toNat = (if y.toInt ≤ x.toInt then x else y).toNat ∧
    atomNew 4 x.toNat y.toNat = min x.toNat y.toNat ∧
    atomNew 5 x.toNat y.toNat = max x.toNat y.toNat ∧
    atomNew 6 x.toNat y.toNat = (x &&& y).toNat ∧
    atomNew 7 x.toNat y.toNat = (x ||| y).toNat ∧
    atomNew 8 x.toNat y.toNat = y.toNat ∧
    atomNew 9 x.toNat (y.toNat + 2 ^ 32 * z.toNat) = (if x = y then z else x).toNat ∧
    atomNew 10 a.toNat b.toNat = (a + b).toNat ∧
    atomNew 11 a.toNat b.toNat = b.toNat ∧
    (∀ m : DWord, atomNew 12 a.toNat (b.toNat + 2 ^ 64 * m.toNat) = (if a = b then m else a).toNat) ∧
    (∀ m : BitVec 128, atomNew 13 c.toNat (n.toNat + 2 ^ 128 * m.toNat) = (if c = n then m else c).toNat)

/-! ### Extents, barriers, waits (09_extents.md, 10_sync.md) -/

/-- R192: `xprobe` completes with the extent ID and scc 1 where an extent lies, with all ones and scc 0 where none does; R193: `xinfo`
completes with the field of the handle's extent and scc 1, or 0 and scc 0. R194: the residency words complete with a status in
every state whose block is no audit replay: 1 without an extent, 2 for one that cannot move, 3 for one that slides (for a pin of a pinned
extent and a demotion of one in host memory too: log entry 92), 4 for a demotion of a pinned one; a pin, an unpin and a priority are
written into the descriptor, and a demotion or a pin that moves an extent starts its move. -/
def Obligations.ExtentAndResidencyWords : Prop :=
  (∀ (s : State) (d sb : SReg) (x : Option Word) (sel : Fin 8),
     let a := (((s.sbase sb : Int) + (x.getD 0).toInt) % 2 ^ 64).toNat
     let look := checkedWalk s (protOf s s.hcore s.hwarp.ctx a)
     ((2 ^ 56 ≤ a ∨ look = .none) → Completes (.xprobe d sb x) s (fun w => (w.setS d.val 0xFFFFFFFF).setScc false)) ∧
     (∀ e, a < 2 ^ 56 → look = .found e → CompletesVia (.xprobe d sb x) s ((fillEcb s s.hcore s.hwarp.ctx a).updHere
       (fun w => (w.setS d.val (BitVec.ofNat 32 e.ent.xid)).setScc true))) ∧
     (s.badHandle sb = false → s.handle sb = none → Completes (.xinfo d sb sel) s (fun w => (w.setS d.val 0).setScc false)) ∧
     (∀ e, s.handle sb = some e →
       let e' := { e with pl := portPlace s (entryPort (coreCluster s.hcore) e.ent.base) e }
       Completes (.xinfo d sb sel) s (fun w => (w.setS d.val (BitVec.ofNat 32 (infoField e' sel.val))).setScc true))) ∧
  (∀ (s : State) (d sb : SReg) (sel : Fin 8), s.hblk.isReplay = false →
     let answers (i : Instr) (st : Nat) := Completes i s (fun w => (w.setS d.val (BitVec.ofNat 32 st)).setScc (decide (st = 0)))
     let writes (i : Instr) (pa lo n v : Nat) := CompletesVia i s ((patch64 s pa lo n v).updHere (fun w => (w.setS d.val 0).setScc true))
     (s.badHandle sb = false → s.handle sb = none → answers (.hpin d sb) 1 ∧ answers (.hdemote d sb) 1 ∧ answers (.hprio d sb sel) 1 ∧ answers (.hunpin d sb) 1) ∧
     ∀ e, s.handle sb = some e →
       (e.movable = false → answers (.hpin d sb) 2 ∧ answers (.hdemote d sb) 2) ∧
       (e.movable = true → sliding s e = true → answers (.hpin d sb) 3 ∧ answers (.hdemote d sb) 3) ∧
       (e.movable = true → sliding s e = false →
         (e.pin = true → answers (.hpin d sb) 0) ∧
         (e.pin = true → e.inHost = false → answers (.hdemote d sb) 4) ∧
         (e.inHost = true → answers (.hdemote d sb) 0) ∧
         (e.pin = false → mget s.mem.quota 0 e.ent.ctx < pinnedBytes s e.ent.ctx + e.ent.len → answers (.hpin d sb) 5) ∧
         (e.pin = false → pinnedBytes s e.ent.ctx + e.ent.len ≤ mget s.mem.quota 0 e.ent.ctx →
           (e.inHost = false → writes (.hpin d sb) (e.pa + 0x28) 63 1 1) ∧
           (e.inHost = true → ∀ t, promote s e 7 0 true = (0, t) →
             CompletesVia (.hpin d sb) s ((patch64 t (e.pa + 0x28) 63 1 1).updHere (·.setStatus d.val 0)))) ∧
         (e.inHost = false → e.pin = false → ∀ st t, demote s e (effPart s s.hblk.region) 7 0 = (st, t) →
           CompletesVia (.hdemote d sb) s (t.updHere (·.setStatus d.val st)))) ∧
       writes (.hprio d sb sel) (e.pa + 0x08) 51 3 sel.val ∧
       (e.ent.al = false → writes (.hunpin d sb) (e.pa + 0x28) 63 1 0) ∧
       (e.ent.al = true → answers (.hunpin d sb) 0))

/-- R198, R199: the advance rule. An object whose arrivals and bytes suffice enters the next phase, keeps surplus bytes, loses the
parties that dropped, and clears its counts; otherwise it stays. Bytes are charged by rule to any object, initialised or not: they saturate
at 2^48 − 1 and then set er, a failed operation sets er, and the advance rule follows, so that a charge can end a phase. -/
def Obligations.BarrierObjectsAdvance : Prop :=
  ∀ (o : BarObj) (n : Nat) (fail : Bool),
    let full := o.ab = false ∧ o.exparr ≠ 0 ∧ o.exparr ≤ o.arr ∧ o.expb ≤ o.landed
    (full → advanceObj o = { o with phase := (o.phase + 1) % 2 ^ 32, arr := 0, exparr := o.exparr - o.drops, drops := 0, expb := 0,
                                    landed := o.landed - o.expb }) ∧
    (¬ full → advanceObj o = o) ∧
    (let c : BarObj := { o with landed := min (o.landed + n) (2 ^ 48 - 1), er := o.er || fail || decide (2 ^ 48 ≤ o.landed + n) }
     chargeObj o n fail = advanceObj c ∧
     (o.exparr = 0 → chargeObj o n fail = c) ∧
     (o.ab = false → o.exparr ≠ 0 → o.exparr ≤ o.arr → o.expb ≤ o.landed + n → o.expb < 2 ^ 48 →
       chargeObj o n fail = { c with phase := (o.phase + 1) % 2 ^ 32, arr := 0, exparr := o.exparr - o.drops, drops := 0, expb := 0,
                                     landed := c.landed - o.expb })) ∧
    (∀ p, passed o.phase p ↔ ∃ k, 1 ≤ k ∧ k < 2 ^ 31 ∧ (o.phase + 2 ^ 32 - p) % 2 ^ 32 = k)

/-- R202, R203: the barrier words of a warp with no arrival waiting, on an object that lies in reach, complete: barrier-uninit and
barrier-abandoned come before all else but `bar.init` (barrier-uninit first, and before the foreign list takes the address: log entry 100),
a bad count changes nothing, `bar.init` writes a fresh object, `bar.expect` adds bytes or sets er, `bar.test` answers without blocking.
R204: an arrival or a drop whose release has nothing to wait for is counted in its own step (log entry 10: the rule says only when it may not
be counted earlier), at `.dom` and `.sys` with the fence status of R308: the object has one arrival more and the advance rule follows, the
phase goes to sv before that, the status is done or barrier-error; otherwise it waits with its warp. A drop also counts in drops and leaves
the foreign list. -/
def Obligations.BarrierAndArrivalWords : Prop :=
  (∀ (s : State) (sb sv d : SReg) (sc : Fin 8) (r : ObjRef) (u : Warp),
     s.hwarp.arrivals = [] → barAddr s s.hcore s.hwarp.blk s.inHandler (s.hwarp.s sb.val).toNat = .ok r → s.hblk.isReplay = false →
     let o := objGet s r
     let n := (s.hwarp.s sv.val).toNat
     let answers (i : Instr) (t : State) (st : Nat) := CompletesVia i s (t.updHere (·.setStatus d.val st))
     let v := s.setWarp s.hcore s.run.wslot u
     (n = 0 ∨ 2 ^ 16 ≤ n → answers (.barInit sb sv d sc) s 5) ∧
     (n ≠ 0 → n < 2 ^ 16 → answers (.barInit sb sv d sc) (objPut (abandonWaiters s r) r
       { phase := 0, exparr := n, arr := 0, expb := 0, landed := 0, drops := 0, scope := sc.val, ab := false, er := false }) 0) ∧
     (o.exparr = 0 → answers (.barArrive sb sv d) s 4 ∧ answers (.barExpect sb sv d) s 4 ∧ answers (.barWait sb sv d) s 4 ∧
       answers (.barTest sb sv d) s 4 ∧ answers (.barDrop sb d) s 4) ∧
     (o.exparr ≠ 0 → o.ab = true → answers (.barArrive sb sv d) s 1 ∧ answers (.barExpect sb sv d) s 1 ∧
       answers (.barWait sb sv d) s 1 ∧ answers (.barTest sb sv d) s 1 ∧ answers (.barDrop sb d) s 1) ∧
     (o.exparr ≠ 0 → o.ab = false → s.hwarp.enterForeign r (s.hwarp.s sb.val) = none → answers (.barArrive sb sv d) s 6 ∧
       answers (.barExpect sb sv d) s 6 ∧ answers (.barWait sb sv d) s 6 ∧ answers (.barTest sb sv d) s 6) ∧
     (o.exparr ≠ 0 → o.ab = false → s.hwarp.enterForeign r (s.hwarp.s sb.val) = some u →
       (2 ^ 48 ≤ o.expb + (v.hwarp.s sv.val).toNat → answers (.barExpect sb sv d) (objPut v r (advanceObj { o with er := true })) 2) ∧
       (o.expb + (v.hwarp.s sv.val).toNat < 2 ^ 48 →
         answers (.barExpect sb sv d) (objPut v r (advanceObj { o with expb := o.expb + (v.hwarp.s sv.val).toNat })) 0) ∧
       (passed o.phase (v.hwarp.s sv.val).toNat = false → answers (.barTest sb sv d) v 3) ∧
       (passed o.phase (v.hwarp.s sv.val).toNat = true →
         answers (.barTest sb sv d) (acquireAt v s.hcore v.hwarp.ctx o.scope) (if o.er then 2 else 0))) ∧
     (o.exparr ≠ 0 → o.ab = false → o.exparr ≤ o.drops + 1 → answers (.barDrop sb d) s 5)) ∧
  (∀ (s : State) (sb sv d : SReg) (r : ObjRef) (u : Warp),
     s.hwarp.arrivals = [] → barAddr s s.hcore s.hwarp.blk s.inHandler (s.hwarp.s sb.val).toNat = .ok r → s.hblk.isReplay = false →
     let o := objGet s r
     let ready := releaseDone s s.hcore s.run.wslot s.work.next o.scope = true
     let next (t : State) : State := { t with work := { t.work with next := t.work.next + 1 } }
     let v := next (s.setWarp s.hcore s.run.wslot u)
     let fence (t : State) : State := if 3 ≤ o.scope then t.updHere (Warp.fenceStatus s.work.next) else t
     o.exparr ≠ 0 → o.ab = false → o.arr < 65535 →
     (s.hwarp.enterForeign r (s.hwarp.s sb.val) = some u →
       (ready → CompletesVia (.barArrive sb sv d) s ((objPut (fence v) r (advanceObj { o with arr := o.arr + 1 })).updHere
         (fun w => (w.setS sv.val (BitVec.ofNat 32 o.phase)).setStatus d.val (if o.er then 2 else 0)))) ∧
       (¬ ready → CompletesVia (.barArrive sb sv d) s (v.updHere (fun w => { w with arrivals :=
         [{ obj := r, addr := u.s sb.val, drop := false, d := d.val, sv := sv.val, id := s.work.next }] })))) ∧
     (o.drops + 1 < o.exparr → ready → CompletesVia (.barDrop sb d) s
       ((objPut (fence (next s)) r (advanceObj { o with arr := o.arr + 1, drops := o.drops + 1 })).updHere
         (fun w => { w with foreign := w.foreign.erase (s.hwarp.s sb.val) }.setStatus d.val 0))))

/-- R205, R207, R208, R209, R252: `bar.wait`, `wait` and `bdrain` block their split, and complete at once when what they wait for
has happened, with the acquire of their scope. R167, R308: a `wait` that is passed raises a deferred error that a counter it names holds, or
the count of those lost, and at `.dom` or `.sys` a fence-error where the warp traps on it. R252: `bdrain` first sends the deltas that its L1
holds for the context, and stays blocked while they or an add are under way. That it writes a fence status at `.dom` and `.sys` and never
traps is the choice of log entry 75. -/
def Obligations.WaitsBlockOrComplete : Prop :=
  ∀ (s : State) (sb sv d : SReg) (r : ObjRef) (u : Warp) (ld st : Fin 32) (cp tl rm sc : Fin 8),
    let go (t : State) (st : Nat) := finishStatus t s.hcore s.run.wslot s.run.split d.val st
    let on (t : State) := unblock t s.hcore s.run.wslot s.run.split 1
    let v := s.setWarp s.hcore s.run.wslot u
    let o := objGet s r
    (s.hwarp.arrivals = [] → barAddr s s.hcore s.hwarp.blk s.inHandler (s.hwarp.s sb.val).toNat = .ok r → s.hblk.isReplay = false →
      o.exparr ≠ 0 → o.ab = false → s.hwarp.enterForeign r (s.hwarp.s sb.val) = some u →
      let p := v.hwarp.s sv.val
      let b := v.block (.bar r p d.val)
      (passed o.phase p.toNat = false → exec (.barWait sb sv d) s = .next b) ∧
      (passed o.phase p.toNat = true → exec (.barWait sb sv d) s = .next (go (acquireAt b s.hcore v.hwarp.ctx o.scope) (if o.er then 2 else 0)))) ∧
    (let b := s.block (.counters ld.val st.val cp.val tl.val rm.val sc.val)
     let met := s.hwarp.countersMet ld.val st.val cp.val tl.val rm.val = true ∧ waitReleased s s.hcore s.run.wslot sc.val = true
     (¬ met → exec (.wait ld st cp tl rm sc) s = .next b) ∧
     (met → s.hwarp.errs = [] → s.hwarp.errCount = 0 →
      (sc ≠ 3 → sc ≠ 4 → exec (.wait ld st cp tl rm sc) s = .next (on (acquireAt b s.hcore s.hwarp.ctx sc.val))) ∧
      (sc = 3 ∨ sc = 4 → s.hwarp.failed = [] ∨ s.hwarp.status.getLsbD 0 = false → exec (.wait ld st cp tl rm sc) s =
        .next (on ((acquireAt b s.hcore s.hwarp.ctx sc.val).updWarp s.hcore s.run.wslot (Warp.fenceStatus s.work.next)))))) ∧
    (let b := s.block (.counters ld.val st.val cp.val tl.val rm.val sc.val)
     let at' (t : State) (f : FaultInfo) := faultBlocked t s.hcore s.run.wslot s.run.split f
     let here (g : Warp → Warp) := b.updWarp s.hcore s.run.wslot g
     let named (e : DeferredErr) : Bool := (e.ctr == 0 && ld != 31) || (e.ctr == 1 && st != 31) || (e.ctr == 3 && tl != 7)
     s.hwarp.countersMet ld.val st.val cp.val tl.val rm.val = true → waitReleased s s.hcore s.run.wslot sc.val = true →
     (∀ e, s.hwarp.errs.find? named = some e → exec (.wait ld st cp tl rm sc) s =
       .next (at' (here (fun w => { w with errs := w.errs.erase e })) { cls := 7, lanes := e.lanes, sva := e.sva, space := 1, detail := 0x80 })) ∧
     (s.hwarp.errs = [] → s.hwarp.errCount ≠ 0 → ld ≠ 31 ∨ st ≠ 31 ∨ tl ≠ 7 → exec (.wait ld st cp tl rm sc) s =
       .next (at' (here (fun w => { w with errCount := 0 })) { cls := 7, detail := 0x81, aux := s.hwarp.errCount })) ∧
     (s.hwarp.errs = [] → s.hwarp.errCount = 0 → sc = 3 ∨ sc = 4 → s.hwarp.status.getLsbD 0 = true → ∀ p r,
       s.hwarp.failedBefore s.work.next = p :: r → exec (.wait ld st cp tl rm sc) s =
         .next (at' ((acquireAt b s.hcore s.hwarp.ctx sc.val).updWarp s.hcore s.run.wslot (Warp.fenceStatus s.work.next))
           { cls := 0x0E, lanes := s.hsplit.mask, detail := min (r.length + 1) (2 ^ 32 - 1), aux := p }))) ∧
    (let b := s.block (.bdrain sc.val)
     let due := (s.core s.hcore).held.filter (fun p => lineCtx p.1 == s.hwarp.ctx && (p.2.d != [] || p.2.t != 0))
     let under := s.mem.mail.any (fun p => p.2.core == s.hcore && (match p.2.msg with
       | .add _ _ => true
       | .drain _ _ _ => lineCtx p.2.line == s.hwarp.ctx
       | _ => false))
     (due ≠ [] → (∀ p ∈ due, bvalueDue s s.hcore p.1 = false) →
       exec (.bdrain sc) s = .next (due.foldl (fun t p => sendDrain t s.hcore p.1 false false) b)) ∧
     (due = [] → under = true ∨ waitReleased s s.hcore s.run.wslot sc.val = false → exec (.bdrain sc) s = .next b) ∧
     (due = [] → under = false → waitReleased s s.hcore s.run.wslot sc.val = true → exec (.bdrain sc) s =
      .next (on (if sc = 3 ∨ sc = 4 then b.updWarp s.hcore s.run.wslot (Warp.fenceStatus s.work.next) else b))))

/-! ### Remote and matrix words (15_remote.md, 19_matrix.md) -/

/-- R285, R286, R288: the remote loads and `ratom` complete when their counter has room, their registers are in range and their
barrier word, their addresses and their peers pass their checks: the word is entered and its first replay issues. R286, R291:
the posted remote words complete likewise, name no barrier, and fold an audited block's bytes; in an audit replay (R226) they
send nothing and report a status of 0. -/
def Obligations.RemoteWordsIssue : Prop :=
  (∀ (s : State) (d : VReg) (sb : SReg) (vp : VReg) (sc : Fin 8) (x : Option Word) (bar : Option ObjRef),
     let lit := x.getD 0
     let issues (i : Instr) (op : Nat) (disp : Int) (ord : Nat) : Prop :=
       let w := itemSize op lit
       let data := itemData op lit
       let acc := (lanesOf s.em).map (fun l => Acc.mk l (((s.sbase sb : Int) + ((s.hwarp.v (vp.val + 1) l).toInt + disp)) % 2 ^ 64).toNat)
       s.hwarp.rm < 6 → s.inRange (vp.val :: (vp.val + 1) :: groupRegs d.val (max w data)) →
       engBar s s.hcore s.hwarp.blk s.em (s.hwarp.s (sb.val + 2)) = .ok bar →
       remoteVerdict s acc w (remotePerm op) (vp.val :: (vp.val + 1) :: (if data = 0 then [] else groupRegs d.val data)) = .ok →
       peerFault s op lit vp.val s.em = none →
       CompletesVia i s ((fillEcbs s s.hcore s.hwarp.ctx acc).remoteBegun
         { core := s.hcore, wslot := s.run.wslot, live := true, ctx := s.hwarp.ctx, op := op, vd := d.val, w := w, sc := sc.val, ord := ord,
           lit := lit, lanes := acc.map (fun a => (a.lane, a.va, if data = 0 then 0 else s.hwarp.group d.val data a.lane)), bar := bar,
           baddr := s.hwarp.s (sb.val + 2), base := s.sbase sb, todo := peersOf s.hwarp vp.val s.em, out := 0, worst := none,
           head := s.word })
     issues (.rldB32 d sb vp sc x) 0 lit.toInt 0 ∧
     issues (.rldB64 d sb vp sc x) 1 lit.toInt 0 ∧
     issues (.rldB128 d sb vp sc x) 2 lit.toInt 0 ∧
     issues (.ratom d sb vp sc x) 5 (lit.extractLsb' 0 8).toInt (lit.toNat / 2 ^ 30)) ∧
  (∀ (s : State) (d : VReg) (sb : SReg) (vp : VReg) (sc : Fin 8) (x : Option Word),
     let lit := x.getD 0
     let issues (i : Instr) (op : Nat) (disp : Int) (ord : Nat) : Prop :=
       let w := itemSize op lit
       let acc := (lanesOf s.em).map (fun l => Acc.mk l (((s.sbase sb : Int) + ((s.hwarp.v (vp.val + 1) l).toInt + disp)) % 2 ^ 64).toNat)
       let lanes := acc.map (fun a => (a.lane, a.va, s.hwarp.group d.val w a.lane))
       let v := foldPeers (fillEcbs s s.hcore s.hwarp.ctx acc) vp.val w lanes
       s.hwarp.rm < 6 → s.inRange (vp.val :: (vp.val + 1) :: groupRegs d.val w) →
       remoteVerdict s acc w permW (vp.val :: (vp.val + 1) :: groupRegs d.val w) = .ok →
       peerFault s op lit vp.val s.em = none →
       (s.hblk.isReplay = true → CompletesVia i s (v.updHere (fun w => { w with status := w.status &&& 0x00FFFFFF }))) ∧
       (s.hblk.isReplay = false → CompletesVia i s (v.remoteBegun
         { core := s.hcore, wslot := s.run.wslot, live := true, ctx := s.hwarp.ctx, op := op, vd := d.val, w := w, sc := sc.val, ord := ord,
           lit := lit, lanes := lanes, bar := none, baddr := s.hwarp.s (sb.val + 2), base := s.sbase sb,
           todo := peersOf s.hwarp vp.val s.em, out := 0, worst := none, head := s.word }))
     issues (.rstB32 d sb vp sc x) 3 lit.toInt 0 ∧
     issues (.rstB64 d sb vp sc x) 4 lit.toInt 0 ∧
     issues (.rred d sb vp sc x) 6 (lit.extractLsb' 0 8).toInt (lit.toNat / 2 ^ 30) ∧
     issues (.rmcast d sb vp sc x) 7 lit.toInt 0)

/-- R337, R344, R346: each `mma` completes when its queue has room, its operands are legal, an image of its weights stands in the
buffer (of the whole columns, or half in each of a pair), a partner is free where it names one, and its addresses pass their checks: it joins the queue and tl rises. R338 to
R341, R347 to R349: the weight loads and the tile words complete when their queue has room, their operands are legal and their
addresses pass their checks: each joins the queue and tl rises. -/
def Obligations.MatrixWordsEnterTheQueue : Prop :=
  (∀ (s : State) (t : Fin 4) (sa sw sk : SReg) (img : Image) (p : Nat × Image),
     let args := [s.hwarp.s sa.val, s.hwarp.s (sa.val + 1), s.hwarp.s (sa.val + 2), s.hwarp.s (sa.val + 3), s.hwarp.s sw.val, s.hwarp.s sk.val]
     let enters (i : Bool → Instr) (fmt : Nat) : Prop :=
       let o := parseMma fmt args
       mmaVerdict s o = .ok →
       (matHeld s s.hcore none s.hwarp = false → mmaImage (s.core s.hcore) o o.n = some img → mmaOk o false (s.hwarp.s sk.val) = true →
         CompletesVia (i false) s (s.entered { s.newMop (0xC0 + fmt) t.val 0 args with img := some img })) ∧
       (matHeld s s.hcore (some p.1) s.hwarp = false → mmaOk o true (s.hwarp.s sk.val) = true →
         mmaImage (s.core s.hcore) o (o.n / 2) = some img → pairCheck s o t.val = .ok p →
         CompletesVia (i true) s (s.entered { s.newMop (0xC0 + fmt) t.val 0 args with
           img := some img, partner := some p.1, pimg := some p.2 }))
     enters (.mmaE4m3 t sa sw sk) 0 ∧ enters (.mmaE5m2 t sa sw sk) 1 ∧ enters (.mmaBf16 t sa sw sk) 2 ∧
     enters (.mmaF16 t sa sw sk) 3 ∧ enters (.mmaLog6 t sa sw sk) 4) ∧
  (∀ (s : State) (t u : Fin 4) (sa sw sk : SReg) (src : Eng), matHeld s s.hcore none s.hwarp = false →
     let wbld (i : Instr) (form : Nat) : Prop :=
       let image := wbldImage form (s.hwarp.s sw.val) (s.hwarp.s sk.val)
       parseEng (s.hwarp.pair sa.val).toNat = some src → wbldOk (some src) image (s.hwarp.s sk.val) = true →
       wbldVerdict s src image (s.hwarp.s (sk.val + 1)).toNat (s.hwarp.pair (sk.val + 2)).toNat = .ok →
       let args := [s.hwarp.s sa.val, s.hwarp.s (sa.val + 1), s.hwarp.s (sk.val + 1), s.hwarp.s (sk.val + 2), s.hwarp.s (sk.val + 3)]
       let loaded := { image with from' := match src with
         | .glob _ => some args
         | _ => none }
       CompletesVia i s ((s.updCore s.hcore (fun c => enterImage c loaded)).entered
         { s.newMop (0xC5 + form) 0 0 args with img := some loaded })
     let off := (s.hwarp.s sa.val).toNat
     let stride := (s.hwarp.s (sk.val + 1)).toNat
     let c := (s.hwarp.s sk.val).toNat
     let rows := c / 2 ^ 13 % 64 + 1
     let fmt := c % 8
     let rowsOk := off < 2 ^ 18 ∧ stride < 2 ^ 18 ∧ c / 2 ^ 19 = 0 ∧ c / 2 ^ 7 % 64 + rows ≤ 64
     let moved (code : Nat) := s.entered (s.newMop code t.val 0 [s.hwarp.s sa.val, s.hwarp.s sk.val, s.hwarp.s (sk.val + 1), s.hwarp.s 63])
     wbld (.wbldDense sa sw sk) 0 ∧ wbld (.wbldSp24 sa sw sk) 1 ∧ wbld (.wbldCb4 sa sw sk) 2 ∧
     CompletesVia (.tzero t) s (s.entered (s.newMop 0xC8 t.val 0 [])) ∧
     CompletesVia (.tadd t u) s (s.entered (s.newMop 0xCB t.val u.val [])) ∧
     (let row := s.hwarp.s sa.val
      row.toNat % 2 = 0 → row.toNat < 2 ^ 13 → s.inRange [row.toNat % 128, row.toNat % 128 + 1] →
       CompletesVia (.tmov t sa) s (s.entered (s.newMop 0xC9 t.val 0 [row]))) ∧
     (rowsOk → c / 2 ^ 3 % 8 ≤ 4 → fmt ≤ 5 → (fmt = 0 → c / 2 ^ 3 % 16 = 0) → rowsAlign off stride (tstBytes fmt) = none →
       rowsLimit s off stride rows (64 * tstBytes fmt) = none → CompletesVia (.tst t sa sk) s (moved 0xCA)) ∧
     (rowsOk → c % 2 ^ 7 = 0 → rowsAlign off stride 4 = none → rowsLimit s off stride rows 256 = none →
       CompletesVia (.tld t sa sk) s (moved 0xCC)))

/-! ### Engine words (13_engines.md) -/

/-- R255, R257, R261 to R266, R188: `cp.start`, `cp.rect`, `cp.fill`, `cp.bcast` and `cp.tier` complete when their core has room, their
command is legal, their barrier word passes and the interval locks fit: the operation is entered under its token (R258), its source and
destination locked, and cp rises. The range that a rectangle locks whose addresses wrap is the choice of log entry 73. -/
def Obligations.CopyWordsStart : Prop :=
  ∀ (s : State) (cb tk : SReg) (bar : Option ObjRef) (c : Copy), copyHeld s s.hcore s.hwarp = false →
    let starts (i : Instr) (code n : Nat) : Prop :=
      let cmd := s.command cb n
      let id := s.work.next
      let next := { s with work := { s.work with next := id + 1 } }
      let ls := copyLocks next s.hcore s.hwarp.blk s.hwarp.ctx id code c
      let o := newOp s.hcore s.run.wslot s.hwarp.blk s.hwarp.ctx code cmd tk.val bar c.len 0
      let bad := code = 0xD9 ∧ bcastBad next s.hwarp.blk c = true
      parseCopy code cmd = some c → engBar s s.hcore s.hwarp.blk s.em c.bar = .ok bar →
      (s.core s.hcore).ilt.length + ls.length ≤ Config.coreIlt →
      CompletesVia i s (enterOp (next.updCore s.hcore (fun k => { k with ilt := k.ilt ++ ls })) id
        (if bad then { o with fail := some (0, 1), ended := true } else o))
    starts (.cpStart cb tk) 0xD0 6 ∧ starts (.cpRect cb tk) 0xD1 13 ∧ starts (.cpFill cb tk) 0xD2 5 ∧ starts (.cpBcast cb tk) 0xD9 6 ∧
    (let cmd := s.command cb 4
     s.hblk.isReplay = false → tierOk cmd = true → engBar s s.hcore s.hwarp.blk s.em (cmd.getD 3 0) = .ok bar →
      CompletesVia (.cpTier cb tk) s (startTier s s.hcore s.run.wslot s.hwarp.blk s.hwarp.ctx cmd tk.val bar 0))

/-- R272: an exchange starts when its warp has room, its command is legal, its barrier word passes and its cluster has room; R276: a cancel
of a part marks it and answers 0, one without a part answers 1; R277: a query answers a count of the youngest part of its token and scc 1,
or 0 and scc 0. R267: `tok.test` completes in every state and never waits: scc 1 and the token once no operation of the token is left, else
scc 0 and the bytes that the youngest has done; R268: `cp.cancel` marks the youngest and answers 0, or answers 1; that it answers 0 for a
`cp.tier`, which goes on, is the choice of log entry 80. -/
def Obligations.ExchangeAndTokenWords : Prop :=
  (∀ (s u : State) (cb tk d : SReg) (sel : Fin 4) (bar : Option ObjRef) (i : Nat) (x : XPart),
     (let c := s.command cb 10
      s.hblk.isReplay = false → s.hwarp.cp < 6 → xgOk c = true → engBar s s.hcore s.hwarp.blk s.em (c.getD 5 0) = .ok bar →
       xgCorrupt s s.hwarp.ctx c = false → startExchange s s.hcore s.run.wslot s.hwarp.blk s.hwarp.ctx c tk.val bar 0 = some u → CompletesVia (.xgStart cb tk) s u) ∧
     (s.hblk.isReplay = false → youngestPart s s.hcore s.run.wslot tk.val = none →
       Completes (.xgCancel cb tk d) s (·.setStatus d.val 1)) ∧
     (s.hblk.isReplay = false → youngestPart s s.hcore s.run.wslot tk.val = some i → s.part i = some x → x.stage = 0 → x.cancel = none →
       CompletesVia (.xgCancel cb tk d) s ((sendEnds (s.setPart i { x with cancel := some (s.hwarp.pair cb.val).toNat }) i).updHere
         (·.setStatus d.val 0))) ∧
     (youngestPart s s.hcore s.run.wslot tk.val = none → Completes (.xgQuery tk d sel) s (fun w => (w.setS d.val 0).setScc false)) ∧
     (youngestPart s s.hcore s.run.wslot tk.val = some i → s.part i = some x →
       Completes (.xgQuery tk d sel) s (fun w => (w.setS d.val (BitVec.ofNat 32
         ([x.runs, (x.stat.filter (fun p => decide (p.2 = 1))).length, x.written, x.ends.length].getD sel.val 0))).setScc true))) ∧
  (∀ (s : State) (tk d : SReg) (i : Nat) (o : Op),
     let op := youngestOp s s.hcore s.run.wslot tk.val
     let part := youngestPart s s.hcore s.run.wslot tk.val
     (op = none → part = none → Completes (.tokTest tk d) s (fun w => (w.setS d.val (s.hwarp.s tk.val)).setScc true)) ∧
     (op = none → part.isSome → Completes (.tokTest tk d) s (fun w => (w.setS d.val 0).setScc false)) ∧
     (op = some i → s.op i = some o → o.code ≠ 0xD3 → (∀ j, part = some j → j ≤ i) →
       Completes (.tokTest tk d) s (fun w => (w.setS d.val (BitVec.ofNat 32 (min o.done 0x1FFFFFF))).setScc false)) ∧
     (op = none → Completes (.cpCancel tk d) s (·.setStatus d.val 1)) ∧
     (op = some i → s.op i = some o →
       (o.code ≠ 0xD3 → o.stage = 0 → CompletesVia (.cpCancel tk d) s ((s.setOp i { o with cancel := true }).updHere (·.setStatus d.val 0))) ∧
       (o.code = 0xD3 ∨ o.stage ≠ 0 → Completes (.cpCancel tk d) s (·.setStatus d.val 0))))

/-! ### System words (11_traps.md) -/

/-- R213, R215, R216, R228: `trap` raises class 0x10, and `brkpt` class 0x0F while the status bit be is 1, with the immediate as
detail, the split's mask as lanes and the place of the word; otherwise `brkpt` completes with no effect. -/
def Obligations.TrapWords : Prop :=
  ∀ (s : State) (imm : Fin 1024),
    exec (.trap imm) s = .next (s.raise { cls := 0x10, lanes := s.hsplit.mask, detail := imm.val }) ∧
    (s.hwarp.status.getLsbD 1 = true →
      exec (.brkpt imm) s = .next (s.raise { cls := 0x0F, lanes := s.hsplit.mask, detail := imm.val })) ∧
    (s.hwarp.status.getLsbD 1 = false → Completes (.brkpt imm) s id)

/-- R229: the status word and the counters are read by any warp; `wrsr` writes the two trap-enable bits of the status word and no
other; a selector beyond a warp's own raises illegal-instruction outside the handler context, and one that the table does not
name, or that is not writable, everywhere. -/
def Obligations.StatusRegisters : Prop :=
  ∀ (s : State) (d : SReg) (sel : Fin 256),
    Completes (.rdsr d 0) s (·.setS d.val s.hwarp.status) ∧
    Completes (.rdsr d 1) s (·.setS d.val (BitVec.zeroExtend 32 (BitVec.ofNat 3 s.hwarp.rm ++ BitVec.ofNat 3 s.hwarp.tl ++
      BitVec.ofNat 3 s.hwarp.cp ++ BitVec.ofNat 5 s.hwarp.st ++ BitVec.ofNat 5 s.hwarp.ld))) ∧
    (∃ x : Word, Completes (.wrsr d 0) s (fun w => { w with status := x }) ∧
      ∀ j, j < 32 → x.getLsbD j = if j < 2 then (s.hwarp.s d.val).getLsbD j else s.hwarp.status.getLsbD j) ∧
    (s.inHandler = false → 2 ≤ sel.val → exec (.rdsr d sel) s = .next s.illegal) ∧
    (s.inHandler = false → 1 ≤ sel.val → exec (.wrsr d sel) s = .next s.illegal) ∧
    (sel.val ∉ [0x00, 0x01, 0x10, 0x11, 0x12] → exec (.rdsr d sel) s = .next s.illegal) ∧
    (sel.val ∉ [0x00, 0x10] → exec (.wrsr d sel) s = .next s.illegal)

/-- R228: the privileged words raise illegal-instruction, with the word as detail, outside the handler context. R217, R218, R229,
R230: in the handler context of a frame the privileged words complete: `frd` reads the target's state and sets scc, `pclr`
clears poison bits of the target, the selectors 0x10 to 0x12 reach the target's status, its counters and the number of frames
not yet answered, `fret` and `fkill` end the handler's run and answer the frame. R215: the four words that begin the frame of a fault that a warp of slot below 32 takes: its
class and pc, the sector VA, the lanes with the extent, the index, the space, the imprecise bit and the split, and the place of
the warp. -/
def Obligations.PrivilegedWords : Prop :=
  (∀ (s : State) (d : SReg) (mode : Fin 2) (unit : Fin 3) (item : Fin 8) (lane : Fin 32) (idx : Fin 1024) (r : Fin 128),
     s.inHandler = false →
     let ill := s.raise { cls := 2, lanes := s.hsplit.mask, detail := s.word.toNat }
     exec (.fret mode) s = .next ill ∧ exec (.fkill unit) s = .next ill ∧ exec (.frd d item lane idx) s = .next ill ∧
     exec (.pclr d r) s = .next ill) ∧
  (∀ (s : State) (d : SReg) (lane : Fin 32) (idx : Fin 1024) (r : Fin 128) (i : Nat) (f : Frame),
     s.inHandler = true → s.handled s.hcore = some (i, f) →
     let w := targetWarp s f
     let ended := endHandler s s.hcore
     let reads (item : Fin 8) (x : Word) (ok : Bool) := Completes (.frd d item lane idx) s (fun h => (h.setS d.val x).setScc ok)
     exec (.fret 0) s = .next (answerFrame ended i .resume) ∧ exec (.fret 1) s = .next (answerFrame ended i .skip) ∧
     exec (.fkill 0) s = .next (answerFrame ended i .killWarp) ∧ exec (.fkill 1) s = .next (answerFrame ended i .killBlock) ∧
     exec (.fkill 2) s = .next (answerFrame ended i .killRegion) ∧
     reads 3 (w.s (idx.val % 64)) true ∧ reads 4 (w.m (idx.val % 8)) true ∧ reads 5 (BitVec.ofNat 32 w.alloc) true ∧
     (idx.val < w.regs → reads 6 (w.v idx.val lane.val) true ∧ reads 7 (w.poisoned idx.val) true) ∧
     (w.regs ≤ idx.val → reads 6 0 false ∧ reads 7 0 false) ∧
     Completes (.rdsr d 0x10) s (·.setS d.val w.status) ∧
     Completes (.rdsr d 0x11) s (·.setS d.val (BitVec.zeroExtend 32 (BitVec.ofNat 3 w.rm ++ BitVec.ofNat 3 w.tl ++ BitVec.ofNat 3 w.cp ++
       BitVec.ofNat 5 w.st ++ BitVec.ofNat 5 w.ld))) ∧
     Completes (.rdsr d 0x12) s (·.setS d.val (BitVec.ofNat 32
       (s.work.frames.filter (fun p => !p.2.answered && (p.2.core == s.hcore || p.1 == i))).length)) ∧
     CompletesVia (.wrsr d 0x10) s (updTarget s f (fun w => { w with status := s.hwarp.s d.val &&& 0xFFFF0003 })) ∧
     (r.val < w.regs →
       let p := w.poisoned r.val &&& ~~~s.hwarp.s d.val
       CompletesVia (.pclr d r) s ((updTarget s f (fun w => { w with poison := mset 0 w.poison r.val p })).updHere (·.setScc true))) ∧
     (w.regs ≤ r.val → Completes (.pclr d r) s (·.setScc false))) ∧
  (∀ (s : State) (t : FaultSite) (f : FaultInfo) (cont : Nat),
     f.cls < 256 → t.pc < 2 ^ 56 → f.sva < 2 ^ 64 → f.space < 16 → t.cidx < 16 → cont < 4 → t.split < 8 → f.xid = none →
     t.imp = false → t.ctx < 2 ^ 16 → t.core < 768 → t.wslot < 32 → t.warp < 32 → (s.blk t.blk).bslot < 8 → f.detail < 2 ^ 32 →
     f.aux < 2 ^ 64 → (s.blk t.blk).no < 2 ^ 32 → s.plat.time < 2 ^ 64 →
     let q (i : Nat) := leNat ((frameBytes s t f cont).drop (8 * i) |>.take 8)
     (frameBytes s t f cont).length = 64 ∧
     q 0 = f.cls * 2 ^ 56 + t.pc ∧
     q 1 = f.sva ∧
     q 2 = f.lanes.toNat * 2 ^ 32 + t.cidx * 2 ^ 12 + f.space * 2 ^ 8 + cont * 2 ^ 4 + t.split * 2 ∧
     q 3 = t.ctx * 2 ^ 48 + (t.core % 16) * 2 ^ 44 + (t.core % 192 / 16) * 2 ^ 40 + (t.core / 192) * 2 ^ 38 + t.wslot * 2 ^ 33 +
       t.warp * 2 ^ 28 + (s.blk t.blk).bslot * 2 ^ 25 ∧
     q 4 = f.detail * 2 ^ 32 + (s.blk t.blk).no ∧
     q 5 = s.plat.time ∧ q 6 = f.aux)

/-- R217, R228, R230: in the handler context of a core that handles a frame, the handler's four words complete in every state:
`fret` ends the handler's run and answers the frame with a resume at the word or past it, `fkill` with the end of the warp, the
block or the region; `frd` reads a word of a split entry, a token entry or the control word, a scalar, a mask, the allocation, a
vector lane or a register's poison, and gives 0 with scc 0 for a register beyond the allocation; `pclr` clears the poison bits
that its scalar names in a register of the target. -/
def Obligations.HandlerWordsComplete : Prop :=
  ∀ (s : State) (i : Nat) (f : Frame) (d : SReg), s.inHandler = true → s.handled s.hcore = some (i, f) →
    let w := targetWarp s f
    let ends (x : Instr) (a : Answer) : Prop := ∃ t, exec x s = .next t ∧ t = answerFrame (endHandler s s.hcore) i a
    let word (b : List Byte) (k : Nat) : Word := BitVec.ofNat 32 (leNat ((b.drop (4 * k)).take 4))
    (∀ mode : Fin 2, ends (.fret mode) (if mode = 0 then .resume else .skip)) ∧
    (∀ unit : Fin 3, ends (.fkill unit) (if unit = 0 then .killWarp else if unit = 1 then .killBlock else .killRegion)) ∧
    (∀ (item : Fin 8) (lane : Fin 32) (idx : Fin 1024),
      let inside := decide (idx.val < w.regs)
      let x : Word := match item.val with
        | 0 => word (splitBytes (w.split (idx.val % 8))) (idx.val / 8 % 4)
        | 1 => word (tokBytes (w.tok (idx.val % 16))) (idx.val / 16 % 4)
        | 2 => word (leBytes 8 w.control) (idx.val % 2)
        | 3 => w.s (idx.val % 64)
        | 4 => w.m (idx.val % 8)
        | 5 => BitVec.ofNat 32 w.alloc
        | 6 => if inside then w.v idx.val lane.val else 0
        | _ => if inside then w.poisoned idx.val else 0
      Completes (.frd d item lane idx) s (fun h => (h.setS d.val x).setScc (decide (item.val < 6) || inside))) ∧
    (∀ r : Fin 128, CompletesVia (.pclr d r) s ((if r.val < w.regs then updTarget s f (fun w =>
        { w with poison := mset 0 w.poison r.val (w.poisoned r.val &&& ~~~s.hwarp.s d.val) }) else s).updHere
      (·.setScc (decide (r.val < w.regs)))))

/-! ### Work words (21_work.md) -/

/-- R379, R380, R385: `wfetch`, `wdone` and `wlaunch` complete with a status in a block that is no audit replay, when their
addresses are aligned, in reach and permitted: a fetch is entered for the work unit, a done block is counted, a launch record
joins the region's device queue; a TCB outside the region answers 2, a block that was not taken 4, a full queue 3. The words read the TCB or
the record in their own step (log entry 96): such a read changes no byte, no register and nothing outside memory; it recalls an owner, wakes
a channel and notes an error that it meets. -/
def Obligations.WorkWords : Prop :=
  ∀ (s : State) (sg st : SReg) (r : ObjRef) (i : Nat) (t : Task),
    let va := (s.hwarp.pair sg.val).toNat
    let x := s.hwarp.s (sg.val + 2)
    let off := (s.hwarp.s (sg.val + 3)).toNat
    let reach (n need : Nat) := tcbCheck s va n need = .ok ()
    let answers (i : Instr) (u : State) (code : Nat) := CompletesVia i s (u.updHere (·.setStatus st.val code))
    let reads (n : Nat) := devUses s [⟨s.hwarp.ctx, va, n, false⟩]
    let u := reads 128
    let permitted := tcbPermitted u (tcbAt u s.hwarp.ctx va)
    (∀ n, let v := reads n
      v.mem.bytes = s.mem.bytes ∧ v.mem.l2 = s.mem.l2 ∧ v.mem.reqs = s.mem.reqs ∧ v.warps = s.warps ∧ v.cores = s.cores ∧ v.work = s.work ∧
      v.fab = s.fab ∧ v.plat = s.plat ∧ v.free = s.free ∧ v.focus = s.focus) ∧
    (s.hblk.isReplay = false →
    (barAddr s s.hcore s.hwarp.blk s.inHandler x.toNat = .ok r → off % 16 = 0 → off + 16 ≤ s.hblk.spadLen → reach 128 (permR ||| permW) →
      (permitted = false → answers (.wfetch sg st) u.progress 2) ∧
      (permitted = true → answers (.wfetch sg st) { u.progress with work := { u.progress.work with
        next := s.work.next + 1
        fetches := mput s.work.fetches s.work.next { blk := s.hwarp.blk, ctx := s.hwarp.ctx, tcb := va, bar := r, off := off } } } 0)) ∧
    (reach 128 (permR ||| permW) →
      (permitted = false → answers (.wdone sg st) u 2) ∧
      (permitted = true → armedTask s s.hwarp.ctx va = none → answers (.wdone sg st) u 4) ∧
      (permitted = true → armedTask s s.hwarp.ctx va = some (i, t) → s.hblk.took.contains (i, x.toNat, false) = false →
        answers (.wdone sg st) u 4) ∧
      (permitted = true → armedTask s s.hwarp.ctx va = some (i, t) → s.hblk.took.contains (i, x.toNat, false) = true →
        s.hwarp.dones = [] → s.task i = some t → releaseDone s s.hcore s.run.wslot s.work.next 4 = true →
        let next := { u with work := { s.work with next := s.work.next + 1 } }
        answers (.wdone sg st) (tcbCount ((next.updHere (Warp.fenceStatus s.work.next)).updBlk s.hwarp.blk (fun b => { b with
          took := b.took.map (fun y => if y == (i, x.toNat, false) then (i, x.toNat, true) else y) })) t 0x4C 1) 0)) ∧
    (va % 64 = 0 → reach 64 permR →
      let q := mget s.work.devq [] s.hblk.region
      (256 ≤ q.length → answers (.wlaunch sg st) s 3) ∧
      let q' := mput s.work.devq s.hblk.region (q ++ [(s.hwarp.ctx, (devRead s s.hwarp.ctx va 64).getD (copies 64 0))])
      (q.length < 256 → answers (.wlaunch sg st) { reads 64 with work := { s.work with devq := q' } } 0)))

/-- R381, R384: `hbeat` completes in every state and counts as progress; `wcond` writes a condition word of its task's graph and
sets scc, or clears scc where the task belongs to none. -/
def Obligations.HeartbeatAndConditions : Prop :=
  ∀ (s : State) (d : SReg) (idx : Fin 16) (t : Task) (g : Graph),
    CompletesVia .hbeat s s.progress ∧
    (s.hblk.isReplay = false → s.task s.hblk.task = none → Completes (.wcond d idx) s (·.setScc false)) ∧
    (s.hblk.isReplay = false → s.task s.hblk.task = some t →
      (t.graph = 0 ∨ mfind s.work.graphs (t.graph - 1) = none → Completes (.wcond d idx) s (·.setScc false)) ∧
      (t.graph ≠ 0 → mfind s.work.graphs (t.graph - 1) = some g → CompletesVia (.wcond d idx) s ({ s with work := { s.work with
        graphs := mput s.work.graphs (t.graph - 1) { g with cond := mset 0 g.cond idx.val (s.hwarp.s d.val) } } }.updHere (·.setScc true))))

/-- R377, R382, R383, R386, R389: a claim, a release and a yield block their split and are then served: a claim that can never fit
faults with pool-deadlock, one above 16 blocks and a release of all a warp holds are illegal; a release whose counters are 0
frees the top registers and answers with the pool count; a yield in the handler context answers 0 at once. -/
def Obligations.RegisterPoolWords : Prop :=
  ∀ (s : State) (d : SReg) (n : Fin 16),
    (16 < s.hwarp.alloc + n.val → exec (.rgclaim d n) s = .next s.illegal) ∧
    (s.hwarp.alloc + n.val ≤ 16 → s.hblk.rblk * s.hblk.warps < s.hwarp.alloc + n.val + ((blockWarps s s.hwarp.blk).length - 1) →
      exec (.rgclaim d n) s = .next (s.raise (poolFault s s.hwarp.blk n.val 1 s.em))) ∧
    (s.hwarp.alloc + n.val ≤ 16 → s.hwarp.alloc + n.val + ((blockWarps s s.hwarp.blk).length - 1) ≤ s.hblk.rblk * s.hblk.warps →
      exec (.rgclaim d n) s = .next (serveClaims (s.block (.claim n.val d.val)) s.hwarp.blk)) ∧
    (s.hwarp.alloc ≤ n.val → exec (.rgrel d n) s = .next s.illegal) ∧
    (n.val < s.hwarp.alloc → (s.hwarp.ld ≠ 0 ∨ s.hwarp.tl ≠ 0 ∨ s.hwarp.rm ≠ 0) →
      exec (.rgrel d n) s = .next (s.block (.release n.val d.val))) ∧
    (n.val < s.hwarp.alloc → s.hwarp.ld = 0 → s.hwarp.tl = 0 → s.hwarp.rm = 0 →
      let b := (s.block (.release n.val d.val)).updWarp s.hcore s.run.wslot (fun w => w.resize (w.alloc - n.val))
      let c := b.updWarp s.hcore s.run.wslot (fun w => w.setS d.val (BitVec.ofNat 32 (poolCount b s.hcore)))
      exec (.rgrel d n) s = .next (unblock c s.hcore s.run.wslot s.run.split 1)) ∧
    (s.inHandler = true → Completes (.wyield d) s (·.setS d.val 0)) ∧
    (s.inHandler = false → exec (.wyield d) s = .next (serveYield (s.block (.yield d.val)) s.hwarp.blk))

/-! ### Steps the machine takes by itself -/

/-- R24, R28, R108, R112, R212, R213, R218: a free slot whose first candidate can be fetched is granted its clause, and the granted warp's
wait restarts; a header whose fields are not legal, or whose clause holds more instructions on a counter than its capacity, raises
illegal-clause with the header as detail, before any word issues; a warp whose splits all wait for an entry raises rejoin-deadlock; 1,024 cycles of waiting raise a rank by 1 up to 31; a storage error private to a block stops its core and kills the
block; a frame without room for 10 ms tells the host; a handler context starts at its domain's entry with the frame's address. -/
def Obligations.IssueAndTrapEvents : Prop :=
  ∀ (s : State) (core slot ws i b : Nat) (rest : List (Nat × Nat)) (h : Word) (words : List Word) (f : Frame) (tile addr : Nat),
    (s.plat.devErr = false → slot < 2 → (s.core core).slot slot = none → remoteHolds s core slot = none →
      deadlocked s core slot = none → candidates s core slot = (ws, i) :: rest →
      fetchClause s core ws ((s.warp core ws).split i).pc = .ok h words → (s.warp core ws).errs = [] → (s.warp core ws).errCount = 0 → partnerOf s core ws i h words rest = none →
      ∃ t, exec (.clauseGrant core slot) s = .next t ∧
        (t.core core).slot slot = some { wslot := ws, split := i, pc := ((s.warp core ws).split i).pc, hdr := h, words := words, partner := none } ∧
        t.warp core ws = { s.warp core ws with rr := i, age := 0, eligible := mset 0 (s.warp core ws).eligible i 0 } ∧ t.mem.bytes = s.mem.bytes ∧
        t.mem.l2 = s.mem.l2 ∧ t.mem.reqs = s.mem.reqs ∧ t.work = s.work) ∧
    (s.plat.devErr = false → slot < 2 → (s.core core).slot slot = none → remoteHolds s core slot = none →
      (∀ w, deadlocked s core slot = some w → exec (.clauseGrant core slot) s = .next (deadlock1 s core w)) ∧
      ∀ x, deadlocked s core slot = none → candidates s core slot = (ws, i) :: rest →
        fetchClause s core ws ((s.warp core ws).split i).pc = .fault x →
        exec (.clauseGrant core slot) s = .next (headerFault (grantTo s core ws i) core ws i 0 x)) ∧
    (∀ (pc : Nat) (hs l : List Word), fetchWords s core (s.warp core ws).ctx pc 1 = .ok hs →
      let x := (hs.getD 0 0).toNat
      let bad := x / 2 ^ 28 % 16 = 0 ∨ x / 2 ^ 25 % 8 = 7 ∨ x / 2 ^ 4 % 2 = 1 ∨ x % 16 ≠ 0xA
      let full := (List.range 5).any (fun c =>
        decide ((if c ≤ 1 then 30 else 6) < ((clauseOps l).filter (fun o => counterOf o == some c)).length))
      (bad → fetchClause s core ws pc = .fault { cls := 1, detail := x }) ∧
      (¬ bad → fetchWords s core (s.warp core ws).ctx (pc + 4) (x / 2 ^ 28 % 16) = .ok l → full →
        fetchClause s core ws pc = .fault { cls := 1, detail := x })) ∧
    (1024 ≤ (s.warp core ws).age → ∃ t, exec (.rankAging core ws) s = .next t ∧ t.mem = s.mem ∧ t.work = s.work ∧ t.cores = s.cores ∧
      t.warp core ws = { s.warp core ws with age := (s.warp core ws).age - 1024, rank := min 31 ((s.warp core ws).rank + 1) }) ∧
    (blockIn s core slot = some b → (s.blk b).isReplay = false →
      let stopped := stopCore s core
      exec (.impreciseFault core slot false 2 tile addr) s =
        .next (settleFrames (blockFrame (killBlock stopped b) b { cls := 0x11, detail := 2 + 16 * (tile % 4) } true)) ∧
      exec (.impreciseFault core slot true 2 tile addr) s = .next (settleFrames (blockFrame (killBlock stopped b) b
        { cls := 0x12, sva := addr, space := 8, detail := 3, aux := 2 ^ 16 * (s.blk b).ctx } true)) ∧
      (let area := mget (stopped.core core).area (64, 64) (tile % 4)
       exec (.impreciseFault core slot false 1 tile addr) s = .next (blockFrame (freeElems stopped core (tile % 4) area.1 area.2) b
         { cls := 0x11, detail := 1 + 16 * (tile % 4) } false))) ∧
    (s.work.frames.find? (fun p => p.2.core == core && p.2.seq.isNone && !p.2.full && decide (p.2.since + 10000000 ≤ s.plat.time)) =
        some (i, f) → f.core < 768 →
      exec (.ringFull core) s = .next (logEvent (s.setFrame i { f with full := true }) 2 f.dom (coreCode f.core))) ∧
    (s.plat.devErr = false → core < 768 → (s.core core).handling = none → (s.core core).hfault = false →
      handlerFrame s core = some (i, f) → ∃ t, exec (.handlerStart core) s = .next t ∧
        let d := domainAt s f.dom
        let va := d.ring + 64 * (f.seq.getD 0 % 2 ^ d.n)
        (t.core core).handling = some i ∧ t.mem = s.mem ∧
        (t.warp core 32).split 0 = { pc := d.entry % 2 ^ 56, mask := 0xFFFFFFFF, state := 1 } ∧ (t.warp core 32).ctx = d.hctx ∧
        (t.warp core 32).s 0 = BitVec.ofNat 32 va ∧ (t.warp core 32).s 1 = BitVec.ofNat 32 (va / 2 ^ 32) ∧
        (t.warp core 32).s 2 = BitVec.ofNat 32 f.records)

/-- R133, R149, R150, R156, R157, R177, R180, R185, R222, R239, R240, R242, R246, R250, R251: a load whose parts can be performed gives its
warp their values, from its local level or its L1, and lowers its counter: `sld` a scalar register, `vscvt` each lane its element by its
scale. A store enters the write-through queue with its bytes in the L1 lines present, and its counter falls at `.core`; its bytes in a
sector are written at home after owners are recalled and bounded holders drained, and nowhere else, or fail with a poisoned sector; a store
to a local level writes its bytes there. A lane of an atomic whose line its core owns writes f(old) at home and gives back old; a `bred`
adds to its share, is sent to home without one, or asks for one; a `ld.bnd` sends its bloads. An ECB miss fills an entry. An entry port
holds or translates a sector (log entry 71 for a window that begins inside it), releases its held writes in their order of arrival, performs
its loads and stores, or writes a line's dirty bytes back. That a lane's step is one access and which goes first is log entry 16, and where owned lines stand log entry 9. -/
def Obligations.MemoryEvents : Prop :=
  ∀ (s : State) (id sector line core ctx va : Nat) (r : Req) (sgn : Bool) (p : Part) (d : Desc),
    (s.req id = some r → r.kind = .load sgn → r.allDone = true → reqMayRun s id r = true → r.fell = false → r.live = true →
      exec (.loadComplete id) s = .next ((lowerCounter (s.updWarp r.core r.wslot (fun w => w.take r)) r).delReq id)) ∧
    (s.req id = some r → (r.kind = .load sgn ∨ r.kind = .sload ∨ ∃ m sat fmt, r.kind = .scale m sat fmt) → reqMayRun s id r = true →
      ∀ done, r.parts.map (loadPart s id r) = done.map some →
        exec (.loadComplete id) s = .next (finishReq (r.parts.foldl (fun t p => refill t r p) s) id { r with parts := done })) ∧
    (partClear s id r p = true → p.done = false →
      (r.space = .global → r.sc = 0 → ∀ bs, l1Read (s.core r.core) r.ctx p.addr r.w = some bs →
        loadPart s id r p = some (p.performed (leNat bs, false))) ∧
      (∀ b, r.space = .spad b → loadPart s id r p = some (p.performed (leNat (mrange (s.blk b).spad 0 p.addr r.w), false))) ∧
      (∀ b n, r.space = .slice b n → loadPart s id r p = some (p.performed (leNat (mrange (s.blk b).slices 0 p.addr r.w), false))) ∧
      (∀ c, r.space = .store c → loadPart s id r p = some (p.performed (leNat (mrange s.mem.cst 0 (cstKey c p.addr) r.w), false)))) ∧
    (∀ (w : Warp), r.parts = [p] → p.landed = 0 → p.err = false →
      (r.kind = .load sgn → w.take r = w.putGroup r.vd r.w p.lane p.res sgn false) ∧
      (r.kind = .sload → w.take r = w.setS r.vd (BitVec.ofNat 32 p.res)) ∧
      (∀ m sat fmt, r.kind = .scale m sat fmt → w.take r = w.setV r.vd (BitVec.ofNat 32 (2 ^ p.lane))
        (fun _ => BitVec.ofNat 32 (scaledElem (modeOf m 0) sat (decodeElem fmt p.data) p.res)))) ∧
    (s.req id = some r → r.kind = .store → r.space = .global → r.fell = false → r.queued ≠ 0 → r.sc ≠ 0 → r.allDone = true →
      r.parts.all (fun p => !p.err) = true → r.live = true →
      exec (.storeComplete id) s = .next ((lowerCounter (s.updWarp r.core r.wslot (fun w => w.take r)) r).delReq id)) ∧
    (s.req id = some r → r.kind = .store → r.space = .global → r.fell = false → r.queued = 0 → r.sc = 0 → r.parts = [p] → p.done = false →
      cachedClass p.cls = true → partClear s id r p = true →
      let u := s.updCore r.core (fun k => storeL1 k r.ctx p.addr (leBytes r.w p.data))
      let q := { r with queued := s.mem.nextQ + 1 }
      let v := { u.setReq id q with mem := { (u.setReq id q).mem with nextQ := s.mem.nextQ + 1 } }
      exec (.storeComplete id) s = .next ((lowerCounter v q).setReq id { q with fell := true })) ∧
    (s.req id = some r → r.kind = .store → r.space = .global → r.queued ≠ 0 → r.parts = [p] → p.done = false → cachedClass p.cls = true →
      p.addr / 32 = sector → olderQueued s id r p = false → partLines r p = [lineKey r.ctx p.addr] →
      homeOpen s r.core p.cls (lineKey r.ctx p.addr) = true →
      let u := recallFrom s r.core (lineKey r.ctx p.addr)
      let v := if p.cls = 1 then drainLine u (lineKey r.ctx p.addr) false else u
      canonDesc v r.ctx p.addr = .found d →
      (partBad v r [p] p = false → exec (.writeThroughApply id sector) s = .next (settleStore (setPart
        (homeWrite v d p.addr (leBytes r.w p.data)) id (p.performed (0, false))) id)) ∧
      (partBad v r [p] p = true → exec (.writeThroughApply id sector) s = .next (settleStore (setPart v id (p.performed (0, true))) id))) ∧
    (s.req id = some r → r.kind = .store → r.parts = [p] → p.landed = 0 → partClear s id r p = true →
      let ends (t : State) := exec (.storeComplete id) s = .next (finishReq t id { r with parts := [p.performed (0, false)] })
      let bs := leBytes r.w p.data
      (∀ b x, r.space = .spad b → mfind s.work.blocks b = some x → tstBefore s id (.spad b) = false →
        ends (s.setBlk b { x with spad := msetRange 0 x.spad p.addr bs })) ∧
      (∀ b n x, r.space = .slice b n → mfind s.work.blocks b = some x → ends (s.setBlk b { x with slices := msetRange 0 x.slices p.addr bs })) ∧
      (∀ c, r.space = .store c → spoiledObjs s (.store c) p.addr bs.length = [] →
        ends { s with mem := { s.mem with cst := msetRange 0 s.mem.cst (cstKey c p.addr) bs } })) ∧
    (∀ op, s.req id = some r → r.kind = .atomic op → r.space = .global → r.parts = [p] → p.done = false → cachedClass p.cls = true → p.cls ≠ 2 →
      mget s.mem.owner 0 (lineKey r.ctx p.addr) = r.core + 1 → reqMayRun s id r = true → partClear s id r p = true → ownedWait s r p = none →
      let u := { s with free := s.free + 1 }
      canonDesc u r.ctx p.addr = .found d →
      let v := (List.range r.w).foldl (fun t i => touchByte t d (p.addr + i) false) u
      let l := (List.range r.w).map (fun i => homeByte v d (p.addr + i))
      l.any Prod.snd = false →
      let old := leNat (l.map Prod.fst)
      let bs := leBytes r.w (atomNew op old p.data)
      let q := p.performed (old, false)
      exec (.loadComplete id) s = .next (finishReq (setPart ((homeWrite v d p.addr bs).updCore r.core (fun k => storeL1 k r.ctx p.addr bs)) id q)
        id { r with parts := [q] })) ∧
    (s.req id = some r → r.kind = .bred → r.space = .global → r.parts = [p] → p.done = false → p.cls = 1 → reqMayRun s id r = true →
      partClear s id r p = true →
      let line := lineKey r.ctx p.addr
      let e := p.addr % 128 / 4
      (∀ h, mfind (s.core r.core).held line = some h → (decodeF f32 p.data).isNan = false → (decodeF f32 p.data).isInf = false →
        fless f32 h.b (fadd f32 .ru h.t (absCode p.data)) = false → sentMail s r.core line = false →
        ∃ t, exec (.storeComplete id) s = .next t ∧ t.req id = none ∧ t.mem.mail = s.mem.mail ∧ t.mem.bytes = s.mem.bytes ∧
          t.mem.l2 = s.mem.l2 ∧ mfind (t.core r.core).held line = some { h with
            d := mset 0 h.d e (BitVec.ofNat 32 (fadd f32 .rne (mget h.d 0 e).toNat p.data)), t := fadd f32 .ru h.t (absCode p.data) }) ∧
      (mfind (s.core r.core).held line = none → ∃ t, exec (.storeComplete id) s = .next t ∧ t.cores = s.cores ∧ t.mem.bytes = s.mem.bytes ∧
        t.mem.l2 = s.mem.l2 ∧
        ((s.core r.core).noShare.contains line = true → t.mem.mail = mput s.mem.mail s.work.next ⟨r.core, line, .add e p.data⟩ ∧
          t.req id = some { r with parts := [{ p with done := true }] }) ∧
        ((s.core r.core).noShare.contains line = false → shareAsked s r.core line = false →
          t.mem.mail = mput s.mem.mail s.work.next ⟨r.core, line, .shareReq⟩ ∧ t.req id = some r))) ∧
    (∀ eps, s.req id = some r → r.kind = .bnd eps → r.space = .global → r.parts = [p] → p.done = false → p.cls = 1 → reqMayRun s id r = true →
      partClear s id r p = true → s.mem.mail = [] → s.mem.waits = [] →
      exec (.loadComplete id) s = .next (sendMail s r.core (lineKey r.ctx p.addr) (.bload id eps))) ∧
    (checkedWalk s (walk s ctx va) = .found d → (s.core core).ecb.any (fun e => e.covers ctx va) = false → ∃ t, exec (.ecbWalk core ctx va) s = .next t ∧
      (t.core core).ecb = (d.ent :: (s.core core).ecb).take Config.ecbEntries ∧ t.mem = s.mem ∧ t.warps = s.warps) ∧
    (s.req id = some r → r.space = .global → sectorDescs s r sector = [.found d] → mget r.sects .none (sectNo sector d) = .none →
      let port := entryPort (coreCluster r.core) (32 * sector)
      let pa := place (portPlace s port d) (sectorStart d sector - d.ent.base)
      let u := markUsed s d
      let v := touchChan u pa
      let puts (t : State) (x : Sect) := exec (.portTranslate (.req id sector)) s =
        .next (t.setReq id { r with sects := mput r.sects (sectNo sector d) x })
      (sectorHeld s port d sector = true → puts s .held) ∧
      (sectorHeld s port d sector = false → paExists pa = false → exec (.portTranslate (.req id sector)) s = .next (deviceError s)) ∧
      (sectorHeld s port d sector = false → paExists pa = true →
        (Config.hostBase ≤ pa → hostReach u d.ent.cls = false → puts u (.down s.plat.time)) ∧
        ((pa < Config.hostBase ∨ hostReach u d.ent.cls = true) →
          (pathHeld u r pa = true → puts { v with mem := { v.mem with nextQ := v.mem.nextQ + 1 } } (.channelHeld pa (v.mem.nextQ + 1))) ∧
          (pathHeld u r pa = false → puts v (.translated pa))))) ∧
    (∀ pa n, s.req id = some r → r.space = .global → sectorDescs s r sector = [.found d] →
      mget r.sects .none (sectNo sector d) = .channelHeld pa n →
      let goes (t : State) := exec (.portTranslate (.req id sector)) s = .next t
      (pathHeld s r pa = true → goes (touchChan s pa)) ∧ (pathHeld s r pa = false → heldBefore s r pa n = true → goes s) ∧
      (pathHeld s r pa = false → heldBefore s r pa n = false →
        goes (s.setReq id { r with sects := mput r.sects (sectNo sector d) (.translated pa) }))) ∧
    (∀ pa, s.req id = some r → r.space = .global → r.parts = [p] → p.done = false → p.cls = 5 → p.addr / 32 = sector →
      (p.addr + r.w - 1) / 32 = sector → d.ent.cls = 5 → d.ent.base % 32 = 0 → d.ent.base ≤ p.addr → p.addr < d.ent.base + d.ent.len → pa % 32 = 0 →
      sectorDescs s r sector = [.found d] → mget r.sects .none (sectNo sector d) = .translated pa → reqMayRun s id r = true →
      partClear s id r p = true → mget s.mem.owner 0 (lineKey r.ctx p.addr) = 0 → mget s.mem.marks false (pa / 32) = false →
      (r.kind = .store → 0 < r.w → r.w ≤ 16 → ∃ t, exec (.portTranslate (.req id sector)) s = .next t ∧
        (∀ a, Memory.read t.mem.bytes a = if pa + p.addr % 32 ≤ a ∧ a < pa + p.addr % 32 + r.w then
          (leBytes r.w p.data).getD (a - (pa + p.addr % 32)) 0 else Memory.read s.mem.bytes a) ∧
        t.req id = some { r with parts := [p.performed (0, false)], sects := mput r.sects (sectNo sector d) .done }) ∧
      (r.kind = .load sgn → queuedByte s r.core d.ent.ctx p.addr = none → r.w = 1 → ∃ t, exec (.portTranslate (.req id sector)) s = .next t ∧
        t.mem.bytes = s.mem.bytes ∧ t.req id = some { r with parts := [p.performed ((Memory.read s.mem.bytes (pa + p.addr % 32)).toNat, false)]
                                                             sects := mput r.sects (sectNo sector d) .done })) ∧
    (lineBusy s line = false → dirtyDescs (dropOwner s line) line = [.found d] → exec (.portTranslate (.writeback line)) s = .next (evictLine
      ((List.range 4).foldl (fun t i => writebackSector t d (lineVa line + 32 * i)) (dropOwner s line)) line)) ∧
    (let sec := 32 * sector
     let k := byteKey d.ent.ctx sec
     let mine (q : Nat × Byte) : Bool := decide (k ≤ q.1) && decide (q.1 < k + 32)
     let port := entryPort (homeCluster d.ent (lineKey d.ent.ctx sec)) sec
     let pa := place (portPlace s port d) (sec - d.ent.base)
     let clear := { s with mem := { s.mem with l2 := s.mem.l2.filter (fun q => !mine q) } }
     d.ent.base % 32 = 0 → d.ent.base ≤ sec → sec + 32 ≤ d.ent.base + d.ent.len → s.mem.l2.filter mine ≠ [] → mrising none s.mem.l2 = true →
     sectorHeld s port d sector = false → paExists pa = true → pa % 32 = 0 → pa < Config.hostBase → chanHeld s pa = false → hotStack s pa = false →
     mget s.mem.marks false (pa / 32) = false →
     ∃ t, writebackSector s d sec = t ∧ t.mem.l2 = clear.mem.l2 ∧ ∀ a, Memory.read t.mem.bytes a =
       if pa ≤ a ∧ a < pa + 32 then (mfind s.mem.l2 (k + (a - pa))).getD (Memory.read s.mem.bytes a) else Memory.read s.mem.bytes a)

/-- R223, R224, R390, R400, R406, R407: the steps of the memory's health: channels power down, refresh themselves and come back; a stack
moves between thermal bands with 2 degrees of hysteresis; the scrubber reads on and writes back what it found; a reload
finishes with the image's table and counter, or retires the channel, whose evacuation starts (that waiting evacuations are retried is log
entry 70, the event's physical address log entry 91); ports go down and come up; accesses that waited 2 ms for a CXL port fail. -/
def Obligations.ReliabilityEvents : Prop :=
  ∀ (s : State) (port pc stack temp pa id : Nat) (r : Req) (img : BootImage) (rows : List (Nat × Nat)), portsLive s = true →
    let k := chanKey port pc
    let c := s.chan k
    (port < 8 → pc < 64 → c.power = 0 → c.reload = false → tPd s ≠ 0 → c.idle + tPd s ≤ s.plat.time → chanQueued s k = false →
      exec (.powerDownEntry port pc) s = .next (s.setChan k { c with power := 1 })) ∧
    (port < 8 → pc < 64 → c.power = 1 → tSr s ≠ 0 → c.idle + tPd s + tSr s ≤ s.plat.time → chanQueued s k = false →
      exec (.selfRefreshEntry port pc) s = .next (s.setChan k { c with power := 2 })) ∧
    (c.power = 3 → c.since + (if c.from' = 2 then 600 else 30) ≤ s.plat.time →
      exec (.channelExit port pc) s = .next (s.setChan k { c with power := 0, from' := 0 })) ∧
    (c.reload = true → imageVerifies s img = true → imageRows img port pc = some rows →
      let u := { s with plat := { s.plat with counter := max s.plat.counter img.version } }
      exec (.rowRemapReloadDone port pc img) s =
        .next (remapEvent (wakeChan (u.setChan k { c with copies := 2, reload := false, rows := rows }) k) port pc 2)) ∧
    (c.reload = true → (imageVerifies s img = false ∨ imageRows img port pc = none) → exec (.rowRemapReloadDone port pc img) s = .next (evacuateAll
      (remapEvent (wakeChan (s.setChan k { c with copies := 0, reload := false, retired := true, rows := [] }) k) port pc 3))) ∧
    (stack < 8 → mget s.mem.bands 0 stack = 0 → 85 < temp → temp ≤ 95 → ∃ t, exec (.hbmThermalBand stack temp) s = .next t ∧
      mget t.mem.bands 0 stack = 1) ∧
    (stack < 8 → mget s.mem.bands 0 stack = 1 → temp ≤ 83 → ∃ t, exec (.hbmThermalBand stack temp) s = .next t ∧
      mget t.mem.bands 0 stack = 0) ∧
    (let q := mget s.mem.scrubs {} port
     port < 8 → q.pend = none → chanHeld s (granulePa port q.pos) = false → ∃ t, exec (.scrubRead port) s = .next t ∧
      (mget t.mem.scrubs {} port).pos = (q.pos + 1) % stackGranules ∧
      (mget t.mem.scrubs {} port).pend = (mfind s.mem.soft (granulePa port q.pos / 32)).map (fun ok => (granulePa port q.pos, !ok)) ∧ t.mem.bytes = s.mem.bytes) ∧
    (let q := mget s.mem.scrubs {} port
     q.pend = some (pa, false) → exec (.scrubWrite port) s = .next { s with mem := { s.mem with scrubs := mput s.mem.scrubs port { q with pend := none }, soft := mdel s.mem.soft (pa / 32) } }) ∧
    (port < 2 → hostUp s port = true → exec (.hostPortDown port) s =
      .next { s with plat := { s.plat with down := mput s.plat.down port s.plat.time } }) ∧
    exec (.hostPortUp port) s = .next { s with plat := { s.plat with down := mdel s.plat.down port } } ∧
    (let late := (r.sects.filter (fun x => match x.2 with | .down since => decide (since + 2000000 ≤ s.plat.time) | _ => false)).map Prod.fst
     let failed : Req := { r with
       parts := r.parts.map (fun p => if !p.done && late.contains (sectIx s r p) && p.cls == 2 then p.performed (0, true) else p)
       sects := r.sects.map (fun x => if late.contains x.1 then (x.1, .error) else x) }
     s.req id = some r → cxlUp s = false → late ≠ [] → exec (.cxlPortWaitTimeout id) s = .next (settleStore (s.setReq id failed) id))

/-- R178, R182 to R187, R266: the phases of a slide: Marrow starts it, opens a window, copies it once every port has acknowledged, advances the
frontier, closes, and commits; each port acknowledges a phase once; a retire stops it between two steps; a `cp.tier` that waits for it then
ends; a phase unacknowledged for 100 µs is lost remap metadata. That the end of a slide takes waiting evacuations up again (evacuateAll) is
the model's reading of R223, log entry 70; a window inside a sector is log entry 71. -/
def Obligations.SlideEvents : Prop :=
  ∀ (s : State) (ctx xid port : Nat) (l : Slide), slideOf s ctx xid = some l →
    let pl := slidePl s l
    let now := s.plat.time
    let goes (i : Instr) (t : State) := exec i s = .next t
    let fresh := port < 8 ∧ l.took.contains port = false
    let took : Slide := { l with took := port :: l.took }
    let seen : Slide := { l with took := port :: l.took, views := mput l.views port pl }
    (l.phase = 0 → (s.mem.slides.filter (fun x => x.engine == l.engine && x.phase != 0)).length < 4 →
      s.mem.slides.find? (fun x => x.engine == l.engine && x.phase == 0) = some l →
      (usedRanges s).all (fun u => (u.2.2 == (ctx, xid)) || !meets l.noff (l.noff + l.len) u.1 u.2.1) = true →
      let up := decide (pl.off < l.noff)
      goes (.slideStart ctx xid) (setSlide (pwrite (patch64 s (l.desc + 0x38) 0 49 (if up then l.len else 0)) (l.desc + 0x30)
          (leBytes 8 (2 ^ 63 + 2 ^ 62 * up.toNat + 2 ^ 58 * l.k + l.noff)))
        { l with phase := 1, step := if up then l.steps - 1 else 0, took := [], since := now, views := (List.range 8).map (fun p => (p, pl)) })) ∧
    (l.phase = 1 → fresh → l.took.length < 7 → goes (.portSlideBegin port ctx xid) (setSlide s seen)) ∧
    (l.phase = 1 → fresh → l.took.length = 7 → goes (.portSlideBegin port ctx xid) (setSlide (setSlide s seen) { seen with phase := 2, took := [] })) ∧
    (l.phase = 2 → l.stop = false → pl.fr ≠ (if pl.dir then 0 else l.len) →
      goes (.slideOpen ctx xid) (setSlide s { l with phase := 3, took := [], acked := [], since := now })) ∧
    (l.phase = 2 → l.stop = true → l.op = 0 → goes (.slideOpen ctx xid) (evacuateAll (dropSlide s l))) ∧
    (l.phase = 3 → fresh → windowSectors s port l (parseDesc l.ctx l.desc (pread s l.desc 64)) = [] →
      goes (.portOpen port ctx xid) (setSlide s took)) ∧
    (l.phase = 3 → l.took.contains port = true → l.acked.contains port = false →
      windowSectors s port l (parseDesc l.ctx l.desc (pread s l.desc 64)) = [] →
      goes (.portOpenAck port ctx xid) (setSlide s { l with acked := port :: l.acked })) ∧
    (let offs := (List.range ((l.window.2 - l.window.1 + 31) / 32)).map (fun i => l.window.1 + 32 * i)
     l.phase = 3 → l.acked.length = 8 → offs.any (fun o => hotStack s (l.noff + o)) = false →
      (offs.map fun o => [pl.off + o, l.noff + o]).flatten.any (chanHeld s) = false →
      goes (.slideCopy ctx xid) (setSlide ((if pl.dir then offs.reverse else offs).foldl (fun t o =>
        copySector t (parseDesc l.ctx l.desc (pread s l.desc 64)) o (pl.off + o) (l.noff + o) (min 32 (l.window.2 - o))) s) { l with phase := 4 })) ∧
    (l.phase = 4 → goes (.slideAdvance ctx xid) (setSlide (patch64 s (l.desc + 0x38) 0 49 (if pl.dir then l.window.1 else l.window.2))
      { l with phase := 5, took := [], since := now })) ∧
    (l.phase = 5 → fresh → goes (.portAdvance port ctx xid) (setSlide s seen)) ∧
    (l.phase = 5 → l.took.length = 8 → goes (.slideClose ctx xid) (setSlide s { l with phase := 6, took := [], since := now })) ∧
    (l.phase = 6 → fresh → l.took.length < 7 → goes (.portClose port ctx xid) (setSlide s took)) ∧
    (l.phase = 6 → fresh → l.took.length = 7 → goes (.portClose port ctx xid) (setSlide (setSlide s took)
      { took with phase := 2, took := [], step := if (slidePl (setSlide s took) took).dir then l.step - 1 else l.step + 1 })) ∧
    (l.phase = 2 → l.stop = false → pl.fr = (if pl.dir then 0 else l.len) →
      goes (.slideCommit ctx xid) (setSlide (pwrite (pwrite (patch64 s (l.desc + 0x28) 0 52 l.noff) (l.desc + 0x30) (leBytes 8 0)) (l.desc + 0x38)
        (leBytes 8 0)) { l with phase := 7, took := [], since := now })) ∧
    (l.phase = 7 → fresh → l.took.length < 7 → goes (.portCommit port ctx xid) (setSlide s seen)) ∧
    (l.phase = 7 → fresh → l.took.length = 7 → l.op = 0 → goes (.portCommit port ctx xid) (evacuateAll (dropSlide (setSlide s seen) seen))) ∧
    (∀ o, l.phase = 7 → fresh → l.took.length = 7 → l.op ≠ 0 → let u := evacuateAll (dropSlide (setSlide s seen) seen)
      u.op (l.op - 1) = some o → goes (.portCommit port ctx xid) (u.setOp (l.op - 1) { o with ended := true })) ∧
    ((l.phase = 1 ∨ l.phase = 5) ∧ l.took.length ≠ 8 ∨ l.phase = 3 ∧ l.acked.length ≠ 8 → l.since + 100000 ≤ now →
      goes (.slideAckTimeout ctx xid) (deviceError (dropSlide s l)))

/-- R178, R187, R204, R209, R232 to R237, R245, R253: the residency manager demotes its first victim (to the place findAnyPool, the model's
choice, log entry 23) and promotes the extent of highest priority; a retired extent whose accesses have drained leaves the index; an arrival
whose release has drained is counted; a blocked word ends. A line moves to the core that asks, once the host has granted it, its owner has
given it up, and an L1 and a slice have room (log entry 103); it is given up, with no byte to move, since an owned line's bytes stand at
home in this model (log entry 9), and with a drain where it is held; it follows the host's snoops; a host atomic completes as answered. -/
def Obligations.ExtentBarrierAndLineEvents : Prop :=
  ∀ (s : State) (e : LiveExt) (v : List LiveExt) (noff core ws sp line id lane : Nat) (a : Arrival) (rest : List Arrival) (r : Req)
      (p : Part) (ex : Bool) (de df : DirEntry),
    let d := extDesc s e
    (victims s = e :: v → findAnyPool s d.ent.len d.ent.ctx d.ent.xid d.pl.off = some noff →
      engineFull s (slideEngine d.pl.off noff) = false →
      exec (.residencyDemote e.ctx e.xid) s = .next (acceptSlide s d noff 7 0)) ∧
    (let cand := s.mem.exts.filter (fun x => (extDesc s x).movable && !(extDesc s x).pin && (extDesc s x).inHost &&
        !sliding s (extDesc s x) && x.stage == 0)
     cand.find? (fun x => x.ctx == e.ctx && x.xid == e.xid) = some e → cand.all (fun x => decide ((extDesc s x).prio ≤ d.prio)) = true →
      exec (.residencyPromote e.ctx e.xid) s = .next (promote s d 7 0 false).2) ∧
    (liveExt s e.ctx e.xid = some e → s.plat.retiring = some (e.ctx, e.xid) → extBusy s d = false → d.ent.al = true →
      slideOf s e.ctx e.xid = none → exec (.retireAccessesDrained e.ctx e.xid) s = .next (removeExtent s e d)) ∧
    (let o := objGet s a.obj
     (s.warp core ws).arrivals = a :: rest → releaseDone s core ws a.id o.scope = true → o.scope < 3 → o.exparr ≠ 0 → o.ab = false →
      o.arr < 65535 → a.drop = false →
      let u := objPut (s.updWarp core ws (fun w => { w with arrivals := rest })) a.obj (advanceObj { o with arr := o.arr + 1 })
      exec (.arrivalCounted core ws) s = .next ((u.updWarp core ws (·.setS a.sv (BitVec.ofNat 32 o.phase))).updWarp core ws
        (·.setStatus a.d (if o.er then 2 else 0)))) ∧
    (((s.warp core ws).split sp).state = 2 → (s.core core).stopped = false →
      (∀ (b : ObjRef) (ph : Word) (dd : Nat), ((s.warp core ws).split sp).on = .bar b ph dd →
        (passed (objGet s b).phase ph.toNat = true → exec (.blockedWordResume core ws sp) s = .next (finishStatus
          (acquireAt s core (s.warp core ws).ctx (objGet s b).scope) core ws sp dd (if (objGet s b).er then 2 else 0))) ∧
        (passed (objGet s b).phase ph.toNat = false → (objGet s b).ab = true →
          exec (.blockedWordResume core ws sp) s = .next (finishStatus s core ws sp dd 1))) ∧
      (∀ ld st cp tl rm, ((s.warp core ws).split sp).on = .counters ld st cp tl rm 0 → (s.warp core ws).errs = [] →
        (s.warp core ws).errCount = 0 → (s.warp core ws).countersMet ld st cp tl rm = true →
        exec (.blockedWordResume core ws sp) s = .next (unblock (acquireAt s core (s.warp core ws).ctx 0) core ws sp 1))) ∧
    (lineWanted s core line = true → mget s.mem.owner 0 line ≠ core + 1 → mailFor s line = false → lineReady s (lineClass s line) line true = true →
      mget (surrender s line).mem.owner 0 line = 0 → hasRoom (surrender s line) core line = true → sliceFull (surrender s line) line = false →
      let u := makeRoom (drainLine (surrender s line) line true) core line
      exec (.ownershipRequest core line) s = .next (dirTidy (dirTake { u with mem := { u.mem with owner := mput u.mem.owner line (core + 1) } } core line))) ∧
    (lineWanted s core line = true → mget s.mem.owner 0 line ≠ core + 1 → mailFor s line = false → lineReady s (lineClass s line) line true = false →
      exec (.ownershipRequest core line) s = .next (askLine s line true)) ∧
    (∃ t, exec (.recallLine line) s = .next t ∧ (mget t.mem.owner 0 line = 0 ∨ lineBusy t line = true)) ∧
    (lineBusy s line = true → exec (.lineSurrender line) s = .next s) ∧
    (lineBusy s line = false → ∃ t, exec (.lineSurrender line) s = .next t ∧ (∀ l, mget t.mem.owner 0 l = if l = line then 0 else mget s.mem.owner 0 l) ∧
      t.mem.bytes = s.mem.bytes ∧ t.cores = s.cores) ∧
    (s.mem.dir.find? (fun x => x.slice == de.slice && x.base == de.base && x.size == de.size && decide (65536 ≤ x.last)) = some de →
      s.mem.dir.find? (fun x => x.slice == de.slice && x.ctx == de.ctx && x.base == de.base + de.size && x.size == de.size && x.core == de.core &&
        decide (65536 ≤ x.last)) = some df → de.base % (2 * de.size) = 0 → de.size ≤ 32768 →
      exec (.directoryMerge de.slice de.base de.size) s = .next { s with mem := { s.mem with dir :=
        ((s.mem.dir.erase de).erase df) ++ [{ de with size := 2 * de.size, last := min de.last df.last }] } }) ∧
    (mget s.mem.owner 0 line ≠ core + 1 → mfind (s.core core).held line = none → exec (.l1Eviction core line) s =
      .next (s.updCore core (fun k => { k with
        l1 := k.l1.filter (fun q => q.1 / 128 != lineKey (lineCtx line) (lineVa line))
        noShare := k.noShare.filter (· != line) }))) ∧
    (∀ h, mget s.mem.owner 0 line ≠ core + 1 → mfind (s.core core).held line = some h → bvalueDue s core line = false →
      ∃ t, exec (.l1Eviction core line) s = .next t ∧ mfind (t.core core).held line = none ∧ t.mem.bytes = s.mem.bytes ∧
        t.mem.mail = mput s.mem.mail s.work.next ⟨core, line, .drain h.d true false⟩) ∧
    (∀ n, cxlUp s = true → mfind s.mem.cxl line = some n → ∃ t, exec (.cxlCacheResponse line ex) s = .next t ∧ mfind t.mem.cxl line = none ∧
      t.mem.bytes = s.mem.bytes ∧ let old := mget s.mem.moesi 0 line
      mget t.mem.moesi 0 line = if n = 2 ∨ ex then (if old = 3 ∨ old = 4 then 3 else 2) else if old = 0 then 1 else old) ∧
    (mget s.mem.owner 0 line = 0 → (∃ t, exec (.snpdata line) s = .next t ∧ t.mem.bytes = s.mem.bytes ∧
        mget t.mem.moesi 0 line = (if mget s.mem.moesi 0 line = 2 then 1 else if mget s.mem.moesi 0 line = 3 then 4 else mget s.mem.moesi 0 line)) ∧
      (mget s.mem.moesi 0 line = 0 → exec (.snpinv line) s = .next s) ∧
      (mget s.mem.moesi 0 line ≠ 0 → let dirty := mget s.mem.moesi 0 line == 3 || mget s.mem.moesi 0 line == 4
        let k := byteKey (lineCtx line) (lineVa line)
        exec (.snpinv line) s = .next (dropLineAll (lineMoesi (flushLine s line dirty) line 0) line) ∧
        (flushLine s line dirty).mem.l2.all (fun q => !(decide (k ≤ q.1) && decide (q.1 < k + 128))) = true ∧
        (dirty = false → (flushLine s line dirty).mem.bytes = s.mem.bytes))) ∧
    (∀ op, s.req id = some r → r.kind.atomOp = some op → r.parts.find? (fun q => q.lane == lane && q.cls == 3 && !q.done) = some p →
      reqMayRun s id r = true → partClear s id r p = true → hostReach s 3 = true →
      exec (.atomicopCompletion id lane .unsupported) s = .next (setPart s id { p with done := true, np := true }) ∧
      exec (.atomicopCompletion id lane .abort) s = exec (.atomicopCompletion id lane .unsupported) s ∧
      exec (.atomicopCompletion id lane .poisoned) s = .next (setPart s id { p with done := true, res := 0, err := true }) ∧
      (∀ h, canonDesc s r.ctx p.addr = .found h → ((List.range r.w).map (fun i => homeByte s h (p.addr + i))).any Prod.snd = false →
        let old := leNat ((List.range r.w).map (fun i => (homeByte s h (p.addr + i)).1))
        exec (.atomicopCompletion id lane .success) s = .next (setPart (homeWrite (markUsed s h) h p.addr (leBytes r.w (atomNew op old p.data))) id
          { p with done := true, res := old, err := false })))

/-- R149, R233, R245, R247, R249, R251: a message of bounded accumulation takes effect once no earlier message of its stream is under way: a
share-req is answered with half of what is left, with nothing to a ninth holder, or after the largest holder's release; a grant gives the L1
its bound (an L1 without room waits, log entry 103); an add adds one delta at home, where the element can be reached, a drain adds all of
them and gives back the share that it releases, an fdrain is answered with a drain, a bload asks the holders that the caller's bound needs,
and a bvalue gives each waiting bounded lane its element, with the reader's own delta where it holds a share. -/
def Obligations.BoundedEvents : Prop :=
  ∀ (s : State) (i core line b e δ eps : Nat) (ds : SMap Word) (rel : Bool) (vals : List Word) (errs : Word) (r : Req) (id : Nat) (d : Desc),
    let u := s.setMail (mdel s.mem.mail i)
    let v := dropOwner u line
    let comes (m : BMsg) := mfind s.mem.mail i = some ⟨core, line, m⟩ ∧ mailFirst s i ⟨core, line, m⟩ = true
    (lineBusy u line = false → comes .shareReq →
      let a := accounting v line
      let half := fmul f32 .rz a.u 0x3F000000
      (8 ≤ a.holders.length → exec (.shareReq i) s = .next (sendMail v core line (.grant 0))) ∧
      (a.holders.length < 8 → fless f32 a.u (divPow (boundOf v line) 6) = false → exec (.shareReq i) s = .next
        (if (decodeF f32 half).isZero then sendMail v core line (.grant 0)
         else sendMail (setAccounting v line ⟨fsub f32 .rz a.u half, a.holders ++ [(core, half)]⟩) core line (.grant half))) ∧
      (∀ h l, a.holders.length < 8 → fless f32 a.u (divPow (boundOf v line) 6) = true → sortedHolders a.holders = h :: l →
        let w := sendMail v h.1 line (.fdrain true)
        exec (.shareReq i) s = .next { w with mem := { w.mem with waits := w.mem.waits ++ [⟨core, line, 0, [h.1]⟩] } })) ∧
    (comes (.grant b) → (b = 0 → exec (.grant i) s = .next (u.updCore core (fun k => { k with noShare := line :: k.noShare }))) ∧
      (b ≠ 0 → hasRoom u core line = true → exec (.grant i) s = .next ((makeRoom u core line).updCore core
        (fun k => { k with held := mput k.held line ⟨b, 0, []⟩ })))) ∧
    (comes (.add e δ) → elemsWait s line [e] = none → exec (.add i) s = .next (serveWaits (addElem u line e δ))) ∧
    (let va := lineVa line + 4 * e
     canonDesc u (lineCtx line) va = .found d → d.ent.cls = 1 →
      let w := touchByte v d va false
      let x := homeElem w d va
      let sum := fadd f32 .rne x.1 δ
      x.2 = false → narrowError w d va 4 = false → addElem u line e δ = if sum = x.1 then w else homeWrite w d va (leBytes 4 sum)) ∧
    (comes (.drain ds rel false) → elemsWait s line (List.range 32) = none →
      let w := addDeltas u line ds
      let a := accounting w line
      (rel = false → exec (.drain i) s = .next (serveWaits w)) ∧
      (∀ h, rel = true → a.holders.find? (fun p => p.1 == core) = some h → exec (.drain i) s = .next (serveWaits
        (setAccounting w line ⟨fadd f32 .rz a.u h.2, a.holders.filter (fun p => p.1 != core)⟩)))) ∧
    (comes (.fdrain rel) → (mfind (s.core core).held line = none → exec (.fdrain i) s = .next (sendMail u core line (.drain [] false true))) ∧
      (∀ h, mfind (s.core core).held line = some h → ∃ t, exec (.fdrain i) s = .next t ∧
        t.mem.mail = mput (mdel s.mem.mail i) s.work.next ⟨core, line, .drain h.d rel true⟩ ∧
        mfind (t.core core).held line = if rel then none else some { h with t := 0, d := [] })) ∧
    (comes (.bload id eps) → elemsWait s line (List.range 32) = none →
      let f := drainPrefix eps (sortedHolders ((accounting v line).holders.filter (fun h => h.1 != core)))
      let w := f.foldl (fun s c => sendMail s c line (.fdrain false)) v
      exec (.bload i) s = .next (serveWaits { w with mem := { w.mem with waits := w.mem.waits ++ [⟨core, line, id + 1, f⟩] } })) ∧
    (comes (.bvalue id vals errs) → s.req id = some r →
      let fills (own : Nat → Nat → Nat) := exec (.bvalue i) s = .next (u.setReq id { r with parts := r.parts.map (fun p =>
        if p.done || p.cls != 1 || lineKey r.ctx p.addr != line then p
        else p.performed (own (p.addr % 128 / 4) (vals.getD (p.addr % 128 / 4) 0).toNat, laneIn errs (p.addr % 128 / 4))) })
      (mfind (s.core core).held line = none → fills (fun _ x => x)) ∧
      (∀ h, mfind (s.core core).held line = some h → fills (fun e x => fadd f32 .rne x (mget h.d 0 e).toNat)))

/-- R259 to R265, R273 to R276, R278, R336, R354, R409: the copy engine performs a piece of an operation once, each byte of it moved from
where the source's distance leads to where each target's does, and reports a finished operation in the stages of R259; the exchange engine
sends its runs, after a member's last run that member's end, and then every other end, lands a run and answers it, refuses one without a
place, takes acknowledgments and ends, resends with the run's first time, fails a run that is not answered, and reports a part; the matrix
engine performs its oldest operation and lowers tl. Beside the rules stand the model's choices: the record that a part with failed runs
writes of a failed receive side (recvLog) is log entry 41, and the offset of a cancelled part whose runs have all landed log entry 102. -/
def Obligations.EngineEvents : Prop :=
  ∀ (s : State) (id j k : Nat) (o : Op) (c : Copy) (x : XPart) (p : Packet) (m : MOp),
    (s.op id = some o → o.stage = 0 → o.ended = false → o.cancel = false → o.pieces.contains j = false → j < o.count → parseCopy o.code o.cmd = some c →
      (s.blk o.blk).role = .none → ∀ P : Nat → PByte,
      let n := min 32 (o.len - 32 * j)
      let qs := (List.range n).map (32 * j + ·)
      let cl := coreCluster o.core
      let read (b : PByte) : Byte × Bool := match b.src with
        | some l => readLoc s o.ctx l
        | none => (BitVec.ofNat 8 (bitsOf c.pat (8 * (b.q % 4)) 8), false)
      let all := (qs.map (fun q => (P q).dst.map Prod.fst)).flatten
      let u := qs.foldl (fun t q => match (P q).src with | some l => useLoc t o.ctx l | none => t) s
      (∀ q ∈ qs, pieceByte s o c q = .ok (P q) ∧ (read (P q)).2 = false ∧
        (∀ l, (P q).src = some l → locWait s cl o.ctx l false = none ∧ locDead s o.ctx l false = false) ∧
        ∀ l ∈ (P q).dst, locWait s cl o.ctx l.1 true = none ∧ locDead s o.ctx l.1 true = false ∧ locNarrow s o.ctx all l.1 = false) →
      exec (.copyPiece id j) s = .next ((qs.foldl (fun t q => (P q).dst.foldl (fun t l => writeLoc t o.ctx l.1 (read (P q)).1) t)
        (clearWholes u (locBytes u o.ctx all))).setOp id { o with pieces := insertNat j o.pieces, done := o.done + n })) ∧
    (∀ q l ls, (c.src = none ∧ l = none ∨ ∃ e a, c.src = some e ∧ l = some a ∧
        engByte s o.core o.blk o.ctx (e.move (c.dist c.ss q) c.wrap) permR = .ok a) →
      c.dst.map (fun e => engByte s o.core o.blk o.ctx (e.move (c.dist c.ds q) c.wrap) permW) = ls.map (fun a => .ok a) →
      ∃ b, pieceByte s o c q = .ok b ∧ b.q = q ∧ b.src = l ∧ b.dst.map Prod.fst = ls) ∧
    (∀ st i0 i1 i2 i3, i0 < c.n0 → i1 < c.n1 → i2 < c.n2 →
      c.dist st (i0 + c.n0 * (i1 + c.n1 * (i2 + c.n2 * i3))) = i0 + i1 * st.getD 0 0 + i2 * st.getD 1 0 + i3 * st.getD 2 0) ∧
    (∀ ctx b v a off y, (∀ d, canonDesc s ctx a = .found d → writeLoc s ctx (.glob v a) b = homeWrite (useByte s d a true) d a [b] ∧
        readLoc s ctx (.glob v a) = homeByte s d a) ∧
      (mfind s.work.blocks k = some y → writeLoc s ctx (.spad k off) b = s.setBlk k { y with spad := mset 0 y.spad off b } ∧
        readLoc s ctx (.spad k off) = (mget y.spad 0 off, false)) ∧
      writeLoc s ctx (.cst k off) b = { s with mem := { s.mem with cst := mset 0 s.mem.cst (cstKey k off) b } } ∧
      readLoc s ctx (.cst k off) = (mget s.mem.cst 0 (cstKey k off), false)) ∧
    (s.op id = some o → o.stage = 0 → o.ended = false → o.cancel = false → o.pieces.contains j = false → j < o.count → parseCopy o.code o.cmd = some c →
      exec (.copyPiece id j) s = .next (performPiece s id o c j)) ∧
    (s.op id = some o → (o.stage ≠ 0 ∨ o.ended = true ∨ o.code ≠ 0xD3 ∧ (o.cancel = true ∨ o.unperformed = none)) →
      devHolds s (opAccs s o.stage o.task (o.close.getD o.result).1) = none → exec (.copyComplete id) s = .next (completeOp s id o)) ∧
    (s.op id = some o → o.stage = 0 → (o.ended = true ∨ o.code ≠ 0xD3 ∧ (o.cancel = true ∨ o.unperformed = none)) → o.close = none →
      exec (.copyComplete id) s = .next (freeLocks (s.setOp id { o with stage := 1, close := some o.result }) o.core id)) ∧
    (s.op id = some o → o.stage = 1 → ∀ r, o.close = some r → exec (.copyComplete id) s = .next
      ((opCharges s o).foldl (fun t c => charge t (some c.1) c.2 (r.1 != 1)) (s.setOp id { o with stage := 2 }))) ∧
    (s.op id = some o → o.stage = 2 → o.task = 0 → ∀ st cause off, o.close = some (st, cause, off) →
      let t := putToken s o.core o.wslot o.live o.tk (tokenWord st cause off)
      exec (.copyComplete id) s = .next { t with work := { t.work with ops := mdel t.work.ops id } }) ∧
    (s.part id = some x → x.stage = 0 → x.cancel = none → (x.runs ≤ x.next → exec (.exchangeRunEmit id) s = .next (sendEnds s id)) ∧
      (let t := emitRun s id x
       ∀ y, x.next < x.runs → t.part id = some y → y.next < y.runs →
        (List.range (y.runs - y.next)).any (fun q => (y.run t (y.next + q)).mem == (x.run s x.next).mem) = true →
        exec (.exchangeRunEmit id) s = .next t) ∧
      (let t := emitRun s id x
       ∀ y, x.next < x.runs → t.part id = some y → y.next < y.runs → y.next ≠ x.next →
        (List.range (y.runs - y.next)).any (fun q => (y.run t (y.next + q)).mem == (x.run s x.next).mem) = false →
        exec (.exchangeRunEmit id) s = .next (sendEnd t id (x.run s x.next).mem))) ∧
    (s.part id = some x → x.stage = 0 → x.close = none → x.cancel = none → ∀ v, x.verdict s = some v →
      exec (.exchangePartComplete id) s = .next (endPart
        (if v.1 = 2 ∧ x.bad = 0 ∧ v.2.2 ≠ 0x1FFFFFF then recvLog s x else s) id x v.1 v.2.1 v.2.2)) ∧
    (s.part id = some x → x.stage = 0 → x.cancel = some 0 → x.settled = true → exec (.xgCancelComplete id) s = .next (endPart s id x 3 0
      (((List.range x.runs).find? (fun q => mfind x.stat q != some 1)).getD x.runs))) ∧
    (s.part id = some x → x.stage = 2 → ∀ st cause off, x.close = some (st, cause, off) → x.task = 0 →
      exec (if x.cancel.isSome then .xgCancelComplete id else .exchangePartComplete id) s = .next (putToken
        { s with work := { s.work with
          parts := mdel s.work.parts id
          xgDead := if x.cancel.isSome then s.work.xgDead ++ [(x.ctx, x.tag)] else s.work.xgDead } }
        x.core x.wslot x.live x.tk (tokenWord st cause off))) ∧
    (mfind s.fab.inbox k = some p → incOk s p = true → p.dst = s.fab.self →
      (p.kind = 5 → (seenRuns s p.ctx p.tag).contains (p.src, p.wtag) = true → exec (.exchangeRun k) s = .next (takeIn s k)) ∧
      (p.kind = 5 → (seenRuns s p.ctx p.tag).contains (p.src, p.wtag) = false → hasPlace s p.ctx p.tag = true →
        let bs := (p.body.drop 16).take (fieldAt p.body 0 4)
        handleCorrupt s p.ctx (p.addr % 2 ^ 16) = false → ∀ d, runCheck s p.ctx (p.addr % 2 ^ 16) (p.addr / 2 ^ 16) bs.length = .ok d → runWait s p.ctx d (p.addr / 2 ^ 16) bs = none →
        ∀ t, landRun (takeIn s k) p.ctx p.tag p.src p.wtag (p.addr % 2 ^ 16) (p.addr / 2 ^ 16) bs = (t, 0) →
        exec (.exchangeRun k) s = .next (sendPacket t
          (newPacket t 7 0 p.src false p.stream p.seq p.ctx p.tag p.wtag 0 (copies 16 0))).2) ∧
      (p.kind = 5 → (seenRuns s p.ctx p.tag).contains (p.src, p.wtag) = false → hasPlace s p.ctx p.tag = false →
        exec (.exchangeRun k) s = .next (refuse s k p)) ∧
      (p.kind = 6 → partFor s p.ctx p.tag = some (id, x) →
        exec (.exchangeEnd k) s = .next ((takeIn s k).setPart id { x with ends := mput x.ends p.src p.addr }))) ∧
    (mfind s.fab.inbox k = some p → p.kind = 7 → p.tinc = s.fab.inc → ∀ r,
      s.fab.runs.find? (fun r => r.2.2.2.1.ctx == p.ctx && r.2.2.2.1.tag == p.tag && r.2.2.2.1.wtag == p.wtag && r.2.2.2.1.dst == p.src) = some r →
      exec (.runAcknowledgment k) s = .next (setStat (takeIn { s with fab := { s.fab with runs := mdel s.fab.runs r.1 } } k) r.2.1 r.2.2.1
        (if fieldAt p.body 0 1 = 0 then 1 else 2 + fieldAt p.body 0 1))) ∧
    (∀ ctx tag src xid off bs d, partFor s ctx tag = some (id, x) → runCheck s ctx xid off bs.length = .ok d → runNarrow s ctx d off bs = false →
      let v := writeRun s ctx d off bs
      let y := rxCharge v { x with got := mput x.got src (mget x.got 0 src + bs.length), seen := x.seen ++ [(src, j)]
                                   written := x.written + bs.length } bs.length false
      landRun s ctx tag src j xid off bs = (y.1.setPart id y.2, 0)) ∧
    (∀ r, s.fab.runs.find? (fun r => r.2.1 == id && r.2.2.1 == j) = some r → s.part id = some x → mfind x.stat j = some 100 →
      let t := (sendPacket s r.2.2.2.1).2
      exec (.runResend id j) s = .next (setStat { t with fab := { t.fab with
        runs := mput t.fab.runs r.1 (id, j, { r.2.2.2.1 with via := (sendPacket s r.2.2.2.1).1.getD 32 }, r.2.2.2.2) } } id j 0)) ∧
    (∀ q, s.post k = some q → q.since + respTimeout s ≤ s.plat.time → exec (.postedTimeout k) s = .next (failPost s k 4)) ∧
    (∀ r y, s.post k = none → mfind s.fab.runs k = some r → r.2.2.2 + respTimeout s ≤ s.plat.time → (failRun s k 4).part r.1 = some y →
      exec (.postedTimeout k) s = .next ((failRun s k 4).setPart r.1 { y with removed := y.removed ++ [r.2.2.1.dst] })) ∧
    (mfind s.work.mops id = some m → oldestMop s id m = true → mopWait s m = none →
      let t := performMop ((mopScaleVas s m).foldl (fun t a => useScale t m.core (s.blk m.blk).ctx a) s) m
      exec (.matrixComplete id) s = .next ({ t with work := { t.work with mops := mdel t.work.mops id } }.updWarp m.core m.wslot
        (fun w => { w with tl := w.tl - 1 })))

/-- R83 to R86, R338 to R343, R345, R347 to R349: what the matrix words leave when they are performed. `tzero` leaves +0 in all 4,096 elements
of its tile, and `tadd` the binary32 sum rounded to nearest even of both tiles in every element, also when the tiles are one; an `mma` leaves
in each of its elements the accumulator after every block or chunk of k, the image's element by its form and both scales, on each core of a
pair by its own image; `tmov` gives a row to a register pair, `tld` fills rows from scratchpad, `tst` writes rows to it as converted bytes,
and `wbld` writes its source bytes and scale codes into the weight buffer (whose layout cannot be observed, log entry 42). Every other tile
and element keeps its contents. A byte that a word took before its turn (mopByte, R350) stands for what it read. -/
def Obligations.TilesAreZeroedAndAdded : Prop :=
  ∀ (s : State) (id : Nat) (o : MOp), mfind s.work.mops id = some o → oldestMop s id o = true →
    let k := s.core o.core
    let a (n : Nat) : Nat := (o.args.getD n 0).toNat
    let writes (f : Nat → Nat → Nat) : Prop := ∃ t, exec (.matrixComplete id) s = .next t ∧ ∀ q m n, m < 64 → n < 64 →
      (t.core o.core).tile q m n = if q = o.t then f m n else k.tile q m n
    (o.code = 0xC8 → writes (fun _ _ => 0)) ∧
    (o.code = 0xCB → writes (fun m n => fadd f32 .rne (k.tile o.t m n) (k.tile o.ts m n) % 2 ^ 32)) ∧
    (o.code = 0xCC → bitsOf (a 1) 7 6 + bitsOf (a 1) 13 6 < 64 → let row0 := bitsOf (a 1) 7 6
      writes (fun m n => if row0 ≤ m ∧ m ≤ row0 + bitsOf (a 1) 13 6 then leNat (mopBytes s o (a 0 + (m - row0) * a 2 + 4 * n) 4) else k.tile o.t m n)) ∧
    (o.code = 0xC9 → o.live = true → o.landed = [] → ∃ t, exec (.matrixComplete id) s = .next t ∧
      let put (w : Warp) (r base : Nat) : Warp := w.setV r o.em (fun i => BitVec.ofNat 32 (k.tile o.t (bitsOf (a 0) 7 6) (base + i)))
      let w := put (put (s.warp o.core o.wslot) (bitsOf (a 0) 0 7) 0) (bitsOf (a 0) 0 7 + 1) 32
      t.warp o.core o.wslot = { w with tl := w.tl - 1 }) ∧
    (∀ x, o.code = 0xCA → o.later = [] → mfind s.work.blocks o.blk = some x → ∃ t, exec (.matrixComplete id) s = .next t ∧
      let es := tstBytes (bitsOf (a 1) 0 3)
      let byRow (r col : Nat) : Nat := tstCode (bitsOf (a 1) 0 3) (modeOf (bitsOf (a 1) 3 3) (stochasticHash (o.args.getD 3 0) (col % 32)
        (2 * (bitsOf (a 1) 7 6 + r) + col / 32))) (bitsOf (a 1) 6 1 == 1) (k.tile o.t (bitsOf (a 1) 7 6 + r) col)
      (t.blk o.blk).spad = (List.range (bitsOf (a 1) 13 6 + 1)).foldl (fun m r => msetRange 0 m (a 0 + r * a 2)
        (((List.range 64).map (fun col => leBytes es (byRow r col))).flatten)) x.spad) ∧
    (mopWait s o = none → let u := (mopScaleVas s o).foldl (fun t a => useScale t o.core (s.blk o.blk).ctx a) s
      (∀ i v glob vas, 0xC5 ≤ o.code → o.code ≤ 0xC7 → o.img = some i → wbldUse u o i = some (v, glob, vas) →
        ∃ t, exec (.matrixComplete id) s = .next t ∧ (t.core o.core).wbuf = msetRange 0 k.wbuf i.off (imageHeader i ++
          vas.map (fun p => if glob then (wbldByte v o true p).1 else mopByte v o p) ++
          (wbldCodes v o i).map (fun c => BitVec.ofNat 8 c.1))) ∧
      (o.code ≤ 0xC4 → let x := parseMma (o.code - 0xC0) o.args
        let es := elemBytes x.fmt
        let b := blockK x.fmt
        let scale (m j : Nat) : Nat := if x.scaled then (mopScale u o x.org (m * x.ast + 32 * j)).1 else 127
        let elem (c : Core) (i : Image) (m n : Nat) : Nat := (List.range ((x.k + b - 1) / b)).foldl (fun acc j =>
            accumulate acc (blockValue x.fmt (b == 32) (scale m j) (imageScale c i j n) ((List.range (min b (x.k - b * j))).map (fun r =>
              elemProduct x.fmt (leNat (mopBytes u o (x.aoff + m * x.ast + (b * j + r) * es) es)) (imageCode c i (b * j + r) n)))))
          (if x.z then 0 else c.tile o.t m n)
        let becomes (c : Nat) (i : Image) (nc : Nat) (t : State) : Prop := ∀ q m n, m < 64 → n < 64 → (t.core c).tile q m n =
          if q = o.t ∧ m < x.m ∧ n < nc then elem (s.core c) i m n % 2 ^ 32 else (s.core c).tile q m n
        (∀ i, o.img = some i → o.partner = none → x.n ≤ 64 → ∃ t, exec (.matrixComplete id) s = .next t ∧ becomes o.core i x.n t) ∧
        (∀ i c j, o.img = some i → o.partner = some c → o.pimg = some j → c ≠ o.core → ∃ t, exec (.matrixComplete id) s = .next t ∧
          becomes o.core i (x.n / 2) t ∧ becomes c j (x.n / 2) t)))

/-- R288, R290 to R292, R295, R298, R305 to R307: a waiting replay issues when rm allows. A request is dropped as stale, dropped as a second
copy of a group packet applied here (log entry 105), refused for want of a stream entry, held behind earlier packets of its stream, or
performed: a remote store leaves its bytes at home, `ratom` and `rred` f(old), and a load and an `ratom` answer the old value; an item whose
check fails answers 3 (log entry 39 for a sector with an error). A reply gives its lanes their data; an acknowledgment ends a post; a
refusal, which echoes the packet it refuses, has it sent again; an item unanswered for the response timeout fails with code 4. That a
target knows which packets are under way is a turn of the schedule, log entry 40. -/
def Obligations.RemoteEvents : Prop :=
  ∀ (s : State) (k core ws id i lane : Nat) (p : Packet) (r : RWord) (y : Replay) (q : Post) (t u : State) (it : RItem),
    (sendReplays s core ws = t → pendingWord t core ws = some (id, r) → (t.warp core ws).rm < 6 →
      exec (.remoteReplay core ws) s = .next (sendReplays (issueReplay t id r) core ws)) ∧
    (mfind s.fab.inbox k = some p → incOk s p = false → p.kind = 1 ∨ p.kind = 5 ∨ p.kind = 6 →
      ∃ t, t = dropStale s k p ∧ (p.kind = 1 → exec (.remoteRequest k) s = .next t) ∧ (p.kind = 5 → exec (.exchangeRun k) s = .next t) ∧
        (p.kind = 6 → exec (.exchangeEnd k) s = .next t)) ∧
    (mfind s.fab.inbox k = some p → p.kind = 1 → incOk s p = true →
      let goes (v : State) := exec (.remoteRequest k) s = .next v
      (forMe s p = false → goes (dropStale s k p)) ∧ (forMe s p = true → secondCopy s p = true → goes (takeIn s k)) ∧
      (forMe s p = true → secondCopy s p = false → (streamEntry s p = none → goes (refuse s k p)) ∧
        (streamEntry s p = some t → (streamHeld t k p = true → goes t) ∧
          (streamHeld t k p = false → (∀ v, itemsStopped t p (openItems t k p) = some v → goes v) ∧
            (itemsStopped t p (openItems t k p) = none → goes (performRequest t k p)))))) ∧
    (∀ x st v, openItems s k p = [x] → begunItems s k = [] →
      performItem (takeIn { s with free := s.free + 1 } k) p x = (u, st, v) → st = 0 →
      performRequest s k p = (sendPacket (markApplied u p) (replyTo u p [(x.lane, st, v)])).2) ∧
    (∀ (x : Item), let op := p.op % 8
      let w := itemSize op p.lit
      let wr := decide (3 ≤ op)
      (itemCheck s p.ctx x.va w (remotePerm op) = none → performItem s p x = (s, 3, 0)) ∧
      (∀ d va, itemCheck s p.ctx x.va w (remotePerm op) = some (d, va) →
        let v := useByte s d va wr
        let l := (List.range w).map (fun i => homeByte v d (va + i))
        let old := leNat (l.map Prod.fst)
        (List.range w).any (fun i => byteDead v d (va + i) wr) = false → l.any Prod.snd = false → narrowError v d va w = false →
        (op ≤ 2 → performItem s p x = (v, 0, old)) ∧
        (op = 3 ∨ op = 4 ∨ op = 7 → performItem s p x = (homeWrite v d va (leBytes w x.data), 0, old)) ∧
        (op = 5 ∨ op = 6 ∧ remoteOp p.lit ≠ 14 →
          performItem s p x = (homeWrite v d va (leBytes w (atomNew (remoteOp p.lit) old x.data)), 0, old)) ∧
        (op = 6 → remoteOp p.lit = 14 → performItem s p x = (homeWrite v d va (leBytes w
          (fadd bf16 .rne (old % 65536) (x.data % 65536) + 65536 * fadd bf16 .rne (old / 65536 % 65536) (x.data / 65536 % 65536))), 0, old)))) ∧
    (mfind s.fab.inbox k = some p → p.kind = 2 → p.tinc = s.fab.inc → answeredReplay s p = some (i, y) → s.rword y.word = some r →
      let rs := (p.answers r.w).filter (fun x => y.items.any (fun t => t.lane == x.1 && t.st.isNone && t.va / 128 * 128 == p.addr))
      rs ≠ [] → exec (.remoteReply k) s = .next (answerItems (takeIn s k) i y rs)) ∧
    (∀ st v, s.rword y.word = some r → r.live = true → (r.op = 5 → r.ord % 2 = 0) → y.items.find? (fun x => x.lane == lane) = some it → it.st = none →
      y.items.any (fun x => x.lane != lane && x.st.isNone) = true →
      answerItems s i y [(lane, st, v)] = (s.updWarp r.core r.wslot (fun w => w.putGroup r.vd r.w lane v false (st != 0))).setReplay i
        { y with items := y.items.map (fun x => if x.lane = lane then { x with st := some st } else x) }) ∧
    (mfind s.fab.inbox k = some p → p.kind = 3 → p.tinc = s.fab.inc → namedPost s p = some (i, q) → q.wait.contains p.src = true →
      ((p.answers 0).any (fun x => x.2.1 != 0) = true → exec (.remoteAcknowledgment k) s = .next (failPost (takeIn s k) i 3)) ∧
      ((p.answers 0).any (fun x => x.2.1 != 0) = false → (q.wait.filter (· != p.src) = [] →
          exec (.remoteAcknowledgment k) s = .next (endPost (takeIn s k) i q)) ∧
        (q.wait.filter (· != p.src) ≠ [] → exec (.remoteAcknowledgment k) s = .next
          ((takeIn s k).setPost i { q with wait := q.wait.filter (· != p.src) })))) ∧
    (mfind s.fab.inbox k = some p → p.kind = 4 → p.tinc = s.fab.inc → p.src = s.fab.self →
      (s.fab.posts.find? (fun q => p.echoes q.2.pkt) = some (i, q) →
        (sendPacket (takeIn s k) q.pkt = (some id, u) → exec (.refusal k) s = .next (u.setPost i { q with plane := id })) ∧
        (sendPacket (takeIn s k) q.pkt = (none, u) → exec (.refusal k) s = .next (failPost u i 1))) ∧
      (s.fab.posts.find? (fun q => p.echoes q.2.pkt) = none →
        (s.fab.replays.find? (fun y => y.2.sent && y.2.pkts.any (fun k => p.echoes k.1)) = some (i, y) →
          exec (.refusal k) s = .next (resendOf (takeIn s k) i y p)) ∧
        (s.fab.replays.find? (fun y => y.2.sent && y.2.pkts.any (fun k => p.echoes k.1)) = none →
          exec (.refusal k) s = .next (refuseRun (takeIn s k) p)))) ∧
    (mfind s.fab.replays i = some y → y.items.find? (fun x => x.lane == lane && x.st.isNone) = some it → y.sent = true →
      y.since + respTimeout s ≤ s.plat.time → ∀ g, y.pkts.find? (fun h => h.1.addr == it.va / 128 * 128) = some g →
      exec (.responseTimeout i lane) s = .next (answerItems (fabricLog s g.1 g.1.dst 4 g.2) i y [(lane, 4, 0)]))

/-- R301, R302, R304: the link steps of a plane: a flit that passes its checks is taken, one that does not asks for a replay, which
goes back or retrains; heartbeats and idle flits go out; a link silent for 10 µs retrains; a training that lasts 2 ms takes the
link down and fails the posts on it; a training that ends restarts the numbers with the flits still held. -/
def Obligations.LinkEvents : Prop :=
  ∀ (s : State) (plane init e : Nat) (bytes : List Byte), plane < 32 →
    let l := s.link plane
    let now := s.plat.time
    (l.mode = 0 → bytes.length = 256 → (l.takes bytes = true → exec (.flitReceive plane bytes) s = .next (takeFlit s plane bytes)) ∧
      (l.takes bytes = false → l.drop = false → exec (.flitReceive plane bytes) s = .next (s.setLink plane (l.askReplay now)))) ∧
    (l.ask = some e → (e = l.q ∨ l.held.any (fun f => f.num == e) = true →
        exec (.replayRequest plane) s = .next (s.setLink plane { l with ask := none, tx := now })) ∧
      (e ≠ l.q → l.held.any (fun f => f.num == e) = false → exec (.replayRequest plane) s = .next (s.setLink plane (l.retrain now)))) ∧
    exec (.heartbeat plane) s = .next (s.setLink plane (l.control now 2
      (copies 4 0 ++ leBytes 8 now ++ leBytes 2 (s.fab.self % 4096) ++ leBytes 2 s.fab.inc))) ∧
    (l.mode = 0 → l.rx + 10000 ≤ now → exec (.linkIdleTimeout plane) s = .next (s.setLink plane (l.retrain now))) ∧
    (l.tx + 100 ≤ now → l.room = true → exec (.idleFlit plane) s = .next (s.setLink plane (l.send now 0 0 0 0 []))) ∧
    (linksLive s = true → l.mode = 1 → l.since + 2000000 ≤ now → exec (.linkDown plane) s = .next ((mkeys (s.fab.posts.filter (fun q => q.2.plane == plane))).foldl
      (fun s i => failPost s i 1) (s.setLink plane { mode := 2, since := now }))) ∧
    (linksLive s = true → l.mode = 1 → init ≤ 32767 → ∃ t, exec (.linkRetrain plane init) s = .next t ∧ t.mem = s.mem ∧ t.warps = s.warps ∧
      (l.queue = [] → t.link plane = { mode := 0, q := l.held.length, held := renumber 0 l.held, queue := [], init := init, part := l.part, sent := (renumber 0 l.held).foldl (fun m f => mset 0 m f.vc (mget m 0 f.vc + f.slots)) [], turn := l.held.length % 4, rx := now, tx := now }))

/-- R107, R359, R361 to R366, R370, R371: the work scheduler's steps: a doorbell writes the tail, a queue's record launches a
task and moves the head, ready tasks age and become due, a task whose work is done retires, a warp frees its slot, a group
preempted is saved or waits. The device's own accesses wait as any access does (devHolds, at port 0: log entry 96). A record that cannot be
read is taken as zeros by log entry 45, what a group's save waits for (blockQuiet) is log entry 54, and the energy charged at a block's end
(measuredEnergy) is the model's choice, log entry 89. -/
def Obligations.WorkEvents : Prop :=
  ∀ (s : State) (i q port tail core ws part g cluster : Nat) (counts : List Nat) (t : Task) (p : Preempt) (x : Group) (w : Warp),
    (s.plat.qroot ≠ 0 → q < queueCount → port < 2 → hostUp s port = true → tail < 2 ^ 32 →
      let n := (tail + 2 ^ 32 - (queueAt s q).head) % 2 ^ 32
      (n ≤ 2 ^ (queueAt s q).n → exec (.doorbell port q tail) s = .next (pwrite s (s.plat.qroot + 32 * q + 0x14) (leBytes 4 tail))) ∧
      (2 ^ (queueAt s q).n < n → exec (.doorbell port q tail) s = .next (hostError s 1 (0x20 + port) (queueAt s q).ctx q tail 0))) ∧
    (s.plat.devErr = false → s.plat.boot = 4 → part < 4 → nextQueue s part = some q → q < queueCount →
      let u := { s with work := { s.work with lastQ := mset 0 s.work.lastQ part (q + 1) } }
      let y := queueAt u q
      let r := (devRead u y.ctx (y.ring + 64 * (y.head % 2 ^ y.n)) 64).getD (copies 64 0)
      let accs := readOf y.ctx (y.ring + 64 * (y.head % 2 ^ y.n)) 64 ++ launchAccs u y.ctx r
      let v := devUses u accs
      corruptAt u y.ctx (y.ring + 64 * (y.head % 2 ^ y.n)) 64 = false → launchCorrupt u y.ctx r = false → devHolds u accs = none →
      exec (.queueTake part) s = .next (settleReady (launchRecord (pwrite v (v.plat.qroot + 32 * q + 0x10) (leBytes 4 (y.head + 1))) y.ctx y.region r))) ∧
    (∀ y rest, s.plat.devErr = false → s.plat.boot = 4 → part < 4 → nextQueue s part = some q → queueCount ≤ q →
      let u := { s with work := { s.work with lastQ := mset 0 s.work.lastQ part (q + 1) } }
      mget s.work.devq [] (q - queueCount) = y :: rest → launchCorrupt u y.1 y.2 = false → devHolds u (launchAccs u y.1 y.2) = none →
      let v := devUses u (launchAccs u y.1 y.2)
      exec (.queueTake part) s = .next (settleReady (launchRecord { v with work := { v.work with
        devq := mset [] v.work.devq (q - queueCount) rest } } y.1 (q - queueCount) y.2))) ∧
    (s.task i = some t → waiting s (i, t) = true → taskPrio s t < 15 → t.since + 1000000 * (t.aged + 1) ≤ s.plat.time →
      exec (.priorityAging i) s = .next (settleReady (s.setTask i { t with aged := t.aged + 1 }))) ∧
    (∀ rest y, readyList (settleReady s) part = (i, t) :: rest → t.first = some y → y + 8000000 ≤ (settleReady s).plat.time →
      exec (.taskDue part) s = .next ((settleReady s).setTask i { t with due := true })) ∧
    (s.task i = some t → corruptAt s t.ctx t.tcb 128 = true → exec (.taskRetire i) s = .next (deviceError s)) ∧
    (s.task i = some t → corruptAt s t.ctx t.tcb 128 = false → taskDone s i t = false → exec (.taskRetire i) s = .next s) ∧
    (s.task i = some t → corruptAt s t.ctx t.tcb 128 = false → retireCorrupt s t (taskTcb s t) = false → taskDone s i t = true →
      devHolds s (retireAccs s t (taskTcb s t)) = none →
      let u := devUses s (retireAccs s t (taskTcb s t))
      let y := taskTcb u t
      let v := retiredState (devWrite (devWrite u t.ctx (t.tcb + 0x1E) (leBytes 2 y.pred0)) t.ctx (t.tcb + 0x48) (copies 8 0)) t
      let v := v.setTask i { t with st := if t.failed then 4 else 3, groups := [], withdrawn := [], posts := [], stores := [] }
      let counts (v : State) := (successors u t y).foldl (fun s va => decPred s t va) v
      (t.graph = 0 → exec (.taskRetire i) s = .next (settleReady (dropTask
        (counts (completionWord v t.ctx t.cw t.cv (if t.failed then 1 else 0))) i))) ∧
      (t.graph ≠ 0 → exec (.taskRetire i) s = .next (settleReady (finishGraph (counts v) (t.graph - 1))))) ∧
    (ws < 32 → mayFree s core ws = true → devHolds s (freeAccs s (s.warp core ws).blk) = none →
      let y := devUses s (freeAccs s (s.warp core ws).blk)
      y.warp core ws = w →
      let v := leaveBehind y core ws (y.blk w.blk).task
      let u := (if w.killed then v else v.updBlk w.blk (fun b => { b with survived := true })).setWarp core ws {}
      exec (.warpFree core ws counts) s = .next (settleReady
        (if (blockWarps u w.blk).isEmpty then endBlock u w.blk (measuredEnergy u (u.blk w.blk) counts) else u))) ∧
    (mfind s.work.groups g = some x → x.pre = some p → (p.way = 1 ∨ p.way = 2) →
      (p.since + 50000 ≤ s.plat.time → exec (.rldSaveTimeout g) s = .next (s.setGroup g { x with pre := some { p with late := true } })) ∧
      (s.task x.task = some t → (liveBlocks s x).all (fun b => blockQuiet s b p.late) = true →
        let b := s.blk ((liveBlocks s x).headD 0)
        let slots := freeSlots s b.ctx b.region (liveBlocks s x).length
        poolCorrupt s b.ctx b.region = false → ((liveBlocks s x).length ≤ slots.length → devHolds s (saveAccs s (liveBlocks s x) slots) = none →
          exec (.saveComplete g) s = .next (saveGroup (devUses s (saveAccs s (liveBlocks s x) slots)) g x p t slots)) ∧
        (slots.length < (liveBlocks s x).length → p.watchdog = none → exec (.saveComplete g) s = .next
          (p.yield.foldl (fun s y => releaseYield s y 0) (s.setGroup g { x with pre := some { p with way := 0, yield := [] } }))))) ∧
    (s.plat.devErr = false → cluster < 4 → cluster = mget s.work.turn (nextTurn s (partOf s cluster) 4) (partOf s cluster) →
      let u := { s with work := { s.work with turn := mput s.work.turn (partOf s cluster) (nextTurn s (partOf s cluster) cluster) } }
      let l := readyList u (partOf s cluster)
      (mget s.plat.headroom 0 cluster = 0 → exec (.dispatchDecision cluster) s = .next u) ∧
      (mget s.plat.headroom 0 cluster ≠ 0 → exec (.dispatchDecision cluster) s =
        .next (settleReady (decideOver u cluster none (match l.find? (fun p => p.2.due) with | some d => [d] | none => l)))))

/-- R226, R227, R369, R376, R379, R386, R389: a blocked claim, yield or wfetch is served, a wfetch by the withdrawal of a block; a watchdog's
block is saved; a task that has waited 1 ms for resources preempts, of the groups that hold them and stand at least 4 below it, the youngest
of the lowest priority, and none where no such group holds them; an audit replay is placed on a core of another cluster, and its end
compares the signatures. Which group holds what a task awaits (awaits) is the model's reading, log entry 90; when a request waits for a stop
is log entry 67 and what a replay takes of its region's budget log entry 68. -/
def Obligations.BlockEvents : Prop :=
  ∀ (s : State) (b i idx n : Nat) (t : Task) (g h : Group) (f : Fetch) (a : Audit),
    (∀ core, mfind s.work.audits idx = some a → s.task a.task = some t → s.plat.devErr = false → a.coreB = none → core < 768 →
      let x := taskTcb s t
      let n := needOf s (coreCluster core) t x
      coreCluster core ≠ coreCluster a.blk.core → coreFits s core n = true → x.size = 1 → x.w = 1 → x.h = 1 →
      admits s t.region n.rblk n.bars n.bytes n.est [core] = true → corruptAt s t.ctx t.tcb 128 = false →
      (8 < x.sregs → corruptAt s t.ctx x.param (4 * (x.sregs - 8)) = false) → ∃ u y, exec (.auditReplay idx core) s = .next u ∧
        mfind u.work.audits idx = some y ∧ y.coreB = some core ∧ y.sigA = a.sigA ∧ (u.blk y.rblk).core = core ∧ (u.blk y.rblk).no = a.blk.no) ∧
    ((s.blk b).ended = false → exec (.claimGrant b) s = .next (serveClaims s b)) ∧
    (exec (.wyieldRelease b) s = .next (serveYield s b) ∧ (allYield s b = false → exec (.wyieldRelease b) s = .next s)) ∧
    (∀ y, allYield s b = true → mfind s.work.groups (s.blk b).grp = some y → y.pre = none → (s.blk b).isReplay = false →
      let due := s.work.tasks.any (fun p => p.2.due && p.2.part == partOf s y.cluster &&
        awaits s p.1 p.2 (mkeys s.work.groups) (goingGroups s) (s.blk b).grp)
      exec (.wyieldRelease b) s = .next (if due then requestSave s (s.blk b).grp y none [b] else releaseYield s b 0)) ∧
    (mfind s.work.fetches i = some f → corruptAt s f.ctx f.tcb 128 = false → devHolds s (changeOf f.ctx f.tcb 128) = none →
      let v := devUses s (changeOf f.ctx f.tcb 128)
      let u := { v with work := { v.work with fetches := mdel v.work.fetches i } }
      let found := (armedTask u f.ctx f.tcb).bind (fun p => (freeBlock p.2 (taskTcb u p.2)).map (fun b => (p, b)))
      (found = none → exec (.wfetchFill i) s = .next (fillMailbox u f 0xFFFFFFFF 1)) ∧
      (∀ k y no, found = some ((k, y), no) → exec (.wfetchFill i) s = .next (settleReady (fillMailbox
        ((tcbCount (u.setTask k { y with withdrawn := y.withdrawn ++ [no] }) y 0x48 1).updBlk f.blk
          (fun x => { x with took := x.took ++ [(k, no, false)] })) f no 0)))) ∧
    (∀ d, (s.blk b).ended = false → expired s (s.blk b) = some d → mfind s.work.groups (s.blk b).grp = some g → g.pre = none →
      (s.blk b).isReplay = false → exec (.watchdogExpire b) s = .next (requestSave s (s.blk b).grp g (some (b, d)) []) ∧
      (groupStopped s g = false → requestSave s (s.blk b).grp g (some (b, d)) [] = beginSave s (s.blk b).grp g (some (b, d)) [])) ∧
    (let u := noteWaits s
     u.task i = some t →
      ((∀ x, t.waits = some x → s.plat.time < x + 1000000) → exec (.preemptionStarvation i) s = .next u) ∧
      ∀ x, t.waits = some x → x + 1000000 ≤ s.plat.time →
        let prio (g : Group) : Nat := match u.task g.task with | some y => taskPrio u y | none => 15
        let placed (g : Group) : Nat := (u.blk (g.blocks.headD 0)).began
        let l := u.work.groups.filter (fun p => partOf u p.2.cluster == t.part && p.2.pre.isNone && !(u.blk (p.2.blocks.headD 0)).isReplay &&
          decide (prio p.2 + 4 ≤ taskPrio u t))
        let cand := l.filter (fun p => awaits u i t (mkeys l) (goingGroups u) p.1)
        (cand = [] → exec (.preemptionStarvation i) s = .next u) ∧
        ((n, h) ∈ cand → (∀ p ∈ cand, p ≠ (n, h) → prio h < prio p.2 ∨ prio h = prio p.2 ∧ placed p.2 < placed h) →
          exec (.preemptionStarvation i) s = .next (preempt u n 100))) ∧
    (mfind s.work.audits idx = some a → a.coreB.isSome = true → (s.blk a.rblk).ended = true → s.task a.task = some t → a.result = 0 →
      let plain (u : State) := endGroup ({ u with work := { u.work with audits := mdel u.work.audits idx } }.setTask a.task
        { t with audits := t.audits - 1 }) (s.blk a.rblk).grp
      ((s.blk a.rblk).sig = a.sigA → exec (.auditReplayEnd idx) s = .next (plain { s with plat := { s.plat with matched := s.plat.matched + 1 } })) ∧
      ((s.blk a.rblk).sig ≠ a.sigA → exec (.auditReplayEnd idx) s =
        .next (plain (auditRecord s t.tcb a.blk.no 1 a.blk.core (a.coreB.getD 0) a.sigA (s.blk a.rblk).sig))))

/-- R368, R398, R403, R405: a reset restarts the boot; each boot step verifies or stops; another package's throttle proposal of an allowed
frequency, at least 20 µs ahead, is kept (the dies of this package form their own, log entry 63); an energy window, once in each 10 µs, sets
the headroom from P_lim = min(3200, 3200 − 80 (inlet − 55), 3200 − heat); an inlet of 60 °C or a junction of 110 °C is a device error. Beside
the rules stand the model's choices: a reset keeps memory and the monotonic counter (log entry 61), heat grows by 100 W in each window with a
stack in band 2 and which clusters hold work (log entry 62), and the verdict on firmware is an input (log entry 5). -/
def Obligations.PlatformEvents : Prop :=
  ∀ (s : State) (img : BootImage) (group member window mhz inlet junction : Nat) (meas : EnergyMeas),
    (∃ t, exec .reset s = .next t ∧ t.mem.bytes = s.mem.bytes ∧ t.plat.counter = s.plat.counter ∧ t.plat.boot = 0 ∧ t.warps = [] ∧
      t.cores = [] ∧ t.plat.devErr = false) ∧
    (s.plat.failed = 0 → s.plat.boot = 0 → ∃ t, exec (.bootStep img) s = .next t ∧ t.plat.boot = 1) ∧
    (s.plat.failed = 0 → s.plat.boot = 1 → ∃ t, exec (.bootStep img) s = .next t ∧
      (img.firmwareOk = true → t.plat.boot = 2) ∧ (img.firmwareOk = false → t.plat.boot = 1 ∧ t.plat.failed = 1)) ∧
    (s.plat.failed = 0 → s.plat.boot = 2 → ∃ t, exec (.bootStep img) s = .next t ∧
      (imageVerifies s img = true → t.plat.boot = 3 ∧ t.plat.counter = img.version ∧ t.plat.image = some img) ∧
      (imageVerifies s img = false → t.plat.boot = 2 ∧ t.plat.failed = 2)) ∧
    (0 < group → group < 4096 → member / 4 ≠ s.fab.self → 1200 ≤ mhz → mhz ≤ 2700 → mhz % 100 = 0 → s.plat.time + 20000 ≤ 10000 * window →
      exec (.throttleProposal group member window mhz) s =
        .next { s with plat := { s.plat with props := s.plat.props ++ [(propKey group window, member, mhz / 100)] } }) ∧
    (3 ≤ s.plat.boot → s.plat.failed = 0 → s.plat.window = some (s.plat.time / 10000) → exec (.energyWindow meas) s = .next s) ∧
    (3 ≤ s.plat.boot → s.plat.failed = 0 → s.plat.window ≠ some (s.plat.time / 10000) →
      let heat := if ∃ b ∈ s.mem.bands, 2 ≤ b.2 then s.plat.hot + 100 else 0
      ∃ t, exec (.energyWindow meas) s = .next t ∧ t.plat.hot = heat ∧ t.warps = s.warps ∧ t.work = s.work ∧
        ∀ c, c < 4 → mget t.plat.headroom 0 c = (if holdsWork s c then
          (10 * min 3200 (min (3200 - 80 * (meas.inlet - 55)) (3200 - heat)) - meas.fixed) / ((List.range 4).filter (holdsWork s)).length else 0)) ∧
    (60 ≤ inlet ∨ 110 ≤ junction → exec (.inletOvertemp inlet junction) s = .next (deviceError s) ∧ (deviceError s).plat.devErr = true)

/-- R280, R391, R392: the host port: a register of BAR0 reads as its fields stand, and as 0 where none is; a write of a table root
takes effect in boot step 3 and is a host error in any other; a host load or store is performed at the places its window gives, all its
parts in one step (the model's choice, log entry 57), and answered; a port that serves nothing answers nothing. -/
def Obligations.HostPortEvents : Prop :=
  ∀ (s : State) (port addr len : Nat) (v : DWord) (wr : Option (List Byte)),
    (port < 2 → hostUp s port = true →
      (s.plat.boot = 3 →
        exec (.bar0Write port 0x00 v) s = .next { s with plat := { s.plat with xroot := lowBits v 52 } } ∧
        exec (.bar0Write port 0x08 v) s = .next { s with plat := { s.plat with qroot := lowBits v 52 } } ∧
        exec (.bar0Write port 0x10 v) s = .next { s with plat := { s.plat with mqroot := lowBits v 52, mqn := bitsOf v.toNat 52 5 } }) ∧
      (s.plat.boot ≠ 3 → ∀ off, off = 0x00 ∨ off = 0x08 ∨ off = 0x10 →
        exec (.bar0Write port off v) s = .next (hostError s 6 (0x20 + port) 0 off 0 v.toNat)) ∧
      exec (.bar0Write port 0x18 v) s = .next { s with plat := { s.plat with mqtail := lowBits v 32 } } ∧
      exec (.bar0Write port 0x20 v) s = .next { s with plat := { s.plat with logroot := lowBits v 52 } }) ∧
    (∀ m, hostServed s port = true → s.plat.image = some m →
      (m.cxlPorts.getD port false = true → addr % 64 = 0 → wr = none ∨ (∃ b, wr = some b ∧ b.length = 64) →
        (hostPart s port false addr 64 (wr.map (fun b => (b.drop 0).take 64))).toOption.isSome →
        ∀ t l, performHost port false wr [(addr, 0, 64)] s [] = .ok (t, l) →
        exec (.cxlMemRequest port addr wr) s = .next { t with plat := { t.plat with reply := l } }) ∧
      (wr = none ∨ (∃ b, wr = some b ∧ b.length = len) → addr + len ≤ 2 ^ m.bar2Log →
        (splitHost addr len).all (fun p => (hostPart s port true p.1 p.2.2 (wr.map (fun b => (b.drop p.2.1).take p.2.2))).toOption.isSome) = true →
        ∀ t l, performHost port true wr (splitHost addr len) s [] = .ok (t, l) →
        exec (.bar2Request port addr len wr) s = .next { t with plat := { t.plat with reply := l } })) ∧
    (∀ turns, s.mem.upsets = [] → let reads (off n : Nat) := ∃ t, step { s with schedule := .bar0Read off :: turns } = .next t ∧ t.mem = s.mem ∧
        t.plat.reply = [.data (leBytes 8 n)]
      reads 0x18 (s.plat.mqtail + 2 ^ 32 * s.plat.mqhead) ∧ reads 0x28 (s.plat.boot + 2 ^ 8 * s.plat.failed + 2 ^ 16 * s.plat.devErr.toNat) ∧
      reads 0x30 s.plat.time ∧ reads 0x100000 0) ∧
    (hostServed s port = false → exec (.cxlMemRequest port addr wr) s = .next s ∧ exec (.bar2Request port addr len wr) s = .next s)

/-- R178, R187, R369, R393, R394, R401: a command of the management ring takes effect and answers status 0, or answers the status its rule
names, and the head moves to the next entry; an unknown one answers 0xFF. That a nonzero byte which a command does not name answers 2 is
log entry 58, and that a physical copy reads all its bytes first and answers 2 where no memory is log entry 60, both the model's. -/
def Obligations.ManagementCommands : Prop :=
  ∀ (s t : State) (e : LiveExt) (n : Nat), mqReady s = true →
    let c := pread s (mqSlot s) 64
    let is (n : Nat) (named : List (Nat × Nat)) := (c.getD 0 0).toNat = n ∧ unnamedZero c named = true
    let answers (i : Instr) (t : State) (st : Nat) := exec i s = .next (mqDone t st)
    (is 1 [(0x08, 4), (0x10, 8)] → createExtent s (opndBits c 0x08 0 16) (opndBits c 0x08 16 16) (opndBits c 0x10 0 52) = .ok t →
      answers .extentCreate t 0) ∧
    (is 2 [(0x08, 4)] → liveExt s (opndBits c 0x08 0 16) (opndBits c 0x08 16 16) = none → answers .extentRetire s 4) ∧
    (is 2 [(0x08, 4)] → liveExt s (opndBits c 0x08 0 16) (opndBits c 0x08 16 16) = some e → aliased s (extDesc s e) = false →
      ∃ u, exec .extentRetire s = .next u ∧ u.plat.retiring = some (opndBits c 0x08 0 16, opndBits c 0x08 16 16) ∧ u.mem.bytes = s.mem.bytes ∧
        ∀ k x, mfind u.cores k = some x → ∀ y ∈ x.ecb, ¬ (y.ctx = opndBits c 0x08 0 16 ∧ y.xid = opndBits c 0x08 16 16)) ∧
    (is 3 [(0x08, 3), (0x10, 8), (0x18, 8), (0x20, 4), (0x28, 8)] → writeWindow s c = .ok t → answers .hostWindowWrite t 0) ∧
    (is 4 [(0x08, 8), (0x10, 8)] → writeRcb s (opndBits c 0x08 0 52) (opndBits c 0x10 0 52) = .ok t → answers .rcbWrite t 0) ∧
    (is 5 [(0x08, 8)] → answers .membershipTableEntry (writeMember s c) 0) ∧
    (is 6 [(0x08, 3), (0x10, 8)] → answers .groupTableEntry (writeGroup s c) 0) ∧
    (∀ i f a, is 7 [(0x08, 8), (0x10, 4), (0x18, 2)] → s.work.frames.find? (fun p => p.2.dom == opndBits c 0x08 0 52 &&
        p.2.seq == some (opndBits c 0x10 0 32) && !p.2.answered) = some (i, f) → answerOf (opndBits c 0x18 0 2) (opndBits c 0x18 8 2) = some a →
      (domainAt s (opndBits c 0x08 0 52)).host = true → answers .faultFrameAnswer (answerFrame s i a) 0) ∧
    (is 8 [(0x08, 2), (0x10, 8), (0x18, 4), (0x20, 4)] → residentGroup s (opndBits c 0x08 0 16) (opndBits c 0x10 0 56) (opndBits c 0x18 0 32) = some n →
      answers .preemptionRequest (preempt s n (opndBits c 0x20 0 32)) 0) ∧
    (is 9 [(0x08, 8)] → answers .regionKill (settleFrames (killRegion s (opndBits c 0x08 0 52))) 0) ∧
    (is 10 [(0x08, 0x20), (0x28, 8)] → paExists (opndBits c 0x28 0 52) = true → paExists (opndBits c 0x28 0 52 + 8191) = true → ∃ u,
      answers .attestationQuote u 0 ∧ ∀ a, a < opndBits c 0x28 0 52 ∨ opndBits c 0x28 0 52 + 8192 ≤ a →
        Memory.read u.mem.bytes a = Memory.read s.mem.bytes a) ∧
    (is 11 [] → s.plat.boot = 3 → s.plat.xroot ≠ 0 → s.plat.qroot ≠ 0 → ∃ u, answers .acceptWork u 0 ∧ u.plat.boot = 4) ∧
    (is 11 [] → s.plat.boot ≠ 3 → answers .acceptWork s 5) ∧
    (is 12 [(0x08, 1), (0x10, 8), (0x18, 8)] → opnd c 0x18 = 0 → (usedRanges s).all (fun u =>
        let old := mget s.mem.pools ⟨0, 0⟩ (opndBits c 0x08 0 2)
        !meets old.base (old.base + old.len) u.1 u.2.1) = true →
      answers .demotionPool { s with mem := { s.mem with pools := mdel s.mem.pools (opndBits c 0x08 0 2) } } 0) ∧
    (let part := opndBits c 0x08 0 2
     let base := opndBits c 0x10 0 52
     let len := opnd c 0x18
     let old := mget s.mem.pools ⟨0, 0⟩ part
     let used := (usedRanges s).any (fun u => meets old.base (old.base + old.len) u.1 u.2.1)
     is 12 [(0x08, 1), (0x10, 8), (0x18, 8)] → len ≠ 0 →
      (len % 4096 = 0 → base % 4096 = 0 → Config.hostBase ≤ base → base + len ≤ Config.paEnd →
        (used = false → answers .demotionPool { s with mem := { s.mem with pools := mput s.mem.pools part ⟨base, len⟩ } } 0) ∧
        (used = true → answers .demotionPool s 1)) ∧
      (len % 4096 ≠ 0 ∨ base % 4096 ≠ 0 ∨ base < Config.hostBase ∨ Config.paEnd < base + len → answers .demotionPool s 2)) ∧
    (is 13 [(0x08, 2), (0x10, 8)] →
      (opnd c 0x10 < pinnedBytes s (opndBits c 0x08 0 16) → answers .pinQuota s 1) ∧
      (pinnedBytes s (opndBits c 0x08 0 16) ≤ opnd c 0x10 → ∃ u, answers .pinQuota u 0 ∧
        mget u.mem.quota 0 (opndBits c 0x08 0 16) = opnd c 0x10)) ∧
    (is 14 [(0x08, 2)] → 4 ≤ opndBits c 0x08 8 5 → opndBits c 0x08 8 5 ≤ 16 → ∃ u, answers .auditSetting u 0 ∧
      mget u.plat.auditK 0 (opndBits c 0x08 0 2) = opndBits c 0x08 8 5) ∧
    (let src := opndBits c 0x08 0 52
     let dst := opndBits c 0x10 0 52
     let k := opnd c 0x18
     is 15 [(0x08, 8), (0x10, 8), (0x18, 8)] → 1 ≤ k → k ≤ 2 ^ 20 → paExists src = true → paExists (src + k - 1) = true → paExists dst = true →
      paExists (dst + k - 1) = true → (usedRanges s).any (fun u => meets dst (dst + k) u.1 u.2.1) = false →
      answers .physicalCopy (copyMarks (pwrite s dst (pread s src k)) src dst k) 0) ∧
    (is 15 [(0x08, 8), (0x10, 8), (0x18, 8)] → paExists (opndBits c 0x08 0 52) = false ∨ paExists (opndBits c 0x10 0 52) = false →
      answers .physicalCopy s 2) ∧
    (∀ x ∈ [(1, [(0x08, 4), (0x10, 8)], Instr.extentCreate), (2, [(0x08, 4)], .extentRetire),
        (3, [(0x08, 3), (0x10, 8), (0x18, 8), (0x20, 4), (0x28, 8)], .hostWindowWrite), (4, [(0x08, 8), (0x10, 8)], .rcbWrite),
        (5, [(0x08, 8)], .membershipTableEntry), (6, [(0x08, 3), (0x10, 8)], .groupTableEntry),
        (7, [(0x08, 8), (0x10, 4), (0x18, 2)], .faultFrameAnswer), (8, [(0x08, 2), (0x10, 8), (0x18, 4), (0x20, 4)], .preemptionRequest),
        (9, [(0x08, 8)], .regionKill), (10, [(0x08, 0x20), (0x28, 8)], .attestationQuote), (11, [], .acceptWork),
        (12, [(0x08, 1), (0x10, 8), (0x18, 8)], .demotionPool), (13, [(0x08, 2), (0x10, 8)], .pinQuota), (14, [(0x08, 2)], .auditSetting),
        (15, [(0x08, 8), (0x10, 8), (0x18, 8)], .physicalCopy)],
      (c.getD 0 0).toNat = x.1 → unnamedZero c x.2.1 = false → answers x.2.2 s 2) ∧
    ((c.getD 0 0).toNat = 0 ∨ 15 < (c.getD 0 0).toNat → answers .unknownCommand s 0xFF)

/-! ### The machine as a whole -/

/-- R26, R27, R28, R33: a step runs the decoded instruction. With an empty schedule, or a turn for an issue slot, the word at the
split's place in its clause is decoded; a valid word is run by `exec`, one that is not raises illegal-instruction, one that an
arrival holds waits. A turn for an event runs the event. An error that an access has noted is reported first, by a step of its own, which is
the model's form of R220's report (log entry 95). -/
def Obligations.StepRunsTheDecodedInstruction : Prop :=
  ∀ (s : State) (r : Run) (i : Instr) (rest : List Word) (e : Instr) (turns : List Turn),
    let issues (a b : State) : Prop :=
      a.mem.upsets = [] → b.plat.devErr = false → (b.core b.focus.1).closing = false → remoteHolds b b.focus.1 b.focus.2 = none →
      (b.core b.focus.1).slot b.focus.2 = some r → r.late = false →
      (decode (b.run.words.drop (b.cidx - 1)) = .ok (i, rest) →
        placeOk b.run.hdr (bitsOf b.word.toNat 24 8) b.cidx (if i.literal?.isSome then 2 else 1) b.inHandler = true →
        (b.held i = false → step a = exec i b) ∧ (b.held i = true → step a = .next b)) ∧
      (b.fetchInstr = none → step a = .next b.illegal)
    (s.schedule = [] → issues s s) ∧
    (∀ core slot, issues { s with schedule := .issue core slot :: turns } { s with schedule := turns, focus := (core, slot) }) ∧
    (s.mem.upsets = [] → e.isWord = false → step { s with schedule := .event e :: turns } = exec e { s with schedule := turns }) ∧
    (s.mem.upsets ≠ [] → step s = .next (reportUpset s)) ∧
    (∀ core slot, s.mem.upsets = [] → s.schedule = [] → s.plat.devErr = true →
      step s = .next s ∧ step { s with schedule := [.issue core slot] } = .next { s with focus := (core, slot) })

/-- R33 to R46: encoding and decoding agree: the decoder reads every well-formed word back from its encoding, with every operand,
and leaves the words that follow. -/
def Obligations.DecodeReadsBackEveryEncoding : Prop :=
  ∀ (i : Instr) (rest : List Word), i.isWord = true → i.wf = true → decode (encode i ++ rest) = .ok (i, rest)

/-- R94, R124, R151, R238, R286, R378: words that the spec writes out decode to the instructions it writes beside them. -/
def Obligations.WordsOfTheSpecDecode : Prop :=
  decode [0x0E121B3C] = .ok (.sadd64 4 (.s 6) (.int 15), []) ∧
  decode [0x2901D1A4] = .ok (.vshlB32 0 (.sp .lane) (.int 18) false, []) ∧
  decode [0x5C520508] = .ok (.vcmpI32 5 1 (.v 2) (.s 4) false, []) ∧
  decode [0x15000018] = .ok (.join 24, []) ∧
  decode [0x84020000, 0x4605A000] = .ok (.ldB32 1 0 0 0 none, [0x4605A000]) ∧
  decode [0xAD1027F9, 0xC0000000] = .ok (.atomCasB128 8 4 127 4 (some 0xC0000000), []) ∧
  decode [0xBB0C4027, 0x00000010] = .ok (.rstB32 6 8 2 3 (some 16), []) ∧
  decode [0xB1352440] = .ok (.barArrive 13 18 17, []) ∧
  decode [0xD020F000] = .ok (.cpStart 8 15, []) ∧
  decode [0xC0143160] = .ok (.mmaE4m3 0 20 12 22 false, []) ∧
  decode [0xE8107800] = .ok (.wfetch 4 30, []) ∧
  decode [0xEF240000] = .ok (.wyield 9, [])

/-- 07_memory.md: memory reads back what was written, everywhere else reads as before, the canonical form is kept, and two memories
that read alike are the same memory. -/
def Obligations.MemoryReadsBack : Prop :=
  ∀ (s : State) (a : Nat) (bs : List Byte) (m m' : Memory),
    pread (pwrite s a bs) a bs.length = bs ∧
    (∀ j, j < a ∨ a + bs.length ≤ j → Memory.read (pwrite s a bs).mem.bytes j = Memory.read s.mem.bytes j) ∧
    (MemoryCanonical s → MemoryCanonical (pwrite s a bs)) ∧
    (Memory.wf m = true → Memory.wf m' = true → (∀ j, Memory.read m j = Memory.read m' j) → m = m')

/-- R14, R89, R121: a register reads back what was written; another register and another lane read as before; a write clears the
poison of the lanes it writes. No register is hard-wired. -/
def Obligations.RegistersReadBack : Prop :=
  ∀ (w : Warp) (r q l : Nat) (x lanes : Word) (f : Nat → Word), l < 32 →
    (w.setS r x).s q = (if q = r then x else w.s q) ∧ (w.setM r x).m q = (if q = r then x else w.m q) ∧
    (w.setV r lanes f).v q l = (if q = r ∧ lanes.getLsbD l then f l else w.v q l) ∧
    ((w.setV r lanes f).poisoned q).getLsbD l = ((w.poisoned q).getLsbD l && !(decide (q = r) && lanes.getLsbD l)) ∧
    (w.setS r x).m q = w.m q ∧ (w.setS r x).v q l = w.v q l ∧ (w.setM r x).s q = w.s q ∧ (w.setV r lanes f).s q = w.s q

/-- R100: every change of a split's pc. A pc that is not its token's only moves; at the token's pc the split arrives: its lanes
leave the pending mask and its entry is freed, and the last arrival resumes the rejoin mask in the lowest free entry. `leave`, where no
token completes by it and none is deferred: lanes L leave the split, whose entry is freed with its last lane, the pending and rejoin
masks of the tokens inside T, or of its whole chain, and the pending mask of T; every other entry is as before. -/
def Obligations.ControlProcedures : Prop :=
  (∀ (w : Warp) (i x : Nat),
    let sp := w.split i
    let t := w.tok sp.td
    let at' := sp.tv = true ∧ (t.kind = 1 ∨ t.kind = 2) ∧ t.pc = x
    (¬ at' → w.setPc i x = w.setSplit i { sp with pc := x }) ∧
    (at' → sp.td < 16 → i < 8 → (∀ d, d < 16 → (w.tok d).kind ≠ 3) →
      (t.pending &&& ~~~sp.mask ≠ 0 → ((w.setPc i x).split i).state = 0 ∧
        (w.setPc i x).tok sp.td = { t with pending := t.pending &&& ~~~sp.mask } ∧
        ∀ j, j ≠ i → (w.setPc i x).split j = w.split j) ∧
      (t.pending &&& ~~~sp.mask = 0 → t.rejoin ≠ 0 → t.pv = false → ∀ j, (w.setSplit i {}).freeSplit = some j →
        (w.setPc i x).split j = { pc := x, mask := t.rejoin, word := 0, state := 1, tv := false, td := t.parent } ∧
        (w.setPc i x).tok sp.td = {}))) ∧
  ∀ (w : Warp) (i : Nat) (L : Word) (T : Option Nat),
    let sp := w.split i
    let m := sp.mask &&& ~~~L
    let inner := match T with
      | some t => (w.chain sp).takeWhile (· != t)
      | none => w.chain sp
    let out (x : Token) : Token := { x with pending := x.pending &&& ~~~L, rejoin := x.rejoin &&& ~~~L }
    (∀ u ∈ inner, (w.tok u).pending &&& ~~~L ≠ 0) → (∀ t, T = some t → (w.tok t).pending &&& ~~~L ≠ 0) →
    (∀ d, d < 16 → (w.tok d).kind ≠ 3) →
      (w.leave i L T).split i = (if m = 0 then {} else { sp with mask := m }) ∧
      (∀ j, j ≠ i → (w.leave i L T).split j = w.split j) ∧
      ∀ u, (w.leave i L T).tok u = (if u ∈ inner then out (w.tok u)
        else if T = some u then { w.tok u with pending := (w.tok u).pending &&& ~~~L } else w.tok u)

/-- R212, R213, R215: a word that faults stops its core: the split keeps the index of its word, and a frame is recorded with the
fault's words. Where no issue slot holds another warp's clause the stop is over at once: no slot holds a clause but the handler's,
and with room in its domain's ring, bytes there that may be written, and no scale read of a `vscvt` still pending, the frame is written
there and its seq is the ring's head; where a slot does, it may still issue its word, and the frame waits for it. -/
def Obligations.FaultsStopTheCore : Prop :=
  ∀ (s : State) (f : FaultInfo), s.run.wslot ≠ 32 → s.hblk.isReplay = false → s.work.frames = [] → s.cidx ≠ 0 →
    let d := domainAt s (effFdom s s.hblk.region)
    let k := s.core s.hcore
    let other (r : Option Run) : Bool := r.any (fun x => x.wslot != s.run.wslot && x.wslot != 32)
    let t := s.raise f
    let u := t.core s.hcore
    d.ok = true → u.stopped = true ∧ ((t.warp s.hcore s.run.wslot).split s.run.split).word = s.cidx ∧
      ∃ x, mfind t.work.frames s.work.next = some x ∧ x.cls = f.cls ∧ x.core = s.hcore ∧ x.wslot = s.run.wslot ∧ x.split = s.run.split ∧
        x.blk = s.hwarp.blk ∧ x.cidx = s.cidx ∧ x.answered = false ∧ x.bytes.take 60 = (frameBytes s s.site f 0).take 60 ∧
        (other k.slot0 = false → other k.slot1 = false → u.closing = false ∧
          (∀ r, u.slot0 = some r ∨ u.slot1 = some r → r.wslot = 32) ∧
          (scalePending s s.hcore = true → x.seq = none) ∧
          (scalePending s s.hcore = false → (d.head + 2 ^ 32 - d.tail) % 2 ^ 32 + 1 ≤ 2 ^ d.n →
            devHold s d.hctx (d.ring + 64 * (d.head % 2 ^ d.n)) 64 true = none → x.seq = some d.head)) ∧
        (k.closing = false → (other k.slot0 = true ∨ other k.slot1 = true) → u.closing = true ∧ x.seq = none ∧
          ∀ r, u.slot0 = some r ∨ u.slot1 = some r → r.wslot ≠ s.run.wslot)

/-- R398: the state after reset: boot step 0, nothing verified, no device error, no block and no warp, time 0, memory in canonical
form. (Its registers hold 0, the choice of log entry 4.) -/
def Obligations.ResetLeaves : Prop :=
  State.reset.plat.boot = 0 ∧ State.reset.plat.failed = 0 ∧ State.reset.plat.devErr = false ∧ State.reset.plat.image = none ∧
  State.reset.plat.time = 0 ∧ State.reset.warps = [] ∧ State.reset.work.blocks = [] ∧ State.reset.work.tasks = [] ∧
  MemoryCanonical State.reset ∧ (∀ c w r, (State.reset.warp c w).s r = 0 ∧ (State.reset.warp c w).m r = 0)

/-- Every step keeps memory in canonical form: equal memories stay equal data. -/
def Obligations.EveryStepKeepsMemoryCanonical : Prop :=
  ∀ s t, MemoryCanonical s → Machine.step s = .next t → MemoryCanonical t
end

