-- ==== Sys2Proof/Laws/Exec.lean ====
section
/-! SUPPORT. One equation per instruction: the meaning that `exec` calls. -/
namespace Sys2Proof.Machine

@[simp] theorem exec_sadd (s : State) {d a b} : exec (.sadd d a b) s = Sys2Proof.Machine.execSadd d a b s := rfl
@[simp] theorem exec_ssub (s : State) {d a b} : exec (.ssub d a b) s = Sys2Proof.Machine.execSsub d a b s := rfl
@[simp] theorem exec_smul (s : State) {d a b} : exec (.smul d a b) s = Sys2Proof.Machine.execSmul d a b s := rfl
@[simp] theorem exec_smulhi (s : State) {d a b} : exec (.smulhi d a b) s = Sys2Proof.Machine.execSmulhi d a b s := rfl
@[simp] theorem exec_sand (s : State) {d a b} : exec (.sand d a b) s = Sys2Proof.Machine.execSand d a b s := rfl
@[simp] theorem exec_sor (s : State) {d a b} : exec (.sor d a b) s = Sys2Proof.Machine.execSor d a b s := rfl
@[simp] theorem exec_sxor (s : State) {d a b} : exec (.sxor d a b) s = Sys2Proof.Machine.execSxor d a b s := rfl
@[simp] theorem exec_sshl (s : State) {d a b} : exec (.sshl d a b) s = Sys2Proof.Machine.execSshl d a b s := rfl
@[simp] theorem exec_sshr (s : State) {d a b} : exec (.sshr d a b) s = Sys2Proof.Machine.execSshr d a b s := rfl
@[simp] theorem exec_ssra (s : State) {d a b} : exec (.ssra d a b) s = Sys2Proof.Machine.execSsra d a b s := rfl
@[simp] theorem exec_smin (s : State) {d a b} : exec (.smin d a b) s = Sys2Proof.Machine.execSmin d a b s := rfl
@[simp] theorem exec_smax (s : State) {d a b} : exec (.smax d a b) s = Sys2Proof.Machine.execSmax d a b s := rfl
@[simp] theorem exec_scmp (s : State) {c a b} : exec (.scmp c a b) s = Sys2Proof.Machine.execScmp c a b s := rfl
@[simp] theorem exec_ssel (s : State) {d a b} : exec (.ssel d a b) s = Sys2Proof.Machine.execSsel d a b s := rfl
@[simp] theorem exec_sadd64 (s : State) {d a b} : exec (.sadd64 d a b) s = Sys2Proof.Machine.execSadd64 d a b s := rfl
@[simp] theorem exec_smov (s : State) {d a} : exec (.smov d a) s = Sys2Proof.Machine.execSmov d a s := rfl
@[simp] theorem exec_jmp (s : State) {off} : exec (.jmp off) s = Sys2Proof.Machine.execJmp off s := rfl
@[simp] theorem exec_bscc (s : State) {c off} : exec (.bscc c off) s = Sys2Proof.Machine.execBscc c off s := rfl
@[simp] theorem exec_bdiv (s : State) {mk c off} : exec (.bdiv mk c off) s = Sys2Proof.Machine.execBdiv mk c off s := rfl
@[simp] theorem exec_bany (s : State) {mk c off} : exec (.bany mk c off) s = Sys2Proof.Machine.execBany mk c off s := rfl
@[simp] theorem exec_ball (s : State) {mk c off} : exec (.ball mk c off) s = Sys2Proof.Machine.execBall mk c off s := rfl
@[simp] theorem exec_join (s : State) {off} : exec (.join off) s = Sys2Proof.Machine.execJoin off s := rfl
@[simp] theorem exec_brk (s : State) {mk c off} : exec (.brk mk c off) s = Sys2Proof.Machine.execBrk mk c off s := rfl
@[simp] theorem exec_call (s : State) {off} : exec (.call off) s = Sys2Proof.Machine.execCall off s := rfl
@[simp] theorem exec_ret (s : State) : exec (.ret) s = Sys2Proof.Machine.execRet s := rfl
@[simp] theorem exec_exit (s : State) : exec (.exit) s = Sys2Proof.Machine.execExit s := rfl
@[simp] theorem exec_mand (s : State) {d a b} : exec (.mand d a b) s = Sys2Proof.Machine.execMand d a b s := rfl
@[simp] theorem exec_mor (s : State) {d a b} : exec (.mor d a b) s = Sys2Proof.Machine.execMor d a b s := rfl
@[simp] theorem exec_mxor (s : State) {d a b} : exec (.mxor d a b) s = Sys2Proof.Machine.execMxor d a b s := rfl
@[simp] theorem exec_mandn (s : State) {d a b} : exec (.mandn d a b) s = Sys2Proof.Machine.execMandn d a b s := rfl
@[simp] theorem exec_mfrom (s : State) {d} : exec (.mfrom d) s = Sys2Proof.Machine.execMfrom d s := rfl
@[simp] theorem exec_mto (s : State) {d a} : exec (.mto d a) s = Sys2Proof.Machine.execMto d a s := rfl
@[simp] theorem exec_vaddI32 (s : State) {d a b p} : exec (.vaddI32 d a b p) s = Sys2Proof.Machine.execVaddI32 d a b p s := rfl
@[simp] theorem exec_vsubI32 (s : State) {d a b p} : exec (.vsubI32 d a b p) s = Sys2Proof.Machine.execVsubI32 d a b p s := rfl
@[simp] theorem exec_vmulI32 (s : State) {d a b p} : exec (.vmulI32 d a b p) s = Sys2Proof.Machine.execVmulI32 d a b p s := rfl
@[simp] theorem exec_vmulhiI32 (s : State) {d a b p} : exec (.vmulhiI32 d a b p) s = Sys2Proof.Machine.execVmulhiI32 d a b p s := rfl
@[simp] theorem exec_vmulhiN32 (s : State) {d a b p} : exec (.vmulhiN32 d a b p) s = Sys2Proof.Machine.execVmulhiN32 d a b p s := rfl
@[simp] theorem exec_vmadI32 (s : State) {d a b p} : exec (.vmadI32 d a b p) s = Sys2Proof.Machine.execVmadI32 d a b p s := rfl
@[simp] theorem exec_vandB32 (s : State) {d a b p} : exec (.vandB32 d a b p) s = Sys2Proof.Machine.execVandB32 d a b p s := rfl
@[simp] theorem exec_vorB32 (s : State) {d a b p} : exec (.vorB32 d a b p) s = Sys2Proof.Machine.execVorB32 d a b p s := rfl
@[simp] theorem exec_vxorB32 (s : State) {d a b p} : exec (.vxorB32 d a b p) s = Sys2Proof.Machine.execVxorB32 d a b p s := rfl
@[simp] theorem exec_vshlB32 (s : State) {d a b p} : exec (.vshlB32 d a b p) s = Sys2Proof.Machine.execVshlB32 d a b p s := rfl
@[simp] theorem exec_vshrN32 (s : State) {d a b p} : exec (.vshrN32 d a b p) s = Sys2Proof.Machine.execVshrN32 d a b p s := rfl
@[simp] theorem exec_vshrI32 (s : State) {d a b p} : exec (.vshrI32 d a b p) s = Sys2Proof.Machine.execVshrI32 d a b p s := rfl
@[simp] theorem exec_vminI32 (s : State) {d a b p} : exec (.vminI32 d a b p) s = Sys2Proof.Machine.execVminI32 d a b p s := rfl
@[simp] theorem exec_vminN32 (s : State) {d a b p} : exec (.vminN32 d a b p) s = Sys2Proof.Machine.execVminN32 d a b p s := rfl
@[simp] theorem exec_vmaxI32 (s : State) {d a b p} : exec (.vmaxI32 d a b p) s = Sys2Proof.Machine.execVmaxI32 d a b p s := rfl
@[simp] theorem exec_vmaxN32 (s : State) {d a b p} : exec (.vmaxN32 d a b p) s = Sys2Proof.Machine.execVmaxN32 d a b p s := rfl
@[simp] theorem exec_vaddF32 (s : State) {d a b p} : exec (.vaddF32 d a b p) s = Sys2Proof.Machine.execVaddF32 d a b p s := rfl
@[simp] theorem exec_vfmaF32 (s : State) {d a b p} : exec (.vfmaF32 d a b p) s = Sys2Proof.Machine.execVfmaF32 d a b p s := rfl
@[simp] theorem exec_vsubF32 (s : State) {d a b p} : exec (.vsubF32 d a b p) s = Sys2Proof.Machine.execVsubF32 d a b p s := rfl
@[simp] theorem exec_vmulF32 (s : State) {d a b p} : exec (.vmulF32 d a b p) s = Sys2Proof.Machine.execVmulF32 d a b p s := rfl
@[simp] theorem exec_vminF32 (s : State) {d a b p} : exec (.vminF32 d a b p) s = Sys2Proof.Machine.execVminF32 d a b p s := rfl
@[simp] theorem exec_vmaxF32 (s : State) {d a b p} : exec (.vmaxF32 d a b p) s = Sys2Proof.Machine.execVmaxF32 d a b p s := rfl
@[simp] theorem exec_vrcpF32 (s : State) {d a p} : exec (.vrcpF32 d a p) s = Sys2Proof.Machine.execVrcpF32 d a p s := rfl
@[simp] theorem exec_vrsqrtF32 (s : State) {d a p} : exec (.vrsqrtF32 d a p) s = Sys2Proof.Machine.execVrsqrtF32 d a p s := rfl
@[simp] theorem exec_vsqrtF32 (s : State) {d a p} : exec (.vsqrtF32 d a p) s = Sys2Proof.Machine.execVsqrtF32 d a p s := rfl
@[simp] theorem exec_vexp2F32 (s : State) {d a p} : exec (.vexp2F32 d a p) s = Sys2Proof.Machine.execVexp2F32 d a p s := rfl
@[simp] theorem exec_vlog2F32 (s : State) {d a p} : exec (.vlog2F32 d a p) s = Sys2Proof.Machine.execVlog2F32 d a p s := rfl
@[simp] theorem exec_vabsF32 (s : State) {d a p} : exec (.vabsF32 d a p) s = Sys2Proof.Machine.execVabsF32 d a p s := rfl
@[simp] theorem exec_vnegF32 (s : State) {d a p} : exec (.vnegF32 d a p) s = Sys2Proof.Machine.execVnegF32 d a p s := rfl
@[simp] theorem exec_vfmsF32 (s : State) {d a b p} : exec (.vfmsF32 d a b p) s = Sys2Proof.Machine.execVfmsF32 d a b p s := rfl
@[simp] theorem exec_vrndF32 (s : State) {d a mode p} : exec (.vrndF32 d a mode p) s = Sys2Proof.Machine.execVrndF32 d a mode p s := rfl
@[simp] theorem exec_vclassF32 (s : State) {d a p} : exec (.vclassF32 d a p) s = Sys2Proof.Machine.execVclassF32 d a p s := rfl
@[simp] theorem exec_vaddF16 (s : State) {d a b p} : exec (.vaddF16 d a b p) s = Sys2Proof.Machine.execVaddF16 d a b p s := rfl
@[simp] theorem exec_vfmaF16 (s : State) {d a b p} : exec (.vfmaF16 d a b p) s = Sys2Proof.Machine.execVfmaF16 d a b p s := rfl
@[simp] theorem exec_vmulF16 (s : State) {d a b p} : exec (.vmulF16 d a b p) s = Sys2Proof.Machine.execVmulF16 d a b p s := rfl
@[simp] theorem exec_vaddBf16 (s : State) {d a b p} : exec (.vaddBf16 d a b p) s = Sys2Proof.Machine.execVaddBf16 d a b p s := rfl
@[simp] theorem exec_vfmaBf16 (s : State) {d a b p} : exec (.vfmaBf16 d a b p) s = Sys2Proof.Machine.execVfmaBf16 d a b p s := rfl
@[simp] theorem exec_vmulBf16 (s : State) {d a b p} : exec (.vmulBf16 d a b p) s = Sys2Proof.Machine.execVmulBf16 d a b p s := rfl
@[simp] theorem exec_vmovB32 (s : State) {d a p} : exec (.vmovB32 d a p) s = Sys2Proof.Machine.execVmovB32 d a p s := rfl
@[simp] theorem exec_vpopcB32 (s : State) {d a p} : exec (.vpopcB32 d a p) s = Sys2Proof.Machine.execVpopcB32 d a p s := rfl
@[simp] theorem exec_vclzB32 (s : State) {d a p} : exec (.vclzB32 d a p) s = Sys2Proof.Machine.execVclzB32 d a p s := rfl
@[simp] theorem exec_vbrevB32 (s : State) {d a p} : exec (.vbrevB32 d a p) s = Sys2Proof.Machine.execVbrevB32 d a p s := rfl
@[simp] theorem exec_vdot4I8 (s : State) {d a b p} : exec (.vdot4I8 d a b p) s = Sys2Proof.Machine.execVdot4I8 d a b p s := rfl
@[simp] theorem exec_vaddF32Rz (s : State) {d a b p} : exec (.vaddF32Rz d a b p) s = Sys2Proof.Machine.execVaddF32Rz d a b p s := rfl
@[simp] theorem exec_vaddF32Ru (s : State) {d a b p} : exec (.vaddF32Ru d a b p) s = Sys2Proof.Machine.execVaddF32Ru d a b p s := rfl
@[simp] theorem exec_vaddF32Rd (s : State) {d a b p} : exec (.vaddF32Rd d a b p) s = Sys2Proof.Machine.execVaddF32Rd d a b p s := rfl
@[simp] theorem exec_vsubF32Rz (s : State) {d a b p} : exec (.vsubF32Rz d a b p) s = Sys2Proof.Machine.execVsubF32Rz d a b p s := rfl
@[simp] theorem exec_vsubF32Ru (s : State) {d a b p} : exec (.vsubF32Ru d a b p) s = Sys2Proof.Machine.execVsubF32Ru d a b p s := rfl
@[simp] theorem exec_vsubF32Rd (s : State) {d a b p} : exec (.vsubF32Rd d a b p) s = Sys2Proof.Machine.execVsubF32Rd d a b p s := rfl
@[simp] theorem exec_vmulF32Rz (s : State) {d a b p} : exec (.vmulF32Rz d a b p) s = Sys2Proof.Machine.execVmulF32Rz d a b p s := rfl
@[simp] theorem exec_vmulF32Ru (s : State) {d a b p} : exec (.vmulF32Ru d a b p) s = Sys2Proof.Machine.execVmulF32Ru d a b p s := rfl
@[simp] theorem exec_vmulF32Rd (s : State) {d a b p} : exec (.vmulF32Rd d a b p) s = Sys2Proof.Machine.execVmulF32Rd d a b p s := rfl
@[simp] theorem exec_vfmaF32Rz (s : State) {d a b p} : exec (.vfmaF32Rz d a b p) s = Sys2Proof.Machine.execVfmaF32Rz d a b p s := rfl
@[simp] theorem exec_vfmaF32Ru (s : State) {d a b p} : exec (.vfmaF32Ru d a b p) s = Sys2Proof.Machine.execVfmaF32Ru d a b p s := rfl
@[simp] theorem exec_vfmaF32Rd (s : State) {d a b p} : exec (.vfmaF32Rd d a b p) s = Sys2Proof.Machine.execVfmaF32Rd d a b p s := rfl
@[simp] theorem exec_vcmpI32 (s : State) {c m a b p} : exec (.vcmpI32 c m a b p) s = Sys2Proof.Machine.execVcmpI32 c m a b p s := rfl
@[simp] theorem exec_vcmpN32 (s : State) {c m a b p} : exec (.vcmpN32 c m a b p) s = Sys2Proof.Machine.execVcmpN32 c m a b p s := rfl
@[simp] theorem exec_vcmpF32 (s : State) {c m a b p} : exec (.vcmpF32 c m a b p) s = Sys2Proof.Machine.execVcmpF32 c m a b p s := rfl
@[simp] theorem exec_vselB32 (s : State) {d a b} : exec (.vselB32 d a b) s = Sys2Proof.Machine.execVselB32 d a b s := rfl
@[simp] theorem exec_vcvtF32I32 (s : State) {d a k p} : exec (.vcvtF32I32 d a k p) s = Sys2Proof.Machine.execVcvtF32I32 d a k p s := rfl
@[simp] theorem exec_vcvtF32N32 (s : State) {d a k p} : exec (.vcvtF32N32 d a k p) s = Sys2Proof.Machine.execVcvtF32N32 d a k p s := rfl
@[simp] theorem exec_vcvtI32F32 (s : State) {d a k p} : exec (.vcvtI32F32 d a k p) s = Sys2Proof.Machine.execVcvtI32F32 d a k p s := rfl
@[simp] theorem exec_vcvtN32F32 (s : State) {d a k p} : exec (.vcvtN32F32 d a k p) s = Sys2Proof.Machine.execVcvtN32F32 d a k p s := rfl
@[simp] theorem exec_vcvtF16F32 (s : State) {d a k p} : exec (.vcvtF16F32 d a k p) s = Sys2Proof.Machine.execVcvtF16F32 d a k p s := rfl
@[simp] theorem exec_vcvtBf16F32 (s : State) {d a k p} : exec (.vcvtBf16F32 d a k p) s = Sys2Proof.Machine.execVcvtBf16F32 d a k p s := rfl
@[simp] theorem exec_vcvtE4m3F32 (s : State) {d a k p} : exec (.vcvtE4m3F32 d a k p) s = Sys2Proof.Machine.execVcvtE4m3F32 d a k p s := rfl
@[simp] theorem exec_vcvtE5m2F32 (s : State) {d a k p} : exec (.vcvtE5m2F32 d a k p) s = Sys2Proof.Machine.execVcvtE5m2F32 d a k p s := rfl
@[simp] theorem exec_vcvtLog6F32 (s : State) {d a k p} : exec (.vcvtLog6F32 d a k p) s = Sys2Proof.Machine.execVcvtLog6F32 d a k p s := rfl
@[simp] theorem exec_vcvtF32F16 (s : State) {d a k p} : exec (.vcvtF32F16 d a k p) s = Sys2Proof.Machine.execVcvtF32F16 d a k p s := rfl
@[simp] theorem exec_vcvtF32Bf16 (s : State) {d a k p} : exec (.vcvtF32Bf16 d a k p) s = Sys2Proof.Machine.execVcvtF32Bf16 d a k p s := rfl
@[simp] theorem exec_vcvtF32E4m3 (s : State) {d a k p} : exec (.vcvtF32E4m3 d a k p) s = Sys2Proof.Machine.execVcvtF32E4m3 d a k p s := rfl
@[simp] theorem exec_vcvtF32E5m2 (s : State) {d a k p} : exec (.vcvtF32E5m2 d a k p) s = Sys2Proof.Machine.execVcvtF32E5m2 d a k p s := rfl
@[simp] theorem exec_vcvtF32Log6 (s : State) {d a k p} : exec (.vcvtF32Log6 d a k p) s = Sys2Proof.Machine.execVcvtF32Log6 d a k p s := rfl
@[simp] theorem exec_vscvt (s : State) {d a k p} : exec (.vscvt d a k p) s = Sys2Proof.Machine.execVscvt d a k p s := rfl
@[simp] theorem exec_vshflB32 (s : State) {d a b p} : exec (.vshflB32 d a b p) s = Sys2Proof.Machine.execVshflB32 d a b p s := rfl
@[simp] theorem exec_vnblB32 (s : State) {d a sel p} : exec (.vnblB32 d a sel p) s = Sys2Proof.Machine.execVnblB32 d a sel p s := rfl
@[simp] theorem exec_vnbrB32 (s : State) {d a sel p} : exec (.vnbrB32 d a sel p) s = Sys2Proof.Machine.execVnbrB32 d a sel p s := rfl
@[simp] theorem exec_vbcastB32 (s : State) {d a b p} : exec (.vbcastB32 d a b p) s = Sys2Proof.Machine.execVbcastB32 d a b p s := rfl
@[simp] theorem exec_vredAddI32 (s : State) {d a p} : exec (.vredAddI32 d a p) s = Sys2Proof.Machine.execVredAddI32 d a p s := rfl
@[simp] theorem exec_vredAddF32 (s : State) {d a p} : exec (.vredAddF32 d a p) s = Sys2Proof.Machine.execVredAddF32 d a p s := rfl
@[simp] theorem exec_vredMaxF32 (s : State) {d a p} : exec (.vredMaxF32 d a p) s = Sys2Proof.Machine.execVredMaxF32 d a p s := rfl
@[simp] theorem exec_vredMinF32 (s : State) {d a p} : exec (.vredMinF32 d a p) s = Sys2Proof.Machine.execVredMinF32 d a p s := rfl
@[simp] theorem exec_vscanAddI32 (s : State) {d a p} : exec (.vscanAddI32 d a p) s = Sys2Proof.Machine.execVscanAddI32 d a p s := rfl
@[simp] theorem exec_vscanAddF32 (s : State) {d a p} : exec (.vscanAddF32 d a p) s = Sys2Proof.Machine.execVscanAddF32 d a p s := rfl
@[simp] theorem exec_vballot (s : State) {m a p} : exec (.vballot m a p) s = Sys2Proof.Machine.execVballot m a p s := rfl
@[simp] theorem exec_vrdlane (s : State) {d a b} : exec (.vrdlane d a b) s = Sys2Proof.Machine.execVrdlane d a b s := rfl
@[simp] theorem exec_ldN8 (s : State) {d sb vo sc x} : exec (.ldN8 d sb vo sc x) s = Sys2Proof.Machine.execLdN8 d sb vo sc x s := rfl
@[simp] theorem exec_ldI8 (s : State) {d sb vo sc x} : exec (.ldI8 d sb vo sc x) s = Sys2Proof.Machine.execLdI8 d sb vo sc x s := rfl
@[simp] theorem exec_ldN16 (s : State) {d sb vo sc x} : exec (.ldN16 d sb vo sc x) s = Sys2Proof.Machine.execLdN16 d sb vo sc x s := rfl
@[simp] theorem exec_ldI16 (s : State) {d sb vo sc x} : exec (.ldI16 d sb vo sc x) s = Sys2Proof.Machine.execLdI16 d sb vo sc x s := rfl
@[simp] theorem exec_ldB32 (s : State) {d sb vo sc x} : exec (.ldB32 d sb vo sc x) s = Sys2Proof.Machine.execLdB32 d sb vo sc x s := rfl
@[simp] theorem exec_ldB64 (s : State) {d sb vo sc x} : exec (.ldB64 d sb vo sc x) s = Sys2Proof.Machine.execLdB64 d sb vo sc x s := rfl
@[simp] theorem exec_ldB128 (s : State) {d sb vo sc x} : exec (.ldB128 d sb vo sc x) s = Sys2Proof.Machine.execLdB128 d sb vo sc x s := rfl
@[simp] theorem exec_stB8 (s : State) {d sb vo sc x} : exec (.stB8 d sb vo sc x) s = Sys2Proof.Machine.execStB8 d sb vo sc x s := rfl
@[simp] theorem exec_stB16 (s : State) {d sb vo sc x} : exec (.stB16 d sb vo sc x) s = Sys2Proof.Machine.execStB16 d sb vo sc x s := rfl
@[simp] theorem exec_stB32 (s : State) {d sb vo sc x} : exec (.stB32 d sb vo sc x) s = Sys2Proof.Machine.execStB32 d sb vo sc x s := rfl
@[simp] theorem exec_stB64 (s : State) {d sb vo sc x} : exec (.stB64 d sb vo sc x) s = Sys2Proof.Machine.execStB64 d sb vo sc x s := rfl
@[simp] theorem exec_stB128 (s : State) {d sb vo sc x} : exec (.stB128 d sb vo sc x) s = Sys2Proof.Machine.execStB128 d sb vo sc x s := rfl
@[simp] theorem exec_ldLane (s : State) {d vo wd x} : exec (.ldLane d vo wd x) s = Sys2Proof.Machine.execLdLane d vo wd x s := rfl
@[simp] theorem exec_stLane (s : State) {d vo wd x} : exec (.stLane d vo wd x) s = Sys2Proof.Machine.execStLane d vo wd x s := rfl
@[simp] theorem exec_ldSp (s : State) {d vo wd x} : exec (.ldSp d vo wd x) s = Sys2Proof.Machine.execLdSp d vo wd x s := rfl
@[simp] theorem exec_stSp (s : State) {d vo wd x} : exec (.stSp d vo wd x) s = Sys2Proof.Machine.execStSp d vo wd x s := rfl
@[simp] theorem exec_ldCm (s : State) {d vo wd x} : exec (.ldCm d vo wd x) s = Sys2Proof.Machine.execLdCm d vo wd x s := rfl
@[simp] theorem exec_stCm (s : State) {d vo wd x} : exec (.stCm d vo wd x) s = Sys2Proof.Machine.execStCm d vo wd x s := rfl
@[simp] theorem exec_ldCst (s : State) {d vo wd x} : exec (.ldCst d vo wd x) s = Sys2Proof.Machine.execLdCst d vo wd x s := rfl
@[simp] theorem exec_stCst (s : State) {d vo wd x} : exec (.stCst d vo wd x) s = Sys2Proof.Machine.execStCst d vo wd x s := rfl
@[simp] theorem exec_sldB32 (s : State) {d sb sc x} : exec (.sldB32 d sb sc x) s = Sys2Proof.Machine.execSldB32 d sb sc x s := rfl
@[simp] theorem exec_sstB32 (s : State) {d sb sc x} : exec (.sstB32 d sb sc x) s = Sys2Proof.Machine.execSstB32 d sb sc x s := rfl
@[simp] theorem exec_pf (s : State) {sb vo sc x} : exec (.pf sb vo sc x) s = Sys2Proof.Machine.execPf sb vo sc x s := rfl
@[simp] theorem exec_cinv (s : State) {sb vo x} : exec (.cinv sb vo x) s = Sys2Proof.Machine.execCinv sb vo x s := rfl
@[simp] theorem exec_xprobe (s : State) {d sb x} : exec (.xprobe d sb x) s = Sys2Proof.Machine.execXprobe d sb x s := rfl
@[simp] theorem exec_xinfo (s : State) {d sb sel} : exec (.xinfo d sb sel) s = Sys2Proof.Machine.execXinfo d sb sel s := rfl
@[simp] theorem exec_hpin (s : State) {d sb} : exec (.hpin d sb) s = Sys2Proof.Machine.execHpin d sb s := rfl
@[simp] theorem exec_hdemote (s : State) {d sb} : exec (.hdemote d sb) s = Sys2Proof.Machine.execHdemote d sb s := rfl
@[simp] theorem exec_hprio (s : State) {d sb sel} : exec (.hprio d sb sel) s = Sys2Proof.Machine.execHprio d sb sel s := rfl
@[simp] theorem exec_hunpin (s : State) {d sb} : exec (.hunpin d sb) s = Sys2Proof.Machine.execHunpin d sb s := rfl
@[simp] theorem exec_atomAddI32 (s : State) {d sb vo sc x} : exec (.atomAddI32 d sb vo sc x) s = Sys2Proof.Machine.execAtomAddI32 d sb vo sc x s := rfl
@[simp] theorem exec_atomAddF32 (s : State) {d sb vo sc x} : exec (.atomAddF32 d sb vo sc x) s = Sys2Proof.Machine.execAtomAddF32 d sb vo sc x s := rfl
@[simp] theorem exec_atomMinI32 (s : State) {d sb vo sc x} : exec (.atomMinI32 d sb vo sc x) s = Sys2Proof.Machine.execAtomMinI32 d sb vo sc x s := rfl
@[simp] theorem exec_atomMaxI32 (s : State) {d sb vo sc x} : exec (.atomMaxI32 d sb vo sc x) s = Sys2Proof.Machine.execAtomMaxI32 d sb vo sc x s := rfl
@[simp] theorem exec_atomMinN32 (s : State) {d sb vo sc x} : exec (.atomMinN32 d sb vo sc x) s = Sys2Proof.Machine.execAtomMinN32 d sb vo sc x s := rfl
@[simp] theorem exec_atomMaxN32 (s : State) {d sb vo sc x} : exec (.atomMaxN32 d sb vo sc x) s = Sys2Proof.Machine.execAtomMaxN32 d sb vo sc x s := rfl
@[simp] theorem exec_atomAndB32 (s : State) {d sb vo sc x} : exec (.atomAndB32 d sb vo sc x) s = Sys2Proof.Machine.execAtomAndB32 d sb vo sc x s := rfl
@[simp] theorem exec_atomOrB32 (s : State) {d sb vo sc x} : exec (.atomOrB32 d sb vo sc x) s = Sys2Proof.Machine.execAtomOrB32 d sb vo sc x s := rfl
@[simp] theorem exec_atomXchgB32 (s : State) {d sb vo sc x} : exec (.atomXchgB32 d sb vo sc x) s = Sys2Proof.Machine.execAtomXchgB32 d sb vo sc x s := rfl
@[simp] theorem exec_atomCasB32 (s : State) {d sb vo sc x} : exec (.atomCasB32 d sb vo sc x) s = Sys2Proof.Machine.execAtomCasB32 d sb vo sc x s := rfl
@[simp] theorem exec_atomAddI64 (s : State) {d sb vo sc x} : exec (.atomAddI64 d sb vo sc x) s = Sys2Proof.Machine.execAtomAddI64 d sb vo sc x s := rfl
@[simp] theorem exec_atomXchgB64 (s : State) {d sb vo sc x} : exec (.atomXchgB64 d sb vo sc x) s = Sys2Proof.Machine.execAtomXchgB64 d sb vo sc x s := rfl
@[simp] theorem exec_atomCasB64 (s : State) {d sb vo sc x} : exec (.atomCasB64 d sb vo sc x) s = Sys2Proof.Machine.execAtomCasB64 d sb vo sc x s := rfl
@[simp] theorem exec_atomCasB128 (s : State) {d sb vo sc x} : exec (.atomCasB128 d sb vo sc x) s = Sys2Proof.Machine.execAtomCasB128 d sb vo sc x s := rfl
@[simp] theorem exec_bredAddF32 (s : State) {d sb vo sc x} : exec (.bredAddF32 d sb vo sc x) s = Sys2Proof.Machine.execBredAddF32 d sb vo sc x s := rfl
@[simp] theorem exec_ldBnd (s : State) {d sb vo sc x} : exec (.ldBnd d sb vo sc x) s = Sys2Proof.Machine.execLdBnd d sb vo sc x s := rfl
@[simp] theorem exec_barInit (s : State) {sb sv d sc} : exec (.barInit sb sv d sc) s = Sys2Proof.Machine.execBarInit sb sv d sc s := rfl
@[simp] theorem exec_barArrive (s : State) {sb sv d} : exec (.barArrive sb sv d) s = Sys2Proof.Machine.execBarArrive sb sv d s := rfl
@[simp] theorem exec_barExpect (s : State) {sb sv d} : exec (.barExpect sb sv d) s = Sys2Proof.Machine.execBarExpect sb sv d s := rfl
@[simp] theorem exec_barWait (s : State) {sb sv d} : exec (.barWait sb sv d) s = Sys2Proof.Machine.execBarWait sb sv d s := rfl
@[simp] theorem exec_barTest (s : State) {sb sv d} : exec (.barTest sb sv d) s = Sys2Proof.Machine.execBarTest sb sv d s := rfl
@[simp] theorem exec_barDrop (s : State) {sb d} : exec (.barDrop sb d) s = Sys2Proof.Machine.execBarDrop sb d s := rfl
@[simp] theorem exec_wait (s : State) {ld st cp tl rm sc} : exec (.wait ld st cp tl rm sc) s = Sys2Proof.Machine.execWait ld st cp tl rm sc s := rfl
@[simp] theorem exec_bdrain (s : State) {sc} : exec (.bdrain sc) s = Sys2Proof.Machine.execBdrain sc s := rfl
@[simp] theorem exec_rldB32 (s : State) {d sb vp sc x} : exec (.rldB32 d sb vp sc x) s = Sys2Proof.Machine.execRldB32 d sb vp sc x s := rfl
@[simp] theorem exec_rldB64 (s : State) {d sb vp sc x} : exec (.rldB64 d sb vp sc x) s = Sys2Proof.Machine.execRldB64 d sb vp sc x s := rfl
@[simp] theorem exec_rldB128 (s : State) {d sb vp sc x} : exec (.rldB128 d sb vp sc x) s = Sys2Proof.Machine.execRldB128 d sb vp sc x s := rfl
@[simp] theorem exec_rstB32 (s : State) {d sb vp sc x} : exec (.rstB32 d sb vp sc x) s = Sys2Proof.Machine.execRstB32 d sb vp sc x s := rfl
@[simp] theorem exec_rstB64 (s : State) {d sb vp sc x} : exec (.rstB64 d sb vp sc x) s = Sys2Proof.Machine.execRstB64 d sb vp sc x s := rfl
@[simp] theorem exec_ratom (s : State) {d sb vp sc x} : exec (.ratom d sb vp sc x) s = Sys2Proof.Machine.execRatom d sb vp sc x s := rfl
@[simp] theorem exec_rred (s : State) {d sb vp sc x} : exec (.rred d sb vp sc x) s = Sys2Proof.Machine.execRred d sb vp sc x s := rfl
@[simp] theorem exec_rmcast (s : State) {d sb vp sc x} : exec (.rmcast d sb vp sc x) s = Sys2Proof.Machine.execRmcast d sb vp sc x s := rfl
@[simp] theorem exec_mmaE4m3 (s : State) {t sa sw sk pr} : exec (.mmaE4m3 t sa sw sk pr) s = Sys2Proof.Machine.execMmaE4m3 t sa sw sk pr s := rfl
@[simp] theorem exec_mmaE5m2 (s : State) {t sa sw sk pr} : exec (.mmaE5m2 t sa sw sk pr) s = Sys2Proof.Machine.execMmaE5m2 t sa sw sk pr s := rfl
@[simp] theorem exec_mmaBf16 (s : State) {t sa sw sk pr} : exec (.mmaBf16 t sa sw sk pr) s = Sys2Proof.Machine.execMmaBf16 t sa sw sk pr s := rfl
@[simp] theorem exec_mmaF16 (s : State) {t sa sw sk pr} : exec (.mmaF16 t sa sw sk pr) s = Sys2Proof.Machine.execMmaF16 t sa sw sk pr s := rfl
@[simp] theorem exec_mmaLog6 (s : State) {t sa sw sk pr} : exec (.mmaLog6 t sa sw sk pr) s = Sys2Proof.Machine.execMmaLog6 t sa sw sk pr s := rfl
@[simp] theorem exec_wbldDense (s : State) {sa sw sk} : exec (.wbldDense sa sw sk) s = Sys2Proof.Machine.execWbldDense sa sw sk s := rfl
@[simp] theorem exec_wbldSp24 (s : State) {sa sw sk} : exec (.wbldSp24 sa sw sk) s = Sys2Proof.Machine.execWbldSp24 sa sw sk s := rfl
@[simp] theorem exec_wbldCb4 (s : State) {sa sw sk} : exec (.wbldCb4 sa sw sk) s = Sys2Proof.Machine.execWbldCb4 sa sw sk s := rfl
@[simp] theorem exec_tzero (s : State) {t} : exec (.tzero t) s = Sys2Proof.Machine.execTzero t s := rfl
@[simp] theorem exec_tmov (s : State) {t sa} : exec (.tmov t sa) s = Sys2Proof.Machine.execTmov t sa s := rfl
@[simp] theorem exec_tst (s : State) {t sa sk} : exec (.tst t sa sk) s = Sys2Proof.Machine.execTst t sa sk s := rfl
@[simp] theorem exec_tadd (s : State) {td ts} : exec (.tadd td ts) s = Sys2Proof.Machine.execTadd td ts s := rfl
@[simp] theorem exec_tld (s : State) {t sa sk} : exec (.tld t sa sk) s = Sys2Proof.Machine.execTld t sa sk s := rfl
@[simp] theorem exec_cpStart (s : State) {cb tk} : exec (.cpStart cb tk) s = Sys2Proof.Machine.execCpStart cb tk s := rfl
@[simp] theorem exec_cpRect (s : State) {cb tk} : exec (.cpRect cb tk) s = Sys2Proof.Machine.execCpRect cb tk s := rfl
@[simp] theorem exec_cpFill (s : State) {cb tk} : exec (.cpFill cb tk) s = Sys2Proof.Machine.execCpFill cb tk s := rfl
@[simp] theorem exec_cpTier (s : State) {cb tk} : exec (.cpTier cb tk) s = Sys2Proof.Machine.execCpTier cb tk s := rfl
@[simp] theorem exec_xgStart (s : State) {cb tk} : exec (.xgStart cb tk) s = Sys2Proof.Machine.execXgStart cb tk s := rfl
@[simp] theorem exec_xgCancel (s : State) {cb tk d} : exec (.xgCancel cb tk d) s = Sys2Proof.Machine.execXgCancel cb tk d s := rfl
@[simp] theorem exec_tokTest (s : State) {tk d} : exec (.tokTest tk d) s = Sys2Proof.Machine.execTokTest tk d s := rfl
@[simp] theorem exec_cpCancel (s : State) {tk d} : exec (.cpCancel tk d) s = Sys2Proof.Machine.execCpCancel tk d s := rfl
@[simp] theorem exec_xgQuery (s : State) {tk d sel} : exec (.xgQuery tk d sel) s = Sys2Proof.Machine.execXgQuery tk d sel s := rfl
@[simp] theorem exec_cpBcast (s : State) {cb tk} : exec (.cpBcast cb tk) s = Sys2Proof.Machine.execCpBcast cb tk s := rfl
@[simp] theorem exec_trap (s : State) {imm} : exec (.trap imm) s = Sys2Proof.Machine.execTrap imm s := rfl
@[simp] theorem exec_brkpt (s : State) {imm} : exec (.brkpt imm) s = Sys2Proof.Machine.execBrkpt imm s := rfl
@[simp] theorem exec_rdsr (s : State) {d sel} : exec (.rdsr d sel) s = Sys2Proof.Machine.execRdsr d sel s := rfl
@[simp] theorem exec_wrsr (s : State) {d sel} : exec (.wrsr d sel) s = Sys2Proof.Machine.execWrsr d sel s := rfl
@[simp] theorem exec_fret (s : State) {mode} : exec (.fret mode) s = Sys2Proof.Machine.execFret mode s := rfl
@[simp] theorem exec_fkill (s : State) {unit} : exec (.fkill unit) s = Sys2Proof.Machine.execFkill unit s := rfl
@[simp] theorem exec_frd (s : State) {d item lane idx} : exec (.frd d item lane idx) s = Sys2Proof.Machine.execFrd d item lane idx s := rfl
@[simp] theorem exec_pclr (s : State) {d r} : exec (.pclr d r) s = Sys2Proof.Machine.execPclr d r s := rfl
@[simp] theorem exec_wfetch (s : State) {sg st} : exec (.wfetch sg st) s = Sys2Proof.Machine.execWfetch sg st s := rfl
@[simp] theorem exec_hbeat (s : State) : exec (.hbeat) s = Sys2Proof.Machine.execHbeat s := rfl
@[simp] theorem exec_rgclaim (s : State) {d n} : exec (.rgclaim d n) s = Sys2Proof.Machine.execRgclaim d n s := rfl
@[simp] theorem exec_rgrel (s : State) {d n} : exec (.rgrel d n) s = Sys2Proof.Machine.execRgrel d n s := rfl
@[simp] theorem exec_wdone (s : State) {sg st} : exec (.wdone sg st) s = Sys2Proof.Machine.execWdone sg st s := rfl
@[simp] theorem exec_wcond (s : State) {d idx} : exec (.wcond d idx) s = Sys2Proof.Machine.execWcond d idx s := rfl
@[simp] theorem exec_wlaunch (s : State) {sg st} : exec (.wlaunch sg st) s = Sys2Proof.Machine.execWlaunch sg st s := rfl
@[simp] theorem exec_wyield (s : State) {d} : exec (.wyield d) s = Sys2Proof.Machine.execWyield d s := rfl
@[simp] theorem exec_clauseGrant (s : State) {core slot} : exec (.clauseGrant core slot) s = Sys2Proof.Machine.execClauseGrant core slot s := rfl
@[simp] theorem exec_rankAging (s : State) {core wslot} : exec (.rankAging core wslot) s = Sys2Proof.Machine.execRankAging core wslot s := rfl
@[simp] theorem exec_impreciseFault (s : State) {core bslot memory unit tile addr} : exec (.impreciseFault core bslot memory unit tile addr) s = Sys2Proof.Machine.execImpreciseFault core bslot memory unit tile addr s := rfl
@[simp] theorem exec_ringFull (s : State) {core} : exec (.ringFull core) s = Sys2Proof.Machine.execRingFull core s := rfl
@[simp] theorem exec_handlerStart (s : State) {core} : exec (.handlerStart core) s = Sys2Proof.Machine.execHandlerStart core s := rfl
@[simp] theorem exec_loadComplete (s : State) {req} : exec (.loadComplete req) s = Sys2Proof.Machine.execLoadComplete req s := rfl
@[simp] theorem exec_storeComplete (s : State) {req} : exec (.storeComplete req) s = Sys2Proof.Machine.execStoreComplete req s := rfl
@[simp] theorem exec_writeThroughApply (s : State) {req sector} : exec (.writeThroughApply req sector) s = Sys2Proof.Machine.execWriteThroughApply req sector s := rfl
@[simp] theorem exec_ecbWalk (s : State) {core ctx va} : exec (.ecbWalk core ctx va) s = Sys2Proof.Machine.execEcbWalk core ctx va s := rfl
@[simp] theorem exec_portTranslate (s : State) {target} : exec (.portTranslate target) s = Sys2Proof.Machine.execPortTranslate target s := rfl
@[simp] theorem exec_rowRemapReloadDone (s : State) {port pc img} : exec (.rowRemapReloadDone port pc img) s = Sys2Proof.Machine.execRowRemapReloadDone port pc img s := rfl
@[simp] theorem exec_cxlMemRequest (s : State) {port addr wr} : exec (.cxlMemRequest port addr wr) s = Sys2Proof.Machine.execCxlMemRequest port addr wr s := rfl
@[simp] theorem exec_bar2Request (s : State) {port off len wr} : exec (.bar2Request port off len wr) s = Sys2Proof.Machine.execBar2Request port off len wr s := rfl
@[simp] theorem exec_slideStart (s : State) {ctx xid} : exec (.slideStart ctx xid) s = Sys2Proof.Machine.execSlideStart ctx xid s := rfl
@[simp] theorem exec_portSlideBegin (s : State) {port ctx xid} : exec (.portSlideBegin port ctx xid) s = Sys2Proof.Machine.execPortSlideBegin port ctx xid s := rfl
@[simp] theorem exec_slideOpen (s : State) {ctx xid} : exec (.slideOpen ctx xid) s = Sys2Proof.Machine.execSlideOpen ctx xid s := rfl
@[simp] theorem exec_portOpen (s : State) {port ctx xid} : exec (.portOpen port ctx xid) s = Sys2Proof.Machine.execPortOpen port ctx xid s := rfl
@[simp] theorem exec_portOpenAck (s : State) {port ctx xid} : exec (.portOpenAck port ctx xid) s = Sys2Proof.Machine.execPortOpenAck port ctx xid s := rfl
@[simp] theorem exec_slideCopy (s : State) {ctx xid} : exec (.slideCopy ctx xid) s = Sys2Proof.Machine.execSlideCopy ctx xid s := rfl
@[simp] theorem exec_slideAdvance (s : State) {ctx xid} : exec (.slideAdvance ctx xid) s = Sys2Proof.Machine.execSlideAdvance ctx xid s := rfl
@[simp] theorem exec_portAdvance (s : State) {port ctx xid} : exec (.portAdvance port ctx xid) s = Sys2Proof.Machine.execPortAdvance port ctx xid s := rfl
@[simp] theorem exec_slideClose (s : State) {ctx xid} : exec (.slideClose ctx xid) s = Sys2Proof.Machine.execSlideClose ctx xid s := rfl
@[simp] theorem exec_portClose (s : State) {port ctx xid} : exec (.portClose port ctx xid) s = Sys2Proof.Machine.execPortClose port ctx xid s := rfl
@[simp] theorem exec_slideCommit (s : State) {ctx xid} : exec (.slideCommit ctx xid) s = Sys2Proof.Machine.execSlideCommit ctx xid s := rfl
@[simp] theorem exec_portCommit (s : State) {port ctx xid} : exec (.portCommit port ctx xid) s = Sys2Proof.Machine.execPortCommit port ctx xid s := rfl
@[simp] theorem exec_slideAckTimeout (s : State) {ctx xid} : exec (.slideAckTimeout ctx xid) s = Sys2Proof.Machine.execSlideAckTimeout ctx xid s := rfl
@[simp] theorem exec_residencyDemote (s : State) {ctx xid} : exec (.residencyDemote ctx xid) s = Sys2Proof.Machine.execResidencyDemote ctx xid s := rfl
@[simp] theorem exec_residencyPromote (s : State) {ctx xid} : exec (.residencyPromote ctx xid) s = Sys2Proof.Machine.execResidencyPromote ctx xid s := rfl
@[simp] theorem exec_retireAccessesDrained (s : State) {ctx xid} : exec (.retireAccessesDrained ctx xid) s = Sys2Proof.Machine.execRetireAccessesDrained ctx xid s := rfl
@[simp] theorem exec_arrivalCounted (s : State) {core wslot} : exec (.arrivalCounted core wslot) s = Sys2Proof.Machine.execArrivalCounted core wslot s := rfl
@[simp] theorem exec_blockedWordResume (s : State) {core wslot split} : exec (.blockedWordResume core wslot split) s = Sys2Proof.Machine.execBlockedWordResume core wslot split s := rfl
@[simp] theorem exec_ownershipRequest (s : State) {core line} : exec (.ownershipRequest core line) s = Sys2Proof.Machine.execOwnershipRequest core line s := rfl
@[simp] theorem exec_recallLine (s : State) {line} : exec (.recallLine line) s = Sys2Proof.Machine.execRecallLine line s := rfl
@[simp] theorem exec_lineSurrender (s : State) {line} : exec (.lineSurrender line) s = Sys2Proof.Machine.execLineSurrender line s := rfl
@[simp] theorem exec_directoryMerge (s : State) {slice base size} : exec (.directoryMerge slice base size) s = Sys2Proof.Machine.execDirectoryMerge slice base size s := rfl
@[simp] theorem exec_l1Eviction (s : State) {core line} : exec (.l1Eviction core line) s = Sys2Proof.Machine.execL1Eviction core line s := rfl
@[simp] theorem exec_cxlCacheResponse (s : State) {line exclusive} : exec (.cxlCacheResponse line exclusive) s = Sys2Proof.Machine.execCxlCacheResponse line exclusive s := rfl
@[simp] theorem exec_snpdata (s : State) {line} : exec (.snpdata line) s = Sys2Proof.Machine.execSnpdata line s := rfl
@[simp] theorem exec_snpinv (s : State) {line} : exec (.snpinv line) s = Sys2Proof.Machine.execSnpinv line s := rfl
@[simp] theorem exec_atomicopCompletion (s : State) {req lane resp} : exec (.atomicopCompletion req lane resp) s = Sys2Proof.Machine.execAtomicopCompletion req lane resp s := rfl
@[simp] theorem exec_shareReq (s : State) {msg} : exec (.shareReq msg) s = Sys2Proof.Machine.execShareReq msg s := rfl
@[simp] theorem exec_grant (s : State) {msg} : exec (.grant msg) s = Sys2Proof.Machine.execGrant msg s := rfl
@[simp] theorem exec_add (s : State) {msg} : exec (.add msg) s = Sys2Proof.Machine.execAdd msg s := rfl
@[simp] theorem exec_drain (s : State) {msg} : exec (.drain msg) s = Sys2Proof.Machine.execDrain msg s := rfl
@[simp] theorem exec_fdrain (s : State) {msg} : exec (.fdrain msg) s = Sys2Proof.Machine.execFdrain msg s := rfl
@[simp] theorem exec_bload (s : State) {msg} : exec (.bload msg) s = Sys2Proof.Machine.execBload msg s := rfl
@[simp] theorem exec_bvalue (s : State) {msg} : exec (.bvalue msg) s = Sys2Proof.Machine.execBvalue msg s := rfl
@[simp] theorem exec_copyPiece (s : State) {op j} : exec (.copyPiece op j) s = Sys2Proof.Machine.execCopyPiece op j s := rfl
@[simp] theorem exec_copyComplete (s : State) {op} : exec (.copyComplete op) s = Sys2Proof.Machine.execCopyComplete op s := rfl
@[simp] theorem exec_exchangeRunEmit (s : State) {part} : exec (.exchangeRunEmit part) s = Sys2Proof.Machine.execExchangeRunEmit part s := rfl
@[simp] theorem exec_exchangeRun (s : State) {pkt} : exec (.exchangeRun pkt) s = Sys2Proof.Machine.execExchangeRun pkt s := rfl
@[simp] theorem exec_runAcknowledgment (s : State) {pkt} : exec (.runAcknowledgment pkt) s = Sys2Proof.Machine.execRunAcknowledgment pkt s := rfl
@[simp] theorem exec_runResend (s : State) {part j} : exec (.runResend part j) s = Sys2Proof.Machine.execRunResend part j s := rfl
@[simp] theorem exec_exchangeEnd (s : State) {pkt} : exec (.exchangeEnd pkt) s = Sys2Proof.Machine.execExchangeEnd pkt s := rfl
@[simp] theorem exec_exchangePartComplete (s : State) {part} : exec (.exchangePartComplete part) s = Sys2Proof.Machine.execExchangePartComplete part s := rfl
@[simp] theorem exec_xgCancelComplete (s : State) {part} : exec (.xgCancelComplete part) s = Sys2Proof.Machine.execXgCancelComplete part s := rfl
@[simp] theorem exec_matrixComplete (s : State) {op} : exec (.matrixComplete op) s = Sys2Proof.Machine.execMatrixComplete op s := rfl
@[simp] theorem exec_remoteReplay (s : State) {core wslot} : exec (.remoteReplay core wslot) s = Sys2Proof.Machine.execRemoteReplay core wslot s := rfl
@[simp] theorem exec_remoteRequest (s : State) {pkt} : exec (.remoteRequest pkt) s = Sys2Proof.Machine.execRemoteRequest pkt s := rfl
@[simp] theorem exec_remoteReply (s : State) {pkt} : exec (.remoteReply pkt) s = Sys2Proof.Machine.execRemoteReply pkt s := rfl
@[simp] theorem exec_remoteAcknowledgment (s : State) {pkt} : exec (.remoteAcknowledgment pkt) s = Sys2Proof.Machine.execRemoteAcknowledgment pkt s := rfl
@[simp] theorem exec_refusal (s : State) {pkt} : exec (.refusal pkt) s = Sys2Proof.Machine.execRefusal pkt s := rfl
@[simp] theorem exec_responseTimeout (s : State) {replay lane} : exec (.responseTimeout replay lane) s = Sys2Proof.Machine.execResponseTimeout replay lane s := rfl
@[simp] theorem exec_postedTimeout (s : State) {post} : exec (.postedTimeout post) s = Sys2Proof.Machine.execPostedTimeout post s := rfl
@[simp] theorem exec_flitReceive (s : State) {plane bytes} : exec (.flitReceive plane bytes) s = Sys2Proof.Machine.execFlitReceive plane bytes s := rfl
@[simp] theorem exec_replayRequest (s : State) {plane} : exec (.replayRequest plane) s = Sys2Proof.Machine.execReplayRequest plane s := rfl
@[simp] theorem exec_heartbeat (s : State) {plane} : exec (.heartbeat plane) s = Sys2Proof.Machine.execHeartbeat plane s := rfl
@[simp] theorem exec_linkRetrain (s : State) {plane init} : exec (.linkRetrain plane init) s = Sys2Proof.Machine.execLinkRetrain plane init s := rfl
@[simp] theorem exec_linkIdleTimeout (s : State) {plane} : exec (.linkIdleTimeout plane) s = Sys2Proof.Machine.execLinkIdleTimeout plane s := rfl
@[simp] theorem exec_linkDown (s : State) {plane} : exec (.linkDown plane) s = Sys2Proof.Machine.execLinkDown plane s := rfl
@[simp] theorem exec_idleFlit (s : State) {plane} : exec (.idleFlit plane) s = Sys2Proof.Machine.execIdleFlit plane s := rfl
@[simp] theorem exec_throttleProposal (s : State) {group member window mhz} : exec (.throttleProposal group member window mhz) s = Sys2Proof.Machine.execThrottleProposal group member window mhz s := rfl
@[simp] theorem exec_energyWindow (s : State) {meas} : exec (.energyWindow meas) s = Sys2Proof.Machine.execEnergyWindow meas s := rfl
@[simp] theorem exec_doorbell (s : State) {port q tail} : exec (.doorbell port q tail) s = Sys2Proof.Machine.execDoorbell port q tail s := rfl
@[simp] theorem exec_queueTake (s : State) {part} : exec (.queueTake part) s = Sys2Proof.Machine.execQueueTake part s := rfl
@[simp] theorem exec_priorityAging (s : State) {task} : exec (.priorityAging task) s = Sys2Proof.Machine.execPriorityAging task s := rfl
@[simp] theorem exec_taskDue (s : State) {part} : exec (.taskDue part) s = Sys2Proof.Machine.execTaskDue part s := rfl
@[simp] theorem exec_dispatchDecision (s : State) {cluster} : exec (.dispatchDecision cluster) s = Sys2Proof.Machine.execDispatchDecision cluster s := rfl
@[simp] theorem exec_warpFree (s : State) {core wslot counts} : exec (.warpFree core wslot counts) s = Sys2Proof.Machine.execWarpFree core wslot counts s := rfl
@[simp] theorem exec_taskRetire (s : State) {task} : exec (.taskRetire task) s = Sys2Proof.Machine.execTaskRetire task s := rfl
@[simp] theorem exec_preemptionStarvation (s : State) {task} : exec (.preemptionStarvation task) s = Sys2Proof.Machine.execPreemptionStarvation task s := rfl
@[simp] theorem exec_saveComplete (s : State) {group} : exec (.saveComplete group) s = Sys2Proof.Machine.execSaveComplete group s := rfl
@[simp] theorem exec_rldSaveTimeout (s : State) {group} : exec (.rldSaveTimeout group) s = Sys2Proof.Machine.execRldSaveTimeout group s := rfl
@[simp] theorem exec_watchdogExpire (s : State) {block} : exec (.watchdogExpire block) s = Sys2Proof.Machine.execWatchdogExpire block s := rfl
@[simp] theorem exec_claimGrant (s : State) {block} : exec (.claimGrant block) s = Sys2Proof.Machine.execClaimGrant block s := rfl
@[simp] theorem exec_wyieldRelease (s : State) {block} : exec (.wyieldRelease block) s = Sys2Proof.Machine.execWyieldRelease block s := rfl
@[simp] theorem exec_wfetchFill (s : State) {idx} : exec (.wfetchFill idx) s = Sys2Proof.Machine.execWfetchFill idx s := rfl
@[simp] theorem exec_auditReplay (s : State) {idx core} : exec (.auditReplay idx core) s = Sys2Proof.Machine.execAuditReplay idx core s := rfl
@[simp] theorem exec_auditReplayEnd (s : State) {idx} : exec (.auditReplayEnd idx) s = Sys2Proof.Machine.execAuditReplayEnd idx s := rfl
@[simp] theorem exec_scrubRead (s : State) {port} : exec (.scrubRead port) s = Sys2Proof.Machine.execScrubRead port s := rfl
@[simp] theorem exec_scrubWrite (s : State) {port} : exec (.scrubWrite port) s = Sys2Proof.Machine.execScrubWrite port s := rfl
@[simp] theorem exec_powerDownEntry (s : State) {port pc} : exec (.powerDownEntry port pc) s = Sys2Proof.Machine.execPowerDownEntry port pc s := rfl
@[simp] theorem exec_selfRefreshEntry (s : State) {port pc} : exec (.selfRefreshEntry port pc) s = Sys2Proof.Machine.execSelfRefreshEntry port pc s := rfl
@[simp] theorem exec_hbmThermalBand (s : State) {stack temp} : exec (.hbmThermalBand stack temp) s = Sys2Proof.Machine.execHbmThermalBand stack temp s := rfl
@[simp] theorem exec_inletOvertemp (s : State) {inlet junction} : exec (.inletOvertemp inlet junction) s = Sys2Proof.Machine.execInletOvertemp inlet junction s := rfl
@[simp] theorem exec_hostPortDown (s : State) {port} : exec (.hostPortDown port) s = Sys2Proof.Machine.execHostPortDown port s := rfl
@[simp] theorem exec_cxlPortWaitTimeout (s : State) {req} : exec (.cxlPortWaitTimeout req) s = Sys2Proof.Machine.execCxlPortWaitTimeout req s := rfl
@[simp] theorem exec_reset (s : State) : exec (.reset) s = Sys2Proof.Machine.execReset s := rfl
@[simp] theorem exec_bootStep (s : State) {img} : exec (.bootStep img) s = Sys2Proof.Machine.execBootStep img s := rfl
@[simp] theorem exec_bar0Write (s : State) {port off value} : exec (.bar0Write port off value) s = Sys2Proof.Machine.execBar0Write port off value s := rfl
@[simp] theorem exec_extentCreate (s : State) : exec (.extentCreate) s = Sys2Proof.Machine.execExtentCreate s := rfl
@[simp] theorem exec_extentRetire (s : State) : exec (.extentRetire) s = Sys2Proof.Machine.execExtentRetire s := rfl
@[simp] theorem exec_hostWindowWrite (s : State) : exec (.hostWindowWrite) s = Sys2Proof.Machine.execHostWindowWrite s := rfl
@[simp] theorem exec_rcbWrite (s : State) : exec (.rcbWrite) s = Sys2Proof.Machine.execRcbWrite s := rfl
@[simp] theorem exec_membershipTableEntry (s : State) : exec (.membershipTableEntry) s = Sys2Proof.Machine.execMembershipTableEntry s := rfl
@[simp] theorem exec_groupTableEntry (s : State) : exec (.groupTableEntry) s = Sys2Proof.Machine.execGroupTableEntry s := rfl
@[simp] theorem exec_faultFrameAnswer (s : State) : exec (.faultFrameAnswer) s = Sys2Proof.Machine.execFaultFrameAnswer s := rfl
@[simp] theorem exec_preemptionRequest (s : State) : exec (.preemptionRequest) s = Sys2Proof.Machine.execPreemptionRequest s := rfl
@[simp] theorem exec_regionKill (s : State) : exec (.regionKill) s = Sys2Proof.Machine.execRegionKill s := rfl
@[simp] theorem exec_attestationQuote (s : State) : exec (.attestationQuote) s = Sys2Proof.Machine.execAttestationQuote s := rfl
@[simp] theorem exec_acceptWork (s : State) : exec (.acceptWork) s = Sys2Proof.Machine.execAcceptWork s := rfl
@[simp] theorem exec_demotionPool (s : State) : exec (.demotionPool) s = Sys2Proof.Machine.execDemotionPool s := rfl
@[simp] theorem exec_pinQuota (s : State) : exec (.pinQuota) s = Sys2Proof.Machine.execPinQuota s := rfl
@[simp] theorem exec_auditSetting (s : State) : exec (.auditSetting) s = Sys2Proof.Machine.execAuditSetting s := rfl
@[simp] theorem exec_physicalCopy (s : State) : exec (.physicalCopy) s = Sys2Proof.Machine.execPhysicalCopy s := rfl
@[simp] theorem exec_unknownCommand (s : State) : exec (.unknownCommand) s = Sys2Proof.Machine.execUnknownCommand s := rfl
@[simp] theorem exec_hostPortUp (s : State) {port} : exec (.hostPortUp port) s = Sys2Proof.Machine.execHostPortUp port s := rfl
@[simp] theorem exec_channelExit (s : State) {port pc} : exec (.channelExit port pc) s = Sys2Proof.Machine.execChannelExit port pc s := rfl

end Sys2Proof.Machine
end

