-- ==== Sys2Proof/Laws/State.lean ====
section
/-! SUPPORT. One lemma per field per update of the state, of a warp and of a core, each true by rfl, so that no later proof unfolds
a record update. -/
namespace Sys2Proof.Machine

/-! `State.setCore` -/
@[simp] theorem State.setCore_schedule (s : State) (c : Nat) (k : Core) : (s.setCore c k).schedule = s.schedule := rfl
@[simp] theorem State.setCore_focus (s : State) (c : Nat) (k : Core) : (s.setCore c k).focus = s.focus := rfl
@[simp] theorem State.setCore_free (s : State) (c : Nat) (k : Core) : (s.setCore c k).free = s.free := rfl
@[simp] theorem State.setCore_warps (s : State) (c : Nat) (k : Core) : (s.setCore c k).warps = s.warps := rfl
@[simp] theorem State.setCore_mem (s : State) (c : Nat) (k : Core) : (s.setCore c k).mem = s.mem := rfl
@[simp] theorem State.setCore_work (s : State) (c : Nat) (k : Core) : (s.setCore c k).work = s.work := rfl
@[simp] theorem State.setCore_fab (s : State) (c : Nat) (k : Core) : (s.setCore c k).fab = s.fab := rfl
@[simp] theorem State.setCore_plat (s : State) (c : Nat) (k : Core) : (s.setCore c k).plat = s.plat := rfl

/-! `State.updCore` -/
@[simp] theorem State.updCore_schedule (s : State) (c : Nat) (f : Core → Core) : (s.updCore c f).schedule = s.schedule := rfl
@[simp] theorem State.updCore_focus (s : State) (c : Nat) (f : Core → Core) : (s.updCore c f).focus = s.focus := rfl
@[simp] theorem State.updCore_free (s : State) (c : Nat) (f : Core → Core) : (s.updCore c f).free = s.free := rfl
@[simp] theorem State.updCore_warps (s : State) (c : Nat) (f : Core → Core) : (s.updCore c f).warps = s.warps := rfl
@[simp] theorem State.updCore_mem (s : State) (c : Nat) (f : Core → Core) : (s.updCore c f).mem = s.mem := rfl
@[simp] theorem State.updCore_work (s : State) (c : Nat) (f : Core → Core) : (s.updCore c f).work = s.work := rfl
@[simp] theorem State.updCore_fab (s : State) (c : Nat) (f : Core → Core) : (s.updCore c f).fab = s.fab := rfl
@[simp] theorem State.updCore_plat (s : State) (c : Nat) (f : Core → Core) : (s.updCore c f).plat = s.plat := rfl

/-! `State.setWarp` -/
@[simp] theorem State.setWarp_schedule (s : State) (c w : Nat) (x : Warp) : (s.setWarp c w x).schedule = s.schedule := rfl
@[simp] theorem State.setWarp_focus (s : State) (c w : Nat) (x : Warp) : (s.setWarp c w x).focus = s.focus := rfl
@[simp] theorem State.setWarp_free (s : State) (c w : Nat) (x : Warp) : (s.setWarp c w x).free = s.free := rfl
@[simp] theorem State.setWarp_cores (s : State) (c w : Nat) (x : Warp) : (s.setWarp c w x).cores = s.cores := rfl
@[simp] theorem State.setWarp_mem (s : State) (c w : Nat) (x : Warp) : (s.setWarp c w x).mem = s.mem := rfl
@[simp] theorem State.setWarp_work (s : State) (c w : Nat) (x : Warp) : (s.setWarp c w x).work = s.work := rfl
@[simp] theorem State.setWarp_fab (s : State) (c w : Nat) (x : Warp) : (s.setWarp c w x).fab = s.fab := rfl
@[simp] theorem State.setWarp_plat (s : State) (c w : Nat) (x : Warp) : (s.setWarp c w x).plat = s.plat := rfl

/-! `State.updWarp` -/
@[simp] theorem State.updWarp_schedule (s : State) (c w : Nat) (f : Warp → Warp) : (s.updWarp c w f).schedule = s.schedule := rfl
@[simp] theorem State.updWarp_focus (s : State) (c w : Nat) (f : Warp → Warp) : (s.updWarp c w f).focus = s.focus := rfl
@[simp] theorem State.updWarp_free (s : State) (c w : Nat) (f : Warp → Warp) : (s.updWarp c w f).free = s.free := rfl
@[simp] theorem State.updWarp_cores (s : State) (c w : Nat) (f : Warp → Warp) : (s.updWarp c w f).cores = s.cores := rfl
@[simp] theorem State.updWarp_mem (s : State) (c w : Nat) (f : Warp → Warp) : (s.updWarp c w f).mem = s.mem := rfl
@[simp] theorem State.updWarp_work (s : State) (c w : Nat) (f : Warp → Warp) : (s.updWarp c w f).work = s.work := rfl
@[simp] theorem State.updWarp_fab (s : State) (c w : Nat) (f : Warp → Warp) : (s.updWarp c w f).fab = s.fab := rfl
@[simp] theorem State.updWarp_plat (s : State) (c w : Nat) (f : Warp → Warp) : (s.updWarp c w f).plat = s.plat := rfl

/-! `State.updHere` -/
@[simp] theorem State.updHere_schedule (s : State) (f : Warp → Warp) : (s.updHere f).schedule = s.schedule := rfl
@[simp] theorem State.updHere_focus (s : State) (f : Warp → Warp) : (s.updHere f).focus = s.focus := rfl
@[simp] theorem State.updHere_free (s : State) (f : Warp → Warp) : (s.updHere f).free = s.free := rfl
@[simp] theorem State.updHere_cores (s : State) (f : Warp → Warp) : (s.updHere f).cores = s.cores := rfl
@[simp] theorem State.updHere_mem (s : State) (f : Warp → Warp) : (s.updHere f).mem = s.mem := rfl
@[simp] theorem State.updHere_work (s : State) (f : Warp → Warp) : (s.updHere f).work = s.work := rfl
@[simp] theorem State.updHere_fab (s : State) (f : Warp → Warp) : (s.updHere f).fab = s.fab := rfl
@[simp] theorem State.updHere_plat (s : State) (f : Warp → Warp) : (s.updHere f).plat = s.plat := rfl

/-! `State.setBlk` -/
@[simp] theorem State.setBlk_schedule (s : State) (b : Nat) (x : Block) : (s.setBlk b x).schedule = s.schedule := rfl
@[simp] theorem State.setBlk_focus (s : State) (b : Nat) (x : Block) : (s.setBlk b x).focus = s.focus := rfl
@[simp] theorem State.setBlk_free (s : State) (b : Nat) (x : Block) : (s.setBlk b x).free = s.free := rfl
@[simp] theorem State.setBlk_cores (s : State) (b : Nat) (x : Block) : (s.setBlk b x).cores = s.cores := rfl
@[simp] theorem State.setBlk_warps (s : State) (b : Nat) (x : Block) : (s.setBlk b x).warps = s.warps := rfl
@[simp] theorem State.setBlk_mem (s : State) (b : Nat) (x : Block) : (s.setBlk b x).mem = s.mem := rfl
@[simp] theorem State.setBlk_fab (s : State) (b : Nat) (x : Block) : (s.setBlk b x).fab = s.fab := rfl
@[simp] theorem State.setBlk_plat (s : State) (b : Nat) (x : Block) : (s.setBlk b x).plat = s.plat := rfl

/-! `State.updBlk` -/
@[simp] theorem State.updBlk_schedule (s : State) (b : Nat) (f : Block → Block) : (s.updBlk b f).schedule = s.schedule := rfl
@[simp] theorem State.updBlk_focus (s : State) (b : Nat) (f : Block → Block) : (s.updBlk b f).focus = s.focus := rfl
@[simp] theorem State.updBlk_free (s : State) (b : Nat) (f : Block → Block) : (s.updBlk b f).free = s.free := rfl
@[simp] theorem State.updBlk_cores (s : State) (b : Nat) (f : Block → Block) : (s.updBlk b f).cores = s.cores := rfl
@[simp] theorem State.updBlk_warps (s : State) (b : Nat) (f : Block → Block) : (s.updBlk b f).warps = s.warps := rfl
@[simp] theorem State.updBlk_mem (s : State) (b : Nat) (f : Block → Block) : (s.updBlk b f).mem = s.mem := rfl
@[simp] theorem State.updBlk_fab (s : State) (b : Nat) (f : Block → Block) : (s.updBlk b f).fab = s.fab := rfl
@[simp] theorem State.updBlk_plat (s : State) (b : Nat) (f : Block → Block) : (s.updBlk b f).plat = s.plat := rfl

/-! `State.setBytes` -/
@[simp] theorem State.setBytes_schedule (s : State) (m : Memory) : (s.setBytes m).schedule = s.schedule := rfl
@[simp] theorem State.setBytes_focus (s : State) (m : Memory) : (s.setBytes m).focus = s.focus := rfl
@[simp] theorem State.setBytes_free (s : State) (m : Memory) : (s.setBytes m).free = s.free := rfl
@[simp] theorem State.setBytes_cores (s : State) (m : Memory) : (s.setBytes m).cores = s.cores := rfl
@[simp] theorem State.setBytes_warps (s : State) (m : Memory) : (s.setBytes m).warps = s.warps := rfl
@[simp] theorem State.setBytes_work (s : State) (m : Memory) : (s.setBytes m).work = s.work := rfl
@[simp] theorem State.setBytes_fab (s : State) (m : Memory) : (s.setBytes m).fab = s.fab := rfl
@[simp] theorem State.setBytes_plat (s : State) (m : Memory) : (s.setBytes m).plat = s.plat := rfl

/-! `State.setReq` -/
@[simp] theorem State.setReq_schedule (s : State) (i : Nat) (r : Req) : (s.setReq i r).schedule = s.schedule := rfl
@[simp] theorem State.setReq_focus (s : State) (i : Nat) (r : Req) : (s.setReq i r).focus = s.focus := rfl
@[simp] theorem State.setReq_free (s : State) (i : Nat) (r : Req) : (s.setReq i r).free = s.free := rfl
@[simp] theorem State.setReq_cores (s : State) (i : Nat) (r : Req) : (s.setReq i r).cores = s.cores := rfl
@[simp] theorem State.setReq_warps (s : State) (i : Nat) (r : Req) : (s.setReq i r).warps = s.warps := rfl
@[simp] theorem State.setReq_work (s : State) (i : Nat) (r : Req) : (s.setReq i r).work = s.work := rfl
@[simp] theorem State.setReq_fab (s : State) (i : Nat) (r : Req) : (s.setReq i r).fab = s.fab := rfl
@[simp] theorem State.setReq_plat (s : State) (i : Nat) (r : Req) : (s.setReq i r).plat = s.plat := rfl

/-! `State.delReq` -/
@[simp] theorem State.delReq_schedule (s : State) (i : Nat) : (s.delReq i).schedule = s.schedule := rfl
@[simp] theorem State.delReq_focus (s : State) (i : Nat) : (s.delReq i).focus = s.focus := rfl
@[simp] theorem State.delReq_free (s : State) (i : Nat) : (s.delReq i).free = s.free := rfl
@[simp] theorem State.delReq_cores (s : State) (i : Nat) : (s.delReq i).cores = s.cores := rfl
@[simp] theorem State.delReq_warps (s : State) (i : Nat) : (s.delReq i).warps = s.warps := rfl
@[simp] theorem State.delReq_work (s : State) (i : Nat) : (s.delReq i).work = s.work := rfl
@[simp] theorem State.delReq_fab (s : State) (i : Nat) : (s.delReq i).fab = s.fab := rfl
@[simp] theorem State.delReq_plat (s : State) (i : Nat) : (s.delReq i).plat = s.plat := rfl

/-! `State.setMail` -/
@[simp] theorem State.setMail_schedule (s : State) (m : SMap BMail) : (s.setMail m).schedule = s.schedule := rfl
@[simp] theorem State.setMail_focus (s : State) (m : SMap BMail) : (s.setMail m).focus = s.focus := rfl
@[simp] theorem State.setMail_free (s : State) (m : SMap BMail) : (s.setMail m).free = s.free := rfl
@[simp] theorem State.setMail_cores (s : State) (m : SMap BMail) : (s.setMail m).cores = s.cores := rfl
@[simp] theorem State.setMail_warps (s : State) (m : SMap BMail) : (s.setMail m).warps = s.warps := rfl
@[simp] theorem State.setMail_work (s : State) (m : SMap BMail) : (s.setMail m).work = s.work := rfl
@[simp] theorem State.setMail_fab (s : State) (m : SMap BMail) : (s.setMail m).fab = s.fab := rfl
@[simp] theorem State.setMail_plat (s : State) (m : SMap BMail) : (s.setMail m).plat = s.plat := rfl

/-! `State.setOp` -/
@[simp] theorem State.setOp_schedule (s : State) (i : Nat) (o : Op) : (s.setOp i o).schedule = s.schedule := rfl
@[simp] theorem State.setOp_focus (s : State) (i : Nat) (o : Op) : (s.setOp i o).focus = s.focus := rfl
@[simp] theorem State.setOp_free (s : State) (i : Nat) (o : Op) : (s.setOp i o).free = s.free := rfl
@[simp] theorem State.setOp_cores (s : State) (i : Nat) (o : Op) : (s.setOp i o).cores = s.cores := rfl
@[simp] theorem State.setOp_warps (s : State) (i : Nat) (o : Op) : (s.setOp i o).warps = s.warps := rfl
@[simp] theorem State.setOp_mem (s : State) (i : Nat) (o : Op) : (s.setOp i o).mem = s.mem := rfl
@[simp] theorem State.setOp_fab (s : State) (i : Nat) (o : Op) : (s.setOp i o).fab = s.fab := rfl
@[simp] theorem State.setOp_plat (s : State) (i : Nat) (o : Op) : (s.setOp i o).plat = s.plat := rfl

/-! `State.setPart` -/
@[simp] theorem State.setPart_schedule (s : State) (i : Nat) (o : XPart) : (s.setPart i o).schedule = s.schedule := rfl
@[simp] theorem State.setPart_focus (s : State) (i : Nat) (o : XPart) : (s.setPart i o).focus = s.focus := rfl
@[simp] theorem State.setPart_free (s : State) (i : Nat) (o : XPart) : (s.setPart i o).free = s.free := rfl
@[simp] theorem State.setPart_cores (s : State) (i : Nat) (o : XPart) : (s.setPart i o).cores = s.cores := rfl
@[simp] theorem State.setPart_warps (s : State) (i : Nat) (o : XPart) : (s.setPart i o).warps = s.warps := rfl
@[simp] theorem State.setPart_mem (s : State) (i : Nat) (o : XPart) : (s.setPart i o).mem = s.mem := rfl
@[simp] theorem State.setPart_fab (s : State) (i : Nat) (o : XPart) : (s.setPart i o).fab = s.fab := rfl
@[simp] theorem State.setPart_plat (s : State) (i : Nat) (o : XPart) : (s.setPart i o).plat = s.plat := rfl

/-! `State.setTask` -/
@[simp] theorem State.setTask_schedule (s : State) (i : Nat) (x : Task) : (s.setTask i x).schedule = s.schedule := rfl
@[simp] theorem State.setTask_focus (s : State) (i : Nat) (x : Task) : (s.setTask i x).focus = s.focus := rfl
@[simp] theorem State.setTask_free (s : State) (i : Nat) (x : Task) : (s.setTask i x).free = s.free := rfl
@[simp] theorem State.setTask_cores (s : State) (i : Nat) (x : Task) : (s.setTask i x).cores = s.cores := rfl
@[simp] theorem State.setTask_warps (s : State) (i : Nat) (x : Task) : (s.setTask i x).warps = s.warps := rfl
@[simp] theorem State.setTask_mem (s : State) (i : Nat) (x : Task) : (s.setTask i x).mem = s.mem := rfl
@[simp] theorem State.setTask_fab (s : State) (i : Nat) (x : Task) : (s.setTask i x).fab = s.fab := rfl
@[simp] theorem State.setTask_plat (s : State) (i : Nat) (x : Task) : (s.setTask i x).plat = s.plat := rfl

/-! `State.setGroup` -/
@[simp] theorem State.setGroup_schedule (s : State) (i : Nat) (g : Group) : (s.setGroup i g).schedule = s.schedule := rfl
@[simp] theorem State.setGroup_focus (s : State) (i : Nat) (g : Group) : (s.setGroup i g).focus = s.focus := rfl
@[simp] theorem State.setGroup_free (s : State) (i : Nat) (g : Group) : (s.setGroup i g).free = s.free := rfl
@[simp] theorem State.setGroup_cores (s : State) (i : Nat) (g : Group) : (s.setGroup i g).cores = s.cores := rfl
@[simp] theorem State.setGroup_warps (s : State) (i : Nat) (g : Group) : (s.setGroup i g).warps = s.warps := rfl
@[simp] theorem State.setGroup_mem (s : State) (i : Nat) (g : Group) : (s.setGroup i g).mem = s.mem := rfl
@[simp] theorem State.setGroup_fab (s : State) (i : Nat) (g : Group) : (s.setGroup i g).fab = s.fab := rfl
@[simp] theorem State.setGroup_plat (s : State) (i : Nat) (g : Group) : (s.setGroup i g).plat = s.plat := rfl

/-! `State.setFrame` -/
@[simp] theorem State.setFrame_schedule (s : State) (i : Nat) (f : Frame) : (s.setFrame i f).schedule = s.schedule := rfl
@[simp] theorem State.setFrame_focus (s : State) (i : Nat) (f : Frame) : (s.setFrame i f).focus = s.focus := rfl
@[simp] theorem State.setFrame_free (s : State) (i : Nat) (f : Frame) : (s.setFrame i f).free = s.free := rfl
@[simp] theorem State.setFrame_cores (s : State) (i : Nat) (f : Frame) : (s.setFrame i f).cores = s.cores := rfl
@[simp] theorem State.setFrame_warps (s : State) (i : Nat) (f : Frame) : (s.setFrame i f).warps = s.warps := rfl
@[simp] theorem State.setFrame_mem (s : State) (i : Nat) (f : Frame) : (s.setFrame i f).mem = s.mem := rfl
@[simp] theorem State.setFrame_fab (s : State) (i : Nat) (f : Frame) : (s.setFrame i f).fab = s.fab := rfl
@[simp] theorem State.setFrame_plat (s : State) (i : Nat) (f : Frame) : (s.setFrame i f).plat = s.plat := rfl

/-! `State.setWork` -/
@[simp] theorem State.setWork_schedule (s : State) (x : Work) : (s.setWork x).schedule = s.schedule := rfl
@[simp] theorem State.setWork_focus (s : State) (x : Work) : (s.setWork x).focus = s.focus := rfl
@[simp] theorem State.setWork_free (s : State) (x : Work) : (s.setWork x).free = s.free := rfl
@[simp] theorem State.setWork_cores (s : State) (x : Work) : (s.setWork x).cores = s.cores := rfl
@[simp] theorem State.setWork_warps (s : State) (x : Work) : (s.setWork x).warps = s.warps := rfl
@[simp] theorem State.setWork_mem (s : State) (x : Work) : (s.setWork x).mem = s.mem := rfl
@[simp] theorem State.setWork_fab (s : State) (x : Work) : (s.setWork x).fab = s.fab := rfl
@[simp] theorem State.setWork_plat (s : State) (x : Work) : (s.setWork x).plat = s.plat := rfl

/-! `State.setMem` -/
@[simp] theorem State.setMem_schedule (s : State) (m : Mem) : (s.setMem m).schedule = s.schedule := rfl
@[simp] theorem State.setMem_focus (s : State) (m : Mem) : (s.setMem m).focus = s.focus := rfl
@[simp] theorem State.setMem_free (s : State) (m : Mem) : (s.setMem m).free = s.free := rfl
@[simp] theorem State.setMem_cores (s : State) (m : Mem) : (s.setMem m).cores = s.cores := rfl
@[simp] theorem State.setMem_warps (s : State) (m : Mem) : (s.setMem m).warps = s.warps := rfl
@[simp] theorem State.setMem_work (s : State) (m : Mem) : (s.setMem m).work = s.work := rfl
@[simp] theorem State.setMem_fab (s : State) (m : Mem) : (s.setMem m).fab = s.fab := rfl
@[simp] theorem State.setMem_plat (s : State) (m : Mem) : (s.setMem m).plat = s.plat := rfl

/-! `State.setFab` -/
@[simp] theorem State.setFab_schedule (s : State) (f : Fabric) : (s.setFab f).schedule = s.schedule := rfl
@[simp] theorem State.setFab_focus (s : State) (f : Fabric) : (s.setFab f).focus = s.focus := rfl
@[simp] theorem State.setFab_free (s : State) (f : Fabric) : (s.setFab f).free = s.free := rfl
@[simp] theorem State.setFab_cores (s : State) (f : Fabric) : (s.setFab f).cores = s.cores := rfl
@[simp] theorem State.setFab_warps (s : State) (f : Fabric) : (s.setFab f).warps = s.warps := rfl
@[simp] theorem State.setFab_mem (s : State) (f : Fabric) : (s.setFab f).mem = s.mem := rfl
@[simp] theorem State.setFab_work (s : State) (f : Fabric) : (s.setFab f).work = s.work := rfl
@[simp] theorem State.setFab_plat (s : State) (f : Fabric) : (s.setFab f).plat = s.plat := rfl

/-! `State.setPlat` -/
@[simp] theorem State.setPlat_schedule (s : State) (p : Plat) : (s.setPlat p).schedule = s.schedule := rfl
@[simp] theorem State.setPlat_focus (s : State) (p : Plat) : (s.setPlat p).focus = s.focus := rfl
@[simp] theorem State.setPlat_free (s : State) (p : Plat) : (s.setPlat p).free = s.free := rfl
@[simp] theorem State.setPlat_cores (s : State) (p : Plat) : (s.setPlat p).cores = s.cores := rfl
@[simp] theorem State.setPlat_warps (s : State) (p : Plat) : (s.setPlat p).warps = s.warps := rfl
@[simp] theorem State.setPlat_mem (s : State) (p : Plat) : (s.setPlat p).mem = s.mem := rfl
@[simp] theorem State.setPlat_work (s : State) (p : Plat) : (s.setPlat p).work = s.work := rfl
@[simp] theorem State.setPlat_fab (s : State) (p : Plat) : (s.setPlat p).fab = s.fab := rfl

@[simp] theorem State.setWork_work (s : State) (x : Work) : (s.setWork x).work = x := rfl
@[simp] theorem State.setMem_mem (s : State) (m : Mem) : (s.setMem m).mem = m := rfl
@[simp] theorem State.setFab_fab (s : State) (f : Fabric) : (s.setFab f).fab = f := rfl
@[simp] theorem State.setPlat_plat (s : State) (p : Plat) : (s.setPlat p).plat = p := rfl
@[simp] theorem State.setReq_mem_bytes (s : State) (i : Nat) (r : Req) : (s.setReq i r).mem.bytes = s.mem.bytes := rfl
@[simp] theorem State.setReq_mem_marks (s : State) (i : Nat) (r : Req) : (s.setReq i r).mem.marks = s.mem.marks := rfl
@[simp] theorem State.setReq_mem_soft (s : State) (i : Nat) (r : Req) : (s.setReq i r).mem.soft = s.mem.soft := rfl
@[simp] theorem State.setReq_mem_l2 (s : State) (i : Nat) (r : Req) : (s.setReq i r).mem.l2 = s.mem.l2 := rfl
@[simp] theorem State.setReq_mem_owner (s : State) (i : Nat) (r : Req) : (s.setReq i r).mem.owner = s.mem.owner := rfl
@[simp] theorem State.setReq_mem_moesi (s : State) (i : Nat) (r : Req) : (s.setReq i r).mem.moesi = s.mem.moesi := rfl
@[simp] theorem State.setReq_mem_cxl (s : State) (i : Nat) (r : Req) : (s.setReq i r).mem.cxl = s.mem.cxl := rfl
@[simp] theorem State.setReq_mem_bnd (s : State) (i : Nat) (r : Req) : (s.setReq i r).mem.bnd = s.mem.bnd := rfl
@[simp] theorem State.setReq_mem_mail (s : State) (i : Nat) (r : Req) : (s.setReq i r).mem.mail = s.mem.mail := rfl
@[simp] theorem State.setReq_mem_waits (s : State) (i : Nat) (r : Req) : (s.setReq i r).mem.waits = s.mem.waits := rfl
@[simp] theorem State.setReq_mem_dir (s : State) (i : Nat) (r : Req) : (s.setReq i r).mem.dir = s.mem.dir := rfl
@[simp] theorem State.setReq_mem_exts (s : State) (i : Nat) (r : Req) : (s.setReq i r).mem.exts = s.mem.exts := rfl
@[simp] theorem State.setReq_mem_slides (s : State) (i : Nat) (r : Req) : (s.setReq i r).mem.slides = s.mem.slides := rfl
@[simp] theorem State.setReq_mem_pools (s : State) (i : Nat) (r : Req) : (s.setReq i r).mem.pools = s.mem.pools := rfl
@[simp] theorem State.setReq_mem_quota (s : State) (i : Nat) (r : Req) : (s.setReq i r).mem.quota = s.mem.quota := rfl
@[simp] theorem State.setReq_mem_chans (s : State) (i : Nat) (r : Req) : (s.setReq i r).mem.chans = s.mem.chans := rfl
@[simp] theorem State.setReq_mem_scrubs (s : State) (i : Nat) (r : Req) : (s.setReq i r).mem.scrubs = s.mem.scrubs := rfl
@[simp] theorem State.setReq_mem_bands (s : State) (i : Nat) (r : Req) : (s.setReq i r).mem.bands = s.mem.bands := rfl
@[simp] theorem State.setReq_mem_nextQ (s : State) (i : Nat) (r : Req) : (s.setReq i r).mem.nextQ = s.mem.nextQ := rfl
@[simp] theorem State.setReq_mem_cst (s : State) (i : Nat) (r : Req) : (s.setReq i r).mem.cst = s.mem.cst := rfl
@[simp] theorem State.setReq_mem_upsets (s : State) (i : Nat) (r : Req) : (s.setReq i r).mem.upsets = s.mem.upsets := rfl
@[simp] theorem State.delReq_mem_bytes (s : State) (i : Nat) : (s.delReq i).mem.bytes = s.mem.bytes := rfl
@[simp] theorem State.delReq_mem_marks (s : State) (i : Nat) : (s.delReq i).mem.marks = s.mem.marks := rfl
@[simp] theorem State.delReq_mem_soft (s : State) (i : Nat) : (s.delReq i).mem.soft = s.mem.soft := rfl
@[simp] theorem State.delReq_mem_l2 (s : State) (i : Nat) : (s.delReq i).mem.l2 = s.mem.l2 := rfl
@[simp] theorem State.delReq_mem_owner (s : State) (i : Nat) : (s.delReq i).mem.owner = s.mem.owner := rfl
@[simp] theorem State.delReq_mem_moesi (s : State) (i : Nat) : (s.delReq i).mem.moesi = s.mem.moesi := rfl
@[simp] theorem State.delReq_mem_cxl (s : State) (i : Nat) : (s.delReq i).mem.cxl = s.mem.cxl := rfl
@[simp] theorem State.delReq_mem_bnd (s : State) (i : Nat) : (s.delReq i).mem.bnd = s.mem.bnd := rfl
@[simp] theorem State.delReq_mem_mail (s : State) (i : Nat) : (s.delReq i).mem.mail = s.mem.mail := rfl
@[simp] theorem State.delReq_mem_waits (s : State) (i : Nat) : (s.delReq i).mem.waits = s.mem.waits := rfl
@[simp] theorem State.delReq_mem_dir (s : State) (i : Nat) : (s.delReq i).mem.dir = s.mem.dir := rfl
@[simp] theorem State.delReq_mem_exts (s : State) (i : Nat) : (s.delReq i).mem.exts = s.mem.exts := rfl
@[simp] theorem State.delReq_mem_slides (s : State) (i : Nat) : (s.delReq i).mem.slides = s.mem.slides := rfl
@[simp] theorem State.delReq_mem_pools (s : State) (i : Nat) : (s.delReq i).mem.pools = s.mem.pools := rfl
@[simp] theorem State.delReq_mem_quota (s : State) (i : Nat) : (s.delReq i).mem.quota = s.mem.quota := rfl
@[simp] theorem State.delReq_mem_chans (s : State) (i : Nat) : (s.delReq i).mem.chans = s.mem.chans := rfl
@[simp] theorem State.delReq_mem_scrubs (s : State) (i : Nat) : (s.delReq i).mem.scrubs = s.mem.scrubs := rfl
@[simp] theorem State.delReq_mem_bands (s : State) (i : Nat) : (s.delReq i).mem.bands = s.mem.bands := rfl
@[simp] theorem State.delReq_mem_nextQ (s : State) (i : Nat) : (s.delReq i).mem.nextQ = s.mem.nextQ := rfl
@[simp] theorem State.delReq_mem_cst (s : State) (i : Nat) : (s.delReq i).mem.cst = s.mem.cst := rfl
@[simp] theorem State.delReq_mem_upsets (s : State) (i : Nat) : (s.delReq i).mem.upsets = s.mem.upsets := rfl
@[simp] theorem State.setMail_mem_bytes (s : State) (m : SMap BMail) : (s.setMail m).mem.bytes = s.mem.bytes := rfl
@[simp] theorem State.setMail_mem_marks (s : State) (m : SMap BMail) : (s.setMail m).mem.marks = s.mem.marks := rfl
@[simp] theorem State.setMail_mem_soft (s : State) (m : SMap BMail) : (s.setMail m).mem.soft = s.mem.soft := rfl
@[simp] theorem State.setMail_mem_l2 (s : State) (m : SMap BMail) : (s.setMail m).mem.l2 = s.mem.l2 := rfl
@[simp] theorem State.setMail_mem_owner (s : State) (m : SMap BMail) : (s.setMail m).mem.owner = s.mem.owner := rfl
@[simp] theorem State.setMail_mem_moesi (s : State) (m : SMap BMail) : (s.setMail m).mem.moesi = s.mem.moesi := rfl
@[simp] theorem State.setMail_mem_cxl (s : State) (m : SMap BMail) : (s.setMail m).mem.cxl = s.mem.cxl := rfl
@[simp] theorem State.setMail_mem_bnd (s : State) (m : SMap BMail) : (s.setMail m).mem.bnd = s.mem.bnd := rfl
@[simp] theorem State.setMail_mem_waits (s : State) (m : SMap BMail) : (s.setMail m).mem.waits = s.mem.waits := rfl
@[simp] theorem State.setMail_mem_dir (s : State) (m : SMap BMail) : (s.setMail m).mem.dir = s.mem.dir := rfl
@[simp] theorem State.setMail_mem_exts (s : State) (m : SMap BMail) : (s.setMail m).mem.exts = s.mem.exts := rfl
@[simp] theorem State.setMail_mem_slides (s : State) (m : SMap BMail) : (s.setMail m).mem.slides = s.mem.slides := rfl
@[simp] theorem State.setMail_mem_pools (s : State) (m : SMap BMail) : (s.setMail m).mem.pools = s.mem.pools := rfl
@[simp] theorem State.setMail_mem_quota (s : State) (m : SMap BMail) : (s.setMail m).mem.quota = s.mem.quota := rfl
@[simp] theorem State.setMail_mem_chans (s : State) (m : SMap BMail) : (s.setMail m).mem.chans = s.mem.chans := rfl
@[simp] theorem State.setMail_mem_scrubs (s : State) (m : SMap BMail) : (s.setMail m).mem.scrubs = s.mem.scrubs := rfl
@[simp] theorem State.setMail_mem_bands (s : State) (m : SMap BMail) : (s.setMail m).mem.bands = s.mem.bands := rfl
@[simp] theorem State.setMail_mem_reqs (s : State) (m : SMap BMail) : (s.setMail m).mem.reqs = s.mem.reqs := rfl
@[simp] theorem State.setMail_mem_nextQ (s : State) (m : SMap BMail) : (s.setMail m).mem.nextQ = s.mem.nextQ := rfl
@[simp] theorem State.setMail_mem_cst (s : State) (m : SMap BMail) : (s.setMail m).mem.cst = s.mem.cst := rfl
@[simp] theorem State.setMail_mem_upsets (s : State) (m : SMap BMail) : (s.setMail m).mem.upsets = s.mem.upsets := rfl
@[simp] theorem State.setBytes_mem_marks (s : State) (m : Memory) : (s.setBytes m).mem.marks = s.mem.marks := rfl
@[simp] theorem State.setBytes_mem_soft (s : State) (m : Memory) : (s.setBytes m).mem.soft = s.mem.soft := rfl
@[simp] theorem State.setBytes_mem_l2 (s : State) (m : Memory) : (s.setBytes m).mem.l2 = s.mem.l2 := rfl
@[simp] theorem State.setBytes_mem_owner (s : State) (m : Memory) : (s.setBytes m).mem.owner = s.mem.owner := rfl
@[simp] theorem State.setBytes_mem_moesi (s : State) (m : Memory) : (s.setBytes m).mem.moesi = s.mem.moesi := rfl
@[simp] theorem State.setBytes_mem_cxl (s : State) (m : Memory) : (s.setBytes m).mem.cxl = s.mem.cxl := rfl
@[simp] theorem State.setBytes_mem_bnd (s : State) (m : Memory) : (s.setBytes m).mem.bnd = s.mem.bnd := rfl
@[simp] theorem State.setBytes_mem_mail (s : State) (m : Memory) : (s.setBytes m).mem.mail = s.mem.mail := rfl
@[simp] theorem State.setBytes_mem_waits (s : State) (m : Memory) : (s.setBytes m).mem.waits = s.mem.waits := rfl
@[simp] theorem State.setBytes_mem_dir (s : State) (m : Memory) : (s.setBytes m).mem.dir = s.mem.dir := rfl
@[simp] theorem State.setBytes_mem_exts (s : State) (m : Memory) : (s.setBytes m).mem.exts = s.mem.exts := rfl
@[simp] theorem State.setBytes_mem_slides (s : State) (m : Memory) : (s.setBytes m).mem.slides = s.mem.slides := rfl
@[simp] theorem State.setBytes_mem_pools (s : State) (m : Memory) : (s.setBytes m).mem.pools = s.mem.pools := rfl
@[simp] theorem State.setBytes_mem_quota (s : State) (m : Memory) : (s.setBytes m).mem.quota = s.mem.quota := rfl
@[simp] theorem State.setBytes_mem_chans (s : State) (m : Memory) : (s.setBytes m).mem.chans = s.mem.chans := rfl
@[simp] theorem State.setBytes_mem_scrubs (s : State) (m : Memory) : (s.setBytes m).mem.scrubs = s.mem.scrubs := rfl
@[simp] theorem State.setBytes_mem_bands (s : State) (m : Memory) : (s.setBytes m).mem.bands = s.mem.bands := rfl
@[simp] theorem State.setBytes_mem_reqs (s : State) (m : Memory) : (s.setBytes m).mem.reqs = s.mem.reqs := rfl
@[simp] theorem State.setBytes_mem_nextQ (s : State) (m : Memory) : (s.setBytes m).mem.nextQ = s.mem.nextQ := rfl
@[simp] theorem State.setBytes_mem_cst (s : State) (m : Memory) : (s.setBytes m).mem.cst = s.mem.cst := rfl
@[simp] theorem State.setBytes_mem_upsets (s : State) (m : Memory) : (s.setBytes m).mem.upsets = s.mem.upsets := rfl
@[simp] theorem State.setBlk_work_groups (s : State) (b : Nat) (x : Block) : (s.setBlk b x).work.groups = s.work.groups := rfl
@[simp] theorem State.setBlk_work_saved (s : State) (b : Nat) (x : Block) : (s.setBlk b x).work.saved = s.work.saved := rfl
@[simp] theorem State.setBlk_work_tasks (s : State) (b : Nat) (x : Block) : (s.setBlk b x).work.tasks = s.work.tasks := rfl
@[simp] theorem State.setBlk_work_kernels (s : State) (b : Nat) (x : Block) : (s.setBlk b x).work.kernels = s.work.kernels := rfl
@[simp] theorem State.setBlk_work_graphs (s : State) (b : Nat) (x : Block) : (s.setBlk b x).work.graphs = s.work.graphs := rfl
@[simp] theorem State.setBlk_work_ops (s : State) (b : Nat) (x : Block) : (s.setBlk b x).work.ops = s.work.ops := rfl
@[simp] theorem State.setBlk_work_parts (s : State) (b : Nat) (x : Block) : (s.setBlk b x).work.parts = s.work.parts := rfl
@[simp] theorem State.setBlk_work_recvs (s : State) (b : Nat) (x : Block) : (s.setBlk b x).work.recvs = s.work.recvs := rfl
@[simp] theorem State.setBlk_work_xgDead (s : State) (b : Nat) (x : Block) : (s.setBlk b x).work.xgDead = s.work.xgDead := rfl
@[simp] theorem State.setBlk_work_mops (s : State) (b : Nat) (x : Block) : (s.setBlk b x).work.mops = s.work.mops := rfl
@[simp] theorem State.setBlk_work_ilts (s : State) (b : Nat) (x : Block) : (s.setBlk b x).work.ilts = s.work.ilts := rfl
@[simp] theorem State.setBlk_work_frames (s : State) (b : Nat) (x : Block) : (s.setBlk b x).work.frames = s.work.frames := rfl
@[simp] theorem State.setBlk_work_fetches (s : State) (b : Nat) (x : Block) : (s.setBlk b x).work.fetches = s.work.fetches := rfl
@[simp] theorem State.setBlk_work_audits (s : State) (b : Nat) (x : Block) : (s.setBlk b x).work.audits = s.work.audits := rfl
@[simp] theorem State.setBlk_work_devq (s : State) (b : Nat) (x : Block) : (s.setBlk b x).work.devq = s.work.devq := rfl
@[simp] theorem State.setBlk_work_lastQ (s : State) (b : Nat) (x : Block) : (s.setBlk b x).work.lastQ = s.work.lastQ := rfl
@[simp] theorem State.setBlk_work_turn (s : State) (b : Nat) (x : Block) : (s.setBlk b x).work.turn = s.work.turn := rfl
@[simp] theorem State.setBlk_work_rcbs (s : State) (b : Nat) (x : Block) : (s.setBlk b x).work.rcbs = s.work.rcbs := rfl
@[simp] theorem State.setBlk_work_next (s : State) (b : Nat) (x : Block) : (s.setBlk b x).work.next = s.work.next := rfl
@[simp] theorem State.setOp_work_blocks (s : State) (i : Nat) (o : Op) : (s.setOp i o).work.blocks = s.work.blocks := rfl
@[simp] theorem State.setOp_work_groups (s : State) (i : Nat) (o : Op) : (s.setOp i o).work.groups = s.work.groups := rfl
@[simp] theorem State.setOp_work_saved (s : State) (i : Nat) (o : Op) : (s.setOp i o).work.saved = s.work.saved := rfl
@[simp] theorem State.setOp_work_tasks (s : State) (i : Nat) (o : Op) : (s.setOp i o).work.tasks = s.work.tasks := rfl
@[simp] theorem State.setOp_work_kernels (s : State) (i : Nat) (o : Op) : (s.setOp i o).work.kernels = s.work.kernels := rfl
@[simp] theorem State.setOp_work_graphs (s : State) (i : Nat) (o : Op) : (s.setOp i o).work.graphs = s.work.graphs := rfl
@[simp] theorem State.setOp_work_parts (s : State) (i : Nat) (o : Op) : (s.setOp i o).work.parts = s.work.parts := rfl
@[simp] theorem State.setOp_work_recvs (s : State) (i : Nat) (o : Op) : (s.setOp i o).work.recvs = s.work.recvs := rfl
@[simp] theorem State.setOp_work_xgDead (s : State) (i : Nat) (o : Op) : (s.setOp i o).work.xgDead = s.work.xgDead := rfl
@[simp] theorem State.setOp_work_mops (s : State) (i : Nat) (o : Op) : (s.setOp i o).work.mops = s.work.mops := rfl
@[simp] theorem State.setOp_work_ilts (s : State) (i : Nat) (o : Op) : (s.setOp i o).work.ilts = s.work.ilts := rfl
@[simp] theorem State.setOp_work_frames (s : State) (i : Nat) (o : Op) : (s.setOp i o).work.frames = s.work.frames := rfl
@[simp] theorem State.setOp_work_fetches (s : State) (i : Nat) (o : Op) : (s.setOp i o).work.fetches = s.work.fetches := rfl
@[simp] theorem State.setOp_work_audits (s : State) (i : Nat) (o : Op) : (s.setOp i o).work.audits = s.work.audits := rfl
@[simp] theorem State.setOp_work_devq (s : State) (i : Nat) (o : Op) : (s.setOp i o).work.devq = s.work.devq := rfl
@[simp] theorem State.setOp_work_lastQ (s : State) (i : Nat) (o : Op) : (s.setOp i o).work.lastQ = s.work.lastQ := rfl
@[simp] theorem State.setOp_work_turn (s : State) (i : Nat) (o : Op) : (s.setOp i o).work.turn = s.work.turn := rfl
@[simp] theorem State.setOp_work_rcbs (s : State) (i : Nat) (o : Op) : (s.setOp i o).work.rcbs = s.work.rcbs := rfl
@[simp] theorem State.setOp_work_next (s : State) (i : Nat) (o : Op) : (s.setOp i o).work.next = s.work.next := rfl
@[simp] theorem State.setPart_work_blocks (s : State) (i : Nat) (o : XPart) : (s.setPart i o).work.blocks = s.work.blocks := rfl
@[simp] theorem State.setPart_work_groups (s : State) (i : Nat) (o : XPart) : (s.setPart i o).work.groups = s.work.groups := rfl
@[simp] theorem State.setPart_work_saved (s : State) (i : Nat) (o : XPart) : (s.setPart i o).work.saved = s.work.saved := rfl
@[simp] theorem State.setPart_work_tasks (s : State) (i : Nat) (o : XPart) : (s.setPart i o).work.tasks = s.work.tasks := rfl
@[simp] theorem State.setPart_work_kernels (s : State) (i : Nat) (o : XPart) : (s.setPart i o).work.kernels = s.work.kernels := rfl
@[simp] theorem State.setPart_work_graphs (s : State) (i : Nat) (o : XPart) : (s.setPart i o).work.graphs = s.work.graphs := rfl
@[simp] theorem State.setPart_work_ops (s : State) (i : Nat) (o : XPart) : (s.setPart i o).work.ops = s.work.ops := rfl
@[simp] theorem State.setPart_work_recvs (s : State) (i : Nat) (o : XPart) : (s.setPart i o).work.recvs = s.work.recvs := rfl
@[simp] theorem State.setPart_work_xgDead (s : State) (i : Nat) (o : XPart) : (s.setPart i o).work.xgDead = s.work.xgDead := rfl
@[simp] theorem State.setPart_work_mops (s : State) (i : Nat) (o : XPart) : (s.setPart i o).work.mops = s.work.mops := rfl
@[simp] theorem State.setPart_work_ilts (s : State) (i : Nat) (o : XPart) : (s.setPart i o).work.ilts = s.work.ilts := rfl
@[simp] theorem State.setPart_work_frames (s : State) (i : Nat) (o : XPart) : (s.setPart i o).work.frames = s.work.frames := rfl
@[simp] theorem State.setPart_work_fetches (s : State) (i : Nat) (o : XPart) : (s.setPart i o).work.fetches = s.work.fetches := rfl
@[simp] theorem State.setPart_work_audits (s : State) (i : Nat) (o : XPart) : (s.setPart i o).work.audits = s.work.audits := rfl
@[simp] theorem State.setPart_work_devq (s : State) (i : Nat) (o : XPart) : (s.setPart i o).work.devq = s.work.devq := rfl
@[simp] theorem State.setPart_work_lastQ (s : State) (i : Nat) (o : XPart) : (s.setPart i o).work.lastQ = s.work.lastQ := rfl
@[simp] theorem State.setPart_work_turn (s : State) (i : Nat) (o : XPart) : (s.setPart i o).work.turn = s.work.turn := rfl
@[simp] theorem State.setPart_work_rcbs (s : State) (i : Nat) (o : XPart) : (s.setPart i o).work.rcbs = s.work.rcbs := rfl
@[simp] theorem State.setPart_work_next (s : State) (i : Nat) (o : XPart) : (s.setPart i o).work.next = s.work.next := rfl
@[simp] theorem State.setTask_work_blocks (s : State) (i : Nat) (x : Task) : (s.setTask i x).work.blocks = s.work.blocks := rfl
@[simp] theorem State.setTask_work_groups (s : State) (i : Nat) (x : Task) : (s.setTask i x).work.groups = s.work.groups := rfl
@[simp] theorem State.setTask_work_saved (s : State) (i : Nat) (x : Task) : (s.setTask i x).work.saved = s.work.saved := rfl
@[simp] theorem State.setTask_work_kernels (s : State) (i : Nat) (x : Task) : (s.setTask i x).work.kernels = s.work.kernels := rfl
@[simp] theorem State.setTask_work_graphs (s : State) (i : Nat) (x : Task) : (s.setTask i x).work.graphs = s.work.graphs := rfl
@[simp] theorem State.setTask_work_ops (s : State) (i : Nat) (x : Task) : (s.setTask i x).work.ops = s.work.ops := rfl
@[simp] theorem State.setTask_work_parts (s : State) (i : Nat) (x : Task) : (s.setTask i x).work.parts = s.work.parts := rfl
@[simp] theorem State.setTask_work_recvs (s : State) (i : Nat) (x : Task) : (s.setTask i x).work.recvs = s.work.recvs := rfl
@[simp] theorem State.setTask_work_xgDead (s : State) (i : Nat) (x : Task) : (s.setTask i x).work.xgDead = s.work.xgDead := rfl
@[simp] theorem State.setTask_work_mops (s : State) (i : Nat) (x : Task) : (s.setTask i x).work.mops = s.work.mops := rfl
@[simp] theorem State.setTask_work_ilts (s : State) (i : Nat) (x : Task) : (s.setTask i x).work.ilts = s.work.ilts := rfl
@[simp] theorem State.setTask_work_frames (s : State) (i : Nat) (x : Task) : (s.setTask i x).work.frames = s.work.frames := rfl
@[simp] theorem State.setTask_work_fetches (s : State) (i : Nat) (x : Task) : (s.setTask i x).work.fetches = s.work.fetches := rfl
@[simp] theorem State.setTask_work_audits (s : State) (i : Nat) (x : Task) : (s.setTask i x).work.audits = s.work.audits := rfl
@[simp] theorem State.setTask_work_devq (s : State) (i : Nat) (x : Task) : (s.setTask i x).work.devq = s.work.devq := rfl
@[simp] theorem State.setTask_work_lastQ (s : State) (i : Nat) (x : Task) : (s.setTask i x).work.lastQ = s.work.lastQ := rfl
@[simp] theorem State.setTask_work_turn (s : State) (i : Nat) (x : Task) : (s.setTask i x).work.turn = s.work.turn := rfl
@[simp] theorem State.setTask_work_rcbs (s : State) (i : Nat) (x : Task) : (s.setTask i x).work.rcbs = s.work.rcbs := rfl
@[simp] theorem State.setTask_work_next (s : State) (i : Nat) (x : Task) : (s.setTask i x).work.next = s.work.next := rfl
@[simp] theorem State.setGroup_work_blocks (s : State) (i : Nat) (g : Group) : (s.setGroup i g).work.blocks = s.work.blocks := rfl
@[simp] theorem State.setGroup_work_saved (s : State) (i : Nat) (g : Group) : (s.setGroup i g).work.saved = s.work.saved := rfl
@[simp] theorem State.setGroup_work_tasks (s : State) (i : Nat) (g : Group) : (s.setGroup i g).work.tasks = s.work.tasks := rfl
@[simp] theorem State.setGroup_work_kernels (s : State) (i : Nat) (g : Group) : (s.setGroup i g).work.kernels = s.work.kernels := rfl
@[simp] theorem State.setGroup_work_graphs (s : State) (i : Nat) (g : Group) : (s.setGroup i g).work.graphs = s.work.graphs := rfl
@[simp] theorem State.setGroup_work_ops (s : State) (i : Nat) (g : Group) : (s.setGroup i g).work.ops = s.work.ops := rfl
@[simp] theorem State.setGroup_work_parts (s : State) (i : Nat) (g : Group) : (s.setGroup i g).work.parts = s.work.parts := rfl
@[simp] theorem State.setGroup_work_recvs (s : State) (i : Nat) (g : Group) : (s.setGroup i g).work.recvs = s.work.recvs := rfl
@[simp] theorem State.setGroup_work_xgDead (s : State) (i : Nat) (g : Group) : (s.setGroup i g).work.xgDead = s.work.xgDead := rfl
@[simp] theorem State.setGroup_work_mops (s : State) (i : Nat) (g : Group) : (s.setGroup i g).work.mops = s.work.mops := rfl
@[simp] theorem State.setGroup_work_ilts (s : State) (i : Nat) (g : Group) : (s.setGroup i g).work.ilts = s.work.ilts := rfl
@[simp] theorem State.setGroup_work_frames (s : State) (i : Nat) (g : Group) : (s.setGroup i g).work.frames = s.work.frames := rfl
@[simp] theorem State.setGroup_work_fetches (s : State) (i : Nat) (g : Group) : (s.setGroup i g).work.fetches = s.work.fetches := rfl
@[simp] theorem State.setGroup_work_audits (s : State) (i : Nat) (g : Group) : (s.setGroup i g).work.audits = s.work.audits := rfl
@[simp] theorem State.setGroup_work_devq (s : State) (i : Nat) (g : Group) : (s.setGroup i g).work.devq = s.work.devq := rfl
@[simp] theorem State.setGroup_work_lastQ (s : State) (i : Nat) (g : Group) : (s.setGroup i g).work.lastQ = s.work.lastQ := rfl
@[simp] theorem State.setGroup_work_turn (s : State) (i : Nat) (g : Group) : (s.setGroup i g).work.turn = s.work.turn := rfl
@[simp] theorem State.setGroup_work_rcbs (s : State) (i : Nat) (g : Group) : (s.setGroup i g).work.rcbs = s.work.rcbs := rfl
@[simp] theorem State.setGroup_work_next (s : State) (i : Nat) (g : Group) : (s.setGroup i g).work.next = s.work.next := rfl
@[simp] theorem State.setFrame_work_blocks (s : State) (i : Nat) (f : Frame) : (s.setFrame i f).work.blocks = s.work.blocks := rfl
@[simp] theorem State.setFrame_work_groups (s : State) (i : Nat) (f : Frame) : (s.setFrame i f).work.groups = s.work.groups := rfl
@[simp] theorem State.setFrame_work_saved (s : State) (i : Nat) (f : Frame) : (s.setFrame i f).work.saved = s.work.saved := rfl
@[simp] theorem State.setFrame_work_tasks (s : State) (i : Nat) (f : Frame) : (s.setFrame i f).work.tasks = s.work.tasks := rfl
@[simp] theorem State.setFrame_work_kernels (s : State) (i : Nat) (f : Frame) : (s.setFrame i f).work.kernels = s.work.kernels := rfl
@[simp] theorem State.setFrame_work_graphs (s : State) (i : Nat) (f : Frame) : (s.setFrame i f).work.graphs = s.work.graphs := rfl
@[simp] theorem State.setFrame_work_ops (s : State) (i : Nat) (f : Frame) : (s.setFrame i f).work.ops = s.work.ops := rfl
@[simp] theorem State.setFrame_work_parts (s : State) (i : Nat) (f : Frame) : (s.setFrame i f).work.parts = s.work.parts := rfl
@[simp] theorem State.setFrame_work_recvs (s : State) (i : Nat) (f : Frame) : (s.setFrame i f).work.recvs = s.work.recvs := rfl
@[simp] theorem State.setFrame_work_xgDead (s : State) (i : Nat) (f : Frame) : (s.setFrame i f).work.xgDead = s.work.xgDead := rfl
@[simp] theorem State.setFrame_work_mops (s : State) (i : Nat) (f : Frame) : (s.setFrame i f).work.mops = s.work.mops := rfl
@[simp] theorem State.setFrame_work_ilts (s : State) (i : Nat) (f : Frame) : (s.setFrame i f).work.ilts = s.work.ilts := rfl
@[simp] theorem State.setFrame_work_fetches (s : State) (i : Nat) (f : Frame) : (s.setFrame i f).work.fetches = s.work.fetches := rfl
@[simp] theorem State.setFrame_work_audits (s : State) (i : Nat) (f : Frame) : (s.setFrame i f).work.audits = s.work.audits := rfl
@[simp] theorem State.setFrame_work_devq (s : State) (i : Nat) (f : Frame) : (s.setFrame i f).work.devq = s.work.devq := rfl
@[simp] theorem State.setFrame_work_lastQ (s : State) (i : Nat) (f : Frame) : (s.setFrame i f).work.lastQ = s.work.lastQ := rfl
@[simp] theorem State.setFrame_work_turn (s : State) (i : Nat) (f : Frame) : (s.setFrame i f).work.turn = s.work.turn := rfl
@[simp] theorem State.setFrame_work_rcbs (s : State) (i : Nat) (f : Frame) : (s.setFrame i f).work.rcbs = s.work.rcbs := rfl
@[simp] theorem State.setFrame_work_next (s : State) (i : Nat) (f : Frame) : (s.setFrame i f).work.next = s.work.next := rfl

/-! `pwrite` and the counters of fresh numbers -/
@[simp] theorem pwrite_schedule (s : State) (a : Nat) (bs : List Byte) : (pwrite s a bs).schedule = s.schedule := rfl
@[simp] theorem pwrite_focus (s : State) (a : Nat) (bs : List Byte) : (pwrite s a bs).focus = s.focus := rfl
@[simp] theorem pwrite_free (s : State) (a : Nat) (bs : List Byte) : (pwrite s a bs).free = s.free := rfl
@[simp] theorem pwrite_cores (s : State) (a : Nat) (bs : List Byte) : (pwrite s a bs).cores = s.cores := rfl
@[simp] theorem pwrite_warps (s : State) (a : Nat) (bs : List Byte) : (pwrite s a bs).warps = s.warps := rfl
@[simp] theorem pwrite_work (s : State) (a : Nat) (bs : List Byte) : (pwrite s a bs).work = s.work := rfl
@[simp] theorem pwrite_fab (s : State) (a : Nat) (bs : List Byte) : (pwrite s a bs).fab = s.fab := rfl
@[simp] theorem pwrite_plat (s : State) (a : Nat) (bs : List Byte) : (pwrite s a bs).plat = s.plat := rfl
@[simp] theorem pwrite_mem_l2 (s : State) (a : Nat) (bs : List Byte) : (pwrite s a bs).mem.l2 = s.mem.l2 := rfl
@[simp] theorem pwrite_mem_owner (s : State) (a : Nat) (bs : List Byte) : (pwrite s a bs).mem.owner = s.mem.owner := rfl
@[simp] theorem pwrite_mem_moesi (s : State) (a : Nat) (bs : List Byte) : (pwrite s a bs).mem.moesi = s.mem.moesi := rfl
@[simp] theorem pwrite_mem_cxl (s : State) (a : Nat) (bs : List Byte) : (pwrite s a bs).mem.cxl = s.mem.cxl := rfl
@[simp] theorem pwrite_mem_bnd (s : State) (a : Nat) (bs : List Byte) : (pwrite s a bs).mem.bnd = s.mem.bnd := rfl
@[simp] theorem pwrite_mem_mail (s : State) (a : Nat) (bs : List Byte) : (pwrite s a bs).mem.mail = s.mem.mail := rfl
@[simp] theorem pwrite_mem_waits (s : State) (a : Nat) (bs : List Byte) : (pwrite s a bs).mem.waits = s.mem.waits := rfl
@[simp] theorem pwrite_mem_dir (s : State) (a : Nat) (bs : List Byte) : (pwrite s a bs).mem.dir = s.mem.dir := rfl
@[simp] theorem pwrite_mem_exts (s : State) (a : Nat) (bs : List Byte) : (pwrite s a bs).mem.exts = s.mem.exts := rfl
@[simp] theorem pwrite_mem_slides (s : State) (a : Nat) (bs : List Byte) : (pwrite s a bs).mem.slides = s.mem.slides := rfl
@[simp] theorem pwrite_mem_pools (s : State) (a : Nat) (bs : List Byte) : (pwrite s a bs).mem.pools = s.mem.pools := rfl
@[simp] theorem pwrite_mem_quota (s : State) (a : Nat) (bs : List Byte) : (pwrite s a bs).mem.quota = s.mem.quota := rfl
@[simp] theorem pwrite_mem_chans (s : State) (a : Nat) (bs : List Byte) : (pwrite s a bs).mem.chans = s.mem.chans := rfl
@[simp] theorem pwrite_mem_bands (s : State) (a : Nat) (bs : List Byte) : (pwrite s a bs).mem.bands = s.mem.bands := rfl
@[simp] theorem pwrite_mem_reqs (s : State) (a : Nat) (bs : List Byte) : (pwrite s a bs).mem.reqs = s.mem.reqs := rfl
@[simp] theorem pwrite_mem_nextQ (s : State) (a : Nat) (bs : List Byte) : (pwrite s a bs).mem.nextQ = s.mem.nextQ := rfl
@[simp] theorem pwrite_mem_cst (s : State) (a : Nat) (bs : List Byte) : (pwrite s a bs).mem.cst = s.mem.cst := rfl
@[simp] theorem pwrite_mem_upsets (s : State) (a : Nat) (bs : List Byte) : (pwrite s a bs).mem.upsets = s.mem.upsets := rfl
@[simp] theorem State.fresh_schedule (s : State) : s.fresh.2.schedule = s.schedule := rfl
@[simp] theorem State.freshFab_schedule (s : State) : s.freshFab.2.schedule = s.schedule := rfl
@[simp] theorem State.takeFree_schedule (s : State) : s.takeFree.2.schedule = s.schedule := rfl
@[simp] theorem State.fresh_focus (s : State) : s.fresh.2.focus = s.focus := rfl
@[simp] theorem State.freshFab_focus (s : State) : s.freshFab.2.focus = s.focus := rfl
@[simp] theorem State.takeFree_focus (s : State) : s.takeFree.2.focus = s.focus := rfl
@[simp] theorem State.fresh_free (s : State) : s.fresh.2.free = s.free := rfl
@[simp] theorem State.freshFab_free (s : State) : s.freshFab.2.free = s.free := rfl
@[simp] theorem State.fresh_cores (s : State) : s.fresh.2.cores = s.cores := rfl
@[simp] theorem State.freshFab_cores (s : State) : s.freshFab.2.cores = s.cores := rfl
@[simp] theorem State.takeFree_cores (s : State) : s.takeFree.2.cores = s.cores := rfl
@[simp] theorem State.fresh_warps (s : State) : s.fresh.2.warps = s.warps := rfl
@[simp] theorem State.freshFab_warps (s : State) : s.freshFab.2.warps = s.warps := rfl
@[simp] theorem State.takeFree_warps (s : State) : s.takeFree.2.warps = s.warps := rfl
@[simp] theorem State.fresh_mem (s : State) : s.fresh.2.mem = s.mem := rfl
@[simp] theorem State.freshFab_mem (s : State) : s.freshFab.2.mem = s.mem := rfl
@[simp] theorem State.takeFree_mem (s : State) : s.takeFree.2.mem = s.mem := rfl
@[simp] theorem State.freshFab_work (s : State) : s.freshFab.2.work = s.work := rfl
@[simp] theorem State.takeFree_work (s : State) : s.takeFree.2.work = s.work := rfl
@[simp] theorem State.fresh_fab (s : State) : s.fresh.2.fab = s.fab := rfl
@[simp] theorem State.takeFree_fab (s : State) : s.takeFree.2.fab = s.fab := rfl
@[simp] theorem State.fresh_plat (s : State) : s.fresh.2.plat = s.plat := rfl
@[simp] theorem State.freshFab_plat (s : State) : s.freshFab.2.plat = s.plat := rfl
@[simp] theorem State.takeFree_plat (s : State) : s.takeFree.2.plat = s.plat := rfl

/-! Warps -/
@[simp] theorem Warp.setS_present (w : Warp) (r : Nat) (x : Word) : (w.setS r x).present = w.present := rfl
@[simp] theorem Warp.setS_blk (w : Warp) (r : Nat) (x : Word) : (w.setS r x).blk = w.blk := rfl
@[simp] theorem Warp.setS_widx (w : Warp) (r : Nat) (x : Word) : (w.setS r x).widx = w.widx := rfl
@[simp] theorem Warp.setS_ctx (w : Warp) (r : Nat) (x : Word) : (w.setS r x).ctx = w.ctx := rfl
@[simp] theorem Warp.setS_alloc (w : Warp) (r : Nat) (x : Word) : (w.setS r x).alloc = w.alloc := rfl
@[simp] theorem Warp.setS_vregs (w : Warp) (r : Nat) (x : Word) : (w.setS r x).vregs = w.vregs := rfl
@[simp] theorem Warp.setS_poison (w : Warp) (r : Nat) (x : Word) : (w.setS r x).poison = w.poison := rfl
@[simp] theorem Warp.setS_mregs (w : Warp) (r : Nat) (x : Word) : (w.setS r x).mregs = w.mregs := rfl
@[simp] theorem Warp.setS_scc (w : Warp) (r : Nat) (x : Word) : (w.setS r x).scc = w.scc := rfl
@[simp] theorem Warp.setS_live (w : Warp) (r : Nat) (x : Word) : (w.setS r x).live = w.live := rfl
@[simp] theorem Warp.setS_splits (w : Warp) (r : Nat) (x : Word) : (w.setS r x).splits = w.splits := rfl
@[simp] theorem Warp.setS_tokens (w : Warp) (r : Nat) (x : Word) : (w.setS r x).tokens = w.tokens := rfl
@[simp] theorem Warp.setS_rr (w : Warp) (r : Nat) (x : Word) : (w.setS r x).rr = w.rr := rfl
@[simp] theorem Warp.setS_rank (w : Warp) (r : Nat) (x : Word) : (w.setS r x).rank = w.rank := rfl
@[simp] theorem Warp.setS_age (w : Warp) (r : Nat) (x : Word) : (w.setS r x).age = w.age := rfl
@[simp] theorem Warp.setS_eligible (w : Warp) (r : Nat) (x : Word) : (w.setS r x).eligible = w.eligible := rfl
@[simp] theorem Warp.setS_status (w : Warp) (r : Nat) (x : Word) : (w.setS r x).status = w.status := rfl
@[simp] theorem Warp.setS_ld (w : Warp) (r : Nat) (x : Word) : (w.setS r x).ld = w.ld := rfl
@[simp] theorem Warp.setS_st (w : Warp) (r : Nat) (x : Word) : (w.setS r x).st = w.st := rfl
@[simp] theorem Warp.setS_cp (w : Warp) (r : Nat) (x : Word) : (w.setS r x).cp = w.cp := rfl
@[simp] theorem Warp.setS_tl (w : Warp) (r : Nat) (x : Word) : (w.setS r x).tl = w.tl := rfl
@[simp] theorem Warp.setS_rm (w : Warp) (r : Nat) (x : Word) : (w.setS r x).rm = w.rm := rfl
@[simp] theorem Warp.setS_foreign (w : Warp) (r : Nat) (x : Word) : (w.setS r x).foreign = w.foreign := rfl
@[simp] theorem Warp.setS_errs (w : Warp) (r : Nat) (x : Word) : (w.setS r x).errs = w.errs := rfl
@[simp] theorem Warp.setS_errCount (w : Warp) (r : Nat) (x : Word) : (w.setS r x).errCount = w.errCount := rfl
@[simp] theorem Warp.setS_arrivals (w : Warp) (r : Nat) (x : Word) : (w.setS r x).arrivals = w.arrivals := rfl
@[simp] theorem Warp.setS_dones (w : Warp) (r : Nat) (x : Word) : (w.setS r x).dones = w.dones := rfl
@[simp] theorem Warp.setS_tag (w : Warp) (r : Nat) (x : Word) : (w.setS r x).tag = w.tag := rfl
@[simp] theorem Warp.setS_acks (w : Warp) (r : Nat) (x : Word) : (w.setS r x).acks = w.acks := rfl
@[simp] theorem Warp.setS_failed (w : Warp) (r : Nat) (x : Word) : (w.setS r x).failed = w.failed := rfl
@[simp] theorem Warp.setS_rwords (w : Warp) (r : Nat) (x : Word) : (w.setS r x).rwords = w.rwords := rfl
@[simp] theorem Warp.setS_killed (w : Warp) (r : Nat) (x : Word) : (w.setS r x).killed = w.killed := rfl

@[simp] theorem Warp.setM_present (w : Warp) (r : Nat) (x : Word) : (w.setM r x).present = w.present := rfl
@[simp] theorem Warp.setM_blk (w : Warp) (r : Nat) (x : Word) : (w.setM r x).blk = w.blk := rfl
@[simp] theorem Warp.setM_widx (w : Warp) (r : Nat) (x : Word) : (w.setM r x).widx = w.widx := rfl
@[simp] theorem Warp.setM_ctx (w : Warp) (r : Nat) (x : Word) : (w.setM r x).ctx = w.ctx := rfl
@[simp] theorem Warp.setM_alloc (w : Warp) (r : Nat) (x : Word) : (w.setM r x).alloc = w.alloc := rfl
@[simp] theorem Warp.setM_vregs (w : Warp) (r : Nat) (x : Word) : (w.setM r x).vregs = w.vregs := rfl
@[simp] theorem Warp.setM_poison (w : Warp) (r : Nat) (x : Word) : (w.setM r x).poison = w.poison := rfl
@[simp] theorem Warp.setM_sregs (w : Warp) (r : Nat) (x : Word) : (w.setM r x).sregs = w.sregs := rfl
@[simp] theorem Warp.setM_scc (w : Warp) (r : Nat) (x : Word) : (w.setM r x).scc = w.scc := rfl
@[simp] theorem Warp.setM_live (w : Warp) (r : Nat) (x : Word) : (w.setM r x).live = w.live := rfl
@[simp] theorem Warp.setM_splits (w : Warp) (r : Nat) (x : Word) : (w.setM r x).splits = w.splits := rfl
@[simp] theorem Warp.setM_tokens (w : Warp) (r : Nat) (x : Word) : (w.setM r x).tokens = w.tokens := rfl
@[simp] theorem Warp.setM_rr (w : Warp) (r : Nat) (x : Word) : (w.setM r x).rr = w.rr := rfl
@[simp] theorem Warp.setM_rank (w : Warp) (r : Nat) (x : Word) : (w.setM r x).rank = w.rank := rfl
@[simp] theorem Warp.setM_age (w : Warp) (r : Nat) (x : Word) : (w.setM r x).age = w.age := rfl
@[simp] theorem Warp.setM_eligible (w : Warp) (r : Nat) (x : Word) : (w.setM r x).eligible = w.eligible := rfl
@[simp] theorem Warp.setM_status (w : Warp) (r : Nat) (x : Word) : (w.setM r x).status = w.status := rfl
@[simp] theorem Warp.setM_ld (w : Warp) (r : Nat) (x : Word) : (w.setM r x).ld = w.ld := rfl
@[simp] theorem Warp.setM_st (w : Warp) (r : Nat) (x : Word) : (w.setM r x).st = w.st := rfl
@[simp] theorem Warp.setM_cp (w : Warp) (r : Nat) (x : Word) : (w.setM r x).cp = w.cp := rfl
@[simp] theorem Warp.setM_tl (w : Warp) (r : Nat) (x : Word) : (w.setM r x).tl = w.tl := rfl
@[simp] theorem Warp.setM_rm (w : Warp) (r : Nat) (x : Word) : (w.setM r x).rm = w.rm := rfl
@[simp] theorem Warp.setM_foreign (w : Warp) (r : Nat) (x : Word) : (w.setM r x).foreign = w.foreign := rfl
@[simp] theorem Warp.setM_errs (w : Warp) (r : Nat) (x : Word) : (w.setM r x).errs = w.errs := rfl
@[simp] theorem Warp.setM_errCount (w : Warp) (r : Nat) (x : Word) : (w.setM r x).errCount = w.errCount := rfl
@[simp] theorem Warp.setM_arrivals (w : Warp) (r : Nat) (x : Word) : (w.setM r x).arrivals = w.arrivals := rfl
@[simp] theorem Warp.setM_dones (w : Warp) (r : Nat) (x : Word) : (w.setM r x).dones = w.dones := rfl
@[simp] theorem Warp.setM_tag (w : Warp) (r : Nat) (x : Word) : (w.setM r x).tag = w.tag := rfl
@[simp] theorem Warp.setM_acks (w : Warp) (r : Nat) (x : Word) : (w.setM r x).acks = w.acks := rfl
@[simp] theorem Warp.setM_failed (w : Warp) (r : Nat) (x : Word) : (w.setM r x).failed = w.failed := rfl
@[simp] theorem Warp.setM_rwords (w : Warp) (r : Nat) (x : Word) : (w.setM r x).rwords = w.rwords := rfl
@[simp] theorem Warp.setM_killed (w : Warp) (r : Nat) (x : Word) : (w.setM r x).killed = w.killed := rfl

@[simp] theorem Warp.setScc_present (w : Warp) (b : Bool) : (w.setScc b).present = w.present := rfl
@[simp] theorem Warp.setScc_blk (w : Warp) (b : Bool) : (w.setScc b).blk = w.blk := rfl
@[simp] theorem Warp.setScc_widx (w : Warp) (b : Bool) : (w.setScc b).widx = w.widx := rfl
@[simp] theorem Warp.setScc_ctx (w : Warp) (b : Bool) : (w.setScc b).ctx = w.ctx := rfl
@[simp] theorem Warp.setScc_alloc (w : Warp) (b : Bool) : (w.setScc b).alloc = w.alloc := rfl
@[simp] theorem Warp.setScc_vregs (w : Warp) (b : Bool) : (w.setScc b).vregs = w.vregs := rfl
@[simp] theorem Warp.setScc_poison (w : Warp) (b : Bool) : (w.setScc b).poison = w.poison := rfl
@[simp] theorem Warp.setScc_sregs (w : Warp) (b : Bool) : (w.setScc b).sregs = w.sregs := rfl
@[simp] theorem Warp.setScc_mregs (w : Warp) (b : Bool) : (w.setScc b).mregs = w.mregs := rfl
@[simp] theorem Warp.setScc_live (w : Warp) (b : Bool) : (w.setScc b).live = w.live := rfl
@[simp] theorem Warp.setScc_splits (w : Warp) (b : Bool) : (w.setScc b).splits = w.splits := rfl
@[simp] theorem Warp.setScc_tokens (w : Warp) (b : Bool) : (w.setScc b).tokens = w.tokens := rfl
@[simp] theorem Warp.setScc_rr (w : Warp) (b : Bool) : (w.setScc b).rr = w.rr := rfl
@[simp] theorem Warp.setScc_rank (w : Warp) (b : Bool) : (w.setScc b).rank = w.rank := rfl
@[simp] theorem Warp.setScc_age (w : Warp) (b : Bool) : (w.setScc b).age = w.age := rfl
@[simp] theorem Warp.setScc_eligible (w : Warp) (b : Bool) : (w.setScc b).eligible = w.eligible := rfl
@[simp] theorem Warp.setScc_status (w : Warp) (b : Bool) : (w.setScc b).status = w.status := rfl
@[simp] theorem Warp.setScc_ld (w : Warp) (b : Bool) : (w.setScc b).ld = w.ld := rfl
@[simp] theorem Warp.setScc_st (w : Warp) (b : Bool) : (w.setScc b).st = w.st := rfl
@[simp] theorem Warp.setScc_cp (w : Warp) (b : Bool) : (w.setScc b).cp = w.cp := rfl
@[simp] theorem Warp.setScc_tl (w : Warp) (b : Bool) : (w.setScc b).tl = w.tl := rfl
@[simp] theorem Warp.setScc_rm (w : Warp) (b : Bool) : (w.setScc b).rm = w.rm := rfl
@[simp] theorem Warp.setScc_foreign (w : Warp) (b : Bool) : (w.setScc b).foreign = w.foreign := rfl
@[simp] theorem Warp.setScc_errs (w : Warp) (b : Bool) : (w.setScc b).errs = w.errs := rfl
@[simp] theorem Warp.setScc_errCount (w : Warp) (b : Bool) : (w.setScc b).errCount = w.errCount := rfl
@[simp] theorem Warp.setScc_arrivals (w : Warp) (b : Bool) : (w.setScc b).arrivals = w.arrivals := rfl
@[simp] theorem Warp.setScc_dones (w : Warp) (b : Bool) : (w.setScc b).dones = w.dones := rfl
@[simp] theorem Warp.setScc_tag (w : Warp) (b : Bool) : (w.setScc b).tag = w.tag := rfl
@[simp] theorem Warp.setScc_acks (w : Warp) (b : Bool) : (w.setScc b).acks = w.acks := rfl
@[simp] theorem Warp.setScc_failed (w : Warp) (b : Bool) : (w.setScc b).failed = w.failed := rfl
@[simp] theorem Warp.setScc_rwords (w : Warp) (b : Bool) : (w.setScc b).rwords = w.rwords := rfl
@[simp] theorem Warp.setScc_killed (w : Warp) (b : Bool) : (w.setScc b).killed = w.killed := rfl

@[simp] theorem Warp.setV_present (w : Warp) (r : Nat) (m : Word) (f : Nat → Word) (k : Bool) : (w.setV r m f k).present = w.present := rfl
@[simp] theorem Warp.setV_blk (w : Warp) (r : Nat) (m : Word) (f : Nat → Word) (k : Bool) : (w.setV r m f k).blk = w.blk := rfl
@[simp] theorem Warp.setV_widx (w : Warp) (r : Nat) (m : Word) (f : Nat → Word) (k : Bool) : (w.setV r m f k).widx = w.widx := rfl
@[simp] theorem Warp.setV_ctx (w : Warp) (r : Nat) (m : Word) (f : Nat → Word) (k : Bool) : (w.setV r m f k).ctx = w.ctx := rfl
@[simp] theorem Warp.setV_alloc (w : Warp) (r : Nat) (m : Word) (f : Nat → Word) (k : Bool) : (w.setV r m f k).alloc = w.alloc := rfl
@[simp] theorem Warp.setV_sregs (w : Warp) (r : Nat) (m : Word) (f : Nat → Word) (k : Bool) : (w.setV r m f k).sregs = w.sregs := rfl
@[simp] theorem Warp.setV_mregs (w : Warp) (r : Nat) (m : Word) (f : Nat → Word) (k : Bool) : (w.setV r m f k).mregs = w.mregs := rfl
@[simp] theorem Warp.setV_scc (w : Warp) (r : Nat) (m : Word) (f : Nat → Word) (k : Bool) : (w.setV r m f k).scc = w.scc := rfl
@[simp] theorem Warp.setV_live (w : Warp) (r : Nat) (m : Word) (f : Nat → Word) (k : Bool) : (w.setV r m f k).live = w.live := rfl
@[simp] theorem Warp.setV_splits (w : Warp) (r : Nat) (m : Word) (f : Nat → Word) (k : Bool) : (w.setV r m f k).splits = w.splits := rfl
@[simp] theorem Warp.setV_tokens (w : Warp) (r : Nat) (m : Word) (f : Nat → Word) (k : Bool) : (w.setV r m f k).tokens = w.tokens := rfl
@[simp] theorem Warp.setV_rr (w : Warp) (r : Nat) (m : Word) (f : Nat → Word) (k : Bool) : (w.setV r m f k).rr = w.rr := rfl
@[simp] theorem Warp.setV_rank (w : Warp) (r : Nat) (m : Word) (f : Nat → Word) (k : Bool) : (w.setV r m f k).rank = w.rank := rfl
@[simp] theorem Warp.setV_age (w : Warp) (r : Nat) (m : Word) (f : Nat → Word) (k : Bool) : (w.setV r m f k).age = w.age := rfl
@[simp] theorem Warp.setV_eligible (w : Warp) (r : Nat) (m : Word) (f : Nat → Word) (k : Bool) : (w.setV r m f k).eligible = w.eligible := rfl
@[simp] theorem Warp.setV_status (w : Warp) (r : Nat) (m : Word) (f : Nat → Word) (k : Bool) : (w.setV r m f k).status = w.status := rfl
@[simp] theorem Warp.setV_ld (w : Warp) (r : Nat) (m : Word) (f : Nat → Word) (k : Bool) : (w.setV r m f k).ld = w.ld := rfl
@[simp] theorem Warp.setV_st (w : Warp) (r : Nat) (m : Word) (f : Nat → Word) (k : Bool) : (w.setV r m f k).st = w.st := rfl
@[simp] theorem Warp.setV_cp (w : Warp) (r : Nat) (m : Word) (f : Nat → Word) (k : Bool) : (w.setV r m f k).cp = w.cp := rfl
@[simp] theorem Warp.setV_tl (w : Warp) (r : Nat) (m : Word) (f : Nat → Word) (k : Bool) : (w.setV r m f k).tl = w.tl := rfl
@[simp] theorem Warp.setV_rm (w : Warp) (r : Nat) (m : Word) (f : Nat → Word) (k : Bool) : (w.setV r m f k).rm = w.rm := rfl
@[simp] theorem Warp.setV_foreign (w : Warp) (r : Nat) (m : Word) (f : Nat → Word) (k : Bool) : (w.setV r m f k).foreign = w.foreign := rfl
@[simp] theorem Warp.setV_errs (w : Warp) (r : Nat) (m : Word) (f : Nat → Word) (k : Bool) : (w.setV r m f k).errs = w.errs := rfl
@[simp] theorem Warp.setV_errCount (w : Warp) (r : Nat) (m : Word) (f : Nat → Word) (k : Bool) : (w.setV r m f k).errCount = w.errCount := rfl
@[simp] theorem Warp.setV_arrivals (w : Warp) (r : Nat) (m : Word) (f : Nat → Word) (k : Bool) : (w.setV r m f k).arrivals = w.arrivals := rfl
@[simp] theorem Warp.setV_dones (w : Warp) (r : Nat) (m : Word) (f : Nat → Word) (k : Bool) : (w.setV r m f k).dones = w.dones := rfl
@[simp] theorem Warp.setV_tag (w : Warp) (r : Nat) (m : Word) (f : Nat → Word) (k : Bool) : (w.setV r m f k).tag = w.tag := rfl
@[simp] theorem Warp.setV_acks (w : Warp) (r : Nat) (m : Word) (f : Nat → Word) (k : Bool) : (w.setV r m f k).acks = w.acks := rfl
@[simp] theorem Warp.setV_failed (w : Warp) (r : Nat) (m : Word) (f : Nat → Word) (k : Bool) : (w.setV r m f k).failed = w.failed := rfl
@[simp] theorem Warp.setV_rwords (w : Warp) (r : Nat) (m : Word) (f : Nat → Word) (k : Bool) : (w.setV r m f k).rwords = w.rwords := rfl
@[simp] theorem Warp.setV_killed (w : Warp) (r : Nat) (m : Word) (f : Nat → Word) (k : Bool) : (w.setV r m f k).killed = w.killed := rfl

@[simp] theorem Warp.setSplit_present (w : Warp) (i : Nat) (x : Split) : (w.setSplit i x).present = w.present := rfl
@[simp] theorem Warp.setSplit_blk (w : Warp) (i : Nat) (x : Split) : (w.setSplit i x).blk = w.blk := rfl
@[simp] theorem Warp.setSplit_widx (w : Warp) (i : Nat) (x : Split) : (w.setSplit i x).widx = w.widx := rfl
@[simp] theorem Warp.setSplit_ctx (w : Warp) (i : Nat) (x : Split) : (w.setSplit i x).ctx = w.ctx := rfl
@[simp] theorem Warp.setSplit_alloc (w : Warp) (i : Nat) (x : Split) : (w.setSplit i x).alloc = w.alloc := rfl
@[simp] theorem Warp.setSplit_vregs (w : Warp) (i : Nat) (x : Split) : (w.setSplit i x).vregs = w.vregs := rfl
@[simp] theorem Warp.setSplit_poison (w : Warp) (i : Nat) (x : Split) : (w.setSplit i x).poison = w.poison := rfl
@[simp] theorem Warp.setSplit_sregs (w : Warp) (i : Nat) (x : Split) : (w.setSplit i x).sregs = w.sregs := rfl
@[simp] theorem Warp.setSplit_mregs (w : Warp) (i : Nat) (x : Split) : (w.setSplit i x).mregs = w.mregs := rfl
@[simp] theorem Warp.setSplit_scc (w : Warp) (i : Nat) (x : Split) : (w.setSplit i x).scc = w.scc := rfl
@[simp] theorem Warp.setSplit_live (w : Warp) (i : Nat) (x : Split) : (w.setSplit i x).live = w.live := rfl
@[simp] theorem Warp.setSplit_tokens (w : Warp) (i : Nat) (x : Split) : (w.setSplit i x).tokens = w.tokens := rfl
@[simp] theorem Warp.setSplit_rr (w : Warp) (i : Nat) (x : Split) : (w.setSplit i x).rr = w.rr := rfl
@[simp] theorem Warp.setSplit_rank (w : Warp) (i : Nat) (x : Split) : (w.setSplit i x).rank = w.rank := rfl
@[simp] theorem Warp.setSplit_age (w : Warp) (i : Nat) (x : Split) : (w.setSplit i x).age = w.age := rfl
@[simp] theorem Warp.setSplit_eligible (w : Warp) (i : Nat) (x : Split) : (w.setSplit i x).eligible = w.eligible := rfl
@[simp] theorem Warp.setSplit_status (w : Warp) (i : Nat) (x : Split) : (w.setSplit i x).status = w.status := rfl
@[simp] theorem Warp.setSplit_ld (w : Warp) (i : Nat) (x : Split) : (w.setSplit i x).ld = w.ld := rfl
@[simp] theorem Warp.setSplit_st (w : Warp) (i : Nat) (x : Split) : (w.setSplit i x).st = w.st := rfl
@[simp] theorem Warp.setSplit_cp (w : Warp) (i : Nat) (x : Split) : (w.setSplit i x).cp = w.cp := rfl
@[simp] theorem Warp.setSplit_tl (w : Warp) (i : Nat) (x : Split) : (w.setSplit i x).tl = w.tl := rfl
@[simp] theorem Warp.setSplit_rm (w : Warp) (i : Nat) (x : Split) : (w.setSplit i x).rm = w.rm := rfl
@[simp] theorem Warp.setSplit_foreign (w : Warp) (i : Nat) (x : Split) : (w.setSplit i x).foreign = w.foreign := rfl
@[simp] theorem Warp.setSplit_errs (w : Warp) (i : Nat) (x : Split) : (w.setSplit i x).errs = w.errs := rfl
@[simp] theorem Warp.setSplit_errCount (w : Warp) (i : Nat) (x : Split) : (w.setSplit i x).errCount = w.errCount := rfl
@[simp] theorem Warp.setSplit_arrivals (w : Warp) (i : Nat) (x : Split) : (w.setSplit i x).arrivals = w.arrivals := rfl
@[simp] theorem Warp.setSplit_dones (w : Warp) (i : Nat) (x : Split) : (w.setSplit i x).dones = w.dones := rfl
@[simp] theorem Warp.setSplit_tag (w : Warp) (i : Nat) (x : Split) : (w.setSplit i x).tag = w.tag := rfl
@[simp] theorem Warp.setSplit_acks (w : Warp) (i : Nat) (x : Split) : (w.setSplit i x).acks = w.acks := rfl
@[simp] theorem Warp.setSplit_failed (w : Warp) (i : Nat) (x : Split) : (w.setSplit i x).failed = w.failed := rfl
@[simp] theorem Warp.setSplit_rwords (w : Warp) (i : Nat) (x : Split) : (w.setSplit i x).rwords = w.rwords := rfl
@[simp] theorem Warp.setSplit_killed (w : Warp) (i : Nat) (x : Split) : (w.setSplit i x).killed = w.killed := rfl

@[simp] theorem Warp.setTok_present (w : Warp) (i : Nat) (x : Token) : (w.setTok i x).present = w.present := rfl
@[simp] theorem Warp.setTok_blk (w : Warp) (i : Nat) (x : Token) : (w.setTok i x).blk = w.blk := rfl
@[simp] theorem Warp.setTok_widx (w : Warp) (i : Nat) (x : Token) : (w.setTok i x).widx = w.widx := rfl
@[simp] theorem Warp.setTok_ctx (w : Warp) (i : Nat) (x : Token) : (w.setTok i x).ctx = w.ctx := rfl
@[simp] theorem Warp.setTok_alloc (w : Warp) (i : Nat) (x : Token) : (w.setTok i x).alloc = w.alloc := rfl
@[simp] theorem Warp.setTok_vregs (w : Warp) (i : Nat) (x : Token) : (w.setTok i x).vregs = w.vregs := rfl
@[simp] theorem Warp.setTok_poison (w : Warp) (i : Nat) (x : Token) : (w.setTok i x).poison = w.poison := rfl
@[simp] theorem Warp.setTok_sregs (w : Warp) (i : Nat) (x : Token) : (w.setTok i x).sregs = w.sregs := rfl
@[simp] theorem Warp.setTok_mregs (w : Warp) (i : Nat) (x : Token) : (w.setTok i x).mregs = w.mregs := rfl
@[simp] theorem Warp.setTok_scc (w : Warp) (i : Nat) (x : Token) : (w.setTok i x).scc = w.scc := rfl
@[simp] theorem Warp.setTok_live (w : Warp) (i : Nat) (x : Token) : (w.setTok i x).live = w.live := rfl
@[simp] theorem Warp.setTok_splits (w : Warp) (i : Nat) (x : Token) : (w.setTok i x).splits = w.splits := rfl
@[simp] theorem Warp.setTok_rr (w : Warp) (i : Nat) (x : Token) : (w.setTok i x).rr = w.rr := rfl
@[simp] theorem Warp.setTok_rank (w : Warp) (i : Nat) (x : Token) : (w.setTok i x).rank = w.rank := rfl
@[simp] theorem Warp.setTok_age (w : Warp) (i : Nat) (x : Token) : (w.setTok i x).age = w.age := rfl
@[simp] theorem Warp.setTok_eligible (w : Warp) (i : Nat) (x : Token) : (w.setTok i x).eligible = w.eligible := rfl
@[simp] theorem Warp.setTok_status (w : Warp) (i : Nat) (x : Token) : (w.setTok i x).status = w.status := rfl
@[simp] theorem Warp.setTok_ld (w : Warp) (i : Nat) (x : Token) : (w.setTok i x).ld = w.ld := rfl
@[simp] theorem Warp.setTok_st (w : Warp) (i : Nat) (x : Token) : (w.setTok i x).st = w.st := rfl
@[simp] theorem Warp.setTok_cp (w : Warp) (i : Nat) (x : Token) : (w.setTok i x).cp = w.cp := rfl
@[simp] theorem Warp.setTok_tl (w : Warp) (i : Nat) (x : Token) : (w.setTok i x).tl = w.tl := rfl
@[simp] theorem Warp.setTok_rm (w : Warp) (i : Nat) (x : Token) : (w.setTok i x).rm = w.rm := rfl
@[simp] theorem Warp.setTok_foreign (w : Warp) (i : Nat) (x : Token) : (w.setTok i x).foreign = w.foreign := rfl
@[simp] theorem Warp.setTok_errs (w : Warp) (i : Nat) (x : Token) : (w.setTok i x).errs = w.errs := rfl
@[simp] theorem Warp.setTok_errCount (w : Warp) (i : Nat) (x : Token) : (w.setTok i x).errCount = w.errCount := rfl
@[simp] theorem Warp.setTok_arrivals (w : Warp) (i : Nat) (x : Token) : (w.setTok i x).arrivals = w.arrivals := rfl
@[simp] theorem Warp.setTok_dones (w : Warp) (i : Nat) (x : Token) : (w.setTok i x).dones = w.dones := rfl
@[simp] theorem Warp.setTok_tag (w : Warp) (i : Nat) (x : Token) : (w.setTok i x).tag = w.tag := rfl
@[simp] theorem Warp.setTok_acks (w : Warp) (i : Nat) (x : Token) : (w.setTok i x).acks = w.acks := rfl
@[simp] theorem Warp.setTok_failed (w : Warp) (i : Nat) (x : Token) : (w.setTok i x).failed = w.failed := rfl
@[simp] theorem Warp.setTok_rwords (w : Warp) (i : Nat) (x : Token) : (w.setTok i x).rwords = w.rwords := rfl
@[simp] theorem Warp.setTok_killed (w : Warp) (i : Nat) (x : Token) : (w.setTok i x).killed = w.killed := rfl

@[simp] theorem Warp.setScc_scc (w : Warp) (b : Bool) : (w.setScc b).scc = b := rfl

/-! Cores -/
@[simp] theorem Core.setSlot_ecb (k : Core) (i : Nat) (r : Option Run) : (k.setSlot i r).ecb = k.ecb := by unfold Core.setSlot; split <;> rfl
@[simp] theorem Core.setSlot_l1 (k : Core) (i : Nat) (r : Option Run) : (k.setSlot i r).l1 = k.l1 := by unfold Core.setSlot; split <;> rfl
@[simp] theorem Core.setSlot_icache (k : Core) (i : Nat) (r : Option Run) : (k.setSlot i r).icache = k.icache := by unfold Core.setSlot; split <;> rfl
@[simp] theorem Core.setSlot_noShare (k : Core) (i : Nat) (r : Option Run) : (k.setSlot i r).noShare = k.noShare := by unfold Core.setSlot; split <;> rfl
@[simp] theorem Core.setSlot_held (k : Core) (i : Nat) (r : Option Run) : (k.setSlot i r).held = k.held := by unfold Core.setSlot; split <;> rfl
@[simp] theorem Core.setSlot_ilt (k : Core) (i : Nat) (r : Option Run) : (k.setSlot i r).ilt = k.ilt := by unfold Core.setSlot; split <;> rfl
@[simp] theorem Core.setSlot_tiles (k : Core) (i : Nat) (r : Option Run) : (k.setSlot i r).tiles = k.tiles := by unfold Core.setSlot; split <;> rfl
@[simp] theorem Core.setSlot_wbuf (k : Core) (i : Nat) (r : Option Run) : (k.setSlot i r).wbuf = k.wbuf := by unfold Core.setSlot; split <;> rfl
@[simp] theorem Core.setSlot_images (k : Core) (i : Nat) (r : Option Run) : (k.setSlot i r).images = k.images := by unfold Core.setSlot; split <;> rfl
@[simp] theorem Core.setSlot_wbad (k : Core) (i : Nat) (r : Option Run) : (k.setSlot i r).wbad = k.wbad := by unfold Core.setSlot; split <;> rfl
@[simp] theorem Core.setSlot_area (k : Core) (i : Nat) (r : Option Run) : (k.setSlot i r).area = k.area := by unfold Core.setSlot; split <;> rfl
@[simp] theorem Core.setSlot_stopped (k : Core) (i : Nat) (r : Option Run) : (k.setSlot i r).stopped = k.stopped := by unfold Core.setSlot; split <;> rfl
@[simp] theorem Core.setSlot_closing (k : Core) (i : Nat) (r : Option Run) : (k.setSlot i r).closing = k.closing := by unfold Core.setSlot; split <;> rfl
@[simp] theorem Core.setSlot_handling (k : Core) (i : Nat) (r : Option Run) : (k.setSlot i r).handling = k.handling := by unfold Core.setSlot; split <;> rfl
@[simp] theorem Core.setSlot_hfault (k : Core) (i : Nat) (r : Option Run) : (k.setSlot i r).hfault = k.hfault := by unfold Core.setSlot; split <;> rfl

end Sys2Proof.Machine
end

