-- ==== Sys2Proof/Laws/Maps.lean ====
section
/-! SUPPORT. Sparse maps: reading after writing, and that every write keeps the canonical form; physical memory is the instance
whose unlisted keys read as `unlistedByte` (09_extents.md R179, log entry 3). -/
namespace Sys2Proof.Machine

/-! ### Reading after writing -/

@[simp] theorem mfind_mput {α : Type} (m : SMap α) (k j : Nat) (v : α) :
    mfind (mput m k v) j = if k = j then some v else mfind m j := by
  induction m with
  | nil => simp [mput, mfind]
  | cons p r ih =>
    obtain ⟨k', v'⟩ := p
    simp only [mput]
    split_ifs with h1 h2 h3 h4 h5
    · simp [mfind, h2]
    · simp [mfind, h2]
    · subst h3; simp [mfind, h4]
    · simp [mfind, h3 ▸ h4, h4]
    · subst h5; simp [mfind, ih, Ne.symm h3]
    · simp [mfind, ih, h5]

@[simp] theorem mfind_mdel {α : Type} (m : SMap α) (k j : Nat) :
    mfind (mdel m k) j = if k = j then none else mfind m j := by
  induction m with
  | nil => simp [mdel, mfind]
  | cons p r ih =>
    obtain ⟨k', v'⟩ := p
    by_cases h : k' = k
    · subst h
      by_cases hj : k' = j
      · subst hj; simpa [mdel] using ih
      · simp [mdel, mfind, ih, hj]
    · by_cases hj : k' = j
      · subst hj; simp [mdel, mfind, h, Ne.symm h]
      · simp [mdel, mfind, h, hj, ih]

@[simp] theorem mget_mput {α : Type} (m : SMap α) (d : α) (k j : Nat) (v : α) :
    mget (mput m k v) d j = if k = j then v else mget m d j := by
  simp only [mget, mfind_mput]; split <;> rfl

@[simp] theorem mget_mdel {α : Type} (m : SMap α) (d : α) (k j : Nat) : mget (mdel m k) d j = if k = j then d else mget m d j := by
  simp only [mget, mfind_mdel]; split <;> rfl

@[simp] theorem mget_mset {α : Type} [DecidableEq α] (d : α) (m : SMap α) (k j : Nat) (v : α) :
    mget (mset d m k v) d j = if k = j then v else mget m d j := by
  unfold mset
  split
  · rename_i h; subst h; exact mget_mdel ..
  · exact mget_mput ..

/-- Values mapped in place. -/
theorem mfind_map {α : Type} (m : SMap α) (f : Nat × α → Nat × α) (g : α → α) (h : ∀ p, f p = (p.1, g p.2)) (k : Nat) :
    mfind (m.map f) k = (mfind m k).map g := by
  induction m with
  | nil => rfl
  | cons p r ih =>
    obtain ⟨k', v⟩ := p
    simp only [List.map_cons, h, mfind]
    split
    · rfl
    · exact ih

/-! ### The canonical form -/

/-- Rising keys above a bound are rising keys above a lower one. -/
theorem mrising_mono {α : Type} {m : SMap α} {l l' : Nat} (h : mrising (some l) m = true) (hl : l' ≤ l) :
    mrising (some l') m = true := by
  cases m with
  | nil => rfl
  | cons p r => simp only [mrising, Bool.and_eq_true, decide_eq_true_eq] at h ⊢; exact ⟨by omega, h.2⟩

theorem mrising_mput {α : Type} (m : SMap α) (k : Nat) (v : α) (lo : Option Nat) (hlo : ∀ l, lo = some l → l < k)
    (h : mrising lo m = true) : mrising lo (mput m k v) = true := by
  induction m generalizing lo with
  | nil => cases lo <;> simp_all [mput, mrising]
  | cons p r ih =>
    obtain ⟨k', v'⟩ := p
    simp only [mput]
    split_ifs with h1 h2
    · cases lo <;> simp_all [mrising]
    · subst h2; cases lo <;> simp_all [mrising]
    · have hk : k' < k := by omega
      simp only [mrising, Bool.and_eq_true] at h ⊢
      exact ⟨h.1, ih (some k') (by simp only [Option.some.injEq, forall_eq']; omega) h.2⟩

theorem mrising_mdel {α : Type} (m : SMap α) (k : Nat) (lo : Option Nat) (h : mrising lo m = true) :
    mrising lo (mdel m k) = true := by
  induction m generalizing lo with
  | nil => exact h
  | cons p r ih =>
    obtain ⟨k', v'⟩ := p
    simp only [mrising, Bool.and_eq_true] at h
    simp only [mdel]
    split_ifs with h1
    · refine ih lo ?_
      cases lo with
      | none => cases r with
        | nil => rfl
        | cons q r => simp only [mrising, Bool.and_eq_true] at h ⊢; exact ⟨trivial, h.2.2⟩
      | some l => exact mrising_mono h.2 (by have := h.1; simp only [decide_eq_true_eq] at this; omega)
    · simp only [mrising, Bool.and_eq_true]; exact ⟨h.1, ih (some k') h.2⟩

theorem all_mput {α : Type} (p : Nat × α → Bool) (m : SMap α) (k : Nat) (v : α) (hv : p (k, v) = true) (h : m.all p = true) :
    (mput m k v).all p = true := by
  induction m with
  | nil => simp [mput, hv]
  | cons q r ih =>
    obtain ⟨k', v'⟩ := q
    simp only [List.all_cons, Bool.and_eq_true] at h
    simp only [mput]
    split_ifs <;> simp_all

theorem all_mdel {α : Type} (p : Nat × α → Bool) (m : SMap α) (k : Nat) (h : m.all p = true) : (mdel m k).all p = true := by
  induction m with
  | nil => exact h
  | cons q r ih =>
    obtain ⟨k', v'⟩ := q
    simp only [List.all_cons, Bool.and_eq_true] at h
    simp only [mdel]
    split_ifs <;> simp_all

theorem mwf_mset {α : Type} [DecidableEq α] {d : α} {m : SMap α} (h : mwf d m = true) (k : Nat) (v : α) :
    mwf d (mset d m k v) = true := by
  simp only [mwf, Bool.and_eq_true] at h ⊢
  unfold mset
  split
  · exact ⟨mrising_mdel _ _ _ h.1, all_mdel _ _ _ h.2⟩
  · rename_i hv
    exact ⟨mrising_mput _ _ _ _ (by simp) h.1, all_mput _ _ _ _ (by simp [hv]) h.2⟩

theorem mwf_msetRange {α : Type} [DecidableEq α] {d : α} (l : List α) {m : SMap α} (h : mwf d m = true) (k : Nat) :
    mwf d (msetRange d m k l) = true := by
  induction l generalizing m k with
  | nil => exact h
  | cons v r ih => exact ih (mwf_mset h k v) (k + 1)

/-- In canonical form nothing is listed that an unlisted key reads as, so a map is what it reads as. -/
theorem mfind_of_mwf {α : Type} [DecidableEq α] {d : α} {m : SMap α} (h : mwf d m = true) (k : Nat) (v : α)
    (hf : mfind m k = some v) : v ≠ d := by
  simp only [mwf, Bool.and_eq_true] at h
  have h2 := h.2
  clear h
  induction m with
  | nil => simp [mfind] at hf
  | cons p r ih =>
    simp only [List.all_cons, Bool.and_eq_true, decide_eq_true_eq] at h2
    simp only [mfind] at hf
    split at hf
    · simp only [Option.some.injEq] at hf; exact hf ▸ h2.1
    · exact ih hf h2.2

/-! ### Physical memory -/

theorem Memory.wf_write {m : Memory} (h : Memory.wf m = true) (a : Nat) (b : Byte) : Memory.wf (Memory.write m a b) = true :=
  mwf_mset h a b

theorem Memory.wf_writes (l : List Byte) {m : Memory} (h : Memory.wf m = true) (a : Nat) : Memory.wf (Memory.writes m a l) = true := by
  induction l generalizing m a with
  | nil => exact h
  | cons b r ih => exact ih (Memory.wf_write h a b) (a + 1)

@[simp] theorem Memory.read_write (m : Memory) (a j : Nat) (b : Byte) :
    Memory.read (Memory.write m a b) j = if a = j then b else Memory.read m j := mget_mset ..

/-- A write of bytes is read back at each of its places, and leaves every other byte alone. -/
theorem Memory.read_writes (l : List Byte) (m : Memory) (a j : Nat) :
    Memory.read (Memory.writes m a l) j = if a ≤ j ∧ j < a + l.length then l.getD (j - a) 0 else Memory.read m j := by
  induction l generalizing m a with
  | nil =>
    have : ¬ (a ≤ j ∧ j < a + ([] : List Byte).length) := by simp only [List.length_nil]; omega
    rw [if_neg this]; rfl
  | cons b r ih =>
    simp only [Memory.writes, ih, Memory.read_write, List.length_cons]
    by_cases h1 : a = j
    · subst h1
      have : ¬ (a + 1 ≤ a ∧ a < a + 1 + r.length) := by omega
      have h2 : a ≤ a ∧ a < a + (r.length + 1) := by omega
      rw [if_neg this, if_pos rfl, if_pos h2]; simp
    · by_cases h2 : a + 1 ≤ j ∧ j < a + 1 + r.length
      · have h3 : a ≤ j ∧ j < a + (r.length + 1) := by omega
        rw [if_pos h2, if_pos h3]
        obtain ⟨k, rfl⟩ : ∃ k, j = a + 1 + k := ⟨j - (a + 1), by omega⟩
        have e1 : a + 1 + k - a = k + 1 := by omega
        have e2 : a + 1 + k - (a + 1) = k := by omega
        rw [e1, e2]; simp
      · have h3 : ¬ (a ≤ j ∧ j < a + (r.length + 1)) := by omega
        rw [if_neg h2, if_neg h1, if_neg h3]

theorem pwrite_mem_bytes (s : State) (a : Nat) (bs : List Byte) :
    (pwrite s a bs).mem.bytes = Memory.writes s.mem.bytes a bs := rfl

/-- A demand write keeps the canonical form of physical memory. -/
theorem pwrite_wf {s : State} (h : Memory.wf s.mem.bytes = true) (a : Nat) (bs : List Byte) :
    Memory.wf (pwrite s a bs).mem.bytes = true := Memory.wf_writes bs h a

end Sys2Proof.Machine
end

