-- ==== Sys2Proof/Laws/Warps.lean ====
section
/-! SUPPORT. What the control procedures and the end of a word can change (05_control.md R100, 02_encoding.md R28): a warp's data
never, nothing but the issuing warp and the issue slot. -/
namespace Sys2Proof.Machine

/-! ### Reading after an update -/

@[simp] theorem State.warp_setWarp (s : State) (c w c' w' : Nat) (x : Warp) :
    (s.setWarp c w x).warp c' w' = if wkey c w = wkey c' w' then x else s.warp c' w' := mget_mset ..

@[simp] theorem State.warp_updWarp (s : State) (c w c' w' : Nat) (f : Warp → Warp) :
    (s.updWarp c w f).warp c' w' = if wkey c w = wkey c' w' then f (s.warp c w) else s.warp c' w' := mget_mset ..

@[simp] theorem State.core_setCore (s : State) (c c' : Nat) (k : Core) :
    (s.setCore c k).core c' = if c = c' then k else s.core c' := mget_mset ..

@[simp] theorem State.core_updCore (s : State) (c c' : Nat) (f : Core → Core) :
    (s.updCore c f).core c' = if c = c' then f (s.core c) else s.core c' := mget_mset ..

@[simp] theorem State.core_updWarp (s : State) (c w c' : Nat) (f : Warp → Warp) : (s.updWarp c w f).core c' = s.core c' := rfl
@[simp] theorem State.core_updHere (s : State) (f : Warp → Warp) (c : Nat) : (s.updHere f).core c = s.core c := rfl
@[simp] theorem State.warp_updCore (s : State) (c c' w : Nat) (f : Core → Core) : (s.updCore c f).warp c' w = s.warp c' w := rfl
@[simp] theorem State.blk_updWarp (s : State) (c w b : Nat) (f : Warp → Warp) : (s.updWarp c w f).blk b = s.blk b := rfl
@[simp] theorem State.blk_updHere (s : State) (f : Warp → Warp) (b : Nat) : (s.updHere f).blk b = s.blk b := rfl
@[simp] theorem State.blk_updCore (s : State) (c b : Nat) (f : Core → Core) : (s.updCore c f).blk b = s.blk b := rfl

@[simp] theorem State.run_updWarp (s : State) (c w : Nat) (f : Warp → Warp) : (s.updWarp c w f).run = s.run := rfl
@[simp] theorem State.run_updHere (s : State) (f : Warp → Warp) : (s.updHere f).run = s.run := rfl
@[simp] theorem State.hcore_updWarp (s : State) (c w : Nat) (f : Warp → Warp) : (s.updWarp c w f).hcore = s.hcore := rfl
@[simp] theorem State.hcore_updHere (s : State) (f : Warp → Warp) : (s.updHere f).hcore = s.hcore := rfl

@[simp] theorem State.hwarp_updHere (s : State) (f : Warp → Warp) : (s.updHere f).hwarp = f s.hwarp := by
  show (s.updWarp s.hcore s.run.wslot f).warp s.hcore s.run.wslot = _
  rw [State.warp_updWarp, if_pos rfl]; rfl

@[simp] theorem Warp.s_setS (w : Warp) (r j : Nat) (x : Word) : (w.setS r x).s j = if r = j then x else w.s j := mget_mset ..
@[simp] theorem Warp.m_setM (w : Warp) (r j : Nat) (x : Word) : (w.setM r x).m j = if r = j then x else w.m j := mget_mset ..
@[simp] theorem Warp.split_setSplit (w : Warp) (i j : Nat) (x : Split) :
    (w.setSplit i x).split j = if i = j then x else w.split j := mget_mset ..
@[simp] theorem Warp.tok_setTok (w : Warp) (i j : Nat) (x : Token) :
    (w.setTok i x).tok j = if i = j then x else w.tok j := mget_mset ..
@[simp] theorem Warp.tok_setSplit (w : Warp) (i j : Nat) (x : Split) : (w.setSplit i x).tok j = w.tok j := rfl
@[simp] theorem Warp.split_setTok (w : Warp) (i j : Nat) (x : Token) : (w.setTok i x).split j = w.split j := rfl
@[simp] theorem Warp.split_setS (w : Warp) (r i : Nat) (x : Word) : (w.setS r x).split i = w.split i := rfl
@[simp] theorem Warp.s_setScc (w : Warp) (b : Bool) (r : Nat) : (w.setScc b).s r = w.s r := rfl

theorem rowGet_rowOf (f : Nat → Word) (i : Nat) (h : i < 32) : rowGet (rowOf f) i = f i := by
  simp [rowGet, rowOf, List.getD_eq_getElem?_getD, h]

/-- A written row reads f in the written lanes and is as before in the others; other registers are as before. -/
theorem Warp.v_setV (w : Warp) (r j i : Nat) (m : Word) (f : Nat → Word) (k : Bool) (hi : i < 32) :
    (w.setV r m f k).v j i = if r = j ∧ laneIn m i = true then f i else w.v j i := by
  unfold Warp.v Warp.setV
  simp only [mget_mset]
  by_cases h : r = j
  · subst h
    simp only [if_true, true_and, rowGet_rowOf _ i hi]
  · simp [h]

theorem Warp.poisoned_setV (w : Warp) (r j : Nat) (m : Word) (f : Nat → Word) :
    (w.setV r m f).poisoned j = if r = j then w.poisoned r &&& ~~~m else w.poisoned j := by
  simp [Warp.poisoned, Warp.setV]

/-! ### The control procedures keep a warp's data -/

@[simp] theorem Warp.data_setSplit (w : Warp) (i : Nat) (x : Split) : (w.setSplit i x).data = w.data := rfl
@[simp] theorem Warp.data_setTok (w : Warp) (i : Nat) (x : Token) : (w.setTok i x).data = w.data := rfl

@[simp] theorem ctl_data (k : Nat) (a : Ctl) (w : Warp) : (ctl k a w).data = w.data := by
  induction k generalizing a w with
  | zero => cases a <;> rfl
  | succ k ih =>
    cases a with
    | setPc i x =>
      simp only [ctl]
      split <;> simp [ih]
    | arrive i => simp [ctl, ih]
    | complete t =>
      simp only [ctl]
      split_ifs
      · rfl
      · rfl
      · split <;> simp [ih]
    | resume =>
      simp only [ctl]
      split <;> simp [ih]

@[simp] theorem Warp.data_setPc (w : Warp) (i x : Nat) : (w.setPc i x).data = w.data := ctl_data ..

@[simp] theorem Warp.data_wakeWaiting (w : Warp) : w.wakeWaiting.data = w.data := rfl

/-- A split that does not wait for an entry is as before when an entry frees. -/
theorem Warp.split_wakeWaiting {w : Warp} {i : Nat} (h : (w.split i).state ≠ 3) : w.wakeWaiting.split i = w.split i := by
  unfold Warp.wakeWaiting
  unfold Warp.split mget at *
  rw [mfind_map _ _ (fun v => if v.state == 3 && w.entryFree v.on then { v with state := 1, on := .none } else v)
    (fun p => by split <;> simp [*])]
  cases hf : mfind w.splits i with
  | none => rfl
  | some v =>
    simp only [hf, Option.getD_some] at h
    simp [h]

/-- A fold of steps that keep a warp's data keeps them. -/
theorem foldl_data {α : Type} (f : Warp → α → Warp) (h : ∀ w x, (f w x).data = w.data) (l : List α) (w : Warp) :
    (l.foldl f w).data = w.data := by
  induction l generalizing w with
  | nil => rfl
  | cons x r ih => simp only [List.foldl_cons, ih, h]

@[simp] theorem Warp.data_leave (w : Warp) (i : Nat) (L : Word) (T : Option Nat) : (w.leave i L T).data = w.data := by
  unfold Warp.leave
  have h1 : ∀ (w : Warp) (u : Nat), (w.setTok u { w.tok u with
      pending := (w.tok u).pending &&& ~~~L, rejoin := (w.tok u).rejoin &&& ~~~L }).data = w.data := fun _ _ => rfl
  have h2 : ∀ (w : Warp) (u : Nat), (ctl ctlFuel (.complete u) w).data = w.data := fun _ _ => ctl_data ..
  simp only [ctl_data]
  cases T with
  | none => simp only []; rw [foldl_data _ h2]; split <;> simp [foldl_data _ h1]
  | some t => simp only [ctl_data, Warp.data_setTok]; rw [foldl_data _ h2]; split <;> simp [foldl_data _ h1]

@[simp] theorem Core.data_setSlot (k : Core) (i : Nat) (r : Option Run) : (k.setSlot i r).data = k.data := by
  unfold Core.setSlot; split <;> rfl

theorem Warp.data_congr {w v : Warp} (h : w.data = v.data) (f : Warp → Warp) (hf : ∀ x, (f x).data = (f x.data).data) :
    (f w).data = (f v).data := by rw [hf w, hf v, h]

/-! ### The end of a word -/

/-- The state after a slot is left differs in the issuing warp's rank and in the slot. -/
theorem leaveSlot_moved (s : State) : Moved s s.leaveSlot id where
  here := by simp only [State.leaveSlot, State.warp_updCore, State.warp_updWarp, State.hcore, if_true]; rfl
  warps c w h := by
    simp only [State.leaveSlot, State.warp_updCore, State.warp_updWarp]
    rw [if_neg (fun e => h e.symm)]
  core := by simp only [State.leaveSlot, State.core_updCore, State.core_updWarp, State.hcore, if_true, Core.data_setSlot]
  cores c h := by
    simp only [State.leaveSlot, State.core_updCore, State.core_updWarp]
    rw [if_neg (fun e => h e.symm)]
  mem := rfl
  work := rfl
  fab := rfl
  plat := rfl
  free := rfl
  focus := rfl
  schedule := rfl

/-- The warp whose clause leaves a slot takes a new rank and keeps all else. -/
theorem leaveSlot_warp (s : State) : s.leaveSlot.warp s.hcore s.run.wslot =
    { s.hwarp with rank := rankAfter s s.hcore s.run.wslot s.run.hdr } := by
  simp only [State.leaveSlot, State.warp_updCore, State.warp_updWarp, State.hcore, if_true]; rfl

/-- A slot without a co-issue partner is free when its clause leaves it. -/
theorem leaveSlot_slot {s : State} (h : s.run.partner = none) : (s.leaveSlot.core s.hcore).slot s.focus.2 = none := by
  have hs : ∀ (k : Core) (i : Nat), (k.setSlot i none).slot i = none := by
    intro k i
    by_cases hi : i = 0 <;> simp [Core.setSlot, Core.slot, hi]
  simp only [State.leaveSlot, State.core_updCore, State.hcore, if_true, h]
  exact hs _ _

/-- Updating the issuing warp. -/
theorem updHere_moved (s : State) (g : Warp → Warp) : Moved s (s.updHere g) g where
  here := by show ((s.updHere g).hwarp).data = _; rw [State.hwarp_updHere]
  warps c w h := by
    show (s.updWarp s.hcore s.run.wslot g).warp c w = _
    rw [State.warp_updWarp, if_neg (fun e => h e.symm)]
  core := rfl
  cores _ _ := rfl
  mem := rfl
  work := rfl
  fab := rfl
  plat := rfl
  free := rfl
  focus := rfl
  schedule := rfl

/-- Two moves of the same warp one after the other. -/
theorem Moved.trans {s u t : State} {g f : Warp → Warp} (h : Moved s u g) (k : Moved u t id) (hr : u.run.wslot = s.run.wslot)
    (hc : (g s.hwarp).data = (f s.hwarp).data) : Moved s t f := by
  have hcore : u.hcore = s.hcore := by simp only [State.hcore, h.focus]
  refine ⟨?_, ?_, ?_, ?_, k.mem.trans h.mem, k.work.trans h.work, k.fab.trans h.fab, k.plat.trans h.plat, k.free.trans h.free,
    k.focus.trans h.focus, k.schedule.trans h.schedule⟩
  · have e := k.here
    rw [hcore, hr] at e
    exact e.trans ((by simp only [id_eq, State.hwarp, hcore, hr]; exact h.here : (id u.hwarp).data = _).trans hc)
  · intro c w hn
    rw [k.warps c w (by rw [hcore, hr]; exact hn), h.warps c w hn]
  · have e := k.core
    rw [hcore] at e
    exact e.trans h.core
  · intro c hn
    rw [k.cores c (by rw [hcore]; exact hn), h.cores c hn]

/-- Moving past n words changes nothing but the issuing warp's place and the issue slot. -/
theorem advance_moved (s : State) (n : Nat) : Moved s (s.advance n) id := by
  unfold State.advance
  simp only []
  split
  · have h := updHere_moved s (fun w => w.setSplit s.run.split { w.split s.run.split with word := s.cidx + n })
    exact ⟨h.here, h.warps, h.core, h.cores, h.mem, h.work, h.fab, h.plat, h.free, h.focus, h.schedule⟩
  · refine (updHere_moved s _).trans (leaveSlot_moved _) rfl ?_
    simp only [Warp.data_wakeWaiting, Warp.data_setPc, Warp.data_setSplit, id_eq]

/-- A write of the issuing warp's data, then moving past n words. -/
theorem updHere_advance_moved (s : State) (g : Warp → Warp) (n : Nat) : Moved s ((s.updHere g).advance n) g :=
  (updHere_moved s g).trans (advance_moved _ n) rfl rfl

/-- A branch whose procedure keeps the warp's data. -/
theorem branch_moved (s : State) (f : Warp → Warp) (g : Warp → Warp) (h : ∀ w, w.data = s.hwarp.data → (f w).data = (g s.hwarp).data) :
    Moved s (s.branch f) g := by
  unfold State.branch
  refine (updHere_moved s _).trans (leaveSlot_moved _) rfl ?_
  simp only [Warp.data_wakeWaiting]
  exact h _ rfl

/-! ### What each control procedure does (05_control.md R100) -/

theorem ctl_setPc (k i x : Nat) (w : Warp) : ctl (k + 1) (.setPc i x) w =
    if (w.split i).tv && ((w.tok (w.split i).td).kind == 1 || (w.tok (w.split i).td).kind == 2) && (w.tok (w.split i).td).pc == x then
      ctl k (.arrive i) (w.setSplit i { w.split i with pc := x })
    else w.setSplit i { w.split i with pc := x } := rfl

theorem ctl_arrive (k i : Nat) (w : Warp) : ctl (k + 1) (.arrive i) w =
    ctl k .resume (ctl k (.complete (w.split i).td) ((w.setTok (w.split i).td
      { w.tok (w.split i).td with pending := (w.tok (w.split i).td).pending &&& ~~~(w.split i).mask }).setSplit i {})) := rfl

theorem ctl_complete_pending (k t : Nat) (w : Warp) (h : (w.tok t).pending ≠ 0) : ctl (k + 1) (.complete t) w = w := by
  show (if (w.tok t).pending != 0 then w else _) = w
  rw [if_pos (by simpa using h)]

theorem ctl_complete_last (k t j : Nat) (w : Warp) (h : (w.tok t).pending = 0) (hr : (w.tok t).rejoin ≠ 0) (hj : w.freeSplit = some j) :
    ctl (k + 1) (.complete t) w = ctl k (.setPc j (w.tok t).pc) ((w.setTok t {}).setSplit j
      { pc := (w.tok t).pc, mask := (w.tok t).rejoin, word := 0, state := 1, tv := (w.tok t).pv, td := (w.tok t).parent }) := by
  show (if (w.tok t).pending != 0 then w else if (w.tok t).rejoin == 0 then w.setTok t {} else _) = _
  rw [if_neg (by simpa using h), if_neg (by simpa using hr), hj]

theorem ctl_resume_none (k : Nat) (w : Warp) (h : ∀ d, d < 16 → (w.tok d).kind ≠ 3) : ctl (k + 1) .resume w = w := by
  show (match (List.range 16).reverse.find? (fun i => (w.tok i).kind == 3), w.freeSplit with | some d, some i => _ | _, _ => w) = w
  have : (List.range 16).reverse.find? (fun i => (w.tok i).kind == 3) = none := by
    rw [List.find?_eq_none]; intro a ha; simp at ha; simpa using h a ha
  rw [this]

theorem freeSplit_congr {w v : Warp} (h : ∀ i, w.split i = v.split i) : w.freeSplit = v.freeSplit := by
  unfold Warp.freeSplit; simp only [h]

end Sys2Proof.Machine
end

