-- ==== Sys2Proof/Laws/Words.lean ====
section
/-! SUPPORT. What the shared shapes of scalar, vector and cross-lane words do (06_vector.md R119, R121, R135): one lemma each, which
a proof about a word cites instead of unfolding the shape. -/
namespace Sys2Proof.Machine

/-! ### The end of a word (05_control.md R97) -/

/-- A word whose effect leaves the splits, the tokens and the slot alone moves on past its words. -/
theorem advance_onward {i : Instr} {s v : State} {n : Nat} (hn : n = wordsOf i) (hf : v.focus = s.focus) (hr : v.run = s.run)
    (hs : v.hwarp.splits = s.hwarp.splits) (ht : v.hwarp.tokens = s.hwarp.tokens) : Onward i s (v.advance n) :=
  ⟨v, hn ▸ rfl, hf, hr, hs, ht⟩

/-- A word that changes its warp alone, and of it neither the splits nor the tokens. -/
theorem updHere_onward {i : Instr} {s : State} {n : Nat} (hn : n = wordsOf i) {g : Warp → Warp} (hs : (g s.hwarp).splits = s.hwarp.splits)
    (ht : (g s.hwarp).tokens = s.hwarp.tokens) : Onward i s ((s.updHere g).advance n) :=
  advance_onward hn rfl (State.run_updHere ..) (by rw [State.hwarp_updHere]; exact hs) (by rw [State.hwarp_updHere]; exact ht)

/-- Such a word completes. -/
theorem updHere_completes {i : Instr} {s : State} {n : Nat} {g : Warp → Warp} (he : exec i s = .next ((s.updHere g).advance n))
    (hn : n = wordsOf i) (hs : (g s.hwarp).splits = s.hwarp.splits) (ht : (g s.hwarp).tokens = s.hwarp.tokens) : Completes i s g :=
  ⟨_, he, updHere_advance_moved .., updHere_onward hn hs ht⟩

/-- A row write moves on past its words. -/
theorem wrote_onward {i : Instr} {s : State} {n : Nat} (hn : n = wordsOf i) (d : Nat) (lanes : Word) (f : Nat → Word) (keep : Bool) :
    Onward i s (s.wrote d lanes f n keep) := updHere_onward hn rfl rfl

/-- A word whose registers are in range and whose sources are clean has its effect. -/
theorem vecChecked_clean {s : State} {names reads : List Nat} {lanes : Word} (h : Clean s names reads lanes) (ok : State) :
    vecChecked s names reads lanes ok = .next ok := by
  obtain ⟨h1, h2⟩ := h
  simp [vecChecked, h1, h2]

/-- A word that names a register outside the allocation faults, whatever it reads. -/
theorem vecChecked_range {s : State} {names : List Nat} (h : s.inRange names = false) (reads : List Nat) (lanes : Word) (ok : State) :
    vecChecked s names reads lanes ok = .next s.rangeFault := by simp [vecChecked, h]

/-- A word that reads a poisoned lane faults with the lanes and the register concerned. -/
theorem vecChecked_poison {s : State} {names reads : List Nat} {lanes : Word} (h : s.inRange names = true)
    (p : s.poisonLanes reads lanes ≠ 0) (ok : State) :
    vecChecked s names reads lanes ok = .next (s.poisonFault (s.poisonReg reads lanes) (s.poisonLanes reads lanes)) := by
  have e : (s.poisonLanes reads lanes != 0) = true := by simpa using p
  simp only [vecChecked, h, e]
  rfl

/-- A row write followed by the end of the word. -/
theorem wrote_moved (s : State) (d : Nat) (lanes : Word) (f : Nat → Word) (n : Nat) (keep : Bool) :
    Moved s (s.wrote d lanes f n keep) (fun w => w.setV d lanes f keep) := updHere_advance_moved ..

/-- A row write depends on the values of its lanes alone. -/
theorem rowOf_congr {f g : Nat → Word} (h : ∀ i, i < 32 → f i = g i) : rowOf f = rowOf g := by
  simp only [rowOf]
  exact List.map_congr_left (fun i hi => h i (List.mem_range.1 hi))

theorem Warp.setV_congr {f g : Nat → Word} (w : Warp) (d : Nat) (m : Word) (k : Bool)
    (h : ∀ i, i < 32 → laneIn m i = true → f i = g i) : w.setV d m f k = w.setV d m g k := by
  have e : rowOf (fun i => if laneIn m i then f i else rowGet (mget w.vregs zeroRow d) i) =
      rowOf (fun i => if laneIn m i then g i else rowGet (mget w.vregs zeroRow d) i) := by
    apply rowOf_congr
    intro i hi
    split
    · exact h i hi ‹_›
    · rfl
  simp only [Warp.setV, e]

/-- Bit i of a mask of lanes. -/
theorem getLsbD_maskOf (f : Nat → Bool) {i : Nat} (h : i < 32) : (maskOf f).getLsbD i = f i := by
  have key : ∀ (n : Nat) (a : Word), n ≤ 32 → ((List.range n).foldl (fun a i => if f i then a ||| BitVec.ofNat 32 (2 ^ i) else a) a).getLsbD i =
      (a.getLsbD i || (decide (i < n) && f i)) := by
    intro n
    induction n with
    | zero => intro a _; simp
    | succ n ih =>
      intro a hn
      rw [List.range_succ, List.foldl_append]
      simp only [List.foldl_cons, List.foldl_nil]
      have hp : (BitVec.ofNat 32 (2 ^ n)).getLsbD i = decide (n = i) := by
        rw [BitVec.getLsbD_ofNat, Nat.testBit_two_pow]; simp [h]
      by_cases hb : f n = true
      · rw [if_pos hb, BitVec.getLsbD_or, ih a (by omega), hp]
        by_cases hi : n = i
        · subst hi; simp [hb]
        · have : (i ≤ n) = (i < n) := by simp; omega
          simp [hi, this]
      · rw [if_neg hb, ih a (by omega)]
        by_cases hi : n = i
        · subst hi; simp at hb; simp [hb]
        · have : (i ≤ n) = (i < n) := by simp; omega
          simp [this]
  have := key 32 0 (le_refl _)
  simpa [maskOf, h] using this

/-- Bit i of the visited lanes that pass a test. -/
theorem getLsbD_hit (m : Word) (f : Nat → Bool) {i : Nat} (h : i < 32) :
    (m &&& maskOf f).getLsbD i = (m.getLsbD i && f i) := by rw [BitVec.getLsbD_and, getLsbD_maskOf f h]

/-- A vector word of two operands that names registers in range and reads clean lanes writes its row and moves on. -/
theorem vec2_next {s : State} {ty : OpTy} {acc : Bool} {d : VReg} {a b : Operand} {p : Bool} (f : Word → Word → Word → Word)
    (h : Clean s (d.val :: opVregs a ++ opVregs b) (opVregs a ++ opVregs b ++ (if acc then [d.val] else [])) (s.active p)) :
    vec2 s ty acc d a b p f = .next (s.wrote d.val (s.active p)
      (fun i => f (s.opVal ty a i) (s.opVal ty b i) (s.hwarp.v d.val i)) (opWords a b)) := by
  unfold vec2
  exact vecChecked_clean h _

/-- A vector word of one operand. -/
theorem vec1_next {s : State} {ty : OpTy} {d : VReg} {a : Operand} {p : Bool} (f : Word → Word)
    (h : Clean s (d.val :: opVregs a) (opVregs a) (s.active p)) :
    vec1 s ty d a p f = .next (s.wrote d.val (s.active p) (fun i => f (s.opVal ty a i)) (opWords a (.int 16))) := by
  have h' : Clean s (d.val :: opVregs a ++ opVregs (.int 16)) (opVregs a ++ opVregs (.int 16) ++ (if false then [d.val] else []))
      (s.active p) := by simpa [opVregs] using h
  exact vec2_next _ h'

/-- A vector word of two operands is a row word with the values that its function gives. -/
theorem vec2_row {i : Instr} {s : State} {ty : OpTy} {acc : Bool} {d : VReg} {a b : Operand} {p : Bool} {f : Word → Word → Word → Word}
    {g : Nat → Word} (he : exec i s = vec2 s ty acc d a b p f) (hn : opWords a b = wordsOf i)
    (h : Clean s (d.val :: opVregs a ++ opVregs b) (opVregs a ++ opVregs b ++ (if acc then [d.val] else [])) (s.active p))
    (hg : ∀ l, l < 32 → f (s.opVal ty a l) (s.opVal ty b l) (s.hwarp.v d.val l) = g l) : RowWord i s d p g := by
  have e : ∀ w : Warp, w.setV d.val (s.active p) (fun i => f (s.opVal ty a i) (s.opVal ty b i) (s.hwarp.v d.val i)) =
      w.setV d.val (s.active p) g := fun w => Warp.setV_congr w _ _ _ (fun l hl _ => hg l hl)
  have hm := wrote_moved s d.val (s.active p) (fun i => f (s.opVal ty a i) (s.opVal ty b i) (s.hwarp.v d.val i)) (opWords a b) false
  exact ⟨_, he.trans (vec2_next f h), by simpa only [e] using hm, wrote_onward hn ..⟩

/-- A vector word of one operand is a row word with the values that its function gives. -/
theorem vec1_row {i : Instr} {s : State} {ty : OpTy} {d : VReg} {a : Operand} {p : Bool} {f : Word → Word} {g : Nat → Word}
    (he : exec i s = vec1 s ty d a p f) (hn : opWords a (.int 16) = wordsOf i) (h : Clean s (d.val :: opVregs a) (opVregs a) (s.active p))
    (hg : ∀ l, l < 32 → f (s.opVal ty a l) = g l) : RowWord i s d p g := by
  have h' : Clean s (d.val :: opVregs a ++ opVregs (.int 16)) (opVregs a ++ opVregs (.int 16) ++ (if false then [d.val] else []))
      (s.active p) := by simpa [opVregs] using h
  exact vec2_row he hn h' hg

/-- What a vector word of one or two operands does where its checks fail: register-range before poison-consumed. -/
theorem vec2_traps {s : State} {ty : OpTy} {acc : Bool} {d : VReg} {a b : Operand} {p : Bool} {f : Word → Word → Word → Word} :
    let reads := opVregs a ++ opVregs b ++ (if acc then [d.val] else [])
    (s.inRange (d.val :: (opVregs a ++ opVregs b)) = false → vec2 s ty acc d a b p f = .next s.rangeFault) ∧
    (s.inRange (d.val :: (opVregs a ++ opVregs b)) = true → s.poisonLanes reads (s.active p) ≠ 0 →
      vec2 s ty acc d a b p f = .next (s.poisonFault (s.poisonReg reads (s.active p)) (s.poisonLanes reads (s.active p)))) :=
  ⟨fun h => vecChecked_range h .., fun h q => vecChecked_poison h q _⟩

theorem vec1_traps {s : State} {ty : OpTy} {d : VReg} {a : Operand} {p : Bool} {f : Word → Word} :
    (s.inRange (d.val :: opVregs a) = false → vec1 s ty d a p f = .next s.rangeFault) ∧
    (s.inRange (d.val :: opVregs a) = true → s.poisonLanes (opVregs a) (s.active p) ≠ 0 →
      vec1 s ty d a p f = .next (s.poisonFault (s.poisonReg (opVregs a) (s.active p)) (s.poisonLanes (opVregs a) (s.active p)))) := by
  have h := vec2_traps (s := s) (ty := ty) (acc := false) (d := d) (a := a) (b := .int 16) (p := p) (f := fun x _ _ => f x)
  have e : opVregs (.int 16) = [] := rfl
  simp only [e, List.append_nil, if_neg Bool.false_ne_true] at h
  exact h

/-- A cross-lane word whose registers are in range and which receives no poison has its effect. -/
theorem laneChecked_clean {s : State} {names : List Nat} {bad : List (Nat × Word)} (h : s.inRange names = true)
    (hb : ∀ p ∈ bad, p.2 = 0) (ok : State) : laneChecked s names bad ok = .next ok := by
  have hf : bad.find? (fun p => p.2 != 0) = none := by
    rw [List.find?_eq_none]
    intro p hp
    simp [hb p hp]
  unfold laneChecked
  rw [hf, h]
  rfl

end Sys2Proof.Machine
end

