-- ==== Sys2Proof/Laws/Access.lean ====
section
/-! SUPPORT. What the shared parts of the memory words do (07_memory.md R146, R155, R163): filling ECB entries, entering a request,
the answer of the checks. -/
namespace Sys2Proof.Machine

@[simp] theorem onVerdict_ok (s u : State) : onVerdict s .ok u = .next u := rfl
@[simp] theorem onVerdict_fault (s u : State) (f : FaultInfo) : onVerdict s (.fault f) u = .next (s.raise f) := rfl

/-- Filling an ECB entry changes nothing but one core's entries. -/
theorem fillEcb_cases (s : State) (core ctx va : Nat) :
    fillEcb s core ctx va = s ∨ ∃ l : List EcbEntry → List EcbEntry, fillEcb s core ctx va = s.updCore core (fun k => { k with ecb := l k.ecb }) := by
  unfold fillEcb
  split
  · exact .inl rfl
  · split
    · rename_i d _; exact .inr ⟨fun l => (d.ent :: l).take Config.ecbEntries, rfl⟩
    · exact .inl rfl

/-- A property that every ECB fill keeps is kept by the fills of an instruction. -/
theorem fillEcbs_keeps (P : State → Prop) (core ctx : Nat) (h : ∀ s va, P s → P (fillEcb s core ctx va)) (acc : List Acc) (s : State)
    (hs : P s) : P (fillEcbs s core ctx acc) := by
  induction acc generalizing s with
  | nil => exact hs
  | cons a r ih => exact ih _ (h _ _ hs)

/-- What filling ECB entries leaves alone. -/
theorem fillEcbs_same (s : State) (core ctx : Nat) (acc : List Acc) :
    (fillEcbs s core ctx acc).mem = s.mem ∧ (fillEcbs s core ctx acc).warps = s.warps ∧ (fillEcbs s core ctx acc).work = s.work ∧
    (fillEcbs s core ctx acc).fab = s.fab ∧ (fillEcbs s core ctx acc).plat = s.plat ∧ (fillEcbs s core ctx acc).free = s.free ∧
    (fillEcbs s core ctx acc).focus = s.focus ∧ (fillEcbs s core ctx acc).schedule = s.schedule := by
  refine fillEcbs_keeps (fun t => t.mem = s.mem ∧ t.warps = s.warps ∧ t.work = s.work ∧ t.fab = s.fab ∧ t.plat = s.plat ∧
    t.free = s.free ∧ t.focus = s.focus ∧ t.schedule = s.schedule) core ctx ?_ acc s ⟨rfl, rfl, rfl, rfl, rfl, rfl, rfl, rfl⟩
  intro t va ht
  rcases fillEcb_cases t core ctx va with e | ⟨l, e⟩ <;> rw [e] <;> exact ht

/-- The issue slots are as before. -/
theorem fillEcbs_slot (s : State) (core ctx : Nat) (acc : List Acc) (c i : Nat) :
    ((fillEcbs s core ctx acc).core c).slot i = (s.core c).slot i := by
  refine fillEcbs_keeps (fun t => ((t.core c).slot i) = (s.core c).slot i) core ctx ?_ acc s rfl
  intro t va ht
  rcases fillEcb_cases t core ctx va with e | ⟨l, e⟩
  · rw [e]; exact ht
  · rw [e, State.core_updCore]
    split
    · rename_i h; subst h; rw [← ht]; rfl
    · exact ht

@[simp] theorem fillEcbs_mem (s : State) (core ctx : Nat) (acc : List Acc) : (fillEcbs s core ctx acc).mem = s.mem := (fillEcbs_same ..).1
@[simp] theorem fillEcbs_warps (s : State) (core ctx : Nat) (acc : List Acc) : (fillEcbs s core ctx acc).warps = s.warps := (fillEcbs_same ..).2.1
@[simp] theorem fillEcbs_work (s : State) (core ctx : Nat) (acc : List Acc) : (fillEcbs s core ctx acc).work = s.work := (fillEcbs_same ..).2.2.1
@[simp] theorem fillEcbs_focus (s : State) (core ctx : Nat) (acc : List Acc) : (fillEcbs s core ctx acc).focus = s.focus :=
  (fillEcbs_same ..).2.2.2.2.2.2.1

@[simp] theorem fillEcbs_run (s : State) (core ctx : Nat) (acc : List Acc) : (fillEcbs s core ctx acc).run = s.run := by
  unfold State.run
  rw [fillEcbs_focus, fillEcbs_slot]

@[simp] theorem fillEcbs_hcore (s : State) (core ctx : Nat) (acc : List Acc) : (fillEcbs s core ctx acc).hcore = s.hcore := by
  unfold State.hcore; rw [fillEcbs_focus]

@[simp] theorem fillEcbs_warp (s : State) (core ctx : Nat) (acc : List Acc) (c w : Nat) : (fillEcbs s core ctx acc).warp c w = s.warp c w := by
  unfold State.warp; rw [fillEcbs_warps]

/-- Raising a counter changes nothing but a warp. -/
@[simp] theorem raiseCounter_mem (s : State) (r : Req) : (raiseCounter s r).mem = s.mem := by
  unfold raiseCounter; split <;> rfl

/-- Settling the lanes of a store takes free values, and nothing else. -/
@[simp] theorem settleLanes_mem (s : State) (r : Req) : (settleLanes s r).2.mem = s.mem := by
  unfold settleLanes; split <;> rfl

/-- Entering a request changes no byte of memory. -/
@[simp] theorem enter_bytes (s : State) (r : Req) : (s.enter r).mem.bytes = s.mem.bytes := by
  show (raiseCounter _ r).mem.bytes = _
  rw [raiseCounter_mem]
  show (settleLanes s r).2.mem.bytes = _
  rw [settleLanes_mem]

/-- Folding a signature touches a block's record alone. -/
@[simp] theorem foldSig_mem (s : State) (b : Nat) (l : List (Nat × List Byte)) : (foldSig s b l).mem = s.mem := by
  unfold foldSig
  split <;> rfl

/-- The address of a lane as 07_memory.md R145 writes it. -/
theorem gaddr_eq (s : State) (sb : SReg) (vo : VReg) (disp : Int) (l : Nat) :
    s.gaddr sb vo disp l = (((s.sbase sb : Int) + (s.voff vo l).toInt + disp) % 2 ^ 64).toNat := by
  unfold State.gaddr addOff
  rw [← add_assoc]

/-- A global word whose counter has room, whose registers are in range and whose checks pass has its effect. -/
theorem globalWord_next {s : State} {kind : ReqKind} {w need vd : Nat} {regs data : List Nat} {sb : SReg} {vo : VReg} {disp : Int}
    {sc ord n : Nat} {dataOf : Nat → Nat} (hc : counterFull s.hwarp kind = false) (hr : s.inRange (voRegs vo ++ regs) = true)
    (hv : globalVerdict s s.hcore s.hwarp.ctx s.hwarp (s.accesses sb vo disp) w need (voRegs vo ++ data) none = .ok) :
    globalWord s kind w need vd regs data sb vo disp sc ord n dataOf =
      .next (globalEffect s kind (s.accesses sb vo disp) w vd sc ord n dataOf) := by
  have e : (lanesOf s.em).map (fun i => ({ lane := i, va := s.gaddr sb vo disp i } : Acc)) = s.accesses sb vo disp := by
    simp only [State.accesses, gaddr_eq]
  unfold globalWord
  rw [hc, hr, e]
  show onVerdict s (globalVerdict s s.hcore s.hwarp.ctx s.hwarp (s.accesses sb vo disp) w need (voRegs vo ++ data) none) _ = _
  rw [hv]
  rfl

/-- The lanes of a mask. -/
theorem mem_lanesOf (m : Word) (l : Nat) : l ∈ lanesOf m ↔ l < 32 ∧ m.getLsbD l = true := by
  simp [lanesOf, laneIn]

/-- A misaligned lane comes before every other check of a global access, and the frame lists exactly the misaligned lanes (07_memory.md
R163). -/
theorem globalVerdict_misaligned (s : State) (core ctx : Nat) (w : Warp) (f : Nat → Nat) (em : Word) (n need : Nat) (reads : List Nat) (l : Nat)
    (hl : l < 32) (h : em.getLsbD l = true) (h2 : f l % n ≠ 0) :
  ∃ x, globalVerdict s core ctx w ((lanesOf em).map (fun i => ⟨i, f i⟩)) n need reads none = .fault x ∧ x.cls = 8 ∧ x.detail = n ∧ x.space = 1 ∧
    ∀ j, j < 32 → x.lanes.getLsbD j = (em.getLsbD j && decide (f j % n ≠ 0)) := by
  unfold globalVerdict
  dsimp only
  rw [List.filterMap_map]
  generalize hg : List.filterMap _ _ = L
  have hm : l ∈ L.map Prod.fst := by
    rw [← hg, List.map_filterMap, List.mem_filterMap]
    exact ⟨l, (mem_lanesOf em l).2 ⟨hl, h⟩, by simp [h2]⟩
  have hall : ∀ p ∈ L, p.2.cls = 8 ∧ p.2.detail = n ∧ p.2.space = 1 := by
    intro p hp
    rw [← hg, List.mem_filterMap] at hp
    obtain ⟨a, -, ha⟩ := hp
    simp only [Function.comp] at ha
    split at ha
    · cases ha; exact ⟨rfl, rfl, rfl⟩
    · cases ha
  have hj : ∀ j, j < 32 → (L.map Prod.fst).contains j = (em.getLsbD j && decide (f j % n ≠ 0)) := by
    intro j hj
    rw [Bool.eq_iff_iff]
    simp only [List.contains_iff_mem, Bool.and_eq_true, decide_eq_true_eq]
    rw [← hg, List.map_filterMap, List.mem_filterMap]
    constructor
    · rintro ⟨a, ha, e⟩
      simp only [Function.comp] at e
      split at e
      · simp at e; subst e; exact ⟨((mem_lanesOf em _).1 ha).2, by assumption⟩
      · simp at e
    · rintro ⟨a, b⟩
      exact ⟨j, (mem_lanesOf em j).2 ⟨hj, a⟩, by simp [b]⟩
  match L, hm, hall, hj with
  | (a, x) :: r, _, hall, hj =>
    obtain ⟨h1, h2, h3⟩ := hall (a, x) (by simp)
    refine ⟨_, rfl, ?_, ?_, ?_, ?_⟩
    · exact h1
    · show (if x.cls == clsPerm then _ else x.detail) = n
      have : x.cls = 8 := h1
      rw [if_neg (by rw [this]; decide)]; exact h2
    · exact h3
    · intro j hl
      show (lanesMask _).getLsbD j = _
      rw [lanesMask, getLsbD_maskOf _ hl]
      exact hj j hl

end Sys2Proof.Machine
end

