-- ==== Sys2Proof/Laws/Encoding.lean ====
section
/-! SUPPORT. Decoding an encoded well-formed instruction gives it back: one lemma for each form of word (02_encoding.md R32
to R46). The lemma for each constructor is in PerInstr.lean. -/
namespace Sys2Proof.Laws

theorem code_lt (a : Operand) : a.code < 256 := by
  cases a with
  | sp x => cases x <;> decide
  | _ => simp only [Operand.code]; omega

theorem fin_val {n : Nat} [NeZero n] (x : Fin n) : fin n x.val = x := Fin.ofNat_val_eq_self x

theorem fin_of {n y : Nat} [NeZero n] (x : Fin n) (h : y = x.val) : fin n y = x := h ▸ fin_val x

theorem bit_eq (p : Bool) : (bit p == 1) = p := by cases p <;> rfl

theorem bit_lt (p : Bool) : bit p < 2 := by cases p <;> decide

theorem and_right {p q : Bool} (h : (p && q) = true) : q = true := (Bool.and_eq_true_iff.mp h).2

/-- An operand's code names it again, when the literal it may carry is the word after the instruction (R34, R35). -/
theorem operand_code (a : Operand) (lit : Option Word) (h : a.lit? = none ∨ a.lit? = lit) :
    operand a.code lit = .ok a := by
  cases a with
  | v r =>
    have h1 : r.val < 0x80 := r.isLt
    simp only [Operand.code, operand, h1, if_true, fin_val]
  | s r =>
    have h1 : ¬ (0x80 + r.val < 0x80) := by omega
    have h2 : 0x80 + r.val < 0xC0 := by omega
    simp only [Operand.code, operand, h1, h2, if_true, if_false, fin_of r (Nat.add_sub_cancel_left ..)]
  | int r =>
    have h1 : ¬ (0xC0 + r.val < 0x80) := by omega
    have h2 : ¬ (0xC0 + r.val < 0xC0) := by omega
    have h3 : 0xC0 + r.val < 0xE0 := by omega
    simp only [Operand.code, operand, h1, h2, h3, if_true, if_false, fin_of r (Nat.add_sub_cancel_left ..)]
  | fc r =>
    have h1 : ¬ (0xE0 + r.val < 0x80) := by omega
    have h2 : ¬ (0xE0 + r.val < 0xC0) := by omega
    have h3 : ¬ (0xE0 + r.val < 0xE0) := by omega
    have h4 : 0xE0 + r.val < 0xE8 := by omega
    simp only [Operand.code, operand, h1, h2, h3, h4, if_true, if_false, fin_of r (Nat.add_sub_cancel_left ..)]
  | sp x => cases x <;> rfl
  | lit w =>
    cases h with
    | inl h => cases h
    | inr h => subst h; rfl

/-- Both operands of an instruction name themselves again, when they agree on the literal (R35). -/
theorem operand_codes {a b : Operand} {lit : Option Word} (hag : a.agree b = true)
    (h : lit2 a b = none ∨ lit2 a b = lit) : operand a.code lit = .ok a ∧ operand b.code lit = .ok b := by
  refine ⟨operand_code a lit ?_, operand_code b lit ?_⟩ <;>
    cases ha : a.lit? <;> cases hb : b.lit? <;> simp_all [lit2, Operand.agree]

theorem literal_code {w : Nat} {x lit : Option Word} (e : fld w 0 1 = bit x.isSome) (h : x = none ∨ x = lit) :
    literalOf w lit = .ok x := by
  cases x with
  | none => simp only [literalOf, e]; rfl
  | some l =>
    cases h with
    | inl h => cases h
    | inr h => subst h; simp only [literalOf, e]; rfl

theorem ok_bind {ε α β : Type} (a : α) (f : α → Except ε β) : (Except.ok a >>= f) = f a := rfl

theorem accept_wf {i : Instr} (h : i.wf = true) : accept true i = .ok i := by simp [accept, h]

/-- From one word to a run of words: the head decodes for every word that may follow it (R35). -/
theorem decode_encode_of {i : Instr} (hw : i.isWord = true) (hlt : i.head < 2 ^ 32)
    (h : ∀ lit, i.literal? = none ∨ i.literal? = lit → decodeWord i.head lit = .ok i) (rest : List Word) :
    decode (encode i ++ rest) = .ok (i, rest) := by
  have hv : (BitVec.ofNat 32 i.head).toNat = i.head := by
    rw [BitVec.toNat_ofNat]; exact Nat.mod_eq_of_lt hlt
  simp only [encode, hw, if_true]
  cases hl : i.literal? with
  | none => simp [decode, hv, h _ (.inl hl), hl]
  | some w => simp [decode, hv, h (some w) (.inr hl), hl]

/-- The words of one form round-trip: `sadd` and its like (R32, R45). -/
theorem rt_sa {op : Nat} (hop : op < 256) {f : SReg → Operand → Operand → Instr}
    (hd : ∀ w lit, fld w 24 8 = op → decodeWord w lit =
      (do let a ← operand (fld w 10 8) lit; let b ← operand (fld w 2 8) lit; accept (fld w 0 2 == 0) (f (fin 64 (fld w 18 6)) a b)))
    (d : SReg) (a b : Operand) (hw : (f d a b).isWord = true)
    (hh : (f d a b).head = encSA op d.val a.code b.code) (hl : (f d a b).literal? = lit2 a b) (hag : (f d a b).wf = true → a.agree b = true)
    (hwf : (f d a b).wf = true) (rest : List Word) : decode (encode (f d a b) ++ rest) = .ok (f d a b, rest) := by
  have h0 : encSA op d.val a.code b.code < 2 ^ 32 ∧
      fld (encSA op d.val a.code b.code) 24 8 = op ∧
      fld (encSA op d.val a.code b.code) 10 8 = a.code ∧
      fld (encSA op d.val a.code b.code) 2 8 = b.code ∧
      fld (encSA op d.val a.code b.code) 0 2 = 0 ∧
      fld (encSA op d.val a.code b.code) 18 6 = d.val := by
    clear * - hop
    have := d.isLt; have := code_lt a; have := code_lt b
    simp only [fld, encSA]
    refine ⟨?_, ?_, ?_, ?_, ?_, ?_⟩ <;> omega
  revert h0 hh
  generalize encSA op d.val a.code b.code = W
  rintro hh ⟨e32, e24_8, e10_8, e2_8, e0_2, e18_6⟩
  refine decode_encode_of hw (hh ▸ e32) (fun lit h => ?_) rest
  rw [hh]
  rw [hl] at h
  have ⟨ha, hb⟩ := operand_codes (hag hwf) h
  rw [hd W lit e24_8]
  rw [e10_8, e2_8, e0_2, e18_6, ha, ok_bind, hb, ok_bind, fin_val d]
  exact accept_wf hwf

/-- The words of one form round-trip: `scmp` (R32, R45). -/
theorem rt_scmp {op : Nat} (hop : op < 256) {f : Fin 10 → Operand → Operand → Instr}
    (hd : ∀ w lit, fld w 24 8 = op → decodeWord w lit =
      (do let a ← operand (fld w 10 8) lit; let b ← operand (fld w 2 8) lit; if fld w 18 6 < 10 then accept (fld w 0 2 == 0) (f (fin 10 (fld w 18 6)) a b) else .error .badValue))
    (c : Fin 10) (a b : Operand) (hw : (f c a b).isWord = true)
    (hh : (f c a b).head = encSA op c.val a.code b.code) (hl : (f c a b).literal? = lit2 a b) (hag : (f c a b).wf = true → a.agree b = true)
    (hwf : (f c a b).wf = true) (rest : List Word) : decode (encode (f c a b) ++ rest) = .ok (f c a b, rest) := by
  have h0 : encSA op c.val a.code b.code < 2 ^ 32 ∧
      fld (encSA op c.val a.code b.code) 24 8 = op ∧
      fld (encSA op c.val a.code b.code) 10 8 = a.code ∧
      fld (encSA op c.val a.code b.code) 2 8 = b.code ∧
      fld (encSA op c.val a.code b.code) 18 6 = c.val ∧
      fld (encSA op c.val a.code b.code) 0 2 = 0 := by
    clear * - hop
    have := c.isLt; have := code_lt a; have := code_lt b
    simp only [fld, encSA]
    refine ⟨?_, ?_, ?_, ?_, ?_, ?_⟩ <;> omega
  revert h0 hh
  generalize encSA op c.val a.code b.code = W
  rintro hh ⟨e32, e24_8, e10_8, e2_8, e18_6, e0_2⟩
  refine decode_encode_of hw (hh ▸ e32) (fun lit h => ?_) rest
  rw [hh]
  rw [hl] at h
  have ⟨ha, hb⟩ := operand_codes (hag hwf) h
  have l18 : c.val < 10 := c.isLt
  rw [hd W lit e24_8]
  rw [e10_8, e2_8, e18_6, e0_2, ha, ok_bind, hb, ok_bind, if_pos l18, fin_val c]
  exact accept_wf hwf

/-- The words of one form round-trip: `sadd64` (R32, R45). -/
theorem rt_sadd64 {op : Nat} (hop : op < 256) {f : SReg → Operand → Operand → Instr}
    (hd : ∀ w lit, fld w 24 8 = op → decodeWord w lit =
      (do let a ← operand (fld w 10 8) lit; let b ← operand (fld w 2 8) lit; accept (fld w 0 2 == 0) (f (fin 64 (fld w 18 6)) a b)))
    (d : SReg) (a b : Operand) (hw : (f d a b).isWord = true)
    (hh : (f d a b).head = encSA op d.val a.code b.code) (hl : (f d a b).literal? = lit2 a b) (hag : (f d a b).wf = true → a.agree b = true)
    (hwf : (f d a b).wf = true) (rest : List Word) : decode (encode (f d a b) ++ rest) = .ok (f d a b, rest) := by
  have h0 : encSA op d.val a.code b.code < 2 ^ 32 ∧
      fld (encSA op d.val a.code b.code) 24 8 = op ∧
      fld (encSA op d.val a.code b.code) 10 8 = a.code ∧
      fld (encSA op d.val a.code b.code) 2 8 = b.code ∧
      fld (encSA op d.val a.code b.code) 0 2 = 0 ∧
      fld (encSA op d.val a.code b.code) 18 6 = d.val := by
    clear * - hop
    have := d.isLt; have := code_lt a; have := code_lt b
    simp only [fld, encSA]
    refine ⟨?_, ?_, ?_, ?_, ?_, ?_⟩ <;> omega
  revert h0 hh
  generalize encSA op d.val a.code b.code = W
  rintro hh ⟨e32, e24_8, e10_8, e2_8, e0_2, e18_6⟩
  refine decode_encode_of hw (hh ▸ e32) (fun lit h => ?_) rest
  rw [hh]
  rw [hl] at h
  have ⟨ha, hb⟩ := operand_codes (hag hwf) h
  rw [hd W lit e24_8]
  rw [e10_8, e2_8, e0_2, e18_6, ha, ok_bind, hb, ok_bind, fin_val d]
  exact accept_wf hwf

/-- The words of one form round-trip: `smov` (R32, R45). -/
theorem rt_smov {op : Nat} (hop : op < 256) {f : SReg → Operand → Instr}
    (hd : ∀ w lit, fld w 24 8 = op → decodeWord w lit =
      (do let a ← operand (fld w 10 8) lit; accept (fld w 0 10 == 0) (f (fin 64 (fld w 18 6)) a)))
    (d : SReg) (a : Operand) (hw : (f d a).isWord = true)
    (hh : (f d a).head = encSA op d.val a.code 0) (hl : (f d a).literal? = a.lit?)
    (hwf : (f d a).wf = true) (rest : List Word) : decode (encode (f d a) ++ rest) = .ok (f d a, rest) := by
  have h0 : encSA op d.val a.code 0 < 2 ^ 32 ∧
      fld (encSA op d.val a.code 0) 24 8 = op ∧
      fld (encSA op d.val a.code 0) 10 8 = a.code ∧
      fld (encSA op d.val a.code 0) 0 10 = 0 ∧
      fld (encSA op d.val a.code 0) 18 6 = d.val := by
    clear * - hop
    have := d.isLt; have := code_lt a
    simp only [fld, encSA]
    refine ⟨?_, ?_, ?_, ?_, ?_⟩ <;> omega
  revert h0 hh
  generalize encSA op d.val a.code 0 = W
  rintro hh ⟨e32, e24_8, e10_8, e0_10, e18_6⟩
  refine decode_encode_of hw (hh ▸ e32) (fun lit h => ?_) rest
  rw [hh]
  rw [hl] at h
  have ha := operand_code a lit h
  rw [hd W lit e24_8]
  rw [e10_8, e0_10, e18_6, ha, ok_bind, fin_val d]
  exact accept_wf hwf

/-- The words of one form round-trip: `jmp` and its like (R32, R45). -/
theorem rt_brOff {op : Nat} (hop : op < 256) {f : Fin 1048576 → Instr}
    (hd : ∀ w lit, fld w 24 8 = op → decodeWord w lit =
      (accept (fld w 20 4 == 0) (f (fin 1048576 (fld w 0 20)))))
    (off : Fin 1048576) (hw : (f off).isWord = true)
    (hh : (f off).head = encBR op 0 0 off.val) 
    (hwf : (f off).wf = true) (rest : List Word) : decode (encode (f off) ++ rest) = .ok (f off, rest) := by
  have h0 : encBR op 0 0 off.val < 2 ^ 32 ∧
      fld (encBR op 0 0 off.val) 24 8 = op ∧
      fld (encBR op 0 0 off.val) 20 4 = 0 ∧
      fld (encBR op 0 0 off.val) 0 20 = off.val := by
    clear * - hop
    have := off.isLt
    simp only [fld, encBR]
    refine ⟨?_, ?_, ?_, ?_⟩ <;> omega
  revert h0 hh
  generalize encBR op 0 0 off.val = W
  rintro hh ⟨e32, e24_8, e20_4, e0_20⟩
  refine decode_encode_of hw (hh ▸ e32) (fun lit h => ?_) rest
  rw [hh]
  rw [hd W lit e24_8]
  rw [e20_4, e0_20, fin_val off]
  exact accept_wf hwf

/-- The words of one form round-trip: `bscc` (R32, R45). -/
theorem rt_bscc {op : Nat} (hop : op < 256) {f : Bool → Fin 1048576 → Instr}
    (hd : ∀ w lit, fld w 24 8 = op → decodeWord w lit =
      (accept (fld w 21 3 == 0) (f (fld w 20 1 == 1) (fin 1048576 (fld w 0 20)))))
    (c : Bool) (off : Fin 1048576) (hw : (f c off).isWord = true)
    (hh : (f c off).head = encBR op 0 (bit c) off.val) 
    (hwf : (f c off).wf = true) (rest : List Word) : decode (encode (f c off) ++ rest) = .ok (f c off, rest) := by
  have h0 : encBR op 0 (bit c) off.val < 2 ^ 32 ∧
      fld (encBR op 0 (bit c) off.val) 24 8 = op ∧
      fld (encBR op 0 (bit c) off.val) 21 3 = 0 ∧
      fld (encBR op 0 (bit c) off.val) 20 1 = bit c ∧
      fld (encBR op 0 (bit c) off.val) 0 20 = off.val := by
    clear * - hop
    have := bit_lt c; have := off.isLt
    simp only [fld, encBR]
    refine ⟨?_, ?_, ?_, ?_, ?_⟩ <;> omega
  revert h0 hh
  generalize encBR op 0 (bit c) off.val = W
  rintro hh ⟨e32, e24_8, e21_3, e20_1, e0_20⟩
  refine decode_encode_of hw (hh ▸ e32) (fun lit h => ?_) rest
  rw [hh]
  rw [hd W lit e24_8]
  rw [e21_3, e20_1, e0_20, bit_eq c, fin_val off]
  exact accept_wf hwf

/-- The words of one form round-trip: `bdiv` and its like (R32, R45). -/
theorem rt_brMask {op : Nat} (hop : op < 256) {f : MReg → Bool → Fin 1048576 → Instr}
    (hd : ∀ w lit, fld w 24 8 = op → decodeWord w lit =
      (accept true (f (fin 8 (fld w 21 3)) (fld w 20 1 == 1) (fin 1048576 (fld w 0 20)))))
    (mk : MReg) (c : Bool) (off : Fin 1048576) (hw : (f mk c off).isWord = true)
    (hh : (f mk c off).head = encBR op mk.val (bit c) off.val) 
    (hwf : (f mk c off).wf = true) (rest : List Word) : decode (encode (f mk c off) ++ rest) = .ok (f mk c off, rest) := by
  have h0 : encBR op mk.val (bit c) off.val < 2 ^ 32 ∧
      fld (encBR op mk.val (bit c) off.val) 24 8 = op ∧
      fld (encBR op mk.val (bit c) off.val) 21 3 = mk.val ∧
      fld (encBR op mk.val (bit c) off.val) 20 1 = bit c ∧
      fld (encBR op mk.val (bit c) off.val) 0 20 = off.val := by
    clear * - hop
    have := mk.isLt; have := bit_lt c; have := off.isLt
    simp only [fld, encBR]
    refine ⟨?_, ?_, ?_, ?_, ?_⟩ <;> omega
  revert h0 hh
  generalize encBR op mk.val (bit c) off.val = W
  rintro hh ⟨e32, e24_8, e21_3, e20_1, e0_20⟩
  refine decode_encode_of hw (hh ▸ e32) (fun lit h => ?_) rest
  rw [hh]
  rw [hd W lit e24_8]
  rw [e21_3, e20_1, e0_20, bit_eq c, fin_val mk, fin_val off]
  exact accept_wf hwf

/-- The words of one form round-trip: `ret` and its like (R32, R45). -/
theorem rt_brNone {op : Nat} (hop : op < 256) {f : Instr}
    (hd : ∀ w lit, fld w 24 8 = op → decodeWord w lit =
      (accept (fld w 0 24 == 0) f))
    (hw : (f).isWord = true)
    (hh : (f).head = encBR op 0 0 0) 
    (hwf : (f).wf = true) (rest : List Word) : decode (encode (f) ++ rest) = .ok (f, rest) := by
  have h0 : encBR op 0 0 0 < 2 ^ 32 ∧
      fld (encBR op 0 0 0) 24 8 = op ∧
      fld (encBR op 0 0 0) 0 24 = 0 := by
    clear * - hop
    simp only [fld, encBR]
    refine ⟨?_, ?_, ?_⟩ <;> omega
  revert h0 hh
  generalize encBR op 0 0 0 = W
  rintro hh ⟨e32, e24_8, e0_24⟩
  refine decode_encode_of hw (hh ▸ e32) (fun lit h => ?_) rest
  rw [hh]
  rw [hd W lit e24_8]
  rw [e0_24]
  exact accept_wf hwf

/-- The words of one form round-trip: `mand` and its like (R32, R45). -/
theorem rt_mask3 {op : Nat} (hop : op < 256) {f : MReg → MReg → MReg → Instr}
    (hd : ∀ w lit, fld w 24 8 = op → decodeWord w lit =
      (accept (fld w 21 3 == 0 && fld w 13 5 == 0 && fld w 5 5 == 0 && fld w 0 2 == 0) (f (fin 8 (fld w 18 3)) (fin 8 (fld w 10 3)) (fin 8 (fld w 2 3)))))
    (d a b : MReg) (hw : (f d a b).isWord = true)
    (hh : (f d a b).head = encSA op d.val a.val b.val) 
    (hwf : (f d a b).wf = true) (rest : List Word) : decode (encode (f d a b) ++ rest) = .ok (f d a b, rest) := by
  have h0 : encSA op d.val a.val b.val < 2 ^ 32 ∧
      fld (encSA op d.val a.val b.val) 24 8 = op ∧
      fld (encSA op d.val a.val b.val) 21 3 = 0 ∧
      fld (encSA op d.val a.val b.val) 13 5 = 0 ∧
      fld (encSA op d.val a.val b.val) 5 5 = 0 ∧
      fld (encSA op d.val a.val b.val) 0 2 = 0 ∧
      fld (encSA op d.val a.val b.val) 18 3 = d.val ∧
      fld (encSA op d.val a.val b.val) 10 3 = a.val ∧
      fld (encSA op d.val a.val b.val) 2 3 = b.val := by
    clear * - hop
    have := d.isLt; have := a.isLt; have := b.isLt
    simp only [fld, encSA]
    refine ⟨?_, ?_, ?_, ?_, ?_, ?_, ?_, ?_, ?_⟩ <;> omega
  revert h0 hh
  generalize encSA op d.val a.val b.val = W
  rintro hh ⟨e32, e24_8, e21_3, e13_5, e5_5, e0_2, e18_3, e10_3, e2_3⟩
  refine decode_encode_of hw (hh ▸ e32) (fun lit h => ?_) rest
  rw [hh]
  rw [hd W lit e24_8]
  rw [e21_3, e13_5, e5_5, e0_2, e18_3, e10_3, e2_3, fin_val d, fin_val a, fin_val b]
  exact accept_wf hwf

/-- The words of one form round-trip: `mfrom` (R32, R45). -/
theorem rt_mfrom {op : Nat} (hop : op < 256) {f : MReg → Instr}
    (hd : ∀ w lit, fld w 24 8 = op → decodeWord w lit =
      (accept (fld w 21 3 == 0 && fld w 0 18 == 0) (f (fin 8 (fld w 18 3)))))
    (d : MReg) (hw : (f d).isWord = true)
    (hh : (f d).head = encSA op d.val 0 0) 
    (hwf : (f d).wf = true) (rest : List Word) : decode (encode (f d) ++ rest) = .ok (f d, rest) := by
  have h0 : encSA op d.val 0 0 < 2 ^ 32 ∧
      fld (encSA op d.val 0 0) 24 8 = op ∧
      fld (encSA op d.val 0 0) 21 3 = 0 ∧
      fld (encSA op d.val 0 0) 0 18 = 0 ∧
      fld (encSA op d.val 0 0) 18 3 = d.val := by
    clear * - hop
    have := d.isLt
    simp only [fld, encSA]
    refine ⟨?_, ?_, ?_, ?_, ?_⟩ <;> omega
  revert h0 hh
  generalize encSA op d.val 0 0 = W
  rintro hh ⟨e32, e24_8, e21_3, e0_18, e18_3⟩
  refine decode_encode_of hw (hh ▸ e32) (fun lit h => ?_) rest
  rw [hh]
  rw [hd W lit e24_8]
  rw [e21_3, e0_18, e18_3, fin_val d]
  exact accept_wf hwf

/-- The words of one form round-trip: `mto` (R32, R45). -/
theorem rt_mto {op : Nat} (hop : op < 256) {f : MReg → MReg → Instr}
    (hd : ∀ w lit, fld w 24 8 = op → decodeWord w lit =
      (accept (fld w 21 3 == 0 && fld w 13 5 == 0 && fld w 0 10 == 0) (f (fin 8 (fld w 18 3)) (fin 8 (fld w 10 3)))))
    (d a : MReg) (hw : (f d a).isWord = true)
    (hh : (f d a).head = encSA op d.val a.val 0) 
    (hwf : (f d a).wf = true) (rest : List Word) : decode (encode (f d a) ++ rest) = .ok (f d a, rest) := by
  have h0 : encSA op d.val a.val 0 < 2 ^ 32 ∧
      fld (encSA op d.val a.val 0) 24 8 = op ∧
      fld (encSA op d.val a.val 0) 21 3 = 0 ∧
      fld (encSA op d.val a.val 0) 13 5 = 0 ∧
      fld (encSA op d.val a.val 0) 0 10 = 0 ∧
      fld (encSA op d.val a.val 0) 18 3 = d.val ∧
      fld (encSA op d.val a.val 0) 10 3 = a.val := by
    clear * - hop
    have := d.isLt; have := a.isLt
    simp only [fld, encSA]
    refine ⟨?_, ?_, ?_, ?_, ?_, ?_, ?_⟩ <;> omega
  revert h0 hh
  generalize encSA op d.val a.val 0 = W
  rintro hh ⟨e32, e24_8, e21_3, e13_5, e0_10, e18_3, e10_3⟩
  refine decode_encode_of hw (hh ▸ e32) (fun lit h => ?_) rest
  rw [hh]
  rw [hd W lit e24_8]
  rw [e21_3, e13_5, e0_10, e18_3, e10_3, fin_val d, fin_val a]
  exact accept_wf hwf

/-- The words of one form round-trip: `vaddI32` and its like (R32, R45). -/
theorem rt_vaBin {op : Nat} (hop : op < 256) {f : VReg → Operand → Operand → Bool → Instr}
    (hd : ∀ w lit, fld w 24 8 = op → decodeWord w lit =
      (do let a ← operand (fld w 9 8) lit; let b ← operand (fld w 1 8) lit; accept true (f (fin 128 (fld w 17 7)) a b (fld w 0 1 == 1))))
    (d : VReg) (a b : Operand) (p : Bool) (hw : (f d a b p).isWord = true)
    (hh : (f d a b p).head = encVA op d.val a.code b.code p) (hl : (f d a b p).literal? = lit2 a b) (hag : (f d a b p).wf = true → a.agree b = true)
    (hwf : (f d a b p).wf = true) (rest : List Word) : decode (encode (f d a b p) ++ rest) = .ok (f d a b p, rest) := by
  have h0 : encVA op d.val a.code b.code p < 2 ^ 32 ∧
      fld (encVA op d.val a.code b.code p) 24 8 = op ∧
      fld (encVA op d.val a.code b.code p) 9 8 = a.code ∧
      fld (encVA op d.val a.code b.code p) 1 8 = b.code ∧
      fld (encVA op d.val a.code b.code p) 17 7 = d.val ∧
      fld (encVA op d.val a.code b.code p) 0 1 = bit p := by
    clear * - hop
    have := d.isLt; have := code_lt a; have := code_lt b; have := bit_lt p
    simp only [fld, encVA]
    refine ⟨?_, ?_, ?_, ?_, ?_, ?_⟩ <;> omega
  revert h0 hh
  generalize encVA op d.val a.code b.code p = W
  rintro hh ⟨e32, e24_8, e9_8, e1_8, e17_7, e0_1⟩
  refine decode_encode_of hw (hh ▸ e32) (fun lit h => ?_) rest
  rw [hh]
  rw [hl] at h
  have ⟨ha, hb⟩ := operand_codes (hag hwf) h
  rw [hd W lit e24_8]
  rw [e9_8, e1_8, e17_7, e0_1, ha, ok_bind, hb, ok_bind, bit_eq p, fin_val d]
  exact accept_wf hwf

/-- The words of one form round-trip: `vrcpF32` and its like (R32, R45). -/
theorem rt_vaUn {op : Nat} (hop : op < 256) {f : VReg → Operand → Bool → Instr}
    (hd : ∀ w lit, fld w 24 8 = op → decodeWord w lit =
      (do let a ← operand (fld w 9 8) lit; accept (fld w 1 8 == 0) (f (fin 128 (fld w 17 7)) a (fld w 0 1 == 1))))
    (d : VReg) (a : Operand) (p : Bool) (hw : (f d a p).isWord = true)
    (hh : (f d a p).head = encVA op d.val a.code 0 p) (hl : (f d a p).literal? = a.lit?)
    (hwf : (f d a p).wf = true) (rest : List Word) : decode (encode (f d a p) ++ rest) = .ok (f d a p, rest) := by
  have h0 : encVA op d.val a.code 0 p < 2 ^ 32 ∧
      fld (encVA op d.val a.code 0 p) 24 8 = op ∧
      fld (encVA op d.val a.code 0 p) 9 8 = a.code ∧
      fld (encVA op d.val a.code 0 p) 1 8 = 0 ∧
      fld (encVA op d.val a.code 0 p) 17 7 = d.val ∧
      fld (encVA op d.val a.code 0 p) 0 1 = bit p := by
    clear * - hop
    have := d.isLt; have := code_lt a; have := bit_lt p
    simp only [fld, encVA]
    refine ⟨?_, ?_, ?_, ?_, ?_, ?_⟩ <;> omega
  revert h0 hh
  generalize encVA op d.val a.code 0 p = W
  rintro hh ⟨e32, e24_8, e9_8, e1_8, e17_7, e0_1⟩
  refine decode_encode_of hw (hh ▸ e32) (fun lit h => ?_) rest
  rw [hh]
  rw [hl] at h
  have ha := operand_code a lit h
  rw [hd W lit e24_8]
  rw [e9_8, e1_8, e17_7, e0_1, ha, ok_bind, bit_eq p, fin_val d]
  exact accept_wf hwf

/-- The words of one form round-trip: `vrndF32` (R32, R45). -/
theorem rt_vrnd {op : Nat} (hop : op < 256) {f : VReg → Operand → Fin 4 → Bool → Instr}
    (hd : ∀ w lit, fld w 24 8 = op → decodeWord w lit =
      (do let a ← operand (fld w 9 8) lit; if fld w 7 1 = 1 then .error .badValue else accept (fld w 8 1 == 0 && fld w 1 4 == 0) (f (fin 128 (fld w 17 7)) a (fin 4 (fld w 5 2)) (fld w 0 1 == 1))))
    (d : VReg) (a : Operand) (mode : Fin 4) (p : Bool) (hw : (f d a mode p).isWord = true)
    (hh : (f d a mode p).head = encVA op d.val a.code (mode.val * 16) p) (hl : (f d a mode p).literal? = a.lit?)
    (hwf : (f d a mode p).wf = true) (rest : List Word) : decode (encode (f d a mode p) ++ rest) = .ok (f d a mode p, rest) := by
  have h0 : encVA op d.val a.code (mode.val * 16) p < 2 ^ 32 ∧
      fld (encVA op d.val a.code (mode.val * 16) p) 24 8 = op ∧
      fld (encVA op d.val a.code (mode.val * 16) p) 9 8 = a.code ∧
      fld (encVA op d.val a.code (mode.val * 16) p) 7 1 = 0 ∧
      fld (encVA op d.val a.code (mode.val * 16) p) 8 1 = 0 ∧
      fld (encVA op d.val a.code (mode.val * 16) p) 1 4 = 0 ∧
      fld (encVA op d.val a.code (mode.val * 16) p) 17 7 = d.val ∧
      fld (encVA op d.val a.code (mode.val * 16) p) 5 2 = mode.val ∧
      fld (encVA op d.val a.code (mode.val * 16) p) 0 1 = bit p := by
    clear * - hop
    have := d.isLt; have := code_lt a; have := mode.isLt; have := bit_lt p
    simp only [fld, encVA]
    refine ⟨?_, ?_, ?_, ?_, ?_, ?_, ?_, ?_, ?_⟩ <;> omega
  revert h0 hh
  generalize encVA op d.val a.code (mode.val * 16) p = W
  rintro hh ⟨e32, e24_8, e9_8, e7_1, e8_1, e1_4, e17_7, e5_2, e0_1⟩
  refine decode_encode_of hw (hh ▸ e32) (fun lit h => ?_) rest
  rw [hh]
  rw [hl] at h
  have ha := operand_code a lit h
  rw [hd W lit e24_8]
  rw [e9_8, e7_1, e8_1, e1_4, e17_7, e5_2, e0_1, ha, ok_bind, if_neg Nat.zero_ne_one, bit_eq p, fin_val d, fin_val mode]
  exact accept_wf hwf

/-- The words of one form round-trip: `vcmpI32` and its like (R32, R45). -/
theorem rt_vcmp {op : Nat} (hop : op < 256) {f : Fin 8 → MReg → Operand → Operand → Bool → Instr}
    (hd : ∀ w lit, fld w 24 8 = op → decodeWord w lit =
      (do let a ← operand (fld w 9 8) lit; let b ← operand (fld w 1 8) lit; if fld w 23 1 = 1 then .error .badValue else accept true (f (fin 8 (fld w 20 3)) (fin 8 (fld w 17 3)) a b (fld w 0 1 == 1))))
    (c : Fin 8) (m : MReg) (a b : Operand) (p : Bool) (hw : (f c m a b p).isWord = true)
    (hh : (f c m a b p).head = encVA op (c.val * 8 + m.val) a.code b.code p) (hl : (f c m a b p).literal? = lit2 a b) (hag : (f c m a b p).wf = true → a.agree b = true)
    (hwf : (f c m a b p).wf = true) (rest : List Word) : decode (encode (f c m a b p) ++ rest) = .ok (f c m a b p, rest) := by
  have h0 : encVA op (c.val * 8 + m.val) a.code b.code p < 2 ^ 32 ∧
      fld (encVA op (c.val * 8 + m.val) a.code b.code p) 24 8 = op ∧
      fld (encVA op (c.val * 8 + m.val) a.code b.code p) 9 8 = a.code ∧
      fld (encVA op (c.val * 8 + m.val) a.code b.code p) 1 8 = b.code ∧
      fld (encVA op (c.val * 8 + m.val) a.code b.code p) 23 1 = 0 ∧
      fld (encVA op (c.val * 8 + m.val) a.code b.code p) 20 3 = c.val ∧
      fld (encVA op (c.val * 8 + m.val) a.code b.code p) 17 3 = m.val ∧
      fld (encVA op (c.val * 8 + m.val) a.code b.code p) 0 1 = bit p := by
    clear * - hop
    have := c.isLt; have := m.isLt; have := code_lt a; have := code_lt b; have := bit_lt p
    simp only [fld, encVA]
    refine ⟨?_, ?_, ?_, ?_, ?_, ?_, ?_, ?_⟩ <;> omega
  revert h0 hh
  generalize encVA op (c.val * 8 + m.val) a.code b.code p = W
  rintro hh ⟨e32, e24_8, e9_8, e1_8, e23_1, e20_3, e17_3, e0_1⟩
  refine decode_encode_of hw (hh ▸ e32) (fun lit h => ?_) rest
  rw [hh]
  rw [hl] at h
  have ⟨ha, hb⟩ := operand_codes (hag hwf) h
  rw [hd W lit e24_8]
  rw [e9_8, e1_8, e23_1, e20_3, e17_3, e0_1, ha, ok_bind, hb, ok_bind, if_neg Nat.zero_ne_one, bit_eq p, fin_val c, fin_val m]
  exact accept_wf hwf

/-- The words of one form round-trip: `vselB32` (R32, R45). -/
theorem rt_vsel {op : Nat} (hop : op < 256) {f : VReg → Operand → Operand → Instr}
    (hd : ∀ w lit, fld w 24 8 = op → decodeWord w lit =
      (do let a ← operand (fld w 9 8) lit; let b ← operand (fld w 1 8) lit; accept (fld w 0 1 == 0) (f (fin 128 (fld w 17 7)) a b)))
    (d : VReg) (a b : Operand) (hw : (f d a b).isWord = true)
    (hh : (f d a b).head = encVA op d.val a.code b.code false) (hl : (f d a b).literal? = lit2 a b) (hag : (f d a b).wf = true → a.agree b = true)
    (hwf : (f d a b).wf = true) (rest : List Word) : decode (encode (f d a b) ++ rest) = .ok (f d a b, rest) := by
  have h0 : encVA op d.val a.code b.code false < 2 ^ 32 ∧
      fld (encVA op d.val a.code b.code false) 24 8 = op ∧
      fld (encVA op d.val a.code b.code false) 9 8 = a.code ∧
      fld (encVA op d.val a.code b.code false) 1 8 = b.code ∧
      fld (encVA op d.val a.code b.code false) 0 1 = 0 ∧
      fld (encVA op d.val a.code b.code false) 17 7 = d.val := by
    clear * - hop
    have := d.isLt; have := code_lt a; have := code_lt b
    simp only [fld, encVA, bit, Bool.false_eq_true, if_false]
    refine ⟨?_, ?_, ?_, ?_, ?_, ?_⟩ <;> omega
  revert h0 hh
  generalize encVA op d.val a.code b.code false = W
  rintro hh ⟨e32, e24_8, e9_8, e1_8, e0_1, e17_7⟩
  refine decode_encode_of hw (hh ▸ e32) (fun lit h => ?_) rest
  rw [hh]
  rw [hl] at h
  have ⟨ha, hb⟩ := operand_codes (hag hwf) h
  rw [hd W lit e24_8]
  rw [e9_8, e1_8, e0_1, e17_7, ha, ok_bind, hb, ok_bind, fin_val d]
  exact accept_wf hwf

/-- The words of one form round-trip: `vcvtF32I32` and its like (R32, R45). -/
theorem rt_vcvt {op : Nat} (hop : op < 256) {f : VReg → Operand → CvtCtl → Bool → Instr}
    (hd : ∀ w lit, fld w 24 8 = op → decodeWord w lit =
      (do let a ← operand (fld w 9 8) lit; accept (fld w 1 2 == 0) (f (fin 128 (fld w 17 7)) a ⟨fld w 8 1 == 1, fin 8 (fld w 5 3), fin 4 (fld w 3 2)⟩ (fld w 0 1 == 1))))
    (d : VReg) (a : Operand) (k : CvtCtl) (p : Bool) (hw : (f d a k p).isWord = true)
    (hh : (f d a k p).head = encVA op d.val a.code k.byte p) (hl : (f d a k p).literal? = a.lit?)
    (hwf : (f d a k p).wf = true) (rest : List Word) : decode (encode (f d a k p) ++ rest) = .ok (f d a k p, rest) := by
  have h0 : encVA op d.val a.code k.byte p < 2 ^ 32 ∧
      fld (encVA op d.val a.code k.byte p) 24 8 = op ∧
      fld (encVA op d.val a.code k.byte p) 9 8 = a.code ∧
      fld (encVA op d.val a.code k.byte p) 1 2 = 0 ∧
      fld (encVA op d.val a.code k.byte p) 17 7 = d.val ∧
      fld (encVA op d.val a.code k.byte p) 8 1 = bit k.sat ∧
      fld (encVA op d.val a.code k.byte p) 5 3 = k.mode.val ∧
      fld (encVA op d.val a.code k.byte p) 3 2 = k.pos.val ∧
      fld (encVA op d.val a.code k.byte p) 0 1 = bit p := by
    clear * - hop
    have := d.isLt; have := code_lt a; have := bit_lt k.sat; have := k.mode.isLt; have := k.pos.isLt; have := bit_lt p
    simp only [fld, encVA, CvtCtl.byte]
    refine ⟨?_, ?_, ?_, ?_, ?_, ?_, ?_, ?_, ?_⟩ <;> omega
  revert h0 hh
  generalize encVA op d.val a.code k.byte p = W
  rintro hh ⟨e32, e24_8, e9_8, e1_2, e17_7, e8_1, e5_3, e3_2, e0_1⟩
  refine decode_encode_of hw (hh ▸ e32) (fun lit h => ?_) rest
  rw [hh]
  rw [hl] at h
  have ha := operand_code a lit h
  rw [hd W lit e24_8]
  rw [e9_8, e1_2, e17_7, e8_1, e5_3, e3_2, e0_1, ha, ok_bind, bit_eq k.sat, bit_eq p, fin_val d, fin_val k.mode, fin_val k.pos]
  exact accept_wf hwf

/-- The words of one form round-trip: `vscvt` (R32, R45). -/
theorem rt_vscvt {op : Nat} (hop : op < 256) {f : VReg → VReg → CvtCtl → Bool → Instr}
    (hd : ∀ w lit, fld w 24 8 = op → decodeWord w lit =
      (if fld w 9 8 < 128 then accept (fld w 1 2 == 0) (f (fin 128 (fld w 17 7)) (fin 128 (fld w 9 8)) ⟨fld w 8 1 == 1, fin 8 (fld w 5 3), fin 4 (fld w 3 2)⟩ (fld w 0 1 == 1)) else .error .badOperand))
    (d a : VReg) (k : CvtCtl) (p : Bool) (hw : (f d a k p).isWord = true)
    (hh : (f d a k p).head = encVA op d.val a.val k.byte p) 
    (hwf : (f d a k p).wf = true) (rest : List Word) : decode (encode (f d a k p) ++ rest) = .ok (f d a k p, rest) := by
  have h0 : encVA op d.val a.val k.byte p < 2 ^ 32 ∧
      fld (encVA op d.val a.val k.byte p) 24 8 = op ∧
      fld (encVA op d.val a.val k.byte p) 9 8 = a.val ∧
      fld (encVA op d.val a.val k.byte p) 1 2 = 0 ∧
      fld (encVA op d.val a.val k.byte p) 17 7 = d.val ∧
      fld (encVA op d.val a.val k.byte p) 8 1 = bit k.sat ∧
      fld (encVA op d.val a.val k.byte p) 5 3 = k.mode.val ∧
      fld (encVA op d.val a.val k.byte p) 3 2 = k.pos.val ∧
      fld (encVA op d.val a.val k.byte p) 0 1 = bit p := by
    clear * - hop
    have := d.isLt; have := a.isLt; have := bit_lt k.sat; have := k.mode.isLt; have := k.pos.isLt; have := bit_lt p
    simp only [fld, encVA, CvtCtl.byte]
    refine ⟨?_, ?_, ?_, ?_, ?_, ?_, ?_, ?_, ?_⟩ <;> omega
  revert h0 hh
  generalize encVA op d.val a.val k.byte p = W
  rintro hh ⟨e32, e24_8, e9_8, e1_2, e17_7, e8_1, e5_3, e3_2, e0_1⟩
  refine decode_encode_of hw (hh ▸ e32) (fun lit h => ?_) rest
  rw [hh]
  have l9 : a.val < 128 := a.isLt
  rw [hd W lit e24_8]
  rw [e9_8, e1_2, e17_7, e8_1, e5_3, e3_2, e0_1, if_pos l9, bit_eq k.sat, bit_eq p, fin_val d, fin_val a, fin_val k.mode, fin_val k.pos]
  exact accept_wf hwf

/-- The words of one form round-trip: `vshflB32` (R32, R45). -/
theorem rt_vshfl {op : Nat} (hop : op < 256) {f : VReg → VReg → Operand → Bool → Instr}
    (hd : ∀ w lit, fld w 24 8 = op → decodeWord w lit =
      (do let b ← operand (fld w 1 8) lit; if fld w 9 8 < 128 then accept true (f (fin 128 (fld w 17 7)) (fin 128 (fld w 9 8)) b (fld w 0 1 == 1)) else .error .badOperand))
    (d a : VReg) (b : Operand) (p : Bool) (hw : (f d a b p).isWord = true)
    (hh : (f d a b p).head = encVA op d.val a.val b.code p) (hl : (f d a b p).literal? = b.lit?)
    (hwf : (f d a b p).wf = true) (rest : List Word) : decode (encode (f d a b p) ++ rest) = .ok (f d a b p, rest) := by
  have h0 : encVA op d.val a.val b.code p < 2 ^ 32 ∧
      fld (encVA op d.val a.val b.code p) 24 8 = op ∧
      fld (encVA op d.val a.val b.code p) 1 8 = b.code ∧
      fld (encVA op d.val a.val b.code p) 9 8 = a.val ∧
      fld (encVA op d.val a.val b.code p) 17 7 = d.val ∧
      fld (encVA op d.val a.val b.code p) 0 1 = bit p := by
    clear * - hop
    have := d.isLt; have := a.isLt; have := code_lt b; have := bit_lt p
    simp only [fld, encVA]
    refine ⟨?_, ?_, ?_, ?_, ?_, ?_⟩ <;> omega
  revert h0 hh
  generalize encVA op d.val a.val b.code p = W
  rintro hh ⟨e32, e24_8, e1_8, e9_8, e17_7, e0_1⟩
  refine decode_encode_of hw (hh ▸ e32) (fun lit h => ?_) rest
  rw [hh]
  rw [hl] at h
  have hb := operand_code b lit h
  have l9 : a.val < 128 := a.isLt
  rw [hd W lit e24_8]
  rw [e1_8, e9_8, e17_7, e0_1, hb, ok_bind, if_pos l9, bit_eq p, fin_val d, fin_val a]
  exact accept_wf hwf

/-- The words of one form round-trip: `vnblB32` and its like (R32, R45). -/
theorem rt_vnb {op : Nat} (hop : op < 256) {f : VReg → VReg → Fin 4 → Bool → Instr}
    (hd : ∀ w lit, fld w 24 8 = op → decodeWord w lit =
      (if fld w 9 8 < 128 then (if fld w 1 8 < 4 then accept true (f (fin 128 (fld w 17 7)) (fin 128 (fld w 9 8)) (fin 4 (fld w 1 8)) (fld w 0 1 == 1)) else .error .badValue) else .error .badOperand))
    (d a : VReg) (sel : Fin 4) (p : Bool) (hw : (f d a sel p).isWord = true)
    (hh : (f d a sel p).head = encVA op d.val a.val sel.val p) 
    (hwf : (f d a sel p).wf = true) (rest : List Word) : decode (encode (f d a sel p) ++ rest) = .ok (f d a sel p, rest) := by
  have h0 : encVA op d.val a.val sel.val p < 2 ^ 32 ∧
      fld (encVA op d.val a.val sel.val p) 24 8 = op ∧
      fld (encVA op d.val a.val sel.val p) 9 8 = a.val ∧
      fld (encVA op d.val a.val sel.val p) 1 8 = sel.val ∧
      fld (encVA op d.val a.val sel.val p) 17 7 = d.val ∧
      fld (encVA op d.val a.val sel.val p) 0 1 = bit p := by
    clear * - hop
    have := d.isLt; have := a.isLt; have := sel.isLt; have := bit_lt p
    simp only [fld, encVA]
    refine ⟨?_, ?_, ?_, ?_, ?_, ?_⟩ <;> omega
  revert h0 hh
  generalize encVA op d.val a.val sel.val p = W
  rintro hh ⟨e32, e24_8, e9_8, e1_8, e17_7, e0_1⟩
  refine decode_encode_of hw (hh ▸ e32) (fun lit h => ?_) rest
  rw [hh]
  have l9 : a.val < 128 := a.isLt
  have l1 : sel.val < 4 := sel.isLt
  rw [hd W lit e24_8]
  rw [e9_8, e1_8, e17_7, e0_1, if_pos l9, if_pos l1, bit_eq p, fin_val d, fin_val a, fin_val sel]
  exact accept_wf hwf

/-- The words of one form round-trip: `vbcastB32` (R32, R45). -/
theorem rt_vbcast {op : Nat} (hop : op < 256) {f : VReg → VReg → Operand → Bool → Instr}
    (hd : ∀ w lit, fld w 24 8 = op → decodeWord w lit =
      (do let b ← operand (fld w 1 8) lit; if fld w 9 8 < 128 then accept true (f (fin 128 (fld w 17 7)) (fin 128 (fld w 9 8)) b (fld w 0 1 == 1)) else .error .badOperand))
    (d a : VReg) (b : Operand) (p : Bool) (hw : (f d a b p).isWord = true)
    (hh : (f d a b p).head = encVA op d.val a.val b.code p) (hl : (f d a b p).literal? = b.lit?)
    (hwf : (f d a b p).wf = true) (rest : List Word) : decode (encode (f d a b p) ++ rest) = .ok (f d a b p, rest) := by
  have h0 : encVA op d.val a.val b.code p < 2 ^ 32 ∧
      fld (encVA op d.val a.val b.code p) 24 8 = op ∧
      fld (encVA op d.val a.val b.code p) 1 8 = b.code ∧
      fld (encVA op d.val a.val b.code p) 9 8 = a.val ∧
      fld (encVA op d.val a.val b.code p) 17 7 = d.val ∧
      fld (encVA op d.val a.val b.code p) 0 1 = bit p := by
    clear * - hop
    have := d.isLt; have := a.isLt; have := code_lt b; have := bit_lt p
    simp only [fld, encVA]
    refine ⟨?_, ?_, ?_, ?_, ?_, ?_⟩ <;> omega
  revert h0 hh
  generalize encVA op d.val a.val b.code p = W
  rintro hh ⟨e32, e24_8, e1_8, e9_8, e17_7, e0_1⟩
  refine decode_encode_of hw (hh ▸ e32) (fun lit h => ?_) rest
  rw [hh]
  rw [hl] at h
  have hb := operand_code b lit h
  have l9 : a.val < 128 := a.isLt
  rw [hd W lit e24_8]
  rw [e1_8, e9_8, e17_7, e0_1, hb, ok_bind, if_pos l9, bit_eq p, fin_val d, fin_val a]
  exact accept_wf hwf

/-- The words of one form round-trip: `vredAddI32` and its like (R32, R45). -/
theorem rt_vred {op : Nat} (hop : op < 256) {f : VReg → VReg → Bool → Instr}
    (hd : ∀ w lit, fld w 24 8 = op → decodeWord w lit =
      (if fld w 9 8 < 128 then accept (fld w 1 8 == 0) (f (fin 128 (fld w 17 7)) (fin 128 (fld w 9 8)) (fld w 0 1 == 1)) else .error .badOperand))
    (d a : VReg) (p : Bool) (hw : (f d a p).isWord = true)
    (hh : (f d a p).head = encVA op d.val a.val 0 p) 
    (hwf : (f d a p).wf = true) (rest : List Word) : decode (encode (f d a p) ++ rest) = .ok (f d a p, rest) := by
  have h0 : encVA op d.val a.val 0 p < 2 ^ 32 ∧
      fld (encVA op d.val a.val 0 p) 24 8 = op ∧
      fld (encVA op d.val a.val 0 p) 9 8 = a.val ∧
      fld (encVA op d.val a.val 0 p) 1 8 = 0 ∧
      fld (encVA op d.val a.val 0 p) 17 7 = d.val ∧
      fld (encVA op d.val a.val 0 p) 0 1 = bit p := by
    clear * - hop
    have := d.isLt; have := a.isLt; have := bit_lt p
    simp only [fld, encVA]
    refine ⟨?_, ?_, ?_, ?_, ?_, ?_⟩ <;> omega
  revert h0 hh
  generalize encVA op d.val a.val 0 p = W
  rintro hh ⟨e32, e24_8, e9_8, e1_8, e17_7, e0_1⟩
  refine decode_encode_of hw (hh ▸ e32) (fun lit h => ?_) rest
  rw [hh]
  have l9 : a.val < 128 := a.isLt
  rw [hd W lit e24_8]
  rw [e9_8, e1_8, e17_7, e0_1, if_pos l9, bit_eq p, fin_val d, fin_val a]
  exact accept_wf hwf

/-- The words of one form round-trip: `vballot` (R32, R45). -/
theorem rt_vballot {op : Nat} (hop : op < 256) {f : MReg → Operand → Bool → Instr}
    (hd : ∀ w lit, fld w 24 8 = op → decodeWord w lit =
      (do let a ← operand (fld w 9 8) lit; accept (fld w 20 4 == 0 && fld w 1 8 == 0) (f (fin 8 (fld w 17 3)) a (fld w 0 1 == 1))))
    (m : MReg) (a : Operand) (p : Bool) (hw : (f m a p).isWord = true)
    (hh : (f m a p).head = encVA op m.val a.code 0 p) (hl : (f m a p).literal? = a.lit?)
    (hwf : (f m a p).wf = true) (rest : List Word) : decode (encode (f m a p) ++ rest) = .ok (f m a p, rest) := by
  have h0 : encVA op m.val a.code 0 p < 2 ^ 32 ∧
      fld (encVA op m.val a.code 0 p) 24 8 = op ∧
      fld (encVA op m.val a.code 0 p) 9 8 = a.code ∧
      fld (encVA op m.val a.code 0 p) 20 4 = 0 ∧
      fld (encVA op m.val a.code 0 p) 1 8 = 0 ∧
      fld (encVA op m.val a.code 0 p) 17 3 = m.val ∧
      fld (encVA op m.val a.code 0 p) 0 1 = bit p := by
    clear * - hop
    have := m.isLt; have := code_lt a; have := bit_lt p
    simp only [fld, encVA]
    refine ⟨?_, ?_, ?_, ?_, ?_, ?_, ?_⟩ <;> omega
  revert h0 hh
  generalize encVA op m.val a.code 0 p = W
  rintro hh ⟨e32, e24_8, e9_8, e20_4, e1_8, e17_3, e0_1⟩
  refine decode_encode_of hw (hh ▸ e32) (fun lit h => ?_) rest
  rw [hh]
  rw [hl] at h
  have ha := operand_code a lit h
  rw [hd W lit e24_8]
  rw [e9_8, e20_4, e1_8, e17_3, e0_1, ha, ok_bind, bit_eq p, fin_val m]
  exact accept_wf hwf

/-- The words of one form round-trip: `vrdlane` (R32, R45). -/
theorem rt_vrdlane {op : Nat} (hop : op < 256) {f : SReg → VReg → Operand → Instr}
    (hd : ∀ w lit, fld w 24 8 = op → decodeWord w lit =
      (do let b ← operand (fld w 1 8) lit; if fld w 9 8 < 128 then accept (fld w 23 1 == 0 && fld w 0 1 == 0) (f (fin 64 (fld w 17 6)) (fin 128 (fld w 9 8)) b) else .error .badOperand))
    (d : SReg) (a : VReg) (b : Operand) (hw : (f d a b).isWord = true)
    (hh : (f d a b).head = encVA op d.val a.val b.code false) (hl : (f d a b).literal? = b.lit?)
    (hwf : (f d a b).wf = true) (rest : List Word) : decode (encode (f d a b) ++ rest) = .ok (f d a b, rest) := by
  have h0 : encVA op d.val a.val b.code false < 2 ^ 32 ∧
      fld (encVA op d.val a.val b.code false) 24 8 = op ∧
      fld (encVA op d.val a.val b.code false) 1 8 = b.code ∧
      fld (encVA op d.val a.val b.code false) 9 8 = a.val ∧
      fld (encVA op d.val a.val b.code false) 23 1 = 0 ∧
      fld (encVA op d.val a.val b.code false) 0 1 = 0 ∧
      fld (encVA op d.val a.val b.code false) 17 6 = d.val := by
    clear * - hop
    have := d.isLt; have := a.isLt; have := code_lt b
    simp only [fld, encVA, bit, Bool.false_eq_true, if_false]
    refine ⟨?_, ?_, ?_, ?_, ?_, ?_, ?_⟩ <;> omega
  revert h0 hh
  generalize encVA op d.val a.val b.code false = W
  rintro hh ⟨e32, e24_8, e1_8, e9_8, e23_1, e0_1, e17_6⟩
  refine decode_encode_of hw (hh ▸ e32) (fun lit h => ?_) rest
  rw [hh]
  rw [hl] at h
  have hb := operand_code b lit h
  have l9 : a.val < 128 := a.isLt
  rw [hd W lit e24_8]
  rw [e1_8, e9_8, e23_1, e0_1, e17_6, hb, ok_bind, if_pos l9, fin_val d, fin_val a]
  exact accept_wf hwf

/-- The words of one form round-trip: `ldN8` and its like (R32, R45). -/
theorem rt_ldg {op : Nat} (hop : op < 256) {f : VReg → SReg → VReg → Fin 8 → Option Word → Instr}
    (hd : ∀ w lit, fld w 24 8 = op → decodeWord w lit =
      (do let x ← literalOf w lit; accept true (f (fin 128 (fld w 17 7)) (fin 64 (fld w 11 6)) (fin 128 (fld w 4 7)) (fin 8 (fld w 1 3)) x)))
    (d : VReg) (sb : SReg) (vo : VReg) (sc : Fin 8) (x : Option Word) (hw : (f d sb vo sc x).isWord = true)
    (hh : (f d sb vo sc x).head = encME op d.val sb.val vo.val sc.val x) (hl : (f d sb vo sc x).literal? = x)
    (hwf : (f d sb vo sc x).wf = true) (rest : List Word) : decode (encode (f d sb vo sc x) ++ rest) = .ok (f d sb vo sc x, rest) := by
  have h0 : encME op d.val sb.val vo.val sc.val x < 2 ^ 32 ∧
      fld (encME op d.val sb.val vo.val sc.val x) 24 8 = op ∧
      fld (encME op d.val sb.val vo.val sc.val x) 17 7 = d.val ∧
      fld (encME op d.val sb.val vo.val sc.val x) 11 6 = sb.val ∧
      fld (encME op d.val sb.val vo.val sc.val x) 4 7 = vo.val ∧
      fld (encME op d.val sb.val vo.val sc.val x) 1 3 = sc.val ∧
      fld (encME op d.val sb.val vo.val sc.val x) 0 1 = bit x.isSome := by
    clear * - hop
    have := d.isLt; have := sb.isLt; have := vo.isLt; have := sc.isLt; have := bit_lt x.isSome
    simp only [fld, encME]
    refine ⟨?_, ?_, ?_, ?_, ?_, ?_, ?_⟩ <;> omega
  revert h0 hh
  generalize encME op d.val sb.val vo.val sc.val x = W
  rintro hh ⟨e32, e24_8, e17_7, e11_6, e4_7, e1_3, e0_1⟩
  refine decode_encode_of hw (hh ▸ e32) (fun lit h => ?_) rest
  rw [hh]
  rw [hl] at h
  have hx := literal_code e0_1 h
  rw [hd W lit e24_8]
  rw [e17_7, e11_6, e4_7, e1_3, hx, ok_bind, fin_val d, fin_val sb, fin_val vo, fin_val sc]
  exact accept_wf hwf

/-- The words of one form round-trip: `stB8` and its like (R32, R45). -/
theorem rt_stg {op : Nat} (hop : op < 256) {f : VReg → SReg → VReg → Fin 8 → Option Word → Instr}
    (hd : ∀ w lit, fld w 24 8 = op → decodeWord w lit =
      (do let x ← literalOf w lit; accept true (f (fin 128 (fld w 17 7)) (fin 64 (fld w 11 6)) (fin 128 (fld w 4 7)) (fin 8 (fld w 1 3)) x)))
    (d : VReg) (sb : SReg) (vo : VReg) (sc : Fin 8) (x : Option Word) (hw : (f d sb vo sc x).isWord = true)
    (hh : (f d sb vo sc x).head = encME op d.val sb.val vo.val sc.val x) (hl : (f d sb vo sc x).literal? = x)
    (hwf : (f d sb vo sc x).wf = true) (rest : List Word) : decode (encode (f d sb vo sc x) ++ rest) = .ok (f d sb vo sc x, rest) := by
  have h0 : encME op d.val sb.val vo.val sc.val x < 2 ^ 32 ∧
      fld (encME op d.val sb.val vo.val sc.val x) 24 8 = op ∧
      fld (encME op d.val sb.val vo.val sc.val x) 17 7 = d.val ∧
      fld (encME op d.val sb.val vo.val sc.val x) 11 6 = sb.val ∧
      fld (encME op d.val sb.val vo.val sc.val x) 4 7 = vo.val ∧
      fld (encME op d.val sb.val vo.val sc.val x) 1 3 = sc.val ∧
      fld (encME op d.val sb.val vo.val sc.val x) 0 1 = bit x.isSome := by
    clear * - hop
    have := d.isLt; have := sb.isLt; have := vo.isLt; have := sc.isLt; have := bit_lt x.isSome
    simp only [fld, encME]
    refine ⟨?_, ?_, ?_, ?_, ?_, ?_, ?_⟩ <;> omega
  revert h0 hh
  generalize encME op d.val sb.val vo.val sc.val x = W
  rintro hh ⟨e32, e24_8, e17_7, e11_6, e4_7, e1_3, e0_1⟩
  refine decode_encode_of hw (hh ▸ e32) (fun lit h => ?_) rest
  rw [hh]
  rw [hl] at h
  have hx := literal_code e0_1 h
  rw [hd W lit e24_8]
  rw [e17_7, e11_6, e4_7, e1_3, hx, ok_bind, fin_val d, fin_val sb, fin_val vo, fin_val sc]
  exact accept_wf hwf

/-- The words of one form round-trip: `ldLane` and its like (R32, R45). -/
theorem rt_local {op : Nat} (hop : op < 256) {f : VReg → VReg → Fin 8 → Option Word → Instr}
    (hd : ∀ w lit, fld w 24 8 = op → decodeWord w lit =
      (do let x ← literalOf w lit; accept (fld w 11 6 == 0) (f (fin 128 (fld w 17 7)) (fin 128 (fld w 4 7)) (fin 8 (fld w 1 3)) x)))
    (d : VReg) (vo : VReg) (wd : Fin 8) (x : Option Word) (hw : (f d vo wd x).isWord = true)
    (hh : (f d vo wd x).head = encME op d.val 0 vo.val wd.val x) (hl : (f d vo wd x).literal? = x)
    (hwf : (f d vo wd x).wf = true) (rest : List Word) : decode (encode (f d vo wd x) ++ rest) = .ok (f d vo wd x, rest) := by
  have h0 : encME op d.val 0 vo.val wd.val x < 2 ^ 32 ∧
      fld (encME op d.val 0 vo.val wd.val x) 24 8 = op ∧
      fld (encME op d.val 0 vo.val wd.val x) 11 6 = 0 ∧
      fld (encME op d.val 0 vo.val wd.val x) 17 7 = d.val ∧
      fld (encME op d.val 0 vo.val wd.val x) 4 7 = vo.val ∧
      fld (encME op d.val 0 vo.val wd.val x) 1 3 = wd.val ∧
      fld (encME op d.val 0 vo.val wd.val x) 0 1 = bit x.isSome := by
    clear * - hop
    have := d.isLt; have := vo.isLt; have := wd.isLt; have := bit_lt x.isSome
    simp only [fld, encME]
    refine ⟨?_, ?_, ?_, ?_, ?_, ?_, ?_⟩ <;> omega
  revert h0 hh
  generalize encME op d.val 0 vo.val wd.val x = W
  rintro hh ⟨e32, e24_8, e11_6, e17_7, e4_7, e1_3, e0_1⟩
  refine decode_encode_of hw (hh ▸ e32) (fun lit h => ?_) rest
  rw [hh]
  rw [hl] at h
  have hx := literal_code e0_1 h
  rw [hd W lit e24_8]
  rw [e11_6, e17_7, e4_7, e1_3, hx, ok_bind, fin_val d, fin_val vo, fin_val wd]
  exact accept_wf hwf

/-- The words of one form round-trip: `sldB32` and its like (R32, R45). -/
theorem rt_sldst {op : Nat} (hop : op < 256) {f : SReg → SReg → Fin 8 → Option Word → Instr}
    (hd : ∀ w lit, fld w 24 8 = op → decodeWord w lit =
      (do let x ← literalOf w lit; accept (fld w 23 1 == 0 && fld w 4 7 == 0) (f (fin 64 (fld w 17 6)) (fin 64 (fld w 11 6)) (fin 8 (fld w 1 3)) x)))
    (d : SReg) (sb : SReg) (sc : Fin 8) (x : Option Word) (hw : (f d sb sc x).isWord = true)
    (hh : (f d sb sc x).head = encME op d.val sb.val 0 sc.val x) (hl : (f d sb sc x).literal? = x)
    (hwf : (f d sb sc x).wf = true) (rest : List Word) : decode (encode (f d sb sc x) ++ rest) = .ok (f d sb sc x, rest) := by
  have h0 : encME op d.val sb.val 0 sc.val x < 2 ^ 32 ∧
      fld (encME op d.val sb.val 0 sc.val x) 24 8 = op ∧
      fld (encME op d.val sb.val 0 sc.val x) 23 1 = 0 ∧
      fld (encME op d.val sb.val 0 sc.val x) 4 7 = 0 ∧
      fld (encME op d.val sb.val 0 sc.val x) 17 6 = d.val ∧
      fld (encME op d.val sb.val 0 sc.val x) 11 6 = sb.val ∧
      fld (encME op d.val sb.val 0 sc.val x) 1 3 = sc.val ∧
      fld (encME op d.val sb.val 0 sc.val x) 0 1 = bit x.isSome := by
    clear * - hop
    have := d.isLt; have := sb.isLt; have := sc.isLt; have := bit_lt x.isSome
    simp only [fld, encME]
    refine ⟨?_, ?_, ?_, ?_, ?_, ?_, ?_, ?_⟩ <;> omega
  revert h0 hh
  generalize encME op d.val sb.val 0 sc.val x = W
  rintro hh ⟨e32, e24_8, e23_1, e4_7, e17_6, e11_6, e1_3, e0_1⟩
  refine decode_encode_of hw (hh ▸ e32) (fun lit h => ?_) rest
  rw [hh]
  rw [hl] at h
  have hx := literal_code e0_1 h
  rw [hd W lit e24_8]
  rw [e23_1, e4_7, e17_6, e11_6, e1_3, hx, ok_bind, fin_val d, fin_val sb, fin_val sc]
  exact accept_wf hwf

/-- The words of one form round-trip: `pf` (R32, R45). -/
theorem rt_pf {op : Nat} (hop : op < 256) {f : SReg → VReg → Fin 8 → Option Word → Instr}
    (hd : ∀ w lit, fld w 24 8 = op → decodeWord w lit =
      (do let x ← literalOf w lit; accept (fld w 17 7 == 0) (f (fin 64 (fld w 11 6)) (fin 128 (fld w 4 7)) (fin 8 (fld w 1 3)) x)))
    (sb : SReg) (vo : VReg) (sc : Fin 8) (x : Option Word) (hw : (f sb vo sc x).isWord = true)
    (hh : (f sb vo sc x).head = encME op 0 sb.val vo.val sc.val x) (hl : (f sb vo sc x).literal? = x)
    (hwf : (f sb vo sc x).wf = true) (rest : List Word) : decode (encode (f sb vo sc x) ++ rest) = .ok (f sb vo sc x, rest) := by
  have h0 : encME op 0 sb.val vo.val sc.val x < 2 ^ 32 ∧
      fld (encME op 0 sb.val vo.val sc.val x) 24 8 = op ∧
      fld (encME op 0 sb.val vo.val sc.val x) 17 7 = 0 ∧
      fld (encME op 0 sb.val vo.val sc.val x) 11 6 = sb.val ∧
      fld (encME op 0 sb.val vo.val sc.val x) 4 7 = vo.val ∧
      fld (encME op 0 sb.val vo.val sc.val x) 1 3 = sc.val ∧
      fld (encME op 0 sb.val vo.val sc.val x) 0 1 = bit x.isSome := by
    clear * - hop
    have := sb.isLt; have := vo.isLt; have := sc.isLt; have := bit_lt x.isSome
    simp only [fld, encME]
    refine ⟨?_, ?_, ?_, ?_, ?_, ?_, ?_⟩ <;> omega
  revert h0 hh
  generalize encME op 0 sb.val vo.val sc.val x = W
  rintro hh ⟨e32, e24_8, e17_7, e11_6, e4_7, e1_3, e0_1⟩
  refine decode_encode_of hw (hh ▸ e32) (fun lit h => ?_) rest
  rw [hh]
  rw [hl] at h
  have hx := literal_code e0_1 h
  rw [hd W lit e24_8]
  rw [e17_7, e11_6, e4_7, e1_3, hx, ok_bind, fin_val sb, fin_val vo, fin_val sc]
  exact accept_wf hwf

/-- The words of one form round-trip: `cinv` (R32, R45). -/
theorem rt_cinv {op : Nat} (hop : op < 256) {f : SReg → VReg → Option Word → Instr}
    (hd : ∀ w lit, fld w 24 8 = op → decodeWord w lit =
      (do let x ← literalOf w lit; accept (fld w 17 7 == 0 && fld w 1 3 == 0) (f (fin 64 (fld w 11 6)) (fin 128 (fld w 4 7)) x)))
    (sb : SReg) (vo : VReg) (x : Option Word) (hw : (f sb vo x).isWord = true)
    (hh : (f sb vo x).head = encME op 0 sb.val vo.val 0 x) (hl : (f sb vo x).literal? = x)
    (hwf : (f sb vo x).wf = true) (rest : List Word) : decode (encode (f sb vo x) ++ rest) = .ok (f sb vo x, rest) := by
  have h0 : encME op 0 sb.val vo.val 0 x < 2 ^ 32 ∧
      fld (encME op 0 sb.val vo.val 0 x) 24 8 = op ∧
      fld (encME op 0 sb.val vo.val 0 x) 17 7 = 0 ∧
      fld (encME op 0 sb.val vo.val 0 x) 1 3 = 0 ∧
      fld (encME op 0 sb.val vo.val 0 x) 11 6 = sb.val ∧
      fld (encME op 0 sb.val vo.val 0 x) 4 7 = vo.val ∧
      fld (encME op 0 sb.val vo.val 0 x) 0 1 = bit x.isSome := by
    clear * - hop
    have := sb.isLt; have := vo.isLt; have := bit_lt x.isSome
    simp only [fld, encME]
    refine ⟨?_, ?_, ?_, ?_, ?_, ?_, ?_⟩ <;> omega
  revert h0 hh
  generalize encME op 0 sb.val vo.val 0 x = W
  rintro hh ⟨e32, e24_8, e17_7, e1_3, e11_6, e4_7, e0_1⟩
  refine decode_encode_of hw (hh ▸ e32) (fun lit h => ?_) rest
  rw [hh]
  rw [hl] at h
  have hx := literal_code e0_1 h
  rw [hd W lit e24_8]
  rw [e17_7, e1_3, e11_6, e4_7, hx, ok_bind, fin_val sb, fin_val vo]
  exact accept_wf hwf

/-- The words of one form round-trip: `xprobe` (R32, R45). -/
theorem rt_xprobe {op : Nat} (hop : op < 256) {f : SReg → SReg → Option Word → Instr}
    (hd : ∀ w lit, fld w 24 8 = op → decodeWord w lit =
      (do let x ← literalOf w lit; accept (fld w 23 1 == 0 && fld w 4 7 == 0 && fld w 1 3 == 0) (f (fin 64 (fld w 17 6)) (fin 64 (fld w 11 6)) x)))
    (d : SReg) (sb : SReg) (x : Option Word) (hw : (f d sb x).isWord = true)
    (hh : (f d sb x).head = encME op d.val sb.val 0 0 x) (hl : (f d sb x).literal? = x)
    (hwf : (f d sb x).wf = true) (rest : List Word) : decode (encode (f d sb x) ++ rest) = .ok (f d sb x, rest) := by
  have h0 : encME op d.val sb.val 0 0 x < 2 ^ 32 ∧
      fld (encME op d.val sb.val 0 0 x) 24 8 = op ∧
      fld (encME op d.val sb.val 0 0 x) 23 1 = 0 ∧
      fld (encME op d.val sb.val 0 0 x) 4 7 = 0 ∧
      fld (encME op d.val sb.val 0 0 x) 1 3 = 0 ∧
      fld (encME op d.val sb.val 0 0 x) 17 6 = d.val ∧
      fld (encME op d.val sb.val 0 0 x) 11 6 = sb.val ∧
      fld (encME op d.val sb.val 0 0 x) 0 1 = bit x.isSome := by
    clear * - hop
    have := d.isLt; have := sb.isLt; have := bit_lt x.isSome
    simp only [fld, encME]
    refine ⟨?_, ?_, ?_, ?_, ?_, ?_, ?_, ?_⟩ <;> omega
  revert h0 hh
  generalize encME op d.val sb.val 0 0 x = W
  rintro hh ⟨e32, e24_8, e23_1, e4_7, e1_3, e17_6, e11_6, e0_1⟩
  refine decode_encode_of hw (hh ▸ e32) (fun lit h => ?_) rest
  rw [hh]
  rw [hl] at h
  have hx := literal_code e0_1 h
  rw [hd W lit e24_8]
  rw [e23_1, e4_7, e1_3, e17_6, e11_6, hx, ok_bind, fin_val d, fin_val sb]
  exact accept_wf hwf

/-- The words of one form round-trip: `xinfo` and its like (R32, R45). -/
theorem rt_xsel {op : Nat} (hop : op < 256) {f : SReg → SReg → Fin 8 → Instr}
    (hd : ∀ w lit, fld w 24 8 = op → decodeWord w lit =
      (accept (fld w 23 1 == 0 && fld w 4 7 == 0 && fld w 0 1 == 0) (f (fin 64 (fld w 17 6)) (fin 64 (fld w 11 6)) (fin 8 (fld w 1 3)))))
    (d : SReg) (sb : SReg) (sel : Fin 8) (hw : (f d sb sel).isWord = true)
    (hh : (f d sb sel).head = encME op d.val sb.val 0 sel.val none) 
    (hwf : (f d sb sel).wf = true) (rest : List Word) : decode (encode (f d sb sel) ++ rest) = .ok (f d sb sel, rest) := by
  have h0 : encME op d.val sb.val 0 sel.val none < 2 ^ 32 ∧
      fld (encME op d.val sb.val 0 sel.val none) 24 8 = op ∧
      fld (encME op d.val sb.val 0 sel.val none) 23 1 = 0 ∧
      fld (encME op d.val sb.val 0 sel.val none) 4 7 = 0 ∧
      fld (encME op d.val sb.val 0 sel.val none) 0 1 = 0 ∧
      fld (encME op d.val sb.val 0 sel.val none) 17 6 = d.val ∧
      fld (encME op d.val sb.val 0 sel.val none) 11 6 = sb.val ∧
      fld (encME op d.val sb.val 0 sel.val none) 1 3 = sel.val := by
    clear * - hop
    have := d.isLt; have := sb.isLt; have := sel.isLt
    simp only [fld, encME, bit, Option.isSome, Bool.false_eq_true, if_false]
    refine ⟨?_, ?_, ?_, ?_, ?_, ?_, ?_, ?_⟩ <;> omega
  revert h0 hh
  generalize encME op d.val sb.val 0 sel.val none = W
  rintro hh ⟨e32, e24_8, e23_1, e4_7, e0_1, e17_6, e11_6, e1_3⟩
  refine decode_encode_of hw (hh ▸ e32) (fun lit h => ?_) rest
  rw [hh]
  rw [hd W lit e24_8]
  rw [e23_1, e4_7, e0_1, e17_6, e11_6, e1_3, fin_val d, fin_val sb, fin_val sel]
  exact accept_wf hwf

/-- The words of one form round-trip: `hpin` and its like (R32, R45). -/
theorem rt_xres {op : Nat} (hop : op < 256) {f : SReg → SReg → Instr}
    (hd : ∀ w lit, fld w 24 8 = op → decodeWord w lit =
      (accept (fld w 23 1 == 0 && fld w 4 7 == 0 && fld w 0 4 == 0) (f (fin 64 (fld w 17 6)) (fin 64 (fld w 11 6)))))
    (d : SReg) (sb : SReg) (hw : (f d sb).isWord = true)
    (hh : (f d sb).head = encME op d.val sb.val 0 0 none) 
    (hwf : (f d sb).wf = true) (rest : List Word) : decode (encode (f d sb) ++ rest) = .ok (f d sb, rest) := by
  have h0 : encME op d.val sb.val 0 0 none < 2 ^ 32 ∧
      fld (encME op d.val sb.val 0 0 none) 24 8 = op ∧
      fld (encME op d.val sb.val 0 0 none) 23 1 = 0 ∧
      fld (encME op d.val sb.val 0 0 none) 4 7 = 0 ∧
      fld (encME op d.val sb.val 0 0 none) 0 4 = 0 ∧
      fld (encME op d.val sb.val 0 0 none) 17 6 = d.val ∧
      fld (encME op d.val sb.val 0 0 none) 11 6 = sb.val := by
    clear * - hop
    have := d.isLt; have := sb.isLt
    simp only [fld, encME, bit, Option.isSome, Bool.false_eq_true, if_false]
    refine ⟨?_, ?_, ?_, ?_, ?_, ?_, ?_⟩ <;> omega
  revert h0 hh
  generalize encME op d.val sb.val 0 0 none = W
  rintro hh ⟨e32, e24_8, e23_1, e4_7, e0_4, e17_6, e11_6⟩
  refine decode_encode_of hw (hh ▸ e32) (fun lit h => ?_) rest
  rw [hh]
  rw [hd W lit e24_8]
  rw [e23_1, e4_7, e0_4, e17_6, e11_6, fin_val d, fin_val sb]
  exact accept_wf hwf

/-- The words of one form round-trip: `atomAddI32` and its like (R32, R45). -/
theorem rt_atom {op : Nat} (hop : op < 256) {f : VReg → SReg → VReg → Fin 8 → Option Word → Instr}
    (hd : ∀ w lit, fld w 24 8 = op → decodeWord w lit =
      (do let x ← literalOf w lit; accept true (f (fin 128 (fld w 17 7)) (fin 64 (fld w 11 6)) (fin 128 (fld w 4 7)) (fin 8 (fld w 1 3)) x)))
    (d : VReg) (sb : SReg) (vo : VReg) (sc : Fin 8) (x : Option Word) (hw : (f d sb vo sc x).isWord = true)
    (hh : (f d sb vo sc x).head = encME op d.val sb.val vo.val sc.val x) (hl : (f d sb vo sc x).literal? = x)
    (hwf : (f d sb vo sc x).wf = true) (rest : List Word) : decode (encode (f d sb vo sc x) ++ rest) = .ok (f d sb vo sc x, rest) := by
  have h0 : encME op d.val sb.val vo.val sc.val x < 2 ^ 32 ∧
      fld (encME op d.val sb.val vo.val sc.val x) 24 8 = op ∧
      fld (encME op d.val sb.val vo.val sc.val x) 17 7 = d.val ∧
      fld (encME op d.val sb.val vo.val sc.val x) 11 6 = sb.val ∧
      fld (encME op d.val sb.val vo.val sc.val x) 4 7 = vo.val ∧
      fld (encME op d.val sb.val vo.val sc.val x) 1 3 = sc.val ∧
      fld (encME op d.val sb.val vo.val sc.val x) 0 1 = bit x.isSome := by
    clear * - hop
    have := d.isLt; have := sb.isLt; have := vo.isLt; have := sc.isLt; have := bit_lt x.isSome
    simp only [fld, encME]
    refine ⟨?_, ?_, ?_, ?_, ?_, ?_, ?_⟩ <;> omega
  revert h0 hh
  generalize encME op d.val sb.val vo.val sc.val x = W
  rintro hh ⟨e32, e24_8, e17_7, e11_6, e4_7, e1_3, e0_1⟩
  refine decode_encode_of hw (hh ▸ e32) (fun lit h => ?_) rest
  rw [hh]
  rw [hl] at h
  have hx := literal_code e0_1 h
  rw [hd W lit e24_8]
  rw [e17_7, e11_6, e4_7, e1_3, hx, ok_bind, fin_val d, fin_val sb, fin_val vo, fin_val sc]
  exact accept_wf hwf

/-- The words of one form round-trip: `bredAddF32` (R32, R45). -/
theorem rt_bred {op : Nat} (hop : op < 256) {f : VReg → SReg → VReg → Fin 8 → Option Word → Instr}
    (hd : ∀ w lit, fld w 24 8 = op → decodeWord w lit =
      (do let x ← literalOf w lit; accept true (f (fin 128 (fld w 17 7)) (fin 64 (fld w 11 6)) (fin 128 (fld w 4 7)) (fin 8 (fld w 1 3)) x)))
    (d : VReg) (sb : SReg) (vo : VReg) (sc : Fin 8) (x : Option Word) (hw : (f d sb vo sc x).isWord = true)
    (hh : (f d sb vo sc x).head = encME op d.val sb.val vo.val sc.val x) (hl : (f d sb vo sc x).literal? = x)
    (hwf : (f d sb vo sc x).wf = true) (rest : List Word) : decode (encode (f d sb vo sc x) ++ rest) = .ok (f d sb vo sc x, rest) := by
  have h0 : encME op d.val sb.val vo.val sc.val x < 2 ^ 32 ∧
      fld (encME op d.val sb.val vo.val sc.val x) 24 8 = op ∧
      fld (encME op d.val sb.val vo.val sc.val x) 17 7 = d.val ∧
      fld (encME op d.val sb.val vo.val sc.val x) 11 6 = sb.val ∧
      fld (encME op d.val sb.val vo.val sc.val x) 4 7 = vo.val ∧
      fld (encME op d.val sb.val vo.val sc.val x) 1 3 = sc.val ∧
      fld (encME op d.val sb.val vo.val sc.val x) 0 1 = bit x.isSome := by
    clear * - hop
    have := d.isLt; have := sb.isLt; have := vo.isLt; have := sc.isLt; have := bit_lt x.isSome
    simp only [fld, encME]
    refine ⟨?_, ?_, ?_, ?_, ?_, ?_, ?_⟩ <;> omega
  revert h0 hh
  generalize encME op d.val sb.val vo.val sc.val x = W
  rintro hh ⟨e32, e24_8, e17_7, e11_6, e4_7, e1_3, e0_1⟩
  refine decode_encode_of hw (hh ▸ e32) (fun lit h => ?_) rest
  rw [hh]
  rw [hl] at h
  have hx := literal_code e0_1 h
  rw [hd W lit e24_8]
  rw [e17_7, e11_6, e4_7, e1_3, hx, ok_bind, fin_val d, fin_val sb, fin_val vo, fin_val sc]
  exact accept_wf hwf

/-- The words of one form round-trip: `ldBnd` (R32, R45). -/
theorem rt_ldbnd {op : Nat} (hop : op < 256) {f : VReg → SReg → VReg → Fin 8 → Option Word → Instr}
    (hd : ∀ w lit, fld w 24 8 = op → decodeWord w lit =
      (do let x ← literalOf w lit; accept true (f (fin 128 (fld w 17 7)) (fin 64 (fld w 11 6)) (fin 128 (fld w 4 7)) (fin 8 (fld w 1 3)) x)))
    (d : VReg) (sb : SReg) (vo : VReg) (sc : Fin 8) (x : Option Word) (hw : (f d sb vo sc x).isWord = true)
    (hh : (f d sb vo sc x).head = encME op d.val sb.val vo.val sc.val x) (hl : (f d sb vo sc x).literal? = x)
    (hwf : (f d sb vo sc x).wf = true) (rest : List Word) : decode (encode (f d sb vo sc x) ++ rest) = .ok (f d sb vo sc x, rest) := by
  have h0 : encME op d.val sb.val vo.val sc.val x < 2 ^ 32 ∧
      fld (encME op d.val sb.val vo.val sc.val x) 24 8 = op ∧
      fld (encME op d.val sb.val vo.val sc.val x) 17 7 = d.val ∧
      fld (encME op d.val sb.val vo.val sc.val x) 11 6 = sb.val ∧
      fld (encME op d.val sb.val vo.val sc.val x) 4 7 = vo.val ∧
      fld (encME op d.val sb.val vo.val sc.val x) 1 3 = sc.val ∧
      fld (encME op d.val sb.val vo.val sc.val x) 0 1 = bit x.isSome := by
    clear * - hop
    have := d.isLt; have := sb.isLt; have := vo.isLt; have := sc.isLt; have := bit_lt x.isSome
    simp only [fld, encME]
    refine ⟨?_, ?_, ?_, ?_, ?_, ?_, ?_⟩ <;> omega
  revert h0 hh
  generalize encME op d.val sb.val vo.val sc.val x = W
  rintro hh ⟨e32, e24_8, e17_7, e11_6, e4_7, e1_3, e0_1⟩
  refine decode_encode_of hw (hh ▸ e32) (fun lit h => ?_) rest
  rw [hh]
  rw [hl] at h
  have hx := literal_code e0_1 h
  rw [hd W lit e24_8]
  rw [e17_7, e11_6, e4_7, e1_3, hx, ok_bind, fin_val d, fin_val sb, fin_val vo, fin_val sc]
  exact accept_wf hwf

/-- The words of one form round-trip: `barInit` (R32, R45). -/
theorem rt_barInit {op : Nat} (hop : op < 256) {f : SReg → SReg → SReg → Fin 8 → Instr}
    (hd : ∀ w lit, fld w 24 8 = op → decodeWord w lit =
      (accept (fld w 0 3 == 0) (f (fin 64 (fld w 18 6)) (fin 64 (fld w 12 6)) (fin 64 (fld w 6 6)) (fin 8 (fld w 3 3)))))
    (sb sv d : SReg) (sc : Fin 8) (hw : (f sb sv d sc).isWord = true)
    (hh : (f sb sv d sc).head = encEN op sb.val sv.val (d.val * 64 + sc.val * 8)) 
    (hwf : (f sb sv d sc).wf = true) (rest : List Word) : decode (encode (f sb sv d sc) ++ rest) = .ok (f sb sv d sc, rest) := by
  have h0 : encEN op sb.val sv.val (d.val * 64 + sc.val * 8) < 2 ^ 32 ∧
      fld (encEN op sb.val sv.val (d.val * 64 + sc.val * 8)) 24 8 = op ∧
      fld (encEN op sb.val sv.val (d.val * 64 + sc.val * 8)) 0 3 = 0 ∧
      fld (encEN op sb.val sv.val (d.val * 64 + sc.val * 8)) 18 6 = sb.val ∧
      fld (encEN op sb.val sv.val (d.val * 64 + sc.val * 8)) 12 6 = sv.val ∧
      fld (encEN op sb.val sv.val (d.val * 64 + sc.val * 8)) 6 6 = d.val ∧
      fld (encEN op sb.val sv.val (d.val * 64 + sc.val * 8)) 3 3 = sc.val := by
    clear * - hop
    have := sb.isLt; have := sv.isLt; have := d.isLt; have := sc.isLt
    simp only [fld, encEN]
    refine ⟨?_, ?_, ?_, ?_, ?_, ?_, ?_⟩ <;> omega
  revert h0 hh
  generalize encEN op sb.val sv.val (d.val * 64 + sc.val * 8) = W
  rintro hh ⟨e32, e24_8, e0_3, e18_6, e12_6, e6_6, e3_3⟩
  refine decode_encode_of hw (hh ▸ e32) (fun lit h => ?_) rest
  rw [hh]
  rw [hd W lit e24_8]
  rw [e0_3, e18_6, e12_6, e6_6, e3_3, fin_val sb, fin_val sv, fin_val d, fin_val sc]
  exact accept_wf hwf

/-- The words of one form round-trip: `barArrive` and its like (R32, R45). -/
theorem rt_bar {op : Nat} (hop : op < 256) {f : SReg → SReg → SReg → Instr}
    (hd : ∀ w lit, fld w 24 8 = op → decodeWord w lit =
      (accept (fld w 0 6 == 0) (f (fin 64 (fld w 18 6)) (fin 64 (fld w 12 6)) (fin 64 (fld w 6 6)))))
    (sb sv d : SReg) (hw : (f sb sv d).isWord = true)
    (hh : (f sb sv d).head = encEN op sb.val sv.val (d.val * 64)) 
    (hwf : (f sb sv d).wf = true) (rest : List Word) : decode (encode (f sb sv d) ++ rest) = .ok (f sb sv d, rest) := by
  have h0 : encEN op sb.val sv.val (d.val * 64) < 2 ^ 32 ∧
      fld (encEN op sb.val sv.val (d.val * 64)) 24 8 = op ∧
      fld (encEN op sb.val sv.val (d.val * 64)) 0 6 = 0 ∧
      fld (encEN op sb.val sv.val (d.val * 64)) 18 6 = sb.val ∧
      fld (encEN op sb.val sv.val (d.val * 64)) 12 6 = sv.val ∧
      fld (encEN op sb.val sv.val (d.val * 64)) 6 6 = d.val := by
    clear * - hop
    have := sb.isLt; have := sv.isLt; have := d.isLt
    simp only [fld, encEN]
    refine ⟨?_, ?_, ?_, ?_, ?_, ?_⟩ <;> omega
  revert h0 hh
  generalize encEN op sb.val sv.val (d.val * 64) = W
  rintro hh ⟨e32, e24_8, e0_6, e18_6, e12_6, e6_6⟩
  refine decode_encode_of hw (hh ▸ e32) (fun lit h => ?_) rest
  rw [hh]
  rw [hd W lit e24_8]
  rw [e0_6, e18_6, e12_6, e6_6, fin_val sb, fin_val sv, fin_val d]
  exact accept_wf hwf

/-- The words of one form round-trip: `barDrop` (R32, R45). -/
theorem rt_barDrop {op : Nat} (hop : op < 256) {f : SReg → SReg → Instr}
    (hd : ∀ w lit, fld w 24 8 = op → decodeWord w lit =
      (accept (fld w 12 6 == 0 && fld w 0 6 == 0) (f (fin 64 (fld w 18 6)) (fin 64 (fld w 6 6)))))
    (sb d : SReg) (hw : (f sb d).isWord = true)
    (hh : (f sb d).head = encEN op sb.val 0 (d.val * 64)) 
    (hwf : (f sb d).wf = true) (rest : List Word) : decode (encode (f sb d) ++ rest) = .ok (f sb d, rest) := by
  have h0 : encEN op sb.val 0 (d.val * 64) < 2 ^ 32 ∧
      fld (encEN op sb.val 0 (d.val * 64)) 24 8 = op ∧
      fld (encEN op sb.val 0 (d.val * 64)) 12 6 = 0 ∧
      fld (encEN op sb.val 0 (d.val * 64)) 0 6 = 0 ∧
      fld (encEN op sb.val 0 (d.val * 64)) 18 6 = sb.val ∧
      fld (encEN op sb.val 0 (d.val * 64)) 6 6 = d.val := by
    clear * - hop
    have := sb.isLt; have := d.isLt
    simp only [fld, encEN]
    refine ⟨?_, ?_, ?_, ?_, ?_, ?_⟩ <;> omega
  revert h0 hh
  generalize encEN op sb.val 0 (d.val * 64) = W
  rintro hh ⟨e32, e24_8, e12_6, e0_6, e18_6, e6_6⟩
  refine decode_encode_of hw (hh ▸ e32) (fun lit h => ?_) rest
  rw [hh]
  rw [hd W lit e24_8]
  rw [e12_6, e0_6, e18_6, e6_6, fin_val sb, fin_val d]
  exact accept_wf hwf

/-- The words of one form round-trip: `wait` (R32, R45). -/
theorem rt_wait {op : Nat} (hop : op < 256) {f : Fin 32 → Fin 32 → Fin 8 → Fin 8 → Fin 8 → Fin 8 → Instr}
    (hd : ∀ w lit, fld w 24 8 = op → decodeWord w lit =
      (accept (fld w 0 2 == 0) (f (fin 32 (fld w 19 5)) (fin 32 (fld w 14 5)) (fin 8 (fld w 11 3)) (fin 8 (fld w 8 3)) (fin 8 (fld w 5 3)) (fin 8 (fld w 2 3)))))
    (ld st : Fin 32) (cp tl rm sc : Fin 8) (hw : (f ld st cp tl rm sc).isWord = true)
    (hh : (f ld st cp tl rm sc).head = encWT op ld.val st.val cp.val tl.val rm.val sc.val) 
    (hwf : (f ld st cp tl rm sc).wf = true) (rest : List Word) : decode (encode (f ld st cp tl rm sc) ++ rest) = .ok (f ld st cp tl rm sc, rest) := by
  have h0 : encWT op ld.val st.val cp.val tl.val rm.val sc.val < 2 ^ 32 ∧
      fld (encWT op ld.val st.val cp.val tl.val rm.val sc.val) 24 8 = op ∧
      fld (encWT op ld.val st.val cp.val tl.val rm.val sc.val) 0 2 = 0 ∧
      fld (encWT op ld.val st.val cp.val tl.val rm.val sc.val) 19 5 = ld.val ∧
      fld (encWT op ld.val st.val cp.val tl.val rm.val sc.val) 14 5 = st.val ∧
      fld (encWT op ld.val st.val cp.val tl.val rm.val sc.val) 11 3 = cp.val ∧
      fld (encWT op ld.val st.val cp.val tl.val rm.val sc.val) 8 3 = tl.val ∧
      fld (encWT op ld.val st.val cp.val tl.val rm.val sc.val) 5 3 = rm.val ∧
      fld (encWT op ld.val st.val cp.val tl.val rm.val sc.val) 2 3 = sc.val := by
    clear * - hop
    have := ld.isLt; have := st.isLt; have := cp.isLt; have := tl.isLt; have := rm.isLt; have := sc.isLt
    simp only [fld, encWT]
    refine ⟨?_, ?_, ?_, ?_, ?_, ?_, ?_, ?_, ?_⟩ <;> omega
  revert h0 hh
  generalize encWT op ld.val st.val cp.val tl.val rm.val sc.val = W
  rintro hh ⟨e32, e24_8, e0_2, e19_5, e14_5, e11_3, e8_3, e5_3, e2_3⟩
  refine decode_encode_of hw (hh ▸ e32) (fun lit h => ?_) rest
  rw [hh]
  rw [hd W lit e24_8]
  rw [e0_2, e19_5, e14_5, e11_3, e8_3, e5_3, e2_3, fin_val ld, fin_val st, fin_val cp, fin_val tl, fin_val rm, fin_val sc]
  exact accept_wf hwf

/-- The words of one form round-trip: `bdrain` (R32, R45). -/
theorem rt_bdrain {op : Nat} (hop : op < 256) {f : Fin 8 → Instr}
    (hd : ∀ w lit, fld w 24 8 = op → decodeWord w lit =
      (accept (fld w 5 19 == 0 && fld w 0 2 == 0) (f (fin 8 (fld w 2 3)))))
    (sc : Fin 8) (hw : (f sc).isWord = true)
    (hh : (f sc).head = encWT op 0 0 0 0 0 sc.val) 
    (hwf : (f sc).wf = true) (rest : List Word) : decode (encode (f sc) ++ rest) = .ok (f sc, rest) := by
  have h0 : encWT op 0 0 0 0 0 sc.val < 2 ^ 32 ∧
      fld (encWT op 0 0 0 0 0 sc.val) 24 8 = op ∧
      fld (encWT op 0 0 0 0 0 sc.val) 5 19 = 0 ∧
      fld (encWT op 0 0 0 0 0 sc.val) 0 2 = 0 ∧
      fld (encWT op 0 0 0 0 0 sc.val) 2 3 = sc.val := by
    clear * - hop
    have := sc.isLt
    simp only [fld, encWT]
    refine ⟨?_, ?_, ?_, ?_, ?_⟩ <;> omega
  revert h0 hh
  generalize encWT op 0 0 0 0 0 sc.val = W
  rintro hh ⟨e32, e24_8, e5_19, e0_2, e2_3⟩
  refine decode_encode_of hw (hh ▸ e32) (fun lit h => ?_) rest
  rw [hh]
  rw [hd W lit e24_8]
  rw [e5_19, e0_2, e2_3, fin_val sc]
  exact accept_wf hwf

/-- The words of one form round-trip: `rldB32` and its like (R32, R45). -/
theorem rt_rld {op : Nat} (hop : op < 256) {f : VReg → SReg → VReg → Fin 8 → Option Word → Instr}
    (hd : ∀ w lit, fld w 24 8 = op → decodeWord w lit =
      (do let x ← literalOf w lit; accept true (f (fin 128 (fld w 17 7)) (fin 64 (fld w 11 6)) (fin 128 (fld w 4 7)) (fin 8 (fld w 1 3)) x)))
    (d : VReg) (sb : SReg) (vp : VReg) (sc : Fin 8) (x : Option Word) (hw : (f d sb vp sc x).isWord = true)
    (hh : (f d sb vp sc x).head = encME op d.val sb.val vp.val sc.val x) (hl : (f d sb vp sc x).literal? = x)
    (hwf : (f d sb vp sc x).wf = true) (rest : List Word) : decode (encode (f d sb vp sc x) ++ rest) = .ok (f d sb vp sc x, rest) := by
  have h0 : encME op d.val sb.val vp.val sc.val x < 2 ^ 32 ∧
      fld (encME op d.val sb.val vp.val sc.val x) 24 8 = op ∧
      fld (encME op d.val sb.val vp.val sc.val x) 17 7 = d.val ∧
      fld (encME op d.val sb.val vp.val sc.val x) 11 6 = sb.val ∧
      fld (encME op d.val sb.val vp.val sc.val x) 4 7 = vp.val ∧
      fld (encME op d.val sb.val vp.val sc.val x) 1 3 = sc.val ∧
      fld (encME op d.val sb.val vp.val sc.val x) 0 1 = bit x.isSome := by
    clear * - hop
    have := d.isLt; have := sb.isLt; have := vp.isLt; have := sc.isLt; have := bit_lt x.isSome
    simp only [fld, encME]
    refine ⟨?_, ?_, ?_, ?_, ?_, ?_, ?_⟩ <;> omega
  revert h0 hh
  generalize encME op d.val sb.val vp.val sc.val x = W
  rintro hh ⟨e32, e24_8, e17_7, e11_6, e4_7, e1_3, e0_1⟩
  refine decode_encode_of hw (hh ▸ e32) (fun lit h => ?_) rest
  rw [hh]
  rw [hl] at h
  have hx := literal_code e0_1 h
  rw [hd W lit e24_8]
  rw [e17_7, e11_6, e4_7, e1_3, hx, ok_bind, fin_val d, fin_val sb, fin_val vp, fin_val sc]
  exact accept_wf hwf

/-- The words of one form round-trip: `rstB32` and its like (R32, R45). -/
theorem rt_rst {op : Nat} (hop : op < 256) {f : VReg → SReg → VReg → Fin 8 → Option Word → Instr}
    (hd : ∀ w lit, fld w 24 8 = op → decodeWord w lit =
      (do let x ← literalOf w lit; accept true (f (fin 128 (fld w 17 7)) (fin 64 (fld w 11 6)) (fin 128 (fld w 4 7)) (fin 8 (fld w 1 3)) x)))
    (d : VReg) (sb : SReg) (vp : VReg) (sc : Fin 8) (x : Option Word) (hw : (f d sb vp sc x).isWord = true)
    (hh : (f d sb vp sc x).head = encME op d.val sb.val vp.val sc.val x) (hl : (f d sb vp sc x).literal? = x)
    (hwf : (f d sb vp sc x).wf = true) (rest : List Word) : decode (encode (f d sb vp sc x) ++ rest) = .ok (f d sb vp sc x, rest) := by
  have h0 : encME op d.val sb.val vp.val sc.val x < 2 ^ 32 ∧
      fld (encME op d.val sb.val vp.val sc.val x) 24 8 = op ∧
      fld (encME op d.val sb.val vp.val sc.val x) 17 7 = d.val ∧
      fld (encME op d.val sb.val vp.val sc.val x) 11 6 = sb.val ∧
      fld (encME op d.val sb.val vp.val sc.val x) 4 7 = vp.val ∧
      fld (encME op d.val sb.val vp.val sc.val x) 1 3 = sc.val ∧
      fld (encME op d.val sb.val vp.val sc.val x) 0 1 = bit x.isSome := by
    clear * - hop
    have := d.isLt; have := sb.isLt; have := vp.isLt; have := sc.isLt; have := bit_lt x.isSome
    simp only [fld, encME]
    refine ⟨?_, ?_, ?_, ?_, ?_, ?_, ?_⟩ <;> omega
  revert h0 hh
  generalize encME op d.val sb.val vp.val sc.val x = W
  rintro hh ⟨e32, e24_8, e17_7, e11_6, e4_7, e1_3, e0_1⟩
  refine decode_encode_of hw (hh ▸ e32) (fun lit h => ?_) rest
  rw [hh]
  rw [hl] at h
  have hx := literal_code e0_1 h
  rw [hd W lit e24_8]
  rw [e17_7, e11_6, e4_7, e1_3, hx, ok_bind, fin_val d, fin_val sb, fin_val vp, fin_val sc]
  exact accept_wf hwf

/-- The words of one form round-trip: `ratom` (R32, R45). -/
theorem rt_ratom {op : Nat} (hop : op < 256) {f : VReg → SReg → VReg → Fin 8 → Option Word → Instr}
    (hd : ∀ w lit, fld w 24 8 = op → decodeWord w lit =
      (do let x ← literalOf w lit; accept true (f (fin 128 (fld w 17 7)) (fin 64 (fld w 11 6)) (fin 128 (fld w 4 7)) (fin 8 (fld w 1 3)) x)))
    (d : VReg) (sb : SReg) (vp : VReg) (sc : Fin 8) (x : Option Word) (hw : (f d sb vp sc x).isWord = true)
    (hh : (f d sb vp sc x).head = encME op d.val sb.val vp.val sc.val x) (hl : (f d sb vp sc x).literal? = x)
    (hwf : (f d sb vp sc x).wf = true) (rest : List Word) : decode (encode (f d sb vp sc x) ++ rest) = .ok (f d sb vp sc x, rest) := by
  have h0 : encME op d.val sb.val vp.val sc.val x < 2 ^ 32 ∧
      fld (encME op d.val sb.val vp.val sc.val x) 24 8 = op ∧
      fld (encME op d.val sb.val vp.val sc.val x) 17 7 = d.val ∧
      fld (encME op d.val sb.val vp.val sc.val x) 11 6 = sb.val ∧
      fld (encME op d.val sb.val vp.val sc.val x) 4 7 = vp.val ∧
      fld (encME op d.val sb.val vp.val sc.val x) 1 3 = sc.val ∧
      fld (encME op d.val sb.val vp.val sc.val x) 0 1 = bit x.isSome := by
    clear * - hop
    have := d.isLt; have := sb.isLt; have := vp.isLt; have := sc.isLt; have := bit_lt x.isSome
    simp only [fld, encME]
    refine ⟨?_, ?_, ?_, ?_, ?_, ?_, ?_⟩ <;> omega
  revert h0 hh
  generalize encME op d.val sb.val vp.val sc.val x = W
  rintro hh ⟨e32, e24_8, e17_7, e11_6, e4_7, e1_3, e0_1⟩
  refine decode_encode_of hw (hh ▸ e32) (fun lit h => ?_) rest
  rw [hh]
  rw [hl] at h
  have hx := literal_code e0_1 h
  rw [hd W lit e24_8]
  rw [e17_7, e11_6, e4_7, e1_3, hx, ok_bind, fin_val d, fin_val sb, fin_val vp, fin_val sc]
  exact accept_wf hwf

/-- The words of one form round-trip: `rred` (R32, R45). -/
theorem rt_rred {op : Nat} (hop : op < 256) {f : VReg → SReg → VReg → Fin 8 → Option Word → Instr}
    (hd : ∀ w lit, fld w 24 8 = op → decodeWord w lit =
      (do let x ← literalOf w lit; accept true (f (fin 128 (fld w 17 7)) (fin 64 (fld w 11 6)) (fin 128 (fld w 4 7)) (fin 8 (fld w 1 3)) x)))
    (d : VReg) (sb : SReg) (vp : VReg) (sc : Fin 8) (x : Option Word) (hw : (f d sb vp sc x).isWord = true)
    (hh : (f d sb vp sc x).head = encME op d.val sb.val vp.val sc.val x) (hl : (f d sb vp sc x).literal? = x)
    (hwf : (f d sb vp sc x).wf = true) (rest : List Word) : decode (encode (f d sb vp sc x) ++ rest) = .ok (f d sb vp sc x, rest) := by
  have h0 : encME op d.val sb.val vp.val sc.val x < 2 ^ 32 ∧
      fld (encME op d.val sb.val vp.val sc.val x) 24 8 = op ∧
      fld (encME op d.val sb.val vp.val sc.val x) 17 7 = d.val ∧
      fld (encME op d.val sb.val vp.val sc.val x) 11 6 = sb.val ∧
      fld (encME op d.val sb.val vp.val sc.val x) 4 7 = vp.val ∧
      fld (encME op d.val sb.val vp.val sc.val x) 1 3 = sc.val ∧
      fld (encME op d.val sb.val vp.val sc.val x) 0 1 = bit x.isSome := by
    clear * - hop
    have := d.isLt; have := sb.isLt; have := vp.isLt; have := sc.isLt; have := bit_lt x.isSome
    simp only [fld, encME]
    refine ⟨?_, ?_, ?_, ?_, ?_, ?_, ?_⟩ <;> omega
  revert h0 hh
  generalize encME op d.val sb.val vp.val sc.val x = W
  rintro hh ⟨e32, e24_8, e17_7, e11_6, e4_7, e1_3, e0_1⟩
  refine decode_encode_of hw (hh ▸ e32) (fun lit h => ?_) rest
  rw [hh]
  rw [hl] at h
  have hx := literal_code e0_1 h
  rw [hd W lit e24_8]
  rw [e17_7, e11_6, e4_7, e1_3, hx, ok_bind, fin_val d, fin_val sb, fin_val vp, fin_val sc]
  exact accept_wf hwf

/-- The words of one form round-trip: `mmaE4m3` and its like (R32, R45). -/
theorem rt_mma {op : Nat} (hop : op < 256) {f : Fin 4 → SReg → SReg → SReg → Bool → Instr}
    (hd : ∀ w lit, fld w 24 8 = op → decodeWord w lit =
      (accept (fld w 0 3 == 0) (f (fin 4 (fld w 22 2)) (fin 64 (fld w 16 6)) (fin 64 (fld w 10 6)) (fin 64 (fld w 4 6)) (fld w 3 1 == 1))))
    (t : Fin 4) (sa sw sk : SReg) (pr : Bool) (hw : (f t sa sw sk pr).isWord = true)
    (hh : (f t sa sw sk pr).head = encMX op t.val sa.val sw.val sk.val (bit pr) 0) 
    (hwf : (f t sa sw sk pr).wf = true) (rest : List Word) : decode (encode (f t sa sw sk pr) ++ rest) = .ok (f t sa sw sk pr, rest) := by
  have h0 : encMX op t.val sa.val sw.val sk.val (bit pr) 0 < 2 ^ 32 ∧
      fld (encMX op t.val sa.val sw.val sk.val (bit pr) 0) 24 8 = op ∧
      fld (encMX op t.val sa.val sw.val sk.val (bit pr) 0) 0 3 = 0 ∧
      fld (encMX op t.val sa.val sw.val sk.val (bit pr) 0) 22 2 = t.val ∧
      fld (encMX op t.val sa.val sw.val sk.val (bit pr) 0) 16 6 = sa.val ∧
      fld (encMX op t.val sa.val sw.val sk.val (bit pr) 0) 10 6 = sw.val ∧
      fld (encMX op t.val sa.val sw.val sk.val (bit pr) 0) 4 6 = sk.val ∧
      fld (encMX op t.val sa.val sw.val sk.val (bit pr) 0) 3 1 = bit pr := by
    clear * - hop
    have := t.isLt; have := sa.isLt; have := sw.isLt; have := sk.isLt; have := bit_lt pr
    simp only [fld, encMX]
    refine ⟨?_, ?_, ?_, ?_, ?_, ?_, ?_, ?_⟩ <;> omega
  revert h0 hh
  generalize encMX op t.val sa.val sw.val sk.val (bit pr) 0 = W
  rintro hh ⟨e32, e24_8, e0_3, e22_2, e16_6, e10_6, e4_6, e3_1⟩
  refine decode_encode_of hw (hh ▸ e32) (fun lit h => ?_) rest
  rw [hh]
  rw [hd W lit e24_8]
  rw [e0_3, e22_2, e16_6, e10_6, e4_6, e3_1, bit_eq pr, fin_val t, fin_val sa, fin_val sw, fin_val sk]
  exact accept_wf hwf

/-- The words of one form round-trip: `wbldDense` and its like (R32, R45). -/
theorem rt_wbld {op : Nat} (hop : op < 256) {f : SReg → SReg → SReg → Instr}
    (hd : ∀ w lit, fld w 24 8 = op → decodeWord w lit =
      (accept (fld w 22 2 == 0 && fld w 0 4 == 0) (f (fin 64 (fld w 16 6)) (fin 64 (fld w 10 6)) (fin 64 (fld w 4 6)))))
    (sa sw sk : SReg) (hw : (f sa sw sk).isWord = true)
    (hh : (f sa sw sk).head = encMX op 0 sa.val sw.val sk.val 0 0) 
    (hwf : (f sa sw sk).wf = true) (rest : List Word) : decode (encode (f sa sw sk) ++ rest) = .ok (f sa sw sk, rest) := by
  have h0 : encMX op 0 sa.val sw.val sk.val 0 0 < 2 ^ 32 ∧
      fld (encMX op 0 sa.val sw.val sk.val 0 0) 24 8 = op ∧
      fld (encMX op 0 sa.val sw.val sk.val 0 0) 22 2 = 0 ∧
      fld (encMX op 0 sa.val sw.val sk.val 0 0) 0 4 = 0 ∧
      fld (encMX op 0 sa.val sw.val sk.val 0 0) 16 6 = sa.val ∧
      fld (encMX op 0 sa.val sw.val sk.val 0 0) 10 6 = sw.val ∧
      fld (encMX op 0 sa.val sw.val sk.val 0 0) 4 6 = sk.val := by
    clear * - hop
    have := sa.isLt; have := sw.isLt; have := sk.isLt
    simp only [fld, encMX]
    refine ⟨?_, ?_, ?_, ?_, ?_, ?_, ?_⟩ <;> omega
  revert h0 hh
  generalize encMX op 0 sa.val sw.val sk.val 0 0 = W
  rintro hh ⟨e32, e24_8, e22_2, e0_4, e16_6, e10_6, e4_6⟩
  refine decode_encode_of hw (hh ▸ e32) (fun lit h => ?_) rest
  rw [hh]
  rw [hd W lit e24_8]
  rw [e22_2, e0_4, e16_6, e10_6, e4_6, fin_val sa, fin_val sw, fin_val sk]
  exact accept_wf hwf

/-- The words of one form round-trip: `tzero` (R32, R45). -/
theorem rt_tzero {op : Nat} (hop : op < 256) {f : Fin 4 → Instr}
    (hd : ∀ w lit, fld w 24 8 = op → decodeWord w lit =
      (accept (fld w 0 22 == 0) (f (fin 4 (fld w 22 2)))))
    (t : Fin 4) (hw : (f t).isWord = true)
    (hh : (f t).head = encMX op t.val 0 0 0 0 0) 
    (hwf : (f t).wf = true) (rest : List Word) : decode (encode (f t) ++ rest) = .ok (f t, rest) := by
  have h0 : encMX op t.val 0 0 0 0 0 < 2 ^ 32 ∧
      fld (encMX op t.val 0 0 0 0 0) 24 8 = op ∧
      fld (encMX op t.val 0 0 0 0 0) 0 22 = 0 ∧
      fld (encMX op t.val 0 0 0 0 0) 22 2 = t.val := by
    clear * - hop
    have := t.isLt
    simp only [fld, encMX]
    refine ⟨?_, ?_, ?_, ?_⟩ <;> omega
  revert h0 hh
  generalize encMX op t.val 0 0 0 0 0 = W
  rintro hh ⟨e32, e24_8, e0_22, e22_2⟩
  refine decode_encode_of hw (hh ▸ e32) (fun lit h => ?_) rest
  rw [hh]
  rw [hd W lit e24_8]
  rw [e0_22, e22_2, fin_val t]
  exact accept_wf hwf

/-- The words of one form round-trip: `tmov` (R32, R45). -/
theorem rt_tmov {op : Nat} (hop : op < 256) {f : Fin 4 → SReg → Instr}
    (hd : ∀ w lit, fld w 24 8 = op → decodeWord w lit =
      (accept (fld w 0 16 == 0) (f (fin 4 (fld w 22 2)) (fin 64 (fld w 16 6)))))
    (t : Fin 4) (sa : SReg) (hw : (f t sa).isWord = true)
    (hh : (f t sa).head = encMX op t.val sa.val 0 0 0 0) 
    (hwf : (f t sa).wf = true) (rest : List Word) : decode (encode (f t sa) ++ rest) = .ok (f t sa, rest) := by
  have h0 : encMX op t.val sa.val 0 0 0 0 < 2 ^ 32 ∧
      fld (encMX op t.val sa.val 0 0 0 0) 24 8 = op ∧
      fld (encMX op t.val sa.val 0 0 0 0) 0 16 = 0 ∧
      fld (encMX op t.val sa.val 0 0 0 0) 22 2 = t.val ∧
      fld (encMX op t.val sa.val 0 0 0 0) 16 6 = sa.val := by
    clear * - hop
    have := t.isLt; have := sa.isLt
    simp only [fld, encMX]
    refine ⟨?_, ?_, ?_, ?_, ?_⟩ <;> omega
  revert h0 hh
  generalize encMX op t.val sa.val 0 0 0 0 = W
  rintro hh ⟨e32, e24_8, e0_16, e22_2, e16_6⟩
  refine decode_encode_of hw (hh ▸ e32) (fun lit h => ?_) rest
  rw [hh]
  rw [hd W lit e24_8]
  rw [e0_16, e22_2, e16_6, fin_val t, fin_val sa]
  exact accept_wf hwf

/-- The words of one form round-trip: `tst` and its like (R32, R45). -/
theorem rt_tst {op : Nat} (hop : op < 256) {f : Fin 4 → SReg → SReg → Instr}
    (hd : ∀ w lit, fld w 24 8 = op → decodeWord w lit =
      (accept (fld w 10 6 == 0 && fld w 0 4 == 0) (f (fin 4 (fld w 22 2)) (fin 64 (fld w 16 6)) (fin 64 (fld w 4 6)))))
    (t : Fin 4) (sa sk : SReg) (hw : (f t sa sk).isWord = true)
    (hh : (f t sa sk).head = encMX op t.val sa.val 0 sk.val 0 0) 
    (hwf : (f t sa sk).wf = true) (rest : List Word) : decode (encode (f t sa sk) ++ rest) = .ok (f t sa sk, rest) := by
  have h0 : encMX op t.val sa.val 0 sk.val 0 0 < 2 ^ 32 ∧
      fld (encMX op t.val sa.val 0 sk.val 0 0) 24 8 = op ∧
      fld (encMX op t.val sa.val 0 sk.val 0 0) 10 6 = 0 ∧
      fld (encMX op t.val sa.val 0 sk.val 0 0) 0 4 = 0 ∧
      fld (encMX op t.val sa.val 0 sk.val 0 0) 22 2 = t.val ∧
      fld (encMX op t.val sa.val 0 sk.val 0 0) 16 6 = sa.val ∧
      fld (encMX op t.val sa.val 0 sk.val 0 0) 4 6 = sk.val := by
    clear * - hop
    have := t.isLt; have := sa.isLt; have := sk.isLt
    simp only [fld, encMX]
    refine ⟨?_, ?_, ?_, ?_, ?_, ?_, ?_⟩ <;> omega
  revert h0 hh
  generalize encMX op t.val sa.val 0 sk.val 0 0 = W
  rintro hh ⟨e32, e24_8, e10_6, e0_4, e22_2, e16_6, e4_6⟩
  refine decode_encode_of hw (hh ▸ e32) (fun lit h => ?_) rest
  rw [hh]
  rw [hd W lit e24_8]
  rw [e10_6, e0_4, e22_2, e16_6, e4_6, fin_val t, fin_val sa, fin_val sk]
  exact accept_wf hwf

/-- The words of one form round-trip: `tadd` (R32, R45). -/
theorem rt_tadd {op : Nat} (hop : op < 256) {f : Fin 4 → Fin 4 → Instr}
    (hd : ∀ w lit, fld w 24 8 = op → decodeWord w lit =
      (accept (fld w 2 20 == 0) (f (fin 4 (fld w 22 2)) (fin 4 (fld w 0 2)))))
    (td ts : Fin 4) (hw : (f td ts).isWord = true)
    (hh : (f td ts).head = encMX op td.val 0 0 0 0 ts.val) 
    (hwf : (f td ts).wf = true) (rest : List Word) : decode (encode (f td ts) ++ rest) = .ok (f td ts, rest) := by
  have h0 : encMX op td.val 0 0 0 0 ts.val < 2 ^ 32 ∧
      fld (encMX op td.val 0 0 0 0 ts.val) 24 8 = op ∧
      fld (encMX op td.val 0 0 0 0 ts.val) 2 20 = 0 ∧
      fld (encMX op td.val 0 0 0 0 ts.val) 22 2 = td.val ∧
      fld (encMX op td.val 0 0 0 0 ts.val) 0 2 = ts.val := by
    clear * - hop
    have := td.isLt; have := ts.isLt
    simp only [fld, encMX]
    refine ⟨?_, ?_, ?_, ?_, ?_⟩ <;> omega
  revert h0 hh
  generalize encMX op td.val 0 0 0 0 ts.val = W
  rintro hh ⟨e32, e24_8, e2_20, e22_2, e0_2⟩
  refine decode_encode_of hw (hh ▸ e32) (fun lit h => ?_) rest
  rw [hh]
  rw [hd W lit e24_8]
  rw [e2_20, e22_2, e0_2, fin_val td, fin_val ts]
  exact accept_wf hwf

/-- The words of one form round-trip: `cpStart` and its like (R32, R45). -/
theorem rt_en {op : Nat} (hop : op < 256) {f : SReg → SReg → Instr}
    (hd : ∀ w lit, fld w 24 8 = op → decodeWord w lit =
      (accept (fld w 0 12 == 0) (f (fin 64 (fld w 18 6)) (fin 64 (fld w 12 6)))))
    (cb tk : SReg) (hw : (f cb tk).isWord = true)
    (hh : (f cb tk).head = encEN op cb.val tk.val 0) 
    (hwf : (f cb tk).wf = true) (rest : List Word) : decode (encode (f cb tk) ++ rest) = .ok (f cb tk, rest) := by
  have h0 : encEN op cb.val tk.val 0 < 2 ^ 32 ∧
      fld (encEN op cb.val tk.val 0) 24 8 = op ∧
      fld (encEN op cb.val tk.val 0) 0 12 = 0 ∧
      fld (encEN op cb.val tk.val 0) 18 6 = cb.val ∧
      fld (encEN op cb.val tk.val 0) 12 6 = tk.val := by
    clear * - hop
    have := cb.isLt; have := tk.isLt
    simp only [fld, encEN]
    refine ⟨?_, ?_, ?_, ?_, ?_⟩ <;> omega
  revert h0 hh
  generalize encEN op cb.val tk.val 0 = W
  rintro hh ⟨e32, e24_8, e0_12, e18_6, e12_6⟩
  refine decode_encode_of hw (hh ▸ e32) (fun lit h => ?_) rest
  rw [hh]
  rw [hd W lit e24_8]
  rw [e0_12, e18_6, e12_6, fin_val cb, fin_val tk]
  exact accept_wf hwf

/-- The words of one form round-trip: `xgCancel` (R32, R45). -/
theorem rt_xgcancel {op : Nat} (hop : op < 256) {f : SReg → SReg → SReg → Instr}
    (hd : ∀ w lit, fld w 24 8 = op → decodeWord w lit =
      (accept (fld w 0 6 == 0) (f (fin 64 (fld w 18 6)) (fin 64 (fld w 12 6)) (fin 64 (fld w 6 6)))))
    (cb tk d : SReg) (hw : (f cb tk d).isWord = true)
    (hh : (f cb tk d).head = encEN op cb.val tk.val (d.val * 64)) 
    (hwf : (f cb tk d).wf = true) (rest : List Word) : decode (encode (f cb tk d) ++ rest) = .ok (f cb tk d, rest) := by
  have h0 : encEN op cb.val tk.val (d.val * 64) < 2 ^ 32 ∧
      fld (encEN op cb.val tk.val (d.val * 64)) 24 8 = op ∧
      fld (encEN op cb.val tk.val (d.val * 64)) 0 6 = 0 ∧
      fld (encEN op cb.val tk.val (d.val * 64)) 18 6 = cb.val ∧
      fld (encEN op cb.val tk.val (d.val * 64)) 12 6 = tk.val ∧
      fld (encEN op cb.val tk.val (d.val * 64)) 6 6 = d.val := by
    clear * - hop
    have := cb.isLt; have := tk.isLt; have := d.isLt
    simp only [fld, encEN]
    refine ⟨?_, ?_, ?_, ?_, ?_, ?_⟩ <;> omega
  revert h0 hh
  generalize encEN op cb.val tk.val (d.val * 64) = W
  rintro hh ⟨e32, e24_8, e0_6, e18_6, e12_6, e6_6⟩
  refine decode_encode_of hw (hh ▸ e32) (fun lit h => ?_) rest
  rw [hh]
  rw [hd W lit e24_8]
  rw [e0_6, e18_6, e12_6, e6_6, fin_val cb, fin_val tk, fin_val d]
  exact accept_wf hwf

/-- The words of one form round-trip: `tokTest` and its like (R32, R45). -/
theorem rt_tok {op : Nat} (hop : op < 256) {f : SReg → SReg → Instr}
    (hd : ∀ w lit, fld w 24 8 = op → decodeWord w lit =
      (accept (fld w 18 6 == 0 && fld w 0 6 == 0) (f (fin 64 (fld w 12 6)) (fin 64 (fld w 6 6)))))
    (tk d : SReg) (hw : (f tk d).isWord = true)
    (hh : (f tk d).head = encEN op 0 tk.val (d.val * 64)) 
    (hwf : (f tk d).wf = true) (rest : List Word) : decode (encode (f tk d) ++ rest) = .ok (f tk d, rest) := by
  have h0 : encEN op 0 tk.val (d.val * 64) < 2 ^ 32 ∧
      fld (encEN op 0 tk.val (d.val * 64)) 24 8 = op ∧
      fld (encEN op 0 tk.val (d.val * 64)) 18 6 = 0 ∧
      fld (encEN op 0 tk.val (d.val * 64)) 0 6 = 0 ∧
      fld (encEN op 0 tk.val (d.val * 64)) 12 6 = tk.val ∧
      fld (encEN op 0 tk.val (d.val * 64)) 6 6 = d.val := by
    clear * - hop
    have := tk.isLt; have := d.isLt
    simp only [fld, encEN]
    refine ⟨?_, ?_, ?_, ?_, ?_, ?_⟩ <;> omega
  revert h0 hh
  generalize encEN op 0 tk.val (d.val * 64) = W
  rintro hh ⟨e32, e24_8, e18_6, e0_6, e12_6, e6_6⟩
  refine decode_encode_of hw (hh ▸ e32) (fun lit h => ?_) rest
  rw [hh]
  rw [hd W lit e24_8]
  rw [e18_6, e0_6, e12_6, e6_6, fin_val tk, fin_val d]
  exact accept_wf hwf

/-- The words of one form round-trip: `xgQuery` (R32, R45). -/
theorem rt_xgquery {op : Nat} (hop : op < 256) {f : SReg → SReg → Fin 4 → Instr}
    (hd : ∀ w lit, fld w 24 8 = op → decodeWord w lit =
      (if fld w 5 1 = 1 then .error .badValue else accept (fld w 18 6 == 0 && fld w 0 3 == 0) (f (fin 64 (fld w 12 6)) (fin 64 (fld w 6 6)) (fin 4 (fld w 3 2)))))
    (tk d : SReg) (sel : Fin 4) (hw : (f tk d sel).isWord = true)
    (hh : (f tk d sel).head = encEN op 0 tk.val (d.val * 64 + sel.val * 8)) 
    (hwf : (f tk d sel).wf = true) (rest : List Word) : decode (encode (f tk d sel) ++ rest) = .ok (f tk d sel, rest) := by
  have h0 : encEN op 0 tk.val (d.val * 64 + sel.val * 8) < 2 ^ 32 ∧
      fld (encEN op 0 tk.val (d.val * 64 + sel.val * 8)) 24 8 = op ∧
      fld (encEN op 0 tk.val (d.val * 64 + sel.val * 8)) 5 1 = 0 ∧
      fld (encEN op 0 tk.val (d.val * 64 + sel.val * 8)) 18 6 = 0 ∧
      fld (encEN op 0 tk.val (d.val * 64 + sel.val * 8)) 0 3 = 0 ∧
      fld (encEN op 0 tk.val (d.val * 64 + sel.val * 8)) 12 6 = tk.val ∧
      fld (encEN op 0 tk.val (d.val * 64 + sel.val * 8)) 6 6 = d.val ∧
      fld (encEN op 0 tk.val (d.val * 64 + sel.val * 8)) 3 2 = sel.val := by
    clear * - hop
    have := tk.isLt; have := d.isLt; have := sel.isLt
    simp only [fld, encEN]
    refine ⟨?_, ?_, ?_, ?_, ?_, ?_, ?_, ?_⟩ <;> omega
  revert h0 hh
  generalize encEN op 0 tk.val (d.val * 64 + sel.val * 8) = W
  rintro hh ⟨e32, e24_8, e5_1, e18_6, e0_3, e12_6, e6_6, e3_2⟩
  refine decode_encode_of hw (hh ▸ e32) (fun lit h => ?_) rest
  rw [hh]
  rw [hd W lit e24_8]
  rw [e5_1, e18_6, e0_3, e12_6, e6_6, e3_2, if_neg Nat.zero_ne_one, fin_val tk, fin_val d, fin_val sel]
  exact accept_wf hwf

/-- The words of one form round-trip: `trap` and its like (R32, R45). -/
theorem rt_trap {op : Nat} (hop : op < 256) {f : Fin 1024 → Instr}
    (hd : ∀ w lit, fld w 24 8 = op → decodeWord w lit =
      (accept (fld w 10 14 == 0) (f (fin 1024 (fld w 0 10)))))
    (imm : Fin 1024) (hw : (f imm).isWord = true)
    (hh : (f imm).head = encSY op 0 0 imm.val) 
    (hwf : (f imm).wf = true) (rest : List Word) : decode (encode (f imm) ++ rest) = .ok (f imm, rest) := by
  have h0 : encSY op 0 0 imm.val < 2 ^ 32 ∧
      fld (encSY op 0 0 imm.val) 24 8 = op ∧
      fld (encSY op 0 0 imm.val) 10 14 = 0 ∧
      fld (encSY op 0 0 imm.val) 0 10 = imm.val := by
    clear * - hop
    have := imm.isLt
    simp only [fld, encSY]
    refine ⟨?_, ?_, ?_, ?_⟩ <;> omega
  revert h0 hh
  generalize encSY op 0 0 imm.val = W
  rintro hh ⟨e32, e24_8, e10_14, e0_10⟩
  refine decode_encode_of hw (hh ▸ e32) (fun lit h => ?_) rest
  rw [hh]
  rw [hd W lit e24_8]
  rw [e10_14, e0_10, fin_val imm]
  exact accept_wf hwf

/-- The words of one form round-trip: `rdsr` and its like (R32, R45). -/
theorem rt_sr {op : Nat} (hop : op < 256) {f : SReg → Fin 256 → Instr}
    (hd : ∀ w lit, fld w 24 8 = op → decodeWord w lit =
      (accept (fld w 0 10 == 0) (f (fin 64 (fld w 18 6)) (fin 256 (fld w 10 8)))))
    (d : SReg) (sel : Fin 256) (hw : (f d sel).isWord = true)
    (hh : (f d sel).head = encSY op d.val sel.val 0) 
    (hwf : (f d sel).wf = true) (rest : List Word) : decode (encode (f d sel) ++ rest) = .ok (f d sel, rest) := by
  have h0 : encSY op d.val sel.val 0 < 2 ^ 32 ∧
      fld (encSY op d.val sel.val 0) 24 8 = op ∧
      fld (encSY op d.val sel.val 0) 0 10 = 0 ∧
      fld (encSY op d.val sel.val 0) 18 6 = d.val ∧
      fld (encSY op d.val sel.val 0) 10 8 = sel.val := by
    clear * - hop
    have := d.isLt; have := sel.isLt
    simp only [fld, encSY]
    refine ⟨?_, ?_, ?_, ?_, ?_⟩ <;> omega
  revert h0 hh
  generalize encSY op d.val sel.val 0 = W
  rintro hh ⟨e32, e24_8, e0_10, e18_6, e10_8⟩
  refine decode_encode_of hw (hh ▸ e32) (fun lit h => ?_) rest
  rw [hh]
  rw [hd W lit e24_8]
  rw [e0_10, e18_6, e10_8, fin_val d, fin_val sel]
  exact accept_wf hwf

/-- The words of one form round-trip: `fret` (R32, R45). -/
theorem rt_fret {op : Nat} (hop : op < 256) {f : Fin 2 → Instr}
    (hd : ∀ w lit, fld w 24 8 = op → decodeWord w lit =
      (if fld w 0 10 < 2 then accept (fld w 10 14 == 0) (f (fin 2 (fld w 0 10))) else .error .badValue))
    (mode : Fin 2) (hw : (f mode).isWord = true)
    (hh : (f mode).head = encSY op 0 0 mode.val) 
    (hwf : (f mode).wf = true) (rest : List Word) : decode (encode (f mode) ++ rest) = .ok (f mode, rest) := by
  have h0 : encSY op 0 0 mode.val < 2 ^ 32 ∧
      fld (encSY op 0 0 mode.val) 24 8 = op ∧
      fld (encSY op 0 0 mode.val) 0 10 = mode.val ∧
      fld (encSY op 0 0 mode.val) 10 14 = 0 := by
    clear * - hop
    have := mode.isLt
    simp only [fld, encSY]
    refine ⟨?_, ?_, ?_, ?_⟩ <;> omega
  revert h0 hh
  generalize encSY op 0 0 mode.val = W
  rintro hh ⟨e32, e24_8, e0_10, e10_14⟩
  refine decode_encode_of hw (hh ▸ e32) (fun lit h => ?_) rest
  rw [hh]
  have l0 : mode.val < 2 := mode.isLt
  rw [hd W lit e24_8]
  rw [e0_10, e10_14, if_pos l0, fin_val mode]
  exact accept_wf hwf

/-- The words of one form round-trip: `fkill` (R32, R45). -/
theorem rt_fkill {op : Nat} (hop : op < 256) {f : Fin 3 → Instr}
    (hd : ∀ w lit, fld w 24 8 = op → decodeWord w lit =
      (if fld w 0 10 < 3 then accept (fld w 10 14 == 0) (f (fin 3 (fld w 0 10))) else .error .badValue))
    (unit : Fin 3) (hw : (f unit).isWord = true)
    (hh : (f unit).head = encSY op 0 0 unit.val) 
    (hwf : (f unit).wf = true) (rest : List Word) : decode (encode (f unit) ++ rest) = .ok (f unit, rest) := by
  have h0 : encSY op 0 0 unit.val < 2 ^ 32 ∧
      fld (encSY op 0 0 unit.val) 24 8 = op ∧
      fld (encSY op 0 0 unit.val) 0 10 = unit.val ∧
      fld (encSY op 0 0 unit.val) 10 14 = 0 := by
    clear * - hop
    have := unit.isLt
    simp only [fld, encSY]
    refine ⟨?_, ?_, ?_, ?_⟩ <;> omega
  revert h0 hh
  generalize encSY op 0 0 unit.val = W
  rintro hh ⟨e32, e24_8, e0_10, e10_14⟩
  refine decode_encode_of hw (hh ▸ e32) (fun lit h => ?_) rest
  rw [hh]
  have l0 : unit.val < 3 := unit.isLt
  rw [hd W lit e24_8]
  rw [e0_10, e10_14, if_pos l0, fin_val unit]
  exact accept_wf hwf

/-- The words of one form round-trip: `frd` (R32, R45). -/
theorem rt_frd {op : Nat} (hop : op < 256) {f : SReg → Fin 8 → Fin 32 → Fin 1024 → Instr}
    (hd : ∀ w lit, fld w 24 8 = op → decodeWord w lit =
      (accept true (f (fin 64 (fld w 18 6)) (fin 8 (fld w 15 3)) (fin 32 (fld w 10 5)) (fin 1024 (fld w 0 10)))))
    (d : SReg) (item : Fin 8) (lane : Fin 32) (idx : Fin 1024) (hw : (f d item lane idx).isWord = true)
    (hh : (f d item lane idx).head = encSY op d.val (item.val * 32 + lane.val) idx.val) 
    (hwf : (f d item lane idx).wf = true) (rest : List Word) : decode (encode (f d item lane idx) ++ rest) = .ok (f d item lane idx, rest) := by
  have h0 : encSY op d.val (item.val * 32 + lane.val) idx.val < 2 ^ 32 ∧
      fld (encSY op d.val (item.val * 32 + lane.val) idx.val) 24 8 = op ∧
      fld (encSY op d.val (item.val * 32 + lane.val) idx.val) 18 6 = d.val ∧
      fld (encSY op d.val (item.val * 32 + lane.val) idx.val) 15 3 = item.val ∧
      fld (encSY op d.val (item.val * 32 + lane.val) idx.val) 10 5 = lane.val ∧
      fld (encSY op d.val (item.val * 32 + lane.val) idx.val) 0 10 = idx.val := by
    clear * - hop
    have := d.isLt; have := item.isLt; have := lane.isLt; have := idx.isLt
    simp only [fld, encSY]
    refine ⟨?_, ?_, ?_, ?_, ?_, ?_⟩ <;> omega
  revert h0 hh
  generalize encSY op d.val (item.val * 32 + lane.val) idx.val = W
  rintro hh ⟨e32, e24_8, e18_6, e15_3, e10_5, e0_10⟩
  refine decode_encode_of hw (hh ▸ e32) (fun lit h => ?_) rest
  rw [hh]
  rw [hd W lit e24_8]
  rw [e18_6, e15_3, e10_5, e0_10, fin_val d, fin_val item, fin_val lane, fin_val idx]
  exact accept_wf hwf

/-- The words of one form round-trip: `pclr` (R32, R45). -/
theorem rt_pclr {op : Nat} (hop : op < 256) {f : SReg → Fin 128 → Instr}
    (hd : ∀ w lit, fld w 24 8 = op → decodeWord w lit =
      (accept (fld w 7 11 == 0) (f (fin 64 (fld w 18 6)) (fin 128 (fld w 0 7)))))
    (d : SReg) (r : Fin 128) (hw : (f d r).isWord = true)
    (hh : (f d r).head = encSY op d.val 0 r.val) 
    (hwf : (f d r).wf = true) (rest : List Word) : decode (encode (f d r) ++ rest) = .ok (f d r, rest) := by
  have h0 : encSY op d.val 0 r.val < 2 ^ 32 ∧
      fld (encSY op d.val 0 r.val) 24 8 = op ∧
      fld (encSY op d.val 0 r.val) 7 11 = 0 ∧
      fld (encSY op d.val 0 r.val) 18 6 = d.val ∧
      fld (encSY op d.val 0 r.val) 0 7 = r.val := by
    clear * - hop
    have := d.isLt; have := r.isLt
    simp only [fld, encSY]
    refine ⟨?_, ?_, ?_, ?_, ?_⟩ <;> omega
  revert h0 hh
  generalize encSY op d.val 0 r.val = W
  rintro hh ⟨e32, e24_8, e7_11, e18_6, e0_7⟩
  refine decode_encode_of hw (hh ▸ e32) (fun lit h => ?_) rest
  rw [hh]
  rw [hd W lit e24_8]
  rw [e7_11, e18_6, e0_7, fin_val d, fin_val r]
  exact accept_wf hwf

/-- The words of one form round-trip: `wfetch` and its like (R32, R45). -/
theorem rt_wsg {op : Nat} (hop : op < 256) {f : SReg → SReg → Instr}
    (hd : ∀ w lit, fld w 24 8 = op → decodeWord w lit =
      (accept (fld w 16 2 == 0 && fld w 0 10 == 0) (f (fin 64 (fld w 18 6)) (fin 64 (fld w 10 6)))))
    (sg st : SReg) (hw : (f sg st).isWord = true)
    (hh : (f sg st).head = encSY op sg.val st.val 0) 
    (hwf : (f sg st).wf = true) (rest : List Word) : decode (encode (f sg st) ++ rest) = .ok (f sg st, rest) := by
  have h0 : encSY op sg.val st.val 0 < 2 ^ 32 ∧
      fld (encSY op sg.val st.val 0) 24 8 = op ∧
      fld (encSY op sg.val st.val 0) 16 2 = 0 ∧
      fld (encSY op sg.val st.val 0) 0 10 = 0 ∧
      fld (encSY op sg.val st.val 0) 18 6 = sg.val ∧
      fld (encSY op sg.val st.val 0) 10 6 = st.val := by
    clear * - hop
    have := sg.isLt; have := st.isLt
    simp only [fld, encSY]
    refine ⟨?_, ?_, ?_, ?_, ?_, ?_⟩ <;> omega
  revert h0 hh
  generalize encSY op sg.val st.val 0 = W
  rintro hh ⟨e32, e24_8, e16_2, e0_10, e18_6, e10_6⟩
  refine decode_encode_of hw (hh ▸ e32) (fun lit h => ?_) rest
  rw [hh]
  rw [hd W lit e24_8]
  rw [e16_2, e0_10, e18_6, e10_6, fin_val sg, fin_val st]
  exact accept_wf hwf

/-- The words of one form round-trip: `hbeat` (R32, R45). -/
theorem rt_hbeat {op : Nat} (hop : op < 256) {f : Instr}
    (hd : ∀ w lit, fld w 24 8 = op → decodeWord w lit =
      (accept (fld w 0 24 == 0) f))
    (hw : (f).isWord = true)
    (hh : (f).head = encSY op 0 0 0) 
    (hwf : (f).wf = true) (rest : List Word) : decode (encode (f) ++ rest) = .ok (f, rest) := by
  have h0 : encSY op 0 0 0 < 2 ^ 32 ∧
      fld (encSY op 0 0 0) 24 8 = op ∧
      fld (encSY op 0 0 0) 0 24 = 0 := by
    clear * - hop
    simp only [fld, encSY]
    refine ⟨?_, ?_, ?_⟩ <;> omega
  revert h0 hh
  generalize encSY op 0 0 0 = W
  rintro hh ⟨e32, e24_8, e0_24⟩
  refine decode_encode_of hw (hh ▸ e32) (fun lit h => ?_) rest
  rw [hh]
  rw [hd W lit e24_8]
  rw [e0_24]
  exact accept_wf hwf

/-- The words of one form round-trip: `rgclaim` and its like (R32, R45). -/
theorem rt_rg {op : Nat} (hop : op < 256) {f : SReg → Fin 16 → Instr}
    (hd : ∀ w lit, fld w 24 8 = op → decodeWord w lit =
      (accept (fld w 4 14 == 0) (f (fin 64 (fld w 18 6)) (fin 16 (fld w 0 4)))))
    (d : SReg) (n : Fin 16) (hw : (f d n).isWord = true)
    (hh : (f d n).head = encSY op d.val 0 n.val) 
    (hwf : (f d n).wf = true) (rest : List Word) : decode (encode (f d n) ++ rest) = .ok (f d n, rest) := by
  have h0 : encSY op d.val 0 n.val < 2 ^ 32 ∧
      fld (encSY op d.val 0 n.val) 24 8 = op ∧
      fld (encSY op d.val 0 n.val) 4 14 = 0 ∧
      fld (encSY op d.val 0 n.val) 18 6 = d.val ∧
      fld (encSY op d.val 0 n.val) 0 4 = n.val := by
    clear * - hop
    have := d.isLt; have := n.isLt
    simp only [fld, encSY]
    refine ⟨?_, ?_, ?_, ?_, ?_⟩ <;> omega
  revert h0 hh
  generalize encSY op d.val 0 n.val = W
  rintro hh ⟨e32, e24_8, e4_14, e18_6, e0_4⟩
  refine decode_encode_of hw (hh ▸ e32) (fun lit h => ?_) rest
  rw [hh]
  rw [hd W lit e24_8]
  rw [e4_14, e18_6, e0_4, fin_val d, fin_val n]
  exact accept_wf hwf

/-- The words of one form round-trip: `wcond` (R32, R45). -/
theorem rt_wcond {op : Nat} (hop : op < 256) {f : SReg → Fin 16 → Instr}
    (hd : ∀ w lit, fld w 24 8 = op → decodeWord w lit =
      (accept (fld w 4 14 == 0) (f (fin 64 (fld w 18 6)) (fin 16 (fld w 0 4)))))
    (d : SReg) (idx : Fin 16) (hw : (f d idx).isWord = true)
    (hh : (f d idx).head = encSY op d.val 0 idx.val) 
    (hwf : (f d idx).wf = true) (rest : List Word) : decode (encode (f d idx) ++ rest) = .ok (f d idx, rest) := by
  have h0 : encSY op d.val 0 idx.val < 2 ^ 32 ∧
      fld (encSY op d.val 0 idx.val) 24 8 = op ∧
      fld (encSY op d.val 0 idx.val) 4 14 = 0 ∧
      fld (encSY op d.val 0 idx.val) 18 6 = d.val ∧
      fld (encSY op d.val 0 idx.val) 0 4 = idx.val := by
    clear * - hop
    have := d.isLt; have := idx.isLt
    simp only [fld, encSY]
    refine ⟨?_, ?_, ?_, ?_, ?_⟩ <;> omega
  revert h0 hh
  generalize encSY op d.val 0 idx.val = W
  rintro hh ⟨e32, e24_8, e4_14, e18_6, e0_4⟩
  refine decode_encode_of hw (hh ▸ e32) (fun lit h => ?_) rest
  rw [hh]
  rw [hd W lit e24_8]
  rw [e4_14, e18_6, e0_4, fin_val d, fin_val idx]
  exact accept_wf hwf

/-- The words of one form round-trip: `wyield` (R32, R45). -/
theorem rt_wyield {op : Nat} (hop : op < 256) {f : SReg → Instr}
    (hd : ∀ w lit, fld w 24 8 = op → decodeWord w lit =
      (accept (fld w 0 18 == 0) (f (fin 64 (fld w 18 6)))))
    (d : SReg) (hw : (f d).isWord = true)
    (hh : (f d).head = encSY op d.val 0 0) 
    (hwf : (f d).wf = true) (rest : List Word) : decode (encode (f d) ++ rest) = .ok (f d, rest) := by
  have h0 : encSY op d.val 0 0 < 2 ^ 32 ∧
      fld (encSY op d.val 0 0) 24 8 = op ∧
      fld (encSY op d.val 0 0) 0 18 = 0 ∧
      fld (encSY op d.val 0 0) 18 6 = d.val := by
    clear * - hop
    have := d.isLt
    simp only [fld, encSY]
    refine ⟨?_, ?_, ?_, ?_⟩ <;> omega
  revert h0 hh
  generalize encSY op d.val 0 0 = W
  rintro hh ⟨e32, e24_8, e0_18, e18_6⟩
  refine decode_encode_of hw (hh ▸ e32) (fun lit h => ?_) rest
  rw [hh]
  rw [hd W lit e24_8]
  rw [e0_18, e18_6, fin_val d]
  exact accept_wf hwf

end Sys2Proof.Laws
end

