-- ==== Sys2Proof/Laws/Home.lean ====
section
/-! SUPPORT. What an access at its home point does besides its bytes (09_extents.md R180, 11_traps.md R221, 12_atomics.md R233,
23_platform.md R407): one lemma for each shared part, which a proof about an access cites instead of unfolding it. -/
namespace Sys2Proof.Machine

/-! ### The device's own accesses -/

@[simp] theorem devHolds_nil (s : State) : devHolds s [] = none := rfl
@[simp] theorem devUses_nil (s : State) : devUses s [] = s := rfl

/-- An event of the device waits in the state that its first access in want of something gives, or acts after its reads. -/
theorem devTurn_eq (s : State) (l : List DevAcc) (act : State → State) :
    devTurn s l act = (devHolds s l).getD (act (devUses s l)) := by
  unfold devTurn; cases devHolds s l <;> rfl

theorem devTurn_acts {s : State} {l : List DevAcc} (h : devHolds s l = none) (act : State → State) :
    devTurn s l act = act (devUses s l) := by rw [devTurn_eq, h]; rfl

theorem devTurn_waits {s t : State} {l : List DevAcc} (h : devHolds s l = some t) (act : State → State) : devTurn s l act = t := by
  rw [devTurn_eq, h]; rfl

/-! ### Channels, extents and errors -/

/-- Waking and touching a channel changes the channels alone. -/
theorem touchChan_cases (s : State) (pa : Nat) : ∃ c, touchChan s pa = { s with mem := { s.mem with chans := c } } := by
  unfold touchChan wakeChan State.setChan
  by_cases h : pa < Config.hbmBytes
  · by_cases h' : (s.chan (chanOf pa)).power = 1 ∨ (s.chan (chanOf pa)).power = 2
    · simp only [h, h', if_true]; exact ⟨_, rfl⟩
    · simp only [h, h', if_true, if_false]; exact ⟨_, rfl⟩
  · simp only [h, if_false]; exact ⟨s.mem.chans, rfl⟩

/-- Noting an error changes the list of noted errors alone, and the list then holds it. -/
theorem noteUpset_cases (s : State) (u : Upset) :
    ∃ l, noteUpset s u = { s with mem := { s.mem with upsets := l } } ∧ u ∈ l ∧ ∀ x ∈ s.mem.upsets, x ∈ l := by
  unfold noteUpset
  split
  · rename_i h; exact ⟨s.mem.upsets, rfl, by simpa using h, fun _ hx => hx⟩
  · exact ⟨_, rfl, by simp, fun _ hx => by simp [hx]⟩

/-- What reaching memory changes: the last access of an extent and its channel. -/
theorem touchByte_cases (s : State) (d : Desc) (va : Nat) (wr : Bool) :
    ∃ e c, touchByte s d va wr = { s with mem := { s.mem with exts := e, chans := c } } := by
  unfold touchByte markUsed
  split
  · obtain ⟨c, h⟩ := touchChan_cases { s with mem := { s.mem with exts := s.mem.exts.map (fun e =>
        if e.ctx == d.ent.ctx && e.xid == d.ent.xid then { e with used := s.plat.time } else e) } } (devicePlace s d (va - d.ent.base))
    exact ⟨_, c, h⟩
  · exact ⟨s.mem.exts, s.mem.chans, rfl⟩

/-! ### Owners -/

/-- A recall changes the owners and the directory alone; the line has no owner after it, every other line the one it had. -/
theorem dropOwner_cases (s : State) (line : Nat) :
    ∃ o dir, dropOwner s line = { s with mem := { s.mem with owner := o, dir := dir } } ∧
      ∀ l, mget o 0 l = if l = line then 0 else mget s.mem.owner 0 l := by
  unfold dropOwner dirTidy
  split
  · rename_i h
    exact ⟨s.mem.owner, s.mem.dir, rfl, fun l => by split <;> simp_all⟩
  · exact ⟨_, _, rfl, fun l => by simp [eq_comm]⟩

/-- A read by another party than a core's L1 changes the owners, the directory, the last access and the channels, and no byte. -/
theorem useByte_read_cases (s : State) (d : Desc) (va : Nat) :
    ∃ o dir e c, useByte s d va false = { s with mem := { s.mem with owner := o, dir := dir, exts := e, chans := c } } := by
  obtain ⟨o, dir, h, _⟩ := dropOwner_cases s (lineKey d.ent.ctx va)
  obtain ⟨e, c, h'⟩ := touchByte_cases (visitLine s d va false) d va false
  refine ⟨o, dir, e, c, ?_⟩
  rw [useByte, h']
  simp only [visitLine, Bool.false_and, Bool.false_eq_true, if_false, h]

end Sys2Proof.Machine
end

