-- ==== Sys2Proof/Laws/Mgmt.lean ====
section
/-! SUPPORT. What a management command answers (23_platform.md R393). -/
namespace Sys2Proof.Machine

theorem command_ok {s t : State} {code : Nat} {named : List (Nat × Nat)} {act : List Byte → Except Nat State} (h : mqReady s = true)
    (hc : ((pread s (mqSlot s) 64).getD 0 0).toNat = code) (hu : unnamedZero (pread s (mqSlot s) 64) named = true)
    (ha : act (pread s (mqSlot s) 64) = .ok t) : command s code named act = .next (mqDone t stDone) := by
  unfold command
  simp only [h, hc, hu, ha, Bool.not_true, Bool.false_eq_true, not_true, ne_eq, or_self, if_false]

theorem command_error {s : State} {code st : Nat} {named : List (Nat × Nat)} {act : List Byte → Except Nat State} (h : mqReady s = true)
    (hc : ((pread s (mqSlot s) 64).getD 0 0).toNat = code) (hu : unnamedZero (pread s (mqSlot s) 64) named = true)
    (ha : act (pread s (mqSlot s) 64) = .error st) : command s code named act = .next (mqDone s st) := by
  unfold command
  simp only [h, hc, hu, ha, Bool.not_true, Bool.false_eq_true, not_true, ne_eq, or_self, if_false]

theorem command_unnamed {s : State} {code : Nat} {named : List (Nat × Nat)} {act : List Byte → Except Nat State} (h : mqReady s = true)
    (hc : ((pread s (mqSlot s) 64).getD 0 0).toNat = code) (hu : unnamedZero (pread s (mqSlot s) 64) named = false) :
    command s code named act = .next (mqDone s stInvalid) := by
  unfold command
  simp only [h, hc, hu, Bool.not_true, Bool.not_false, Bool.false_eq_true, not_true, ne_eq, or_self, if_false, if_true]

end Sys2Proof.Machine
end

