-- ==== Sys2Proof/Laws/PerInstr.lean ====
section
/-! SUPPORT. Decoding an encoded well-formed instruction gives it back, constructor by constructor. An event has no
encoding, so its statement says nothing. -/
namespace Sys2Proof.Laws.Encoding

/-- Decode and encode agree on this instruction: every operand comes back, whatever words follow (02_encoding.md R32 to
R46). -/
def Statement (i : Instr) : Prop :=
  i.isWord = true → i.wf = true → ∀ rest : List Word, decode (encode i ++ rest) = .ok (i, rest)

/-- An event is no word. -/
theorem of_event {i : Instr} (h : i.isWord = false) : Statement i := fun hw => by simp [h] at hw

/-- The decoder reads a word by its opcode. -/
theorem by_op {w op : Nat} {lit : Option Word} {r : Except DecodeError Instr} (h : fld w 24 8 = op)
    (hr : (if op < 0x20 then decodeScalar op w lit else if op < 0x80 then decodeVector op w lit
      else if op < 0xB0 then decodeMemory op w lit else decodeOther op w lit) = r) : decodeWord w lit = r := by
  unfold decodeWord; rw [h]; exact hr

theorem sadd (d : SReg) (a b : Operand) : Statement (.sadd d a b) := fun hw =>
  rt_sa (op := 0x00) (f := .sadd) (by decide) (fun _ _ h => by_op h rfl) d a b hw rfl rfl and_right
theorem ssub (d : SReg) (a b : Operand) : Statement (.ssub d a b) := fun hw =>
  rt_sa (op := 0x01) (f := .ssub) (by decide) (fun _ _ h => by_op h rfl) d a b hw rfl rfl and_right
theorem smul (d : SReg) (a b : Operand) : Statement (.smul d a b) := fun hw =>
  rt_sa (op := 0x02) (f := .smul) (by decide) (fun _ _ h => by_op h rfl) d a b hw rfl rfl and_right
theorem smulhi (d : SReg) (a b : Operand) : Statement (.smulhi d a b) := fun hw =>
  rt_sa (op := 0x03) (f := .smulhi) (by decide) (fun _ _ h => by_op h rfl) d a b hw rfl rfl and_right
theorem sand (d : SReg) (a b : Operand) : Statement (.sand d a b) := fun hw =>
  rt_sa (op := 0x04) (f := .sand) (by decide) (fun _ _ h => by_op h rfl) d a b hw rfl rfl and_right
theorem sor (d : SReg) (a b : Operand) : Statement (.sor d a b) := fun hw =>
  rt_sa (op := 0x05) (f := .sor) (by decide) (fun _ _ h => by_op h rfl) d a b hw rfl rfl and_right
theorem sxor (d : SReg) (a b : Operand) : Statement (.sxor d a b) := fun hw =>
  rt_sa (op := 0x06) (f := .sxor) (by decide) (fun _ _ h => by_op h rfl) d a b hw rfl rfl and_right
theorem sshl (d : SReg) (a b : Operand) : Statement (.sshl d a b) := fun hw =>
  rt_sa (op := 0x07) (f := .sshl) (by decide) (fun _ _ h => by_op h rfl) d a b hw rfl rfl and_right
theorem sshr (d : SReg) (a b : Operand) : Statement (.sshr d a b) := fun hw =>
  rt_sa (op := 0x08) (f := .sshr) (by decide) (fun _ _ h => by_op h rfl) d a b hw rfl rfl and_right
theorem ssra (d : SReg) (a b : Operand) : Statement (.ssra d a b) := fun hw =>
  rt_sa (op := 0x09) (f := .ssra) (by decide) (fun _ _ h => by_op h rfl) d a b hw rfl rfl and_right
theorem smin (d : SReg) (a b : Operand) : Statement (.smin d a b) := fun hw =>
  rt_sa (op := 0x0A) (f := .smin) (by decide) (fun _ _ h => by_op h rfl) d a b hw rfl rfl and_right
theorem smax (d : SReg) (a b : Operand) : Statement (.smax d a b) := fun hw =>
  rt_sa (op := 0x0B) (f := .smax) (by decide) (fun _ _ h => by_op h rfl) d a b hw rfl rfl and_right
theorem scmp (c : Fin 10) (a b : Operand) : Statement (.scmp c a b) := fun hw =>
  rt_scmp (op := 0x0C) (f := .scmp) (by decide) (fun _ _ h => by_op h rfl) c a b hw rfl rfl and_right
theorem ssel (d : SReg) (a b : Operand) : Statement (.ssel d a b) := fun hw =>
  rt_sa (op := 0x0D) (f := .ssel) (by decide) (fun _ _ h => by_op h rfl) d a b hw rfl rfl and_right
theorem sadd64 (d : SReg) (a b : Operand) : Statement (.sadd64 d a b) := fun hw =>
  rt_sadd64 (op := 0x0E) (f := .sadd64) (by decide) (fun _ _ h => by_op h rfl) d a b hw rfl rfl and_right
theorem smov (d : SReg) (a : Operand) : Statement (.smov d a) := fun hw =>
  rt_smov (op := 0x0F) (f := .smov) (by decide) (fun _ _ h => by_op h rfl) d a hw rfl rfl
theorem jmp (off : Fin 1048576) : Statement (.jmp off) := fun hw =>
  rt_brOff (op := 0x10) (f := .jmp) (by decide) (fun _ _ h => by_op h rfl) off hw rfl
theorem bscc (c : Bool) (off : Fin 1048576) : Statement (.bscc c off) := fun hw =>
  rt_bscc (op := 0x11) (f := .bscc) (by decide) (fun _ _ h => by_op h rfl) c off hw rfl
theorem bdiv (mk : MReg) (c : Bool) (off : Fin 1048576) : Statement (.bdiv mk c off) := fun hw =>
  rt_brMask (op := 0x12) (f := .bdiv) (by decide) (fun _ _ h => by_op h rfl) mk c off hw rfl
theorem bany (mk : MReg) (c : Bool) (off : Fin 1048576) : Statement (.bany mk c off) := fun hw =>
  rt_brMask (op := 0x13) (f := .bany) (by decide) (fun _ _ h => by_op h rfl) mk c off hw rfl
theorem ball (mk : MReg) (c : Bool) (off : Fin 1048576) : Statement (.ball mk c off) := fun hw =>
  rt_brMask (op := 0x14) (f := .ball) (by decide) (fun _ _ h => by_op h rfl) mk c off hw rfl
theorem join (off : Fin 1048576) : Statement (.join off) := fun hw =>
  rt_brOff (op := 0x15) (f := .join) (by decide) (fun _ _ h => by_op h rfl) off hw rfl
theorem brk (mk : MReg) (c : Bool) (off : Fin 1048576) : Statement (.brk mk c off) := fun hw =>
  rt_brMask (op := 0x16) (f := .brk) (by decide) (fun _ _ h => by_op h rfl) mk c off hw rfl
theorem call (off : Fin 1048576) : Statement (.call off) := fun hw =>
  rt_brOff (op := 0x17) (f := .call) (by decide) (fun _ _ h => by_op h rfl) off hw rfl
theorem ret : Statement (.ret) := fun hw =>
  rt_brNone (op := 0x18) (f := .ret) (by decide) (fun _ _ h => by_op h rfl) hw rfl
theorem exit : Statement (.exit) := fun hw =>
  rt_brNone (op := 0x19) (f := .exit) (by decide) (fun _ _ h => by_op h rfl) hw rfl
theorem mand (d a b : MReg) : Statement (.mand d a b) := fun hw =>
  rt_mask3 (op := 0x1A) (f := .mand) (by decide) (fun _ _ h => by_op h rfl) d a b hw rfl
theorem mor (d a b : MReg) : Statement (.mor d a b) := fun hw =>
  rt_mask3 (op := 0x1B) (f := .mor) (by decide) (fun _ _ h => by_op h rfl) d a b hw rfl
theorem mxor (d a b : MReg) : Statement (.mxor d a b) := fun hw =>
  rt_mask3 (op := 0x1C) (f := .mxor) (by decide) (fun _ _ h => by_op h rfl) d a b hw rfl
theorem mandn (d a b : MReg) : Statement (.mandn d a b) := fun hw =>
  rt_mask3 (op := 0x1D) (f := .mandn) (by decide) (fun _ _ h => by_op h rfl) d a b hw rfl
theorem mfrom (d : MReg) : Statement (.mfrom d) := fun hw =>
  rt_mfrom (op := 0x1E) (f := .mfrom) (by decide) (fun _ _ h => by_op h rfl) d hw rfl
theorem mto (d a : MReg) : Statement (.mto d a) := fun hw =>
  rt_mto (op := 0x1F) (f := .mto) (by decide) (fun _ _ h => by_op h rfl) d a hw rfl
theorem vaddI32 (d : VReg) (a b : Operand) (p : Bool) : Statement (.vaddI32 d a b p) := fun hw =>
  rt_vaBin (op := 0x20) (f := .vaddI32) (by decide) (fun _ _ h => by_op h rfl) d a b p hw rfl rfl id
theorem vsubI32 (d : VReg) (a b : Operand) (p : Bool) : Statement (.vsubI32 d a b p) := fun hw =>
  rt_vaBin (op := 0x21) (f := .vsubI32) (by decide) (fun _ _ h => by_op h rfl) d a b p hw rfl rfl id
theorem vmulI32 (d : VReg) (a b : Operand) (p : Bool) : Statement (.vmulI32 d a b p) := fun hw =>
  rt_vaBin (op := 0x22) (f := .vmulI32) (by decide) (fun _ _ h => by_op h rfl) d a b p hw rfl rfl id
theorem vmulhiI32 (d : VReg) (a b : Operand) (p : Bool) : Statement (.vmulhiI32 d a b p) := fun hw =>
  rt_vaBin (op := 0x23) (f := .vmulhiI32) (by decide) (fun _ _ h => by_op h rfl) d a b p hw rfl rfl id
theorem vmulhiN32 (d : VReg) (a b : Operand) (p : Bool) : Statement (.vmulhiN32 d a b p) := fun hw =>
  rt_vaBin (op := 0x24) (f := .vmulhiN32) (by decide) (fun _ _ h => by_op h rfl) d a b p hw rfl rfl id
theorem vmadI32 (d : VReg) (a b : Operand) (p : Bool) : Statement (.vmadI32 d a b p) := fun hw =>
  rt_vaBin (op := 0x25) (f := .vmadI32) (by decide) (fun _ _ h => by_op h rfl) d a b p hw rfl rfl id
theorem vandB32 (d : VReg) (a b : Operand) (p : Bool) : Statement (.vandB32 d a b p) := fun hw =>
  rt_vaBin (op := 0x26) (f := .vandB32) (by decide) (fun _ _ h => by_op h rfl) d a b p hw rfl rfl id
theorem vorB32 (d : VReg) (a b : Operand) (p : Bool) : Statement (.vorB32 d a b p) := fun hw =>
  rt_vaBin (op := 0x27) (f := .vorB32) (by decide) (fun _ _ h => by_op h rfl) d a b p hw rfl rfl id
theorem vxorB32 (d : VReg) (a b : Operand) (p : Bool) : Statement (.vxorB32 d a b p) := fun hw =>
  rt_vaBin (op := 0x28) (f := .vxorB32) (by decide) (fun _ _ h => by_op h rfl) d a b p hw rfl rfl id
theorem vshlB32 (d : VReg) (a b : Operand) (p : Bool) : Statement (.vshlB32 d a b p) := fun hw =>
  rt_vaBin (op := 0x29) (f := .vshlB32) (by decide) (fun _ _ h => by_op h rfl) d a b p hw rfl rfl id
theorem vshrN32 (d : VReg) (a b : Operand) (p : Bool) : Statement (.vshrN32 d a b p) := fun hw =>
  rt_vaBin (op := 0x2A) (f := .vshrN32) (by decide) (fun _ _ h => by_op h rfl) d a b p hw rfl rfl id
theorem vshrI32 (d : VReg) (a b : Operand) (p : Bool) : Statement (.vshrI32 d a b p) := fun hw =>
  rt_vaBin (op := 0x2B) (f := .vshrI32) (by decide) (fun _ _ h => by_op h rfl) d a b p hw rfl rfl id
theorem vminI32 (d : VReg) (a b : Operand) (p : Bool) : Statement (.vminI32 d a b p) := fun hw =>
  rt_vaBin (op := 0x2C) (f := .vminI32) (by decide) (fun _ _ h => by_op h rfl) d a b p hw rfl rfl id
theorem vminN32 (d : VReg) (a b : Operand) (p : Bool) : Statement (.vminN32 d a b p) := fun hw =>
  rt_vaBin (op := 0x2D) (f := .vminN32) (by decide) (fun _ _ h => by_op h rfl) d a b p hw rfl rfl id
theorem vmaxI32 (d : VReg) (a b : Operand) (p : Bool) : Statement (.vmaxI32 d a b p) := fun hw =>
  rt_vaBin (op := 0x2E) (f := .vmaxI32) (by decide) (fun _ _ h => by_op h rfl) d a b p hw rfl rfl id
theorem vmaxN32 (d : VReg) (a b : Operand) (p : Bool) : Statement (.vmaxN32 d a b p) := fun hw =>
  rt_vaBin (op := 0x2F) (f := .vmaxN32) (by decide) (fun _ _ h => by_op h rfl) d a b p hw rfl rfl id
theorem vaddF32 (d : VReg) (a b : Operand) (p : Bool) : Statement (.vaddF32 d a b p) := fun hw =>
  rt_vaBin (op := 0x30) (f := .vaddF32) (by decide) (fun _ _ h => by_op h rfl) d a b p hw rfl rfl id
theorem vfmaF32 (d : VReg) (a b : Operand) (p : Bool) : Statement (.vfmaF32 d a b p) := fun hw =>
  rt_vaBin (op := 0x31) (f := .vfmaF32) (by decide) (fun _ _ h => by_op h rfl) d a b p hw rfl rfl id
theorem vsubF32 (d : VReg) (a b : Operand) (p : Bool) : Statement (.vsubF32 d a b p) := fun hw =>
  rt_vaBin (op := 0x32) (f := .vsubF32) (by decide) (fun _ _ h => by_op h rfl) d a b p hw rfl rfl id
theorem vmulF32 (d : VReg) (a b : Operand) (p : Bool) : Statement (.vmulF32 d a b p) := fun hw =>
  rt_vaBin (op := 0x33) (f := .vmulF32) (by decide) (fun _ _ h => by_op h rfl) d a b p hw rfl rfl id
theorem vminF32 (d : VReg) (a b : Operand) (p : Bool) : Statement (.vminF32 d a b p) := fun hw =>
  rt_vaBin (op := 0x34) (f := .vminF32) (by decide) (fun _ _ h => by_op h rfl) d a b p hw rfl rfl id
theorem vmaxF32 (d : VReg) (a b : Operand) (p : Bool) : Statement (.vmaxF32 d a b p) := fun hw =>
  rt_vaBin (op := 0x35) (f := .vmaxF32) (by decide) (fun _ _ h => by_op h rfl) d a b p hw rfl rfl id
theorem vrcpF32 (d : VReg) (a : Operand) (p : Bool) : Statement (.vrcpF32 d a p) := fun hw =>
  rt_vaUn (op := 0x36) (f := .vrcpF32) (by decide) (fun _ _ h => by_op h rfl) d a p hw rfl rfl
theorem vrsqrtF32 (d : VReg) (a : Operand) (p : Bool) : Statement (.vrsqrtF32 d a p) := fun hw =>
  rt_vaUn (op := 0x37) (f := .vrsqrtF32) (by decide) (fun _ _ h => by_op h rfl) d a p hw rfl rfl
theorem vsqrtF32 (d : VReg) (a : Operand) (p : Bool) : Statement (.vsqrtF32 d a p) := fun hw =>
  rt_vaUn (op := 0x38) (f := .vsqrtF32) (by decide) (fun _ _ h => by_op h rfl) d a p hw rfl rfl
theorem vexp2F32 (d : VReg) (a : Operand) (p : Bool) : Statement (.vexp2F32 d a p) := fun hw =>
  rt_vaUn (op := 0x39) (f := .vexp2F32) (by decide) (fun _ _ h => by_op h rfl) d a p hw rfl rfl
theorem vlog2F32 (d : VReg) (a : Operand) (p : Bool) : Statement (.vlog2F32 d a p) := fun hw =>
  rt_vaUn (op := 0x3A) (f := .vlog2F32) (by decide) (fun _ _ h => by_op h rfl) d a p hw rfl rfl
theorem vabsF32 (d : VReg) (a : Operand) (p : Bool) : Statement (.vabsF32 d a p) := fun hw =>
  rt_vaUn (op := 0x3B) (f := .vabsF32) (by decide) (fun _ _ h => by_op h rfl) d a p hw rfl rfl
theorem vnegF32 (d : VReg) (a : Operand) (p : Bool) : Statement (.vnegF32 d a p) := fun hw =>
  rt_vaUn (op := 0x3C) (f := .vnegF32) (by decide) (fun _ _ h => by_op h rfl) d a p hw rfl rfl
theorem vfmsF32 (d : VReg) (a b : Operand) (p : Bool) : Statement (.vfmsF32 d a b p) := fun hw =>
  rt_vaBin (op := 0x3D) (f := .vfmsF32) (by decide) (fun _ _ h => by_op h rfl) d a b p hw rfl rfl id
theorem vrndF32 (d : VReg) (a : Operand) (mode : Fin 4) (p : Bool) : Statement (.vrndF32 d a mode p) := fun hw =>
  rt_vrnd (op := 0x3E) (f := .vrndF32) (by decide) (fun _ _ h => by_op h rfl) d a mode p hw rfl rfl
theorem vclassF32 (d : VReg) (a : Operand) (p : Bool) : Statement (.vclassF32 d a p) := fun hw =>
  rt_vaUn (op := 0x3F) (f := .vclassF32) (by decide) (fun _ _ h => by_op h rfl) d a p hw rfl rfl
theorem vaddF16 (d : VReg) (a b : Operand) (p : Bool) : Statement (.vaddF16 d a b p) := fun hw =>
  rt_vaBin (op := 0x40) (f := .vaddF16) (by decide) (fun _ _ h => by_op h rfl) d a b p hw rfl rfl id
theorem vfmaF16 (d : VReg) (a b : Operand) (p : Bool) : Statement (.vfmaF16 d a b p) := fun hw =>
  rt_vaBin (op := 0x41) (f := .vfmaF16) (by decide) (fun _ _ h => by_op h rfl) d a b p hw rfl rfl id
theorem vmulF16 (d : VReg) (a b : Operand) (p : Bool) : Statement (.vmulF16 d a b p) := fun hw =>
  rt_vaBin (op := 0x42) (f := .vmulF16) (by decide) (fun _ _ h => by_op h rfl) d a b p hw rfl rfl id
theorem vaddBf16 (d : VReg) (a b : Operand) (p : Bool) : Statement (.vaddBf16 d a b p) := fun hw =>
  rt_vaBin (op := 0x43) (f := .vaddBf16) (by decide) (fun _ _ h => by_op h rfl) d a b p hw rfl rfl id
theorem vfmaBf16 (d : VReg) (a b : Operand) (p : Bool) : Statement (.vfmaBf16 d a b p) := fun hw =>
  rt_vaBin (op := 0x44) (f := .vfmaBf16) (by decide) (fun _ _ h => by_op h rfl) d a b p hw rfl rfl id
theorem vmulBf16 (d : VReg) (a b : Operand) (p : Bool) : Statement (.vmulBf16 d a b p) := fun hw =>
  rt_vaBin (op := 0x45) (f := .vmulBf16) (by decide) (fun _ _ h => by_op h rfl) d a b p hw rfl rfl id
theorem vmovB32 (d : VReg) (a : Operand) (p : Bool) : Statement (.vmovB32 d a p) := fun hw =>
  rt_vaUn (op := 0x46) (f := .vmovB32) (by decide) (fun _ _ h => by_op h rfl) d a p hw rfl rfl
theorem vpopcB32 (d : VReg) (a : Operand) (p : Bool) : Statement (.vpopcB32 d a p) := fun hw =>
  rt_vaUn (op := 0x47) (f := .vpopcB32) (by decide) (fun _ _ h => by_op h rfl) d a p hw rfl rfl
theorem vclzB32 (d : VReg) (a : Operand) (p : Bool) : Statement (.vclzB32 d a p) := fun hw =>
  rt_vaUn (op := 0x48) (f := .vclzB32) (by decide) (fun _ _ h => by_op h rfl) d a p hw rfl rfl
theorem vbrevB32 (d : VReg) (a : Operand) (p : Bool) : Statement (.vbrevB32 d a p) := fun hw =>
  rt_vaUn (op := 0x49) (f := .vbrevB32) (by decide) (fun _ _ h => by_op h rfl) d a p hw rfl rfl
theorem vdot4I8 (d : VReg) (a b : Operand) (p : Bool) : Statement (.vdot4I8 d a b p) := fun hw =>
  rt_vaBin (op := 0x4A) (f := .vdot4I8) (by decide) (fun _ _ h => by_op h rfl) d a b p hw rfl rfl id
theorem vaddF32Rz (d : VReg) (a b : Operand) (p : Bool) : Statement (.vaddF32Rz d a b p) := fun hw =>
  rt_vaBin (op := 0x50) (f := .vaddF32Rz) (by decide) (fun _ _ h => by_op h rfl) d a b p hw rfl rfl id
theorem vaddF32Ru (d : VReg) (a b : Operand) (p : Bool) : Statement (.vaddF32Ru d a b p) := fun hw =>
  rt_vaBin (op := 0x51) (f := .vaddF32Ru) (by decide) (fun _ _ h => by_op h rfl) d a b p hw rfl rfl id
theorem vaddF32Rd (d : VReg) (a b : Operand) (p : Bool) : Statement (.vaddF32Rd d a b p) := fun hw =>
  rt_vaBin (op := 0x52) (f := .vaddF32Rd) (by decide) (fun _ _ h => by_op h rfl) d a b p hw rfl rfl id
theorem vsubF32Rz (d : VReg) (a b : Operand) (p : Bool) : Statement (.vsubF32Rz d a b p) := fun hw =>
  rt_vaBin (op := 0x53) (f := .vsubF32Rz) (by decide) (fun _ _ h => by_op h rfl) d a b p hw rfl rfl id
theorem vsubF32Ru (d : VReg) (a b : Operand) (p : Bool) : Statement (.vsubF32Ru d a b p) := fun hw =>
  rt_vaBin (op := 0x54) (f := .vsubF32Ru) (by decide) (fun _ _ h => by_op h rfl) d a b p hw rfl rfl id
theorem vsubF32Rd (d : VReg) (a b : Operand) (p : Bool) : Statement (.vsubF32Rd d a b p) := fun hw =>
  rt_vaBin (op := 0x55) (f := .vsubF32Rd) (by decide) (fun _ _ h => by_op h rfl) d a b p hw rfl rfl id
theorem vmulF32Rz (d : VReg) (a b : Operand) (p : Bool) : Statement (.vmulF32Rz d a b p) := fun hw =>
  rt_vaBin (op := 0x56) (f := .vmulF32Rz) (by decide) (fun _ _ h => by_op h rfl) d a b p hw rfl rfl id
theorem vmulF32Ru (d : VReg) (a b : Operand) (p : Bool) : Statement (.vmulF32Ru d a b p) := fun hw =>
  rt_vaBin (op := 0x57) (f := .vmulF32Ru) (by decide) (fun _ _ h => by_op h rfl) d a b p hw rfl rfl id
theorem vmulF32Rd (d : VReg) (a b : Operand) (p : Bool) : Statement (.vmulF32Rd d a b p) := fun hw =>
  rt_vaBin (op := 0x58) (f := .vmulF32Rd) (by decide) (fun _ _ h => by_op h rfl) d a b p hw rfl rfl id
theorem vfmaF32Rz (d : VReg) (a b : Operand) (p : Bool) : Statement (.vfmaF32Rz d a b p) := fun hw =>
  rt_vaBin (op := 0x59) (f := .vfmaF32Rz) (by decide) (fun _ _ h => by_op h rfl) d a b p hw rfl rfl id
theorem vfmaF32Ru (d : VReg) (a b : Operand) (p : Bool) : Statement (.vfmaF32Ru d a b p) := fun hw =>
  rt_vaBin (op := 0x5A) (f := .vfmaF32Ru) (by decide) (fun _ _ h => by_op h rfl) d a b p hw rfl rfl id
theorem vfmaF32Rd (d : VReg) (a b : Operand) (p : Bool) : Statement (.vfmaF32Rd d a b p) := fun hw =>
  rt_vaBin (op := 0x5B) (f := .vfmaF32Rd) (by decide) (fun _ _ h => by_op h rfl) d a b p hw rfl rfl id
theorem vcmpI32 (c : Fin 8) (m : MReg) (a b : Operand) (p : Bool) : Statement (.vcmpI32 c m a b p) := fun hw =>
  rt_vcmp (op := 0x5C) (f := .vcmpI32) (by decide) (fun _ _ h => by_op h rfl) c m a b p hw rfl rfl and_right
theorem vcmpN32 (c : Fin 8) (m : MReg) (a b : Operand) (p : Bool) : Statement (.vcmpN32 c m a b p) := fun hw =>
  rt_vcmp (op := 0x5D) (f := .vcmpN32) (by decide) (fun _ _ h => by_op h rfl) c m a b p hw rfl rfl and_right
theorem vcmpF32 (c : Fin 8) (m : MReg) (a b : Operand) (p : Bool) : Statement (.vcmpF32 c m a b p) := fun hw =>
  rt_vcmp (op := 0x5E) (f := .vcmpF32) (by decide) (fun _ _ h => by_op h rfl) c m a b p hw rfl rfl id
theorem vselB32 (d : VReg) (a b : Operand) : Statement (.vselB32 d a b) := fun hw =>
  rt_vsel (op := 0x5F) (f := .vselB32) (by decide) (fun _ _ h => by_op h rfl) d a b hw rfl rfl id
theorem vcvtF32I32 (d : VReg) (a : Operand) (k : CvtCtl) (p : Bool) : Statement (.vcvtF32I32 d a k p) := fun hw =>
  rt_vcvt (op := 0x60) (f := .vcvtF32I32) (by decide) (fun _ _ h => by_op h rfl) d a k p hw rfl rfl
theorem vcvtF32N32 (d : VReg) (a : Operand) (k : CvtCtl) (p : Bool) : Statement (.vcvtF32N32 d a k p) := fun hw =>
  rt_vcvt (op := 0x61) (f := .vcvtF32N32) (by decide) (fun _ _ h => by_op h rfl) d a k p hw rfl rfl
theorem vcvtI32F32 (d : VReg) (a : Operand) (k : CvtCtl) (p : Bool) : Statement (.vcvtI32F32 d a k p) := fun hw =>
  rt_vcvt (op := 0x62) (f := .vcvtI32F32) (by decide) (fun _ _ h => by_op h rfl) d a k p hw rfl rfl
theorem vcvtN32F32 (d : VReg) (a : Operand) (k : CvtCtl) (p : Bool) : Statement (.vcvtN32F32 d a k p) := fun hw =>
  rt_vcvt (op := 0x63) (f := .vcvtN32F32) (by decide) (fun _ _ h => by_op h rfl) d a k p hw rfl rfl
theorem vcvtF16F32 (d : VReg) (a : Operand) (k : CvtCtl) (p : Bool) : Statement (.vcvtF16F32 d a k p) := fun hw =>
  rt_vcvt (op := 0x64) (f := .vcvtF16F32) (by decide) (fun _ _ h => by_op h rfl) d a k p hw rfl rfl
theorem vcvtBf16F32 (d : VReg) (a : Operand) (k : CvtCtl) (p : Bool) : Statement (.vcvtBf16F32 d a k p) := fun hw =>
  rt_vcvt (op := 0x65) (f := .vcvtBf16F32) (by decide) (fun _ _ h => by_op h rfl) d a k p hw rfl rfl
theorem vcvtE4m3F32 (d : VReg) (a : Operand) (k : CvtCtl) (p : Bool) : Statement (.vcvtE4m3F32 d a k p) := fun hw =>
  rt_vcvt (op := 0x66) (f := .vcvtE4m3F32) (by decide) (fun _ _ h => by_op h rfl) d a k p hw rfl rfl
theorem vcvtE5m2F32 (d : VReg) (a : Operand) (k : CvtCtl) (p : Bool) : Statement (.vcvtE5m2F32 d a k p) := fun hw =>
  rt_vcvt (op := 0x67) (f := .vcvtE5m2F32) (by decide) (fun _ _ h => by_op h rfl) d a k p hw rfl rfl
theorem vcvtLog6F32 (d : VReg) (a : Operand) (k : CvtCtl) (p : Bool) : Statement (.vcvtLog6F32 d a k p) := fun hw =>
  rt_vcvt (op := 0x68) (f := .vcvtLog6F32) (by decide) (fun _ _ h => by_op h rfl) d a k p hw rfl rfl
theorem vcvtF32F16 (d : VReg) (a : Operand) (k : CvtCtl) (p : Bool) : Statement (.vcvtF32F16 d a k p) := fun hw =>
  rt_vcvt (op := 0x69) (f := .vcvtF32F16) (by decide) (fun _ _ h => by_op h rfl) d a k p hw rfl rfl
theorem vcvtF32Bf16 (d : VReg) (a : Operand) (k : CvtCtl) (p : Bool) : Statement (.vcvtF32Bf16 d a k p) := fun hw =>
  rt_vcvt (op := 0x6A) (f := .vcvtF32Bf16) (by decide) (fun _ _ h => by_op h rfl) d a k p hw rfl rfl
theorem vcvtF32E4m3 (d : VReg) (a : Operand) (k : CvtCtl) (p : Bool) : Statement (.vcvtF32E4m3 d a k p) := fun hw =>
  rt_vcvt (op := 0x6B) (f := .vcvtF32E4m3) (by decide) (fun _ _ h => by_op h rfl) d a k p hw rfl rfl
theorem vcvtF32E5m2 (d : VReg) (a : Operand) (k : CvtCtl) (p : Bool) : Statement (.vcvtF32E5m2 d a k p) := fun hw =>
  rt_vcvt (op := 0x6C) (f := .vcvtF32E5m2) (by decide) (fun _ _ h => by_op h rfl) d a k p hw rfl rfl
theorem vcvtF32Log6 (d : VReg) (a : Operand) (k : CvtCtl) (p : Bool) : Statement (.vcvtF32Log6 d a k p) := fun hw =>
  rt_vcvt (op := 0x6D) (f := .vcvtF32Log6) (by decide) (fun _ _ h => by_op h rfl) d a k p hw rfl rfl
theorem vscvt (d a : VReg) (k : CvtCtl) (p : Bool) : Statement (.vscvt d a k p) := fun hw =>
  rt_vscvt (op := 0x6E) (f := .vscvt) (by decide) (fun _ _ h => by_op h rfl) d a k p hw rfl
theorem vshflB32 (d a : VReg) (b : Operand) (p : Bool) : Statement (.vshflB32 d a b p) := fun hw =>
  rt_vshfl (op := 0x70) (f := .vshflB32) (by decide) (fun _ _ h => by_op h rfl) d a b p hw rfl rfl
theorem vnblB32 (d a : VReg) (sel : Fin 4) (p : Bool) : Statement (.vnblB32 d a sel p) := fun hw =>
  rt_vnb (op := 0x71) (f := .vnblB32) (by decide) (fun _ _ h => by_op h rfl) d a sel p hw rfl
theorem vnbrB32 (d a : VReg) (sel : Fin 4) (p : Bool) : Statement (.vnbrB32 d a sel p) := fun hw =>
  rt_vnb (op := 0x72) (f := .vnbrB32) (by decide) (fun _ _ h => by_op h rfl) d a sel p hw rfl
theorem vbcastB32 (d a : VReg) (b : Operand) (p : Bool) : Statement (.vbcastB32 d a b p) := fun hw =>
  rt_vbcast (op := 0x73) (f := .vbcastB32) (by decide) (fun _ _ h => by_op h rfl) d a b p hw rfl rfl
theorem vredAddI32 (d a : VReg) (p : Bool) : Statement (.vredAddI32 d a p) := fun hw =>
  rt_vred (op := 0x74) (f := .vredAddI32) (by decide) (fun _ _ h => by_op h rfl) d a p hw rfl
theorem vredAddF32 (d a : VReg) (p : Bool) : Statement (.vredAddF32 d a p) := fun hw =>
  rt_vred (op := 0x75) (f := .vredAddF32) (by decide) (fun _ _ h => by_op h rfl) d a p hw rfl
theorem vredMaxF32 (d a : VReg) (p : Bool) : Statement (.vredMaxF32 d a p) := fun hw =>
  rt_vred (op := 0x76) (f := .vredMaxF32) (by decide) (fun _ _ h => by_op h rfl) d a p hw rfl
theorem vredMinF32 (d a : VReg) (p : Bool) : Statement (.vredMinF32 d a p) := fun hw =>
  rt_vred (op := 0x77) (f := .vredMinF32) (by decide) (fun _ _ h => by_op h rfl) d a p hw rfl
theorem vscanAddI32 (d a : VReg) (p : Bool) : Statement (.vscanAddI32 d a p) := fun hw =>
  rt_vred (op := 0x78) (f := .vscanAddI32) (by decide) (fun _ _ h => by_op h rfl) d a p hw rfl
theorem vscanAddF32 (d a : VReg) (p : Bool) : Statement (.vscanAddF32 d a p) := fun hw =>
  rt_vred (op := 0x79) (f := .vscanAddF32) (by decide) (fun _ _ h => by_op h rfl) d a p hw rfl
theorem vballot (m : MReg) (a : Operand) (p : Bool) : Statement (.vballot m a p) := fun hw =>
  rt_vballot (op := 0x7A) (f := .vballot) (by decide) (fun _ _ h => by_op h rfl) m a p hw rfl rfl
theorem vrdlane (d : SReg) (a : VReg) (b : Operand) : Statement (.vrdlane d a b) := fun hw =>
  rt_vrdlane (op := 0x7B) (f := .vrdlane) (by decide) (fun _ _ h => by_op h rfl) d a b hw rfl rfl
theorem ldN8 (d : VReg) (sb : SReg) (vo : VReg) (sc : Fin 8) (x : Option Word) : Statement (.ldN8 d sb vo sc x) := fun hw =>
  rt_ldg (op := 0x80) (f := .ldN8) (by decide) (fun _ _ h => by_op h rfl) d sb vo sc x hw rfl rfl
theorem ldI8 (d : VReg) (sb : SReg) (vo : VReg) (sc : Fin 8) (x : Option Word) : Statement (.ldI8 d sb vo sc x) := fun hw =>
  rt_ldg (op := 0x81) (f := .ldI8) (by decide) (fun _ _ h => by_op h rfl) d sb vo sc x hw rfl rfl
theorem ldN16 (d : VReg) (sb : SReg) (vo : VReg) (sc : Fin 8) (x : Option Word) : Statement (.ldN16 d sb vo sc x) := fun hw =>
  rt_ldg (op := 0x82) (f := .ldN16) (by decide) (fun _ _ h => by_op h rfl) d sb vo sc x hw rfl rfl
theorem ldI16 (d : VReg) (sb : SReg) (vo : VReg) (sc : Fin 8) (x : Option Word) : Statement (.ldI16 d sb vo sc x) := fun hw =>
  rt_ldg (op := 0x83) (f := .ldI16) (by decide) (fun _ _ h => by_op h rfl) d sb vo sc x hw rfl rfl
theorem ldB32 (d : VReg) (sb : SReg) (vo : VReg) (sc : Fin 8) (x : Option Word) : Statement (.ldB32 d sb vo sc x) := fun hw =>
  rt_ldg (op := 0x84) (f := .ldB32) (by decide) (fun _ _ h => by_op h rfl) d sb vo sc x hw rfl rfl
theorem ldB64 (d : VReg) (sb : SReg) (vo : VReg) (sc : Fin 8) (x : Option Word) : Statement (.ldB64 d sb vo sc x) := fun hw =>
  rt_ldg (op := 0x85) (f := .ldB64) (by decide) (fun _ _ h => by_op h rfl) d sb vo sc x hw rfl rfl
theorem ldB128 (d : VReg) (sb : SReg) (vo : VReg) (sc : Fin 8) (x : Option Word) : Statement (.ldB128 d sb vo sc x) := fun hw =>
  rt_ldg (op := 0x86) (f := .ldB128) (by decide) (fun _ _ h => by_op h rfl) d sb vo sc x hw rfl rfl
theorem stB8 (d : VReg) (sb : SReg) (vo : VReg) (sc : Fin 8) (x : Option Word) : Statement (.stB8 d sb vo sc x) := fun hw =>
  rt_stg (op := 0x87) (f := .stB8) (by decide) (fun _ _ h => by_op h rfl) d sb vo sc x hw rfl rfl
theorem stB16 (d : VReg) (sb : SReg) (vo : VReg) (sc : Fin 8) (x : Option Word) : Statement (.stB16 d sb vo sc x) := fun hw =>
  rt_stg (op := 0x88) (f := .stB16) (by decide) (fun _ _ h => by_op h rfl) d sb vo sc x hw rfl rfl
theorem stB32 (d : VReg) (sb : SReg) (vo : VReg) (sc : Fin 8) (x : Option Word) : Statement (.stB32 d sb vo sc x) := fun hw =>
  rt_stg (op := 0x89) (f := .stB32) (by decide) (fun _ _ h => by_op h rfl) d sb vo sc x hw rfl rfl
theorem stB64 (d : VReg) (sb : SReg) (vo : VReg) (sc : Fin 8) (x : Option Word) : Statement (.stB64 d sb vo sc x) := fun hw =>
  rt_stg (op := 0x8A) (f := .stB64) (by decide) (fun _ _ h => by_op h rfl) d sb vo sc x hw rfl rfl
theorem stB128 (d : VReg) (sb : SReg) (vo : VReg) (sc : Fin 8) (x : Option Word) : Statement (.stB128 d sb vo sc x) := fun hw =>
  rt_stg (op := 0x8B) (f := .stB128) (by decide) (fun _ _ h => by_op h rfl) d sb vo sc x hw rfl rfl
theorem ldLane (d : VReg) (vo : VReg) (wd : Fin 8) (x : Option Word) : Statement (.ldLane d vo wd x) := fun hw =>
  rt_local (op := 0x8C) (f := .ldLane) (by decide) (fun _ _ h => by_op h rfl) d vo wd x hw rfl rfl
theorem stLane (d : VReg) (vo : VReg) (wd : Fin 8) (x : Option Word) : Statement (.stLane d vo wd x) := fun hw =>
  rt_local (op := 0x8D) (f := .stLane) (by decide) (fun _ _ h => by_op h rfl) d vo wd x hw rfl rfl
theorem ldSp (d : VReg) (vo : VReg) (wd : Fin 8) (x : Option Word) : Statement (.ldSp d vo wd x) := fun hw =>
  rt_local (op := 0x8E) (f := .ldSp) (by decide) (fun _ _ h => by_op h rfl) d vo wd x hw rfl rfl
theorem stSp (d : VReg) (vo : VReg) (wd : Fin 8) (x : Option Word) : Statement (.stSp d vo wd x) := fun hw =>
  rt_local (op := 0x8F) (f := .stSp) (by decide) (fun _ _ h => by_op h rfl) d vo wd x hw rfl rfl
theorem ldCm (d : VReg) (vo : VReg) (wd : Fin 8) (x : Option Word) : Statement (.ldCm d vo wd x) := fun hw =>
  rt_local (op := 0x90) (f := .ldCm) (by decide) (fun _ _ h => by_op h rfl) d vo wd x hw rfl rfl
theorem stCm (d : VReg) (vo : VReg) (wd : Fin 8) (x : Option Word) : Statement (.stCm d vo wd x) := fun hw =>
  rt_local (op := 0x91) (f := .stCm) (by decide) (fun _ _ h => by_op h rfl) d vo wd x hw rfl rfl
theorem ldCst (d : VReg) (vo : VReg) (wd : Fin 8) (x : Option Word) : Statement (.ldCst d vo wd x) := fun hw =>
  rt_local (op := 0x92) (f := .ldCst) (by decide) (fun _ _ h => by_op h rfl) d vo wd x hw rfl rfl
theorem stCst (d : VReg) (vo : VReg) (wd : Fin 8) (x : Option Word) : Statement (.stCst d vo wd x) := fun hw =>
  rt_local (op := 0x93) (f := .stCst) (by decide) (fun _ _ h => by_op h rfl) d vo wd x hw rfl rfl
theorem sldB32 (d : SReg) (sb : SReg) (sc : Fin 8) (x : Option Word) : Statement (.sldB32 d sb sc x) := fun hw =>
  rt_sldst (op := 0x94) (f := .sldB32) (by decide) (fun _ _ h => by_op h rfl) d sb sc x hw rfl rfl
theorem sstB32 (d : SReg) (sb : SReg) (sc : Fin 8) (x : Option Word) : Statement (.sstB32 d sb sc x) := fun hw =>
  rt_sldst (op := 0x95) (f := .sstB32) (by decide) (fun _ _ h => by_op h rfl) d sb sc x hw rfl rfl
theorem pf (sb : SReg) (vo : VReg) (sc : Fin 8) (x : Option Word) : Statement (.pf sb vo sc x) := fun hw =>
  rt_pf (op := 0x96) (f := .pf) (by decide) (fun _ _ h => by_op h rfl) sb vo sc x hw rfl rfl
theorem cinv (sb : SReg) (vo : VReg) (x : Option Word) : Statement (.cinv sb vo x) := fun hw =>
  rt_cinv (op := 0x97) (f := .cinv) (by decide) (fun _ _ h => by_op h rfl) sb vo x hw rfl rfl
theorem xprobe (d : SReg) (sb : SReg) (x : Option Word) : Statement (.xprobe d sb x) := fun hw =>
  rt_xprobe (op := 0x98) (f := .xprobe) (by decide) (fun _ _ h => by_op h rfl) d sb x hw rfl rfl
theorem xinfo (d : SReg) (sb : SReg) (sel : Fin 8) : Statement (.xinfo d sb sel) := fun hw =>
  rt_xsel (op := 0x99) (f := .xinfo) (by decide) (fun _ _ h => by_op h rfl) d sb sel hw rfl
theorem hpin (d : SReg) (sb : SReg) : Statement (.hpin d sb) := fun hw =>
  rt_xres (op := 0x9A) (f := .hpin) (by decide) (fun _ _ h => by_op h rfl) d sb hw rfl
theorem hdemote (d : SReg) (sb : SReg) : Statement (.hdemote d sb) := fun hw =>
  rt_xres (op := 0x9B) (f := .hdemote) (by decide) (fun _ _ h => by_op h rfl) d sb hw rfl
theorem hprio (d : SReg) (sb : SReg) (sel : Fin 8) : Statement (.hprio d sb sel) := fun hw =>
  rt_xsel (op := 0x9C) (f := .hprio) (by decide) (fun _ _ h => by_op h rfl) d sb sel hw rfl
theorem hunpin (d : SReg) (sb : SReg) : Statement (.hunpin d sb) := fun hw =>
  rt_xres (op := 0x9D) (f := .hunpin) (by decide) (fun _ _ h => by_op h rfl) d sb hw rfl
theorem atomAddI32 (d : VReg) (sb : SReg) (vo : VReg) (sc : Fin 8) (x : Option Word) : Statement (.atomAddI32 d sb vo sc x) := fun hw =>
  rt_atom (op := 0xA0) (f := .atomAddI32) (by decide) (fun _ _ h => by_op h rfl) d sb vo sc x hw rfl rfl
theorem atomAddF32 (d : VReg) (sb : SReg) (vo : VReg) (sc : Fin 8) (x : Option Word) : Statement (.atomAddF32 d sb vo sc x) := fun hw =>
  rt_atom (op := 0xA1) (f := .atomAddF32) (by decide) (fun _ _ h => by_op h rfl) d sb vo sc x hw rfl rfl
theorem atomMinI32 (d : VReg) (sb : SReg) (vo : VReg) (sc : Fin 8) (x : Option Word) : Statement (.atomMinI32 d sb vo sc x) := fun hw =>
  rt_atom (op := 0xA2) (f := .atomMinI32) (by decide) (fun _ _ h => by_op h rfl) d sb vo sc x hw rfl rfl
theorem atomMaxI32 (d : VReg) (sb : SReg) (vo : VReg) (sc : Fin 8) (x : Option Word) : Statement (.atomMaxI32 d sb vo sc x) := fun hw =>
  rt_atom (op := 0xA3) (f := .atomMaxI32) (by decide) (fun _ _ h => by_op h rfl) d sb vo sc x hw rfl rfl
theorem atomMinN32 (d : VReg) (sb : SReg) (vo : VReg) (sc : Fin 8) (x : Option Word) : Statement (.atomMinN32 d sb vo sc x) := fun hw =>
  rt_atom (op := 0xA4) (f := .atomMinN32) (by decide) (fun _ _ h => by_op h rfl) d sb vo sc x hw rfl rfl
theorem atomMaxN32 (d : VReg) (sb : SReg) (vo : VReg) (sc : Fin 8) (x : Option Word) : Statement (.atomMaxN32 d sb vo sc x) := fun hw =>
  rt_atom (op := 0xA5) (f := .atomMaxN32) (by decide) (fun _ _ h => by_op h rfl) d sb vo sc x hw rfl rfl
theorem atomAndB32 (d : VReg) (sb : SReg) (vo : VReg) (sc : Fin 8) (x : Option Word) : Statement (.atomAndB32 d sb vo sc x) := fun hw =>
  rt_atom (op := 0xA6) (f := .atomAndB32) (by decide) (fun _ _ h => by_op h rfl) d sb vo sc x hw rfl rfl
theorem atomOrB32 (d : VReg) (sb : SReg) (vo : VReg) (sc : Fin 8) (x : Option Word) : Statement (.atomOrB32 d sb vo sc x) := fun hw =>
  rt_atom (op := 0xA7) (f := .atomOrB32) (by decide) (fun _ _ h => by_op h rfl) d sb vo sc x hw rfl rfl
theorem atomXchgB32 (d : VReg) (sb : SReg) (vo : VReg) (sc : Fin 8) (x : Option Word) : Statement (.atomXchgB32 d sb vo sc x) := fun hw =>
  rt_atom (op := 0xA8) (f := .atomXchgB32) (by decide) (fun _ _ h => by_op h rfl) d sb vo sc x hw rfl rfl
theorem atomCasB32 (d : VReg) (sb : SReg) (vo : VReg) (sc : Fin 8) (x : Option Word) : Statement (.atomCasB32 d sb vo sc x) := fun hw =>
  rt_atom (op := 0xA9) (f := .atomCasB32) (by decide) (fun _ _ h => by_op h rfl) d sb vo sc x hw rfl rfl
theorem atomAddI64 (d : VReg) (sb : SReg) (vo : VReg) (sc : Fin 8) (x : Option Word) : Statement (.atomAddI64 d sb vo sc x) := fun hw =>
  rt_atom (op := 0xAA) (f := .atomAddI64) (by decide) (fun _ _ h => by_op h rfl) d sb vo sc x hw rfl rfl
theorem atomXchgB64 (d : VReg) (sb : SReg) (vo : VReg) (sc : Fin 8) (x : Option Word) : Statement (.atomXchgB64 d sb vo sc x) := fun hw =>
  rt_atom (op := 0xAB) (f := .atomXchgB64) (by decide) (fun _ _ h => by_op h rfl) d sb vo sc x hw rfl rfl
theorem atomCasB64 (d : VReg) (sb : SReg) (vo : VReg) (sc : Fin 8) (x : Option Word) : Statement (.atomCasB64 d sb vo sc x) := fun hw =>
  rt_atom (op := 0xAC) (f := .atomCasB64) (by decide) (fun _ _ h => by_op h rfl) d sb vo sc x hw rfl rfl
theorem atomCasB128 (d : VReg) (sb : SReg) (vo : VReg) (sc : Fin 8) (x : Option Word) : Statement (.atomCasB128 d sb vo sc x) := fun hw =>
  rt_atom (op := 0xAD) (f := .atomCasB128) (by decide) (fun _ _ h => by_op h rfl) d sb vo sc x hw rfl rfl
theorem bredAddF32 (d : VReg) (sb : SReg) (vo : VReg) (sc : Fin 8) (x : Option Word) : Statement (.bredAddF32 d sb vo sc x) := fun hw =>
  rt_bred (op := 0xAE) (f := .bredAddF32) (by decide) (fun _ _ h => by_op h rfl) d sb vo sc x hw rfl rfl
theorem ldBnd (d : VReg) (sb : SReg) (vo : VReg) (sc : Fin 8) (x : Option Word) : Statement (.ldBnd d sb vo sc x) := fun hw =>
  rt_ldbnd (op := 0xAF) (f := .ldBnd) (by decide) (fun _ _ h => by_op h rfl) d sb vo sc x hw rfl rfl
theorem barInit (sb sv d : SReg) (sc : Fin 8) : Statement (.barInit sb sv d sc) := fun hw =>
  rt_barInit (op := 0xB0) (f := .barInit) (by decide) (fun _ _ h => by_op h rfl) sb sv d sc hw rfl
theorem barArrive (sb sv d : SReg) : Statement (.barArrive sb sv d) := fun hw =>
  rt_bar (op := 0xB1) (f := .barArrive) (by decide) (fun _ _ h => by_op h rfl) sb sv d hw rfl
theorem barExpect (sb sv d : SReg) : Statement (.barExpect sb sv d) := fun hw =>
  rt_bar (op := 0xB2) (f := .barExpect) (by decide) (fun _ _ h => by_op h rfl) sb sv d hw rfl
theorem barWait (sb sv d : SReg) : Statement (.barWait sb sv d) := fun hw =>
  rt_bar (op := 0xB3) (f := .barWait) (by decide) (fun _ _ h => by_op h rfl) sb sv d hw rfl
theorem barTest (sb sv d : SReg) : Statement (.barTest sb sv d) := fun hw =>
  rt_bar (op := 0xB4) (f := .barTest) (by decide) (fun _ _ h => by_op h rfl) sb sv d hw rfl
theorem barDrop (sb d : SReg) : Statement (.barDrop sb d) := fun hw =>
  rt_barDrop (op := 0xB5) (f := .barDrop) (by decide) (fun _ _ h => by_op h rfl) sb d hw rfl
theorem wait (ld st : Fin 32) (cp tl rm sc : Fin 8) : Statement (.wait ld st cp tl rm sc) := fun hw =>
  rt_wait (op := 0xB6) (f := .wait) (by decide) (fun _ _ h => by_op h rfl) ld st cp tl rm sc hw rfl
theorem bdrain (sc : Fin 8) : Statement (.bdrain sc) := fun hw =>
  rt_bdrain (op := 0xB7) (f := .bdrain) (by decide) (fun _ _ h => by_op h rfl) sc hw rfl
theorem rldB32 (d : VReg) (sb : SReg) (vp : VReg) (sc : Fin 8) (x : Option Word) : Statement (.rldB32 d sb vp sc x) := fun hw =>
  rt_rld (op := 0xB8) (f := .rldB32) (by decide) (fun _ _ h => by_op h rfl) d sb vp sc x hw rfl rfl
theorem rldB64 (d : VReg) (sb : SReg) (vp : VReg) (sc : Fin 8) (x : Option Word) : Statement (.rldB64 d sb vp sc x) := fun hw =>
  rt_rld (op := 0xB9) (f := .rldB64) (by decide) (fun _ _ h => by_op h rfl) d sb vp sc x hw rfl rfl
theorem rldB128 (d : VReg) (sb : SReg) (vp : VReg) (sc : Fin 8) (x : Option Word) : Statement (.rldB128 d sb vp sc x) := fun hw =>
  rt_rld (op := 0xBA) (f := .rldB128) (by decide) (fun _ _ h => by_op h rfl) d sb vp sc x hw rfl rfl
theorem rstB32 (d : VReg) (sb : SReg) (vp : VReg) (sc : Fin 8) (x : Option Word) : Statement (.rstB32 d sb vp sc x) := fun hw =>
  rt_rst (op := 0xBB) (f := .rstB32) (by decide) (fun _ _ h => by_op h rfl) d sb vp sc x hw rfl rfl
theorem rstB64 (d : VReg) (sb : SReg) (vp : VReg) (sc : Fin 8) (x : Option Word) : Statement (.rstB64 d sb vp sc x) := fun hw =>
  rt_rst (op := 0xBC) (f := .rstB64) (by decide) (fun _ _ h => by_op h rfl) d sb vp sc x hw rfl rfl
theorem ratom (d : VReg) (sb : SReg) (vp : VReg) (sc : Fin 8) (x : Option Word) : Statement (.ratom d sb vp sc x) := fun hw =>
  rt_ratom (op := 0xBD) (f := .ratom) (by decide) (fun _ _ h => by_op h rfl) d sb vp sc x hw rfl rfl
theorem rred (d : VReg) (sb : SReg) (vp : VReg) (sc : Fin 8) (x : Option Word) : Statement (.rred d sb vp sc x) := fun hw =>
  rt_rred (op := 0xBE) (f := .rred) (by decide) (fun _ _ h => by_op h rfl) d sb vp sc x hw rfl rfl
theorem rmcast (d : VReg) (sb : SReg) (vp : VReg) (sc : Fin 8) (x : Option Word) : Statement (.rmcast d sb vp sc x) := fun hw =>
  rt_rst (op := 0xBF) (f := .rmcast) (by decide) (fun _ _ h => by_op h rfl) d sb vp sc x hw rfl rfl
theorem mmaE4m3 (t : Fin 4) (sa sw sk : SReg) (pr : Bool) : Statement (.mmaE4m3 t sa sw sk pr) := fun hw =>
  rt_mma (op := 0xC0) (f := .mmaE4m3) (by decide) (fun _ _ h => by_op h rfl) t sa sw sk pr hw rfl
theorem mmaE5m2 (t : Fin 4) (sa sw sk : SReg) (pr : Bool) : Statement (.mmaE5m2 t sa sw sk pr) := fun hw =>
  rt_mma (op := 0xC1) (f := .mmaE5m2) (by decide) (fun _ _ h => by_op h rfl) t sa sw sk pr hw rfl
theorem mmaBf16 (t : Fin 4) (sa sw sk : SReg) (pr : Bool) : Statement (.mmaBf16 t sa sw sk pr) := fun hw =>
  rt_mma (op := 0xC2) (f := .mmaBf16) (by decide) (fun _ _ h => by_op h rfl) t sa sw sk pr hw rfl
theorem mmaF16 (t : Fin 4) (sa sw sk : SReg) (pr : Bool) : Statement (.mmaF16 t sa sw sk pr) := fun hw =>
  rt_mma (op := 0xC3) (f := .mmaF16) (by decide) (fun _ _ h => by_op h rfl) t sa sw sk pr hw rfl
theorem mmaLog6 (t : Fin 4) (sa sw sk : SReg) (pr : Bool) : Statement (.mmaLog6 t sa sw sk pr) := fun hw =>
  rt_mma (op := 0xC4) (f := .mmaLog6) (by decide) (fun _ _ h => by_op h rfl) t sa sw sk pr hw rfl
theorem wbldDense (sa sw sk : SReg) : Statement (.wbldDense sa sw sk) := fun hw =>
  rt_wbld (op := 0xC5) (f := .wbldDense) (by decide) (fun _ _ h => by_op h rfl) sa sw sk hw rfl
theorem wbldSp24 (sa sw sk : SReg) : Statement (.wbldSp24 sa sw sk) := fun hw =>
  rt_wbld (op := 0xC6) (f := .wbldSp24) (by decide) (fun _ _ h => by_op h rfl) sa sw sk hw rfl
theorem wbldCb4 (sa sw sk : SReg) : Statement (.wbldCb4 sa sw sk) := fun hw =>
  rt_wbld (op := 0xC7) (f := .wbldCb4) (by decide) (fun _ _ h => by_op h rfl) sa sw sk hw rfl
theorem tzero (t : Fin 4) : Statement (.tzero t) := fun hw =>
  rt_tzero (op := 0xC8) (f := .tzero) (by decide) (fun _ _ h => by_op h rfl) t hw rfl
theorem tmov (t : Fin 4) (sa : SReg) : Statement (.tmov t sa) := fun hw =>
  rt_tmov (op := 0xC9) (f := .tmov) (by decide) (fun _ _ h => by_op h rfl) t sa hw rfl
theorem tst (t : Fin 4) (sa sk : SReg) : Statement (.tst t sa sk) := fun hw =>
  rt_tst (op := 0xCA) (f := .tst) (by decide) (fun _ _ h => by_op h rfl) t sa sk hw rfl
theorem tadd (td ts : Fin 4) : Statement (.tadd td ts) := fun hw =>
  rt_tadd (op := 0xCB) (f := .tadd) (by decide) (fun _ _ h => by_op h rfl) td ts hw rfl
theorem tld (t : Fin 4) (sa sk : SReg) : Statement (.tld t sa sk) := fun hw =>
  rt_tst (op := 0xCC) (f := .tld) (by decide) (fun _ _ h => by_op h rfl) t sa sk hw rfl
theorem cpStart (cb tk : SReg) : Statement (.cpStart cb tk) := fun hw =>
  rt_en (op := 0xD0) (f := .cpStart) (by decide) (fun _ _ h => by_op h rfl) cb tk hw rfl
theorem cpRect (cb tk : SReg) : Statement (.cpRect cb tk) := fun hw =>
  rt_en (op := 0xD1) (f := .cpRect) (by decide) (fun _ _ h => by_op h rfl) cb tk hw rfl
theorem cpFill (cb tk : SReg) : Statement (.cpFill cb tk) := fun hw =>
  rt_en (op := 0xD2) (f := .cpFill) (by decide) (fun _ _ h => by_op h rfl) cb tk hw rfl
theorem cpTier (cb tk : SReg) : Statement (.cpTier cb tk) := fun hw =>
  rt_en (op := 0xD3) (f := .cpTier) (by decide) (fun _ _ h => by_op h rfl) cb tk hw rfl
theorem xgStart (cb tk : SReg) : Statement (.xgStart cb tk) := fun hw =>
  rt_en (op := 0xD4) (f := .xgStart) (by decide) (fun _ _ h => by_op h rfl) cb tk hw rfl
theorem xgCancel (cb tk d : SReg) : Statement (.xgCancel cb tk d) := fun hw =>
  rt_xgcancel (op := 0xD5) (f := .xgCancel) (by decide) (fun _ _ h => by_op h rfl) cb tk d hw rfl
theorem tokTest (tk d : SReg) : Statement (.tokTest tk d) := fun hw =>
  rt_tok (op := 0xD6) (f := .tokTest) (by decide) (fun _ _ h => by_op h rfl) tk d hw rfl
theorem cpCancel (tk d : SReg) : Statement (.cpCancel tk d) := fun hw =>
  rt_tok (op := 0xD7) (f := .cpCancel) (by decide) (fun _ _ h => by_op h rfl) tk d hw rfl
theorem xgQuery (tk d : SReg) (sel : Fin 4) : Statement (.xgQuery tk d sel) := fun hw =>
  rt_xgquery (op := 0xD8) (f := .xgQuery) (by decide) (fun _ _ h => by_op h rfl) tk d sel hw rfl
theorem cpBcast (cb tk : SReg) : Statement (.cpBcast cb tk) := fun hw =>
  rt_en (op := 0xD9) (f := .cpBcast) (by decide) (fun _ _ h => by_op h rfl) cb tk hw rfl
theorem trap (imm : Fin 1024) : Statement (.trap imm) := fun hw =>
  rt_trap (op := 0xE0) (f := .trap) (by decide) (fun _ _ h => by_op h rfl) imm hw rfl
theorem brkpt (imm : Fin 1024) : Statement (.brkpt imm) := fun hw =>
  rt_trap (op := 0xE1) (f := .brkpt) (by decide) (fun _ _ h => by_op h rfl) imm hw rfl
theorem rdsr (d : SReg) (sel : Fin 256) : Statement (.rdsr d sel) := fun hw =>
  rt_sr (op := 0xE2) (f := .rdsr) (by decide) (fun _ _ h => by_op h rfl) d sel hw rfl
theorem wrsr (d : SReg) (sel : Fin 256) : Statement (.wrsr d sel) := fun hw =>
  rt_sr (op := 0xE3) (f := .wrsr) (by decide) (fun _ _ h => by_op h rfl) d sel hw rfl
theorem fret (mode : Fin 2) : Statement (.fret mode) := fun hw =>
  rt_fret (op := 0xE4) (f := .fret) (by decide) (fun _ _ h => by_op h rfl) mode hw rfl
theorem fkill (unit : Fin 3) : Statement (.fkill unit) := fun hw =>
  rt_fkill (op := 0xE5) (f := .fkill) (by decide) (fun _ _ h => by_op h rfl) unit hw rfl
theorem frd (d : SReg) (item : Fin 8) (lane : Fin 32) (idx : Fin 1024) : Statement (.frd d item lane idx) := fun hw =>
  rt_frd (op := 0xE6) (f := .frd) (by decide) (fun _ _ h => by_op h rfl) d item lane idx hw rfl
theorem pclr (d : SReg) (r : Fin 128) : Statement (.pclr d r) := fun hw =>
  rt_pclr (op := 0xE7) (f := .pclr) (by decide) (fun _ _ h => by_op h rfl) d r hw rfl
theorem wfetch (sg st : SReg) : Statement (.wfetch sg st) := fun hw =>
  rt_wsg (op := 0xE8) (f := .wfetch) (by decide) (fun _ _ h => by_op h rfl) sg st hw rfl
theorem hbeat : Statement (.hbeat) := fun hw =>
  rt_hbeat (op := 0xE9) (f := .hbeat) (by decide) (fun _ _ h => by_op h rfl) hw rfl
theorem rgclaim (d : SReg) (n : Fin 16) : Statement (.rgclaim d n) := fun hw =>
  rt_rg (op := 0xEA) (f := .rgclaim) (by decide) (fun _ _ h => by_op h rfl) d n hw rfl
theorem rgrel (d : SReg) (n : Fin 16) : Statement (.rgrel d n) := fun hw =>
  rt_rg (op := 0xEB) (f := .rgrel) (by decide) (fun _ _ h => by_op h rfl) d n hw rfl
theorem wdone (sg st : SReg) : Statement (.wdone sg st) := fun hw =>
  rt_wsg (op := 0xEC) (f := .wdone) (by decide) (fun _ _ h => by_op h rfl) sg st hw rfl
theorem wcond (d : SReg) (idx : Fin 16) : Statement (.wcond d idx) := fun hw =>
  rt_wcond (op := 0xED) (f := .wcond) (by decide) (fun _ _ h => by_op h rfl) d idx hw rfl
theorem wlaunch (sg st : SReg) : Statement (.wlaunch sg st) := fun hw =>
  rt_wsg (op := 0xEE) (f := .wlaunch) (by decide) (fun _ _ h => by_op h rfl) sg st hw rfl
theorem wyield (d : SReg) : Statement (.wyield d) := fun hw =>
  rt_wyield (op := 0xEF) (f := .wyield) (by decide) (fun _ _ h => by_op h rfl) d hw rfl
theorem clauseGrant (core slot : Nat) : Statement (.clauseGrant core slot) := of_event rfl
theorem rankAging (core wslot : Nat) : Statement (.rankAging core wslot) := of_event rfl
theorem impreciseFault (core bslot : Nat) (memory : Bool) (unit tile addr : Nat) : Statement (.impreciseFault core bslot memory unit tile addr) := of_event rfl
theorem ringFull (core : Nat) : Statement (.ringFull core) := of_event rfl
theorem handlerStart (core : Nat) : Statement (.handlerStart core) := of_event rfl
theorem loadComplete (req : Nat) : Statement (.loadComplete req) := of_event rfl
theorem storeComplete (req : Nat) : Statement (.storeComplete req) := of_event rfl
theorem writeThroughApply (req sector : Nat) : Statement (.writeThroughApply req sector) := of_event rfl
theorem ecbWalk (core ctx va : Nat) : Statement (.ecbWalk core ctx va) := of_event rfl
theorem portTranslate (target : PortTarget) : Statement (.portTranslate target) := of_event rfl
theorem rowRemapReloadDone (port pc : Nat) (img : BootImage) : Statement (.rowRemapReloadDone port pc img) := of_event rfl
theorem cxlMemRequest (port addr : Nat) (wr : Option (List Byte)) : Statement (.cxlMemRequest port addr wr) := of_event rfl
theorem bar2Request (port off len : Nat) (wr : Option (List Byte)) : Statement (.bar2Request port off len wr) := of_event rfl
theorem slideStart (ctx xid : Nat) : Statement (.slideStart ctx xid) := of_event rfl
theorem portSlideBegin (port ctx xid : Nat) : Statement (.portSlideBegin port ctx xid) := of_event rfl
theorem slideOpen (ctx xid : Nat) : Statement (.slideOpen ctx xid) := of_event rfl
theorem portOpen (port ctx xid : Nat) : Statement (.portOpen port ctx xid) := of_event rfl
theorem portOpenAck (port ctx xid : Nat) : Statement (.portOpenAck port ctx xid) := of_event rfl
theorem slideCopy (ctx xid : Nat) : Statement (.slideCopy ctx xid) := of_event rfl
theorem slideAdvance (ctx xid : Nat) : Statement (.slideAdvance ctx xid) := of_event rfl
theorem portAdvance (port ctx xid : Nat) : Statement (.portAdvance port ctx xid) := of_event rfl
theorem slideClose (ctx xid : Nat) : Statement (.slideClose ctx xid) := of_event rfl
theorem portClose (port ctx xid : Nat) : Statement (.portClose port ctx xid) := of_event rfl
theorem slideCommit (ctx xid : Nat) : Statement (.slideCommit ctx xid) := of_event rfl
theorem portCommit (port ctx xid : Nat) : Statement (.portCommit port ctx xid) := of_event rfl
theorem slideAckTimeout (ctx xid : Nat) : Statement (.slideAckTimeout ctx xid) := of_event rfl
theorem residencyDemote (ctx xid : Nat) : Statement (.residencyDemote ctx xid) := of_event rfl
theorem residencyPromote (ctx xid : Nat) : Statement (.residencyPromote ctx xid) := of_event rfl
theorem retireAccessesDrained (ctx xid : Nat) : Statement (.retireAccessesDrained ctx xid) := of_event rfl
theorem arrivalCounted (core wslot : Nat) : Statement (.arrivalCounted core wslot) := of_event rfl
theorem blockedWordResume (core wslot split : Nat) : Statement (.blockedWordResume core wslot split) := of_event rfl
theorem ownershipRequest (core line : Nat) : Statement (.ownershipRequest core line) := of_event rfl
theorem recallLine (line : Nat) : Statement (.recallLine line) := of_event rfl
theorem lineSurrender (line : Nat) : Statement (.lineSurrender line) := of_event rfl
theorem directoryMerge (slice base size : Nat) : Statement (.directoryMerge slice base size) := of_event rfl
theorem l1Eviction (core line : Nat) : Statement (.l1Eviction core line) := of_event rfl
theorem cxlCacheResponse (line : Nat) (exclusive : Bool) : Statement (.cxlCacheResponse line exclusive) := of_event rfl
theorem snpdata (line : Nat) : Statement (.snpdata line) := of_event rfl
theorem snpinv (line : Nat) : Statement (.snpinv line) := of_event rfl
theorem atomicopCompletion (req lane : Nat) (resp : PcieResp) : Statement (.atomicopCompletion req lane resp) := of_event rfl
theorem shareReq (msg : Nat) : Statement (.shareReq msg) := of_event rfl
theorem grant (msg : Nat) : Statement (.grant msg) := of_event rfl
theorem add (msg : Nat) : Statement (.add msg) := of_event rfl
theorem drain (msg : Nat) : Statement (.drain msg) := of_event rfl
theorem fdrain (msg : Nat) : Statement (.fdrain msg) := of_event rfl
theorem bload (msg : Nat) : Statement (.bload msg) := of_event rfl
theorem bvalue (msg : Nat) : Statement (.bvalue msg) := of_event rfl
theorem copyPiece (op j : Nat) : Statement (.copyPiece op j) := of_event rfl
theorem copyComplete (op : Nat) : Statement (.copyComplete op) := of_event rfl
theorem exchangeRunEmit (part : Nat) : Statement (.exchangeRunEmit part) := of_event rfl
theorem exchangeRun (pkt : Nat) : Statement (.exchangeRun pkt) := of_event rfl
theorem runAcknowledgment (pkt : Nat) : Statement (.runAcknowledgment pkt) := of_event rfl
theorem runResend (part j : Nat) : Statement (.runResend part j) := of_event rfl
theorem exchangeEnd (pkt : Nat) : Statement (.exchangeEnd pkt) := of_event rfl
theorem exchangePartComplete (part : Nat) : Statement (.exchangePartComplete part) := of_event rfl
theorem xgCancelComplete (part : Nat) : Statement (.xgCancelComplete part) := of_event rfl
theorem matrixComplete (op : Nat) : Statement (.matrixComplete op) := of_event rfl
theorem remoteReplay (core wslot : Nat) : Statement (.remoteReplay core wslot) := of_event rfl
theorem remoteRequest (pkt : Nat) : Statement (.remoteRequest pkt) := of_event rfl
theorem remoteReply (pkt : Nat) : Statement (.remoteReply pkt) := of_event rfl
theorem remoteAcknowledgment (pkt : Nat) : Statement (.remoteAcknowledgment pkt) := of_event rfl
theorem refusal (pkt : Nat) : Statement (.refusal pkt) := of_event rfl
theorem responseTimeout (replay lane : Nat) : Statement (.responseTimeout replay lane) := of_event rfl
theorem postedTimeout (post : Nat) : Statement (.postedTimeout post) := of_event rfl
theorem flitReceive (plane : Nat) (bytes : List Byte) : Statement (.flitReceive plane bytes) := of_event rfl
theorem replayRequest (plane : Nat) : Statement (.replayRequest plane) := of_event rfl
theorem heartbeat (plane : Nat) : Statement (.heartbeat plane) := of_event rfl
theorem linkRetrain (plane init : Nat) : Statement (.linkRetrain plane init) := of_event rfl
theorem linkIdleTimeout (plane : Nat) : Statement (.linkIdleTimeout plane) := of_event rfl
theorem linkDown (plane : Nat) : Statement (.linkDown plane) := of_event rfl
theorem idleFlit (plane : Nat) : Statement (.idleFlit plane) := of_event rfl
theorem throttleProposal (group member window mhz : Nat) : Statement (.throttleProposal group member window mhz) := of_event rfl
theorem energyWindow (meas : EnergyMeas) : Statement (.energyWindow meas) := of_event rfl
theorem doorbell (port q tail : Nat) : Statement (.doorbell port q tail) := of_event rfl
theorem queueTake (part : Nat) : Statement (.queueTake part) := of_event rfl
theorem priorityAging (task : Nat) : Statement (.priorityAging task) := of_event rfl
theorem taskDue (part : Nat) : Statement (.taskDue part) := of_event rfl
theorem dispatchDecision (cluster : Nat) : Statement (.dispatchDecision cluster) := of_event rfl
theorem warpFree (core wslot : Nat) (counts : List Nat) : Statement (.warpFree core wslot counts) := of_event rfl
theorem taskRetire (task : Nat) : Statement (.taskRetire task) := of_event rfl
theorem preemptionStarvation (task : Nat) : Statement (.preemptionStarvation task) := of_event rfl
theorem saveComplete (group : Nat) : Statement (.saveComplete group) := of_event rfl
theorem rldSaveTimeout (group : Nat) : Statement (.rldSaveTimeout group) := of_event rfl
theorem watchdogExpire (block : Nat) : Statement (.watchdogExpire block) := of_event rfl
theorem claimGrant (block : Nat) : Statement (.claimGrant block) := of_event rfl
theorem wyieldRelease (block : Nat) : Statement (.wyieldRelease block) := of_event rfl
theorem wfetchFill (idx : Nat) : Statement (.wfetchFill idx) := of_event rfl
theorem auditReplay (idx core : Nat) : Statement (.auditReplay idx core) := of_event rfl
theorem auditReplayEnd (idx : Nat) : Statement (.auditReplayEnd idx) := of_event rfl
theorem scrubRead (port : Nat) : Statement (.scrubRead port) := of_event rfl
theorem scrubWrite (port : Nat) : Statement (.scrubWrite port) := of_event rfl
theorem powerDownEntry (port pc : Nat) : Statement (.powerDownEntry port pc) := of_event rfl
theorem selfRefreshEntry (port pc : Nat) : Statement (.selfRefreshEntry port pc) := of_event rfl
theorem hbmThermalBand (stack temp : Nat) : Statement (.hbmThermalBand stack temp) := of_event rfl
theorem inletOvertemp (inlet junction : Nat) : Statement (.inletOvertemp inlet junction) := of_event rfl
theorem hostPortDown (port : Nat) : Statement (.hostPortDown port) := of_event rfl
theorem cxlPortWaitTimeout (req : Nat) : Statement (.cxlPortWaitTimeout req) := of_event rfl
theorem reset : Statement (.reset) := of_event rfl
theorem bootStep (img : BootImage) : Statement (.bootStep img) := of_event rfl
theorem bar0Write (port off : Nat) (value : DWord) : Statement (.bar0Write port off value) := of_event rfl
theorem extentCreate : Statement (.extentCreate) := of_event rfl
theorem extentRetire : Statement (.extentRetire) := of_event rfl
theorem hostWindowWrite : Statement (.hostWindowWrite) := of_event rfl
theorem rcbWrite : Statement (.rcbWrite) := of_event rfl
theorem membershipTableEntry : Statement (.membershipTableEntry) := of_event rfl
theorem groupTableEntry : Statement (.groupTableEntry) := of_event rfl
theorem faultFrameAnswer : Statement (.faultFrameAnswer) := of_event rfl
theorem preemptionRequest : Statement (.preemptionRequest) := of_event rfl
theorem regionKill : Statement (.regionKill) := of_event rfl
theorem attestationQuote : Statement (.attestationQuote) := of_event rfl
theorem acceptWork : Statement (.acceptWork) := of_event rfl
theorem demotionPool : Statement (.demotionPool) := of_event rfl
theorem pinQuota : Statement (.pinQuota) := of_event rfl
theorem auditSetting : Statement (.auditSetting) := of_event rfl
theorem physicalCopy : Statement (.physicalCopy) := of_event rfl
theorem unknownCommand : Statement (.unknownCommand) := of_event rfl
theorem hostPortUp (port : Nat) : Statement (.hostPortUp port) := of_event rfl
theorem channelExit (port pc : Nat) : Statement (.channelExit port pc) := of_event rfl

end Sys2Proof.Laws.Encoding
end

