-- ==== Sys2Proof/Tests/Slice0.lean ====
section
/-! SUPPORT. The model's own tests: words written out from the encoding tables of the spec decode to their instructions, ill-formed
terms are refused, results that the spec works out are the model's, and each hypothesis of a statement is met somewhere. -/
namespace Sys2Proof.Tests
open Sys2Proof.Machine
set_option maxRecDepth 20000
set_option Elab.async false

/-! ### Every word of the table, written from its encoding, decodes to its instruction -/

def words_scalar_and_branch : List (List Word × Instr) := [
  ([0x00A21BFC, 0x1234ABCD], .sadd 40 (.s 6) (.lit 0x1234ABCD)),
  ([0x01A21B0C], .ssub 40 (.s 6) (.int 3)),
  ([0x02A21B94], .smul 40 (.s 6) (.fc 5)),
  ([0x03A21B0C], .smulhi 40 (.s 6) (.int 3)),
  ([0x04A21B94], .sand 40 (.s 6) (.fc 5)),
  ([0x05A21BFC, 0x1234ABCD], .sor 40 (.s 6) (.lit 0x1234ABCD)),
  ([0x06A21B94], .sxor 40 (.s 6) (.fc 5)),
  ([0x07A21B0C], .sshl 40 (.s 6) (.int 3)),
  ([0x08A21B94], .sshr 40 (.s 6) (.fc 5)),
  ([0x09A21B0C], .ssra 40 (.s 6) (.int 3)),
  ([0x0AA21BFC, 0x1234ABCD], .smin 40 (.s 6) (.lit 0x1234ABCD)),
  ([0x0BA21B0C], .smax 40 (.s 6) (.int 3)),
  ([0x0C261B94], .scmp 9 (.s 6) (.fc 5)),
  ([0x0DA21B0C], .ssel 40 (.s 6) (.int 3)),
  ([0x0EA21B0C], .sadd64 40 (.s 6) (.int 3)),
  ([0x0FA21800], .smov 40 (.s 6)),
  ([0x100FFFFE], .jmp 0xFFFFE),
  ([0x111FFFFE], .bscc true 0xFFFFE),
  ([0x126FFFFE], .bdiv 3 false 0xFFFFE),
  ([0x137FFFFE], .bany 3 true 0xFFFFE),
  ([0x146FFFFE], .ball 3 false 0xFFFFE),
  ([0x150FFFFE], .join 0xFFFFE),
  ([0x166FFFFE], .brk 3 false 0xFFFFE),
  ([0x170FFFFE], .call 0xFFFFE),
  ([0x18000000], .ret),
  ([0x19000000], .exit),
  ([0x1A141C08], .mand 5 7 2),
  ([0x1B141C08], .mor 5 7 2),
  ([0x1C141C08], .mxor 5 7 2),
  ([0x1D141C08], .mandn 5 7 2),
  ([0x1E140000], .mfrom 5),
  ([0x1F141C00], .mto 5 7)]

theorem test_decode_scalar_and_branch : words_scalar_and_branch.all (fun p => decide ((decode p.1).toOption = some (p.2, []))) = true := by decide +kernel

def words_vector_integer_and_float : List (List Word × Instr) := [
  ([0x205013CA], .vaddI32 40 (.v 9) (.fc 5) false),
  ([0x2151D187], .vsubI32 40 (.sp .lane) (.int 3) true),
  ([0x225013CA], .vmulI32 40 (.v 9) (.fc 5) false),
  ([0x235013FF, 0x1234ABCD], .vmulhiI32 40 (.v 9) (.lit 0x1234ABCD) true),
  ([0x2451D1CA], .vmulhiN32 40 (.sp .lane) (.fc 5) false),
  ([0x25501387], .vmadI32 40 (.v 9) (.int 3) true),
  ([0x265013CA], .vandB32 40 (.v 9) (.fc 5) false),
  ([0x2751D187], .vorB32 40 (.sp .lane) (.int 3) true),
  ([0x285013FE, 0x1234ABCD], .vxorB32 40 (.v 9) (.lit 0x1234ABCD) false),
  ([0x29501387], .vshlB32 40 (.v 9) (.int 3) true),
  ([0x2A51D1CA], .vshrN32 40 (.sp .lane) (.fc 5) false),
  ([0x2B501387], .vshrI32 40 (.v 9) (.int 3) true),
  ([0x2C5013CA], .vminI32 40 (.v 9) (.fc 5) false),
  ([0x2D51D1FF, 0x1234ABCD], .vminN32 40 (.sp .lane) (.lit 0x1234ABCD) true),
  ([0x2E5013CA], .vmaxI32 40 (.v 9) (.fc 5) false),
  ([0x2F501387], .vmaxN32 40 (.v 9) (.int 3) true),
  ([0x3051D1CA], .vaddF32 40 (.sp .lane) (.fc 5) false),
  ([0x31501387], .vfmaF32 40 (.v 9) (.int 3) true),
  ([0x325013FE, 0x1234ABCD], .vsubF32 40 (.v 9) (.lit 0x1234ABCD) false),
  ([0x3351D187], .vmulF32 40 (.sp .lane) (.int 3) true),
  ([0x345013CA], .vminF32 40 (.v 9) (.fc 5) false),
  ([0x35501387], .vmaxF32 40 (.v 9) (.int 3) true),
  ([0x3651D000], .vrcpF32 40 (.sp .lane) false),
  ([0x37501201], .vrsqrtF32 40 (.v 9) true),
  ([0x38501200], .vsqrtF32 40 (.v 9) false),
  ([0x3951D001], .vexp2F32 40 (.sp .lane) true),
  ([0x3A501200], .vlog2F32 40 (.v 9) false),
  ([0x3B501201], .vabsF32 40 (.v 9) true),
  ([0x3C51D000], .vnegF32 40 (.sp .lane) false),
  ([0x3D501387], .vfmsF32 40 (.v 9) (.int 3) true),
  ([0x3E501240], .vrndF32 40 (.v 9) 2 false),
  ([0x3F51D001], .vclassF32 40 (.sp .lane) true),
  ([0x405013CA], .vaddF16 40 (.v 9) (.fc 5) false),
  ([0x415013FF, 0x1234ABCD], .vfmaF16 40 (.v 9) (.lit 0x1234ABCD) true),
  ([0x4251D1CA], .vmulF16 40 (.sp .lane) (.fc 5) false),
  ([0x43501387], .vaddBf16 40 (.v 9) (.int 3) true),
  ([0x445013CA], .vfmaBf16 40 (.v 9) (.fc 5) false),
  ([0x4551D187], .vmulBf16 40 (.sp .lane) (.int 3) true),
  ([0x46501200], .vmovB32 40 (.v 9) false),
  ([0x47501201], .vpopcB32 40 (.v 9) true),
  ([0x4851D000], .vclzB32 40 (.sp .lane) false),
  ([0x49501201], .vbrevB32 40 (.v 9) true),
  ([0x4A5013CA], .vdot4I8 40 (.v 9) (.fc 5) false)]

theorem test_decode_vector_integer_and_float : words_vector_integer_and_float.all (fun p => decide ((decode p.1).toOption = some (p.2, []))) = true := by decide +kernel

def words_rounding_compare_convert : List (List Word × Instr) := [
  ([0x5051D1FF, 0x1234ABCD], .vaddF32Rz 40 (.sp .lane) (.lit 0x1234ABCD) true),
  ([0x515013CA], .vaddF32Ru 40 (.v 9) (.fc 5) false),
  ([0x52501387], .vaddF32Rd 40 (.v 9) (.int 3) true),
  ([0x5351D1CA], .vsubF32Rz 40 (.sp .lane) (.fc 5) false),
  ([0x54501387], .vsubF32Ru 40 (.v 9) (.int 3) true),
  ([0x555013FE, 0x1234ABCD], .vsubF32Rd 40 (.v 9) (.lit 0x1234ABCD) false),
  ([0x5651D187], .vmulF32Rz 40 (.sp .lane) (.int 3) true),
  ([0x575013CA], .vmulF32Ru 40 (.v 9) (.fc 5) false),
  ([0x58501387], .vmulF32Rd 40 (.v 9) (.int 3) true),
  ([0x5951D1CA], .vfmaF32Rz 40 (.sp .lane) (.fc 5) false),
  ([0x5A5013FF, 0x1234ABCD], .vfmaF32Ru 40 (.v 9) (.lit 0x1234ABCD) true),
  ([0x5B5013CA], .vfmaF32Rd 40 (.v 9) (.fc 5) false),
  ([0x5C5DD187], .vcmpI32 5 6 (.sp .lane) (.int 3) true),
  ([0x5D5C13CA], .vcmpN32 5 6 (.v 9) (.fc 5) false),
  ([0x5E5C1387], .vcmpF32 5 6 (.v 9) (.int 3) true),
  ([0x5F51D1FE, 0x1234ABCD], .vselB32 40 (.sp .lane) (.lit 0x1234ABCD)),
  ([0x60501221], .vcvtF32I32 40 (.v 9) ⟨false, 1, 0⟩ true),
  ([0x61501220], .vcvtF32N32 40 (.v 9) ⟨false, 1, 0⟩ false),
  ([0x6251D121], .vcvtI32F32 40 (.sp .lane) ⟨true, 1, 0⟩ true),
  ([0x63501320], .vcvtN32F32 40 (.v 9) ⟨true, 1, 0⟩ false),
  ([0x64501329], .vcvtF16F32 40 (.v 9) ⟨true, 1, 1⟩ true),
  ([0x6551D128], .vcvtBf16F32 40 (.sp .lane) ⟨true, 1, 1⟩ false),
  ([0x66501329], .vcvtE4m3F32 40 (.v 9) ⟨true, 1, 1⟩ true),
  ([0x67501328], .vcvtE5m2F32 40 (.v 9) ⟨true, 1, 1⟩ false),
  ([0x6851D129], .vcvtLog6F32 40 (.sp .lane) ⟨true, 1, 1⟩ true),
  ([0x69501208], .vcvtF32F16 40 (.v 9) ⟨false, 0, 1⟩ false),
  ([0x6A501209], .vcvtF32Bf16 40 (.v 9) ⟨false, 0, 1⟩ true),
  ([0x6B51D008], .vcvtF32E4m3 40 (.sp .lane) ⟨false, 0, 1⟩ false),
  ([0x6C501209], .vcvtF32E5m2 40 (.v 9) ⟨false, 0, 1⟩ true),
  ([0x6D501208], .vcvtF32Log6 40 (.v 9) ⟨false, 0, 1⟩ false),
  ([0x6E502729], .vscvt 40 19 ⟨true, 1, 1⟩ true)]

theorem test_decode_rounding_compare_convert : words_rounding_compare_convert.all (fun p => decide ((decode p.1).toOption = some (p.2, []))) = true := by decide +kernel

def words_cross_lane : List (List Word × Instr) := [
  ([0x705027CA], .vshflB32 40 19 (.fc 5) false),
  ([0x71502603], .vnblB32 40 19 1 true),
  ([0x72502602], .vnbrB32 40 19 1 false),
  ([0x73502787], .vbcastB32 40 19 (.int 3) true),
  ([0x74502600], .vredAddI32 40 19 false),
  ([0x75502601], .vredAddF32 40 19 true),
  ([0x76502600], .vredMaxF32 40 19 false),
  ([0x77502601], .vredMinF32 40 19 true),
  ([0x78502600], .vscanAddI32 40 19 false),
  ([0x79502601], .vscanAddF32 40 19 true),
  ([0x7A0C1200], .vballot 6 (.v 9) false),
  ([0x7B502786], .vrdlane 40 19 (.int 3))]

theorem test_decode_cross_lane : words_cross_lane.all (fun p => decide ((decode p.1).toOption = some (p.2, []))) = true := by decide +kernel

def words_memory_and_extents : List (List Word × Instr) := [
  ([0x80505155, 0x00000010], .ldN8 40 10 21 2 (some 0x00000010)),
  ([0x81505155, 0x00000010], .ldI8 40 10 21 2 (some 0x00000010)),
  ([0x82505155, 0x00000010], .ldN16 40 10 21 2 (some 0x00000010)),
  ([0x83505155, 0x00000010], .ldI16 40 10 21 2 (some 0x00000010)),
  ([0x84505155, 0x00000010], .ldB32 40 10 21 2 (some 0x00000010)),
  ([0x85505155, 0x00000010], .ldB64 40 10 21 2 (some 0x00000010)),
  ([0x86505155, 0x00000010], .ldB128 40 10 21 2 (some 0x00000010)),
  ([0x87505155, 0x00000010], .stB8 40 10 21 2 (some 0x00000010)),
  ([0x88505155, 0x00000010], .stB16 40 10 21 2 (some 0x00000010)),
  ([0x89505155, 0x00000010], .stB32 40 10 21 2 (some 0x00000010)),
  ([0x8A505155, 0x00000010], .stB64 40 10 21 2 (some 0x00000010)),
  ([0x8B505155, 0x00000010], .stB128 40 10 21 2 (some 0x00000010)),
  ([0x8C500155, 0x00000010], .ldLane 40 21 2 (some 0x00000010)),
  ([0x8D500155, 0x00000010], .stLane 40 21 2 (some 0x00000010)),
  ([0x8E500155, 0x00000010], .ldSp 40 21 2 (some 0x00000010)),
  ([0x8F500155, 0x00000010], .stSp 40 21 2 (some 0x00000010)),
  ([0x90500155, 0x00000040], .ldCm 40 21 2 (some 0x00000040)),
  ([0x91500155, 0x00000040], .stCm 40 21 2 (some 0x00000040)),
  ([0x92500155, 0x00000010], .ldCst 40 21 2 (some 0x00000010)),
  ([0x93500155, 0x00000010], .stCst 40 21 2 (some 0x00000010)),
  ([0x94525005, 0x00000010], .sldB32 41 10 2 (some 0x00000010)),
  ([0x95525005, 0x00000010], .sstB32 41 10 2 (some 0x00000010)),
  ([0x96005155, 0x00000010], .pf 10 21 2 (some 0x00000010)),
  ([0x97005151, 0x00000010], .cinv 10 21 (some 0x00000010)),
  ([0x98505001, 0x00000010], .xprobe 40 10 (some 0x00000010)),
  ([0x99505006], .xinfo 40 10 3),
  ([0x9A505000], .hpin 40 10),
  ([0x9B505000], .hdemote 40 10),
  ([0x9C505006], .hprio 40 10 3),
  ([0x9D505000], .hunpin 40 10)]

theorem test_decode_memory_and_extents : words_memory_and_extents.all (fun p => decide ((decode p.1).toOption = some (p.2, []))) = true := by decide +kernel

def words_atomics : List (List Word × Instr) := [
  ([0xA0505155, 0x00000010], .atomAddI32 40 10 21 2 (some 0x00000010)),
  ([0xA1505155, 0x00000010], .atomAddF32 40 10 21 2 (some 0x00000010)),
  ([0xA2505155, 0x00000010], .atomMinI32 40 10 21 2 (some 0x00000010)),
  ([0xA3505155, 0x00000010], .atomMaxI32 40 10 21 2 (some 0x00000010)),
  ([0xA4505155, 0x00000010], .atomMinN32 40 10 21 2 (some 0x00000010)),
  ([0xA5505155, 0x00000010], .atomMaxN32 40 10 21 2 (some 0x00000010)),
  ([0xA6505155, 0x00000010], .atomAndB32 40 10 21 2 (some 0x00000010)),
  ([0xA7505155, 0x00000010], .atomOrB32 40 10 21 2 (some 0x00000010)),
  ([0xA8505155, 0x00000010], .atomXchgB32 40 10 21 2 (some 0x00000010)),
  ([0xA9505155, 0x00000010], .atomCasB32 40 10 21 2 (some 0x00000010)),
  ([0xAA505155, 0x00000010], .atomAddI64 40 10 21 2 (some 0x00000010)),
  ([0xAB505155, 0x00000010], .atomXchgB64 40 10 21 2 (some 0x00000010)),
  ([0xAC505155, 0x00000010], .atomCasB64 40 10 21 2 (some 0x00000010)),
  ([0xAD505155, 0x00000010], .atomCasB128 40 10 21 2 (some 0x00000010)),
  ([0xAE505155, 0x00000010], .bredAddF32 40 10 21 2 (some 0x00000010)),
  ([0xAF505155, 0x3F000000], .ldBnd 40 10 21 2 (some 0x3F000000))]

theorem test_decode_atomics : words_atomics.all (fun p => decide ((decode p.1).toOption = some (p.2, []))) = true := by decide +kernel

def words_barriers_and_remote : List (List Word × Instr) := [
  ([0xB02A1A10], .barInit 10 33 40 2),
  ([0xB12A1A00], .barArrive 10 33 40),
  ([0xB22A1A00], .barExpect 10 33 40),
  ([0xB32A1A00], .barWait 10 33 40),
  ([0xB42A1A00], .barTest 10 33 40),
  ([0xB5280A00], .barDrop 10 40),
  ([0xB6F838E8], .wait 31 0 7 0 7 2),
  ([0xB7000008], .bdrain 2),
  ([0xB8505165, 0x00000010], .rldB32 40 10 22 2 (some 0x00000010)),
  ([0xB9505165, 0x00000010], .rldB64 40 10 22 2 (some 0x00000010)),
  ([0xBA505165, 0x00000010], .rldB128 40 10 22 2 (some 0x00000010)),
  ([0xBB505165, 0x00000010], .rstB32 40 10 22 2 (some 0x00000010)),
  ([0xBC505165, 0x00000010], .rstB64 40 10 22 2 (some 0x00000010)),
  ([0xBD505165, 0xC9000000], .ratom 40 10 22 2 (some 0xC9000000)),
  ([0xBE505165, 0x81000010], .rred 40 10 22 2 (some 0x81000010)),
  ([0xBF505165, 0x00000010], .rmcast 40 10 22 2 (some 0x00000010))]

theorem test_decode_barriers_and_remote : words_barriers_and_remote.all (fun p => decide ((decode p.1).toOption = some (p.2, []))) = true := by decide +kernel

def words_matrix : List (List Word × Instr) := [
  ([0xC08C3940], .mmaE4m3 2 12 14 20 false),
  ([0xC18C3948], .mmaE5m2 2 12 14 20 true),
  ([0xC28C3940], .mmaBf16 2 12 14 20 false),
  ([0xC38C3948], .mmaF16 2 12 14 20 true),
  ([0xC48C3940], .mmaLog6 2 12 14 20 false),
  ([0xC50C3940], .wbldDense 12 14 20),
  ([0xC60C3940], .wbldSp24 12 14 20),
  ([0xC70C3940], .wbldCb4 12 14 20),
  ([0xC8800000], .tzero 2),
  ([0xC98C0000], .tmov 2 12),
  ([0xCA8C0140], .tst 2 12 20),
  ([0xCB800001], .tadd 2 1),
  ([0xCC8C0140], .tld 2 12 20)]

theorem test_decode_matrix : words_matrix.all (fun p => decide ((decode p.1).toOption = some (p.2, []))) = true := by decide +kernel

def words_engines : List (List Word × Instr) := [
  ([0xD04A5000], .cpStart 18 37),
  ([0xD14A5000], .cpRect 18 37),
  ([0xD24A5000], .cpFill 18 37),
  ([0xD34A5000], .cpTier 18 37),
  ([0xD44A5000], .xgStart 18 37),
  ([0xD54A5A00], .xgCancel 18 37 40),
  ([0xD6025A00], .tokTest 37 40),
  ([0xD7025A00], .cpCancel 37 40),
  ([0xD8025A08], .xgQuery 37 40 1),
  ([0xD94A5000], .cpBcast 18 37)]

theorem test_decode_engines : words_engines.all (fun p => decide ((decode p.1).toOption = some (p.2, []))) = true := by decide +kernel

def words_system_and_work : List (List Word × Instr) := [
  ([0xE00002A5], .trap 677),
  ([0xE10002A5], .brkpt 677),
  ([0xE2A00400], .rdsr 40 1),
  ([0xE3A00000], .wrsr 40 0),
  ([0xE4000001], .fret 1),
  ([0xE5000002], .fkill 2),
  ([0xE6A34464], .frd 40 6 17 100),
  ([0xE7A0004D], .pclr 40 77),
  ([0xE8702400], .wfetch 28 9),
  ([0xE9000000], .hbeat),
  ([0xEAA00007], .rgclaim 40 7),
  ([0xEBA00007], .rgrel 40 7),
  ([0xEC702400], .wdone 28 9),
  ([0xEDA0000B], .wcond 40 11),
  ([0xEE702400], .wlaunch 28 9),
  ([0xEFA00000], .wyield 40)]

theorem test_decode_system_and_work : words_system_and_work.all (fun p => decide ((decode p.1).toOption = some (p.2, []))) = true := by decide +kernel

/-! ### Well-formedness: an ill-formed term for each check -/

/-- 02_encoding.md R34 to R36, 05_control.md R94, 06_vector.md R130, R132, R135: operands, literals, registers, control fields. -/
theorem test_illformed_operands : [
    .sadd 0 (.v 1) (.s 2),                            -- no vector source in an SA word
    .sadd 0 (.sp .lane) (.s 2),                       -- no %lane in an SA word
    .sadd 0 (.lit 1) (.lit 2),                        -- two different literals
    .smov 0 (.v 1),
    .sadd64 1 (.s 2) (.s 4),                          -- an odd pair
    .sadd64 0 (.s 3) (.s 4),
    .sadd64 0 (.fc 1) (.s 4),                         -- no binary32 constant
    .vaddI32 0 (.lit 1) (.lit 2) false,
    .vcmpI32 6 0 (.v 0) (.v 1) false,                 -- unordered is of binary32 alone
    .vcmpN32 7 0 (.v 0) (.v 1) false,
    .vcvtF32I32 0 (.v 0) ⟨false, 0, 1⟩ false,         -- pos, mode and sat beyond what each takes
    .vcvtI32F32 0 (.v 0) ⟨false, 4, 0⟩ false,
    .vcvtF16F32 0 (.v 0) ⟨false, 0, 2⟩ false,
    .vcvtE4m3F32 0 (.v 0) ⟨false, 5, 3⟩ false,
    .vcvtF32F16 0 (.v 0) ⟨false, 1, 0⟩ false,
    .vcvtF32E4m3 0 (.v 0) ⟨true, 0, 0⟩ false,
    .vscvt 0 2 ⟨false, 4, 0⟩ false,
    .vbcastB32 0 1 (.v 2) false,                      -- an index that is not uniform
    .vrdlane 0 1 (.fc 2)].all (fun i : Instr => !i.wf) = true := by decide

/-- 02_encoding.md R36, R37, R39, R42, R43, 07_memory.md R144, R152, 12_atomics.md R250, R251: fields of memory words. -/
theorem test_illformed_memory : [
    .ldB32 0 2 0 5 none,                              -- a scope beyond 4
    .ldB32 0 3 0 0 none,                              -- an odd base pair
    .ldB64 1 2 0 0 none,                              -- a group that is not aligned
    .stB128 2 2 0 0 none,
    .ldLane 0 0 7 none,                               -- no width 7
    .stSp 0 0 5 none,                                 -- no signed width of a store
    .ldCm 0 0 2 (some 0x80000000),                    -- dx = −16
    .ldCm 0 0 2 (some 0x03000000),                    -- dy = 12
    .stCm 0 0 2 (some 0x00040000),                    -- a reserved bit
    .ldCst 0 0 2 (some 0x80000000),                   -- no cluster 4
    .stCst 0 0 2 (some 0x02000000),
    .sldB32 0 3 0 none,
    .pf 2 0 5 none,
    .cinv 3 0 none,
    .xprobe 0 3 none,
    .hpin 0 5,
    .atomAddI32 0 2 0 0 (some 0x01000000),            -- an op in a fixed atomic
    .atomAddI32 0 2 0 0 (some 0x00000100),
    .atomCasB128 4 2 0 0 none,                        -- 8 registers from v4
    .bredAddF32 0 2 0 0 (some 0x40000000),            -- no acquire
    .ldBnd 0 2 0 0 (some 0x80000001),                 -- a negative tolerance
    .ldBnd 0 2 0 0 (some 0x7F800001)].all (fun i : Instr => !i.wf) = true := by decide

/-- 02_encoding.md R38, 10_sync.md R202, 15_remote.md R287, 19_matrix.md R337, 13_engines.md R254, 11_traps.md R228 to R230,
21_work.md R378, R382: the other words. -/
theorem test_illformed_rest : [
    .barInit 0 1 2 5,
    .barArrive 0 1 1,                                 -- one register for phase and status
    .wait 1 31 7 7 7 0,                               -- a count that is neither 0 nor "none"
    .bdrain 5,
    .rldB32 0 62 0 0 none,                            -- a group past s63
    .rldB32 0 2 0x7F 0 none,                          -- no peer register
    .ratom 0 2 0 0 (some 0x0E000000),                 -- an op that ratom has not
    .ratom 1 2 0 0 (some 0x09000000),                 -- a cas of 2 registers from v1
    .rred 0 2 0 0 (some 0x08000000),
    .rred 0 2 0 0 (some 0x40000000),
    .mmaE4m3 0 62 0 0 false,
    .wbldDense 1 0 0,
    .tst 0 1 3,
    .cpStart 60 0,
    .cpRect 52 0,
    .xgStart 56 0,
    .rdsr 0 2,                                        -- no such selector
    .wrsr 0 1,
    .frd 0 3 1 0,                                     -- a lane for an item that has none
    .frd 0 4 0 8,
    .wfetch 62 0,
    .rgclaim 0 0,                                     -- a claim of nothing
    .wlaunch 3 0].all (fun i : Instr => !i.wf) = true := by decide

/-- 02_encoding.md R33, R46: an opcode that the table does not name and a nonzero unused field do not decode. -/
theorem test_words_that_do_not_decode : [
    [0x4B000000], [0x18000001], [0x19000001], [0xE9000001], [0x02A21BFC], [0xFF000000]].all
    (fun w => (decode w).toOption == none) = true := by decide +kernel

/-! ### Small states -/

/-- A warp of the full allocation with one word to issue, in slot 0 of core 0, every lane live. -/
def demo : State := State.reset.withFetchWord 32 0x0E121B3C

/-- The same with lane 0 alone. -/
def lane0 : State := demo.updHere (fun w => { w with live := 1, splits := [(0, { mask := 1, state := 1 })] })

/-- Physical memory with 64-bit words at the given addresses. -/
def mem64 (l : List (Nat × Nat)) : State → State := fun s => l.foldl (fun s p => pwrite s p.1 (leBytes 8 p.2)) s

/-- Context 0 has one extent: 4,096 bytes at 0x10000, readable and writable, with class and alias flag, placement and pin, and bound as
given (09_extents.md R173 to R176). -/
def withExtent (s : State) (cls place bound : Nat) : State :=
  let t := mem64 [(0x100000, 2 ^ 63 + 0x120000), (0x100008, 0x110000), (0x100010, 1), (0x100018, 0x10000),
    (0x110000, 2 ^ 63 + 0x10000), (0x110008, 4096 + 3 * 2 ^ 54 + cls * 2 ^ 57), (0x110010, 0x10000), (0x110020, bound * 2 ^ 32),
    (0x110028, place), (0x120000, 0x10000)]
    { s with plat := { s.plat with xroot := 0x100000, boot := 4 } }
  { t with mem := { t.mem with exts := [⟨0, 0, 0x110000, 4096, 0, 0⟩] } }

/-- Base pair s2, s3 holds the VA 0x10000 of the extent. -/
def world : State := (withExtent lane0 0 0x200000 0).updHere (fun w => w.setS 2 0x10000)

/-- A region control block at PA 0x300000 that sets every field, with a cluster-store window of 4,096 bytes and save slots, and its
fault domain at 0x310000 with a ring of 16 records at VA 0x10000 (21_work.md R356, 11_traps.md R211). -/
def withRegion : State → State :=
  mem64 [(0x300008, 0x07FF * 2 ^ 48 + 4 * 2 ^ 44), (0x300028, 0x310000), (0x300030, 4096 * 2 ^ 32), (0x300040, 0x10800),
    (0x300048, 4 + 64 * 2 ^ 32), (0x310000, 0x10000), (0x310008, 4), (0x310010, 0x10400)]

/-- The warp belongs to block 1, the one block of group 1, in the region above. -/
def inBlock (s : State) (b : Block) : State :=
  let t := withRegion (s.updHere (fun w => { w with blk := 1 }))
  { t with work := { t.work with
      blocks := [(1, { b with region := 0x300000, grp := 1 })]
      groups := [(1, { cluster := 0, x0 := 0, y0 := 0, w := 1, h := 1, task := 1, idx := 0, blocks := [1], pre := none })] } }

/-- The warp belongs to an audit replay (11_traps.md R226). -/
def replay (s : State) : State := inBlock s { auditable := true, role := .replay 0 }

/-! ### Witnesses: every hypothesis of a statement is met by a concrete state and operands -/

/-- Slot 0 holds a clause of the given header, at its first word, with a co-issue partner or without. -/
def clauseOf (hdr : Word) (p : Option (Nat × Nat)) : State :=
  demo.updCore 0 (fun c => { c with slot0 := some { demo.run with hdr := hdr, partner := p } })

theorem wit_WordsMoveTheSplitOn :
    (let s := clauseOf 0x3BFFFFCA none
     Onward (.smov 5 (.lit 7)) s (s.advance 2) ∧ s.cidx + wordsOf (.smov 5 (.lit 7)) ≤ hdrN s.run.hdr ∧ s.cidx + 2 ≤ hdrN s.run.hdr) ∧
    (∀ p ∈ [none, some (1, 2)], let s := clauseOf 0x1BFFFFCA p
     Onward (.smov 5 (.s 6)) s (s.advance 1) ∧ hdrN s.run.hdr < s.cidx + wordsOf (.smov 5 (.s 6)) ∧ s.hsplit.tv = false ∧ s.hsplit.state = 1 ∧
     s.run.partner = p) :=
  ⟨⟨⟨_, rfl, rfl, rfl, rfl, rfl⟩, by decide +kernel⟩, fun p h => ⟨⟨_, rfl, rfl, rfl, rfl, rfl⟩, by revert p h; decide +kernel⟩⟩

/-- A split whose token is a join at clause address 96, inside a call. -/
def nested : State := demo.updHere (fun w => { w with
  splits := [(0, { mask := 0xFFFFFFFF, state := 1, tv := true, td := 0 })]
  tokens := [(0, { pending := 0xFFFFFFFF, rejoin := 0xFFFFFFFF, kind := 1, pv := true, parent := 1, pc := 96 }),
    (1, { pending := 0xFFFFFFFF, rejoin := 0xFFFFFFFF, kind := 2, pc := 400 })] })

/-- Half of the lanes satisfy m3; every split entry, every token entry is in use. -/
def half (s : State) : State := s.updHere (fun w => w.setM 3 0xFF)
def splitsFull (s : State) : State :=
  let l := (List.range 7).map (fun k => (k + 1, ({ mask := 1, state := 1 } : Split)))
  s.updHere (fun w => { w with splits := w.splits ++ l })
def toksFull (s : State) : State :=
  let l := ((List.range 14).map (fun k => (k + 2, ({ kind := 1, pending := 1, rejoin := 1, pc := 4 } : Token))))
  s.updHere (fun w => { w with tokens := w.tokens ++ l })

theorem wit_DivergentBranchesKeepTheWarpData :
    (let Lt (s : State) (c : Bool) := s.hsplit.mask &&& (if c then ~~~s.hwarp.m 3 else s.hwarp.m 3)
     let Lf (s : State) (c : Bool) := s.hsplit.mask &&& ~~~(if c then ~~~s.hwarp.m 3 else s.hwarp.m 3)
     Lt demo false = 0 ∧ (Lt demo true ≠ 0 ∧ Lf demo true = 0) ∧ Lt (half nested) false ≠ 0 ∧ Lf (half nested) false ≠ 0) ∧
    (nested.hsplit.tv = true ∧ nested.target 24 = (nested.hwarp.tok nested.hsplit.td).pc ∧ nested.target 30 ≠ (nested.hwarp.tok nested.hsplit.td).pc) ∧
    (half nested).hwarp.freeSplit = some 1 ∧ (half nested).hwarp.freeTok = some 2 ∧
    ((splitsFull (half nested)).hwarp.freeSplit = none ∧ (splitsFull (half nested)).hwarp.freeTok = some 2) ∧
    ((toksFull (splitsFull (half nested))).hwarp.freeSplit = none ∧ (toksFull (splitsFull (half nested))).hwarp.freeTok = none) ∧
    nested.hwarp.findJoin (nested.target 24) (nested.hwarp.chain nested.hsplit) = some 0 ∧
    nested.hwarp.findJoin (nested.target 30) (nested.hwarp.chain nested.hsplit) = none ∧
    (nested.hwarp.chain nested.hsplit).find? (fun t => (nested.hwarp.tok t).kind == 2) = some 1 ∧
    (demo.hwarp.chain demo.hsplit).find? (fun t => (demo.hwarp.tok t).kind == 2) = none := by decide +kernel

theorem wit_RowWritesChangeOnlyVisitedLanes : (31 : Nat) < 32 := by decide

theorem wit_IntegerAndBitVectorWords :
    Clean demo [0, 1, 127] [1, 127] (demo.active true) ∧ Clean demo [5, 5, 6] [5, 6, 5] (demo.active false) :=
  ⟨⟨by decide +kernel, by decide +kernel⟩, ⟨by decide +kernel, by decide +kernel⟩⟩

theorem wit_UnaryVectorWords : Clean demo ((127 : VReg).val :: opVregs (.v 1)) (opVregs (.v 1)) (demo.active false) :=
  ⟨by decide +kernel, by decide +kernel⟩

theorem wit_Binary32VectorWords :
    Clean demo ((3 : VReg).val :: opVregs (.v 1) ++ opVregs (.fc 2)) (opVregs (.v 1) ++ opVregs (.fc 2)) (demo.active false) ∧
    Clean demo ((3 : VReg).val :: opVregs (.v 1) ++ opVregs (.s 2)) (opVregs (.v 1) ++ opVregs (.s 2) ++ [3]) (demo.active false) :=
  ⟨⟨by decide +kernel, by decide +kernel⟩, ⟨by decide +kernel, by decide +kernel⟩⟩

theorem wit_PackedHalfWords :
    Clean demo ((3 : VReg).val :: opVregs (.v 1) ++ opVregs (.v 2)) (opVregs (.v 1) ++ opVregs (.v 2)) (demo.active false) ∧
    Clean demo ((3 : VReg).val :: opVregs (.v 1) ++ opVregs (.v 2)) (opVregs (.v 1) ++ opVregs (.v 2) ++ [3]) (demo.active false) :=
  ⟨⟨by decide +kernel, by decide +kernel⟩, ⟨by decide +kernel, by decide +kernel⟩⟩

theorem wit_CompareAndSelectWords :
    (Clean demo (opVregs (.v 1) ++ opVregs (.v 2)) (opVregs (.v 1) ++ opVregs (.v 2)) (demo.active false) ∧ (5 : Fin 8).val < 6) ∧
    Clean demo ((3 : VReg).val :: opVregs (.v 1) ++ opVregs (.lit 7)) (opVregs (.v 1) ++ opVregs (.lit 7)) demo.em :=
  ⟨⟨⟨by decide +kernel, by decide +kernel⟩, by decide⟩, ⟨by decide +kernel, by decide +kernel⟩⟩

/-- s60, s61 hold the scale VA 0x10000. -/
def scaling : State := world.updHere (fun w => w.setS 60 0x10000)

theorem wit_Conversions :
    Clean demo ((3 : VReg).val :: opVregs (.v 1)) (opVregs (.v 1)) (demo.active false) ∧ (1 : Fin 4).val < 2 ∧
    3 ≤ ((demo.updHere (fun w => w.setS 62 3)).hwarp.s 62).toNat ∧
    ((scaling.hwarp.s 62).toNat < 3 ∧ Clean scaling [3, 4, 5] [4, 5] (scaling.active false) ∧
      ∃ e, accCheck scaling scaling.hcore scaling.hwarp.ctx (scaling.hwarp.pair 60).toNat 1 permR = .ok e ∧ e.sv = false ∧
        ∀ l, l < 32 → (scaling.active false).getLsbD l → (scaling.hwarp.v 5 l).toNat < e.len) :=
  ⟨⟨by decide +kernel, by decide +kernel⟩, by decide, by decide +kernel, by decide +kernel,
    ⟨by decide +kernel, by decide +kernel⟩, _, rfl, by decide +kernel, by decide +kernel⟩

/-- The extent has scale data at VA 0x10800, one code for 32 elements. -/
def scaled : State := mem64 [(0x110018, 0x10800 + 5 * 2 ^ 56 + 2 ^ 61)] scaling

theorem wit_Conversions_scaled :
    (scaled.hwarp.s 62).toNat < 3 ∧ Clean scaled [3, 4, 5] [4, 5] (scaled.active false) ∧
    ∃ e, accCheck scaled scaled.hcore scaled.hwarp.ctx (scaled.hwarp.pair 60).toNat 1 permR = .ok e ∧ e.sv = true ∧ scaled.active false ≠ 0 ∧
      (∀ l, l < 32 → (scaled.active false).getLsbD l → (scaled.hwarp.v 5 l).toNat < e.len) ∧
      globalVerdict scaled scaled.hcore scaled.hwarp.ctx scaled.hwarp ((lanesOf (scaled.active false)).map (fun l =>
        ⟨l, e.sbase + (scaled.hwarp.v 5 l).toNat / 2 ^ e.shift⟩)) 1 permR [] none = .ok :=
  ⟨by decide +kernel, ⟨by decide +kernel, by decide +kernel⟩, _, rfl, by decide +kernel, by decide +kernel, by decide +kernel, by decide +kernel⟩

theorem wit_LaneReadsAndBallot :
    demo.inRange [3, 1, 2] ∧ (∀ r ∈ opVregs (.v 2), demo.hwarp.poisoned r &&& demo.active false = 0) ∧
    (∀ l, l < 32 → (demo.active false).getLsbD l → (demo.hwarp.poisoned 1).getLsbD ((demo.opVal .raw (.v 2) l).toNat % 32) = false) ∧
    (∀ l, l < 32 → (demo.active false).getLsbD l → (demo.hwarp.poisoned 1).getLsbD ((demo.opVal .raw (.v 2) 0).toNat % 32) = false) ∧
    demo.inRange [3, 1] ∧
    (∀ l, l < 31 → (demo.active false).getLsbD (l + 1) → (demo.hwarp.poisoned 1).getLsbD l = false) ∧
    (∀ l, l < 31 → (demo.active false).getLsbD l → (demo.hwarp.poisoned 1).getLsbD (l + 1) = false) ∧
    (edgeRead (edgeWarp demo 0 (-1)) 1 31).2 = false ∧ (edgeRead (edgeWarp demo 1 1) 1 0).2 = false ∧
    demo.inRange [1] ∧ (demo.hwarp.poisoned 1).getLsbD ((demo.opVal .raw (.int 31) 0).toNat % 32) = false := by decide +kernel

theorem wit_LaneReadsAndBallot_ballot : Clean demo (opVregs (.v 1)) (opVregs (.v 1)) (demo.active true) :=
  ⟨by decide +kernel, by decide +kernel⟩

theorem wit_ReductionsAndScans : demo.inRange [3, 3] ∧ demo.hwarp.poisoned 3 &&& demo.active false = 0 := by decide +kernel

/-- One register block only; v1 is poisoned in lane 4. -/
def poisonous : State := demo.updHere (fun w => { w with alloc := 1, poison := [(1, 16)] })

theorem wit_VectorWordsTrap :
    poisonous.inRange ((8 : VReg).val :: opVregs (.v 1) ++ opVregs (.v 2)) = false ∧
    (poisonous.inRange ((7 : VReg).val :: opVregs (.v 1) ++ opVregs (.v 2)) ∧
      poisonous.poisonLanes (opVregs (.v 1) ++ opVregs (.v 2)) (poisonous.active false) ≠ 0 ∧
      poisonous.poisonLanes (opVregs (.v 1) ++ opVregs (.v 2) ++ [7]) (poisonous.active false) ≠ 0) ∧
    (poisonous.inRange (7 :: opVregs (.v 8)) = false ∧ poisonous.inRange (7 :: opVregs (.v 1)) ∧ poisonous.inRange (opVregs (.v 1)) ∧
      poisonous.poisonLanes (opVregs (.v 1)) (poisonous.active false) ≠ 0) ∧
    (poisonous.inRange (opVregs (.v 8) ++ opVregs (.v 2)) = false ∧ poisonous.inRange (opVregs (.v 1) ++ opVregs (.v 2)) ∧
      poisonous.poisonLanes (opVregs (.v 1) ++ opVregs (.v 2)) poisonous.em ≠ 0) ∧
    (poisonous.inRange (7 :: 8 :: opVregs (.v 2)) = false ∧ poisonous.inRange (7 :: 1 :: opVregs (.int 20)) ∧
      (∀ q ∈ opVregs (.int 20), poisonous.hwarp.poisoned q &&& poisonous.active false = 0) ∧ (poisonous.active false).getLsbD 9 = true ∧
      (poisonous.hwarp.poisoned 1).getLsbD ((poisonous.opVal .raw (.int 20) 9).toNat % 32) = true ∧
      (poisonous.hwarp.poisoned 1).getLsbD ((poisonous.opVal .raw (.int 20) 0).toNat % 32) = true) ∧
    (poisonous.inRange [8, 1] = false ∧ poisonous.inRange [7, 1] ∧ poisonous.hwarp.poisoned 1 &&& poisonous.active false ≠ 0) ∧
    ((poisonous.active false).getLsbD 5 = true ∧ (poisonous.hwarp.poisoned 1).getLsbD (5 - 1) = true ∧
      (poisonous.active false).getLsbD 3 = true ∧ (poisonous.hwarp.poisoned 1).getLsbD (3 + 1) = true ∧
      (let s := poisonous.updHere (fun w => { w with poison := [(1, 0x80000001)] })
       (s.active false).getLsbD 0 = true ∧ (edgeRead (edgeWarp s 1 (-1)) 1 31).2 = true ∧
       (s.active false).getLsbD 31 = true ∧ (edgeRead (edgeWarp s 1 1) 1 0).2 = true)) ∧
    (poisonous.inRange [8] = false ∧ poisonous.inRange [1] ∧ poisonous.em ≠ 0 ∧
      (poisonous.hwarp.poisoned 1).getLsbD ((poisonous.opVal .raw (.int 20) 0).toNat % 32) = true) := by
  decide +kernel

theorem wit_VectorWordsTrap_index :
    let s := poisonous.updHere (fun w => { w with poison := [(1, 16), (2, 32)] })
    ((s.hwarp.s 62).toNat < 3 ∧ s.inRange [8, 1, 1 + 1] = false ∧ s.inRange [7, 1, 1 + 1] ∧ s.poisonLanes [1, 1 + 1] (s.active false) ≠ 0) ∧
    (s.inRange [7, 1, 2] ∧ s.hwarp.poisoned 2 &&& s.active false ≠ 0) := by decide +kernel

theorem wit_GlobalAccessesEnterRequests :
    (∀ w ∈ [1, 2, 4, 8, 16], world.hwarp.ld < 30 ∧ world.inRange (voRegs 0x7F ++ groupRegs 4 w) ∧
      globalVerdict world world.hcore world.hwarp.ctx world.hwarp (world.accesses 2 0x7F 0x10) w permR (voRegs 0x7F) none = .ok) ∧
    (∀ s ∈ [world, replay world], ∀ w ∈ [1, 2, 4, 8, 16], s.hwarp.st < 30 ∧ s.inRange (voRegs 0x7F ++ groupRegs 4 w) ∧
      globalVerdict s s.hcore s.hwarp.ctx s.hwarp (s.accesses 2 0x7F 0x10) w permW (voRegs 0x7F ++ groupRegs 4 w) none = .ok) ∧
    world.hblk.isReplay = false ∧ (replay world).hblk.isReplay = true ∧
    (∀ need ∈ [permR, permW], globalVerdict world world.hcore world.hwarp.ctx world.hwarp [⟨0, 0x10FFC⟩] 4 need [] (some world.em) = .ok) := by
  decide +kernel

/-- A block with every local level: 64 bytes a lane, 1,024 scratchpad bytes. -/
def local' (r : AuditRole) : State := inBlock lane0 { lane := 64, spadLen := 1024, warps := 1, role := r, auditable := r != .none }

theorem wit_LocalAccessesEnterRequests :
    (∀ wd ∈ [(0 : Fin 8), 1, 2, 3, 4, 5, 6], (local' .none).hwarp.ld < 30 ∧
      (local' .none).inRange (voRegs 0x7F ++ groupRegs 4 (widthOf wd.val))) ∧
    (∀ lv ∈ [laneLevel (local' .none), spadLevel (local' .none), cmLevel (local' .none) 0x10, cstLevel (local' .none) 0x10],
      ∀ w ∈ [1, 2, 4, 8, 16], localVerdict (local' .none) (local' .none).hcore (local' .none).hwarp [⟨0, 0x10⟩] w false lv lv.lock (voRegs 0x7F) = .ok) ∧
    (∀ s ∈ [local' .none, local' (.replay 0)], s.hwarp.st < 30 ∧
      ∀ lv ∈ [laneLevel s, spadLevel s, cmLevel s 0x10, cstLevel s 0x10],
        ∀ w ∈ [1, 2, 4, 8, 16], localVerdict s s.hcore s.hwarp [⟨0, 0x10⟩] w true lv lv.lock (voRegs 0x7F ++ groupRegs 4 w) = .ok) := by
  decide +kernel

/-- The world's descriptor names a class that there is not: its table is corrupt. -/
def spoiled : State := mem64 [(0x110008, 4096 + 3 * 2 ^ 54 + 7 * 2 ^ 57)] world

theorem wit_PrefetchAndInvalidate : demo.inRange (voRegs 3) ∧ (1 : Fin 8) ≠ 0 ∧
    (∀ s ∈ [world, spoiled], s.inRange (voRegs 0x7F) ∧ s.em.getLsbD 0 ∧ (s.poisonLanes (voRegs 0x7F) s.em).getLsbD 0 = false) ∧
    (∀ need ∈ [permR, 0], (∀ l, l < 32 → world.em.getLsbD l → laneCorrupt world world.hcore world.hwarp.ctx (world.gaddr 2 0x7F 0 l) need = false) ∧
      laneCorrupt spoiled spoiled.hcore spoiled.hwarp.ctx (spoiled.gaddr 2 0x7F 0 0) need) ∧
    ∃ e, coreCheck world world.hcore world.hwarp.ctx (world.gaddr 2 0x7F 0 0) 1 0 = .ok e :=
  ⟨by decide +kernel, by decide, by decide +kernel, by decide +kernel, _, rfl⟩

theorem wit_MisalignedAccessTraps :
    world.hwarp.ld < 30 ∧ world.hwarp.st < 30 ∧
    (∀ w ∈ [2, 4, 8, 16], world.inRange (voRegs 0x7F ++ groupRegs 4 w) ∧
      (world.em.getLsbD 0 && decide (world.gaddr 2 0x7F 1 0 % w ≠ 0)) = true) ∧
    (let near := ((some (0x1FF : Word)).getD 0).extractLsb' 0 8 |>.toInt
     let odd := world.updHere (fun w => w.setS 2 0x10002)
     world.hblk.auditable = false ∧ (((world.sbase 2 : Int) + (2 : Word).toInt) % 2 ^ 64).toNat % 4 ≠ 0 ∧
     (∀ n ∈ [2, 4, 8, 16, 32], world.inRange (voRegs 0x7F ++ groupRegs 8 n)) ∧
     (∀ w ∈ [4, 8, 16], (world.em.getLsbD 0 && decide (world.gaddr 2 0x7F near 0 % w ≠ 0)) = true) ∧
     (odd.hwarp.ld < 30 ∧ odd.inRange (voRegs 0x7F ++ groupRegs 8 4) ∧
       (odd.em.getLsbD 0 && decide (odd.gaddr 2 0x7F 0 0 % 4 ≠ 0)) = true)) := by decide +kernel

/-- The base pair past the extent's end, an extent that may only be read, a locked byte, a poisoned data register. -/
def refused : List State := [world.updHere (fun w => w.setS 2 0x11000), mem64 [(0x110008, 4096 + 2 ^ 54)] world,
  world.updCore 0 (fun k => { k with ilt := [⟨1, true, .global 0, 0x10000, 0x10100⟩] }), world.updHere (fun w => { w with poison := [(8, 1)] })]

theorem wit_MisalignedAccessTraps_checks :
    (refused.zip [4, 5, 6, 7]).all (fun p =>
      let s := p.1
      let acc := s.accesses 2 0x7F 0
      acc.all (fun a => decide (a.va % 4 = 0 ∧ a.lane < 32) && decide (accCheck s 0 0 a.va 4 permW ≠ .corrupt)) &&
      (match globalVerdict s 0 0 s.hwarp acc 4 permW [8] none with | .fault f => f.cls == p.2 | _ => false) &&
      (p.2 == 7 || match globalVerdict s 0 0 s.hwarp [⟨0, s.sbase 2⟩] 4 permW [] (some s.em) with | .fault f => f.cls == p.2 | _ => false) &&
      [4, 8, 16, 32].all (fun n => s.inRange (voRegs 0x7F ++ groupRegs 8 n)) && decide (s.hwarp.ld < 30 ∧ s.hwarp.st < 30)) ∧
    globalVerdict world 0 0 world.hwarp (world.accesses 2 0x7F 0) 4 permW [8] none = .ok ∧ world.hblk.auditable = false := by decide +kernel

theorem wit_AtomicsAndBoundedEnterRequests :
    world.hblk.auditable = false ∧ world.hwarp.ld < 30 ∧ world.hwarp.st < 30 ∧
    (∀ p ∈ [(4, 4), (4, 8), (8, 8), (8, 16), (16, 32)], world.inRange (voRegs 0x7F ++ groupRegs 8 p.2) ∧
      globalVerdict world world.hcore world.hwarp.ctx world.hwarp (world.accesses 2 0x7F 0x10) p.1 (permR ||| permW)
        (voRegs 0x7F ++ groupRegs 8 p.2) none = .ok) ∧
    (inBlock world { auditable := true }).hblk.auditable = true ∧
    (world.inRange (voRegs 0x7F ++ [4]) ∧
      globalVerdict world world.hcore world.hwarp.ctx world.hwarp (world.accesses 2 0x7F (-0)) 4 permW (voRegs 0x7F ++ [4]) none = .ok ∧
      globalVerdict world world.hcore world.hwarp.ctx world.hwarp (world.accesses 2 0x7F 0) 4 permR (voRegs 0x7F) none = .ok) := by
  decide +kernel

/-- The world with the extent of class and alias flag `cls`, placed at `place`. -/
def worldOf (cls place : Nat) : State := (withExtent lane0 cls place 0).updHere (fun w => w.setS 2 0x10000)

/-- The descriptor of the world's extent, and a slide of it. -/
def descOf (s : State) : Desc := extDesc s ⟨0, 0, 0x110000, 4096, 0, 0⟩
def slide0 : Slide :=
  { ctx := 0, xid := 0, desc := 0x110000, len := 4096, engine := 0, noff := 0x400000, k := 0, step := 0, phase := 0
    took := [], acked := [], views := [], since := 0, stop := false, op := 0 }
def withSlide (l : Slide) (s : State) : State := { s with mem := { s.mem with slides := [l] } }
def inHostWorld : State := worldOf 0 (0x8000000000000 + 0x1000)

theorem findHbm_isSome : (findHbm inHostWorld 4096 0 0 0x8000000001000 []).isSome = true := by
  unfold findHbm findRoom
  dsimp only
  split
  · rfl
  · decide +kernel

theorem wit_ExtentAndResidencyWords_promote : ∃ t, promote inHostWorld (descOf inHostWorld) 7 0 true = (0, t) := by
  obtain ⟨n, h⟩ := Option.isSome_iff_exists.mp findHbm_isSome
  have h' : findHbm inHostWorld (descOf inHostWorld).ent.len (descOf inHostWorld).ent.ctx (descOf inHostWorld).ent.xid
      (descOf inHostWorld).pl.off ([].map (fun e : LiveExt => (e.ctx, e.xid))) = some n := h
  refine ⟨acceptSlide inHostWorld (descOf inHostWorld) n 7 0, ?_⟩
  unfold promote roomByDemotion
  rw [h']
  rfl

theorem wit_ExtentAndResidencyWords :
    (let a := (((world.sbase 4 : Int) + 0) % 2 ^ 64).toNat
     2 ^ 56 ≤ a ∨ checkedWalk world (protOf world world.hcore world.hwarp.ctx a) = .none) ∧
    (∃ e, checkedWalk world (protOf world world.hcore world.hwarp.ctx 0x10000) = .found e) ∧
    world.badHandle 2 = false ∧ world.handle 2 = none ∧ world.handle 4 = some (descOf world) ∧ world.hblk.isReplay = false ∧
    ((worldOf 2 0x200000).handle 4 = some (descOf (worldOf 2 0x200000)) ∧ (descOf (worldOf 2 0x200000)).movable = false) ∧
    ((withSlide slide0 world).handle 4 = some (descOf world) ∧ (descOf world).movable = true ∧
      sliding (withSlide slide0 world) (descOf world) = true) ∧ sliding world (descOf world) = false ∧
    ((worldOf 0 (2 ^ 63)).handle 4 = some (descOf (worldOf 0 (2 ^ 63))) ∧ (descOf (worldOf 0 (2 ^ 63))).pin = true ∧
      (descOf (worldOf 0 (2 ^ 63))).inHost = false) ∧
    (inHostWorld.handle 4 = some (descOf inHostWorld) ∧ (descOf inHostWorld).inHost = true ∧ (descOf inHostWorld).pin = false) ∧
    ((descOf world).pin = false ∧ (descOf world).inHost = false ∧
      mget world.mem.quota 0 (descOf world).ent.ctx < pinnedBytes world (descOf world).ent.ctx + (descOf world).ent.len) ∧
    (let s := { inHostWorld with mem := { inHostWorld.mem with quota := [(0, 4096)] } }
     pinnedBytes s (descOf s).ent.ctx + (descOf s).ent.len ≤ mget s.mem.quota 0 (descOf s).ent.ctx) ∧
    ((worldOf 64 0x200000).handle 4 = some (descOf (worldOf 64 0x200000)) ∧ (descOf (worldOf 64 0x200000)).ent.al = true) ∧
    (descOf world).ent.al = false :=
  ⟨by decide +kernel, ⟨_, rfl⟩, by decide +kernel⟩

theorem wit_BarrierObjectsAdvance :
    (let o : BarObj := { exparr := 2, arr := 2, expb := 64, landed := 100 }
     o.ab = false ∧ o.exparr ≠ 0 ∧ o.exparr ≤ o.arr ∧ o.expb ≤ o.landed) ∧
    ¬ (let o : BarObj := { exparr := 2, arr := 1 }
       o.ab = false ∧ o.exparr ≠ 0 ∧ o.exparr ≤ o.arr ∧ o.expb ≤ o.landed) ∧ ({} : BarObj).exparr = 0 := by decide

/-- A block with four barrier objects, the first of them as given; s5 holds 5, s6 the address of a cluster-store object. -/
def barred (o : BarObj) : State :=
  (inBlock lane0 { bars := 4, warps := 1, area := [(0, o)] }).updHere (fun w => (w.setS 5 5).setS 6 0x80000000)
def full4 : State := objPut ((barred {}).updHere (fun w => { w with foreign := [1, 2, 3, 4] })) (.store 0 0) { exparr := 1 }

/-- An outstanding store of the warp. -/
def store0 : Req :=
  { core := 0, wslot := 0, live := true, ctx := 0, kind := .store, space := .global, w := 4, vd := 3, sc := 1, ord := 0
    parts := [Part.new 0 0x10000 0x10000 7 0 0], sects := [], queued := 1, fell := false, em := 1, cidx := 1 }
def busy (s : State) : State := { s with mem := { s.mem with reqs := [(0, store0)] } }

theorem wit_BarrierAndArrivalWords :
    (∀ o ∈ [({} : BarObj), { exparr := 1 }, { exparr := 3, drops := 1 }],
      (barred o).hwarp.arrivals = [] ∧ barAddr (barred o) (barred o).hcore (barred o).hwarp.blk (barred o).inHandler ((barred o).hwarp.s 0).toNat =
        .ok (.area 1 0) ∧ (barred o).hblk.isReplay = false ∧ objGet (barred o) (.area 1 0) = o ∧
        (barred o).hwarp.enterForeign (.area 1 0) ((barred o).hwarp.s 0) = some (barred o).hwarp) ∧
    (let n := ((barred {}).hwarp.s 4).toNat; n = 0 ∨ 2 ^ 16 ≤ n) ∧ (let n := ((barred {}).hwarp.s 5).toNat; n ≠ 0 ∧ n < 2 ^ 16) ∧
    ({} : BarObj).exparr = 0 ∧ (let o : BarObj := { exparr := 1, ab := true }; o.exparr ≠ 0 ∧ o.ab = true) ∧
    (full4.hwarp.arrivals = [] ∧ barAddr full4 full4.hcore full4.hwarp.blk full4.inHandler (full4.hwarp.s 6).toNat = .ok (.store 0 0) ∧
      (objGet full4 (.store 0 0)).exparr ≠ 0 ∧ (objGet full4 (.store 0 0)).ab = false ∧
      full4.hwarp.enterForeign (.store 0 0) (full4.hwarp.s 6) = none) ∧
    2 ^ 48 ≤ (2 ^ 48 - 1) + ((barred {}).hwarp.s 5).toNat ∧ 0 + ((barred {}).hwarp.s 5).toNat < 2 ^ 48 ∧
    passed 0 0 = false ∧ passed 1 0 = true ∧ (let o : BarObj := { exparr := 1 }; o.exparr ≤ o.drops + 1) ∧
    (let o : BarObj := { exparr := 3, drops := 1 }; o.exparr ≠ 0 ∧ o.ab = false ∧ o.arr < 65535 ∧ o.drops + 1 < o.exparr) ∧
    releaseDone (barred {}) (barred {}).hcore (barred {}).run.wslot (barred {}).work.next 4 = true ∧
    releaseDone (barred {}) (barred {}).hcore (barred {}).run.wslot (barred {}).work.next 0 = true ∧
    ¬ releaseDone (busy (barred {})) (barred {}).hcore (barred {}).run.wslot (barred {}).work.next 0 = true := by decide +kernel

theorem wit_WaitsBlockOrComplete :
    (∀ o ∈ [({ exparr := 1 } : BarObj), { exparr := 1, phase := 1 }],
      (barred o).hwarp.arrivals = [] ∧ barAddr (barred o) (barred o).hcore (barred o).hwarp.blk (barred o).inHandler ((barred o).hwarp.s 0).toNat =
        .ok (.area 1 0) ∧ (barred o).hblk.isReplay = false ∧ o.exparr ≠ 0 ∧ o.ab = false ∧
        (barred o).hwarp.enterForeign (.area 1 0) ((barred o).hwarp.s 0) = some (barred o).hwarp) ∧
    passed 0 0 = false ∧ passed 1 0 = true ∧
    (demo.hwarp.countersMet 0 0 0 0 0 = true ∧ waitReleased demo demo.hcore demo.run.wslot 3 = true ∧ demo.hwarp.errs = [] ∧
      demo.hwarp.errCount = 0 ∧ demo.hwarp.failed = []) ∧
    (let s := demo.updHere (fun w => { w with st := 1 }); ¬ s.hwarp.countersMet 31 0 7 7 7 = true) ∧
    ((0 : Fin 8) ≠ 3 ∧ (0 : Fin 8) ≠ 4) ∧
    (let s := demo.updHere (fun w => { w with failed := [3] }); s.hwarp.status.getLsbD 0 = false) ∧
    ((demo.core demo.hcore).held = [] ∧ demo.mem.mail = []) ∧
    (let s := { demo with mem := { demo.mem with reqs := [(0, { store0 with fell := true })] } }
     waitReleased s s.hcore s.run.wslot 1 = false) := by decide +kernel

/-- A deferred error of the warp, and a share of a line with what its L1 holds of it. -/
def err0 : DeferredErr := ⟨0x10020, 5, 3, 0⟩
def waiting' (errs : List DeferredErr) (n : Nat) (failed : List (Nat × Nat)) : State :=
  let s := demo.updHere (fun w => { w with errs := errs, errCount := n, failed := failed, status := 1 })
  { s with work := { s.work with next := 4 } }
def holding (h : Held) : State := (withExtent lane0 1 0x200000 0x3F800000).updCore 0 (fun k => { k with held := [(lineKey 0 0x10000, h)] })

theorem wit_WaitsBlockOrComplete_errors :
    (∀ s ∈ [waiting' [err0] 0 [], waiting' [] 3 [], waiting' [] 0 [(0, 7), (5, 9)]],
      s.hwarp.countersMet 0 31 7 7 7 = true ∧ waitReleased s s.hcore s.run.wslot 3 = true) ∧
    (waiting' [err0] 0 []).hwarp.errs.find? (fun e => (e.ctr == 0 && (0 : Fin 32) != 31) || (e.ctr == 1 && (31 : Fin 32) != 31) ||
      (e.ctr == 3 && (7 : Fin 8) != 7)) = some err0 ∧
    ((waiting' [] 3 []).hwarp.errs = [] ∧ (waiting' [] 3 []).hwarp.errCount ≠ 0) ∧
    (let s := waiting' [] 0 [(0, 7), (5, 9)]
     s.hwarp.errs = [] ∧ s.hwarp.errCount = 0 ∧ s.hwarp.status.getLsbD 0 = true ∧ s.hwarp.failedBefore s.work.next = [7]) ∧
    (let s := holding ⟨0x3F000000, 0x3E000000, []⟩
     (s.core s.hcore).held.filter (fun p => lineCtx p.1 == s.hwarp.ctx && (p.2.d != [] || p.2.t != 0)) ≠ [] ∧
     ∀ p ∈ (s.core s.hcore).held, bvalueDue s s.hcore p.1 = false) ∧
    (let s := holding ⟨0x3F000000, 0, []⟩
     (s.core s.hcore).held.filter (fun p => lineCtx p.1 == s.hwarp.ctx && (p.2.d != [] || p.2.t != 0)) = [] ∧
     waitReleased s s.hcore s.run.wslot 4 = true) := by decide +kernel

def good {ε α : Type} : Except ε α → Bool
  | .ok _ => true
  | .error _ => false
def noBar : Except FaultInfo (Option ObjRef) → Bool
  | .ok b => b == none
  | .error _ => false

/-- Scalar registers from `r` on. -/
def setRegs (r : Nat) (l : List Nat) (s : State) : State :=
  s.updHere (fun w => (l.foldl (fun p x => (p.1.setS p.2 (BitVec.ofNat 32 x), p.2 + 1)) (w, r)).1)

/-- The extent is symmetric between packages; packages 2 and 3 are members, group 5 is a multicast and group 6 a reduction group;
v1 names the peer or group, v2 the offsets. -/
def peered (peer : Word) : State :=
  let s := (setRegs 4 [0xFFFFFFFF] (worldOf 4 0x200000)).updHere (fun w => w.setV 1 1 (fun _ => peer))
  { s with fab := { s.fab with
      self := 1
      members := [(1, 1), (2, 1), (3, 1)]
      groups := [(5, ⟨true, [1, 2]⟩), (6, ⟨false, [1, 2]⟩)] } }

theorem wit_RemoteWordsIssue :
    (∀ p ∈ [(0, 4, 0, 4), (1, 8, 0, 8), (2, 16, 0, 16), (5, itemSize 5 0, itemData 5 0, max (itemSize 5 0) (itemData 5 0))],
      let s := peered 2
      s.hwarp.rm < 6 ∧ s.inRange (1 :: (1 + 1) :: groupRegs 8 p.2.2.2) ∧ noBar (engBar s s.hcore s.hwarp.blk s.em (s.hwarp.s (2 + 2))) ∧
      remoteVerdict s [⟨0, 0x10000⟩] p.2.1 (remotePerm p.1)
        (1 :: (1 + 1) :: (if p.2.2.1 = 0 then [] else groupRegs 8 p.2.2.1)) = .ok ∧
      peerFault s p.1 0 1 s.em = none) ∧
    (∀ p ∈ [(3, (2 : Word), 4), (4, 2, 8), (6, 2, 4), (6, 0x80000006, 4), (7, 0x80000005, itemSize 7 0)],
      let lit : Word := if p.1 = 6 then 0x01000000 else 0
      let s := peered p.2.1
      s.hwarp.rm < 6 ∧ s.inRange (1 :: (1 + 1) :: groupRegs 8 p.2.2) ∧
      remoteVerdict s [⟨0, 0x10000⟩] p.2.2 permW (1 :: (1 + 1) :: groupRegs 8 p.2.2) = .ok ∧ peerFault s p.1 lit 1 s.em = none) ∧
    (peered 2).hblk.isReplay = false ∧ (replay (peered 2)).hblk.isReplay = true := by decide +kernel

/-- A block of two cores side by side, each with an image of one K step and two columns for the format. -/
def matrixed (fmt : Nat) : State :=
  let s := inBlock lane0 { spadLen := 65536, warps := 1, matrix := true }
  let img : Image := { off := 0, size := 64, fmt := fmt, form := 0, k := 4, n := 2, scaled := false, from' := none }
  let s := { s with work := { s.work with
    blocks := s.work.blocks ++ [(2, ({ core := 1, spadLen := 65536, grp := 1, region := 0x300000, warps := 1, matrix := true } : Block))]
    groups := [(1, { cluster := 0, x0 := 0, y0 := 0, w := 2, h := 1, task := 1, idx := 0, blocks := [1, 2], pre := none })] } }
  (s.updCore 0 (fun c => { c with images := [img] })).updCore 1 (fun c => { c with images := [img] })

theorem wit_MatrixWordsEnterTheQueue_mma : ∀ fmt ∈ [0, 1, 2, 3, 4],
    let s := setRegs 12 [0, 0x40] (matrixed fmt)                -- sw = s12: image 0; sk = s13: M 1, N 2, K 1
    let args := [s.hwarp.s 8, s.hwarp.s 9, s.hwarp.s 10, s.hwarp.s 11, s.hwarp.s 12, s.hwarp.s 13]
    let o := parseMma fmt args
    mmaVerdict s o = .ok ∧ matHeld s s.hcore none s.hwarp = false ∧ (mmaImage (s.core s.hcore) o o.n).isSome ∧
    mmaOk o false (s.hwarp.s 13) = true ∧ matHeld s s.hcore (some 1) s.hwarp = false ∧ mmaOk o true (s.hwarp.s 13) = true ∧
    (mmaImage (s.core s.hcore) o (o.n / 2)).isSome ∧
    (match pairOf s with | .ok b => b == 2 | .error _ => false) = true ∧
    (match pairCheck s o 3 with | .ok p => p.1 == 1 | .error _ => false) = true := by decide +kernel

theorem wit_MatrixWordsEnterTheQueue :
    (∀ p ∈ [(0, 0), (1, 3), (2, 31)],                           -- form, K − 1
      let s := setRegs 8 [0, 0x10000000, 0, p.2 * 2 ^ 6, 0, 0, 0] (matrixed 0)  -- source: own scratchpad, offset 0; image 0; N 1, E4M3
      let image := wbldImage p.1 (s.hwarp.s 10) (s.hwarp.s 11)
      matHeld s s.hcore none s.hwarp = false ∧ parseEng (s.hwarp.pair 8).toNat = some (.own 0) ∧
      wbldOk (some (.own 0)) image (s.hwarp.s 11) = true ∧
      wbldVerdict s (.own 0) image (s.hwarp.s 12).toNat (s.hwarp.pair 13).toNat = .ok) ∧
    (let s := matrixed 0
     (let row := s.hwarp.s 8; row.toNat % 2 = 0 ∧ row.toNat < 2 ^ 13 ∧ s.inRange [row.toNat % 128, row.toNat % 128 + 1]) ∧
     (let off := (s.hwarp.s 8).toNat
      let stride := (s.hwarp.s 11).toNat
      let c := (s.hwarp.s 10).toNat
      let rows := c / 2 ^ 13 % 64 + 1
      (off < 2 ^ 18 ∧ stride < 2 ^ 18 ∧ c / 2 ^ 19 = 0 ∧ c / 2 ^ 7 % 64 + rows ≤ 64) ∧ c / 2 ^ 3 % 8 ≤ 4 ∧ c % 8 ≤ 5 ∧
      (c % 8 = 0 → c / 2 ^ 3 % 16 = 0) ∧ rowsAlign off stride (tstBytes (c % 8)) = none ∧
      rowsLimit s off stride rows (64 * tstBytes (c % 8)) = none ∧ c % 2 ^ 7 = 0 ∧ rowsAlign off stride 4 = none ∧
      rowsLimit s off stride rows 256 = none)) := by decide +kernel

/-- A core with an own source, an own destination, 64 bytes and no barrier, as each copy word takes them from s8. -/
def copying (l : List Nat) : State := setRegs 8 l (matrixed 0)

theorem wit_CopyWordsStart :
    (∀ p ∈ [((0xD0, 6), [0, 0x10000000, 0x1000, 0x10000000, 64, 0xFFFFFFFF]),
        ((0xD1, 13), [0, 0x10000000, 0x1000, 0x10000000, 4 + 2 * 2 ^ 16, 1 + 2 ^ 16, 4, 4, 4, 4, 4, 4, 0xFFFFFFFF]),
        ((0xD2, 5), [0, 0x10000000, 64, 7, 0xFFFFFFFF]),
        ((0xD9, 6), [0, 0x10000000, 0x1000, 0, 64, 0xFFFFFFFF])],
      let s := copying p.2
      let next := { s with work := { s.work with next := s.work.next + 1 } }
      let cmd := s.command 8 p.1.2
      copyHeld s s.hcore s.hwarp = false ∧ (parseCopy p.1.1 cmd).any (fun c => noBar (engBar s s.hcore s.hwarp.blk s.em c.bar) &&
        decide ((s.core s.hcore).ilt.length + (copyLocks next s.hcore s.hwarp.blk s.hwarp.ctx s.work.next p.1.1 c).length ≤
          Config.coreIlt))) ∧
    (let s := copying [0, 0, 0, 0xFFFFFFFF]
     let cmd := s.command 8 4
     s.hblk.isReplay = false ∧ tierOk cmd = true ∧
     noBar (engBar s s.hcore s.hwarp.blk s.em (cmd.getD 3 0))) := by decide +kernel

/-- A copy and a part of an exchange that the warp has under way. -/
def op0 (code : Nat) : Op :=
  ⟨0, 0, true, 1, 0, code, [0, 0x10000000, 0x1000, 0x10000000, 64, 0xFFFFFFFF], 15, none, 64, [], 0, none, false, false, 0, 0, none⟩
def part0 : XPart :=
  ⟨0, 0, true, 1, 0, 7, 15, none, [], [], [1, 2], 3, 0, [], [], [], [], [], [], [], 0, 0, 0, false, 0, none, 1, 0, 0, none⟩
def withOp (code : Nat) (s : State) : State := { s with work := { s.work with ops := [(4, op0 code)] } }
def withPart (s : State) : State := { s with work := { s.work with parts := [(3, part0)] } }

theorem wit_ExchangeAndTokenWords :
    (let s := setRegs 8 [0, 0, 0, 0, 0, 0xFFFFFFFF] (matrixed 0)
     let c := s.command 8 10
     s.hblk.isReplay = false ∧ s.hwarp.cp < 6 ∧ xgOk c = true ∧ xgCorrupt s s.hwarp.ctx c = false ∧
     noBar (engBar s s.hcore s.hwarp.blk s.em (c.getD 5 0)) ∧
     (startExchange s s.hcore s.run.wslot s.hwarp.blk s.hwarp.ctx c 15 none 0).isSome) ∧
    youngestPart demo demo.hcore demo.run.wslot 15 = none ∧ youngestOp demo demo.hcore demo.run.wslot 15 = none ∧
    (let s := withPart demo
     youngestPart s s.hcore s.run.wslot 15 = some 3 ∧ s.part 3 = some part0 ∧ part0.stage = 0 ∧ part0.cancel = none ∧
     youngestOp s s.hcore s.run.wslot 15 = none) ∧
    (let s := withOp 0xD0 (withPart demo)
     youngestOp s s.hcore s.run.wslot 15 = some 4 ∧ s.op 4 = some (op0 0xD0) ∧ (op0 0xD0).code ≠ 0xD3 ∧ (op0 0xD0).stage = 0 ∧ (3 : Nat) ≤ 4) ∧
    (let s := withOp 0xD3 demo
     youngestOp s s.hcore s.run.wslot 15 = some 4 ∧ s.op 4 = some (op0 0xD3) ∧ (op0 0xD3).code = 0xD3) := by decide +kernel

theorem wit_TrapWords :
    demo.hwarp.status.getLsbD 1 = false ∧
    (let s := demo.updHere (fun w => { w with status := 2 }); s.hwarp.status.getLsbD 1 = true) := by decide +kernel

theorem wit_StatusRegisters : demo.inHandler = false ∧ 2 ≤ (0x10 : Fin 256).val ∧ 1 ≤ (1 : Fin 256).val ∧
    (0x13 : Fin 256).val ∉ [0x00, 0x01, 0x10, 0x11, 0x12] ∧ (0x11 : Fin 256).val ∉ [0x00, 0x10] := by decide +kernel

/-- The handler context of core 0 works on the frame of its warp slot 0. -/
def frame0 : Frame := ⟨0, 0x310000, some 0, 0, 1, 0x10, copies 64 0, false, 0, false, 0, 0, 0, 1, 1, 1, 0x300000⟩
def handling : State :=
  let s := inBlock demo {}
  let s := { s with work := { s.work with frames := [(9, frame0)] } }
  (s.updCore 0 (fun c => { c with handling := some 9, slot0 := some { s.run with wslot := 32 } })).setWarp 0 32
    { present := true, alloc := 1, live := 0xFFFFFFFF, splits := [(0, { mask := 0xFFFFFFFF, state := 1 })] }

theorem wit_PrivilegedWords :
    demo.inHandler = false ∧ handling.inHandler = true ∧ handling.handled handling.hcore = some (9, frame0) ∧
    127 < (targetWarp handling frame0).regs ∧
    (let s := handling.updWarp 0 0 (fun w => { w with alloc := 1 }); (targetWarp s frame0).regs ≤ 8) ∧
    (let f : FaultInfo := { cls := 0x10, detail := 42 }
     let t := demo.site
     f.cls < 256 ∧ t.pc < 2 ^ 56 ∧ f.sva < 2 ^ 64 ∧ f.space < 16 ∧ t.cidx < 16 ∧ (0 : Nat) < 4 ∧ t.split < 8 ∧ f.xid = none ∧
     t.imp = false ∧ t.ctx < 2 ^ 16 ∧ t.core < 768 ∧ t.wslot < 32 ∧ t.warp < 32 ∧ (demo.blk t.blk).bslot < 8 ∧ f.detail < 2 ^ 32 ∧
     f.aux < 2 ^ 64 ∧ (demo.blk t.blk).no < 2 ^ 32 ∧ demo.plat.time < 2 ^ 64) := by decide +kernel

theorem wit_HandlerWordsComplete : handling.inHandler = true ∧ handling.handled handling.hcore = some (9, frame0) := by decide +kernel

/-- A TCB at VA 0x10000 of the region, or of another; its task 6 is armed. -/
def task0 : Task :=
  ⟨0, 0x10000, 0x300000, 0, 0, 1, 0, 0, none, false, 0, 0, 0, [], [], false, 0, [], false, 0, false, [], [], none⟩
def working (region : Nat) (b : Block) (t : Task) : State :=
  let s := setRegs 8 [0x10000, 0, 0, 0] (mem64 [(0x200008, region)] (inBlock (worldOf 0 0x200000) { b with spadLen := 64, bars := 1, warps := 1 }))
  { s with work := { s.work with tasks := [(6, t)] } }

theorem wit_WorkWords :
    (∀ p ∈ [(0, false), (0x300000, true)],
      let s := working p.1 {} task0
      s.hblk.isReplay = false ∧ barAddr s s.hcore s.hwarp.blk s.inHandler (s.hwarp.s 10).toNat = .ok (.area 1 0) ∧
      (s.hwarp.s 11).toNat % 16 = 0 ∧ (s.hwarp.s 11).toNat + 16 ≤ s.hblk.spadLen ∧
      good (tcbCheck s (s.hwarp.pair 8).toNat 128 (permR ||| permW)) ∧
      tcbPermitted s (tcbAt s s.hwarp.ctx (s.hwarp.pair 8).toNat) = p.2) ∧
    (let s := working 0x300000 {} { task0 with st := 4 }
     armedTask s s.hwarp.ctx (s.hwarp.pair 8).toNat = none) ∧
    (let s := working 0x300000 {} task0
     armedTask s s.hwarp.ctx (s.hwarp.pair 8).toNat = some (6, task0) ∧ s.hblk.took.contains (6, (s.hwarp.s 10).toNat, false) = false) ∧
    (let s := working 0x300000 { took := [(6, 0, false)] } task0
     armedTask s s.hwarp.ctx (s.hwarp.pair 8).toNat = some (6, task0) ∧ s.hblk.took.contains (6, (s.hwarp.s 10).toNat, false) = true ∧
     s.hwarp.dones = [] ∧ s.task 6 = some task0 ∧ releaseDone s s.hcore s.run.wslot s.work.next 4 = true) ∧
    (let s := working 0x300000 {} task0
     (s.hwarp.pair 8).toNat % 64 = 0 ∧
     good (tcbCheck s (s.hwarp.pair 8).toNat 64 permR) ∧
     (mget s.work.devq [] s.hblk.region).length < 256 ∧ 256 ≤ (List.replicate 256 ((0 : Nat), copies 64 0)).length) := by decide +kernel

theorem wit_HeartbeatAndConditions :
    (demo.hblk.isReplay = false ∧ demo.task demo.hblk.task = none) ∧
    (let s := working 0x300000 { task := 6 } task0
     s.hblk.isReplay = false ∧ s.task s.hblk.task = some task0 ∧ task0.graph = 0) ∧
    (let t := { task0 with graph := 3 }
     let s := working 0x300000 { task := 6 } t
     let s := { s with work := { s.work with graphs := [(2, ⟨0, 0x10000, 0, 0, [], [6]⟩)] } }
     s.task s.hblk.task = some t ∧ t.graph ≠ 0 ∧ (mfind s.work.graphs (t.graph - 1)).isSome) := by decide +kernel

theorem wit_RegisterPoolWords :
    16 < demo.hwarp.alloc + (1 : Fin 16).val ∧
    (let s := (inBlock demo { rblk := 4, warps := 1 }).updHere (fun w => { w with alloc := 4 })
     s.hwarp.alloc + (1 : Fin 16).val ≤ 16 ∧ s.hblk.rblk * s.hblk.warps < s.hwarp.alloc + 1 + ((blockWarps s s.hwarp.blk).length - 1)) ∧
    (let s := (inBlock demo { rblk := 8, warps := 1 }).updHere (fun w => { w with alloc := 4 })
     s.hwarp.alloc + 1 + ((blockWarps s s.hwarp.blk).length - 1) ≤ s.hblk.rblk * s.hblk.warps ∧ s.hwarp.alloc ≤ (4 : Fin 16).val ∧
     (3 : Fin 16).val < s.hwarp.alloc ∧ s.hwarp.ld = 0 ∧ s.hwarp.tl = 0 ∧ s.hwarp.rm = 0 ∧
     (s.updHere (fun w => { w with tl := 1 })).hwarp.tl ≠ 0) ∧
    handling.inHandler = true ∧ demo.inHandler = false := by decide +kernel

/-- The world may also be executed; its warp stands at a clause of one word at VA 0x10000, and no slot holds a clause. -/
def runnable : State :=
  let s := mem64 [(0x110008, 4096 + 7 * 2 ^ 54), (0x200000, (fetchWordHeader 0x0E121B3C 1).toNat + 0x0E121B3C * 2 ^ 32)] world
  (s.updCore 0 (fun c => { c with slot0 := none })).updWarp 0 0 (fun w => { w with splits := [(0, { pc := 0x10000, mask := 1, state := 1 })] })

/-- A frame of the warp of block 1, and the time at which it has waited 10 ms. -/
def framed (f : Frame) : State :=
  let s := inBlock world {}
  { s with work := { s.work with frames := [(9, f)] }, plat := { s.plat with time := 10000000 } }

theorem wit_IssueAndTrapEvents :
    (runnable.plat.devErr = false ∧ (runnable.core 0).slot 0 = none ∧ remoteHolds runnable 0 0 = none ∧
      candidates runnable 0 0 = [(0, 0)] ∧
      fetchClause runnable 0 0 ((runnable.warp 0 0).split 0).pc = .ok (fetchWordHeader 0x0E121B3C 1) [0x0E121B3C] ∧
      (runnable.warp 0 0).errs = [] ∧ (runnable.warp 0 0).errCount = 0 ∧
      partnerOf runnable 0 0 0 (fetchWordHeader 0x0E121B3C 1) [0x0E121B3C] [] = none) ∧
    (let s := demo.updWarp 0 0 (fun w => { w with age := 1024 }); 1024 ≤ (s.warp 0 0).age) ∧
    (blockIn (inBlock demo {}) 0 0 = some 1 ∧ ((inBlock demo {}).blk 1).isReplay = false) ∧
    (let f := { frame0 with seq := none }
     let s := framed f
     s.work.frames.find? (fun p => p.2.core == 0 && p.2.seq.isNone && !p.2.full && decide (p.2.since + 10000000 ≤ s.plat.time)) =
       some (9, f) ∧ f.core < 768) ∧
    (let s := framed frame0
     s.plat.devErr = false ∧ (s.core 0).handling = none ∧ (s.core 0).hfault = false ∧ handlerFrame s 0 = some (9, frame0)) := by
  decide +kernel

/-- The warp's splits wait for an entry; its clause has a header that is not legal, or seven matrix words. -/
def stuck : State := runnable.updWarp 0 0 (fun w => { w with splits := [(0, { pc := 0x10000, mask := 1, state := 3, word := 1, on := .entry })] })
def clausePut (l : List Nat) : State := mem64 ((List.range 4).map (fun i => (0x200000 + 8 * i, l.getD (2 * i) 0 + 2 ^ 32 * l.getD (2 * i + 1) 0))) runnable
def seven : List Nat := 0x7BFFFFCA :: List.replicate 7 0xC8000000
def clauseFault (s : State) (f : FaultInfo) : Bool := match fetchClause s 0 0 0x10000 with | .fault g => g == f | _ => false
def fetched (s : State) (pc n : Nat) : List Word := match fetchWords s 0 0 pc n with | .ok l => l | .error _ => []

theorem wit_IssueAndTrapEvents_clauses :
    deadlocked stuck 0 0 = some 0 ∧
    (∀ l ∈ [[0], seven], let s := clausePut l
      s.plat.devErr = false ∧ (s.core 0).slot 0 = none ∧ remoteHolds s 0 0 = none ∧ deadlocked s 0 0 = none ∧ candidates s 0 0 = [(0, 0)] ∧
      clauseFault s { cls := 1, detail := l.headD 0 } ∧ fetched s 0x10000 1 = [BitVec.ofNat 32 (l.headD 0)]) ∧
    (let x := 0x7BFFFFCA
     ¬ (x / 2 ^ 28 % 16 = 0 ∨ x / 2 ^ 25 % 8 = 7 ∨ x / 2 ^ 4 % 2 = 1 ∨ x % 16 ≠ 0xA) ∧ x / 2 ^ 28 % 16 = 7 ∧
     (fetched (clausePut seven) 0x10004 7).length = 7 ∧
     6 < ((clauseOps (fetched (clausePut seven) 0x10004 7)).filter (fun o => counterOf o == some 3)).length) := by decide +kernel

/-- The world with one outstanding request. -/
def requested (r : Req) (s : State) : State := { s with mem := { s.mem with reqs := [(0, r)] } }
def load0 : Req := { store0 with kind := .load false, parts := [(Part.new 0 0x10000 0x10000 0 0 0).performed (5, false)], queued := 0 }
def sought : Req := { store0 with kind := .load false, parts := [Part.new 0 0x10000 0x10000 0 0 0], queued := 0 }

theorem wit_MemoryEvents :
    (let s := requested load0 world
     s.req 0 = some load0 ∧ load0.kind = .load false ∧ load0.allDone = true ∧ reqMayRun s 0 load0 = true ∧ load0.fell = false ∧
     load0.live = true) ∧
    (let r := { store0 with parts := [(Part.new 0 0x10000 0x10000 7 0 0).performed (0, false)] }
     (requested r world).req 0 = some r ∧ r.kind = .store ∧ r.space = .global ∧ r.fell = false ∧ r.queued ≠ 0 ∧ r.sc ≠ 0 ∧
     r.allDone = true ∧ r.parts.all (fun p => !p.err) = true ∧ r.live = true) ∧
    (let s := requested store0 world
     let p := Part.new 0 0x10000 0x10000 7 0 0
     s.req 0 = some store0 ∧ store0.parts = [p] ∧ p.done = false ∧ p.cls = 0 ∧ p.addr / 32 = 0x800 ∧ olderQueued s 0 store0 p = false ∧
     canonDesc s 0 p.addr = .found (descOf world) ∧ recallFrom s 0 (lineKey 0 p.addr) = s ∧ partLines store0 p = [lineKey 0 p.addr] ∧
     recallWait s 0 (lineKey 0 p.addr) = false ∧ partBad s store0 [p] p = false) ∧
    (checkedWalk world (walk world 0 0x10FFF) = .found (descOf world) ∧ (world.core 5).ecb.any (fun e => e.covers 0 0x10FFF) = false) ∧
    (let s := requested sought world
     let d := descOf world
     let o := sectorStart d 0x800 - d.ent.base
     s.req 0 = some sought ∧ sought.space = .global ∧ sectorDescs s sought 0x800 = [.found d] ∧
     mget sought.sects .none (sectNo 0x800 d) = .none ∧
     windowHeld (withSlide { slide0 with phase := 4 } s) (entryPort (coreCluster 0) (32 * 0x800)) d o = true ∧
     windowHeld s (entryPort (coreCluster 0) (32 * 0x800)) d o = false ∧
     place (portPlace s (entryPort (coreCluster 0) (32 * 0x800)) d) o = 0x200000 ∧ paExists 0x200000 = true ∧ 0x200000 < Config.hostBase ∧
     chanHeld (markUsed s d) 0x200000 = false ∧ hotStack (markUsed s d) 0x200000 = false) := by decide +kernel

/-- One message of bounded accumulation on the line of a bounded extent with bound 1. -/
def bounded0 (m : BMsg) : State :=
  let s := withExtent lane0 1 0x200000 0x3F800000
  { s with mem := { s.mem with mail := [(2, ⟨0, lineKey 0 0x10000, m⟩)] } }

/-- One lane's access at VA 0x10000, and a request of it. -/
def part1 : Part := Part.new 0 0x10000 0x10000 7 0 0
def reqOf (k : ReqKind) (sp : Space) (sc : Nat) (p : Part) : Req := { store0 with kind := k, space := sp, sc := sc, parts := [p], queued := 0 }
/-- The L1 of core 0 holds the first sector of the extent; the warp is of a block with every local level. -/
def cached : State :=
  let s := inBlock world { spadLen := 64, lane := 64, warps := 1, spad := [(0, 9), (1, 8)], bars := 4 }
  s.updCore 0 (fun k => { k with l1 := (List.range 32).map (fun i => (byteKey 0 (0x10000 + i), BitVec.ofNat 8 i)) })

theorem wit_MemoryEvents_parts :
    (∀ x ∈ [(ReqKind.load true, Space.global), (.sload, .global), (.scale 0 false 3, .global), (.load false, .spad 1), (.load false, .slice 1 0),
        (.load false, .store 0)], let r := reqOf x.1 x.2 0 part1
      let s := requested r cached
      s.req 0 = some r ∧ reqMayRun s 0 r = true ∧ partClear s 0 r part1 = true ∧ part1.done = false ∧ part1.landed = 0 ∧ part1.err = false ∧
      (loadPart s 0 r part1).isSome ∧ (l1Read (s.core 0) 0 part1.addr 4).isSome) ∧
    (∀ sp ∈ [Space.global, .spad 1, .slice 1 0, .store 2], let r := reqOf .store sp 0 part1
      let s := requested r cached
      s.req 0 = some r ∧ partClear s 0 r part1 = true ∧ tstBefore s 0 sp = false ∧ spoiledObjs s sp part1.addr 4 = [] ∧
      (mfind s.work.blocks 1).isSome ∧ cachedClass part1.cls = true) ∧
    (∀ p ∈ [(0, [], world), (0, [(0x10000, true)], world), (1, [], bounded0 .shareReq)],
      let q := { part1 with cls := p.1 }
      let r := { reqOf .store .global 1 q with queued := 1 }
      let s := requested r p.2.2
      let s := { s with mem := { s.mem with marks := p.2.1, mail := [] } }
      let u := recallFrom s 0 (lineKey 0 q.addr)
      let v := if q.cls = 1 then drainLine u (lineKey 0 q.addr) false else u
      s.req 0 = some r ∧ cachedClass q.cls = true ∧ q.addr / 32 = 0x800 ∧ olderQueued s 0 r q = false ∧ partLines r q = [lineKey 0 q.addr] ∧
      homeOpen s 0 q.cls (lineKey 0 q.addr) = true ∧ canonDesc v 0 q.addr = .found (extDesc s ⟨0, 0, 0x110000, 4096, 0, 0⟩) ∧
      partBad v r [q] q = !p.2.1.isEmpty) := by decide +kernel

theorem wit_MemoryEvents_atomics :
    (let r := reqOf (.atomic 0) .global 0 part1
     let s := requested r { cached with mem := { cached.mem with owner := [(lineKey 0 0x10000, 1)] } }
     let u := { s with free := s.free + 1 }
     let v := (List.range r.w).foldl (fun t i => touchByte t (descOf world) (part1.addr + i) false) u
     s.req 0 = some r ∧ mget s.mem.owner 0 (lineKey 0 part1.addr) = 0 + 1 ∧ reqMayRun s 0 r = true ∧ partClear s 0 r part1 = true ∧
     ownedWait s r part1 = none ∧ canonDesc u 0 part1.addr = .found (descOf world) ∧
     ((List.range r.w).map (fun i => homeByte v (descOf world) (part1.addr + i))).any Prod.snd = false) ∧
    (∀ held ∈ [[], [(lineKey 0 0x10000, (⟨0x3F000000, 0x3D000000, [(1, 0x3E800000)]⟩ : Held))]], ∀ none' ∈ [[], [lineKey 0 0x10000]],
      let p := { part1 with cls := 1, data := 0x3E000000 }
      let r := reqOf .bred .global 0 p
      let s := (requested r (withExtent lane0 1 0x200000 0x3F800000)).updCore 0 (fun k => { k with held := held, noShare := none' })
      s.req 0 = some r ∧ reqMayRun s 0 r = true ∧ partClear s 0 r p = true ∧ (decodeF f32 p.data).isNan = false ∧ (decodeF f32 p.data).isInf = false ∧
      fless f32 0x3F000000 (fadd f32 .ru 0x3D000000 (absCode p.data)) = false ∧ sentMail s 0 (lineKey 0 0x10000) = false ∧
      shareAsked s 0 (lineKey 0 0x10000) = false ∧ (s.core 0).noShare.contains (lineKey 0 0x10000) = !none'.isEmpty ∧
      mfind (s.core 0).held (lineKey 0 0x10000) = (held.map Prod.snd).head?) ∧
    (let p := { part1 with cls := 1 }
     let r := reqOf (.bnd 5) .global 0 p
     let s := requested r (withExtent lane0 1 0x200000 0x3F800000)
     s.req 0 = some r ∧ reqMayRun s 0 r = true ∧ partClear s 0 r p = true ∧ s.mem.mail = [] ∧ s.mem.waits = []) := by decide +kernel

/-- The store of a lane to an extent of class 5 whose sector has been translated, and a load of one byte of it. -/
def made : State := worldOf 5 0x200000
def landed' (k : ReqKind) (w : Nat) : Req :=
  { reqOf k .global 1 { part1 with cls := 5 } with w := w, sects := [(sectNo 0x800 (descOf made), .translated 0x200000)] }
/-- Forty bytes of the world's extent are dirty in their home slice. -/
def dirty : State := { world with mem := { world.mem with l2 := (List.range 40).map (fun i => (byteKey 0 (0x10008 + i), BitVec.ofNat 8 i)) } }

theorem wit_MemoryEvents_ports :
    (let d := descOf world
     let port := entryPort (coreCluster 0) (32 * 0x800)
     (∀ s ∈ [requested sought world, requested sought (worldOf 0 (2 ^ 51 - 4096)), requested sought (worldOf 2 0x8000000001000)],
       sectorHeld s port (descOf s) 0x800 = false ∧ sectorDescs s sought 0x800 = [.found (descOf s)] ∧
       mget sought.sects .none (sectNo 0x800 (descOf s)) = .none) ∧
     sectorHeld (withSlide { slide0 with phase := 4 } (requested sought world)) port d 0x800 = true ∧
     place (portPlace (worldOf 0 (2 ^ 51 - 4096)) port (descOf (worldOf 0 (2 ^ 51 - 4096)))) 0 = 2 ^ 51 - 4096 ∧ paExists (2 ^ 51 - 4096) = false ∧
     hostReach (worldOf 2 0x8000000001000) 2 = false ∧ place (portPlace (worldOf 2 0x8000000001000) port (descOf (worldOf 2 0x8000000001000))) 0 = 0x8000000001000) ∧
    (∀ s ∈ [made, { made with mem := { made.mem with bands := (List.range 8).map (fun i => (i, 3)) } }],
      pathHeld s (landed' .store 4) 0x200000 = !s.mem.bands.isEmpty) ∧
    (let r := { landed' .store 4 with sects := [(sectNo 0x800 (descOf made), .channelHeld 0x200000 7)] }
     let q := { landed' .store 4 with sects := [(sectNo 0x800 (descOf made), .channelHeld 0x200000 3)] }
     let s := requested r made
     heldBefore s r 0x200000 7 = false ∧ heldBefore { s with mem := { s.mem with reqs := s.mem.reqs ++ [(1, q)] } } r 0x200000 7 = true ∧
     pathHeld s r 0x200000 = false ∧ mget r.sects .none (sectNo 0x800 (descOf made)) = .channelHeld 0x200000 7) ∧
    (∀ x ∈ [(ReqKind.store, 4), (.load false, 1)], let r := landed' x.1 x.2
      let s := requested r made
      let p := { part1 with cls := 5 }
      s.req 0 = some r ∧ r.parts = [p] ∧ p.done = false ∧ p.cls = 5 ∧ p.addr / 32 = 0x800 ∧ (p.addr + r.w - 1) / 32 = 0x800 ∧ (descOf made).ent.cls = 5 ∧
      (descOf made).ent.base % 32 = 0 ∧ (descOf made).ent.base ≤ p.addr ∧ p.addr < (descOf made).ent.base + (descOf made).ent.len ∧
      sectorDescs s r 0x800 = [.found (descOf made)] ∧ mget r.sects .none (sectNo 0x800 (descOf made)) = .translated 0x200000 ∧ reqMayRun s 0 r = true ∧
      partClear s 0 r p = true ∧ mget s.mem.owner 0 (lineKey r.ctx p.addr) = 0 ∧ mget s.mem.marks false (0x200000 / 32) = false ∧
      queuedByte s r.core 0 p.addr = none) ∧
    (let d := descOf dirty
     let sec := 32 * 0x800
     let port := entryPort (homeCluster d.ent (lineKey d.ent.ctx sec)) sec
     lineBusy dirty (lineKey 0 0x10000) = false ∧ dirtyDescs (dropOwner dirty (lineKey 0 0x10000)) (lineKey 0 0x10000) = [.found d] ∧
     d.ent.base % 32 = 0 ∧ d.ent.base ≤ sec ∧ sec + 32 ≤ d.ent.base + d.ent.len ∧ mrising none dirty.mem.l2 = true ∧
     dirty.mem.l2.any (fun q => decide (byteKey 0 sec ≤ q.1) && decide (q.1 < byteKey 0 sec + 32)) = true ∧ sectorHeld dirty port d 0x800 = false ∧
     place (portPlace dirty port d) (sec - d.ent.base) = 0x200000 ∧ 0x200000 < Config.hostBase ∧ chanHeld dirty 0x200000 = false ∧
     hotStack dirty 0x200000 = false ∧ mget dirty.mem.marks false (0x200000 / 32) = false) := by decide +kernel

theorem wit_MemoryEvents_held :
    let s := { world with mem := { world.mem with chans := mset {} [] (chanOf 0x200000) { reload := true } } }
    chanHeld (markUsed s (descOf world)) 0x200000 = true := by
  intro s
  have h : (markUsed s (descOf world)).chan (chanOf 0x200000) = { reload := true } := by
    show mget (mset ({} : Chan) [] (chanOf 0x200000) { reload := true }) {} (chanOf 0x200000) = _
    rw [mget_mset, if_pos rfl]
  have : (decide ((0x200000 : Nat) < Config.hbmBytes)) = true := by decide
  rw [chanHeld, h, this]; rfl

/-- A boot image that passes its checks. -/
def image0 : BootImage :=
  { firmwareOk := true, imageOk := true, version := 1, repair := List.replicate 4 (List.range 192), freqMax := 27, partitions := [0, 0, 0, 0], cxlPorts := [true, false]
    scrubHours := 24, timeoutMs := 4, auditSeed := 7, weights := List.replicate 16 0, tpd := 2000, tsr := 60000, bar2Log := 39 }
def timed (t : Nat) (s : State) : State := { s with plat := { s.plat with time := t } }
def booted (s : State) : State := { s with plat := { s.plat with boot := 4, failed := 0 } }
def chan0 (c : Chan) : State := (timed 100000 (booted demo)).setChan (chanKey 7 63) c

theorem wit_ReliabilityEvents :
    (let s := chan0 {}
     let c := s.chan (chanKey 7 63)
     c.power = 0 ∧ c.reload = false ∧ tPd s ≠ 0 ∧ c.idle + tPd s ≤ s.plat.time ∧ chanQueued s (chanKey 7 63) = false) ∧
    (let s := chan0 { power := 1 }
     let c := s.chan (chanKey 7 63)
     c.power = 1 ∧ tSr s ≠ 0 ∧ c.idle + tPd s + tSr s ≤ s.plat.time) ∧
    (let s := chan0 { power := 3, from' := 2 }
     let c := s.chan (chanKey 7 63)
     c.power = 3 ∧ c.since + (if c.from' = 2 then 600 else 30) ≤ s.plat.time) ∧
    (portsLive (chan0 {}) = true ∧ ((chan0 { reload := true }).chan (chanKey 7 63)).reload = true ∧
      imageVerifies (chan0 { reload := true }) image0 = true ∧ imageRows image0 7 63 = some []) ∧
    mget demo.mem.bands 0 7 = 0 ∧
    (let s := { demo with mem := { demo.mem with bands := [(7, 1)] } }; mget s.mem.bands 0 7 = 1) ∧
    (let q := mget demo.mem.scrubs {} 7
     q.pend = none ∧ chanHeld demo (granulePa 7 q.pos) = false) ∧
    (let s := { demo with mem := { demo.mem with scrubs := [(7, { pos := 1, pend := some (0x7000, false) })] } }
     (mget s.mem.scrubs {} 7).pend = some (0x7000, false)) ∧
    hostUp demo 1 = true ∧
    (let r := { sought with parts := [Part.new 0 0x10000 0x10000 0 2 0], sects := [(0x800, .down 0)] }
     let s := timed 2000000 (requested r world)
     s.req 0 = some r ∧ cxlUp s = false ∧
     (r.sects.filter (fun x => match x.2 with | .down since => decide (since + 2000000 ≤ s.plat.time) | _ => false)).map Prod.fst ≠ []) := by
  decide +kernel

/-- The slide of the world's extent to 0x400000 by 2 KiB windows, in phase p, as the ports that take part have answered. -/
def sliding0 (p : Nat) (took acked : List Nat) (place : Nat × Nat) : State :=
  let l := { slide0 with phase := p, k := 0, took := took, acked := acked, engine := 0
                         step := 0, since := 0, views := [] }
  timed 100000 (withSlide l (mem64 [(0x110030, 2 ^ 63 * (if p = 0 then 0 else 1) + place.1), (0x110038, place.2)] world))

theorem wit_SlideEvents :
    (∀ p ∈ [(0, ([] : List Nat), ([] : List Nat)), (1, [], []), (1, [0, 1, 2, 3, 4, 5, 6], []), (2, [], []), (3, [], []), (3, [7], []),
        (3, [0, 1, 2, 3, 4, 5, 6, 7], [0, 1, 2, 3, 4, 5, 6, 7]), (4, [], []), (5, [], []), (5, [0, 1, 2, 3, 4, 5, 6, 7], []), (6, [], []),
        (7, [], []), (7, [0, 1, 2, 3, 4, 5, 6], [])],
      (slideOf (sliding0 p.1 p.2.1 p.2.2 (0x400000, 0)) 0 0).any (fun l => l.phase == p.1 && l.took == p.2.1 && l.acked == p.2.2 &&
        l.op == 0 && !l.stop && decide (l.since + 100000 ≤ (sliding0 p.1 p.2.1 p.2.2 (0x400000, 0)).plat.time))) ∧
    (let s := sliding0 0 [] [] (0, 0)
     (slideOf s 0 0).any (fun l => (s.mem.slides.filter (fun x => x.engine == l.engine && x.phase != 0)) == [] &&
       s.mem.slides.find? (fun x => x.engine == l.engine && x.phase == 0) == some l &&
       (usedRanges s).all (fun u => (u.2.2 == (0, 0)) || !meets l.noff (l.noff + l.len) u.1 u.2.1))) ∧
    (∀ p ∈ [(2, 0, false), (2, 4096, true)],
      let s := sliding0 p.1 [] [] (0x400000, p.2.1)
      (slideOf s 0 0).any (fun l => let pl := slidePl s l; (pl.fr == (if pl.dir then 0 else l.len)) == p.2.2)) ∧
    (let s := sliding0 3 [7] [] (0x400000, 0)
     (slideOf s 0 0).any (fun l => windowSectors s 7 l (parseDesc l.ctx l.desc (pread s l.desc 64)) == [] && !l.acked.contains 7)) ∧
    (let s := sliding0 3 [0, 1, 2, 3, 4, 5, 6, 7] [0, 1, 2, 3, 4, 5, 6, 7] (0x400000, 0)
     (slideOf s 0 0).any (fun l => let offs := (List.range ((l.window.2 - l.window.1 + 31) / 32)).map (fun i => l.window.1 + 32 * i)
       !offs.any (fun o => hotStack s (l.noff + o)))) := by decide +kernel

/-- A channel that no row-remap table and no sleep has touched holds nothing. -/
theorem wit_SlideEvents_free (pas : List Nat) : pas.any (chanHeld State.reset) = false := by
  have h : ∀ x, chanHeld State.reset x = false := by
    intro x
    unfold chanHeld State.chan
    show (decide (x < Config.hbmBytes) && (false || (0 : Nat) != 0)) = false
    simp
  simp [h]

theorem wit_SlideEvents_stops :
    (let s := sliding0 2 [] [] (0x400000, 0)
     let s := { s with mem := { s.mem with slides := s.mem.slides.map (fun l => { l with stop := true }) } }
     (slideOf s 0 0).any (fun l => l.phase == 2 && l.stop && l.op == 0)) ∧
    (let s := withOp 0xD3 (sliding0 7 [0, 1, 2, 3, 4, 5, 6] [] (0x400000, 0))
     let s := { s with mem := { s.mem with slides := s.mem.slides.map (fun l => { l with op := 5 }) } }
     (slideOf s 0 0).any (fun l => l.phase == 7 && l.op != 0 && !l.took.contains 7 && l.took.length == 7 &&
       ((evacuateAll (dropSlide (setSlide s { l with took := 7 :: l.took, views := mput l.views 7 (slidePl s l) }) { l with took := 7 :: l.took })).op (l.op - 1)).isSome)) := by
  decide +kernel

/-- An extent in HBM and a demotion pool of two extents' length in host memory. -/
def pooled : State :=
  { world with mem := { world.mem with pools := [(0, ⟨0x8000000100000, 8192⟩)] } }

theorem wit_ExtentBarrierAndLineEvents_demote :
    victims pooled = [⟨0, 0, 0x110000, 4096, 0, 0⟩] ∧ ∃ noff, findAnyPool pooled (descOf pooled).ent.len (descOf pooled).ent.ctx
      (descOf pooled).ent.xid (descOf pooled).pl.off = some noff ∧ engineFull pooled (slideEngine (descOf pooled).pl.off noff) = false := by
  refine ⟨by decide +kernel, ?_⟩
  have h : (findPool pooled 0 (descOf pooled).ent.len (descOf pooled).ent.ctx (descOf pooled).ent.xid (descOf pooled).pl.off).isSome = true := by
    show (findRoom pooled 0x8000000100000 (0x8000000100000 + 8192) 4096 0 0 0x200000 []).isSome = true
    unfold findRoom
    dsimp only
    split
    · rfl
    · decide +kernel
  obtain ⟨n, h⟩ := Option.isSome_iff_exists.mp h
  refine ⟨n, ?_, rfl⟩
  unfold findAnyPool
  show List.findSome? _ (0 :: [1, 2, 3]) = _
  rw [List.findSome?_cons, h]

/-- The warp has an arrival to count; its split waits on the object. -/
def arriving : State := (barred { exparr := 2, phase := 1 }).updHere (fun w => { w with
  arrivals := [⟨.area 1 0, 0, false, 7, 9, 1⟩], splits := [(0, { mask := 1, state := 2, word := 1, on := .bar (.area 1 0) 0 7 })] })

theorem wit_ExtentBarrierAndLineEvents :
    (let s := inHostWorld
     let e : LiveExt := ⟨0, 0, 0x110000, 4096, 0, 0⟩
     let cand := s.mem.exts.filter (fun x => (extDesc s x).movable && !(extDesc s x).pin && (extDesc s x).inHost &&
        !sliding s (extDesc s x) && x.stage == 0)
     cand.find? (fun x => x.ctx == e.ctx && x.xid == e.xid) = some e ∧ cand.all (fun x => decide ((extDesc s x).prio ≤ (descOf s).prio)) = true) ∧
    (let s := worldOf 64 0x200000
     let s := { s with plat := { s.plat with retiring := some (0, 0) } }
     liveExt s 0 0 = some ⟨0, 0, 0x110000, 4096, 0, 0⟩ ∧ extBusy s (descOf s) = false ∧ (descOf s).ent.al = true ∧ slideOf s 0 0 = none) ∧
    (let a : Arrival := ⟨.area 1 0, 0, false, 7, 9, 1⟩
     let o := objGet arriving a.obj
     (arriving.warp 0 0).arrivals = [a] ∧ releaseDone arriving 0 0 a.id o.scope = true ∧ o.scope < 3 ∧ o.exparr ≠ 0 ∧ o.ab = false ∧
     o.arr < 65535 ∧ a.drop = false) ∧
    (((arriving.warp 0 0).split 0).state = 2 ∧ (arriving.core 0).stopped = false ∧
      ((arriving.warp 0 0).split 0).on = .bar (.area 1 0) 0 7 ∧ (objGet arriving (.area 1 0)).ab = false ∧
      passed (objGet arriving (.area 1 0)).phase 0 = true ∧ passed (objGet arriving (.area 1 0)).phase 1 = false) ∧
    (let s := demo.updHere (fun w => { w with splits := [(0, { mask := 1, state := 2, word := 1, on := .counters 0 31 7 7 7 0 })] })
     ((s.warp 0 0).split 0).on = .counters 0 31 7 7 7 0 ∧ (s.warp 0 0).errs = [] ∧ (s.warp 0 0).errCount = 0 ∧
     (s.warp 0 0).countersMet 0 31 7 7 7 = true) ∧
    (let r := { store0 with kind := .atomic 0, queued := 0 }
     let s := requested r world
     lineWanted s 0 (lineKey 0 0x10000) = true ∧ mget s.mem.owner 0 (lineKey 0 0x10000) ≠ 0 + 1 ∧ mailFor s (lineKey 0 0x10000) = false ∧
     lineReady s (lineClass s (lineKey 0 0x10000)) (lineKey 0 0x10000) true = true ∧
     mget (surrender s (lineKey 0 0x10000)).mem.owner 0 (lineKey 0 0x10000) = 0 ∧ lineBusy s (lineKey 0 0x10000) = false) ∧
    (let de : DirEntry := ⟨2, 0, 0x20000, 4096, 5, 70000⟩
     let df : DirEntry := ⟨2, 0, 0x21000, 4096, 5, 65536⟩
     let s := { demo with mem := { demo.mem with dir := [de, df] } }
     s.mem.dir.find? (fun x => x.slice == de.slice && x.base == de.base && x.size == de.size && decide (65536 ≤ x.last)) = some de ∧
     s.mem.dir.find? (fun x => x.slice == de.slice && x.ctx == de.ctx && x.base == de.base + de.size && x.size == de.size && x.core == de.core &&
       decide (65536 ≤ x.last)) = some df ∧ de.base % (2 * de.size) = 0 ∧ de.size ≤ 32768) ∧
    (mget demo.mem.owner 0 77 ≠ 0 + 1 ∧ mfind (demo.core 0).held 77 = none ∧ mget demo.mem.owner 0 77 = 0) ∧
    (let s := { demo with plat := { demo.plat with image := some image0 }, mem := { demo.mem with cxl := [(77, 2)] } }
     cxlUp s = true ∧ mfind s.mem.cxl 77 = some 2) ∧
    (let p := Part.new 0 0x10000 0x10000 7 3 0
     let r := { store0 with kind := .atomic 0, queued := 0, parts := [p] }
     let s := requested r (worldOf 3 0x8000000001000)
     s.req 0 = some r ∧ r.kind.atomOp = some 0 ∧ r.parts.find? (fun q => q.lane == 0 && q.cls == 3 && !q.done) = some p ∧
     reqMayRun s 0 r = true ∧ partClear s 0 r p = true ∧ hostReach s 3 = true ∧ canonDesc s r.ctx p.addr = .found (descOf s) ∧
     ((List.range r.w).map (fun i => homeByte s (descOf s) (p.addr + i))).any Prod.snd = false) := by decide +kernel

/-- An atomic of core 0 waits for the line that core 2 owns, which may have begun an atomic there. -/
def owned2 (begun : Bool) (s : State) : State :=
  let p := part1
  let q := { part1 with lane := 1, addr := 0x10004, done := begun }
  let s := requested (reqOf (.atomic 0) .global 0 p) s
  { s with mem := { s.mem with owner := [(lineKey 0 0x10000, 3)], reqs := s.mem.reqs ++ (if begun then [(1, { reqOf (.atomic 0) .global 0 p with core := 2, parts := [p, q] })] else []) } }

theorem wit_ExtentBarrierAndLineEvents_rooms :
    (let s := owned2 false world
     lineBusy s (lineKey 0 0x10000) = false ∧ hasRoom (surrender s (lineKey 0 0x10000)) 0 (lineKey 0 0x10000) = true ∧
     sliceFull (surrender s (lineKey 0 0x10000)) (lineKey 0 0x10000) = false) ∧
    lineBusy (owned2 true world) (lineKey 0 0x10000) = true ∧
    (let s := requested (reqOf (.atomic 0) .global 0 { part1 with cls := 2 }) (worldOf 2 0x8000000001000)
     let s := { s with plat := { s.plat with image := some image0 } }
     lineWanted s 0 (lineKey 0 0x10000) = true ∧ mget s.mem.owner 0 (lineKey 0 0x10000) ≠ 0 + 1 ∧ mailFor s (lineKey 0 0x10000) = false ∧
     lineReady s (lineClass s (lineKey 0 0x10000)) (lineKey 0 0x10000) true = false) ∧
    (let s := (withExtent lane0 1 0x200000 0x3F800000).updCore 0 (fun k => { k with held := [(lineKey 0 0x10000, ⟨0x3F000000, 0, []⟩)] })
     mget s.mem.owner 0 (lineKey 0 0x10000) ≠ 0 + 1 ∧ mfind (s.core 0).held (lineKey 0 0x10000) = some ⟨0x3F000000, 0, []⟩ ∧
     bvalueDue s 0 (lineKey 0 0x10000) = false) := by decide +kernel

theorem wit_BoundedEvents :
    (∀ m ∈ [.shareReq, .grant 0x3F000000, .add 3 0x3F800000, .drain [(3, 0x3F800000)] false false, .fdrain true, .bload 0 0,
        .bvalue 0 [1, 2] 0],
      mfind (bounded0 m).mem.mail 2 = some ⟨0, lineKey 0 0x10000, m⟩ ∧ mailFirst (bounded0 m) 2 ⟨0, lineKey 0 0x10000, m⟩ = true) ∧
    (let s := bounded0 .shareReq
     let a := accounting s (lineKey 0 0x10000)
     lineBusy s (lineKey 0 0x10000) = false ∧ a.holders.length < 8 ∧ fless f32 a.u (divPow (boundOf s (lineKey 0 0x10000)) 6) = false) ∧
    mfind ((bounded0 (.fdrain true)).core 0).held (lineKey 0 0x10000) = none ∧
    (let s := (bounded0 (.fdrain true)).updCore 0 (fun k => { k with held := [(lineKey 0 0x10000, ⟨0x3F000000, 0, []⟩)] })
     mfind (s.core 0).held (lineKey 0 0x10000) = some ⟨0x3F000000, 0, []⟩) ∧
    (let r := { sought with kind := .bnd 0 }
     let s := requested r (bounded0 (.bvalue 0 [1, 2] 0))
     s.req 0 = some r) := by decide +kernel

/-- The world's bounded line with the given shares out, and the message of core 0. -/
def shared (u : Nat) (l : List (Nat × Nat)) (m : BMsg) : State :=
  let s := bounded0 m
  { s with mem := { s.mem with bnd := [(lineKey 0 0x10000, ⟨u, l⟩)] } }

theorem wit_BoundedEvents_holders :
    (let s := shared 0x3A000000 ((List.range 8).map (fun c => (c + 1, 0x3D000000))) .shareReq
     8 ≤ (accounting s (lineKey 0 0x10000)).holders.length) ∧
    (let s := shared 0x3A000000 [(3, 0x3F000000), (5, 0x3E000000)] .shareReq
     let a := accounting s (lineKey 0 0x10000)
     a.holders.length < 8 ∧ fless f32 a.u (divPow (boundOf s (lineKey 0 0x10000)) 6) = true ∧
     sortedHolders a.holders = (3, 0x3F000000) :: [(5, 0x3E000000)]) ∧
    (let s := bounded0 (.grant 0x3F000000)
     hasRoom (s.setMail []) 0 (lineKey 0 0x10000) = true) ∧
    (let s := (bounded0 (.add 3 0x3F800000)).setMail []
     let d := descOf s
     elemsWait (bounded0 (.add 3 0x3F800000)) (lineKey 0 0x10000) [3] = none ∧ canonDesc s 0 (0x10000 + 12) = .found d ∧ d.ent.cls = 1 ∧
     (homeElem (touchByte s d 0x1000C false) d 0x1000C).2 = false ∧ narrowError (touchByte s d 0x1000C false) d 0x1000C 4 = false) ∧
    (let s := shared 0x3A000000 [(0, 0x3F000000)] (.drain [(3, 0x3F800000)] true false)
     elemsWait s (lineKey 0 0x10000) (List.range 32) = none ∧
     (accounting (addDeltas (s.setMail []) (lineKey 0 0x10000) [(3, 0x3F800000)]) (lineKey 0 0x10000)).holders.find? (fun p => p.1 == 0) = some (0, 0x3F000000)) ∧
    (let s := (bounded0 (.bvalue 0 [1, 2] 0)).updCore 0 (fun k => { k with held := [(lineKey 0 0x10000, ⟨0x3F000000, 0, [(1, 0x3F800000)]⟩)] })
     mfind (s.core 0).held (lineKey 0 0x10000) = some ⟨0x3F000000, 0, [(1, 0x3F800000)]⟩) := by decide +kernel

/-- A part of an exchange, and a packet that has arrived, in a package whose fabric knows its peers. -/
def exchanging (x : XPart) : State :=
  let s := peered 2
  { s with work := { s.work with parts := [(3, x)] } }
def packet0 (kind : Nat) : Packet := ⟨kind, 0, 2, 1, false, 1, 0, 5, 6, 0, 7, 8, 0, leBytes 4 4 ++ copies 20 0, 32⟩
def arrived (p : Packet) (s : State) : State := { s with fab := { s.fab with inbox := [(0, p)] } }

/-- A matrix word that the core has entered. -/
def mop0 (code : Nat) : MOp := ⟨0, 0, true, 1, code, 2, 2, [], 1, none, none, none, 1, [], [], []⟩

theorem wit_EngineEvents :
    (let o := op0 0xD0
     (withOp 0xD0 demo).op 4 = some o ∧ o.stage = 0 ∧ o.ended = false ∧ o.cancel = false ∧ o.pieces.contains 1 = false ∧ 1 < o.count ∧
     (parseCopy o.code o.cmd).isSome ∧ (let e := { o with ended := true }; e.ended = true) ∧
     (let e := { o with pieces := [0, 1] }; e.code ≠ 0xD3 ∧ e.unperformed = none) ∧ o.task = 0 ∧
     (let e := { o with stage := 2, close := some (1, 0, 0) }; e.stage = 2 ∧ e.close = some (1, 0, 0))) ∧
    (let x := { part0 with next := 3 }; (exchanging x).part 3 = some x ∧ x.stage = 0 ∧ x.cancel = none ∧ x.runs ≤ x.next) ∧
    (let x := part0
     let s := exchanging x
     x.next < x.runs ∧ ((emitRun s 3 x).part 3).any (fun y => decide (y.next < y.runs) &&
       (List.range (y.runs - y.next)).any (fun q => (y.run (emitRun s 3 x) (y.next + q)).mem == (x.run s x.next).mem))) ∧
    (let x := { part0 with bad := 10 }; x.stage = 0 ∧ x.close = none ∧ x.cancel = none ∧ (x.verdict (exchanging x)).isSome) ∧
    (let x := { part0 with stage := 2, close := some (1, 0, 0) }; (exchanging x).part 3 = some x ∧ x.stage = 2 ∧ x.task = 0) ∧
    (let x := { part0 with cancel := some 0, stat := [(0, 1), (1, 1), (2, 4)] }
     (exchanging x).part 3 = some x ∧ x.stage = 0 ∧ x.cancel = some 0 ∧ x.settled = true) ∧
    (∀ kind ∈ [5, 6], let s := arrived (packet0 kind) (exchanging part0)
     mfind s.fab.inbox 0 = some (packet0 kind) ∧ incOk s (packet0 kind) = true ∧ (packet0 kind).dst = s.fab.self ∧
     partFor s 0 7 = some (3, part0)) ∧
    (let s := arrived (packet0 5) (exchanging { part0 with seen := [(2, 8)] })
     (seenRuns s 0 7).contains (2, 8) = true) ∧
    (let s := arrived (packet0 5) (exchanging part0)
     let p := packet0 5
     let bs := (p.body.drop 16).take (fieldAt p.body 0 4)
     (seenRuns s p.ctx p.tag).contains (p.src, p.wtag) = false ∧ hasPlace s p.ctx p.tag = true ∧ handleCorrupt s p.ctx (p.addr % 2 ^ 16) = false ∧
     (match runCheck s p.ctx (p.addr % 2 ^ 16) (p.addr / 2 ^ 16) bs.length with
       | .ok d => (runWait s p.ctx d (p.addr / 2 ^ 16) bs).isNone | .error _ => false) = true ∧
     (landRun (takeIn s 0) p.ctx p.tag p.src p.wtag (p.addr % 2 ^ 16) (p.addr / 2 ^ 16) bs).2 = 0) ∧
    (let q : Post := ⟨0, 0, 5, packet0 1, 0, 0, [2]⟩
     let s := timed 4000000 (peered 2)
     let s := { s with fab := { s.fab with posts := [(6, q)] } }
     s.post 6 = some q ∧ q.since + respTimeout s ≤ s.plat.time) ∧
    (let s := { matrixed 0 with work := { (matrixed 0).work with mops := [(5, mop0 0xC8)] } }
     mfind s.work.mops 5 = some (mop0 0xC8) ∧ oldestMop s 5 (mop0 0xC8) = true ∧ (mopWait s (mop0 0xC8)).isNone) := by decide +kernel

/-- The run that the part has sent to package 2 and that waits for its acknowledgment. -/
def run0 : Nat × Nat × Nat × Packet × Nat := (0, 3, 1, { packet0 5 with src := 1, dst := 2 }, 0)
def awaiting : State :=
  let s := arrived (packet0 7) (exchanging { part0 with stat := [(1, 100)] })
  { s with fab := { s.fab with runs := [run0] } }

theorem wit_EngineEvents_runs :
    mfind awaiting.fab.inbox 0 = some (packet0 7) ∧ (packet0 7).kind = 7 ∧ (packet0 7).tinc = awaiting.fab.inc ∧
    (awaiting.fab.runs.find? (fun r => r.2.2.2.1.ctx == (packet0 7).ctx && r.2.2.2.1.tag == (packet0 7).tag && 
      r.2.2.2.1.wtag == (packet0 7).wtag && r.2.2.2.1.dst == (packet0 7).src)).isSome ∧
    (awaiting.fab.runs.find? (fun r => r.2.1 == 3 && r.2.2.1 == 1)).isSome ∧ (awaiting.part 3).any (fun x => mfind x.stat 1 == some 100) ∧
    (let s := timed 4000000 awaiting
     s.post 0 = none ∧ mfind s.fab.runs 0 = some run0.2 ∧ run0.2.2.2.2 + respTimeout s ≤ s.plat.time ∧ ((failRun s 0 4).part 3).isSome) := by
  decide +kernel

/-- The byte q of the copy that block 1 has under way. -/
def pieceOf (s : State) (q : Nat) : PByte :=
  match (parseCopy (op0 0xD0).code (op0 0xD0).cmd).map (fun c => pieceByte s (op0 0xD0) c q) with
  | some (.ok b) => b
  | _ => ⟨0, none, []⟩

theorem wit_EngineEvents_pieces :
    let s := withOp 0xD0 (matrixed 0)
    let o := op0 0xD0
    let qs := (List.range 32).map (32 + ·)
    let all := (qs.map (fun q => (pieceOf s q).dst.map Prod.fst)).flatten
    min 32 (o.len - 32 * 1) = 32 ∧ (s.blk o.blk).role = .none ∧
    (∀ q ∈ qs, (pieceOf s q).src = some (.spad 1 q) ∧ (pieceOf s q).dst.map Prod.fst = [.spad 1 (0x1000 + q)] ∧
      (parseCopy o.code o.cmd).any (fun c => decide ((pieceByte s o c q).toOption = some (pieceOf s q))) ∧
      (∀ l ∈ [Loc.spad 1 q, .spad 1 (0x1000 + q)], (∀ wr ∈ [false, true], locWait s 0 o.ctx l wr = none ∧ locDead s o.ctx l wr = false) ∧
        locNarrow s o.ctx all l = false ∧ (readLoc s o.ctx l).2 = false)) := by decide +kernel

/-- A layout map of two members with 4 bytes for each, and a part whose two runs, of extent 0, go one to each of them. -/
def lmap (l part : Nat) : List Byte :=
  leBytes 128 (0x00010401 + (2 + 2 ^ 16) * 2 ^ 128 + 2 ^ 160 + 4 * 2 ^ 256 + l * 2 ^ 288 + 4 * 2 ^ 320 + part * 4 * 2 ^ 352)
def part2 : XPart := { part0 with smap := lmap 4 0, dmap := lmap 2 1, runs := 2 }

theorem wit_EngineEvents_parts :
    (let x := part2
     let s := exchanging x
     s.part 3 = some x ∧ x.next < x.runs ∧ (x.run s 0).mem = 0 ∧ ((emitRun s 3 x).part 3).any (fun y => decide (y.next < y.runs) && y.next != x.next &&
       !(List.range (y.runs - y.next)).any (fun q => (y.run (emitRun s 3 x) (y.next + q)).mem == (x.run s x.next).mem))) ∧
    (∀ bad ∈ [0, 10], let x := { part0 with bad := bad, next := 3, stat := [(0, 1), (1, 6), (2, 1)], endsSent := [0, 1], ends := [(1, 0), (2, 0)] }
     (x.verdict (exchanging x)).isSome) ∧
    (let p := packet0 5
     let full := (List.range 64).map (fun i => (⟨1, i, [], [], [], 0, []⟩ : Recv))
     let s := arrived { p with tag := 99 } (exchanging part0)
     let s := { s with work := { s.work with recvs := full } }
     (seenRuns s 0 99).contains (2, 8) = false ∧ hasPlace s 0 99 = false) ∧
    (let s := exchanging part2
     partFor s 0 7 = some (3, part2) ∧ ((runCheck s 0 0 8 4).toOption).any (fun d => !runNarrow s 0 d 8 (copies 4 9))) ∧
    (let s := withOp 0xD0 demo
     devHolds s (opAccs s 1 0 (1, 0, 0).1) = none) := by decide +kernel

theorem wit_TilesAreZeroedAndAdded :
    ∀ code ∈ [0xC8, 0xCB], let s := { matrixed 0 with work := { (matrixed 0).work with mops := [(5, mop0 code)] } }
      mfind s.work.mops 5 = some (mop0 code) ∧ oldestMop s 5 (mop0 code) = true ∧ (mop0 code).code = code := by decide +kernel

theorem wit_TilesAreZeroedAndAdded_words :
    (let o := { mop0 0xCC with args := [0x40, 1 * 2 ^ 7 + 2 * 2 ^ 13, 256, 0] }
     bitsOf (o.args.getD 1 0).toNat 7 6 + bitsOf (o.args.getD 1 0).toNat 13 6 < 64) ∧
    (let o := { mop0 0xC9 with args := [2 * 2 ^ 7 + 10] }; o.live = true ∧ o.landed = []) ∧
    (let o := { mop0 0xCA with args := [0, 2 * 2 ^ 7, 256, 0] }; o.later = [] ∧ (mfind (matrixed 0).work.blocks o.blk).isSome) ∧
    (let s := setRegs 8 [0, 0x10000000, 0, 31 * 2 ^ 6, 0, 0, 0] (matrixed 0)
     let i := wbldImage 0 (s.hwarp.s 10) (s.hwarp.s 11)
     let o := { mop0 0xC5 with args := [s.hwarp.s 8, s.hwarp.s 9, s.hwarp.s 12, s.hwarp.s 13, s.hwarp.s 14], img := some i }
     (mopWait s o).isNone ∧ (wbldUse s o i).isSome) ∧
    (∀ pair ∈ [false, true], let img : Image := { off := 0, size := 64, fmt := 0, form := 0, k := 40, n := 2, scaled := false, from' := none }
     let o := { mop0 0xC0 with
       args := [0, 0x40, 0, 0, 0, BitVec.ofNat 32 (1 + 2 ^ 6 + 2 ^ 13 * 36)], img := some img, partner := if pair then some 1 else none
       pimg := if pair then some img else none }
     let s := { matrixed 0 with work := { (matrixed 0).work with mops := [(5, o)] } }
     oldestMop s 5 o = true ∧ (mopWait s o).isNone ∧ (parseMma 0 o.args).n ≤ 64 ∧ (o.partner = some 1 ∨ pair = false) ∧ 1 ≠ o.core) := by decide +kernel

/-- A remote load of lane 0 from package 2: the word, its replay in flight, and its packet's reply. -/
def rword0 (todo : List (Word × Word)) : RWord :=
  ⟨0, 0, true, 0, 0, 8, 4, 4, 0, 0, [(0, 0x10000, 0)], none, 0xFFFFFFFF, 0x10000, todo, 1, none, 0⟩
def replay0 : Replay := ⟨5, 2, 8, [⟨0, 0x10000, none⟩], [({ packet0 1 with src := 1, dst := 2, addr := 0x10000 }, 1)], true, 0⟩
def remote0 (todo : List (Word × Word)) : State :=
  let s := timed 4000000 (peered 2)
  { s with fab := { s.fab with words := [(5, rword0 todo)], replays := [(0, replay0)] } }
def reply0 : Packet := { packet0 2 with addr := 0x10000, body := leBytes 4 1 ++ copies 60 0 }
def request0 : Packet := { packet0 1 with addr := 0x10000, body := leBytes 4 1 ++ copies 28 0 }

theorem wit_RemoteEvents :
    (let t := sendReplays (remote0 [(3, 1)]) 0 0
     pendingWord t 0 0 = some (5, rword0 [(3, 1)]) ∧ (t.warp 0 0).rm < 6) ∧
    (∀ kind ∈ [1, 5, 6], let p := { packet0 kind with sinc := 9 }
     mfind (arrived p (peered 2)).fab.inbox 0 = some p ∧ incOk (arrived p (peered 2)) p = false) ∧
    (let s := arrived request0 (peered 2)
     mfind s.fab.inbox 0 = some request0 ∧ request0.kind = 1 ∧ incOk s request0 = true ∧ forMe s request0 = true ∧
     (streamEntry s request0).any (fun t => streamHeld t 0 request0) ∧
     (let s := { s with fab := { s.fab with whole := [0] } }
      (streamEntry s request0).any (fun t => !streamHeld t 0 request0 && !request0.items.any (fun x => itemCorrupt t request0.ctx x.va (itemSize (request0.op % 8) request0.lit)
         (remotePerm (request0.op % 8))) && (request0.items.filterMap (itemWait t request0)).isEmpty))) ∧
    (let s := arrived reply0 (remote0 [])
     mfind s.fab.inbox 0 = some reply0 ∧ reply0.kind = 2 ∧ reply0.tinc = s.fab.inc ∧ answeredReplay s reply0 = some (0, replay0) ∧
     s.rword replay0.word = some (rword0 []) ∧
     (reply0.answers (rword0 []).w).any (fun x => replay0.items.any (fun t => t.lane == x.1 && t.st.isNone && t.va / 128 * 128 == reply0.addr)))
    := by decide +kernel

theorem wit_RemoteEvents_posts :
    (∀ bad ∈ [true, false], let p := { packet0 3 with body := leBytes 4 1 ++ copies 4 0 ++ leBytes 1 bad.toNat ++ copies 60 0 }
     let q : Post := ⟨0, 0, 5, packet0 1, 0, 0, [2]⟩
     let s := arrived p (peered 2)
     let s := { s with fab := { s.fab with posts := [(6, q)] } }
     mfind s.fab.inbox 0 = some p ∧ p.kind = 3 ∧ p.tinc = s.fab.inc ∧ namedPost s p = some (6, q) ∧ q.wait.contains p.src = true ∧
     (p.answers 0).any (fun x => x.2.1 != 0) = bad ∧ q.wait.filter (· != p.src) = []) ∧
    (∀ up ∈ [true, false], let q : Post := ⟨0, 0, 5, { packet0 1 with src := 1, dst := 2 }, 0, 0, [2]⟩
     let s := arrived (packet0 4) (peered 2)
     let s := { s with fab := { s.fab with posts := [(6, q)], links := if up then [(0, { mode := 0 })] else (List.range 32).map (fun i => (i, { mode := 2 })) } }
     mfind s.fab.inbox 0 = some (packet0 4) ∧ namedPost (takeIn s 0) (packet0 4) = some (6, q) ∧ (sendPacket (takeIn s 0) q.pkt).1.isSome = up) ∧
    (let s := remote0 []
     mfind s.fab.replays 0 = some replay0 ∧ replay0.items.find? (fun x => x.lane == 0 && x.st.isNone) = some ⟨0, 0x10000, none⟩ ∧
     replay0.sent = true ∧ replay0.since + respTimeout s ≤ s.plat.time ∧
     (replay0.pkts.find? (fun h => h.1.addr == 0x10000 / 128 * 128)).isSome) := by decide +kernel

theorem wit_RemoteEvents_arrivals :
    (let s := arrived { request0 with dst := 2 } (peered 2)
     incOk s { request0 with dst := 2 } = true ∧ forMe s { request0 with dst := 2 } = false) ∧
    (let p := { request0 with grp := true, dst := 5 }
     let s := arrived p (peered 2)
     let s := { s with fab := { s.fab with applied := [p.mark] } }
     forMe s p = true ∧ secondCopy s p = true) ∧
    (let s := arrived request0 (peered 2)
     let q := { request0 with stream := 10 }
     let s := { s with fab := { s.fab with streams := List.replicate 4096 q.streamKey, inbox := s.fab.inbox ++ [(1, q)] } }
     (streamEntry s request0).isNone) ∧
    (let s := arrived request0 (peered 2)
     openItems s 0 request0 = request0.items ∧ request0.items.length = 1 ∧ begunItems s 0 = [] ∧ (itemsStopped s request0 (openItems s 0 request0)).isNone) ∧
    (∀ op ∈ [0, 3, 5, 6, 7], let p := { request0 with op := op, body := leBytes 4 1 ++ leBytes 4 (if op = 5 then 6 else 0) ++ copies 24 0 }
     let s := arrived p (peered 2)
     let w := itemSize op p.lit
     itemCheck s 0 0x20000 w (remotePerm op) = none ∧ (match itemCheck s 0 0x10000 w (remotePerm op) with
       | some (d, va) => let v := useByte s d va (decide (3 ≤ op))
         !(List.range w).any (fun i => byteDead v d (va + i) (decide (3 ≤ op))) && !((List.range w).map (fun i => homeByte v d (va + i))).any Prod.snd &&
           !narrowError v d va w
       | none => false) = true) ∧
    (let y := { replay0 with items := [⟨0, 0x10000, none⟩, ⟨1, 0x10004, none⟩] }
     (rword0 []).live = true ∧ (rword0 []).op = 0 ∧ y.items.find? (fun x => x.lane == 0) = some ⟨0, 0x10000, none⟩ ∧
     y.items.any (fun x => x.lane != 0 && x.st.isNone) = true) ∧
    (let p := { packet0 4 with src := 1, dst := 2 }
     let q : Post := ⟨0, 0, 5, { packet0 1 with src := 1, dst := 2 }, 0, 0, [2]⟩
     let s := arrived p (peered 2)
     mfind s.fab.inbox 0 = some p ∧ p.kind = 4 ∧ p.tinc = s.fab.inc ∧ p.src = s.fab.self ∧ [(6, q)].find? (fun q => p.echoes q.2.pkt) = some (6, q) ∧
     s.fab.posts.find? (fun q => p.echoes q.2.pkt) = none ∧ ([(0, replay0)].find? (fun y => y.2.sent && y.2.pkts.any (fun k => { p with addr := 0x10000 }.echoes k.1))).isSome) ∧
    [2, 3].filter (· != 2) ≠ [] := by decide +kernel

/-- The first flit that a link sends. -/
def flit0 : List Byte := ((({ mode := 0 } : Link).send 0 0 0 0 0 []).held.map Flit.bytes).headD []
def linked (l : Link) : State := timed 3000000 { demo with fab := { demo.fab with links := [(31, l)] } }

theorem wit_LinkEvents :
    (let l := (linked { mode := 0 }).link 31
     l.mode = 0 ∧ flit0.length = 256 ∧ l.takes flit0 = true ∧ l.drop = false ∧ l.takes (copies 256 1) = false ∧
     l.rx + 10000 ≤ (linked {}).plat.time ∧ l.tx + 100 ≤ (linked {}).plat.time ∧ l.room = true) ∧
    (let l := (linked { mode := 0, q := 4, ask := some 4 }).link 31; l.ask = some 4 ∧ 4 = l.q) ∧
    (let l := (linked { mode := 0, q := 4, ask := some 2 }).link 31; l.ask = some 2 ∧ 2 ≠ l.q ∧ l.held.any (fun f => f.num == 2) = false) ∧
    (let l := (linked {}).link 31; l.mode = 1 ∧ l.since + 2000000 ≤ (linked {}).plat.time ∧ l.queue = []) ∧ linksLive (booted (linked {})) = true := by decide +kernel

/-- Queue 0 of the work queue table at 0x320000: 16 records at VA 0x10000, region 0x300000, with the given tail. -/
def queued (tail : Nat) : State :=
  let s := mem64 [(0x320000, 2 ^ 63 + 4 * 2 ^ 56 + 0x10000), (0x320008, 0x300000), (0x320010, tail * 2 ^ 32)] (working 0x300000 {} task0)
  { s with plat := { s.plat with qroot := 0x320000 } }

/-- Task 6 with a TCB of one group of one block of one warp that has not been placed; its blocks done as given. -/
def tasked (t : Task) (blocks done : Nat) : State :=
  let s := mem64 [(0x200020, 2 ^ 56 + 2 ^ 48 + 257), (0x200028, blocks * 2 ^ 32), (0x200048, done * 2 ^ 32)] (working 0x300000 {} t)
  { s with work := { s.work with groups := [] } }

/-- Group 1 is being saved, between its clauses. -/
def pre0 : Preempt := ⟨1, 0, none, [], false, 0⟩
def saving (nslot : Nat) : State :=
  let s := mem64 [(0x300048, nslot + 64 * 2 ^ 32)] (timed 50000 (working 0x300000 {} { task0 with st := 2 }))
  let s := s.updCore 0 (fun k => { k with slot0 := none })
  { s with work := { s.work with groups := s.work.groups.map (fun g => (g.1, { g.2 with task := 6, pre := some pre0 })) } }

theorem wit_WorkEvents :
    (∀ p ∈ [(1, true), (17, false)],
      let n := (p.1 + 2 ^ 32 - (queueAt (queued 0) 0).head) % 2 ^ 32
      (queued 0).plat.devErr = false ∧ (queued 0).plat.qroot ≠ 0 ∧ 0 < queueCount ∧ hostUp (queued 0) 1 = true ∧ p.1 < 2 ^ 32 ∧
      decide (n ≤ 2 ^ (queueAt (queued 0) 0).n) = p.2) ∧
    ((queued 1).plat.devErr = false ∧ (queued 1).plat.boot = 4 ∧ nextQueue (queued 1) 0 = some 0 ∧
      let u := { queued 1 with work := { (queued 1).work with lastQ := mset 0 (queued 1).work.lastQ 0 (0 + 1) } }
      let y := queueAt u 0
      corruptAt u y.ctx (y.ring + 64 * (y.head % 2 ^ y.n)) 64 = false ∧
        launchCorrupt u y.ctx ((devRead u y.ctx (y.ring + 64 * (y.head % 2 ^ y.n)) 64).getD (copies 64 0)) = false) ∧
    (let s := timed 1000000 (tasked task0 1 0)
     s.task 6 = some task0 ∧ waiting s (6, task0) = true ∧ taskPrio s task0 < 15 ∧
     task0.since + 1000000 * (task0.aged + 1) ≤ s.plat.time) ∧
    (let t := { task0 with first := some 0 }
     let s := timed 8000000 (tasked t 1 0)
     readyList (settleReady s) 0 = [(6, t)] ∧ 0 + 8000000 ≤ (settleReady s).plat.time) ∧
    ((tasked task0 1 0).task 6 = some task0 ∧ taskDone (tasked task0 1 0) 6 task0 = false ∧
      corruptAt (tasked task0 1 0) 0 0x10000 128 = false ∧ retireCorrupt (tasked task0 1 1) task0 (taskTcb (tasked task0 1 1) task0) = false ∧
      corruptAt (mem64 [(0x110008, 4096 + 3 * 2 ^ 54 + 7 * 2 ^ 57)] (tasked task0 1 0)) 0 0x10000 128 = true ∧
      taskDone (tasked task0 1 1) 6 task0 = true ∧ task0.graph = 0) ∧
    (let s := demo.updWarp 0 0 (fun w => { w with live := 0, killed := true })
     mayFree s 0 0 = true ∧ (s.warp 0 0).killed = true) ∧
    (let s := demo.updWarp 0 0 (fun w => { w with live := 0 }); mayFree s 0 0 = true ∧ (s.warp 0 0).killed = false) ∧
    (∀ n ∈ [4, 0], let s := saving n
      (mfind s.work.groups 1).any (fun x => x.pre == some pre0 && s.task x.task == some { task0 with st := 2 } && pre0.way == 1 &&
        decide (pre0.since + 50000 ≤ s.plat.time) && (liveBlocks s x).all (fun b => blockQuiet s b pre0.late) && pre0.watchdog.isNone &&
        pre0.yield.isEmpty && !poolCorrupt s (s.blk ((liveBlocks s x).headD 0)).ctx (s.blk ((liveBlocks s x).headD 0)).region &&
        let b := s.blk ((liveBlocks s x).headD 0)
        decide ((liveBlocks s x).length ≤ (freeSlots s b.ctx b.region (liveBlocks s x).length).length) == decide (n = 4))) := by
  decide +kernel

theorem wit_WorkEvents_decision :
    (let s := tasked task0 1 0
     s.plat.devErr = false ∧ mget s.work.turn (nextTurn s (partOf s 0) 4) (partOf s 0) = 0 ∧ mget s.plat.headroom 0 0 = 0) ∧
    (let s := { tasked task0 1 0 with plat := { (tasked task0 1 0).plat with headroom := [(0, 4900)] } }
     mget s.work.turn (nextTurn s (partOf s 0) 4) (partOf s 0) = 0 ∧ mget s.plat.headroom 0 0 ≠ 0) := by decide +kernel

theorem wit_WorkEvents_holds :
    (let s := { queued 1 with work := { (queued 1).work with lastQ := mset 0 (queued 1).work.lastQ 0 1 } }
     let y := queueAt s 0
     let r := (devRead s y.ctx (y.ring + 64 * (y.head % 2 ^ y.n)) 64).getD (copies 64 0)
     devHolds s (readOf y.ctx (y.ring + 64 * (y.head % 2 ^ y.n)) 64 ++ launchAccs s y.ctx r) = none) ∧
    (let s := queued 0
     let s := { s with work := { s.work with devq := [(0x300000, [(0, copies 64 0)])] } }
     nextQueue s 0 = some (queueCount + 0x300000) ∧ mget s.work.devq [] 0x300000 = (0, copies 64 0) :: [] ∧
     launchCorrupt s 0 (copies 64 0) = false ∧ devHolds s (launchAccs s 0 (copies 64 0)) = none) ∧
    (∀ g ∈ [0, 4], let t := { task0 with graph := g }
     let s := tasked t 1 1
     taskDone s 6 t = true ∧ corruptAt s t.ctx t.tcb 128 = false ∧ retireCorrupt s t (taskTcb s t) = false ∧
     devHolds s (retireAccs s t (taskTcb s t)) = none) ∧
    (let s := demo.updWarp 0 0 (fun w => { w with live := 0 })
     devHolds s (freeAccs s (s.warp 0 0).blk) = none) ∧
    (let s := saving 4
     (mfind s.work.groups 1).any (fun x => let b := s.blk ((liveBlocks s x).headD 0)
       (devHolds s (saveAccs s (liveBlocks s x) (freeSlots s b.ctx b.region (liveBlocks s x).length))).isNone)) := by decide +kernel

def audit0 (coreB : Option Nat) : Audit := ⟨6, { warps := 1 }, 5, coreB, 1, 0, 0⟩
def auditing (coreB : Option Nat) (b : Block) : State :=
  let s := mem64 [(0x300010, 0x7FFFFFFF7FFFFFFF), (0x300018, 0x7FFFFFFF7FFFFFFF), (0x300020, 0x7FFFFFFF7FFFFFFF)]
    (tasked { task0 with audits := 1 } 1 0)
  { s with work := { s.work with kernels := [{ ctx := 0, entry := 0, relocs := [], matrix := false }], audits := [(3, audit0 coreB)], blocks := [(1, { b with region := 0x300000, grp := 1 })] } }

theorem wit_BlockEvents :
    ((demo.blk 1).ended = false ∧ allYield demo 0 = false) ∧
    (let f : Fetch := ⟨1, 0, 0x10000, .area 1 0, 0⟩
     let s := working 0x300000 {} { task0 with st := 4 }
     let s := { s with work := { s.work with fetches := [(2, f)] } }
     mfind s.work.fetches 2 = some f ∧ corruptAt s f.ctx f.tcb 128 = false ∧
     ((armedTask { s with work := { s.work with fetches := mdel s.work.fetches 2 } } f.ctx f.tcb).bind (fun p =>
       (freeBlock p.2 (taskTcb s p.2)).map (fun b => (p, b)))).isNone) ∧
    (let s := timed 2000000 (working 0x300000 { runlim := 1 } task0)
     (s.blk 1).ended = false ∧ (expired s (s.blk 1)).isSome ∧ (s.blk 1).grp = 1 ∧ (mfind s.work.groups 1).any (fun g => g.pre.isNone) ∧
     (s.blk 1).isReplay = false) ∧
    groupStopped demo { cluster := 0, x0 := 0, y0 := 0, w := 1, h := 1, task := 1, idx := 0, blocks := [1], pre := none } = false := by
  decide +kernel

/-- A task of one group of all 192 cores of cluster 0, which alone is of its partition, waits while a block takes the scratchpad of core 0;
its region sets no limit below 2^31. -/
def starving : State :=
  let t := { task0 with aged := 6, waits := some 0 }
  let s := mem64 [(0x200020, 12 * 2 ^ 56 + 16 * 2 ^ 48 + 257), (0x200028, 192 * 2 ^ 32), (0x300010, 0x7FFFFFFF7FFFFFFF),
    (0x300018, 0x7FFFFFFF7FFFFFFF), (0x300020, 0x7FFFFFFF7FFFFFFF)] (timed 1000000 (tasked t 192 0))
  let g : Group := { cluster := 0, x0 := 0, y0 := 0, w := 1, h := 1, task := 8, idx := 0, blocks := [1], pre := none }
  { s with
    work := { s.work with
      tasks := [(6, t), (8, { task0 with st := 2 })]
      groups := [(1, g)]
      blocks := [(1, { core := 0, spadLen := 2 ^ 18, bars := 1, warps := 1, rblk := 1, region := 0x300000, grp := 1 })]
      kernels := [{ ctx := 0, entry := 0, relocs := [], matrix := false }] }
    plat := { s.plat with image := some { image0 with partitions := [0, 1, 1, 1] } } }

theorem wit_BlockEvents_starvation :
    (let s := noteWaits starving
     let t := { task0 with aged := 6, waits := some 0 }
     let prio (g : Group) : Nat := match s.task g.task with | some u => taskPrio s u | none => 15
     let l := s.work.groups.filter (fun p => partOf s p.2.cluster == t.part && p.2.pre.isNone && !(s.blk (p.2.blocks.headD 0)).isReplay &&
       decide (prio p.2 + 4 ≤ taskPrio s t))
     s.task 6 = some t ∧ 0 + 1000000 ≤ s.plat.time ∧
     (l.filter (fun p => awaits s 6 t (mkeys l) (goingGroups s) p.1)).map Prod.fst = [1]) ∧
    (let s := noteWaits { starving with work := { starving.work with groups := [], blocks := [] } }
     s.task 6 = some { task0 with aged := 6 }) := by decide +kernel

def audited (sig : DWord) : State := auditing (some 192) { ended := true, role := .replay 6, sig := sig }

theorem wit_BlockEvents_audits :
    (mfind (audited 5).work.audits 3 = some (audit0 (some 192)) ∧ (audit0 (some 192)).coreB.isSome = true ∧ ((audited 5).blk 1).ended = true ∧
      ((audited 5).task 6).isSome ∧ (audit0 (some 192)).result = 0 ∧ ((audited 5).blk 1).sig = (audit0 (some 192)).sigA) ∧
    ((audited 6).blk 1).sig ≠ (audit0 (some 192)).sigA := by decide +kernel

theorem wit_BlockEvents_replay :
    let s := auditing none {}
    let t : Task := { task0 with audits := 1 }
    let x := taskTcb s t
    let n := needOf s (coreCluster 192) t x
    mfind s.work.audits 3 = some (audit0 none) ∧ s.task (audit0 none).task = some t ∧ s.plat.devErr = false ∧ (audit0 none).coreB = none ∧
    coreCluster 192 ≠ coreCluster (audit0 none).blk.core ∧ coreFits s 192 n = true ∧ x.size = 1 ∧ x.w = 1 ∧ x.h = 1 ∧
    admits s t.region n.rblk n.bars n.bytes n.est [192] = true ∧ corruptAt s t.ctx t.tcb 128 = false ∧ x.sregs = 0 := by decide +kernel

theorem wit_BlockEvents_served :
    (∀ due ∈ [true, false], let s := { starving with work := { starving.work with tasks := starving.work.tasks.map (fun (p : Nat × Task) => (p.1, { p.2 with due := due && p.1 == 6 })) } }
     let s := s.setWarp 0 0 { present := true, blk := 1, live := 1, splits := [(0, { mask := 1, state := 2, word := 1, on := .yield 9 })] }
     allYield s 1 = true ∧ (mfind s.work.groups (s.blk 1).grp).any (fun y => y.pre.isNone &&
       (s.work.tasks.any (fun p => p.2.due && p.2.part == partOf s y.cluster && awaits s p.1 p.2 (mkeys s.work.groups) (goingGroups s) (s.blk 1).grp)) == due) ∧
     (s.blk 1).isReplay = false) ∧
    (let s := mem64 [(0x200020, 2 ^ 56 + 2 ^ 48 + 257), (0x200028, 2 * 2 ^ 32)] (working 0x300000 {} { task0 with st := 1 })
     let f : Fetch := ⟨1, 0, 0x10000, .area 1 0, 0⟩
     let s := { s with work := { s.work with fetches := [(2, f)] } }
     devHolds s (changeOf f.ctx f.tcb 128) = none ∧ (let v := devUses s (changeOf f.ctx f.tcb 128)
       ((armedTask { v with work := { v.work with fetches := [] } } f.ctx f.tcb).bind (fun p => (freeBlock p.2 (taskTcb s p.2)).map (fun b => (p, b)))).isSome)) ∧
    (let g : Group := { cluster := 0, x0 := 0, y0 := 0, w := 1, h := 1, task := 8, idx := 0, blocks := [1], pre := none }
     (1, g) ∈ [(1, g)] ∧ ∀ p ∈ [(1, g)], p = (1, g)) := by decide +kernel

theorem wit_PlatformEvents :
    (demo.plat.failed = 0 ∧ demo.plat.boot = 0) ∧
    (∀ b ∈ [1, 2], let s := { demo with plat := { demo.plat with boot := b } }; s.plat.failed = 0 ∧ s.plat.boot = b) ∧
    image0.firmwareOk = true ∧ { image0 with firmwareOk := false }.firmwareOk = false ∧
    imageVerifies demo image0 = true ∧ imageVerifies demo { image0 with imageOk := false } = false ∧
    1200 ≤ 2600 ∧ 2600 ≤ 2700 ∧ 2600 % 100 = 0 ∧ demo.plat.time + 20000 ≤ 10000 * 2 ∧
    (∀ l ∈ [[], [(0, 1)], [(3, 2)]], let s := { world with mem := { world.mem with bands := l } }
      3 ≤ s.plat.boot ∧ s.plat.failed = 0 ∧ ((∃ b ∈ s.mem.bands, 2 ≤ b.2) ↔ l = [(3, 2)])) ∧ (60 ≤ 60 ∨ 110 ≤ 0) := by decide +kernel

theorem wit_PlatformEvents_window :
    (∀ w ∈ [none, some 0], let s := { booted demo with plat := { (booted demo).plat with window := w } }
     3 ≤ s.plat.boot ∧ s.plat.failed = 0 ∧ (s.plat.window = some (s.plat.time / 10000) ∨ w = none)) ∧
    (peered 2).fab.self ≠ 17 / 4 ∧ 0 < 5 ∧ 5 < 4096 := by decide +kernel

/-- The world with its boot image and a window of the host onto the extent in BAR2 and in CXL.mem. -/
def windowed : State :=
  { world with plat := { world.plat with
      image := some image0, wins := [(0, ⟨false, true, true, 0x4000, 4096, 0, 0, 0⟩), (1, ⟨true, true, true, 0x4000, 4096, 0, 0, 0⟩)] } }

theorem wit_HostPortEvents :
    hostUp demo 1 = true ∧ demo.mem.upsets = [] ∧ ({ demo with plat := { demo.plat with boot := 3 } } : State).plat.boot = 3 ∧ demo.plat.boot ≠ 3 ∧
    (hostServed windowed 0 = true ∧ windowed.plat.image = some image0 ∧ image0.cxlPorts.getD 0 false = true ∧ 0x8000 % 64 = 0 ∧
      good (hostPart windowed 0 false 0x8000 64 none) ∧ good (performHost 0 false none [(0x8000, 0, 64)] windowed []) ∧
      (copies 4 7).length = 4 ∧ 0x4000 + 4 ≤ 2 ^ image0.bar2Log ∧
      (splitHost 0x4000 4).all (fun p => (hostPart windowed 0 true p.1 p.2.2 ((some (copies 4 7)).map (fun b => (b.drop p.2.1).take p.2.2))).toOption.isSome) =
        true ∧ good (performHost 0 true (some (copies 4 7)) (splitHost 0x4000 4) windowed [])) ∧
    hostServed demo 0 = false := by decide +kernel

/-- The management ring at 0x330000 holds one command, whose 64-bit words stand at the given offsets. -/
def commanded (boot : Nat) (l : List (Nat × Nat)) (s : State) : State :=
  let t := mem64 (l.map (fun p => (0x330000 + p.1, p.2))) s
  { t with plat := { t.plat with boot := boot, mqroot := 0x330000, mqn := 4, mqtail := 1 } }

/-- The command is complete and names every byte that is not 0. -/
def isCmd (s : State) (n : Nat) (named : List (Nat × Nat)) : Bool :=
  mqReady s && ((pread s (mqSlot s) 64).getD 0 0).toNat == n && unnamedZero (pread s (mqSlot s) 64) named

/-- The ring's command, and an image of an extent of xid 1 in host memory at 0x340000. -/
def creating : State := commanded 3 [(0, 1), (8, 2 ^ 16), (16, 0x340000)] (mem64 [(0x340000, 0x20000), (0x340008, 4096 + 3 * 2 ^ 54 + 3 * 2 ^ 57),
  (0x340020, 2 ^ 16), (0x340028, 0x8000000010000)] world)

theorem wit_ManagementCommands_extents :
    isCmd creating 1 [(0x08, 4), (0x10, 8)] ∧
    (let c := pread creating (mqSlot creating) 64
     good (createExtent creating (opndBits c 0x08 0 16) (opndBits c 0x08 16 16) (opndBits c 0x10 0 52))) ∧
    (let s := commanded 3 [(0, 2), (8, 2 ^ 16)] world
     isCmd s 2 [(0x08, 4)] ∧ liveExt s 0 1 = none) ∧
    (let s := commanded 3 [(0, 2)] world
     isCmd s 2 [(0x08, 4)] ∧ liveExt s 0 0 = some ⟨0, 0, 0x110000, 4096, 0, 0⟩ ∧ aliased s (descOf s) = false) ∧
    (let s := commanded 3 [(0, 3), (8, 2 ^ 16 + 2 ^ 17 + 2 ^ 19), (0x10, 0x4000), (0x18, 4096)] world
     isCmd s 3 [(0x08, 3), (0x10, 8), (0x18, 8), (0x20, 4), (0x28, 8)] ∧ good (writeWindow s (pread s (mqSlot s) 64))) ∧
    (let s := commanded 3 [(0, 4), (8, 0x350000), (0x10, 0x300000)] (inBlock world {})
     isCmd s 4 [(0x08, 8), (0x10, 8)] ∧ good (writeRcb s 0x350000 0x300000)) := by decide +kernel

theorem wit_ManagementCommands_fabric :
    isCmd (commanded 3 [(0, 5), (8, 2 + 2 ^ 16)] world) 5 [(0x08, 8)] ∧ isCmd (commanded 3 [(0, 6), (8, 3), (0x10, 0x360000)] world) 6 [(0x08, 3), (0x10, 8)] ∧
    (let s := commanded 4 [(0, 7), (8, 0x310000)] (framed frame0)
     let s := mem64 [(0x310008, 4 + 2 ^ 8)] s                    -- the host answers this domain's frames
     let c := pread s (mqSlot s) 64
     isCmd s 7 [(0x08, 8), (0x10, 4), (0x18, 2)] ∧
     s.work.frames.find? (fun p => p.2.dom == opndBits c 0x08 0 52 && p.2.seq == some (opndBits c 0x10 0 32) && !p.2.answered) = some (9, frame0) ∧
     (answerOf (opndBits c 0x18 0 2) (opndBits c 0x18 8 2)).isSome ∧ (domainAt s (opndBits c 0x08 0 52)).host = true) ∧
    (let s := commanded 4 [(0, 8), (0x10, 0x10000), (0x20, 100)] (saving 4)
     isCmd s 8 [(0x08, 2), (0x10, 8), (0x18, 4), (0x20, 4)] ∧ residentGroup s 0 0x10000 0 = some 1) ∧
    isCmd (commanded 4 [(0, 9), (8, 0x300000)] (saving 4)) 9 [(0x08, 8)] := by decide +kernel

/-- A command that does not name the last byte, which is not 0. -/
theorem wit_ManagementCommands_unnamed :
    ∀ x ∈ [(1, [(0x08, 4), (0x10, 8)]), (2, [(0x08, 4)]), (3, [(0x08, 3), (0x10, 8), (0x18, 8), (0x20, 4), (0x28, 8)]), (4, [(0x08, 8), (0x10, 8)]),
        (5, [(0x08, 8)]), (6, [(0x08, 3), (0x10, 8)]), (7, [(0x08, 8), (0x10, 4), (0x18, 2)]), (8, [(0x08, 2), (0x10, 8), (0x18, 4), (0x20, 4)]),
        (9, [(0x08, 8)]), (10, [(0x08, 0x20), (0x28, 8)]), (11, []), (12, [(0x08, 1), (0x10, 8), (0x18, 8)]), (13, [(0x08, 2), (0x10, 8)]),
        (14, [(0x08, 2)]), (15, [(0x08, 8), (0x10, 8), (0x18, 8)])],
      let s := commanded 3 [(0, x.1), (0x38, 2 ^ 56)] world
      mqReady s = true ∧ ((pread s (mqSlot s) 64).getD 0 0).toNat = x.1 ∧ unnamedZero (pread s (mqSlot s) 64) x.2 = false := by decide +kernel

theorem wit_ManagementCommands_platform :
    (isCmd (commanded 3 [(0, 10), (0x28, 0x370000)] world) 10 [(0x08, 0x20), (0x28, 8)] ∧ paExists 0x370000 = true ∧ paExists (0x370000 + 8191) = true) ∧
    (let s := commanded 3 [(0, 11)] (queued 0)
     isCmd s 11 [] ∧ s.plat.boot = 3 ∧ s.plat.xroot ≠ 0 ∧ s.plat.qroot ≠ 0) ∧
    (isCmd (commanded 4 [(0, 11)] world) 11 [] ∧ (commanded 4 [(0, 11)] world).plat.boot ≠ 3) ∧
    (let s := commanded 3 [(0, 12)] world
     isCmd s 12 [(0x08, 1), (0x10, 8), (0x18, 8)] ∧ opnd (pread s (mqSlot s) 64) 0x18 = 0 ∧ (usedRanges s).all (fun u =>
       let old := mget s.mem.pools ⟨0, 0⟩ 0
       !meets old.base (old.base + old.len) u.1 u.2.1) = true) ∧
    (let s := commanded 3 [(0, 13), (0x10, 8192)] (worldOf 0 (2 ^ 63))
     isCmd s 13 [(0x08, 2), (0x10, 8)] ∧ pinnedBytes s 0 ≤ opnd (pread s (mqSlot s) 64) 0x10) ∧
    (let s := commanded 3 [(0, 13), (0x10, 5)] (worldOf 0 (2 ^ 63))
     isCmd s 13 [(0x08, 2), (0x10, 8)] ∧ opnd (pread s (mqSlot s) 64) 0x10 < pinnedBytes s 0) ∧
    (let s := commanded 3 [(0, 14), (8, 16 * 2 ^ 8)] world
     isCmd s 14 [(0x08, 2)] ∧ 4 ≤ opndBits (pread s (mqSlot s) 64) 0x08 8 5 ∧ opndBits (pread s (mqSlot s) 64) 0x08 8 5 ≤ 16) ∧
    (let s := commanded 3 [(0, 15), (8, 0x200000), (0x10, 0x400000), (0x18, 64)] world
     isCmd s 15 [(0x08, 8), (0x10, 8), (0x18, 8)] ∧ paExists 0x200000 = true ∧ paExists (0x200000 + 64 - 1) = true ∧ paExists 0x400000 = true ∧
     paExists (0x400000 + 64 - 1) = true ∧ (usedRanges s).any (fun u => meets 0x400000 (0x400000 + 64) u.1 u.2.1) = false) ∧
    (let s := commanded 3 [(0, 15), (8, 0x200000), (0x10, 2 ^ 51 - 64), (0x18, 64)] world
     isCmd s 15 [(0x08, 8), (0x10, 8), (0x18, 8)] ∧ paExists (2 ^ 51 - 64) = false) ∧
    (let s := commanded 3 [(0, 5), (0x38, 1)] world
     mqReady s = true ∧ ((pread s (mqSlot s) 64).getD 0 0).toNat = 5 ∧ unnamedZero (pread s (mqSlot s) 64) [(0x08, 8)] = false) ∧
    (mqReady (commanded 3 [(0, 16)] world) = true ∧ 15 < ((pread (commanded 3 [(0, 16)] world) 0x330000 64).getD 0 0).toNat) := by decide +kernel

theorem wit_ManagementCommands_pool :
    (∀ x ∈ [(0x8000000200000, 4096, false), (0x8000000200000, 4096, true), (0x8000000200000, 5, false), (5, 4096, false), (0x400000, 4096, false),
        (2 ^ 51, 2 ^ 60, false)],
      let s := if x.2.2 then { worldOf 0 0x8000000000000 with mem := { (worldOf 0 0x8000000000000).mem with pools := [(1, ⟨0x8000000000000, 8192⟩)] } } else world
      let s := commanded 3 [(0, 12), (8, 1), (0x10, x.1), (0x18, x.2.1)] s
      let c := pread s (mqSlot s) 64
      isCmd s 12 [(0x08, 1), (0x10, 8), (0x18, 8)] ∧ opnd c 0x18 ≠ 0 ∧ (let base := opndBits c 0x10 0 52
        let len := opnd c 0x18
        let old := mget s.mem.pools ⟨0, 0⟩ 1
        (usedRanges s).any (fun u => meets old.base (old.base + old.len) u.1 u.2.1) = x.2.2 ∧
        (x.1 = 0x8000000200000 ∧ x.2.1 = 4096 ↔ len % 4096 = 0 ∧ base % 4096 = 0 ∧ Config.hostBase ≤ base ∧ base + len ≤ Config.paEnd))) := by decide +kernel

/-- The word of `demo` waits in slot 0 of core 0; s18, s19 of the second state's warp have an arrival under way. -/
theorem wit_StepRunsTheDecodedInstruction :
    demo.schedule = [] ∧ demo.plat.devErr = false ∧ remoteHolds demo demo.focus.1 demo.focus.2 = none ∧
    (demo.core demo.focus.1).slot demo.focus.2 = some demo.run ∧
    (match decode (demo.run.words.drop (demo.cidx - 1)) with | .ok p => p == (.sadd64 4 (.s 6) (.int 15), []) | .error _ => false) = true ∧
    placeOk demo.run.hdr (bitsOf demo.word.toNat 24 8) demo.cidx (if (Instr.sadd64 4 (.s 6) (.int 15)).literal?.isSome then 2 else 1) demo.inHandler = true ∧
    (demo.core demo.focus.1).closing = false ∧ demo.run.late = false ∧ demo.held (.sadd64 4 (.s 6) (.int 15)) = false ∧
    (arriving.held (.sadd64 6 (.s 6) (.int 15)) = true) ∧
    (State.reset.withFetchWord 32 0x4B000000).fetchInstr = none ∧ (Instr.clauseGrant 0 0).isWord = false ∧
    ({ demo with plat := { demo.plat with devErr := true } } : State).plat.devErr = true := by decide +kernel

theorem wit_StepRunsTheDecodedInstruction_upsets :
    demo.mem.upsets = [] ∧ ({ demo with mem := { demo.mem with upsets := [.sector 0 0 0 0x200000 0x10000] } } : State).mem.upsets ≠ [] := by decide +kernel

theorem wit_DecodeReadsBackEveryEncoding :
    (Instr.atomCasB128 8 4 127 4 (some 0xC0000000)).isWord = true ∧ (Instr.atomCasB128 8 4 127 4 (some 0xC0000000)).wf = true := by decide

theorem wit_MemoryReadsBack : MemoryCanonical world ∧ Memory.wf world.mem.bytes = true ∧ (5 < 6 ∨ 6 + 4 ≤ 5) := by
  refine ⟨?_, ?_, ?_⟩ <;> first | decide +kernel | (unfold MemoryCanonical; decide +kernel)

theorem wit_RegistersReadBack : (0 : Nat) < 32 := by decide

theorem wit_ControlProcedures :
    (let w := nested.hwarp
     let sp := w.split 0
     let t := w.tok sp.td
     ¬ (sp.tv = true ∧ (t.kind = 1 ∨ t.kind = 2) ∧ t.pc = 100) ∧ (sp.tv = true ∧ (t.kind = 1 ∨ t.kind = 2) ∧ t.pc = 96) ∧ sp.td < 16 ∧
     (∀ d, d < 16 → (w.tok d).kind ≠ 3)) ∧
    (let w := { nested.hwarp with splits := [(0, { mask := 1, state := 1, tv := true, td := 0 })] }
     ((w.tok 0).pending &&& ~~~(w.split 0).mask ≠ 0)) ∧
    (let w := { nested.hwarp with tokens := [(0, { pending := 0xFFFFFFFF, rejoin := 0xFFFFFFFF, kind := 1, pc := 96 })] }
     (w.tok 0).pending &&& ~~~(w.split 0).mask = 0 ∧ (w.tok 0).rejoin ≠ 0 ∧ (w.tok 0).pv = false ∧ (w.setSplit 0 {}).freeSplit = some 0) := by
  decide +kernel

theorem wit_FaultsStopTheCore :
    let s := inBlock world {}
    let d := domainAt s (effFdom s s.hblk.region)
    let other (r : Option Run) : Bool := r.any (fun x => x.wslot != s.run.wslot && x.wslot != 32)
    s.run.wslot ≠ 32 ∧ s.hblk.isReplay = false ∧ s.work.frames = [] ∧ s.cidx ≠ 0 ∧ d.ok = true ∧ (s.core s.hcore).closing = false ∧
    other (s.core s.hcore).slot0 = false ∧ other (s.core s.hcore).slot1 = false ∧ other (some { s.run with wslot := 16 }) = true ∧
    (d.head + 2 ^ 32 - d.tail) % 2 ^ 32 + 1 ≤ 2 ^ d.n ∧ scalePending s s.hcore = false ∧
    devHold s d.hctx (d.ring + 64 * (d.head % 2 ^ d.n)) 64 true = none ∧
    scalePending (requested { store0 with kind := .scale 0 false 3, queued := 0 } s) s.hcore = true := by decide +kernel

theorem wit_EveryStepKeepsMemoryCanonical : MemoryCanonical demo ∧ ∃ t, Machine.step demo = .next t :=
  ⟨by unfold MemoryCanonical; decide +kernel, _, rfl⟩

/-! ### Results that the spec works out -/

/-- What `f` reads of the next state of an instruction. -/
def after {α : Type} (i : Instr) (s : State) (f : State → α) : Option α :=
  match exec i s with
  | .next t => some (f t)
  | _ => none

/-- 05_control.md R94: a carry passes from the low to the high word of a pair; 32 and more bits shift everything out. -/
theorem test_sadd64_carries :
    after (.sadd64 4 (.s 6) (.int 17)) (setRegs 6 [0xFFFFFFFF, 7] demo) (fun t => (t.hwarp.s 4, t.hwarp.s 5)) = some (0, 8) := by decide +kernel
theorem test_sshl_by_32 : after (.sshl 4 (.int 17) (.lit 32)) demo (fun t => t.hwarp.s 4) = some 0 := by decide +kernel
theorem test_smulhi_signed : after (.smulhi 4 (.int 15) (.int 17)) demo (fun t => t.hwarp.s 4) = some 0xFFFFFFFF := by decide +kernel

/-- 06_vector.md, "lanes, a predicated scan and a wrap": v0[i] = i, m0 = 0xFFFF0000. -/
def scanning : State := demo.updHere (fun w => (w.setV 0 0xFFFFFFFF (fun l => BitVec.ofNat 32 (intToF false .rne (BitVec.ofNat 32 l)))).setM 0 0xFFFF0000)
theorem test_vcvt_lane : (after (.vcvtF32N32 0 (.sp .lane) ⟨false, 0, 0⟩ false) demo (fun t => t.hwarp.v 0 5)) = some 0x40A00000 := by decide +kernel
theorem test_vcmp_gt : after (.vcmpN32 4 0 (.sp .lane) (.int 31) false) demo (fun t => t.hwarp.m 0) = some 0xFFFF0000 := by decide +kernel
theorem test_vscan_predicated : after (.vscanAddF32 1 0 true) scanning (fun t => [0, 15, 16, 17, 30, 31].map (t.hwarp.v 1)) =
    some [0, 0, 0x41800000, 0x42040000, 0x43AC8000, 0x43BC0000] := by decide +kernel
theorem test_vred_add : after (.vredAddF32 2 0 false) scanning (fun t => [0, 31].map (t.hwarp.v 2)) = some [0x43F80000, 0x43F80000] := by decide +kernel
theorem test_vnbr_wrap : after (.vnbrB32 3 1 1 false) (demo.updHere (fun w => w.setV 1 0xFFFFFFFF (fun l => BitVec.ofNat 32 (100 + l))))
    (fun t => [0, 30, 31].map (t.hwarp.v 3)) = some [101, 131, 100] := by decide +kernel

/-- 04_numbers.md R76: a quarter of the way from 1.0 to 1.125 rounds up exactly when the random word is 0xC0000000 or more. -/
theorem test_stochastic : roundTo e4m3 (.rs 0xC0000000) false (decodeF f32 0x3F840000) = 0x39 ∧
    roundTo e4m3 (.rs 0xBFFFFFFF) false (decodeF f32 0x3F840000) = 0x38 := by decide +kernel

/-- 04_numbers.md R78: 3.0 is 0x16 in LOG6. -/
theorem test_log6_of_three : roundLog6 .rne false (decodeF f32 0x40400000) = 0x16 := by decide +kernel

/-- 04_numbers.md, "A LOG6 block worked through": c = 7.984375, acc becomes 8.984375. -/
theorem test_log6_block :
    let p := [log6Product 0x14 0x14, log6Product 0x16 0x12, log6Product 0x25 0x03]
    blockValue 4 true 0x7E 0x80 p = 0x40FF8000 ∧ accumulate 0x3F800000 (blockValue 4 true 0x7E 0x80 p) = 0x410FC000 ∧
    blockValue 4 true 0xFE 0xFE p = 0x7F800000 ∧ blockValue 4 true 0xFE 0xFE [] = 0 ∧ blockValue 4 true 0xFF 0x80 [] = 0x7FC00000 := by decide +kernel

/-- 04_numbers.md, "A bfloat16 chunk worked through": 1 + 2^-23. -/
theorem test_bf16_chunk :
    blockValue 2 false 127 127 [elemProduct 2 0x3F80 0x3F80, elemProduct 2 0x3F80 0x3380, elemProduct 2 0x3980 0x3980] = 0x3F800001 := by
  decide +kernel

/-- 11_traps.md, "a trap and its handler": core (3, 5) of cluster 1, context 0x42, code at 0x700000. -/
def trapdemo : State :=
  let s := { State.reset with focus := (275, 0) }.withFetchWord 32 0xE000002A
  let s := s.updCore 275 (fun c => { c with slot0 := some { wslot := 0, split := 0, pc := 0x700000, hdr := 0x4BFFFFCA
                                                            words := [0x2001D1A2, 0xE000002A, 0x200001A2, 0x19000000] } })
  let s := s.updHere (fun w => { w with ctx := 0x42, splits := [(0, { pc := 0x700000, mask := 0xFFFFFFFF, word := 2, state := 1 })] })
  inBlock s {}
theorem test_trap_frame : (match step trapdemo with
    | .next t => t.work.frames.map (fun p => [0, 1, 2, 3, 4, 6].map (fun i => leNat ((p.2.bytes.drop (8 * i)).take 8)))
    | _ => []) = [[0x1000000000700000, 0, 0xFFFFFFFF00002000, 0x0042354000000000, 0x0000002A00000000, 0]] := by decide +kernel

/-- 10_sync.md R198: the last arrival advances the phase; R203: `sv` takes the phase before it, the status is done. -/
theorem test_last_arrival : after (.barArrive 0 20 21) (barred { exparr := 2, arr := 1, phase := 6 }) (fun t =>
    ((objGet t (.area 1 0)).phase, (objGet t (.area 1 0)).arr, t.hwarp.s 20, t.hwarp.s 21)) = some (7, 0, 6, 0) := by decide +kernel

/-- 12_atomics.md, "shares on one line": the first share-req is granted 0.5 of B = 1.0. -/
theorem test_first_grant : after (.shareReq 2) (bounded0 .shareReq) (fun t => (t.mem.mail.map (fun p => p.2.msg),
    (accounting t (lineKey 0 0x10000)).u)) = some ([.grant 0x3F000000], 0x3F000000) := by decide +kernel

/-- 12_atomics.md R239: a compare and swap stores on equality alone. -/
theorem test_cas : atomNew 9 7 (7 + 2 ^ 32 * 9) = 9 ∧ atomNew 9 8 (7 + 2 ^ 32 * 9) = 8 := by decide

/-- 19_matrix.md, "one row of an FP8 product": s22 = 0x0203E040 names M = 1, N = 2, K = 32 and zeroes the tile. -/
theorem test_mma_command : (let o := parseMma 0 [0, 0x40, 0, 0, 0, 0x0203E040]; (o.m, o.n, o.k, o.z, o.scaled)) = (1, 2, 32, true, false) := by decide

/-- 13_engines.md, "a copy, its token and its barrier": the command block copies 128 bytes from global memory to scratchpad 0. -/
theorem test_copy_command : (parseCopy 0xD0 [0x800000, 0, 0, 0x10000000, 128, 0]).map (fun c => (c.src, c.dst, c.len, c.bar)) =
    some (some (.glob 0x800000), [.own 0], 128, 0) := by decide

/-- 21_work.md R369, "a pre-emption choice": the image of a block of four warps of 8 blocks and 65,536 bytes of scratchpad. -/
theorem test_image_size :
    let s := (inBlock demo { spadLen := 65536, warps := 4 })
    let s := (List.range 4).foldl (fun s i => s.setWarp 0 i { present := true, blk := 1, alloc := 8 }) s
    imageSize s 1 = 107776 := by decide +kernel

/-- 23_platform.md R403: an inlet of 58 °C and 10,000 µJ of fixed energy leave each of four busy clusters 4,900 µJ. -/
theorem test_headroom :
    let g (c : Nat) : Nat × Group := (c + 1, { cluster := c, x0 := 0, y0 := 0, w := 1, h := 1, task := 1, idx := 0, blocks := [], pre := none })
    let s := { world with work := { world.work with groups := (List.range 4).map g } }
    after (.energyWindow ⟨10000, 0, 58⟩) s (fun t => (List.range 4).map (mget t.plat.headroom 0)) = some [4900, 4900, 4900, 4900] := by
  decide +kernel

/-- The Keccak permutation of a quote's digests, against the published digest of the empty message (log entry 59). -/
theorem test_shake256_empty : shake256 [] 4 = [0x46, 0xb9, 0xdd, 0x2b] := by decide +kernel

/-- 05_control.md R101, 22_prog_rolesplit.md line 11: `bscc` 26 words on goes from 0x0 to 0x68. -/
theorem test_bscc : (after (.bscc false 26) (demo.updHere (fun w => w.setScc true)) (fun t => ((t.warp 0 0).split 0).pc)) = some 0x68 := by decide +kernel

end Sys2Proof.Tests
end

/-! PROOF. The uniform branches (05_control.md R101): where a branch goes, and that the whole split goes there. -/
namespace Sys2Proof.Machine

/-- The offset field of a BR word holds a 20-bit two's complement number of words (02_encoding.md R32). -/
theorem sextInt_offset (off : Fin 1048576) :
    sextInt 20 off.val = if off.val < 524288 then (off.val : Int) else (off.val : Int) - 1048576 := by
  have hy : off.val % 2 ^ 20 = off.val := Nat.mod_eq_of_lt off.isLt
  simp only [sextInt, hy]
  by_cases h : off.val < 524288
  · rw [if_pos h, if_neg (by omega)]
  · rw [if_neg h, if_pos (by omega)]; rfl

/-- X of a branch: the header's address and the signed offset in words, modulo 2^56. -/
theorem State.target_eq (s : State) (off : Fin 1048576) : s.target off =
    (((s.run.pc : Int) + 4 * (if off.val < 524288 then (off.val : Int) else (off.val : Int) - 1048576)) % 2 ^ 56).toNat := by
  rw [State.target, sextInt_offset]

/-- `bscc` goes where `scc` differs from its c bit. -/
theorem execBscc_eq (c : Bool) (off : Fin 1048576) (s : State) : execBscc c off s = goTo s (s.hwarp.scc ^^ c) off := by
  rw [execBscc, Bool.bne_eq_xor]

/-- `bany` goes where some lane of the split is in cond. -/
theorem execBany_eq (mk : MReg) (c : Bool) (off : Fin 1048576) (s : State) :
    execBany mk c off s = goTo s (decide (s.hsplit.mask &&& s.cond mk c ≠ 0)) off := by
  have h : (s.em &&& s.cond mk c != 0) = decide (s.hsplit.mask &&& s.cond mk c ≠ 0) :=
    Bool.eq_iff_iff.mpr (bne_iff_ne.trans decide_eq_true_iff.symm)
  rw [execBany, h]

/-- `ball` goes where no lane of the split is out of cond. -/
theorem execBall_eq (mk : MReg) (c : Bool) (off : Fin 1048576) (s : State) :
    execBall mk c off s = goTo s (decide (s.hsplit.mask &&& ~~~s.cond mk c = 0)) off := by
  have h : (s.em &&& ~~~s.cond mk c == 0) = decide (s.hsplit.mask &&& ~~~s.cond mk c = 0) :=
    Bool.eq_iff_iff.mpr (beq_iff_eq.trans decide_eq_true_iff.symm)
  rw [execBall, h]

/-- A uniform branch in the spec's own terms: its clause ends, and the split's program counter becomes X or F by set_pc. -/
theorem goTo_eq (s : State) (taken : Bool) (off : Fin 1048576) : goTo s taken off =
    .next (s.branch (fun w => w.setPc s.run.split (if taken then
      (((s.run.pc : Int) + 4 * (if off.val < 524288 then (off.val : Int) else (off.val : Int) - 1048576)) % 2 ^ 56).toNat
      else (s.run.pc + 4 * (hdrN s.run.hdr + 1)) % 2 ^ 56))) := by
  rw [goTo, State.target_eq, State.follow, Run.follow]

/-- Settles O4: each uniform branch is `goTo` on its own condition, and `goTo` moves the whole split to X or F. -/
theorem uniformBranchesSetThePc : Obligations.UniformBranchesSetThePc := by
  intro s mk c off target follow cond go
  refine ⟨?jmp, ?bscc, ?bany, ?ball⟩
  case jmp => rw [exec_jmp, execJmp, goTo_eq]
  case bscc => rw [exec_bscc, execBscc_eq, goTo_eq]
  case bany => rw [exec_bany, execBany_eq, goTo_eq, State.cond]
  case ball => rw [exec_ball, execBall_eq, goTo_eq, State.cond]

end Sys2Proof.Machine

/-! PROOF. The matrix words when they are performed (19_matrix.md R335, R343, R347 to R349, 04_numbers.md R83 to R86): what is left in
the tiles, in the weight buffer, in scratchpad and in a warp's registers, and what is not touched. -/
namespace Sys2Proof.Machine

/-! ### Ranges of a map, bytes and fields -/

/-- A written range reads back what was written; every other key is as before. -/
theorem mget_msetRange {α : Type} [DecidableEq α] (d : α) (l : List α) (m : SMap α) (k j : Nat) :
    mget (msetRange d m k l) d j = if k ≤ j ∧ j < k + l.length then l.getD (j - k) d else mget m d j := by
  induction l generalizing m k with
  | nil => rw [if_neg (by simp only [List.length_nil]; omega)]; rfl
  | cons v r ih =>
    simp only [msetRange, ih, mget_mset, List.length_cons]
    rcases Nat.lt_trichotomy k j with h | rfl | h
    · obtain ⟨i, rfl⟩ : ∃ i, j = k + 1 + i := ⟨j - (k + 1), by omega⟩
      have e : k + 1 + i - k = i + 1 := by omega
      simp only [e, Nat.add_sub_cancel_left, List.getD_cons_succ, Nat.ne_of_lt h, if_false]
      exact if_congr (by omega) rfl rfl
    · simp
    · rw [if_neg (by omega), if_neg (by omega), if_neg (by omega)]

@[simp] theorem length_mrange {α : Type} (m : SMap α) (d : α) (k n : Nat) : (mrange m d k n).length = n := by
  induction n generalizing k with
  | zero => rfl
  | succ n ih => simp only [mrange, List.length_cons, ih]

theorem leNat_lt (l : List Byte) : leNat l < 256 ^ l.length := by
  induction l with
  | nil => decide
  | cons b r ih =>
    have hb : b.toNat < 256 := b.isLt
    simp only [leNat, List.length_cons, pow_succ]
    omega

theorem bitsOf_lt (x lo n : Nat) : bitsOf x lo n < 2 ^ n := Nat.mod_lt _ (Nat.two_pow_pos n)

/-! ### Tiles -/

theorem Core.setTile_succ_tiles (c : Core) (t m0 rows cols : Nat) (f : Nat → Nat → Nat) : (c.setTile t m0 (rows + 1) cols f).tiles =
    msetRange 0 (c.setTile t m0 rows cols f).tiles (4096 * t + 64 * (m0 + rows))
      ((List.range cols).map (fun n => BitVec.ofNat 32 (f (m0 + rows) n))) := by
  simp only [Core.setTile, List.range_succ, List.foldl_append, List.foldl_cons, List.foldl_nil]

/-- A tile's written elements read f; its others, and every other tile, are as before. -/
theorem Core.tile_setTile (c : Core) (t m0 rows cols : Nat) (f : Nat → Nat → Nat) (hr : m0 + rows ≤ 64) (hc : cols ≤ 64)
    {q m n : Nat} (hm : m < 64) (hn : n < 64) : (c.setTile t m0 rows cols f).tile q m n =
      if q = t ∧ (m0 ≤ m ∧ m < m0 + rows) ∧ n < cols then f m n % 2 ^ 32 else c.tile q m n := by
  induction rows with
  | zero => rw [if_neg (by omega)]; rfl
  | succ r ih =>
    have ih := ih (by omega)
    simp only [Core.tile, Core.setTile_succ_tiles, mget_msetRange, List.length_map, List.length_range] at ih ⊢
    by_cases h : q = t ∧ m = m0 + r ∧ n < cols
    · obtain ⟨rfl, rfl, hn'⟩ := h
      have e : 4096 * q + 64 * (m0 + r) + n - (4096 * q + 64 * (m0 + r)) = n := by omega
      rw [if_pos (by omega), if_pos (by omega), e]
      simp [List.getD_eq_getElem?_getD, hn']
    · rw [if_neg (by omega), ih]
      exact if_congr (by omega) rfl rfl

/-- The record of what the last `mma` wrote (R352) is no part of a tile. -/
theorem Core.tile_area (c : Core) (a : SMap (Nat × Nat)) (t m n : Nat) : ({ c with area := a } : Core).tile t m n = c.tile t m n := rfl

/-- A whole tile is written. -/
theorem Core.tile_setTile_whole (c : Core) (t : Nat) (f : Nat → Nat → Nat) {q m n : Nat} (hm : m < 64) (hn : n < 64) :
    (c.setTile t 0 64 64 f).tile q m n = if q = t then f m n % 2 ^ 32 else c.tile q m n := by
  rw [Core.tile_setTile c t 0 64 64 f (by omega) (by omega) hm hn]
  exact if_congr (by omega) rfl rfl

/-! ### What scale reads and source reads change -/

/-- Steps that change the memory side alone change it alone when they are folded. -/
theorem foldl_setMem {α : Type} {f : State → α → State} (h : ∀ s x, ∃ m, f s x = s.setMem m) (l : List α) (s : State) :
    ∃ m, l.foldl f s = s.setMem m := by
  induction l generalizing s with
  | nil => exact ⟨s.mem, rfl⟩
  | cons x r ih =>
    obtain ⟨m, hm⟩ := h s x
    obtain ⟨m', hm'⟩ := ih (f s x)
    exact ⟨m', by rw [List.foldl_cons, hm', hm]; rfl⟩

theorem touchByte_setMem (s : State) (d : Desc) (va : Nat) (wr : Bool) : ∃ m, touchByte s d va wr = s.setMem m := by
  obtain ⟨e, c, h⟩ := touchByte_cases s d va wr
  exact ⟨_, h⟩

theorem recallFrom_setMem (s : State) (core line : Nat) : ∃ m, recallFrom s core line = s.setMem m := by
  unfold recallFrom
  split
  · exact ⟨s.mem, rfl⟩
  · obtain ⟨o, dir, h, _⟩ := dropOwner_cases s line
    exact ⟨_, h⟩

/-- A scale read changes the memory side alone: owners, last accesses and channels. -/
theorem useScale_setMem (s : State) (core ctx a : Nat) : ∃ m, useScale s core ctx a = s.setMem m := by
  unfold useScale
  dsimp only
  split
  · exact ⟨s.mem, rfl⟩
  · split
    case _ d _ =>
      obtain ⟨m, hm⟩ := recallFrom_setMem s core (lineKey ctx (scaleCanon s core ctx a))
      obtain ⟨m', hm'⟩ := touchByte_setMem (recallFrom s core (lineKey ctx (scaleCanon s core ctx a))) d (scaleCanon s core ctx a) false
      exact ⟨m', by rw [hm', hm]; rfl⟩
    case _ => exact ⟨s.mem, rfl⟩

/-- The state in which a matrix word is performed: its scale reads have recalled owners and count as accesses. -/
def mopUses (s : State) (o : MOp) : State := (mopScaleVas s o).foldl (fun t a => useScale t o.core (s.blk o.blk).ctx a) s

/-- A scale read leaves the blocks, so that folded reads all have the context of the first. -/
theorem foldl_useScale_blk (l : List Nat) (core b : Nat) {s t : State} (h : t.blk b = s.blk b) :
    l.foldl (fun t a => useScale t core (t.blk b).ctx a) t = l.foldl (fun t a => useScale t core (s.blk b).ctx a) t := by
  induction l generalizing t with
  | nil => rfl
  | cons a r ih =>
    obtain ⟨m, hm⟩ := useScale_setMem t core (s.blk b).ctx a
    rw [List.foldl_cons, List.foldl_cons, h]
    exact ih (by rw [hm]; exact h)

theorem mopUses_setMem (s : State) (o : MOp) : ∃ m, mopUses s o = s.setMem m :=
  foldl_setMem (fun t a => useScale_setMem t o.core (s.blk o.blk).ctx a) _ s

@[simp] theorem core_mopUses (s : State) (o : MOp) (c : Nat) : (mopUses s o).core c = s.core c := by
  obtain ⟨m, h⟩ := mopUses_setMem s o
  rw [h]; rfl

/-- A `wbld`'s reads of its source change the memory side alone. -/
theorem wbldUse_setMem {s v : State} {o : MOp} {i : Image} {glob : Bool} {vas : List Nat} (h : wbldUse s o i = some (v, glob, vas)) :
    ∃ m, v = s.setMem m := by
  have hu : ∀ (t : State) (p : Desc × Nat), ∃ m, useByte t p.1 p.2 false = t.setMem m := by
    intro t p
    obtain ⟨_, _, _, _, h⟩ := useByte_read_cases t p.1 p.2
    exact ⟨_, h⟩
  obtain ⟨src, _, hv⟩ := Option.map_eq_some_iff.mp h
  simp only [Prod.mk.injEq] at hv
  obtain ⟨rfl, -⟩ := hv
  split
  · exact foldl_setMem hu _ s
  · exact ⟨s.mem, rfl⟩

/-- A held error of a word is in its warp and nowhere else. -/
@[simp] theorem core_deferMop (s : State) (o : MOp) (va c : Nat) : (deferMop s o va).core c = s.core c := by
  unfold deferMop; split <;> rfl

/-! ### The completion of a matrix word (R335, R336) -/

/-- A matrix word leaves its core's order and tl falls. -/
def State.retireMop (s : State) (id : Nat) (o : MOp) : State :=
  { s with work := { s.work with mops := mdel s.work.mops id } }.updWarp o.core o.wslot (fun w => { w with tl := w.tl - 1 })

@[simp] theorem State.core_retireMop (s : State) (id : Nat) (o : MOp) (c : Nat) : (s.retireMop id o).core c = s.core c := rfl
@[simp] theorem State.blk_retireMop (s : State) (id : Nat) (o : MOp) (b : Nat) : (s.retireMop id o).blk b = s.blk b := rfl
theorem State.warp_retireMop (s : State) (id : Nat) (o : MOp) : (s.retireMop id o).warp o.core o.wslot =
    { s.warp o.core o.wslot with tl := (s.warp o.core o.wslot).tl - 1 } := by
  rw [State.retireMop, State.warp_updWarp, if_pos rfl]; rfl

/-- The oldest word of its core that waits for nothing is performed. -/
theorem execMatrixComplete_performs {s : State} {id : Nat} {o : MOp} (hf : mfind s.work.mops id = some o) (ho : oldestMop s id o = true)
    (hw : mopWait s o = none) : exec (.matrixComplete id) s = .next ((performMop (mopUses s o) o).retireMop id o) := by
  rw [exec_matrixComplete, execMatrixComplete]
  simp only [hf, ho, hw, Bool.not_true, Bool.false_eq_true, if_false, foldl_useScale_blk (s := s) _ _ _ rfl]
  rfl

theorem mopOrg_of_tileWord {o : MOp} (h : 0xC8 ≤ o.code) : mopOrg o = none := by
  unfold mopOrg; exact if_pos h

/-- A tile word reads no scale. -/
theorem mopUses_of_tileWord (s : State) {o : MOp} (h : 0xC8 ≤ o.code) : mopUses s o = s := by
  rw [mopUses, mopScaleVas, mopOrg_of_tileWord h]; rfl

/-- A tile word waits for nothing but its turn. -/
theorem mopWait_of_tileWord (s : State) {o : MOp} (h : 0xC8 ≤ o.code) : mopWait s o = none := by
  have hv : mopScaleVas s o = [] := by rw [mopScaleVas, mopOrg_of_tileWord h]
  have hc : mopCorrupt s o = false := by rw [mopCorrupt, mopOrg_of_tileWord h]
  have hg : ¬ (0xC5 ≤ o.code ∧ o.code ≤ 0xC7) := by omega
  simp only [mopWait, hc, hv, hg, Bool.false_eq_true, if_false, List.findSome?_nil]

/-- A tile word that is the oldest of its core is performed in the state as it stands. -/
theorem execMatrixComplete_tileWord {s : State} {id : Nat} {o : MOp} (hf : mfind s.work.mops id = some o) (ho : oldestMop s id o = true)
    (h : 0xC8 ≤ o.code) : exec (.matrixComplete id) s = .next ((performMop s o).retireMop id o) := by
  rw [execMatrixComplete_performs hf ho (mopWait_of_tileWord s h), mopUses_of_tileWord s h]

/-! ### `tzero`, `tadd`, `tld`, `tmov` (R347 to R349) -/

theorem performMop_tzero (s : State) {o : MOp} (h : o.code = 0xC8) :
    performMop s o = s.updCore o.core (fun c => c.setTile o.t 0 64 64 (fun _ _ => 0)) := by
  simp [performMop, h]

theorem performMop_tadd (s : State) {o : MOp} (h : o.code = 0xCB) : performMop s o =
    s.updCore o.core (fun c => c.setTile o.t 0 64 64 (fun m n => fadd f32 .rne (c.tile o.t m n) (c.tile o.ts m n))) := by
  simp [performMop, h]

theorem performMop_tld (s : State) {o : MOp} (h : o.code = 0xCC) : performMop s o = performTld s o := by
  simp [performMop, h]

theorem performMop_tmov (s : State) {o : MOp} (h : o.code = 0xC9) : performMop s o = performTmov s o := by
  simp [performMop, h]

theorem performMop_tst (s : State) {o : MOp} (h : o.code = 0xCA) : performMop s o = performTst s o := by
  simp [performMop, h]

/-- The elements of the tile of a word that writes all of it by f of the core as it was. -/
theorem tile_updCore_whole (s : State) (o : MOp) (f : Core → Nat → Nat → Nat) {q m n : Nat} (hm : m < 64) (hn : n < 64) :
    ((s.updCore o.core (fun c => c.setTile o.t 0 64 64 (f c))).core o.core).tile q m n =
      if q = o.t then f (s.core o.core) m n % 2 ^ 32 else (s.core o.core).tile q m n := by
  rw [State.core_updCore, if_pos rfl, Core.tile_setTile_whole _ _ _ hm hn]

@[simp] theorem length_mopBytes (s : State) (o : MOp) (a n : Nat) : (mopBytes s o a n).length = n := by
  unfold mopBytes; split <;> simp

/-- An element that `tld` reads is a word of 32 bits. -/
theorem leNat_mopBytes_lt (s : State) (o : MOp) (a : Nat) : leNat (mopBytes s o a 4) < 2 ^ 32 := by
  simpa using leNat_lt (mopBytes s o a 4)

/-- `tld` fills its rows of its tile from scratchpad; the tile's other rows and every other tile are as before. -/
theorem tile_performTld (s : State) (o : MOp) :
    let a (n : Nat) : Nat := (o.args.getD n 0).toNat
    let row0 := bitsOf (a 1) 7 6
    row0 + bitsOf (a 1) 13 6 < 64 → ∀ q m n, m < 64 → n < 64 → ((performTld s o).core o.core).tile q m n =
      if q = o.t then
        if row0 ≤ m ∧ m ≤ row0 + bitsOf (a 1) 13 6 then leNat (mopBytes s o (a 0 + (m - row0) * a 2 + 4 * n) 4)
        else (s.core o.core).tile o.t m n
      else (s.core o.core).tile q m n := by
  dsimp only [performTld]
  intro hr q m n hm hn
  rw [State.core_updCore, if_pos rfl, Core.tile_setTile _ _ _ _ _ _ (by omega) (by omega) hm hn, Nat.mod_eq_of_lt (leNat_mopBytes_lt ..)]
  by_cases hq : q = o.t
  · subst hq
    rw [if_pos rfl]
    exact if_congr (by omega) rfl rfl
  · rw [if_neg hq, if_neg (fun h => hq h.1)]

theorem lanesMask_nil : lanesMask [] = 0#32 := by decide

/-- A `tmov` of which no lane has landed gives its row to the register pair in all lanes of em. -/
theorem warp_performTmov (s : State) {o : MOp} (hl : o.live = true) (h : o.landed = []) :
    let c := (o.args.getD 0 0).toNat
    let put (w : Warp) (r base : Nat) : Warp :=
      w.setV r o.em (fun i => BitVec.ofNat 32 ((s.core o.core).tile o.t (bitsOf c 7 6) (base + i)))
    (performTmov s o).warp o.core o.wslot = put (put (s.warp o.core o.wslot) (bitsOf c 0 7) 0) (bitsOf c 0 7 + 1) 32 := by
  have hm : o.em &&& ~~~(lanesMask o.landed) = o.em := by rw [h, lanesMask_nil, BitVec.not_zero, BitVec.and_allOnes]
  rw [performTmov, hm, tmovLanes]
  simp only [hl, if_true, State.warp_updWarp]

/-! ### `tst` (R349) -/

/-- Rows written to a block's scratchpad one after the other. -/
theorem spad_foldl_localWrite (rows : List (Nat × List Byte)) {s : State} {b : Nat} {x : Block} (h : mfind s.work.blocks b = some x) :
    ((rows.foldl (fun s r => localWrite s (.spad b) r.1 r.2) s).blk b).spad =
      rows.foldl (fun m r => msetRange 0 m r.1 r.2) x.spad := by
  induction rows generalizing s x with
  | nil => simp only [List.foldl_nil, State.blk, mget, h, Option.getD_some]
  | cons r rest ih =>
    have hw : localWrite s (.spad b) r.1 r.2 = s.setBlk b { x with spad := msetRange 0 x.spad r.1 r.2 } := by
      simp only [localWrite, h]
    rw [List.foldl_cons, List.foldl_cons, hw, ih (x := { x with spad := msetRange 0 x.spad r.1 r.2 })]
    simp only [State.setBlk, mfind_mput, if_true]

/-- A `tst` of which no later store has written a byte leaves all of its rows. -/
theorem spad_performTst {s : State} {o : MOp} {x : Block} (h : o.later = []) (hb : mfind s.work.blocks o.blk = some x) :
    ((performTst s o).blk o.blk).spad = (tstRows s o).foldl (fun m r => msetRange 0 m r.1 r.2) x.spad := by
  rw [performTst, h]
  exact spad_foldl_localWrite _ hb

/-! ### `wbld` (R338, R340, R341) -/

theorem performMop_wbld (s : State) {o : MOp} {i : Image} (h : 0xC5 ≤ o.code) (h' : o.code ≤ 0xC7) (hi : o.img = some i) :
    performMop s o = performWbld s o i := by
  have hm : ¬ o.code ≤ 0xC4 := by omega
  simp only [performMop, hm, h', hi, if_true, if_false]

/-- A `wbld` leaves the image's header, its source bytes and its scale codes in the weight buffer. -/
theorem wbuf_performWbld {s v : State} {o : MOp} {i : Image} {glob : Bool} {vas : List Nat}
    (h : wbldUse s o i = some (v, glob, vas)) : ((performWbld s o i).core o.core).wbuf = msetRange 0 (s.core o.core).wbuf i.off
      (imageHeader i ++ vas.map (fun p => (wbldByte v o glob p).1) ++ (wbldCodes v o i).map (fun c => BitVec.ofNat 8 c.1)) := by
  obtain ⟨m, hv⟩ := wbldUse_setMem h
  have hc : v.core o.core = s.core o.core := by rw [hv]; rfl
  simp only [performWbld, h]
  split <;> simp only [core_deferMop, State.core_updCore, if_true, hc, List.map_map, Function.comp_def]

/-! ### `mma` (R342, R343, R345) -/

theorem performMop_mma (s : State) {o : MOp} (h : o.code ≤ 0xC4) : performMop s o = performMmas s o := by
  simp only [performMop, h, if_true]

theorem parseMma_m_le (fmt : Nat) (args : List Word) : (parseMma fmt args).m ≤ 64 := bitsOf_lt ..
theorem parseMma_n_le (fmt : Nat) (args : List Word) : (parseMma fmt args).n ≤ 128 := bitsOf_lt ..

/-- The scale of row m of A and block j of k (R342). -/
def mmaScale (s : State) (o : MOp) (x : Mma) (m j : Nat) : Nat := if x.scaled then (mopScale s o x.org (m * x.ast + 32 * j)).1 else 127

/-- What an `mma` puts into element (m, n) of its tile on a core with an image. -/
def mmaSum (s : State) (o : MOp) (x : Mma) (c : Core) (i : Image) (m n : Nat) : Nat :=
  mmaElem s o x c i (mmaScale s o x m) m n (if x.z then 0 else c.tile o.t m n)

theorem mmaScale_eq (s : State) (o : MOp) (x : Mma) :
    (fun m j => (if x.scaled then mopScale s o x.org (m * x.ast + 32 * j) else (127, none)).1) = mmaScale s o x := by
  funext m j
  unfold mmaScale
  split <;> rfl

/-- An unpaired `mma` is performed on its own core. -/
theorem core_performMmas {s : State} {o : MOp} {i : Image} (hi : o.img = some i) (hp : o.partner = none) (c : Nat) :
    let x := parseMma (o.code - 0xC0) o.args
    (performMmas s o).core c = (performMma s o x o.core x.n i (mmaScale s o x)).core c := by
  intro x
  rw [← mmaScale_eq]
  simp only [performMmas, hi, hp]
  generalize lowestVa _ = bad
  cases bad with
  | none => rfl
  | some va => exact core_deferMop ..

/-- A paired `mma` is performed on its own core and then on its partner, with the same scales of A. -/
theorem core_performMmas_pair {s : State} {o : MOp} {i j : Image} {p : Nat} (hi : o.img = some i) (hp : o.partner = some p)
    (hj : o.pimg = some j) (c : Nat) :
    let x := parseMma (o.code - 0xC0) o.args
    (performMmas s o).core c =
      (performMma (performMma s o x o.core (x.n / 2) i (mmaScale s o x)) o x p (x.n / 2) j (mmaScale s o x)).core c := by
  intro x
  rw [← mmaScale_eq]
  simp only [performMmas, hi, hp, hj]
  generalize lowestVa _ = bad
  cases bad with
  | none => rfl
  | some va => exact core_deferMop ..

theorem core_performMma_ne (s : State) (o : MOp) (x : Mma) (nc : Nat) (i : Image) (sc : Nat → Nat → Nat) {core c : Nat} (h : core ≠ c) :
    (performMma s o x core nc i sc).core c = s.core c := by
  rw [performMma, State.core_updCore, if_neg h]

/-- What an `mma` leaves in the tiles of a core on which it is performed. -/
theorem tile_performMma (s : State) (o : MOp) (x : Mma) (core nc : Nat) (i : Image) (sc : Nat → Nat → Nat) (hx : x.m ≤ 64)
    (hnc : nc ≤ 64) {q m n : Nat} (hm : m < 64) (hn : n < 64) : ((performMma s o x core nc i sc).core core).tile q m n =
      if q = o.t ∧ m < x.m ∧ n < nc then mmaElem s o x (s.core core) i (sc m) m n (if x.z then 0 else (s.core core).tile o.t m n) % 2 ^ 32
      else (s.core core).tile q m n := by
  rw [performMma, State.core_updCore, if_pos rfl, Core.tile_area, Core.tile_setTile _ _ _ _ _ _ (by omega) hnc hm hn]
  exact if_congr (by omega) rfl rfl

/-- What an `mma` computes on one core does not depend on its having been performed on another. -/
theorem mmaElem_performMma (s : State) (o : MOp) (x : Mma) (core nc : Nat) (i j : Image) (sc : Nat → Nat → Nat) (c : Core)
    (scale : Nat → Nat) (m n acc : Nat) :
    mmaElem (performMma s o x core nc i sc) o x c j scale m n acc = mmaElem s o x c j scale m n acc := rfl

/-- What an unpaired `mma` leaves in the tiles of its core. -/
theorem tile_performMmas {s : State} {o : MOp} {i : Image} (hi : o.img = some i) (hp : o.partner = none) :
    let x := parseMma (o.code - 0xC0) o.args
    x.n ≤ 64 → ∀ q m n, m < 64 → n < 64 → ((performMmas s o).core o.core).tile q m n =
      if q = o.t ∧ m < x.m ∧ n < x.n then mmaSum s o x (s.core o.core) i m n % 2 ^ 32 else (s.core o.core).tile q m n := by
  intro x hx q m n hm hn
  rw [core_performMmas hi hp, tile_performMma _ _ _ _ _ _ _ (parseMma_m_le ..) hx hm hn]
  rfl

/-- What a paired `mma` leaves in the tiles of its core and of its partner. -/
theorem tile_performMmas_pair {s : State} {o : MOp} {i j : Image} {p : Nat} (hi : o.img = some i) (hp : o.partner = some p)
    (hj : o.pimg = some j) (hne : p ≠ o.core) :
    let x := parseMma (o.code - 0xC0) o.args
    let becomes (c : Nat) (i : Image) : Prop := ∀ q m n, m < 64 → n < 64 → ((performMmas s o).core c).tile q m n =
      if q = o.t ∧ m < x.m ∧ n < x.n / 2 then mmaSum s o x (s.core c) i m n % 2 ^ 32 else (s.core c).tile q m n
    becomes o.core i ∧ becomes p j := by
  intro x becomes
  have hx : x.m ≤ 64 := parseMma_m_le ..
  have hn2 : x.n / 2 ≤ 64 := by have : x.n ≤ 128 := parseMma_n_le ..; omega
  constructor
  · intro q m n hm hn
    rw [core_performMmas_pair hi hp hj, core_performMma_ne _ _ _ _ _ _ hne, tile_performMma _ _ _ _ _ _ _ hx hn2 hm hn]
    rfl
  · intro q m n hm hn
    rw [core_performMmas_pair hi hp hj, tile_performMma _ _ _ _ _ _ _ hx hn2 hm hn, mmaElem_performMma,
      core_performMma_ne _ _ _ _ _ _ hne.symm]
    rfl

/-! ### The words' effects together -/

/-- Settles O44, a case for each word: the oldest word is performed, and what it leaves is read back by its lemma. -/
theorem tilesAreZeroedAndAdded : Obligations.TilesAreZeroedAndAdded := by
  intro s id o hf ho k a writes
  refine ⟨?tzero, ?tadd, ?tld, ?tmov, ?tst, fun hw => ⟨?wbld, ?mma⟩⟩
  case tzero =>
    intro h
    refine ⟨_, execMatrixComplete_tileWord hf ho (by omega), fun q m n hm hn => ?_⟩
    rw [State.core_retireMop, performMop_tzero s h]
    exact tile_updCore_whole s o (fun _ _ _ => 0) hm hn
  case tadd =>
    intro h
    refine ⟨_, execMatrixComplete_tileWord hf ho (by omega), fun q m n hm hn => ?_⟩
    rw [State.core_retireMop, performMop_tadd s h]
    exact tile_updCore_whole s o (fun c m n => fadd f32 .rne (c.tile o.t m n) (c.tile o.ts m n)) hm hn
  case tld =>
    intro h hr row0
    refine ⟨_, execMatrixComplete_tileWord hf ho (by omega), fun q m n hm hn => ?_⟩
    rw [State.core_retireMop, performMop_tld s h]
    exact tile_performTld s o hr q m n hm hn
  case tmov =>
    intro h hl hn
    refine ⟨_, execMatrixComplete_tileWord hf ho (by omega), ?_⟩
    rw [State.warp_retireMop, performMop_tmov s h, warp_performTmov s hl hn]
  case tst =>
    intro x h hl hb
    refine ⟨_, execMatrixComplete_tileWord hf ho (by omega), ?_⟩
    rw [State.blk_retireMop, performMop_tst s h, spad_performTst hl hb, tstRows, List.foldl_map]
  case wbld =>
    intro i v glob vas h h' hi hu
    refine ⟨_, execMatrixComplete_performs hf ho hw, ?_⟩
    rw [State.core_retireMop, performMop_wbld _ h h' hi, wbuf_performWbld (s := mopUses s o) hu, core_mopUses]
    cases glob <;> rfl
  case mma =>
    intro h x es b scale elem becomes
    have he := execMatrixComplete_performs hf ho hw
    rw [performMop_mma _ h] at he
    constructor
    · intro i hi hp hx
      refine ⟨_, he, fun q m n hm hn => ?_⟩
      rw [State.core_retireMop, tile_performMmas hi hp hx q m n hm hn, core_mopUses]
      rfl
    · intro i c j hi hp hj hne
      obtain ⟨h1, h2⟩ := tile_performMmas_pair (s := mopUses s o) hi hp hj hne
      refine ⟨_, he, fun q m n hm hn => ?_, fun q m n hm hn => ?_⟩
      · rw [State.core_retireMop, h1 q m n hm hn, core_mopUses]; rfl
      · rw [State.core_retireMop, h2 q m n hm hn, core_mopUses]; rfl

end Sys2Proof.Machine

/-! PROOF. The words of progress and conditions (21_work.md R381, R384): a word whose effect is on the work side completes by way of
it, and the graph in which the issuing task runs. -/
namespace Sys2Proof.Machine

/-! ### Words that complete by way of an effect (05_control.md R97) -/

/-- A word that moves on from its effect, which leaves the splits, the tokens and the slot alone, completes by way of it. -/
theorem advance_completesVia {i : Instr} {s u : State} {n : Nat} (he : exec i s = .next (u.advance n)) (hn : n = wordsOf i)
    (hf : u.focus = s.focus) (hr : u.run = s.run) (hs : u.hwarp.splits = s.hwarp.splits) (ht : u.hwarp.tokens = s.hwarp.tokens) :
    CompletesVia i s u :=
  ⟨_, he, advance_moved .., advance_onward hn hf hr hs ht⟩

/-- An effect on the records of the work side alone. -/
theorem setWork_completesVia {i : Instr} {s : State} {w : Work} {n : Nat} (he : exec i s = .next ((s.setWork w).advance n))
    (hn : n = wordsOf i) : CompletesVia i s (s.setWork w) :=
  advance_completesVia he hn rfl rfl rfl rfl

/-- An effect on those records and on the warp that issues. -/
theorem setWork_updHere_completesVia {i : Instr} {s : State} {w : Work} {g : Warp → Warp} {n : Nat}
    (he : exec i s = .next (((s.setWork w).updHere g).advance n)) (hn : n = wordsOf i) (hs : (g s.hwarp).splits = s.hwarp.splits)
    (ht : (g s.hwarp).tokens = s.hwarp.tokens) : CompletesVia i s ((s.setWork w).updHere g) :=
  advance_completesVia he hn rfl (State.run_updHere ..) (by rw [State.hwarp_updHere]; exact hs) (by rw [State.hwarp_updHere]; exact ht)

/-! ### Progress (R375, R381) -/

/-- Progress is recorded in the block, on the work side, and nowhere for a handler context. -/
theorem State.progress_setWork (s : State) : ∃ w, s.progress = s.setWork w := by
  unfold State.progress
  split
  · exact ⟨s.work, rfl⟩
  · exact ⟨_, rfl⟩

theorem hbeat_completesVia (s : State) : CompletesVia .hbeat s s.progress := by
  have he : exec .hbeat s = .next (s.progress.advance 1) := exec_hbeat s
  obtain ⟨w, hw⟩ := s.progress_setWork
  rw [hw] at he ⊢
  exact setWork_completesVia he rfl

/-! ### Condition words (R384) -/

/-- The graph in which the issuing task runs, with its number; none outside a graph. -/
def State.hgraph (s : State) : Option (Nat × Graph) :=
  (s.task s.hblk.task).bind (fun t => if t.graph = 0 then none else (mfind s.work.graphs (t.graph - 1)).map (fun g => (t.graph - 1, g)))

theorem State.hgraph_of_noTask {s : State} (h : s.task s.hblk.task = none) : s.hgraph = none := by
  rw [State.hgraph, h, Option.bind_none]

theorem State.hgraph_of_task {s : State} {t : Task} (h : s.task s.hblk.task = some t) :
    s.hgraph = if t.graph = 0 then none else (mfind s.work.graphs (t.graph - 1)).map (fun g => (t.graph - 1, g)) := by
  rw [State.hgraph, h, Option.bind_some]

/-- A task belongs to no graph where it names graph 0, or a graph that is gone. -/
theorem State.hgraph_of_noGraph {s : State} {t : Task} (h : s.task s.hblk.task = some t)
    (hg : t.graph = 0 ∨ mfind s.work.graphs (t.graph - 1) = none) : s.hgraph = none := by
  rw [State.hgraph_of_task h]
  obtain h0 | hn := hg
  · rw [if_pos h0]
  · rw [hn, Option.map_none, ite_self]

theorem State.hgraph_of_graph {s : State} {t : Task} {g : Graph} (h : s.task s.hblk.task = some t) (h0 : t.graph ≠ 0)
    (hg : mfind s.work.graphs (t.graph - 1) = some g) : s.hgraph = some (t.graph - 1, g) := by
  rw [State.hgraph_of_task h, if_neg h0, hg, Option.map_some]

/-- The work side once x is written to condition word idx of graph k, whose record is g. -/
def Work.putCond (w : Work) (k : Nat) (g : Graph) (idx : Nat) (x : Word) : Work :=
  { w with graphs := mput w.graphs k { g with cond := mset 0 g.cond idx x } }

theorem execWcond_outside {s : State} (hr : s.hblk.isReplay = false) (hg : s.hgraph = none) (d : SReg) (idx : Fin 16) :
    execWcond d idx s = .next ((s.updHere (·.setScc false)).advance 1) := by
  unfold State.hgraph at hg
  simp only [execWcond, hr, hg, Bool.false_eq_true, if_false]

theorem execWcond_inside {s : State} {k : Nat} {g : Graph} (hr : s.hblk.isReplay = false) (hg : s.hgraph = some (k, g))
    (d : SReg) (idx : Fin 16) : execWcond d idx s =
      .next (((s.setWork (s.work.putCond k g idx.val (s.hwarp.s d.val))).updHere (·.setScc true)).advance 1) := by
  unfold State.hgraph at hg
  simp only [execWcond, hr, hg, Bool.false_eq_true, if_false]
  rfl

/-- Outside a graph `wcond` clears `scc` and changes nothing else. -/
theorem wcond_completes {s : State} (hr : s.hblk.isReplay = false) (hg : s.hgraph = none) (d : SReg) (idx : Fin 16) :
    Completes (.wcond d idx) s (·.setScc false) :=
  updHere_completes ((exec_wcond s).trans (execWcond_outside hr hg d idx)) rfl rfl rfl

/-- In a graph `wcond` writes the condition word and sets `scc`. -/
theorem wcond_completesVia {s : State} {k : Nat} {g : Graph} (hr : s.hblk.isReplay = false) (hg : s.hgraph = some (k, g))
    (d : SReg) (idx : Fin 16) :
    CompletesVia (.wcond d idx) s ((s.setWork (s.work.putCond k g idx.val (s.hwarp.s d.val))).updHere (·.setScc true)) :=
  setWork_updHere_completesVia ((exec_wcond s).trans (execWcond_inside hr hg d idx)) rfl rfl rfl

/-- Settles O35: `hbeat` completes by way of the progress it records; `wcond` by whether the issuing task runs in a graph. -/
theorem heartbeatAndConditions : Obligations.HeartbeatAndConditions := by
  intro s d idx t g
  refine ⟨hbeat_completesVia s, ?noTask, fun hr ht => ⟨?noGraph, ?graph⟩⟩
  case noTask => exact fun hr ht => wcond_completes hr (State.hgraph_of_noTask ht) d idx
  case noGraph => exact fun hg => wcond_completes hr (State.hgraph_of_noGraph ht hg) d idx
  case graph => exact fun h0 hg => wcond_completesVia hr (State.hgraph_of_graph ht h0 hg) d idx

end Sys2Proof.Machine

/-! PROOF. Decoding reads back every encoding (02_encoding.md R33 to R46): the lemmas of the single words, put together. -/
namespace Sys2Proof.Laws

/-- Decoding and encoding agree on every instruction: each word by its own lemma, and an event has no encoding. -/
theorem statement_every (i : Instr) : Encoding.Statement i := by
  cases i with
  | sadd d a b => exact Encoding.sadd d a b
  | ssub d a b => exact Encoding.ssub d a b
  | smul d a b => exact Encoding.smul d a b
  | smulhi d a b => exact Encoding.smulhi d a b
  | sand d a b => exact Encoding.sand d a b
  | sor d a b => exact Encoding.sor d a b
  | sxor d a b => exact Encoding.sxor d a b
  | sshl d a b => exact Encoding.sshl d a b
  | sshr d a b => exact Encoding.sshr d a b
  | ssra d a b => exact Encoding.ssra d a b
  | smin d a b => exact Encoding.smin d a b
  | smax d a b => exact Encoding.smax d a b
  | scmp c a b => exact Encoding.scmp c a b
  | ssel d a b => exact Encoding.ssel d a b
  | sadd64 d a b => exact Encoding.sadd64 d a b
  | smov d a => exact Encoding.smov d a
  | jmp off => exact Encoding.jmp off
  | bscc c off => exact Encoding.bscc c off
  | bdiv mk c off => exact Encoding.bdiv mk c off
  | bany mk c off => exact Encoding.bany mk c off
  | ball mk c off => exact Encoding.ball mk c off
  | join off => exact Encoding.join off
  | brk mk c off => exact Encoding.brk mk c off
  | call off => exact Encoding.call off
  | ret => exact Encoding.ret
  | exit => exact Encoding.exit
  | mand d a b => exact Encoding.mand d a b
  | mor d a b => exact Encoding.mor d a b
  | mxor d a b => exact Encoding.mxor d a b
  | mandn d a b => exact Encoding.mandn d a b
  | mfrom d => exact Encoding.mfrom d
  | mto d a => exact Encoding.mto d a
  | vaddI32 d a b p => exact Encoding.vaddI32 d a b p
  | vsubI32 d a b p => exact Encoding.vsubI32 d a b p
  | vmulI32 d a b p => exact Encoding.vmulI32 d a b p
  | vmulhiI32 d a b p => exact Encoding.vmulhiI32 d a b p
  | vmulhiN32 d a b p => exact Encoding.vmulhiN32 d a b p
  | vmadI32 d a b p => exact Encoding.vmadI32 d a b p
  | vandB32 d a b p => exact Encoding.vandB32 d a b p
  | vorB32 d a b p => exact Encoding.vorB32 d a b p
  | vxorB32 d a b p => exact Encoding.vxorB32 d a b p
  | vshlB32 d a b p => exact Encoding.vshlB32 d a b p
  | vshrN32 d a b p => exact Encoding.vshrN32 d a b p
  | vshrI32 d a b p => exact Encoding.vshrI32 d a b p
  | vminI32 d a b p => exact Encoding.vminI32 d a b p
  | vminN32 d a b p => exact Encoding.vminN32 d a b p
  | vmaxI32 d a b p => exact Encoding.vmaxI32 d a b p
  | vmaxN32 d a b p => exact Encoding.vmaxN32 d a b p
  | vaddF32 d a b p => exact Encoding.vaddF32 d a b p
  | vfmaF32 d a b p => exact Encoding.vfmaF32 d a b p
  | vsubF32 d a b p => exact Encoding.vsubF32 d a b p
  | vmulF32 d a b p => exact Encoding.vmulF32 d a b p
  | vminF32 d a b p => exact Encoding.vminF32 d a b p
  | vmaxF32 d a b p => exact Encoding.vmaxF32 d a b p
  | vrcpF32 d a p => exact Encoding.vrcpF32 d a p
  | vrsqrtF32 d a p => exact Encoding.vrsqrtF32 d a p
  | vsqrtF32 d a p => exact Encoding.vsqrtF32 d a p
  | vexp2F32 d a p => exact Encoding.vexp2F32 d a p
  | vlog2F32 d a p => exact Encoding.vlog2F32 d a p
  | vabsF32 d a p => exact Encoding.vabsF32 d a p
  | vnegF32 d a p => exact Encoding.vnegF32 d a p
  | vfmsF32 d a b p => exact Encoding.vfmsF32 d a b p
  | vrndF32 d a mode p => exact Encoding.vrndF32 d a mode p
  | vclassF32 d a p => exact Encoding.vclassF32 d a p
  | vaddF16 d a b p => exact Encoding.vaddF16 d a b p
  | vfmaF16 d a b p => exact Encoding.vfmaF16 d a b p
  | vmulF16 d a b p => exact Encoding.vmulF16 d a b p
  | vaddBf16 d a b p => exact Encoding.vaddBf16 d a b p
  | vfmaBf16 d a b p => exact Encoding.vfmaBf16 d a b p
  | vmulBf16 d a b p => exact Encoding.vmulBf16 d a b p
  | vmovB32 d a p => exact Encoding.vmovB32 d a p
  | vpopcB32 d a p => exact Encoding.vpopcB32 d a p
  | vclzB32 d a p => exact Encoding.vclzB32 d a p
  | vbrevB32 d a p => exact Encoding.vbrevB32 d a p
  | vdot4I8 d a b p => exact Encoding.vdot4I8 d a b p
  | vaddF32Rz d a b p => exact Encoding.vaddF32Rz d a b p
  | vaddF32Ru d a b p => exact Encoding.vaddF32Ru d a b p
  | vaddF32Rd d a b p => exact Encoding.vaddF32Rd d a b p
  | vsubF32Rz d a b p => exact Encoding.vsubF32Rz d a b p
  | vsubF32Ru d a b p => exact Encoding.vsubF32Ru d a b p
  | vsubF32Rd d a b p => exact Encoding.vsubF32Rd d a b p
  | vmulF32Rz d a b p => exact Encoding.vmulF32Rz d a b p
  | vmulF32Ru d a b p => exact Encoding.vmulF32Ru d a b p
  | vmulF32Rd d a b p => exact Encoding.vmulF32Rd d a b p
  | vfmaF32Rz d a b p => exact Encoding.vfmaF32Rz d a b p
  | vfmaF32Ru d a b p => exact Encoding.vfmaF32Ru d a b p
  | vfmaF32Rd d a b p => exact Encoding.vfmaF32Rd d a b p
  | vcmpI32 c m a b p => exact Encoding.vcmpI32 c m a b p
  | vcmpN32 c m a b p => exact Encoding.vcmpN32 c m a b p
  | vcmpF32 c m a b p => exact Encoding.vcmpF32 c m a b p
  | vselB32 d a b => exact Encoding.vselB32 d a b
  | vcvtF32I32 d a k p => exact Encoding.vcvtF32I32 d a k p
  | vcvtF32N32 d a k p => exact Encoding.vcvtF32N32 d a k p
  | vcvtI32F32 d a k p => exact Encoding.vcvtI32F32 d a k p
  | vcvtN32F32 d a k p => exact Encoding.vcvtN32F32 d a k p
  | vcvtF16F32 d a k p => exact Encoding.vcvtF16F32 d a k p
  | vcvtBf16F32 d a k p => exact Encoding.vcvtBf16F32 d a k p
  | vcvtE4m3F32 d a k p => exact Encoding.vcvtE4m3F32 d a k p
  | vcvtE5m2F32 d a k p => exact Encoding.vcvtE5m2F32 d a k p
  | vcvtLog6F32 d a k p => exact Encoding.vcvtLog6F32 d a k p
  | vcvtF32F16 d a k p => exact Encoding.vcvtF32F16 d a k p
  | vcvtF32Bf16 d a k p => exact Encoding.vcvtF32Bf16 d a k p
  | vcvtF32E4m3 d a k p => exact Encoding.vcvtF32E4m3 d a k p
  | vcvtF32E5m2 d a k p => exact Encoding.vcvtF32E5m2 d a k p
  | vcvtF32Log6 d a k p => exact Encoding.vcvtF32Log6 d a k p
  | vscvt d a k p => exact Encoding.vscvt d a k p
  | vshflB32 d a b p => exact Encoding.vshflB32 d a b p
  | vnblB32 d a sel p => exact Encoding.vnblB32 d a sel p
  | vnbrB32 d a sel p => exact Encoding.vnbrB32 d a sel p
  | vbcastB32 d a b p => exact Encoding.vbcastB32 d a b p
  | vredAddI32 d a p => exact Encoding.vredAddI32 d a p
  | vredAddF32 d a p => exact Encoding.vredAddF32 d a p
  | vredMaxF32 d a p => exact Encoding.vredMaxF32 d a p
  | vredMinF32 d a p => exact Encoding.vredMinF32 d a p
  | vscanAddI32 d a p => exact Encoding.vscanAddI32 d a p
  | vscanAddF32 d a p => exact Encoding.vscanAddF32 d a p
  | vballot m a p => exact Encoding.vballot m a p
  | vrdlane d a b => exact Encoding.vrdlane d a b
  | ldN8 d sb vo sc x => exact Encoding.ldN8 d sb vo sc x
  | ldI8 d sb vo sc x => exact Encoding.ldI8 d sb vo sc x
  | ldN16 d sb vo sc x => exact Encoding.ldN16 d sb vo sc x
  | ldI16 d sb vo sc x => exact Encoding.ldI16 d sb vo sc x
  | ldB32 d sb vo sc x => exact Encoding.ldB32 d sb vo sc x
  | ldB64 d sb vo sc x => exact Encoding.ldB64 d sb vo sc x
  | ldB128 d sb vo sc x => exact Encoding.ldB128 d sb vo sc x
  | stB8 d sb vo sc x => exact Encoding.stB8 d sb vo sc x
  | stB16 d sb vo sc x => exact Encoding.stB16 d sb vo sc x
  | stB32 d sb vo sc x => exact Encoding.stB32 d sb vo sc x
  | stB64 d sb vo sc x => exact Encoding.stB64 d sb vo sc x
  | stB128 d sb vo sc x => exact Encoding.stB128 d sb vo sc x
  | ldLane d vo wd x => exact Encoding.ldLane d vo wd x
  | stLane d vo wd x => exact Encoding.stLane d vo wd x
  | ldSp d vo wd x => exact Encoding.ldSp d vo wd x
  | stSp d vo wd x => exact Encoding.stSp d vo wd x
  | ldCm d vo wd x => exact Encoding.ldCm d vo wd x
  | stCm d vo wd x => exact Encoding.stCm d vo wd x
  | ldCst d vo wd x => exact Encoding.ldCst d vo wd x
  | stCst d vo wd x => exact Encoding.stCst d vo wd x
  | sldB32 d sb sc x => exact Encoding.sldB32 d sb sc x
  | sstB32 d sb sc x => exact Encoding.sstB32 d sb sc x
  | pf sb vo sc x => exact Encoding.pf sb vo sc x
  | cinv sb vo x => exact Encoding.cinv sb vo x
  | xprobe d sb x => exact Encoding.xprobe d sb x
  | xinfo d sb sel => exact Encoding.xinfo d sb sel
  | hpin d sb => exact Encoding.hpin d sb
  | hdemote d sb => exact Encoding.hdemote d sb
  | hprio d sb sel => exact Encoding.hprio d sb sel
  | hunpin d sb => exact Encoding.hunpin d sb
  | atomAddI32 d sb vo sc x => exact Encoding.atomAddI32 d sb vo sc x
  | atomAddF32 d sb vo sc x => exact Encoding.atomAddF32 d sb vo sc x
  | atomMinI32 d sb vo sc x => exact Encoding.atomMinI32 d sb vo sc x
  | atomMaxI32 d sb vo sc x => exact Encoding.atomMaxI32 d sb vo sc x
  | atomMinN32 d sb vo sc x => exact Encoding.atomMinN32 d sb vo sc x
  | atomMaxN32 d sb vo sc x => exact Encoding.atomMaxN32 d sb vo sc x
  | atomAndB32 d sb vo sc x => exact Encoding.atomAndB32 d sb vo sc x
  | atomOrB32 d sb vo sc x => exact Encoding.atomOrB32 d sb vo sc x
  | atomXchgB32 d sb vo sc x => exact Encoding.atomXchgB32 d sb vo sc x
  | atomCasB32 d sb vo sc x => exact Encoding.atomCasB32 d sb vo sc x
  | atomAddI64 d sb vo sc x => exact Encoding.atomAddI64 d sb vo sc x
  | atomXchgB64 d sb vo sc x => exact Encoding.atomXchgB64 d sb vo sc x
  | atomCasB64 d sb vo sc x => exact Encoding.atomCasB64 d sb vo sc x
  | atomCasB128 d sb vo sc x => exact Encoding.atomCasB128 d sb vo sc x
  | bredAddF32 d sb vo sc x => exact Encoding.bredAddF32 d sb vo sc x
  | ldBnd d sb vo sc x => exact Encoding.ldBnd d sb vo sc x
  | barInit sb sv d sc => exact Encoding.barInit sb sv d sc
  | barArrive sb sv d => exact Encoding.barArrive sb sv d
  | barExpect sb sv d => exact Encoding.barExpect sb sv d
  | barWait sb sv d => exact Encoding.barWait sb sv d
  | barTest sb sv d => exact Encoding.barTest sb sv d
  | barDrop sb d => exact Encoding.barDrop sb d
  | wait ld st cp tl rm sc => exact Encoding.wait ld st cp tl rm sc
  | bdrain sc => exact Encoding.bdrain sc
  | rldB32 d sb vp sc x => exact Encoding.rldB32 d sb vp sc x
  | rldB64 d sb vp sc x => exact Encoding.rldB64 d sb vp sc x
  | rldB128 d sb vp sc x => exact Encoding.rldB128 d sb vp sc x
  | rstB32 d sb vp sc x => exact Encoding.rstB32 d sb vp sc x
  | rstB64 d sb vp sc x => exact Encoding.rstB64 d sb vp sc x
  | ratom d sb vp sc x => exact Encoding.ratom d sb vp sc x
  | rred d sb vp sc x => exact Encoding.rred d sb vp sc x
  | rmcast d sb vp sc x => exact Encoding.rmcast d sb vp sc x
  | mmaE4m3 t sa sw sk pr => exact Encoding.mmaE4m3 t sa sw sk pr
  | mmaE5m2 t sa sw sk pr => exact Encoding.mmaE5m2 t sa sw sk pr
  | mmaBf16 t sa sw sk pr => exact Encoding.mmaBf16 t sa sw sk pr
  | mmaF16 t sa sw sk pr => exact Encoding.mmaF16 t sa sw sk pr
  | mmaLog6 t sa sw sk pr => exact Encoding.mmaLog6 t sa sw sk pr
  | wbldDense sa sw sk => exact Encoding.wbldDense sa sw sk
  | wbldSp24 sa sw sk => exact Encoding.wbldSp24 sa sw sk
  | wbldCb4 sa sw sk => exact Encoding.wbldCb4 sa sw sk
  | tzero t => exact Encoding.tzero t
  | tmov t sa => exact Encoding.tmov t sa
  | tst t sa sk => exact Encoding.tst t sa sk
  | tadd td ts => exact Encoding.tadd td ts
  | tld t sa sk => exact Encoding.tld t sa sk
  | cpStart cb tk => exact Encoding.cpStart cb tk
  | cpRect cb tk => exact Encoding.cpRect cb tk
  | cpFill cb tk => exact Encoding.cpFill cb tk
  | cpTier cb tk => exact Encoding.cpTier cb tk
  | xgStart cb tk => exact Encoding.xgStart cb tk
  | xgCancel cb tk d => exact Encoding.xgCancel cb tk d
  | tokTest tk d => exact Encoding.tokTest tk d
  | cpCancel tk d => exact Encoding.cpCancel tk d
  | xgQuery tk d sel => exact Encoding.xgQuery tk d sel
  | cpBcast cb tk => exact Encoding.cpBcast cb tk
  | trap imm => exact Encoding.trap imm
  | brkpt imm => exact Encoding.brkpt imm
  | rdsr d sel => exact Encoding.rdsr d sel
  | wrsr d sel => exact Encoding.wrsr d sel
  | fret mode => exact Encoding.fret mode
  | fkill unit => exact Encoding.fkill unit
  | frd d item lane idx => exact Encoding.frd d item lane idx
  | pclr d r => exact Encoding.pclr d r
  | wfetch sg st => exact Encoding.wfetch sg st
  | hbeat => exact Encoding.hbeat
  | rgclaim d n => exact Encoding.rgclaim d n
  | rgrel d n => exact Encoding.rgrel d n
  | wdone sg st => exact Encoding.wdone sg st
  | wcond d idx => exact Encoding.wcond d idx
  | wlaunch sg st => exact Encoding.wlaunch sg st
  | wyield d => exact Encoding.wyield d
  | _ => exact Encoding.of_event rfl

/-- Settles O53: a well-formed word of each constructor is read back. -/
theorem decodeReadsBackEveryEncoding : Obligations.DecodeReadsBackEveryEncoding :=
  fun i rest hw hwf => statement_every i hw hwf rest

end Sys2Proof.Laws

/-! PROOF. The scalar, compare and mask words (05_control.md R92 to R95) and what their operands supply (02_encoding.md R34). -/
namespace Sys2Proof.Machine

/-! ### The shapes of the words -/

theorem opWords_eq (a b : Operand) : opWords a b = if (lit2 a b).isSome then 2 else 1 := by
  simp only [opWords, lit2, Option.isSome_or]

theorem opWords_int (a : Operand) (k : Fin 32) : opWords a (.int k) = if a.lit?.isSome then 2 else 1 := by
  rw [opWords_eq, lit2, show (Operand.int k).lit? = none from rfl, Option.or_none]

/-- A word of the scalar shape completes with its value. -/
theorem sca_completes {i : Instr} {s : State} {d : SReg} {a b : Operand} {x y : Word} (he : exec i s = sca s d a b x)
    (hn : opWords a b = wordsOf i) (hx : x = y) : Completes i s (·.setS d.val y) :=
  updHere_completes (hx ▸ he) hn rfl rfl

/-- A word of the mask shape completes with its value. -/
theorem msk_completes {i : Instr} {s : State} {d : MReg} {x : Word} (he : exec i s = msk s d x) (hn : 1 = wordsOf i) :
    Completes i s (·.setM d.val x) :=
  updHere_completes he hn rfl rfl

/-- `scmp` completes with its condition in `scc`. -/
theorem scmp_completes {s : State} {c : Fin 10} {a b : Operand} {p : Bool} (h : scmpHolds c (s.sopVal a) (s.sopVal b) = p) :
    Completes (.scmp c a b) s (·.setScc p) :=
  updHere_completes (h ▸ rfl) (opWords_eq a b) rfl rfl

/-! ### Values -/

/-- An arithmetic shift by 32 or more leaves copies of the sign bit. -/
theorem sraW_eq (x y : Word) :
    sraW x y = if y.toNat < 32 then x.sshiftRight y.toNat else if x.msb then 0xFFFFFFFF else 0 := by
  unfold sraW
  split
  · rename_i h; rw [Nat.min_eq_left (by omega)]
  · rename_i h
    rw [Nat.min_eq_right (by omega)]
    have ones : (if x.msb then 0xFFFFFFFF else 0 : Word) = if x.msb then BitVec.allOnes 32 else 0 := rfl
    rw [ones]
    ext i hi
    rw [BitVec.getElem_sshiftRight, dif_neg (by omega)]
    cases x.msb
    · simp
    · rw [if_pos rfl, BitVec.getElem_allOnes]

theorem minS_eq (x y : Word) : minS x y = if x.toInt ≤ y.toInt then x else y := by
  simp only [minS, BitVec.slt_eq_decide, decide_eq_true_eq, ← not_le, ite_not]

theorem maxS_eq (x y : Word) : maxS x y = if y.toInt ≤ x.toInt then x else y := by
  simp only [maxS, BitVec.slt_eq_decide, decide_eq_true_eq, ← not_le, ite_not]

theorem low_word (x : DWord) : x.extractLsb' 0 32 = x.setWidth 32 := by
  ext i hi; simp
theorem high_word (x : DWord) : x.extractLsb' 32 32 = (x >>> 32).setWidth 32 := by
  ext i hi; simp

/-! ### The obligations -/

/-- Settles O1: each word has one of three shapes, and its value is the table's. -/
theorem scalarWords : Obligations.ScalarWords := by
  refine ⟨fun s d a b => ?_, fun s a b => ?_, fun s d a b => ?_⟩
  · intro x y
    refine ⟨?sadd, ?ssub, ?smul, ?smulhi, ?sand, ?sor, ?sxor, ?sshl, ?sshr, ?ssra, ?smin, ?smax, ?ssel, ?smov, ?sadd64⟩
    case ssra => exact sca_completes rfl (opWords_eq a b) (sraW_eq x y)
    case smin => exact sca_completes rfl (opWords_eq a b) (minS_eq x y)
    case smax => exact sca_completes rfl (opWords_eq a b) (maxS_eq x y)
    case smov => exact sca_completes rfl (opWords_int a 16) rfl
    case sadd64 =>
      refine updHere_completes (n := opWords a b) ?_ (opWords_eq a b) rfl rfl
      simp only [exec_sadd64, execSadd64, low_word, high_word]
    all_goals exact sca_completes rfl (opWords_eq a b) rfl
  · intro x y
    exact ⟨scmp_completes rfl, scmp_completes (decide_not ..).symm, scmp_completes rfl, scmp_completes rfl, scmp_completes rfl,
      scmp_completes rfl, scmp_completes rfl, scmp_completes rfl, scmp_completes rfl, scmp_completes rfl⟩
  · refine ⟨msk_completes rfl rfl, msk_completes rfl rfl, msk_completes rfl rfl, msk_completes rfl rfl, msk_completes rfl rfl,
      _, msk_completes rfl rfl, fun i hi => ?_⟩
    simp only [BitVec.getLsbD_or, BitVec.getLsbD_and, BitVec.getLsbD_not, hi, decide_true, Bool.true_and]
    cases s.em.getLsbD i <;> simp

end Sys2Proof.Machine

/-! PROOF. Operands, registers and memory: what is supplied, and that what was written is read back. -/
namespace Sys2Proof.Machine

/-! ### Operands (02_encoding.md R34, 05_control.md R90, R94) -/

/-- An inline integer is one of -16 to 15 in every width of 32 bits and more. -/
theorem toInt_inlineInt (k : Fin 32) {w : Nat} (h : 32 ≤ w) : (BitVec.ofInt w (inlineInt k.val)).toInt = (k.val : Int) - 16 := by
  have h1 : (2 : Int) ^ 31 ≤ 2 ^ (w - 1) := pow_le_pow_right₀ (by omega) (by omega)
  refine BitVec.toInt_ofInt_eq_self (by omega) ?_ ?_ <;> unfold inlineInt <;> omega

/-- The inline binary32 constants (R34). -/
theorem inlineF32As_table : (List.finRange 8).map (fun c => inlineF32As .raw c.val) =
    [0x00000000, 0x3F000000, 0x3F800000, 0x40000000, 0x40800000, 0xBF000000, 0xBF800000, 0xC0000000] := by decide

/-- Settles O2: each operand form by the equation of `opVal`. -/
theorem scalarOperandsSupply : Obligations.ScalarOperandsSupply := by
  intro s r k w x
  exact ⟨rfl, toInt_inlineInt k (le_refl _), inlineF32As_table, rfl, rfl, rfl, rfl, rfl, rfl, rfl, rfl, rfl,
    toInt_inlineInt k (by omega), rfl, rfl⟩

/-! ### Registers (01_machine.md R14, 05_control.md R89, 06_vector.md R121) -/

/-- Bit l of a register's poison after a row write that clears it. -/
theorem Warp.getLsbD_poisoned_setV (w : Warp) (r q : Nat) (m : Word) (f : Nat → Word) {l : Nat} (hl : l < 32) :
    ((w.setV r m f).poisoned q).getLsbD l = ((w.poisoned q).getLsbD l && !(decide (q = r) && m.getLsbD l)) := by
  rw [Warp.poisoned_setV]
  by_cases h : r = q
  · simp [h, hl]
  · simp [h, Ne.symm h]

/-- Lane l of a register after a row write, the written register named second. -/
theorem Warp.v_setV_comm (w : Warp) (r q : Nat) (m : Word) (f : Nat → Word) (k : Bool) {l : Nat} (hl : l < 32) :
    (w.setV r m f k).v q l = if q = r ∧ m.getLsbD l then f l else w.v q l := by
  rw [Warp.v_setV _ _ _ _ _ _ _ hl]
  exact if_congr (and_congr_left' eq_comm) rfl rfl

/-- Settles O6: the lanes of a row write, and what it leaves alone. -/
theorem rowWritesChangeOnlyVisitedLanes : Obligations.RowWritesChangeOnlyVisitedLanes := fun w d r m f _ hl =>
  ⟨w.v_setV_comm d r m f false hl, w.getLsbD_poisoned_setV d r m f hl, w.v_setV_comm d r m f true hl, rfl⟩

/-- Settles O56: each register file by what is read after a write to it. -/
theorem registersReadBack : Obligations.RegistersReadBack := by
  intro w r q l x lanes f hl
  refine ⟨?_, ?_, w.v_setV_comm r q lanes f false hl, w.getLsbD_poisoned_setV r q lanes f hl, rfl, rfl, rfl, rfl⟩
  · rw [Warp.s_setS]; exact if_congr eq_comm rfl rfl
  · rw [Warp.m_setM]; exact if_congr eq_comm rfl rfl

/-! ### Memory (07_memory.md) -/

theorem pread_eq (s : State) (a n : Nat) : pread s a n = (List.range n).map (fun i => Memory.read s.mem.bytes (a + i)) := by
  induction n generalizing a with
  | zero => rfl
  | succ n ih =>
    rw [List.range_succ_eq_map, List.map_cons, List.map_map]
    simp only [pread, ih]
    refine congrArg₂ _ rfl (List.map_congr_left fun i _ => ?_)
    simp only [Function.comp_apply, Nat.succ_eq_add_one, Nat.add_assoc, Nat.add_comm 1]

/-- Bytes that were written are read back. -/
theorem pread_pwrite (s : State) (a : Nat) (bs : List Byte) : pread (pwrite s a bs) a bs.length = bs := by
  rw [pread_eq, pwrite_mem_bytes]
  refine List.ext_getElem (by simp) fun i h1 h2 => ?_
  rw [List.getElem_map, List.getElem_range, Memory.read_writes, if_pos (by omega), Nat.add_sub_cancel_left, List.getD_eq_getElem _ _ h2]

/-- Keys at or below the bound of a rising map are not listed. -/
theorem mfind_of_mrising {α : Type} {m : SMap α} {l k : Nat} (h : mrising (some l) m = true) (hk : k ≤ l) : mfind m k = none := by
  induction m generalizing l with
  | nil => rfl
  | cons p r ih =>
    obtain ⟨k', v⟩ := p
    simp only [mrising, Bool.and_eq_true, decide_eq_true_eq] at h
    rw [mfind, if_neg (by omega)]
    exact ih h.2 (by omega)

/-- The bounds under which a map is read do not matter to its rising. -/
theorem mrising_tail {α : Type} {p : Nat × α} {m : SMap α} {lo : Option Nat} (h : mrising lo (p :: m) = true) :
    mrising (some p.1) m = true := by
  simp only [mrising, Bool.and_eq_true] at h
  exact h.2

/-- Two canonical maps that read alike are the same map. -/
theorem eq_of_mget_eq {α : Type} {d : α} {m m' : SMap α} {lo lo' : Option Nat} (h : mrising lo m = true) (h' : mrising lo' m' = true)
    (hd : ∀ p ∈ m, p.2 ≠ d) (hd' : ∀ p ∈ m', p.2 ≠ d) (hr : ∀ k, mget m d k = mget m' d k) : m = m' := by
  have head : ∀ {p : Nat × α} {r : SMap α}, mget (p :: r) d p.1 = p.2 := by
    intro p r; simp [mget, mfind]
  have below : ∀ {p : Nat × α} {r : SMap α} {k}, mrising (some p.1) r = true → k < p.1 → mget (p :: r) d k = d := by
    intro p r k hp hk
    rw [mget, mfind, if_neg (by omega), mfind_of_mrising hp (by omega)]
    rfl
  induction m generalizing m' lo lo' with
  | nil =>
    cases m' with
    | nil => rfl
    | cons q t => exact absurd ((head (r := t)).symm.trans (hr q.1).symm) (hd' q (by simp))
  | cons p r ih =>
    cases m' with
    | nil => exact absurd ((head (r := r)).symm.trans (hr p.1)) (hd p (by simp))
    | cons q t =>
      have hp := mrising_tail h
      have hq := mrising_tail h'
      obtain hlt | heq | hgt := lt_trichotomy p.1 q.1
      · exact absurd (head.symm.trans ((hr p.1).trans (below hq hlt))) (hd p (by simp))
      · have hv : p.2 = q.2 := by
          have := hr p.1
          rw [head, heq, head] at this
          exact this
        have hpq : p = q := Prod.ext heq hv
        subst hpq
        refine congrArg _ (ih hp hq (fun x hx => hd x (by simp [hx])) (fun x hx => hd' x (by simp [hx])) fun k => ?_)
        by_cases hk : p.1 = k
        · subst hk
          simp only [mget, mfind_of_mrising hp (le_refl _), mfind_of_mrising hq (le_refl _)]
        · have := hr k
          simpa only [mget, mfind, if_neg hk] using this
      · exact absurd (head.symm.trans ((hr q.1).symm.trans (below hp hgt))) (hd' q (by simp))

theorem Memory.eq_of_read_eq {m m' : Memory} (h : Memory.wf m = true) (h' : Memory.wf m' = true)
    (hr : ∀ j, Memory.read m j = Memory.read m' j) : m = m' := by
  simp only [Memory.wf, mwf, Bool.and_eq_true, List.all_eq_true, decide_eq_true_eq] at h h'
  exact eq_of_mget_eq h.1 h'.1 h.2 h'.2 hr

/-- Settles O55: reading after writing, and canonical maps are what they read as. -/
theorem memoryReadsBack : Obligations.MemoryReadsBack := by
  intro s a bs m m'
  refine ⟨pread_pwrite s a bs, fun j hj => ?_, fun h => pwrite_wf h a bs, fun h h' hr => Memory.eq_of_read_eq h h' hr⟩
  rw [pwrite_mem_bytes, Memory.read_writes, if_neg (by omega)]

/-- Settles O59: the state after reset is written out in `State.reset`. -/
theorem resetLeaves : Obligations.ResetLeaves :=
  ⟨rfl, rfl, rfl, rfl, rfl, rfl, rfl, rfl, rfl, fun _ _ _ => ⟨rfl, rfl⟩⟩

/-! ### Traps (11_traps.md R216, R228) -/

/-- A word that only moves on completes. -/
theorem advance_completes {i : Instr} {s : State} {n : Nat} (he : exec i s = .next (s.advance n)) (hn : n = wordsOf i) :
    Completes i s id :=
  ⟨_, he, advance_moved .., advance_onward hn rfl rfl rfl rfl⟩

/-- Settles O30: `brkpt` looks at bit 1 of the status word. -/
theorem trapWords : Obligations.TrapWords := by
  intro s imm
  refine ⟨rfl, fun h => ?_, fun h => advance_completes (n := 1) ?_ rfl⟩
  · rw [exec_brkpt, execBrkpt, if_pos h]; rfl
  · rw [exec_brkpt, execBrkpt, if_neg (by rw [h]; exact Bool.false_ne_true)]

end Sys2Proof.Machine

/-! PROOF. The vector words that read their own lanes (06_vector.md R119 to R132): each is one of a few shapes, and its value is the
table's. -/
namespace Sys2Proof.Machine

/-! ### Values of the integer and bit words (R124) -/

theorem minU_eq (x y : Word) : minU x y = if x.toNat ≤ y.toNat then x else y := by
  simp only [minU, BitVec.ult_eq_decide, decide_eq_true_eq, ← not_le, ite_not]

theorem maxU_eq (x y : Word) : maxU x y = if y.toNat ≤ x.toNat then x else y := by
  simp only [maxU, BitVec.ult_eq_decide, decide_eq_true_eq, ← not_le, ite_not]

theorem popc_eq (x : Word) : popc x = BitVec.ofNat 32 ((List.range 32).countP x.getLsbD) := by
  rw [List.countP_eq_length_filter]; rfl

/-- Leading zeros by the place of the highest 1 bit. -/
theorem clzW_eq (x : Word) : clzW x = if x = 0 then 32 else BitVec.ofNat 32 (31 - Nat.log2 x.toNat) := by
  unfold clzW bitLen
  by_cases h : x = 0
  · subst h; rfl
  · have h0 : x.toNat ≠ 0 := fun e => h (BitVec.eq_of_toNat_eq e)
    simp only [h, h0, if_false, beq_iff_eq]
    congr 1
    omega

theorem brev_eq (x : Word) : brev x = x.reverse := by
  refine BitVec.eq_of_getLsbD_eq fun i hi => ?_
  rw [brev, getLsbD_maskOf _ hi, BitVec.getLsbD_reverse, BitVec.getMsbD_eq_getLsbD]
  simp [laneIn, hi]

/-- A byte of a word as a signed number. -/
theorem sextInt_byte (x : Word) (j : Nat) : sextInt 8 (bitsOf x.toNat (8 * j) 8) = (x.extractLsb' (8 * j) 8).toInt := by
  rw [BitVec.toInt_eq_toNat_cond, BitVec.extractLsb'_toNat, Nat.shiftRight_eq_div_pow]
  simp only [sextInt, bitsOf, Nat.mod_mod]
  split <;> split <;> omega

theorem dot4_eq (x y z : Word) : dot4 x y z =
    let byte (w : Word) (j : Nat) : Int := (w.extractLsb' (8 * j) 8).toInt
    BitVec.ofInt 32 (z.toInt + byte x 0 * byte y 0 + byte x 1 * byte y 1 + byte x 2 * byte y 2 + byte x 3 * byte y 3) := by
  simp only [dot4, List.range, List.range.loop, List.foldl_cons, List.foldl_nil, sextInt_byte, BitVec.ofInt_add, BitVec.ofInt_toInt]

/-- Settles O7: the words of two operands are of one shape; the accumulating ones read vd too. -/
theorem integerAndBitVectorWords : Obligations.IntegerAndBitVectorWords := by
  refine ⟨fun s d a b p h => ?_, fun s d a b p h => ?_⟩
  · have h' : Clean s (d.val :: opVregs a ++ opVregs b) (opVregs a ++ opVregs b ++ (if false then [d.val] else [])) (s.active p) := by
      simpa using h
    intro x y
    have row {i : Instr} {f : Word → Word → Word → Word} {g : Nat → Word} (he : exec i s = vec2 s .raw false d a b p f)
        (hn : opWords a b = wordsOf i) (hg : ∀ l, f (x l) (y l) (s.hwarp.v d.val l) = g l) : RowWord i s d p g :=
      vec2_row he hn h' fun l _ => hg l
    exact ⟨
      row (exec_vaddI32 s) (opWords_eq a b) fun l => rfl, row (exec_vsubI32 s) (opWords_eq a b) fun l => rfl,
      row (exec_vmulI32 s) (opWords_eq a b) fun l => rfl, row (exec_vmulhiI32 s) (opWords_eq a b) fun l => rfl,
      row (exec_vmulhiN32 s) (opWords_eq a b) fun l => rfl, row (exec_vandB32 s) (opWords_eq a b) fun l => rfl,
      row (exec_vorB32 s) (opWords_eq a b) fun l => rfl, row (exec_vxorB32 s) (opWords_eq a b) fun l => rfl,
      row (exec_vshlB32 s) (opWords_eq a b) fun l => rfl, row (exec_vshrN32 s) (opWords_eq a b) fun l => rfl,
      row (exec_vshrI32 s) (opWords_eq a b) fun l => sraW_eq (x l) (y l),
      row (exec_vminI32 s) (opWords_eq a b) fun l => minS_eq (x l) (y l),
      row (exec_vminN32 s) (opWords_eq a b) fun l => minU_eq (x l) (y l),
      row (exec_vmaxI32 s) (opWords_eq a b) fun l => maxS_eq (x l) (y l),
      row (exec_vmaxN32 s) (opWords_eq a b) fun l => maxU_eq (x l) (y l)⟩
  · intro x y byte
    exact ⟨vec2_row (acc := true) (exec_vmadI32 s) (opWords_eq a b) h fun l _ => rfl,
      vec2_row (acc := true) (exec_vdot4I8 s) (opWords_eq a b) h fun l _ => dot4_eq (x l) (y l) (s.hwarp.v d.val l)⟩

/-- Settles O8: the words of one operand are of one shape. -/
theorem unaryVectorWords : Obligations.UnaryVectorWords := by
  refine ⟨fun s d a p h => ?_, fun s d a p h => ?_⟩
  · intro x y
    exact ⟨
      vec1_row (exec_vmovB32 s) (opWords_int a 16) h fun l _ => rfl,
      vec1_row (exec_vpopcB32 s) (opWords_int a 16) h fun l _ => popc_eq (x l),
      vec1_row (exec_vclzB32 s) (opWords_int a 16) h fun l _ => clzW_eq (x l),
      vec1_row (exec_vbrevB32 s) (opWords_int a 16) h fun l _ => brev_eq (x l),
      vec1_row (exec_vabsF32 s) (opWords_int a 16) h fun l _ => rfl, vec1_row (exec_vnegF32 s) (opWords_int a 16) h fun l _ => rfl⟩
  · intro x
    have row {i : Instr} {f : Word → Nat} (he : exec i s = vec1 s .f32 d a p (fun w => BitVec.ofNat 32 (f w)))
        (hn : opWords a (.int 16) = wordsOf i) : RowWord i s d p (fun l => BitVec.ofNat 32 (f (s.opVal .f32 a l))) :=
      vec1_row he hn h fun l _ => rfl
    exact ⟨
      row (exec_vrcpF32 s) (opWords_int a 16), row (exec_vrsqrtF32 s) (opWords_int a 16), row (exec_vsqrtF32 s) (opWords_int a 16),
      row (exec_vexp2F32 s) (opWords_int a 16), row (exec_vlog2F32 s) (opWords_int a 16), row (exec_vclassF32 s) (opWords_int a 16),
      row (exec_vrndF32 s) (opWords_int a 16), row (exec_vrndF32 s) (opWords_int a 16), row (exec_vrndF32 s) (opWords_int a 16),
      row (exec_vrndF32 s) (opWords_int a 16)⟩

/-- Settles O9. -/
theorem binary32VectorWords : Obligations.Binary32VectorWords := by
  refine ⟨fun s d a b p h => ?_, fun s d a b p h => ?_⟩
  · have h' : Clean s (d.val :: opVregs a ++ opVregs b) (opVregs a ++ opVregs b ++ (if false then [d.val] else [])) (s.active p) := by
      simpa using h
    intro x y
    have row {i : Instr} {f : Nat → Nat → Nat → Nat} (he : exec i s = vec2 s .f32 false d a b p (w32 f)) (hn : opWords a b = wordsOf i) :
        RowWord i s d p (fun l => BitVec.ofNat 32 (f (x l) (y l) (s.hwarp.v d.val l).toNat)) := vec2_row he hn h' fun l _ => rfl
    exact ⟨
      row (exec_vaddF32 s) (opWords_eq a b), row (exec_vsubF32 s) (opWords_eq a b), row (exec_vmulF32 s) (opWords_eq a b),
      row (exec_vaddF32Rz s) (opWords_eq a b), row (exec_vaddF32Ru s) (opWords_eq a b), row (exec_vaddF32Rd s) (opWords_eq a b),
      row (exec_vsubF32Rz s) (opWords_eq a b), row (exec_vsubF32Ru s) (opWords_eq a b), row (exec_vsubF32Rd s) (opWords_eq a b),
      row (exec_vmulF32Rz s) (opWords_eq a b), row (exec_vmulF32Ru s) (opWords_eq a b), row (exec_vmulF32Rd s) (opWords_eq a b),
      row (exec_vminF32 s) (opWords_eq a b), row (exec_vmaxF32 s) (opWords_eq a b)⟩
  · intro x y z
    have row {i : Instr} {f : Nat → Nat → Nat → Nat} (he : exec i s = vec2 s .f32 true d a b p (w32 f)) (hn : opWords a b = wordsOf i) :
        RowWord i s d p (fun l => BitVec.ofNat 32 (f (x l) (y l) (z l))) := vec2_row (acc := true) he hn h fun l _ => rfl
    exact ⟨
      row (exec_vfmaF32 s) (opWords_eq a b), row (exec_vfmaF32Rz s) (opWords_eq a b), row (exec_vfmaF32Ru s) (opWords_eq a b),
      row (exec_vfmaF32Rd s) (opWords_eq a b), row (exec_vfmsF32 s) (opWords_eq a b)⟩

theorem bitsOf_half (x : Word) (h : Nat) : bitsOf x.toNat (16 * h) 16 = (x.extractLsb' (16 * h) 16).toNat := by
  rw [BitVec.extractLsb'_toNat, Nat.shiftRight_eq_div_pow]; rfl

/-- Settles O10. -/
theorem packedHalfWords : Obligations.PackedHalfWords := by
  intro s d a b p half both x y z
  have hv (f : Nat → Nat → Nat → Nat) (u v w : Word) : halves f u v w = both (fun h => f (half u h) (half v h) (half w h)) := by
    simp only [halves, both, half, ← bitsOf_half]
  refine ⟨fun h => ?_, fun h => ?_⟩
  · have h' : Clean s (d.val :: opVregs a ++ opVregs b) (opVregs a ++ opVregs b ++ (if false then [d.val] else [])) (s.active p) := by
      simpa using h
    exact ⟨vec2_row (exec_vaddF16 s) (opWords_eq a b) h' fun l _ => hv .., vec2_row (exec_vmulF16 s) (opWords_eq a b) h' fun l _ => hv ..,
      vec2_row (exec_vaddBf16 s) (opWords_eq a b) h' fun l _ => hv .., vec2_row (exec_vmulBf16 s) (opWords_eq a b) h' fun l _ => hv ..⟩
  · exact ⟨vec2_row (acc := true) (exec_vfmaF16 s) (opWords_eq a b) h fun l _ => hv ..,
      vec2_row (acc := true) (exec_vfmaBf16 s) (opWords_eq a b) h fun l _ => hv ..⟩

end Sys2Proof.Machine

/-! PROOF. Words that complete by way of an effect (05_control.md R97): effects that leave the issuing split where it stands. -/
namespace Sys2Proof.Machine

/-- The issuing split stands in u as it stands in s: the same slot in focus, the same clause in it, the same splits and tokens. -/
structure Stays (s u : State) : Prop where
  focus : u.focus = s.focus
  run : u.run = s.run
  splits : u.hwarp.splits = s.hwarp.splits
  tokens : u.hwarp.tokens = s.hwarp.tokens

theorem Stays.refl (s : State) : Stays s s := ⟨rfl, rfl, rfl, rfl⟩

theorem Stays.trans {s u v : State} (h : Stays s u) (k : Stays u v) : Stays s v :=
  ⟨k.focus.trans h.focus, k.run.trans h.run, k.splits.trans h.splits, k.tokens.trans h.tokens⟩

/-- An effect beside the cores and warps. -/
theorem Stays.beside {s u : State} (hf : u.focus = s.focus) (hc : u.cores = s.cores) (hw : u.warps = s.warps) : Stays s u := by
  have hk (c : Nat) : u.core c = s.core c := by simp only [State.core, hc]
  have hv (c w : Nat) : u.warp c w = s.warp c w := by simp only [State.warp, hw]
  have hr : u.run = s.run := by simp only [State.run, hf, hk]
  have hh : u.hwarp = s.hwarp := by simp only [State.hwarp, State.hcore, hf, hr, hv]
  exact ⟨hf, hr, by rw [hh], by rw [hh]⟩

/-- An effect on a warp's data. -/
theorem Stays.updWarp (s : State) (c w : Nat) {f : Warp → Warp} (hs : ∀ x, (f x).splits = x.splits) (ht : ∀ x, (f x).tokens = x.tokens) :
    Stays s (s.updWarp c w f) := by
  refine ⟨rfl, State.run_updWarp .., ?_, ?_⟩ <;> simp only [State.hwarp, State.run_updWarp, State.hcore_updWarp, State.warp_updWarp] <;>
    split
  · rename_i h; rw [hs, State.warp, h]; rfl
  · rfl
  · rename_i h; rw [ht, State.warp, h]; rfl
  · rfl

/-- An effect on the issuing warp's data. -/
theorem Stays.updHere (s : State) {f : Warp → Warp} (hs : (f s.hwarp).splits = s.hwarp.splits) (ht : (f s.hwarp).tokens = s.hwarp.tokens) :
    Stays s (s.updHere f) :=
  ⟨rfl, State.run_updHere .., by rw [State.hwarp_updHere, hs], by rw [State.hwarp_updHere, ht]⟩

/-- An effect on a core beside the clauses in its slots. -/
theorem Stays.updCore (s : State) (c : Nat) {f : Core → Core} (h0 : ∀ k, (f k).slot0 = k.slot0) (h1 : ∀ k, (f k).slot1 = k.slot1) :
    Stays s (s.updCore c f) := by
  have hr : (s.updCore c f).run = s.run := by
    simp only [State.run, State.core_updCore, State.updCore_focus]
    split
    · rename_i h; subst h; simp only [Core.slot, h0, h1]
    · rfl
  exact ⟨rfl, hr, by simp only [State.hwarp, hr, State.hcore, State.updCore_focus, State.warp_updCore],
    by simp only [State.hwarp, hr, State.hcore, State.updCore_focus, State.warp_updCore]⟩

theorem Stays.hcore {s u : State} (h : Stays s u) : u.hcore = s.hcore := by simp only [State.hcore, h.focus]

/-- A word whose effect leaves its split in place completes by way of it. -/
theorem Stays.completesVia {i : Instr} {s u : State} {n : Nat} (h : Stays s u) (he : exec i s = .next (u.advance n)) (hn : n = wordsOf i) :
    CompletesVia i s u :=
  advance_completesVia he hn h.focus h.run h.splits h.tokens

/-! ### Requests (07_memory.md R146, R155) -/

theorem Stays.fillEcbs (s : State) (core ctx : Nat) (acc : List Acc) : Stays s (fillEcbs s core ctx acc) :=
  ⟨fillEcbs_focus .., fillEcbs_run .., by simp only [State.hwarp, fillEcbs_run, fillEcbs_hcore, fillEcbs_warp],
    by simp only [State.hwarp, fillEcbs_run, fillEcbs_hcore, fillEcbs_warp]⟩

theorem Stays.raiseCounter (s : State) (r : Req) : Stays s (raiseCounter s r) := by
  unfold Machine.raiseCounter
  split
  · exact .refl s
  · exact .updWarp s _ _ (fun x => by split <;> rfl) (fun x => by split <;> rfl)

theorem Stays.settleLanes (s : State) (r : Req) : Stays s (settleLanes s r).2 := by
  unfold Machine.settleLanes
  split
  · exact .beside rfl rfl rfl
  · exact .refl s

theorem Stays.enter (s : State) (r : Req) : Stays s (s.enter r) := by
  let q : Req := { r with parts := (Machine.settleLanes s r).1 }
  have h : Stays (Machine.settleLanes s r).2 ((Machine.settleLanes s r).2.fresh.2.setReq (Machine.settleLanes s r).2.fresh.1 q) := .beside rfl rfl rfl
  exact (Stays.settleLanes s r).trans (h.trans (Stays.raiseCounter _ r))

theorem Stays.foldSig (s : State) (b : Nat) (l : List (Nat × List Byte)) : Stays s (foldSig s b l) := by
  unfold Machine.foldSig
  split
  · exact .refl s
  · exact .beside rfl rfl rfl

end Sys2Proof.Machine

/-! PROOF. Compares, selects and conversions (06_vector.md R130 to R133). -/
namespace Sys2Proof.Machine

/-! ### Compares and `vsel` (R130, R131) -/

/-- The integer conditions, with the order of the signed or the unsigned values. -/
theorem icmpHolds_eq {c : Fin 8} (h : c.val < 6) (x y : Word) : icmpHolds c x y =
    [x == y, x != y, decide (x.toInt < y.toInt), !decide (y.toInt < x.toInt), decide (y.toInt < x.toInt),
      !decide (x.toInt < y.toInt)].getD c.val false := by
  have hle (x y : Word) : x.sle y = !decide (y.toInt < x.toInt) := by rw [BitVec.sle_eq_decide, ← decide_not]; exact decide_eq_decide.2 Int.not_lt.symm
  have hlt (x y : Word) : x.slt y = decide (x.toInt < y.toInt) := BitVec.slt_eq_decide ..
  fin_cases c <;> simp_all [icmpHolds]

theorem ncmpHolds_eq {c : Fin 8} (h : c.val < 6) (x y : Word) : ncmpHolds c x y =
    [x == y, x != y, decide (x.toNat < y.toNat), !decide (y.toNat < x.toNat), decide (y.toNat < x.toNat),
      !decide (x.toNat < y.toNat)].getD c.val false := by
  have hle (x y : Word) : x.ule y = !decide (y.toNat < x.toNat) := by rw [BitVec.ule_eq_decide, ← decide_not]; exact decide_eq_decide.2 Nat.not_lt.symm
  have hlt (x y : Word) : x.ult y = decide (x.toNat < y.toNat) := BitVec.ult_eq_decide ..
  fin_cases c <;> simp_all [ncmpHolds]

theorem fcmpHolds_eq (c : Fin 8) (a b : Word) : fcmpHolds c a b =
    let x := decodeF f32 a.toNat
    let y := decodeF f32 b.toNat;
    [x.eq y, !x.eq y, x.lt y, x.lt y || x.eq y, y.lt x, y.lt x || x.eq y, x.isNan || y.isNan, !x.isNan && !y.isNan].getD c.val false := by
  fin_cases c <;> rfl

/-- Completing depends on what the change makes of the issuing warp alone. -/
theorem Completes.congr {i : Instr} {s : State} {f g : Warp → Warp} (h : Completes i s f) (e : f s.hwarp = g s.hwarp) : Completes i s g := by
  obtain ⟨t, he, hm, ho⟩ := h
  exact ⟨t, he, { hm with here := e ▸ hm.here }, ho⟩

/-- A compare writes the visited bits of its mask. -/
theorem vecCmp_wrote {i : Instr} {s : State} {ty : OpTy} {m : MReg} {a b : Operand} {p : Bool} {f : Word → Word → Bool} {hit : Nat → Bool}
    (he : exec i s = vecCmp s ty m a b p f) (hn : opWords a b = wordsOf i)
    (h : Clean s (opVregs a ++ opVregs b) (opVregs a ++ opVregs b) (s.active p)) (hh : ∀ l, f (s.opVal ty a l) (s.opVal ty b l) = hit l) :
    ∃ x : Word, Completes i s (·.setM m.val x) ∧
      ∀ l, l < 32 → x.getLsbD l = if (s.active p).getLsbD l then hit l else (s.hwarp.m m.val).getLsbD l := by
  refine ⟨_, (updHere_completes (he.trans (vecChecked_clean h _)) hn rfl rfl).congr rfl, fun l hl => ?_⟩
  rw [BitVec.getLsbD_or, BitVec.getLsbD_and, BitVec.getLsbD_and, getLsbD_maskOf _ hl, hh, BitVec.getLsbD_not]
  cases (s.active p).getLsbD l <;> simp [hl]

/-- Settles O11: the compares are of one shape, each with the list of its conditions. -/
theorem compareAndSelectWords : Obligations.CompareAndSelectWords := by
  refine ⟨fun s c m a b p h => ?_, fun s d a b h => ?_⟩
  · intro wrote int flt
    exact ⟨fun hc => ⟨vecCmp_wrote (exec_vcmpI32 s) (opWords_eq a b) h fun l => icmpHolds_eq hc ..,
        vecCmp_wrote (exec_vcmpN32 s) (opWords_eq a b) h fun l => ncmpHolds_eq hc ..⟩,
      vecCmp_wrote (exec_vcmpF32 s) (opWords_eq a b) h fun l => fcmpHolds_eq ..⟩
  · exact updHere_completes ((exec_vselB32 s).trans (vecChecked_clean h _)) (opWords_eq a b) rfl rfl

/-! ### Conversions (R132, R133) -/

/-- A field of n bits of a word, replaced. -/
theorem getLsbD_putField (old : Word) {lo n : Nat} (v : Nat) {j : Nat} (hj : j < 32) :
    (putField old lo n v).getLsbD j = if lo ≤ j ∧ j < lo + n then v.testBit (j - lo) else old.getLsbD j := by
  obtain ⟨hi, mid, low, hold, hmid, hlow⟩ : ∃ hi mid low, old.toNat = 2 ^ lo * (2 ^ n * hi + mid) + low ∧ mid < 2 ^ n ∧ low < 2 ^ lo :=
    ⟨old.toNat / 2 ^ lo / 2 ^ n, old.toNat / 2 ^ lo % 2 ^ n, old.toNat % 2 ^ lo, by rw [Nat.div_add_mod, Nat.div_add_mod],
      Nat.mod_lt _ (Nat.two_pow_pos n), Nat.mod_lt _ (Nat.two_pow_pos lo)⟩
  have hb : bitsOf old.toNat lo n = mid := by
    rw [bitsOf, hold, Nat.mul_add_div (Nat.two_pow_pos lo), Nat.div_eq_of_lt hlow, Nat.add_zero, Nat.mul_add_mod, Nat.mod_eq_of_lt hmid]
  have hv : v % 2 ^ n < 2 ^ n := Nat.mod_lt _ (Nat.two_pow_pos n)
  have hput : old.toNat - bitsOf old.toNat lo n * 2 ^ lo + v % 2 ^ n * 2 ^ lo = 2 ^ lo * (2 ^ n * hi + v % 2 ^ n) + low := by
    rw [hb, hold]
    have e1 := Nat.mul_add (2 ^ lo) (2 ^ n * hi) mid
    have e2 := Nat.mul_add (2 ^ lo) (2 ^ n * hi) (v % 2 ^ n)
    have e3 := Nat.mul_comm mid (2 ^ lo)
    have e4 := Nat.mul_comm (v % 2 ^ n) (2 ^ lo)
    omega
  rw [putField, hput, BitVec.getLsbD_ofNat, decide_eq_true hj, Bool.true_and, BitVec.getLsbD, hold,
    Nat.testBit_two_pow_mul_add _ hlow, Nat.testBit_two_pow_mul_add _ hlow, Nat.testBit_two_pow_mul_add _ hv,
    Nat.testBit_two_pow_mul_add _ hmid, Nat.testBit_mod_two_pow]
  by_cases h1 : j < lo
  · rw [if_pos h1, if_pos h1, if_neg (by omega)]
  · by_cases h2 : j - lo < n
    · rw [if_neg h1, if_pos h2, if_pos (by omega), decide_eq_true h2, Bool.true_and]
    · rw [if_neg h1, if_neg h2, if_neg (by omega), if_neg h1, if_neg h2]

/-- A narrowing conversion replaces its field of each visited lane. -/
theorem vecNarrow_narrows {i : Instr} {s : State} {d : VReg} {a : Operand} {k : CvtCtl} {p : Bool} {n : Nat} {f : RMode → Nat → Nat}
    (he : exec i s = vecNarrow s d a k p n f) (hn : opWords a (.int 16) = wordsOf i) (h : Clean s (d.val :: opVregs a) (opVregs a) (s.active p)) :
    ∃ g : Nat → Word, Completes i s (fun w => w.setV d.val (s.active p) g true) ∧
      ∀ l j, l < 32 → j < 32 → (g l).getLsbD j =
        if n * k.pos.val ≤ j ∧ j < n * k.pos.val + n then
          (f (modeOf k.mode.val (stochasticHash (s.hwarp.s 63) l k.pos.val)) (s.opVal .f32 a l).toNat).testBit (j - n * k.pos.val)
        else (s.hwarp.v d.val l).getLsbD j :=
  ⟨_, updHere_completes (he.trans (vecChecked_clean h _)) hn rfl rfl, fun _ _ _ hj => getLsbD_putField _ _ hj⟩

/-- No lane of a scaled conversion lies beyond the extent of the scales. -/
theorem scvt_within {lanes : Word} {e : EcbEntry} {n : Nat → Nat} (h : ∀ l, l < 32 → lanes.getLsbD l → n l < e.len) (g : Nat → FaultInfo) :
    (lanesOf lanes).filterMap (fun i => if e.len ≤ n i then some (i, g i) else none) = [] := by
  refine List.filterMap_eq_nil_iff.2 fun i hi => ?_
  obtain ⟨h32, hl⟩ := (mem_lanesOf lanes i).1 hi
  rw [if_neg (Nat.not_le.2 (h i h32 hl))]

/-- A scaled conversion whose lanes pass their checks has its effect. -/
theorem execVscvt_next {s : State} {d a : VReg} {k : CvtCtl} {p : Bool} {e : EcbEntry} (hf : (s.hwarp.s 62).toNat < 3)
    (h : Clean s [d.val, a.val, a.val + 1] [a.val, a.val + 1] (s.active p))
    (hx : accCheck s s.hcore s.hwarp.ctx (s.hwarp.pair 60).toNat 1 permR = .ok e)
    (hv : scvtVerdict s (s.active p) (fun l => (s.hwarp.v (a.val + 1) l).toNat) (.ok e) = .ok) :
    exec (.vscvt d a k p) s = .next (scvtEffect s d a k (s.active p) e (fun l => (s.hwarp.v (a.val + 1) l).toNat)) := by
  rw [exec_vscvt, execVscvt, if_neg (by omega), vecChecked_clean h]
  simp only [hx, hv]

/-- Without scale data a scaled conversion writes its row, each block scale being 1. -/
theorem vscvt_writes (s : State) (d a : VReg) (k : CvtCtl) (p : Bool) (e : EcbEntry) (hf : (s.hwarp.s 62).toNat < 3)
    (h : Clean s [d.val, a.val, a.val + 1] [a.val, a.val + 1] (s.active p))
    (hx : accCheck s s.hcore s.hwarp.ctx (s.hwarp.pair 60).toNat 1 permR = .ok e) (hv : e.sv = false)
    (hn : ∀ l, l < 32 → (s.active p).getLsbD l → (s.hwarp.v (a.val + 1) l).toNat < e.len) :
    ∃ t, exec (.vscvt d a k p) s = .next t ∧ t.mem = s.mem ∧ ∀ r l, l < 32 →
      (t.warp s.hcore s.run.wslot).v r l = if r = d.val ∧ (s.active p).getLsbD l then
        BitVec.ofNat 32 (scaledElem (modeOf k.mode.val 0) k.sat
          (decodeElem (scvtFmt (s.hwarp.s 62)) (((s.hwarp.v a.val l).toNat / 2 ^ (8 * k.pos.val)) %
            2 ^ (if (s.hwarp.s 62).toNat = 2 then 6 else 8))) 127)
      else s.hwarp.v r l := by
  have hlog : (scvtFmt (s.hwarp.s 62) = 4) = ((s.hwarp.s 62).toNat = 2) := by
    obtain h0 | h1 | h2 : (s.hwarp.s 62).toNat = 0 ∨ (s.hwarp.s 62).toNat = 1 ∨ (s.hwarp.s 62).toNat = 2 := by omega
    all_goals simp [scvtFmt, *]
  refine ⟨_, execVscvt_next hf h hx (by simp only [scvtVerdict, scvt_within hn, worstOf, hv]; rfl), ?_, fun r l hl => ?_⟩
  · rw [scvtEffect, hv]; exact (wrote_moved ..).mem
  · rw [scvtEffect, hv]
    refine (congrArg (·.v r l) (wrote_moved ..).here).trans ((Warp.v_setV _ _ _ _ _ _ false hl).trans ?_)
    simp only [laneIn, eq_comm (a := r), scvtCode, hlog, bitsOf]

/-- With scale data a scaled conversion enters the request of its scale reads. -/
theorem vscvt_reads (s : State) (d a : VReg) (k : CvtCtl) (p : Bool) (e : EcbEntry) (hf : (s.hwarp.s 62).toNat < 3)
    (h : Clean s [d.val, a.val, a.val + 1] [a.val, a.val + 1] (s.active p))
    (hx : accCheck s s.hcore s.hwarp.ctx (s.hwarp.pair 60).toNat 1 permR = .ok e) (hv : e.sv = true) (hz : s.active p ≠ 0)
    (hn : ∀ l, l < 32 → (s.active p).getLsbD l → (s.hwarp.v (a.val + 1) l).toNat < e.len) :
    let acc : List Acc := (lanesOf (s.active p)).map (fun l => ⟨l, e.sbase + (s.hwarp.v (a.val + 1) l).toNat / 2 ^ e.shift⟩)
    globalVerdict s s.hcore s.hwarp.ctx s.hwarp acc 1 permR [] none = .ok →
    CompletesVia (.vscvt d a k p) s ((fillEcbs s s.hcore s.hwarp.ctx acc).enter (scvtReq s d a k (s.active p) acc)) := by
  intro acc hg
  refine ((Stays.fillEcbs ..).trans (.enter ..)).completesVia (n := 1) ?_ rfl
  rw [execVscvt_next hf h hx (by simp only [scvtVerdict, scvt_within hn, worstOf, hv, if_true]; exact hg), scvtEffect,
    if_pos (by rw [hv, Bool.true_and]; exact bne_iff_ne.2 hz)]
  rfl

/-- Settles O12. -/
theorem conversions : Obligations.Conversions := by
  refine ⟨fun s d a k p h => ?_, fun s d a k p h => ?_, fun s d a k p e => ?_⟩
  · intro raw field out mode
    have row {i : Instr} {ty : OpTy} {f : Word → Nat} (he : exec i s = vecCvt s ty d a p f) (hn : opWords a (.int 16) = wordsOf i) :
        RowWord i s d p (fun l => BitVec.ofNat 32 (f (s.opVal ty a l))) := vec1_row he hn h fun l _ => rfl
    exact ⟨row (exec_vcvtF32I32 s) (opWords_int a 16), row (exec_vcvtF32N32 s) (opWords_int a 16),
      row (exec_vcvtI32F32 s) (opWords_int a 16), row (exec_vcvtN32F32 s) (opWords_int a 16),
      row (exec_vcvtF32F16 s) (opWords_int a 16), row (exec_vcvtF32Bf16 s) (opWords_int a 16),
      row (exec_vcvtF32E4m3 s) (opWords_int a 16), row (exec_vcvtF32E5m2 s) (opWords_int a 16),
      row (exec_vcvtF32Log6 s) (opWords_int a 16)⟩
  · intro narrow
    exact ⟨fun _ => ⟨vecNarrow_narrows (exec_vcvtF16F32 s) (opWords_int a 16) h,
        vecNarrow_narrows (exec_vcvtBf16F32 s) (opWords_int a 16) h⟩,
      vecNarrow_narrows (exec_vcvtE4m3F32 s) (opWords_int a 16) h, vecNarrow_narrows (exec_vcvtE5m2F32 s) (opWords_int a 16) h,
      vecNarrow_narrows (exec_vcvtLog6F32 s) (opWords_int a 16) h⟩
  · exact ⟨fun hf => by rw [exec_vscvt, execVscvt, if_pos hf], vscvt_writes s d a k p e, vscvt_reads s d a k p e⟩

end Sys2Proof.Machine

/-! PROOF. Words that read other lanes, and those that combine them (06_vector.md R135 to R138). -/
namespace Sys2Proof.Machine

/-! ### One other lane (R135, R136) -/

theorem visited_eq_zero {lanes : Word} {f : Nat → Bool} (h : ∀ l, l < 32 → lanes.getLsbD l → f l = false) : visited lanes f = 0 := by
  refine BitVec.eq_of_getLsbD_eq fun l hl => ?_
  rw [visited, getLsbD_hit _ _ hl]
  cases hm : lanes.getLsbD l
  · simp
  · simp [h l hl hm]

/-- A row word that has its effect when the lanes that it reads are clean. -/
theorem wrote_row {i : Instr} {s : State} {d : VReg} {p : Bool} {f g : Nat → Word} {n : Nat}
    (he : exec i s = .next (s.wrote d.val (s.active p) f n)) (hn : n = wordsOf i)
    (hg : ∀ l, l < 32 → (s.active p).getLsbD l → f l = g l) : RowWord i s d p g := by
  have e (w : Warp) : w.setV d.val (s.active p) f = w.setV d.val (s.active p) g := Warp.setV_congr w _ _ _ hg
  have hm := wrote_moved s d.val (s.active p) f n false
  exact ⟨_, he, by simpa only [e] using hm, wrote_onward hn ..⟩

theorem laneRead_row {i : Instr} {s : State} {d a : VReg} {b : Operand} {p : Bool} {src : Nat → Nat} (he : exec i s = laneRead s d a b p src)
    (hn : opWords (.v a) b = wordsOf i) (hr : s.inRange (d.val :: a.val :: opVregs b))
    (hb : ∀ r ∈ opVregs b, s.hwarp.poisoned r &&& s.active p = 0)
    (hs : ∀ l, l < 32 → (s.active p).getLsbD l → (s.hwarp.poisoned a.val).getLsbD (src l) = false) :
    RowWord i s d p (fun l => s.hwarp.v a.val (src l)) := by
  refine wrote_row (he.trans (laneChecked_clean hr (fun q hq => ?_) _)) hn fun _ _ _ => rfl
  rcases List.mem_append.1 hq with hq | hq
  · obtain ⟨r, hr, rfl⟩ := List.mem_map.1 hq
    exact hb r hr
  · rw [List.mem_singleton.1 hq]
    exact visited_eq_zero hs

/-- A neighbour read whose lanes are clean, by the lane that each visited lane reads. -/
theorem neighbour_row {i : Instr} {s : State} {d a : VReg} {sel : Fin 4} {p : Bool} {dir : Int} {edge : Nat} (he : exec i s = neighbour s d a sel p dir)
    (hn : 1 = wordsOf i) (hr : s.inRange [d.val, a.val]) (hd : (if dir < 0 then 0 else 31) = edge) {src : Nat → Nat}
    (hsrc : ∀ l : Nat, ((l : Int) + dir).toNat = src l)
    (hs : ∀ l, l < 32 → (s.active p).getLsbD l → l ≠ edge → (s.hwarp.poisoned a.val).getLsbD (src l) = false)
    (h0 : (s.active p).getLsbD edge → (edgeRead (edgeWarp s sel dir) a.val (31 - edge)).2 = false) :
    RowWord i s d p (fun l => if l = edge then (edgeRead (edgeWarp s sel dir) a.val (31 - edge)).1 else s.hwarp.v a.val (src l)) := by
  unfold neighbour at he
  simp only [hd, hsrc] at he
  refine wrote_row (he.trans (laneChecked_clean hr (fun q hq => ?_) _)) hn fun _ _ _ => rfl
  rw [List.mem_singleton.1 hq]
  refine visited_eq_zero fun l hl hm => ?_
  split
  · next h => exact h0 (h ▸ hm)
  · next h => exact hs l hl hm h

theorem edgeRead_zero (s : State) (dir : Int) (r j : Nat) : edgeRead (edgeWarp s 0 dir) r j = (0, false) := rfl

theorem edgeRead_wrap {s : State} {r : Nat} (h : r < s.hwarp.regs) (dir : Int) (j : Nat) :
    edgeRead (edgeWarp s 1 dir) r j = (s.hwarp.v r j, (s.hwarp.poisoned r).getLsbD j) := if_pos h

/-- Settles O13: each word is a lane read, a neighbour read, or of the mask or the scalar shape. -/
theorem laneReadsAndBallot : Obligations.LaneReadsAndBallot := by
  refine ⟨fun s d a b sel p => ?_, fun s m d a r b p => ⟨fun h => ?_, ?_⟩⟩
  · intro w fine shuffle first
    refine ⟨fun hr hb => ⟨fun hs => laneRead_row (exec_vshflB32 s) (opWords_eq _ b) hr hb hs,
      fun hs => laneRead_row (exec_vbcastB32 s) (opWords_eq _ b) hr hb hs⟩, fun hr => ?_⟩
    intro left right
    have ha : a.val < s.hwarp.regs := by
      simpa using List.all_eq_true.1 hr a.val (by simp)
    refine ⟨fun hs h0 => ?_, fun hs h0 => ?_, ?_, ?_⟩
    · exact neighbour_row (edge := 0) (exec_vnblB32 s) rfl hr rfl (src := fun l => l - 1) (fun l => by omega)
        (fun l hl hm h => hs (l - 1) (by omega) (by rwa [Nat.sub_add_cancel (by omega)])) h0
    · exact neighbour_row (edge := 31) (exec_vnbrB32 s) rfl hr rfl (src := fun l => l + 1) (fun l => by omega)
        (fun l hl hm h => hs l (by omega) hm) h0
    · rintro rfl
      exact ⟨edgeRead_zero .., edgeRead_zero ..⟩
    · rintro rfl
      exact ⟨edgeRead_wrap ha .., edgeRead_wrap ha ..⟩
  · refine ⟨_, updHere_completes ((exec_vballot s).trans (vecChecked_clean h _)) (opWords_int a 16) rfl rfl, fun l hl => ?_⟩
    rw [visited, getLsbD_hit _ _ hl, decide_not, ← beq_eq_decide]
    rfl
  · intro j hr hp
    refine updHere_completes ((exec_vrdlane s).trans (laneChecked_clean hr (fun q hq => ?_) _)) (opWords_eq _ b) rfl rfl
    rw [List.mem_singleton.1 hq]
    exact if_neg (by rw [laneIn, hp]; decide)

/-! ### Reductions and scans (R138) -/

/-- The combination of lanes in their order, from a value already combined where there is one. -/
def folded (w : Warp) (a : Nat) (start : Word → Word) (f : Word → Word → Word) : Option Word → List Nat → Word
  | none, [] => 0
  | none, j :: r => r.foldl (fun x k => f x (w.v a k)) (start (w.v a j))
  | some x, l => l.foldl (fun x k => f x (w.v a k)) x

/-- The last combination is that of all lanes. -/
theorem combine_getLast (w : Warp) (a : Nat) (start : Word → Word) (f : Word → Word → Word) (l : List Nat) (o : Option Word) :
    (((combine w a start f o l).getLast?.map Prod.snd).getD (o.getD 0)) = folded w a start f o l := by
  induction l generalizing o with
  | nil => cases o <;> rfl
  | cons j r ih =>
    have hcons {c : List (Nat × Word)} {y z : Word} (x : Word) (h : (c.getLast?.map Prod.snd).getD y = x) :
        ((((j, y) :: c).getLast?.map Prod.snd).getD z) = x := by
      rw [List.getLast?_cons, ← h]
      cases c.getLast? <;> rfl
    cases o with
    | none => exact hcons _ (ih (some (start (w.v a j))))
    | some x => exact hcons _ (ih (some (f x (w.v a j))))

/-- The combination at a lane is that of the lanes up to it. -/
theorem mget_combine (w : Warp) (a : Nat) (start : Word → Word) (f : Word → Word → Word) {i : Nat} {pre : List Nat} (h : i ∉ pre) (post : List Nat)
    (o : Option Word) : mget (combine w a start f o (pre ++ i :: post)) 0 i = folded w a start f o (pre ++ [i]) := by
  induction pre generalizing o with
  | nil => cases o <;> simp [combine, folded, mget, mfind]
  | cons j r ih =>
    obtain ⟨hj, hr⟩ : i ≠ j ∧ i ∉ r := by simpa using h
    cases o with
    | none => simpa [combine, folded, mget, mfind, Ne.symm hj] using ih hr (some (start (w.v a j)))
    | some x => simpa [combine, folded, mget, mfind, Ne.symm hj] using ih hr (some (f x (w.v a j)))

/-- The visited lanes up to a visited lane come first. -/
theorem lanesOf_split {m : Word} {i : Nat} (hi : i < 32) (hm : m.getLsbD i) :
    lanesOf m = (List.range i).filter m.getLsbD ++ i :: ((List.range' (i + 1) (31 - i)).filter m.getLsbD) := by
  have h : List.range 32 = List.range i ++ i :: List.range' (i + 1) (31 - i) := by
    rw [List.range_eq_range', List.range_eq_range', show 32 = i + (31 - i + 1) by omega, ← List.range'_append_1, List.range'_succ]
    simp
  rw [lanesOf, h, List.filter_append, List.filter_cons_of_pos (show laneIn m i = true from hm)]
  rfl

/-- A code beyond the largest finite one is a NaN, but for the infinity. -/
theorem isNan_decodeF (f : Fmt) (n : Nat) : (decodeF f n).isNan =
    (decide (f.maxFin < n % 2 ^ (f.width - 1)) && !(f.hasInf && n % 2 ^ (f.width - 1) == f.maxFin + 1)) := by
  by_cases h1 : f.maxFin < n % 2 ^ (f.width - 1)
  · cases h2 : f.hasInf && n % 2 ^ (f.width - 1) == f.maxFin + 1 <;> simp [decodeF, h1, h2, Num.isNan]
  · by_cases h2 : n % 2 ^ (f.width - 1) / 2 ^ f.frac = 0 <;> simp [decodeF, h1, h2, Num.isNan]

theorem startF_eq (x : Word) : startF x = if 0x7F800000 < x.toNat % 2 ^ 31 then 0x7FC00000 else x := by
  have h : (decodeF f32 x.toNat).isNan = decide (0x7F800000 < x.toNat % 2 ^ 31) := by
    rw [isNan_decodeF, Bool.eq_iff_iff]
    simp only [Bool.and_eq_true, decide_eq_true_eq, Bool.not_eq_true']
    simp only [f32, Bool.true_and, beq_eq_false_iff_ne]
    omega
  rw [startF, h]
  simp

theorem reduce_row {i : Instr} {s : State} {d a : VReg} {p scan : Bool} {start start' : Word → Word} {f : Word → Word → Word}
    (he : exec i s = reduce s d a p scan start f) (hn : 1 = wordsOf i) (hr : s.inRange [d.val, a.val])
    (hp : s.hwarp.poisoned a.val &&& s.active p = 0) (hs : start = start') :
    RowWord i s d p (fun l => folded s.hwarp a.val start' f none ((List.range (if scan then l + 1 else 32)).filter (s.active p).getLsbD)) := by
  subst hs
  refine wrote_row (he.trans (laneChecked_clean hr (fun q hq => ?_) _)) hn fun l hl hm => ?_
  · rw [List.mem_singleton.1 hq]
    simp [hp]
  · cases scan with
    | false => exact combine_getLast s.hwarp a.val start f (lanesOf (s.active p)) none
    | true =>
      have hnot : l ∉ (List.range l).filter (s.active p).getLsbD := fun h => absurd (List.mem_range.1 (List.mem_filter.1 h).1) (lt_irrefl l)
      simp only [if_true]
      rw [lanesOf_split hl hm, mget_combine _ _ _ _ hnot, List.range_succ, List.filter_append, List.filter_cons_of_pos hm]
      rfl

/-- Settles O14. -/
theorem reductionsAndScans : Obligations.ReductionsAndScans := by
  intro s d a p hr hp upTo first fold sum
  have hf : startF = first := funext startF_eq
  have hfold (st : Word → Word) (f : Word → Word → Word) (l : List Nat) : fold st f l = folded s.hwarp a.val st f none l := by cases l <;> rfl
  simp only [hfold]
  exact ⟨reduce_row (exec_vredAddI32 s) rfl hr hp rfl, reduce_row (exec_vredAddF32 s) rfl hr hp hf, reduce_row (exec_vredMaxF32 s) rfl hr hp hf,
    reduce_row (exec_vredMinF32 s) rfl hr hp hf, reduce_row (exec_vscanAddI32 s) rfl hr hp rfl, reduce_row (exec_vscanAddF32 s) rfl hr hp hf⟩

end Sys2Proof.Machine

/-! PROOF. The traps of the vector words (02_encoding.md R36, 06_vector.md R121, R135, R138). -/
namespace Sys2Proof.Machine

/-- The word raises register-range when a register that it names lies outside the allocation, and else poison-consumed when a lane that it
reads is poisoned. -/
def TrapsOn (s : State) (names reads : List Nat) (lanes : Word) (i : Instr) : Prop :=
  (s.inRange names = false → exec i s = .next s.rangeFault) ∧
  (s.inRange names → s.poisonLanes reads lanes ≠ 0 → exec i s = .next (s.poisonFault (s.poisonReg reads lanes) (s.poisonLanes reads lanes)))

section
variable {i : Instr} {s : State} {names reads : List Nat} {lanes : Word} {ok : State} {ty : OpTy} {d : VReg} {a b : Operand} {p : Bool}

theorem vecChecked_trapsOn (he : exec i s = vecChecked s names reads lanes ok) : TrapsOn s names reads lanes i :=
  ⟨fun h => he.trans (vecChecked_range h ..), fun h q => he.trans (vecChecked_poison h q _)⟩

theorem vec2_trapsOn {f : Word → Word → Word → Word} (he : exec i s = vec2 s ty false d a b p f) :
    TrapsOn s (d.val :: (opVregs a ++ opVregs b)) (opVregs a ++ opVregs b) (s.active p) i := by
  have h := vecChecked_trapsOn (names := d.val :: (opVregs a ++ opVregs b)) (he.trans rfl)
  rwa [show (opVregs a ++ opVregs b ++ if false then [d.val] else []) = opVregs a ++ opVregs b from List.append_nil _] at h

theorem vec2_acc_trapsOn {f : Word → Word → Word → Word} (he : exec i s = vec2 s ty true d a b p f) :
    TrapsOn s (d.val :: (opVregs a ++ opVregs b)) (opVregs a ++ opVregs b ++ [d.val]) (s.active p) i :=
  vecChecked_trapsOn he

theorem vec1_trapsOn {f : Word → Word} (he : exec i s = vec1 s ty d a p f) :
    TrapsOn s (d.val :: opVregs a) (opVregs a) (s.active p) i := by
  have h := vec2_trapsOn (b := .int 16) (he.trans rfl)
  rwa [show opVregs (.int 16) = [] from rfl, List.append_nil] at h

theorem vecCvt_trapsOn {f : Word → Nat} (he : exec i s = vecCvt s ty d a p f) : TrapsOn s (d.val :: opVregs a) (opVregs a) (s.active p) i :=
  vec1_trapsOn he

theorem vecNarrow_trapsOn {k : CvtCtl} {n : Nat} {f : RMode → Nat → Nat} (he : exec i s = vecNarrow s d a k p n f) :
    TrapsOn s (d.val :: opVregs a) (opVregs a) (s.active p) i :=
  vecChecked_trapsOn he

end

/-- The words of two operands. -/
theorem binary_trapsOn (s : State) (d : VReg) (a b : Operand) (p : Bool) :
    ∀ i ∈ ([.vaddI32 d a b p, .vsubI32 d a b p, .vmulI32 d a b p, .vmulhiI32 d a b p, .vmulhiN32 d a b p, .vandB32 d a b p, .vorB32 d a b p,
      .vxorB32 d a b p, .vshlB32 d a b p, .vshrN32 d a b p, .vshrI32 d a b p, .vminI32 d a b p, .vminN32 d a b p, .vmaxI32 d a b p,
      .vmaxN32 d a b p, .vaddF32 d a b p, .vsubF32 d a b p, .vmulF32 d a b p, .vminF32 d a b p, .vmaxF32 d a b p, .vaddF16 d a b p,
      .vmulF16 d a b p, .vaddBf16 d a b p, .vmulBf16 d a b p, .vaddF32Rz d a b p, .vaddF32Ru d a b p, .vaddF32Rd d a b p,
      .vsubF32Rz d a b p, .vsubF32Ru d a b p, .vsubF32Rd d a b p, .vmulF32Rz d a b p, .vmulF32Ru d a b p, .vmulF32Rd d a b p] : List Instr),
      TrapsOn s (d.val :: (opVregs a ++ opVregs b)) (opVregs a ++ opVregs b) (s.active p) i := by
  simp only [List.forall_mem_cons]
  exact
    ⟨vec2_trapsOn (exec_vaddI32 s), vec2_trapsOn (exec_vsubI32 s), vec2_trapsOn (exec_vmulI32 s), vec2_trapsOn (exec_vmulhiI32 s),
      vec2_trapsOn (exec_vmulhiN32 s), vec2_trapsOn (exec_vandB32 s), vec2_trapsOn (exec_vorB32 s), vec2_trapsOn (exec_vxorB32 s),
      vec2_trapsOn (exec_vshlB32 s), vec2_trapsOn (exec_vshrN32 s), vec2_trapsOn (exec_vshrI32 s), vec2_trapsOn (exec_vminI32 s),
      vec2_trapsOn (exec_vminN32 s), vec2_trapsOn (exec_vmaxI32 s), vec2_trapsOn (exec_vmaxN32 s), vec2_trapsOn (exec_vaddF32 s),
      vec2_trapsOn (exec_vsubF32 s), vec2_trapsOn (exec_vmulF32 s), vec2_trapsOn (exec_vminF32 s), vec2_trapsOn (exec_vmaxF32 s),
      vec2_trapsOn (exec_vaddF16 s), vec2_trapsOn (exec_vmulF16 s), vec2_trapsOn (exec_vaddBf16 s), vec2_trapsOn (exec_vmulBf16 s),
      vec2_trapsOn (exec_vaddF32Rz s), vec2_trapsOn (exec_vaddF32Ru s), vec2_trapsOn (exec_vaddF32Rd s), vec2_trapsOn (exec_vsubF32Rz s),
      vec2_trapsOn (exec_vsubF32Ru s), vec2_trapsOn (exec_vsubF32Rd s), vec2_trapsOn (exec_vmulF32Rz s), vec2_trapsOn (exec_vmulF32Ru s),
      vec2_trapsOn (exec_vmulF32Rd s), List.forall_mem_nil _⟩

/-- The words that also consume vd. -/
theorem accumulating_trapsOn (s : State) (d : VReg) (a b : Operand) (p : Bool) :
    ∀ i ∈ ([.vmadI32 d a b p, .vdot4I8 d a b p, .vfmaF32 d a b p, .vfmsF32 d a b p, .vfmaF32Rz d a b p, .vfmaF32Ru d a b p, .vfmaF32Rd d a b p,
      .vfmaF16 d a b p, .vfmaBf16 d a b p] : List Instr),
      TrapsOn s (d.val :: (opVregs a ++ opVregs b)) (opVregs a ++ opVregs b ++ [d.val]) (s.active p) i := by
  simp only [List.forall_mem_cons]
  exact
    ⟨vec2_acc_trapsOn (exec_vmadI32 s), vec2_acc_trapsOn (exec_vdot4I8 s), vec2_acc_trapsOn (exec_vfmaF32 s),
      vec2_acc_trapsOn (exec_vfmsF32 s), vec2_acc_trapsOn (exec_vfmaF32Rz s), vec2_acc_trapsOn (exec_vfmaF32Ru s),
      vec2_acc_trapsOn (exec_vfmaF32Rd s), vec2_acc_trapsOn (exec_vfmaF16 s), vec2_acc_trapsOn (exec_vfmaBf16 s), List.forall_mem_nil _⟩

/-- The words of one operand. -/
theorem unary_trapsOn (s : State) (d : VReg) (a : Operand) (r : Fin 4) (k : CvtCtl) (p : Bool) :
    ∀ i ∈ ([.vmovB32 d a p, .vpopcB32 d a p, .vclzB32 d a p, .vbrevB32 d a p, .vabsF32 d a p, .vnegF32 d a p, .vrcpF32 d a p, .vrsqrtF32 d a p,
      .vsqrtF32 d a p, .vexp2F32 d a p, .vlog2F32 d a p, .vclassF32 d a p, .vrndF32 d a r p, .vcvtF32I32 d a k p, .vcvtF32N32 d a k p,
      .vcvtI32F32 d a k p, .vcvtN32F32 d a k p, .vcvtF32F16 d a k p, .vcvtF32Bf16 d a k p, .vcvtF32E4m3 d a k p, .vcvtF32E5m2 d a k p,
      .vcvtF32Log6 d a k p, .vcvtF16F32 d a k p, .vcvtBf16F32 d a k p, .vcvtE4m3F32 d a k p, .vcvtE5m2F32 d a k p, .vcvtLog6F32 d a k p] : List Instr),
      TrapsOn s (d.val :: opVregs a) (opVregs a) (s.active p) i := by
  simp only [List.forall_mem_cons]
  exact
    ⟨vec1_trapsOn (exec_vmovB32 s), vec1_trapsOn (exec_vpopcB32 s), vec1_trapsOn (exec_vclzB32 s), vec1_trapsOn (exec_vbrevB32 s),
      vec1_trapsOn (exec_vabsF32 s), vec1_trapsOn (exec_vnegF32 s), vec1_trapsOn (exec_vrcpF32 s), vec1_trapsOn (exec_vrsqrtF32 s),
      vec1_trapsOn (exec_vsqrtF32 s), vec1_trapsOn (exec_vexp2F32 s), vec1_trapsOn (exec_vlog2F32 s), vec1_trapsOn (exec_vclassF32 s),
      vec1_trapsOn (exec_vrndF32 s), vecCvt_trapsOn (exec_vcvtF32I32 s), vecCvt_trapsOn (exec_vcvtF32N32 s),
      vecCvt_trapsOn (exec_vcvtI32F32 s), vecCvt_trapsOn (exec_vcvtN32F32 s), vecCvt_trapsOn (exec_vcvtF32F16 s),
      vecCvt_trapsOn (exec_vcvtF32Bf16 s), vecCvt_trapsOn (exec_vcvtF32E4m3 s), vecCvt_trapsOn (exec_vcvtF32E5m2 s),
      vecCvt_trapsOn (exec_vcvtF32Log6 s), vecNarrow_trapsOn (exec_vcvtF16F32 s), vecNarrow_trapsOn (exec_vcvtBf16F32 s),
      vecNarrow_trapsOn (exec_vcvtE4m3F32 s), vecNarrow_trapsOn (exec_vcvtE5m2F32 s), vecNarrow_trapsOn (exec_vcvtLog6F32 s), List.forall_mem_nil _⟩

/-! ### Words that read other lanes -/

theorem laneChecked_range {s : State} {names : List Nat} (h : s.inRange names = false) (bad : List (Nat × Word)) (ok : State) :
    laneChecked s names bad ok = .next s.rangeFault := by
  rw [laneChecked, h]; rfl

/-- The first register that gives poison is named, and every lane that would receive it listed. -/
theorem laneChecked_find {s : State} {names : List Nat} (h : s.inRange names) {bad : List (Nat × Word)} {r : Nat} {x : Word}
    (hf : bad.find? (fun p => p.2 != 0) = some (r, x)) (ok : State) :
    laneChecked s names bad ok = .next (s.poisonFault r (bad.foldl (fun m p => m ||| p.2) 0)) := by
  rw [laneChecked, h, hf]; rfl

theorem laneChecked_poison {s : State} {names : List Nat} (h : s.inRange names) {r : Nat} {x : Word} (hx : x ≠ 0) (ok : State) :
    laneChecked s names [(r, x)] ok = .next (s.poisonFault r x) := by
  refine (laneChecked_find h (List.find?_cons_of_pos (bne_iff_ne.2 hx)) ok).trans ?_
  simp

theorem visited_ne_zero {lanes : Word} {f : Nat → Bool} {l : Nat} (hl : l < 32) (hm : lanes.getLsbD l) (h : f l) : visited lanes f ≠ 0 := by
  intro e
  have he := congrArg (·.getLsbD l) e
  simp only [visited, getLsbD_hit _ _ hl, hm, h] at he
  simp at he

/-- The word raises poison-consumed for the visited lanes that pass a test. -/
theorem poison_hit {s : State} {lanes : Word} {hit : Nat → Bool} {i : Instr} {r : Nat}
    (he : ∀ l, l < 32 → lanes.getLsbD l → hit l → exec i s = .next (s.poisonFault r (visited lanes hit))) :
    ∀ l, l < 32 → lanes.getLsbD l → hit l → ∃ x : Word, exec i s = .next (s.raise { cls := 7, lanes := x, detail := r }) ∧
      ∀ j, j < 32 → x.getLsbD j = (lanes.getLsbD j && hit j) :=
  fun l hl hm hh => ⟨_, he l hl hm hh, fun _ hj => getLsbD_hit _ _ hj⟩

/-- A lane read with a clean index whose source lane is poisoned for some visited lane. -/
theorem laneRead_poison {i : Instr} {s : State} {d a : VReg} {b : Operand} {p : Bool} {src : Nat → Nat} (he : exec i s = laneRead s d a b p src)
    (hr : s.inRange (d.val :: a.val :: opVregs b)) (hb : ∀ r ∈ opVregs b, s.hwarp.poisoned r &&& s.active p = 0) {l : Nat} (hl : l < 32)
    (hm : (s.active p).getLsbD l) (h : (s.hwarp.poisoned a.val).getLsbD (src l)) :
    exec i s = .next (s.poisonFault a.val (visited (s.active p) (fun j => (s.hwarp.poisoned a.val).getLsbD (src j)))) := by
  have hv : visited (s.active p) (fun j => laneIn (s.hwarp.poisoned a.val) (src j)) ≠ 0 := visited_ne_zero hl hm h
  rw [he]
  cases b with
  | v q =>
    have hq : s.hwarp.poisoned q.val &&& s.active p = 0 := hb q.val (List.mem_singleton.2 rfl)
    refine (laneChecked_find hr ((List.find?_cons_of_neg (by simp [hq])).trans (List.find?_cons_of_pos (bne_iff_ne.2 hv))) _).trans ?_
    simp [hq]
    rfl
  | _ => exact laneChecked_poison hr hv _

/-- `vshfl` whose index register is poisoned in a visited lane. -/
theorem vshfl_index_poison {s : State} {d a q : VReg} {p : Bool} (hr : s.inRange [d.val, a.val, q.val])
    (h : s.hwarp.poisoned q.val &&& s.active p ≠ 0) :
    ∃ x : Word, exec (.vshflB32 d a (.v q) p) s = .next (s.poisonFault q.val x) ∧ ∀ j, j < 32 → x.getLsbD j = ((s.active p).getLsbD j &&
      ((s.hwarp.poisoned q.val).getLsbD j || (s.hwarp.poisoned a.val).getLsbD ((s.opVal .raw (.v q) j).toNat % 32))) := by
  refine ⟨_, (exec_vshflB32 s).trans (laneChecked_find hr (List.find?_cons_of_pos (bne_iff_ne.2 h)) _), fun j hj => ?_⟩
  change (0 ||| (s.hwarp.poisoned q.val &&& s.active p) ||| visited (s.active p) _).getLsbD j = _
  rw [BitVec.getLsbD_or, BitVec.getLsbD_or, BitVec.getLsbD_and, visited, getLsbD_hit _ _ hj]
  cases (s.active p).getLsbD j <;> simp [laneIn]

theorem neighbour_poison {i : Instr} {s : State} {d a : VReg} {sel : Fin 4} {p : Bool} {dir : Int} {edge : Nat}
    (he : exec i s = neighbour s d a sel p dir) (hr : s.inRange [d.val, a.val]) (hd : (if dir < 0 then 0 else 31) = edge) {src : Nat → Nat}
    (hsrc : ∀ l : Nat, ((l : Int) + dir).toNat = src l) {l : Nat} (hl : l < 32) (hm : (s.active p).getLsbD l)
    (h : (if l = edge then (edgeRead (edgeWarp s sel dir) a.val (31 - edge)).2 else (s.hwarp.poisoned a.val).getLsbD (src l)) = true) :
    exec i s = .next (s.poisonFault a.val (visited (s.active p) (fun j =>
      if j = edge then (edgeRead (edgeWarp s sel dir) a.val (31 - edge)).2 else (s.hwarp.poisoned a.val).getLsbD (src j)))) := by
  unfold neighbour at he
  simp only [hd, hsrc] at he
  exact he.trans (laneChecked_poison hr (visited_ne_zero hl hm h) _)

/-- A reduction or a scan that reads a poisoned lane names every visited lane. -/
theorem reduce_traps {i : Instr} {s : State} {d a : VReg} {p scan : Bool} {start : Word → Word} {f : Word → Word → Word}
    (he : exec i s = reduce s d a p scan start f) :
    (s.inRange [d.val, a.val] = false → exec i s = .next s.rangeFault) ∧
    (s.inRange [d.val, a.val] → s.hwarp.poisoned a.val &&& s.active p ≠ 0 → exec i s = .next (s.poisonFault a.val (s.active p))) := by
  refine ⟨fun h => he.trans (laneChecked_range h ..), fun hr hp => ?_⟩
  have hb : (s.hwarp.poisoned a.val &&& s.active p != 0) = true := by simpa using hp
  have hz : s.active p ≠ 0 := fun h => hp (by rw [h]; exact BitVec.and_zero)
  unfold reduce at he
  simp only [hb, if_true] at he
  exact he.trans (laneChecked_poison hr hz _)

theorem vrdlane_poison {s : State} {g : SReg} {a : VReg} {b : Operand} (hr : s.inRange [a.val]) (hz : s.em ≠ 0)
    (h : (s.hwarp.poisoned a.val).getLsbD ((s.opVal .raw b 0).toNat % 32)) : exec (.vrdlane g a b) s = .next (s.poisonFault a.val s.em) := by
  rw [exec_vrdlane, execVrdlane]
  simp only [laneIn, h, if_true]
  exact laneChecked_poison hr hz _

/-- Settles O15: the words of a shape trap as their shape does. -/
theorem vectorWordsTrap : Obligations.VectorWordsTrap := by
  intro s d e g a b m c r k p range poison traps ab
  refine ⟨binary_trapsOn s d a b p, accumulating_trapsOn s d a b p, unary_trapsOn s d a r k p, ?_, fun hf => ?_, ?_, ?_,
    fun h => ⟨(exec_vshflB32 s).trans (laneChecked_range h ..), (exec_vbcastB32 s).trans (laneChecked_range h ..)⟩,
    fun hr hb => ⟨poison_hit fun l hl hm h => laneRead_poison (exec_vshflB32 s) hr hb hl hm h,
      poison_hit fun l hl hm h => laneRead_poison (exec_vbcastB32 s) hr hb hl hm h⟩,
    ?_, ?_, fun h => ⟨(exec_vnblB32 s).trans (laneChecked_range h ..), (exec_vnbrB32 s).trans (laneChecked_range h ..)⟩,
    fun hr => ⟨?_, ?_⟩, fun h => (exec_vrdlane s).trans (laneChecked_range h ..), fun hr hz h => vrdlane_poison hr hz h⟩
  · simp only [traps, List.forall_mem_cons]
    exact ⟨vecChecked_trapsOn (exec_vcmpI32 s), vecChecked_trapsOn (exec_vcmpN32 s), vecChecked_trapsOn (exec_vcmpF32 s), List.forall_mem_nil _⟩
  · have he : exec (.vscvt d e k p) s = vecChecked s [d.val, e.val, e.val + 1] [e.val, e.val + 1] (s.active p) _ :=
      (exec_vscvt s).trans (if_neg (Nat.not_le.2 hf))
    exact List.forall_mem_singleton.2 (vecChecked_trapsOn he)
  · exact List.forall_mem_singleton.2 (vecChecked_trapsOn (exec_vselB32 s))
  · exact List.forall_mem_singleton.2 (vecChecked_trapsOn (exec_vballot s))
  · rintro q rfl hr hq
    exact vshfl_index_poison hr hq
  · simp only [List.forall_mem_cons]
    exact ⟨reduce_traps (exec_vredAddI32 s), reduce_traps (exec_vredAddF32 s), reduce_traps (exec_vredMaxF32 s), reduce_traps (exec_vredMinF32 s),
      reduce_traps (exec_vscanAddI32 s), reduce_traps (exec_vscanAddF32 s), List.forall_mem_nil _⟩
  · refine poison_hit fun l hl hm h => neighbour_poison (edge := 0) (exec_vnblB32 s) hr rfl (src := fun l => l - 1) (fun l => by omega) hl hm h
  · refine poison_hit fun l hl hm h => neighbour_poison (edge := 31) (exec_vnbrB32 s) hr rfl (src := fun l => l + 1) (fun l => by omega) hl hm h

end Sys2Proof.Machine

/-! PROOF. The control procedures of R100, the branches of R102 to R109 that use them, and how a word moves its split on (R97). -/
namespace Sys2Proof.Machine

/-! ### set_pc and the arrival of a split at its token (05_control.md R100) -/

/-- The split stands at the pc of the join or call token it is in, where set_pc makes it arrive. -/
def Warp.arrivesAt (w : Warp) (i x : Nat) : Prop :=
  (w.split i).tv = true ∧ ((w.tok (w.split i).td).kind = 1 ∨ (w.tok (w.split i).td).kind = 2) ∧ (w.tok (w.split i).td).pc = x

/-- The warp in which split i has left the pending mask of its token and freed its entry. -/
def Warp.arrived (w : Warp) (i : Nat) : Warp :=
  (w.setTok (w.split i).td { w.tok (w.split i).td with
    pending := (w.tok (w.split i).td).pending &&& ~~~(w.split i).mask }).setSplit i {}

theorem arrivesAt_cond (w : Warp) (i x : Nat) :
    (((w.split i).tv && ((w.tok (w.split i).td).kind == 1 || (w.tok (w.split i).td).kind == 2) &&
      (w.tok (w.split i).td).pc == x) = true) ↔ w.arrivesAt i x := by
  simp [Warp.arrivesAt, and_assoc]

/-- A split that does not arrive only moves. -/
theorem ctl_setPc_moves (k i x : Nat) (w : Warp) (h : ¬ w.arrivesAt i x) :
    ctl (k + 1) (.setPc i x) w = w.setSplit i { w.split i with pc := x } := by
  rw [ctl_setPc, if_neg (mt (arrivesAt_cond w i x).1 h)]

theorem Warp.setPc_moves (w : Warp) (i x : Nat) (h : ¬ w.arrivesAt i x) :
    w.setPc i x = w.setSplit i { w.split i with pc := x } := ctl_setPc_moves 99 i x w h

/-- A split that arrives leaves its token's pending mask; the token then completes if it was the last, and deferred tokens resume. -/
theorem Warp.setPc_arrives (w : Warp) (i x : Nat) (h : w.arrivesAt i x) :
    w.setPc i x = ctl 98 .resume (ctl 98 (.complete (w.split i).td) ((w.setSplit i { w.split i with pc := x }).arrived i)) := by
  show ctl 100 (.setPc i x) w = _
  rw [ctl_setPc, if_pos ((arrivesAt_cond w i x).2 h), ctl_arrive, Warp.split_setSplit, if_pos rfl, Warp.arrived, Warp.split_setSplit,
    if_pos rfl]

section
variable (w : Warp) (i x : Nat)

theorem split_arrived (j : Nat) : ((w.setSplit i { w.split i with pc := x }).arrived i).split j = if i = j then {} else w.split j := by
  simp only [Warp.arrived, Warp.split_setSplit, Warp.split_setTok]
  split <;> rfl

theorem tok_arrived (d : Nat) : ((w.setSplit i { w.split i with pc := x }).arrived i).tok d =
    if (w.split i).td = d then { w.tok (w.split i).td with
      pending := (w.tok (w.split i).td).pending &&& ~~~(w.split i).mask } else w.tok d := by
  simp [Warp.arrived]

/-- An arrival changes no token's kind. -/
theorem kind_arrived (d : Nat) : (((w.setSplit i { w.split i with pc := x }).arrived i).tok d).kind = (w.tok d).kind := by
  rw [tok_arrived]
  split
  · next h => rw [← h]
  · rfl

/-- Lanes that have not arrived are awaited: the arriving split only leaves its token's pending mask. -/
theorem setPc_arrives_awaited (h : w.arrivesAt i x) (h3 : ∀ d, d < 16 → (w.tok d).kind ≠ 3)
    (hp : (w.tok (w.split i).td).pending &&& ~~~(w.split i).mask ≠ 0) :
    w.setPc i x = (w.setSplit i { w.split i with pc := x }).arrived i := by
  rw [w.setPc_arrives i x h, ctl_complete_pending 97 _ _ (by rw [tok_arrived, if_pos rfl]; exact hp),
    ctl_resume_none 97 _ fun d hd => by rw [kind_arrived]; exact h3 d hd]

/-- The last arrival at an outermost token: its rejoin mask resumes in the lowest free entry and the token is free. -/
theorem setPc_arrives_last (h : w.arrivesAt i x) (h3 : ∀ d, d < 16 → (w.tok d).kind ≠ 3)
    (hp : (w.tok (w.split i).td).pending &&& ~~~(w.split i).mask = 0) (hr : (w.tok (w.split i).td).rejoin ≠ 0)
    (ho : (w.tok (w.split i).td).pv = false) (j : Nat) (hj : (w.setSplit i {}).freeSplit = some j) :
    (w.setPc i x).split j =
      { pc := x, mask := (w.tok (w.split i).td).rejoin, word := 0, state := 1, tv := false, td := (w.tok (w.split i).td).parent } ∧
    (w.setPc i x).tok (w.split i).td = {} := by
  have hpc : (w.tok (w.split i).td).pc = x := h.2.2
  have hf : ((w.setSplit i { w.split i with pc := x }).arrived i).freeSplit = some j := by
    rw [← hj]
    refine freeSplit_congr fun k => ?_
    rw [split_arrived, Warp.split_setSplit]
  have htok := tok_arrived w i x (w.split i).td
  rw [if_pos rfl] at htok
  rw [w.setPc_arrives i x h, ctl_complete_last 97 _ j _ (by rw [htok]; exact hp) (by rw [htok]; exact hr) hf,
    ctl_setPc_moves 96 j _ _ (by simp [Warp.arrivesAt, htok, ho]), ctl_resume_none 97 _ ?none]
  case none =>
    intro d hd
    simp only [Warp.tok_setSplit, Warp.tok_setTok]
    split
    · decide
    · rw [kind_arrived]; exact h3 d hd
  constructor
  · simp [htok, hpc, ho]
  · simp

end

/-! ### leave (05_control.md R100) -/

/-- A token that lanes L have left. -/
def Token.without (t : Token) (L : Word) : Token := { t with pending := t.pending &&& ~~~L, rejoin := t.rejoin &&& ~~~L }

theorem Token.without_without (t : Token) (L : Word) : (t.without L).without L = t.without L := by
  simp [Token.without, BitVec.and_assoc]

/-- Lanes L leave the tokens of a list. -/
def Warp.lanesLeave (w : Warp) (L : Word) (l : List Nat) : Warp := l.foldl (fun w u => w.setTok u ((w.tok u).without L)) w

theorem split_lanesLeave (w : Warp) (L : Word) (l : List Nat) (j : Nat) : (w.lanesLeave L l).split j = w.split j := by
  induction l generalizing w with
  | nil => rfl
  | cons u r ih => exact ih (w.setTok u ((w.tok u).without L))

theorem tok_lanesLeave (w : Warp) (L : Word) (l : List Nat) (d : Nat) :
    (w.lanesLeave L l).tok d = if d ∈ l then (w.tok d).without L else w.tok d := by
  induction l generalizing w with
  | nil => rfl
  | cons u r ih =>
    refine (ih (w.setTok u ((w.tok u).without L))).trans ?_
    rw [Warp.tok_setTok]
    by_cases hu : u = d
    · subst hu; simp [Token.without_without]
    · simp [hu, Ne.symm hu]

/-- Tokens that still await lanes do not complete. -/
theorem foldl_complete_pending (k : Nat) (w : Warp) (l : List Nat) (h : ∀ u ∈ l, (w.tok u).pending ≠ 0) :
    l.foldl (fun w u => ctl (k + 1) (.complete u) w) w = w := by
  induction l with
  | nil => rfl
  | cons u r ih =>
    rw [List.foldl_cons, ctl_complete_pending k u w (h u List.mem_cons_self)]
    exact ih fun v hv => h v (List.mem_cons_of_mem _ hv)

/-- The tokens of a split inside T, or its whole chain. -/
def Warp.inside (w : Warp) (i : Nat) (T : Option Nat) : List Nat :=
  match T with
  | some t => (w.chain (w.split i)).takeWhile (· != t)
  | none => w.chain (w.split i)

theorem not_mem_inside (w : Warp) (i t : Nat) : t ∉ w.inside i (some t) := by
  intro h
  have := List.mem_takeWhile_imp h
  simp at this

/-- What split i becomes when lanes L leave it. -/
def Split.without (sp : Split) (L : Word) : Split :=
  if sp.mask &&& ~~~L = 0 then {} else { sp with mask := sp.mask &&& ~~~L }

/-- The split and the tokens inside T after lanes L have left, before any token completes. -/
def Warp.laneOut (w : Warp) (i : Nat) (L : Word) (T : Option Nat) : Warp :=
  let v := (w.setSplit i { w.split i with mask := (w.split i).mask &&& ~~~L }).lanesLeave L (w.inside i T)
  if (w.split i).mask &&& ~~~L == 0 then v.setSplit i {} else v

section
variable (w : Warp) (i : Nat) (L : Word) (T : Option Nat)

theorem split_laneOut (j : Nat) : (w.laneOut i L T).split j = if i = j then (w.split i).without L else w.split j := by
  simp only [Warp.laneOut, Split.without]
  by_cases hm : (w.split i).mask &&& ~~~L = 0
  · simp only [hm, beq_self_eq_true, if_true, Warp.split_setSplit, split_lanesLeave]
    split <;> rfl
  · rw [if_neg (by simpa using hm), if_neg hm, split_lanesLeave, Warp.split_setSplit]

theorem tok_laneOut (d : Nat) : (w.laneOut i L T).tok d = if d ∈ w.inside i T then (w.tok d).without L else w.tok d := by
  simp only [Warp.laneOut]
  split <;> simp only [Warp.tok_setSplit, tok_lanesLeave]

theorem kind_laneOut (d : Nat) : ((w.laneOut i L T).tok d).kind = (w.tok d).kind := by
  rw [tok_laneOut]; split <;> rfl

/-- Where no token completes and none is deferred, `leave` takes the lanes out and no more. -/
theorem leave_eq (hin : ∀ u ∈ w.inside i T, (w.tok u).pending &&& ~~~L ≠ 0) (hT : ∀ t, T = some t → (w.tok t).pending &&& ~~~L ≠ 0)
    (h3 : ∀ d, d < 16 → (w.tok d).kind ≠ 3) : w.leave i L T = (match T with
      | some t => (w.laneOut i L T).setTok t { w.tok t with pending := (w.tok t).pending &&& ~~~L }
      | none => w.laneOut i L T) := by
  have hfold : (w.inside i T).foldl (fun w u => ctl ctlFuel (.complete u) w) (w.laneOut i L T) = w.laneOut i L T :=
    foldl_complete_pending 99 _ _ fun u hu => by rw [tok_laneOut, if_pos hu]; exact hin u hu
  cases T with
  | none =>
    refine Eq.trans (b := ctl ctlFuel .resume ((w.inside i none).foldl (fun w u => ctl ctlFuel (.complete u) w) (w.laneOut i L none))) rfl ?_
    rw [hfold]
    exact ctl_resume_none 99 _ fun d hd => by rw [kind_laneOut]; exact h3 d hd
  | some t =>
    have ht : (w.laneOut i L (some t)).tok t = w.tok t := by rw [tok_laneOut, if_neg (not_mem_inside w i t)]
    let out (v : Warp) : Warp := ctl ctlFuel (.complete t) (v.setTok t { v.tok t with pending := (v.tok t).pending &&& ~~~L })
    refine Eq.trans (b := ctl ctlFuel .resume (out ((w.inside i (some t)).foldl (fun w u => ctl ctlFuel (.complete u) w)
      (w.laneOut i L (some t))))) rfl ?_
    rw [hfold]
    simp only [out, ht]
    rw [ctlFuel, ctl_complete_pending 99 _ _ (by rw [Warp.tok_setTok, if_pos rfl]; exact hT t rfl)]
    refine ctl_resume_none 99 _ fun d hd => ?_
    rw [Warp.tok_setTok]
    split
    · next h => subst h; exact h3 _ hd
    · rw [kind_laneOut]; exact h3 d hd

end

/-- Settles O57: set_pc by whether the split arrives and is the last to, and `leave` as the lanes' way out of the split and its tokens. -/
theorem controlProcedures : Obligations.ControlProcedures := by
  refine ⟨fun w i x => ⟨w.setPc_moves i x, fun h _ _ h3 => ⟨fun hp => ?_, fun hp hr ho j hj => ?_⟩⟩, ?_⟩
  · rw [setPc_arrives_awaited w i x h h3 hp]
    refine ⟨by rw [split_arrived, if_pos rfl], by rw [tok_arrived, if_pos rfl], fun j hj => ?_⟩
    rw [split_arrived, if_neg (Ne.symm hj)]
  · exact setPc_arrives_last w i x h h3 hp hr ho j hj
  · intro w i L T sp m inner out hin hT h3
    rw [leave_eq w i L T hin hT h3]
    cases T with
    | none =>
      refine ⟨by rw [split_laneOut, if_pos rfl]; rfl, fun j hj => by rw [split_laneOut, if_neg (Ne.symm hj)], fun u => ?_⟩
      rw [tok_laneOut]
      exact if_congr Iff.rfl rfl (if_neg (by simp)).symm
    | some t =>
      simp only [Warp.split_setTok, Warp.tok_setTok]
      refine ⟨by rw [split_laneOut, if_pos rfl]; rfl, fun j hj => by rw [split_laneOut, if_neg (Ne.symm hj)], fun u => ?_⟩
      by_cases hu : t = u
      · subst hu
        rw [if_pos rfl, if_pos rfl]
        exact (if_neg (not_mem_inside w i t)).symm
      · rw [if_neg hu, tok_laneOut]
        exact if_congr Iff.rfl rfl (if_neg (by simpa using hu)).symm

end Sys2Proof.Machine

/-! PROOF. The divergent branches (05_control.md R102 to R109). -/
namespace Sys2Proof.Machine

/-! ### A split that waits for an entry (05_control.md R108) -/

theorem waitToken_eq (b : Blocked) (s : State) : waitToken b s = .next (deadlock1 (s.waiting b) s.hcore s.run.wslot) := rfl

/-- The splits in use of the warp that waits: while one is not in state 3 there is no deadlock, else the lowest-numbered is named. -/
theorem waitsFor_of_exec {i : Instr} {s : State} {b : Blocked} (h : exec i s = waitToken b s) : WaitsFor i s b := by
  unfold WaitsFor
  intro u w used
  have hstuck : w.stuck = (!used.isEmpty && used.all (fun k => (w.split k).state == 3)) := rfl
  constructor
  · intro hany
    have hno : w.stuck = false := by
      rw [hstuck, Bool.and_eq_false_iff]
      right
      obtain ⟨k, hk, hk3⟩ := List.any_eq_true.1 hany
      exact List.all_eq_false.2 ⟨k, hk, by simpa using hk3⟩
    rw [h, waitToken_eq]
    exact congrArg Host.Outcome.next (if_neg (by rw [hno]; exact Bool.false_ne_true))
  · intro k r hused hall
    have hyes : w.stuck = true := by rw [hstuck, hall, hused]; rfl
    have hhead : used.headD 0 = k := by rw [hused]; rfl
    rw [h, waitToken_eq, ← hhead]
    exact congrArg Host.Outcome.next (if_pos hyes)

/-! ### Branches whose procedure moves splits and tokens only -/

/-- A branch whose procedure keeps every warp's data. -/
theorem branchesBy_of_data {i : Instr} {s : State} {f : Warp → Warp} (h : exec i s = .next (s.branch f))
    (hf : ∀ w, (f w).data = w.data) : BranchesBy i s f id :=
  ⟨h, branch_moved s f id fun w hw => (hf w).trans hw⟩

/-- A branch depends on what its procedure makes of the issuing warp alone. -/
theorem branch_congr {s : State} {f g : Warp → Warp}
    (h : f (s.hwarp.setSplit s.run.split { s.hsplit with word := 0 }) = g (s.hwarp.setSplit s.run.split { s.hsplit with word := 0 })) :
    s.branch f = s.branch g :=
  congrArg (fun w : Warp => (s.setWarp s.hcore s.run.wslot w.wakeWaiting).leaveSlot) h

/-- The free entry depends on the states of the splits alone. -/
theorem freeSplit_of_states {w v : Warp} (h : ∀ i, (w.split i).state = (v.split i).state) : w.freeSplit = v.freeSplit := by
  unfold Warp.freeSplit; simp only [h]

/-- The split keeps lanes m, at the head of a clause. -/
def Warp.keeps (w : Warp) (i : Nat) (m : Word) : Warp := w.setSplit i { w.split i with mask := m }

theorem freeSplit_keeps (s : State) (m : Word) :
    ((s.hwarp.setSplit s.run.split { s.hsplit with word := 0 }).keeps s.run.split m).freeSplit = s.hwarp.freeSplit := by
  refine freeSplit_of_states fun j => ?_
  simp only [Warp.keeps, Warp.split_setSplit, if_true]
  split
  · next h => subst h; rfl
  · rfl

section
variable (s : State) (mk : MReg) (c : Bool) (off : Fin 1048576)

theorem branchesBy_setPc {i : Instr} {t : Bool} (h : exec i s = goTo s t off) :
    BranchesBy i s (·.setPc s.run.split (if t then s.target off else s.follow)) id :=
  branchesBy_of_data h fun _ => Warp.data_setPc ..

/-! ### bdiv (05_control.md R102) -/

theorem execBdiv_follow (h : s.hsplit.mask &&& s.cond mk c = 0) : execBdiv mk c off s = goTo s false off := by
  rw [execBdiv]; exact if_pos (by simpa using h)

theorem execBrk_follow (h : s.hsplit.mask &&& s.cond mk c = 0) : execBrk mk c off s = goTo s false off := by
  rw [execBrk]; exact if_pos (by simpa [State.em] using h)

theorem execBdiv_target (h : s.hsplit.mask &&& s.cond mk c ≠ 0) (h' : s.hsplit.mask &&& ~~~s.cond mk c = 0) :
    execBdiv mk c off s = goTo s true off := by
  rw [execBdiv]; exact (if_neg (by simpa using h)).trans (if_pos (by simpa using h'))

/-- The target's token, where the split stands in it. -/
def State.direct (s : State) (off : Fin 1048576) : Bool := s.hsplit.tv && s.target off == (s.hwarp.tok s.hsplit.td).pc

theorem direct_iff : s.direct off = true ↔ s.hsplit.tv = true ∧ s.target off = (s.hwarp.tok s.hsplit.td).pc := by simp [State.direct]

variable (h : s.hsplit.mask &&& s.cond mk c ≠ 0) (h' : s.hsplit.mask &&& ~~~s.cond mk c ≠ 0)
include h h'

theorem execBdiv_waits (hd : ¬ s.direct off = true) (hs : s.hwarp.freeSplit = none) (ht : s.hwarp.freeTok = none) :
    execBdiv mk c off s = waitToken .entry s := by
  have hb : (!s.direct off && s.hwarp.freeSplit.isNone && s.hwarp.freeTok.isNone) = true := by simp [hs, ht, hd]
  rw [execBdiv]; exact (if_neg (by simpa using h)).trans ((if_neg (by simpa using h')).trans (if_pos hb))

/-- What becomes of the lanes that go to the target: they leave to its token, to a free split entry or to a deferred token. -/
def Warp.divert (w : Warp) (sp : Split) (tk : Token) (X : Nat) (L : Word) (direct : Bool) : Warp :=
  if direct then w.setTok sp.td { tk with pending := tk.pending &&& ~~~L }
  else
    match w.freeSplit, w.freeTok with
    | some n, _ => (w.setSplit n { pc := X, mask := L, word := 0, state := 1, tv := sp.tv, td := sp.td }).setPc n X
    | none, some t => w.setTok t { kind := 3, pc := X, rejoin := L, pending := 0, parent := sp.td, pv := sp.tv }
    | none, none => w

theorem execBdiv_splits (hf : s.direct off = true ∨ s.hwarp.freeSplit ≠ none ∨ s.hwarp.freeTok ≠ none) :
    execBdiv mk c off s = .next (s.branch (fun w => ((w.keeps s.run.split (s.hsplit.mask &&& ~~~s.cond mk c)).divert s.hsplit
      (s.hwarp.tok s.hsplit.td) (s.target off) (s.hsplit.mask &&& s.cond mk c) (s.direct off)).setPc s.run.split s.follow)) := by
  have hb : ¬ (!s.direct off && s.hwarp.freeSplit.isNone && s.hwarp.freeTok.isNone) = true := by
    simp only [Bool.and_eq_true, Bool.not_eq_true', Option.isNone_iff_eq_none, ← Bool.not_eq_true]
    rintro ⟨⟨a, b⟩, d⟩
    exact hf.elim a (fun e => e.elim (· b) (· d))
  rw [execBdiv]; exact (if_neg (by simpa using h)).trans ((if_neg (by simpa using h')).trans (if_neg hb))

/-- `bdiv` whose lanes can go their ways. -/
theorem bdiv_branchesBy {f : Warp → Warp} (hf : s.direct off = true ∨ s.hwarp.freeSplit ≠ none ∨ s.hwarp.freeTok ≠ none)
    (hv : ∀ w : Warp, w.freeSplit = s.hwarp.freeSplit → w.freeTok = s.hwarp.freeTok →
      w.divert s.hsplit (s.hwarp.tok s.hsplit.td) (s.target off) (s.hsplit.mask &&& s.cond mk c) (s.direct off) = f w)
    (hdata : ∀ w, (f w).data = w.data) :
    BranchesBy (.bdiv mk c off) s
      (fun w => (f (w.setSplit s.run.split { w.split s.run.split with mask := s.hsplit.mask &&& ~~~s.cond mk c })).setPc s.run.split
        s.follow) id := by
  refine branchesBy_of_data ?_ fun w => by rw [Warp.data_setPc, hdata, Warp.data_setSplit]
  rw [exec_bdiv, execBdiv_splits s mk c off h h' hf]
  refine congrArg Host.Outcome.next (branch_congr ?_)
  simp only []
  rw [hv _ (freeSplit_keeps s _) rfl]
  rfl

theorem bdiv_direct (hd : s.direct off = true) : BranchesBy (.bdiv mk c off) s
    (fun w => ((w.setSplit s.run.split { w.split s.run.split with mask := s.hsplit.mask &&& ~~~s.cond mk c }).setTok s.hsplit.td
      { s.hwarp.tok s.hsplit.td with
        pending := (s.hwarp.tok s.hsplit.td).pending &&& ~~~(s.hsplit.mask &&& s.cond mk c) }).setPc s.run.split s.follow) id :=
  bdiv_branchesBy s mk c off h h' (.inl hd) (f := fun w => w.setTok s.hsplit.td { s.hwarp.tok s.hsplit.td with
    pending := (s.hwarp.tok s.hsplit.td).pending &&& ~~~(s.hsplit.mask &&& s.cond mk c) })
    (fun _ _ _ => if_pos hd) fun _ => rfl

theorem bdiv_forks (hd : ¬ s.direct off = true) (n : Nat) (hn : s.hwarp.freeSplit = some n) : BranchesBy (.bdiv mk c off) s
    (fun w => (((w.setSplit s.run.split { w.split s.run.split with mask := s.hsplit.mask &&& ~~~s.cond mk c }).setSplit n
      { pc := s.target off, mask := s.hsplit.mask &&& s.cond mk c, word := 0, state := 1, tv := s.hsplit.tv
        td := s.hsplit.td }).setPc n (s.target off)).setPc s.run.split s.follow) id :=
  bdiv_branchesBy s mk c off h h' (.inr (.inl (by simp [hn]))) (f := fun w => (w.setSplit n
      { pc := s.target off, mask := s.hsplit.mask &&& s.cond mk c, word := 0, state := 1, tv := s.hsplit.tv
        td := s.hsplit.td }).setPc n (s.target off))
    (fun w hs _ => by rw [Warp.divert, if_neg hd, hs, hn]) fun w => by rw [Warp.data_setPc, Warp.data_setSplit]

theorem bdiv_defers (hd : ¬ s.direct off = true) (d : Nat) (hs : s.hwarp.freeSplit = none) (ht : s.hwarp.freeTok = some d) :
    BranchesBy (.bdiv mk c off) s
      (fun w => ((w.setSplit s.run.split { w.split s.run.split with mask := s.hsplit.mask &&& ~~~s.cond mk c }).setTok d
        { kind := 3, pc := s.target off, rejoin := s.hsplit.mask &&& s.cond mk c, pending := 0, parent := s.hsplit.td
          pv := s.hsplit.tv }).setPc s.run.split s.follow) id :=
  bdiv_branchesBy s mk c off h h' (.inr (.inr (by simp [ht]))) (f := fun w => w.setTok d
      { kind := 3, pc := s.target off, rejoin := s.hsplit.mask &&& s.cond mk c, pending := 0, parent := s.hsplit.td
        pv := s.hsplit.tv })
    (fun w hs' ht' => by rw [Warp.divert, if_neg hd, hs', hs, ht', ht]) fun _ => rfl

end

/-! ### join, call, brk, ret and exit (05_control.md R103 to R107) -/

section
variable (s : State) (mk : MReg) (c : Bool) (off : Fin 1048576)

/-- A token of the kind and pc that holds the split's lanes, and the split within it. -/
def State.opens (s : State) (w : Warp) (d kind pc : Nat) : Warp :=
  (w.setTok d { kind := kind, pc := pc, rejoin := s.hsplit.mask, pending := s.hsplit.mask, parent := s.hsplit.td
                pv := s.hsplit.tv }).setSplit s.run.split { w.split s.run.split with td := d, tv := true }

theorem join_opens (d : Nat) (hd : s.hwarp.freeTok = some d) :
    BranchesBy (.join off) s (fun w => (s.opens w d 1 (s.target off)).setPc s.run.split s.follow) id :=
  branchesBy_of_data (by rw [exec_join, execJoin, hd]; rfl) fun w => Warp.data_setPc ..

theorem call_opens (d : Nat) (hd : s.hwarp.freeTok = some d) :
    BranchesBy (.call off) s (fun w => (s.opens w d 2 s.follow).setPc s.run.split (s.target off)) id :=
  branchesBy_of_data (by rw [exec_call, execCall, hd]; rfl) fun w => Warp.data_setPc ..

theorem join_waits (hd : s.hwarp.freeTok = none) : WaitsFor (.join off) s .token :=
  waitsFor_of_exec (by rw [exec_join, execJoin, hd])

theorem call_waits (hd : s.hwarp.freeTok = none) : WaitsFor (.call off) s .token :=
  waitsFor_of_exec (by rw [exec_call, execCall, hd])

section
variable (h : s.hsplit.mask &&& s.cond mk c ≠ 0)
include h

theorem brk_traps (hj : s.hwarp.findJoin (s.target off) (s.hwarp.chain s.hsplit) = none) :
    exec (.brk mk c off) s = .next (s.rejoinFault 2) := by
  rw [exec_brk, execBrk]
  refine (if_neg (by simpa [State.em] using h)).trans ?_
  rw [hj]

theorem brk_leaves (T : Nat) (hj : s.hwarp.findJoin (s.target off) (s.hwarp.chain s.hsplit) = some T) :
    exec (.brk mk c off) s = .next (s.branch (fun w =>
      if s.hsplit.mask &&& ~~~(s.hsplit.mask &&& s.cond mk c) != 0 then
        (w.leave s.run.split (s.hsplit.mask &&& s.cond mk c) (some T)).setPc s.run.split s.follow
      else w.leave s.run.split (s.hsplit.mask &&& s.cond mk c) (some T))) := by
  rw [exec_brk, execBrk]
  refine (if_neg (by simpa [State.em] using h)).trans ?_
  rw [hj]
  rfl

end

/-- The lanes that do not leave are those out of cond. -/
theorem mask_stays (m x : Word) : m &&& ~~~(m &&& x) = m &&& ~~~x := by
  ext i hi; simp only [BitVec.getElem_and, BitVec.getElem_not]; cases m[i] <;> simp

theorem brk_splits (h : s.hsplit.mask &&& s.cond mk c ≠ 0) (T : Nat)
    (hj : s.hwarp.findJoin (s.target off) (s.hwarp.chain s.hsplit) = some T) (h' : s.hsplit.mask &&& ~~~s.cond mk c ≠ 0) :
    BranchesBy (.brk mk c off) s
      (fun w => (w.leave s.run.split (s.hsplit.mask &&& s.cond mk c) (some T)).setPc s.run.split s.follow) id := by
  refine branchesBy_of_data ((brk_leaves s mk c off h T hj).trans ?_) fun w => by rw [Warp.data_setPc, Warp.data_leave]
  exact congrArg Host.Outcome.next (branch_congr (if_pos (by rw [mask_stays]; simpa using h')))

theorem brk_all (h : s.hsplit.mask &&& s.cond mk c ≠ 0) (T : Nat)
    (hj : s.hwarp.findJoin (s.target off) (s.hwarp.chain s.hsplit) = some T) (h' : s.hsplit.mask &&& ~~~s.cond mk c = 0) :
    BranchesBy (.brk mk c off) s (fun w => w.leave s.run.split (s.hsplit.mask &&& s.cond mk c) (some T)) id := by
  refine branchesBy_of_data ((brk_leaves s mk c off h T hj).trans ?_) fun w => by rw [Warp.data_leave]
  exact congrArg Host.Outcome.next (branch_congr (if_neg (by rw [mask_stays]; simpa using h')))

theorem ret_traps (hc : (s.hwarp.chain s.hsplit).find? (fun T => (s.hwarp.tok T).kind == 2) = none) :
    exec .ret s = .next (s.rejoinFault 3) := by rw [exec_ret, execRet, hc]

theorem ret_leaves (T : Nat) (hc : (s.hwarp.chain s.hsplit).find? (fun T => (s.hwarp.tok T).kind == 2) = some T) :
    BranchesBy .ret s (fun w => w.leave s.run.split s.hsplit.mask (some T)) id :=
  branchesBy_of_data (by rw [exec_ret, execRet, hc]; rfl) fun w => Warp.data_leave ..

theorem exit_leaves : BranchesBy .exit s
    (fun w => let v := w.leave s.run.split s.hsplit.mask none; { v with live := v.live &&& ~~~s.hsplit.mask })
    (fun w => { w with live := w.live &&& ~~~s.hsplit.mask }) := by
  refine ⟨rfl, branch_moved s _ _ fun w hw => ?_⟩
  have hl : (w.leave s.run.split s.hsplit.mask none).data = s.hwarp.data := (Warp.data_leave ..).trans hw
  exact Warp.data_congr hl (fun w => { w with live := w.live &&& ~~~s.hsplit.mask }) fun _ => rfl

end

/-- Settles O5: each branch by the cases of its own procedure; what a split waits for by the states of its warp's splits. -/
theorem divergentBranchesKeepTheWarpData : Obligations.DivergentBranchesKeepTheWarpData := by
  intro s mk c off i sp X F cond Lt Lf tk direct chain
  have hX : s.target off = X := State.target_eq s off
  have hdir : direct ↔ s.direct off = true := by rw [direct_iff, hX]
  refine ⟨fun h => ⟨?_, ?_⟩, fun h h' => ?_, fun h h' => ⟨fun hd => ?_, fun n hd hn => ?_, fun d hd hs ht => ?_, fun hd hs ht => ?_⟩,
    fun d hd => ⟨?_, ?_⟩, fun hd => ⟨join_waits s off hd, call_waits s off hd⟩, fun h hj => ?_, fun T h hj => ⟨fun h' => ?_, fun h' => ?_⟩,
    ret_traps s, ret_leaves s, exit_leaves s⟩
  · exact branchesBy_setPc s off (t := false) (execBdiv_follow s mk c off h)
  · exact branchesBy_setPc s off (t := false) (execBrk_follow s mk c off h)
  · rw [← hX]; exact branchesBy_setPc s off (t := true) (execBdiv_target s mk c off h h')
  · exact bdiv_direct s mk c off h h' (hdir.1 hd)
  · rw [← hX]; exact bdiv_forks s mk c off h h' (mt hdir.2 hd) n hn
  · rw [← hX]; exact bdiv_defers s mk c off h h' (mt hdir.2 hd) d hs ht
  · exact waitsFor_of_exec (execBdiv_waits s mk c off h h' (mt hdir.2 hd) hs ht)
  · rw [← hX]; exact join_opens s off d hd
  · rw [← hX]; exact call_opens s off d hd
  · exact brk_traps s mk c off h (hX ▸ hj)
  · exact brk_splits s mk c off h T (hX ▸ hj) h'
  · exact brk_all s mk c off h T (hX ▸ hj) h'

end Sys2Proof.Machine

/-! PROOF. How a word that completes moves its split on (05_control.md R97, R114, R115). -/
namespace Sys2Proof.Machine

theorem Core.slot_setSlot (k : Core) (i : Nat) (r : Option Run) : (k.setSlot i r).slot i = r := by
  by_cases hi : i = 0 <;> simp [Core.setSlot, Core.slot, hi]

/-- The clause a slot takes when its clause leaves: the partner's, where it still stands at the head of the clause. -/
theorem leaveSlot_partner (s : State) {ws k : Nat} (h : s.run.partner = some (ws, k)) :
    (s.leaveSlot.core s.hcore).slot s.focus.2 =
      if ((s.leaveSlot.warp s.hcore ws).split k).state = 1 ∧ ((s.leaveSlot.warp s.hcore ws).split k).pc = s.run.pc ∧
        ((s.leaveSlot.warp s.hcore ws).split k).word = 0 then
      some { s.run with wslot := ws, split := k, partner := none, late := true } else none := by
  simp only [State.leaveSlot, State.core_updCore, State.warp_updCore, State.hcore, if_true, h, Bool.and_eq_true,
    beq_iff_eq, and_assoc]
  exact Core.slot_setSlot ..

theorem leaveSlot_split (s : State) (k : Nat) : (s.leaveSlot.warp s.hcore s.run.wslot).split k = s.hwarp.split k := by
  rw [leaveSlot_warp]; rfl

/-- Within its clause the split moves to a later word. -/
theorem advance_within {s : State} {n : Nat} (h : s.cidx + n ≤ hdrN s.run.hdr) :
    s.advance n = s.updHere (fun w => w.setSplit s.run.split { w.split s.run.split with word := s.cidx + n }) := if_pos h

/-- Past the last word of its clause the split goes to the head of the clause that follows, and the slot is left. -/
def State.pastClause (s : State) : State :=
  s.updHere (fun w => ((w.setSplit s.run.split { w.split s.run.split with word := 0 }).setPc s.run.split s.run.follow).wakeWaiting)

theorem advance_past {s : State} {n : Nat} (h : hdrN s.run.hdr < s.cidx + n) : s.advance n = s.pastClause.leaveSlot :=
  if_neg (Nat.not_le.2 h)

/-- The split that passes its clause, outside every token. -/
theorem split_pastClause {s : State} (htv : s.hsplit.tv = false) (hst : s.hsplit.state = 1) :
    s.pastClause.hwarp.split s.run.split = { s.hsplit with word := 0, pc := s.run.follow } := by
  have hm := Warp.setPc_moves (s.hwarp.setSplit s.run.split { s.hsplit with word := 0 }) s.run.split s.run.follow
    (by simp [Warp.arrivesAt, htv])
  rw [State.pastClause, State.hwarp_updHere, Warp.split_wakeWaiting] <;>
    rw [show s.hwarp.split s.run.split = s.hsplit from rfl, hm, Warp.split_setSplit, if_pos rfl, Warp.split_setSplit, if_pos rfl]
  exact fun e => absurd (hst.symm.trans e) (by decide)

section
variable {s v : State} (hr : v.run = s.run) (hs : v.hwarp.splits = s.hwarp.splits)
include hr hs

theorem hsplit_of_splits : v.hsplit = s.hsplit := by
  unfold State.hsplit Warp.split; rw [hs, hr]

theorem cidx_of_splits : v.cidx = s.cidx := by unfold State.cidx; rw [hsplit_of_splits hr hs]

end

/-- A word that completes within its clause. -/
theorem onward_within {s t : State} {i : Instr} (h : Onward i s t) (hn : s.cidx + wordsOf i ≤ hdrN s.run.hdr) :
    t.hsplit = { s.hsplit with word := s.cidx + wordsOf i } ∧ t.run = s.run := by
  obtain ⟨v, rfl, hf, hr, hs, -⟩ := h
  have hsp := hsplit_of_splits hr hs
  have hc := cidx_of_splits hr hs
  rw [advance_within (by rw [hc, hr]; exact hn), State.run_updHere]
  refine ⟨?_, hr⟩
  unfold State.hsplit
  rw [State.run_updHere, State.hwarp_updHere, Warp.split_setSplit, if_pos rfl, hc]
  exact congrArg (fun x : Split => { x with word := s.cidx + wordsOf i }) hsp

/-- A word that completes past the last word of its clause. -/
theorem onward_past {s t : State} {i : Instr} (h : Onward i s t) (hn : hdrN s.run.hdr < s.cidx + wordsOf i)
    (htv : s.hsplit.tv = false) (hst : s.hsplit.state = 1) :
    ∃ v : State, t = v.leaveSlot ∧ v.focus = s.focus ∧ v.run = s.run ∧
      v.hwarp.split s.run.split = { s.hsplit with word := 0, pc := s.run.follow } := by
  obtain ⟨v, rfl, hf, hr, hs, -⟩ := h
  have hsp := hsplit_of_splits hr hs
  refine ⟨v.pastClause, advance_past (by rw [cidx_of_splits hr hs, hr]; exact hn), hf, (State.run_updHere ..).trans hr, ?_⟩
  rw [← hr, split_pastClause (by rw [hsp]; exact htv) (by rw [hsp]; exact hst), hsp]

/-- Settles O3, by whether the word's successor lies in its clause. -/
theorem wordsMoveTheSplitOn : Obligations.WordsMoveTheSplitOn := by
  refine ⟨fun s t i h hn => onward_within h hn, fun s d r x hn => ⟨?_, ?_⟩, fun s t i h hn htv hst => ?_⟩
  · obtain ⟨t, ht, -, ho⟩ := (scalarWords.1 s d (.lit x) (.lit x)).2.2.2.2.2.2.2.2.2.2.2.2.2.1
    exact ⟨t, ht, (onward_within ho hn).1⟩
  · obtain ⟨t, ht, -, ho⟩ := (scalarWords.1 s d (.s r) (.s r)).2.2.2.2.2.2.2.2.2.2.2.2.2.1
    exact ⟨t, ht, (onward_within ho (by exact Nat.le_trans (Nat.le_succ _) hn)).1⟩
  · obtain ⟨v, rfl, hf, hr, hv⟩ := onward_past h hn htv hst
    have hc : v.hcore = s.hcore := congrArg Prod.fst hf
    rw [← hr, ← hc, ← hf] at *
    exact ⟨(leaveSlot_split v _).trans hv, leaveSlot_slot, fun ws k hp => leaveSlot_partner v hp⟩

end Sys2Proof.Machine

/-! PROOF. One step of the machine (02_encoding.md R26 to R28), and the words that the spec writes out. -/
namespace Sys2Proof.Machine

/-! ### What a step does with a turn -/

theorem step_upset {s : State} (h : s.mem.upsets ≠ []) : step s = .next (reportUpset s) :=
  if_pos (by cases hu : s.mem.upsets with
    | nil => exact absurd hu h
    | cons => rfl)

theorem step_idle {s : State} (h : s.mem.upsets = []) (hs : s.schedule = []) : step s = issueSlot s := by
  rw [step, h, hs]; rfl

theorem step_turn {s : State} (t : Turn) (r : List Turn) (h : s.mem.upsets = []) :
    step { s with schedule := t :: r } = runTurn t { s with schedule := r } :=
  if_neg (by rw [h]; decide)

/-- The slot in focus holds a clause that has passed its header, and nothing goes before its word. -/
structure WordAtSlot (s : State) (r : Run) : Prop where
  up : s.plat.devErr = false
  runs : (s.core s.focus.1).closing = false
  alone : remoteHolds s s.focus.1 s.focus.2 = none
  holds : (s.core s.focus.1).slot s.focus.2 = some r
  passed : r.late = false

theorem WordAtSlot.issueSlot {s : State} {r : Run} (h : WordAtSlot s r) : issueSlot s = issueWord s := by
  have hup : ¬ s.plat.devErr = true := by rw [h.up]; decide
  have hruns : ¬ (s.core s.focus.1).closing = true := by rw [h.runs]; decide
  have hpassed : ¬ r.late = true := by rw [h.passed]; decide
  rw [Machine.issueSlot, if_neg hup, if_neg hruns, h.alone, h.holds]
  exact if_neg hpassed

/-! ### What the word at a slot does -/

theorem fetchInstr_decoded {s : State} {i : Instr} {rest : List Word} (hd : decode (s.run.words.drop (s.cidx - 1)) = .ok (i, rest))
    (hp : placeOk s.run.hdr (bitsOf s.word.toNat 24 8) s.cidx (if i.literal?.isSome then 2 else 1) s.inHandler = true) :
    s.fetchInstr = some i := by
  rw [State.fetchInstr, hd]; exact if_pos hp

theorem issueWord_decoded {s : State} {i : Instr} (h : s.fetchInstr = some i) :
    issueWord s = if s.held i then .next s else exec i s := by rw [issueWord, h]

theorem issueWord_illegal {s : State} (h : s.fetchInstr = none) : issueWord s = .next s.illegal := by rw [issueWord, h]

theorem issueSlot_stopped {s : State} (h : s.plat.devErr = true) : issueSlot s = .next s := if_pos h

/-- Settles O52, by the turn, and for a slot by what its word decodes to. -/
theorem stepRunsTheDecodedInstruction : Obligations.StepRunsTheDecodedInstruction := by
  intro s r i rest e turns issues
  have issue : ∀ a b : State, (a.mem.upsets = [] → step a = issueSlot b) → issues a b := by
    intro a b hab hu up runs alone holds passed
    have hslot : step a = issueWord b := (hab hu).trans (WordAtSlot.issueSlot ⟨up, runs, alone, holds, passed⟩)
    refine ⟨fun hd hp => ?_, fun hn => hslot.trans (issueWord_illegal hn)⟩
    have hw := hslot.trans (issueWord_decoded (fetchInstr_decoded hd hp))
    exact ⟨fun hh => by rw [hw, hh]; rfl, fun hh => by rw [hw, hh]; rfl⟩
  refine ⟨fun hs => issue s s fun hu => step_idle hu hs, fun core slot => issue _ _ fun hu => step_turn _ _ hu,
    fun hu he => (step_turn _ _ hu).trans ?event, step_upset, fun core slot hu hs hd => ⟨?idle, ?slot⟩⟩
  case event => exact if_neg (by rw [he]; decide)
  case idle => exact (step_idle hu hs).trans (issueSlot_stopped hd)
  case slot =>
    have hstop := issueSlot_stopped (s := { s with focus := (core, slot) }) hd
    rw [← hs]
    exact (step_turn _ s.schedule hu).trans hstop

/-- A word of the spec is the encoding of its instruction, which the decoder reads back. -/
theorem decode_of_encode {i : Instr} {ws rest : List Word} (he : encode i ++ rest = ws) (hi : i.isWord = true) (hw : i.wf = true) :
    decode ws = .ok (i, rest) := he ▸ Laws.decodeReadsBackEveryEncoding i rest hi hw

/-- Settles O54: each is the encoding of its instruction, and decoding reads that back (O53). -/
theorem wordsOfTheSpecDecode : Obligations.WordsOfTheSpecDecode :=
  ⟨decode_of_encode rfl rfl rfl, decode_of_encode rfl rfl rfl, decode_of_encode rfl rfl rfl, decode_of_encode rfl rfl rfl,
    decode_of_encode rfl rfl rfl, decode_of_encode rfl rfl rfl, decode_of_encode rfl rfl rfl, decode_of_encode rfl rfl rfl,
    decode_of_encode rfl rfl rfl, decode_of_encode rfl rfl rfl, decode_of_encode rfl rfl rfl, decode_of_encode rfl rfl rfl⟩

end Sys2Proof.Machine

/-! PROOF. The memory words that enter requests (07_memory.md R145, R155 to R158, R163, 12_atomics.md R239, R250, R251). -/
namespace Sys2Proof.Machine

/-! ### The shape of a memory word: its counter, its registers, its checks -/

/-- A memory word waits for its counter, checks its registers, and has its effect if its checks pass. -/
def State.memWord (s : State) (kind : ReqKind) (regs : List Nat) (v : Verdict) (ok : State) : Result :=
  if counterFull s.hwarp kind then .next s
  else if !s.inRange regs then .next s.rangeFault
  else onVerdict s v ok

section
variable {s ok : State} {kind : ReqKind} {regs : List Nat} {v : Verdict}

theorem memWord_checked (hc : counterFull s.hwarp kind = false) (hr : s.inRange regs = true) :
    s.memWord kind regs v ok = onVerdict s v ok := by
  rw [State.memWord, hc, hr]; rfl

theorem memWord_ok (hc : counterFull s.hwarp kind = false) (hr : s.inRange regs = true) (hv : v = .ok) :
    s.memWord kind regs v ok = .next ok := by
  rw [memWord_checked hc hr, hv, onVerdict_ok]

theorem memWord_fault {f : FaultInfo} (hc : counterFull s.hwarp kind = false) (hr : s.inRange regs = true) (hv : v = .fault f) :
    s.memWord kind regs v ok = .next (s.raise f) := by
  rw [memWord_checked hc hr, hv, onVerdict_fault]

end

theorem counterFull_ld {w : Warp} {k : ReqKind} (hk : k.onSt = false) (h : w.ld < 30) : counterFull w k = false := by
  rw [counterFull, hk]; exact decide_eq_false (Nat.not_le.2 h)

theorem counterFull_st {w : Warp} {k : ReqKind} (hk : k.onSt = true) (h : w.st < 30) : counterFull w k = false := by
  rw [counterFull, hk]; exact decide_eq_false (Nat.not_le.2 h)

/-- The accesses of a global word by the addresses of its lanes. -/
theorem accesses_eq (s : State) (sb : SReg) (vo : VReg) (disp : Int) :
    s.accesses sb vo disp = (lanesOf s.em).map (fun i => ⟨i, s.gaddr sb vo disp i⟩) := by
  simp only [State.accesses, gaddr_eq]

theorem globalWord_eq (s : State) (kind : ReqKind) (w need vd : Nat) (regs data : List Nat) (sb : SReg) (vo : VReg) (disp : Int)
    (sc ord n : Nat) (dataOf : Nat → Nat) : globalWord s kind w need vd regs data sb vo disp sc ord n dataOf =
      s.memWord kind (voRegs vo ++ regs)
        (globalVerdict s s.hcore s.hwarp.ctx s.hwarp (s.accesses sb vo disp) w need (voRegs vo ++ data) none)
        (globalEffect s kind (s.accesses sb vo disp) w vd sc ord n dataOf) := by
  rw [accesses_eq]; rfl

/-! ### The requests that global words enter -/

section
variable (s : State) (acc : List Acc) (w vd sc ord n : Nat) (data : Nat → Nat)

/-- The request of a global word, with the parts of its lanes. -/
def State.globalReq (kind : ReqKind) : Req :=
  { s.newReq kind .global w vd sc ord with parts := acc.map (fun a => globalPart s s.hcore s.hwarp.ctx a (data a.lane)) }

/-- The state in which the ECB entries are filled and the bytes of a store folded. -/
def State.stored : State :=
  foldSig (fillEcbs s s.hcore s.hwarp.ctx acc) s.hwarp.blk
    ((acc.map (fun a => globalPart s s.hcore s.hwarp.ctx a (data a.lane))).map (fun p => (p.addr, leBytes w p.data)))

theorem globalEffect_load {kind : ReqKind} (hk : (kind == .store || kind == .sstore) = false) :
    globalEffect s kind acc w vd sc ord n data =
      ((fillEcbs s s.hcore s.hwarp.ctx acc).enter (s.globalReq acc w vd sc ord data kind)).advance n := by
  rw [globalEffect, hk]; rfl

theorem globalEffect_store {kind : ReqKind} (hk : (kind == .store || kind == .sstore) = true) :
    globalEffect s kind acc w vd sc ord n data =
      (if s.hblk.isReplay then s.stored acc w data
        else (s.stored acc w data).enter (s.globalReq acc w vd sc ord data kind)).advance n := by
  rw [globalEffect, hk]; rfl

theorem stays_stored : Stays s (s.stored acc w data) := (Stays.fillEcbs s _ _ acc).trans (Stays.foldSig _ _ _)

theorem stored_mem : (s.stored acc w data).mem = s.mem := by rw [State.stored, foldSig_mem, fillEcbs_mem]

end

/-- The load that a global word enters. -/
theorem globalLoad_completes {i : Instr} {s : State} {sgn : Bool} {w : Nat} {d : VReg} {sb : SReg} {vo : VReg} {sc : Fin 8} {x : Option Word}
    (he : exec i s = globalLoad s sgn w d sb vo sc x) (hn : litWords x = wordsOf i) :
    let acc := s.accesses sb vo (x.getD 0).toInt
    let u := (fillEcbs s s.hcore s.hwarp.ctx acc).enter { s.newReq (.load sgn) .global w d.val sc.val 0 with
      parts := acc.map (fun a => globalPart s s.hcore s.hwarp.ctx a 0) }
    s.hwarp.ld < 30 → s.inRange (voRegs vo ++ groupRegs d.val w) →
    globalVerdict s s.hcore s.hwarp.ctx s.hwarp acc w permR (voRegs vo) none = .ok → CompletesVia i s u ∧ u.mem.bytes = s.mem.bytes := by
  intro acc u hld hr hv
  refine ⟨?_, by rw [enter_bytes, fillEcbs_mem]⟩
  have hs : Stays s u := (Stays.fillEcbs s _ _ acc).trans (Stays.enter _ _)
  refine hs.completesVia (he.trans ?_) hn
  rw [globalLoad, globalWord_eq, memWord_ok (kind := .load sgn) (counterFull_ld rfl hld) hr (by rw [List.append_nil]; exact hv),
    globalEffect_load _ _ _ _ _ _ _ _ rfl]
  rfl

/-- The store that a global word enters; in a replay it is folded only. -/
theorem globalStore_completes {i : Instr} {s : State} {w : Nat} {d : VReg} {sb : SReg} {vo : VReg} {sc : Fin 8} {x : Option Word}
    (he : exec i s = globalStore s w d sb vo sc x) (hn : litWords x = wordsOf i) :
    let acc := s.accesses sb vo (x.getD 0).toInt
    let v := s.stored acc w (fun l => s.hwarp.group d.val w l)
    let u := v.enter (s.globalReq acc w d.val sc.val 0 (fun l => s.hwarp.group d.val w l) .store)
    s.hwarp.st < 30 → s.inRange (voRegs vo ++ groupRegs d.val w) →
    globalVerdict s s.hcore s.hwarp.ctx s.hwarp acc w permW (voRegs vo ++ groupRegs d.val w) none = .ok →
    (s.hblk.isReplay = false → CompletesVia i s u ∧ u.mem.bytes = s.mem.bytes) ∧
    (s.hblk.isReplay = true → CompletesVia i s v ∧ v.mem = s.mem) := by
  intro acc v u hst hr hv
  have hs : Stays s v := stays_stored ..
  have hexec : exec i s = .next ((if s.hblk.isReplay then v else u).advance (litWords x)) := by
    rw [he, globalStore, globalWord_eq]
    refine (memWord_ok (kind := .store) (counterFull_st rfl hst) hr hv).trans ?_
    rw [globalEffect_store _ _ _ _ _ _ _ _ rfl]
    rfl
  constructor
  · intro hb
    rw [hb] at hexec
    exact ⟨(hs.trans (Stays.enter _ _)).completesVia hexec hn, by rw [enter_bytes, stored_mem]⟩
  · intro hb
    rw [hb] at hexec
    exact ⟨hs.completesVia hexec hn, stored_mem ..⟩

theorem scalarWord_eq (s : State) (kind : ReqKind) (need vd : Nat) (sb : SReg) (sc : Fin 8) (x : Option Word) (data : Nat)
    (hc : counterFull s.hwarp kind = false) :
    scalarWord s kind need vd sb sc x data =
      onVerdict s (globalVerdict s s.hcore s.hwarp.ctx s.hwarp [⟨0, (((s.sbase sb : Int) + (x.getD 0).toInt) % 2 ^ 64).toNat⟩] 4 need []
        (some s.em))
        (globalEffect s kind [⟨0, (((s.sbase sb : Int) + (x.getD 0).toInt) % 2 ^ 64).toNat⟩] 4 vd sc.val 0 (litWords x) (fun _ => data)) := by
  rw [scalarWord, hc]; rfl

/-- Settles O16: every one of these words is the global or the scalar word's shape. -/
theorem globalAccessesEnterRequests : Obligations.GlobalAccessesEnterRequests := by
  refine ⟨fun s d sb vo sc x => ?_, fun s d sb vo sc x => ?_, fun s d sb sc x => ?_⟩
  · intro acc load
    refine ⟨?_, ?_, ?_, ?_, ?_, ?_, ?_⟩ <;> exact globalLoad_completes rfl rfl
  · intro acc store
    refine ⟨?_, ?_, ?_, ?_, ?_⟩ <;> exact globalStore_completes rfl rfl
  · intro acc part fine
    refine ⟨fun hld hv => ?_, ?_⟩
    · refine ((Stays.fillEcbs s s.hcore s.hwarp.ctx acc).trans (Stays.enter _ _)).completesVia (n := litWords x) ?_ rfl
      rw [exec_sldB32, execSldB32, scalarWord_eq _ _ _ _ _ _ _ _ (counterFull_ld rfl hld), show globalVerdict .. = _ from hv, onVerdict_ok,
        globalEffect_load _ _ _ _ _ _ _ _ rfl]
      rfl
    · intro store v hst hv
      have hexec : exec (.sstB32 d sb sc x) s = .next ((if s.hblk.isReplay then v else
          v.enter { s.newReq .sstore .global 4 d.val sc.val 0 with parts := store }).advance (litWords x)) := by
        rw [exec_sstB32, execSstB32, scalarWord_eq _ _ _ _ _ _ _ _ (counterFull_st rfl hst), show globalVerdict .. = _ from hv, onVerdict_ok,
          globalEffect_store _ _ _ _ _ _ _ _ rfl]
        rfl
      have hs : Stays s v := stays_stored s acc 4 fun _ => (s.hwarp.s d.val).toNat
      refine Stays.completesVia ?_ hexec rfl
      split
      · exact hs
      · exact hs.trans (Stays.enter _ _)

end Sys2Proof.Machine

/-! PROOF. Accesses of the local levels, atomics and bounded accumulation (07_memory.md R157, 12_atomics.md R225, R239, R250, R251). -/
namespace Sys2Proof.Machine

/-! ### Local levels (07_memory.md R157) -/

section
variable (s : State) (w vd : Nat) (vo : VReg) (lv : Level) (lit disp : Word)

/-- The accesses of a local word. -/
def State.localAcc : List Acc := (lanesOf s.em).map (fun l => ⟨l, (s.voff vo l + disp).toNat⟩)

/-- The parts of a local word, with each lane's place in the level. -/
def State.localParts (data : Nat → Nat) : List Part :=
  (s.localAcc vo disp).map (fun a => Part.new a.lane (lv.place a.lane a.va) a.va (data a.lane) 0 0)

theorem localWord_load {kind : ReqKind} (n : Nat) (hk : (kind == .store) = false) : localWord s kind w vd vo lv lit disp n =
    s.memWord kind (voRegs vo ++ groupRegs vd w)
      (localVerdict s s.hcore s.hwarp (s.localAcc vo disp) w false lv lv.lock (voRegs vo))
      ((s.enter { s.newReq kind lv.space w vd 0 0 with parts := s.localParts vo lv disp fun _ => 0 }).advance n) := by
  rw [localWord, State.memWord, hk]
  simp only [Bool.false_eq_true, if_false, List.append_nil, Bool.false_and]
  rfl

/-- The state in which a store beyond the block's own storage is folded. -/
def State.localStored : State :=
  if lv.own s then s else foldSig s s.hwarp.blk
    ((s.localParts vo lv disp fun l => s.hwarp.group vd w l).map (fun p => (lv.foldAddr lit p.va, leBytes w p.data)))

theorem localWord_store (n : Nat) : localWord s .store w vd vo lv lit disp n =
    s.memWord .store (voRegs vo ++ groupRegs vd w)
      (localVerdict s s.hcore s.hwarp (s.localAcc vo disp) w true lv lv.lock (voRegs vo ++ groupRegs vd w))
      ((if !lv.own s && s.hblk.isReplay then s.localStored w vd vo lv lit disp else
        (s.localStored w vd vo lv lit disp).enter
          { s.newReq .store lv.space w vd 0 0 with parts := s.localParts vo lv disp fun l => s.hwarp.group vd w l }).advance n) := by
  have hk : (ReqKind.store == ReqKind.store) = true := rfl
  rw [localWord, State.memWord, hk, State.localStored]
  simp only [if_true, Bool.true_and]
  cases lv.own s <;> rfl

theorem stays_localStored : Stays s (s.localStored w vd vo lv lit disp) := by
  rw [State.localStored]
  split
  · exact .refl s
  · exact .foldSig ..

end

section
variable {i : Instr} {s : State} {w : Nat} {d : VReg} {vo : VReg} {lv : Level} {lit disp : Word} {x : Option Word}

theorem localLoad_completes {sgn : Bool} (he : exec i s = localWord s (.load sgn) w d.val vo lv lit disp (litWords x))
    (hn : litWords x = wordsOf i) (hld : s.hwarp.ld < 30) (hr : s.inRange (voRegs vo ++ groupRegs d.val w) = true)
    (hv : localVerdict s s.hcore s.hwarp (s.localAcc vo disp) w false lv lv.lock (voRegs vo) = .ok) :
    CompletesVia i s (s.enter { s.newReq (.load sgn) lv.space w d.val 0 0 with parts := s.localParts vo lv disp fun _ => 0 }) := by
  refine (Stays.enter _ _).completesVia ?_ hn
  rw [he, localWord_load _ _ _ _ _ _ _ _ rfl, memWord_ok (counterFull_ld rfl hld) hr hv]

theorem localStore_completes (he : exec i s = localWord s .store w d.val vo lv lit disp (litWords x)) (hn : litWords x = wordsOf i)
    (hst : s.hwarp.st < 30) (hr : s.inRange (voRegs vo ++ groupRegs d.val w) = true)
    (hv : localVerdict s s.hcore s.hwarp (s.localAcc vo disp) w true lv lv.lock (voRegs vo ++ groupRegs d.val w) = .ok) :
    CompletesVia i s (if !lv.own s && s.hblk.isReplay then s.localStored w d.val vo lv lit disp else
      (s.localStored w d.val vo lv lit disp).enter
        { s.newReq .store lv.space w d.val 0 0 with parts := s.localParts vo lv disp fun l => s.hwarp.group d.val w l }) := by
  have hs := stays_localStored s w d.val vo lv lit disp
  refine Stays.completesVia ?_ (he.trans ?_) hn
  · split
    · exact hs
    · exact hs.trans (Stays.enter _ _)
  · rw [localWord_store, memWord_ok (counterFull_st rfl hst) hr hv]

end

/-- Settles O17: each word is the local word's shape at its level. -/
theorem localAccessesEnterRequests : Obligations.LocalAccessesEnterRequests := by
  refine ⟨fun s d vo wd x => ?_, fun s d vo wd x => ?_⟩
  · intro lit w load
    refine ⟨?_, ?_, ?_, ?_⟩ <;> exact fun hld hr hv => localLoad_completes (lit := 0) rfl rfl hld hr hv
  · intro lit w store
    refine ⟨?_, ?_, ?_, ?_⟩ <;> exact fun hst hr hv => localStore_completes rfl rfl hst hr hv

/-! ### The control byte of an atomic (02_encoding.md R41) -/

/-- A signed field of 8 bits is the signed value of the word's low byte. -/
theorem sfield_low (y : Word) : sfield y.toNat 0 8 = (y.extractLsb' 0 8).toInt := by
  have hb : (y.extractLsb' 0 8).toNat = y.toNat % 256 := by simp
  have hlt : y.toNat % 256 < 256 := Nat.mod_lt _ (by decide)
  rw [BitVec.toInt_eq_toNat_cond, hb, sfield, sextInt, bitsOf]
  simp only [Nat.pow_zero, Nat.div_one, show (2 : Nat) ^ 8 = 256 from rfl, show (2 : Nat) ^ (8 - 1) = 128 from rfl, Nat.mod_mod]
  by_cases h : 128 ≤ y.toNat % 256
  · rw [if_pos h, if_neg (by omega)]; rfl
  · rw [if_neg h, if_pos (by omega)]

theorem ctlDisp_eq (x : Option Word) : ctlDisp x = ((x.getD 0).extractLsb' 0 8).toInt := sfield_low _

/-- The two bits of the order are the word's top bits. -/
theorem ctlOrd_eq (x : Option Word) : ctlOrd x = (x.getD 0).toNat / 2 ^ 30 := by
  have h : (x.getD 0).toNat < 2 ^ 32 := (x.getD 0).isLt
  rw [ctlOrd, bitsOf, Nat.mod_eq_of_lt (by omega)]

/-! ### Atomics, bred and ld.bnd (12_atomics.md R239, R250, R251) -/

section
variable {i : Instr} {s : State} {d : VReg} {sb : SReg} {vo : VReg} {sc : Fin 8} {x : Option Word} {op : Nat}

/-- The request of an atomic, with its inputs and its order. -/
def State.atomReq (s : State) (op size inputs : Nat) (d : VReg) (sb : SReg) (vo : VReg) (sc : Fin 8) (x : Option Word) : Req :=
  { s.newReq (.atomic op) .global size d.val sc.val ((x.getD 0).toNat / 2 ^ 30) with
    parts := (s.accesses sb vo (((x.getD 0).extractLsb' 0 8).toInt)).map (fun a =>
      hostParts op (globalPart s s.hcore s.hwarp.ctx a (s.hwarp.group d.val inputs a.lane))) }

theorem atomWord_eq (ha : s.hblk.auditable = false) : atomWord s op d sb vo sc x =
    s.memWord (.atomic op) (voRegs vo ++ groupRegs d.val (atomInputs op))
      (globalVerdict s s.hcore s.hwarp.ctx s.hwarp (s.accesses sb vo (((x.getD 0).extractLsb' 0 8).toInt)) (atomSize op)
        (permR ||| permW) (voRegs vo ++ groupRegs d.val (atomInputs op)) none)
      (((fillEcbs s s.hcore s.hwarp.ctx (s.accesses sb vo (((x.getD 0).extractLsb' 0 8).toInt))).enter
        (s.atomReq op (atomSize op) (atomInputs op) d sb vo sc x)).advance (litWords x)) := by
  rw [atomWord, ha, State.atomReq, ← ctlOrd_eq, ← ctlDisp_eq, accesses_eq]
  rfl

theorem atomWord_illegal (ha : s.hblk.auditable = true) : atomWord s op d sb vo sc x = .next s.illegal := by
  rw [atomWord, ha]; rfl

theorem atomWord_completes {size inputs : Nat} (he : exec i s = atomWord s op d sb vo sc x) (hn : litWords x = wordsOf i)
    (hsize : atomSize op = size) (hinputs : atomInputs op = inputs) :
    let acc := s.accesses sb vo (((x.getD 0).extractLsb' 0 8).toInt)
    s.hblk.auditable = false → s.hwarp.ld < 30 → s.inRange (voRegs vo ++ groupRegs d.val inputs) →
    globalVerdict s s.hcore s.hwarp.ctx s.hwarp acc size (permR ||| permW) (voRegs vo ++ groupRegs d.val inputs) none = .ok →
    CompletesVia i s ((fillEcbs s s.hcore s.hwarp.ctx acc).enter (s.atomReq op size inputs d sb vo sc x)) := by
  subst hsize hinputs
  intro acc ha hld hr hv
  refine ((Stays.fillEcbs s _ _ _).trans (Stays.enter _ _)).completesVia ?_ hn
  rw [he, atomWord_eq ha]
  exact memWord_ok (counterFull_ld rfl hld) hr hv

/-- The parts that a bounded load asks for. -/
def State.bndReq (s : State) (eps : Nat) (d : VReg) (sb : SReg) (vo : VReg) (sc : Fin 8) : Req :=
  { s.newReq (.bnd eps) .global 4 d.val sc.val 0 with
    parts := (s.accesses sb vo 0).map (fun a => globalPart s s.hcore s.hwarp.ctx a 0) }

def State.bredReq (s : State) (d : VReg) (sb : SReg) (vo : VReg) (sc : Fin 8) (x : Option Word) : Req :=
  { s.newReq .bred .global 4 d.val sc.val ((x.getD 0).toNat / 2 ^ 30) with
    parts := (s.accesses sb vo (((x.getD 0).extractLsb' 0 8).toInt)).map (fun a =>
      hostParts 1 (globalPart s s.hcore s.hwarp.ctx a (s.hwarp.v d.val a.lane).toNat)) }

theorem execBred_eq (ha : s.hblk.auditable = false) : execBredAddF32 d sb vo sc x s =
    s.memWord .bred (voRegs vo ++ [d.val])
      (globalVerdict s s.hcore s.hwarp.ctx s.hwarp (s.accesses sb vo (((x.getD 0).extractLsb' 0 8).toInt)) 4 permW
        (voRegs vo ++ [d.val]) none)
      (((fillEcbs s s.hcore s.hwarp.ctx (s.accesses sb vo (((x.getD 0).extractLsb' 0 8).toInt))).enter
        (s.bredReq d sb vo sc x)).advance (litWords x)) := by
  rw [execBredAddF32, ha, State.bredReq, ← ctlOrd_eq, ← ctlDisp_eq, accesses_eq]
  rfl

theorem execBred_illegal (ha : s.hblk.auditable = true) : execBredAddF32 d sb vo sc x s = .next s.illegal := by
  rw [execBredAddF32, ha]; rfl

/-- The epsilon of a bounded load, −0 as +0. -/
def epsOf (x : Option Word) : Nat := if x.getD 0 = 0x80000000 then 0 else (x.getD 0).toNat

theorem epsOf_eq (x : Option Word) : (if (x.getD 0).toNat = 0x80000000 then 0 else (x.getD 0).toNat) = epsOf x :=
  if_congr ⟨fun h => BitVec.eq_of_toNat_eq h, fun h => congrArg BitVec.toNat h⟩ rfl rfl

theorem execLdBnd_eq (s : State) (d : VReg) (sb : SReg) (vo : VReg) (sc : Fin 8) (x : Option Word) : execLdBnd d sb vo sc x s =
    s.memWord (.bnd (epsOf x)) (voRegs vo ++ [d.val])
      (globalVerdict s s.hcore s.hwarp.ctx s.hwarp (s.accesses sb vo 0) 4 permR (voRegs vo) none)
      ((sendBloads ((fillEcbs s s.hcore s.hwarp.ctx (s.accesses sb vo 0)).enter (s.bndReq (epsOf x) d sb vo sc)) s.work.next
        (s.bndReq (epsOf x) d sb vo sc)).advance (litWords x)) := by
  rw [execLdBnd, epsOf_eq, State.bndReq, accesses_eq]
  rfl

end

/-- Messages of bounded accumulation leave a core's splits where they stand. -/
theorem Stays.sendBloads (s : State) (id : Nat) (r : Req) : Stays s (sendBloads s id r) := by
  have hmail (t : State) (core line : Nat) (m : BMsg) : Stays t (sendMail t core line m) := .beside rfl rfl rfl
  have hfold : ∀ (f : State → Nat → State), (∀ t l, Stays t (f t l)) → ∀ (l : List Nat) (t : State), Stays t (l.foldl f t) := by
    intro f hf l
    induction l with
    | nil => exact fun t => .refl t
    | cons a r ih => exact fun t => (hf t a).trans (ih _)
  unfold Machine.sendBloads
  split
  · split
    · exact .refl s
    · refine hfold _ (fun t l => ?_) _ s
      dsimp only
      split
      · exact .refl t
      · exact hmail ..
  · exact .refl s

/-- Settles O20: the atomics share one shape; `bred` and `ld.bnd` have the same checks before their own requests. -/
theorem atomicsAndBoundedEnterRequests : Obligations.AtomicsAndBoundedEnterRequests := by
  refine ⟨fun s d sb vo sc x => ?_, fun s d sb vo sc x => ?_⟩
  · intro acc atom
    refine ⟨?_, ?_, ?_, ?_, ?_, ?_, ?_, ?_, ?_, ?_, ?_, ?_, ?_, ?_⟩ <;> exact atomWord_completes rfl rfl rfl rfl
  · intro near here eps load
    refine ⟨fun ha i hi => ?illegal, fun ha hst hr hv => ?bred, fun hld hr hv => ?bnd⟩
    case illegal =>
      simp only [List.mem_cons, List.not_mem_nil, or_false] at hi
      rcases hi with rfl | hi
      · exact execBred_illegal ha
      · rcases hi with rfl | rfl | rfl | rfl | rfl | rfl | rfl | rfl | rfl | rfl | rfl | rfl | rfl | rfl <;> exact atomWord_illegal ha
    case bred =>
      refine ((Stays.fillEcbs s _ _ near).trans (Stays.enter _ _)).completesVia ?_ (n := litWords x) rfl
      rw [exec_bredAddF32, execBred_eq ha]
      exact memWord_ok (counterFull_st rfl hst) hr hv
    case bnd =>
      refine (((Stays.fillEcbs s _ _ here).trans (Stays.enter _ load)).trans (Stays.sendBloads _ _ load)).completesVia ?_ (n := litWords x) rfl
      rw [exec_ldBnd, execLdBnd_eq]
      exact memWord_ok (counterFull_ld rfl hld) hr hv

/-! ### The values that atomics store (12_atomics.md R239) -/

/-- Compare and swap over words of n bits: the compare in the low half of its data, the new value in the high half. -/
theorem swap_eq {n : Nat} (x y z : BitVec n) :
    (if x.toNat = (y.toNat + 2 ^ n * z.toNat) % 2 ^ n then (y.toNat + 2 ^ n * z.toNat) / 2 ^ n % 2 ^ n else x.toNat) =
      (if x = y then z else x).toNat := by
  have hy := y.isLt
  have hz := z.isLt
  rw [Nat.add_mul_mod_self_left, Nat.mod_eq_of_lt hy, Nat.add_mul_div_left _ _ (Nat.two_pow_pos n), Nat.div_eq_of_lt hy, Nat.zero_add,
    Nat.mod_eq_of_lt hz]
  by_cases h : x = y
  · rw [if_pos h, if_pos (congrArg _ h)]
  · rw [if_neg h, if_neg (fun e => h (BitVec.eq_of_toNat_eq e))]

theorem minU_toNat (x y : Word) : (minU x y).toNat = min x.toNat y.toNat := by
  rw [minU, BitVec.ult_eq_decide]
  by_cases h : y.toNat < x.toNat
  · rw [if_pos (decide_eq_true h), Nat.min_eq_right (Nat.le_of_lt h)]
  · rw [if_neg (by simpa using h), Nat.min_eq_left (Nat.not_lt.1 h)]

theorem maxU_toNat (x y : Word) : (maxU x y).toNat = max x.toNat y.toNat := by
  rw [maxU, BitVec.ult_eq_decide]
  by_cases h : x.toNat < y.toNat
  · rw [if_pos (decide_eq_true h), Nat.max_eq_right (Nat.le_of_lt h)]
  · rw [if_neg (by simpa using h), Nat.max_eq_left (Nat.not_lt.1 h)]

/-- Settles O21, operation by operation. -/
theorem atomicResults : Obligations.AtomicResults := by
  intro x y z a b c n
  have h (u : Word) : BitVec.ofNat 32 u.toNat = u := by simp
  refine ⟨?_, ?_, ?_, ?_, ?_, ?_, ?_, ?_, ?_, swap_eq x y z, (BitVec.toNat_add a b).symm, Nat.mod_eq_of_lt b.isLt, swap_eq a b,
    swap_eq c n⟩ <;> unfold atomNew <;> simp only [h]
  · rw [minS_eq]
  · rw [maxS_eq]
  · exact minU_toNat x y
  · exact maxU_toNat x y

end Sys2Proof.Machine

/-! PROOF. The checks of a global access in their order (07_memory.md R163). -/
namespace Sys2Proof.Machine

/-! ### The order of the checks -/

section
variable (s : State) (c ctx : Nat) (w : Warp) (acc : List Acc) (n need : Nat) (reads : List Nat) (all : Option Word)

/-- The faults of the lanes whose address is no multiple of the width. -/
def misalignedFails : List (Nat × FaultInfo) :=
  acc.filterMap (fun a => if a.va % n ≠ 0 then
    some (a.lane, { cls := clsMisaligned, sva := a.va, space := 1, detail := n
                    xid := match coreCheck s c ctx a.va 1 0 with | .ok e => some e.xid | _ => none }) else none)

def limitFails : List (Nat × FaultInfo) :=
  acc.filterMap (fun a => match accCheck s c ctx a.va n need with
    | .limit v o => some (a.lane, { cls := clsLimit, sva := v, space := 1, xid := o })
    | _ => none)

def permFails : List (Nat × FaultInfo) :=
  acc.filterMap (fun a => match accCheck s c ctx a.va n need with
    | .perm m v o => some (a.lane, { cls := clsPerm, sva := v, space := 1, xid := some o, detail := m })
    | _ => none)

def lockFails : List (Nat × FaultInfo) :=
  acc.filterMap (fun a => match accCheck s c ctx a.va n need with
    | .ok e => (lockFault s c (.global ctx) 1 (canonical e a.va) a.va n (some e.xid) (need &&& permW != 0)).map (fun f => (a.lane, f))
    | _ => none)

/-- The first check that a lane fails decides. -/
theorem globalVerdict_eq : globalVerdict s c ctx w acc n need reads all =
    match worstOf all (misalignedFails s c ctx acc n) with
    | some f => .fault f
    | none =>
      if acc.any (fun a => accCheck s c ctx a.va n need == .corrupt) then .corrupt
      else
        match worstOf all (limitFails s c ctx acc n need) with
        | some f => .fault f
        | none =>
          match worstOf all (permFails s c ctx acc n need) with
          | some f => .fault f
          | none =>
            match worstOf all (lockFails s c ctx acc n need) with
            | some f => .fault f
            | none =>
              match regsFault w acc reads with
              | some f => .fault f
              | none => .ok := by
  unfold globalVerdict misalignedFails limitFails permFails lockFails
  simp only [List.filterMap_map, List.any_map, Function.comp_def] <;> rfl

end

theorem worstOf_nil (all : Option Word) : worstOf all [] = none := rfl

/-- The frame of a check: the class and the place of its first failing lane, and every failing lane, or em for a scalar access. -/
theorem worstOf_raises {all : Option Word} {L : List (Nat × FaultInfo)} {hits : List (Nat × Nat × Option Nat)} {cls : Nat}
    (hL : hits = L.map (fun p => (p.1, p.2.sva, p.2.xid))) (hc : ∀ p ∈ L, p.2.cls = cls ∧ p.2.space = 1) (p : Nat × Nat × Option Nat)
    (r : List (Nat × Nat × Option Nat)) (hp : hits = p :: r) :
    ∃ f : FaultInfo, worstOf all L = some f ∧ f.cls = cls ∧ f.space = 1 ∧ f.sva = p.2.1 ∧ f.xid = p.2.2 ∧
      ∀ l, l < 32 → f.lanes.getLsbD l = match all with
        | some m => m.getLsbD l
        | none => hits.any (fun h => h.1 == l) := by
  cases L with
  | nil => rw [hp] at hL; cases hL
  | cons q t =>
    have hq := hc q List.mem_cons_self
    have he : p = (q.1, q.2.sva, q.2.xid) := by rw [hp] at hL; exact (List.cons.inj hL).1
    refine ⟨_, rfl, hq.1, hq.2, by rw [he], by rw [he], fun l hl => ?_⟩
    cases all with
    | some m => rfl
    | none =>
      refine (getLsbD_maskOf _ hl).trans ?_
      rw [hL, Bool.eq_iff_iff]
      simp only [List.contains_iff_mem, List.mem_map, List.any_eq_true, beq_iff_eq]
      constructor
      · rintro ⟨a, ha, rfl⟩; exact ⟨_, ⟨a, ha, rfl⟩, rfl⟩
      · rintro ⟨_, ⟨a, ha, rfl⟩, hl⟩; exact ⟨a, ha, hl⟩

/-! ### The register check -/

section
variable (w : Warp) (acc : List Acc) (reads : List Nat)

/-- A visited lane whose register is poisoned. -/
def poisonedLane (l : Nat) : Bool := acc.any (fun a => a.lane == l) && reads.any (fun r => (w.poisoned r).getLsbD l)

theorem getLsbD_visited (l : Nat) (hl : l < 32) : (lanesMask (acc.map Acc.lane)).getLsbD l = acc.any (fun a => a.lane == l) := by
  refine (getLsbD_maskOf _ hl).trans ?_
  rw [Bool.eq_iff_iff]
  simp

/-- The bits of a union of registers' poison. -/
theorem getLsbD_poisons (m : Word) (f : Nat → Word) (l : Nat) (x : Word) :
    (reads.foldl (fun a r => a ||| (f r &&& m)) x).getLsbD l = (x.getLsbD l || (m.getLsbD l && reads.any (fun r => (f r).getLsbD l))) := by
  induction reads generalizing x with
  | nil => simp
  | cons r t ih =>
    rw [List.foldl_cons, ih, List.any_cons, BitVec.getLsbD_or, BitVec.getLsbD_and]
    cases x.getLsbD l <;> cases (f r).getLsbD l <;> cases m.getLsbD l <;> simp

theorem regsFault_poison (l : Nat) (hl : l < 32) (h : poisonedLane w acc reads l = true) :
    ∃ f : FaultInfo, regsFault w acc reads = some f ∧ f.cls = 7 ∧ ∀ j, j < 32 → f.lanes.getLsbD j = poisonedLane w acc reads j := by
  obtain ⟨hv, hr⟩ := (Bool.and_eq_true ..).mp h
  obtain ⟨r, hr, hp⟩ := List.any_eq_true.1 hr
  have hne : ((w.poisoned r &&& lanesMask (acc.map Acc.lane)) != 0) = true := by
    refine bne_iff_ne.2 fun e => ?_
    have := congrArg (fun x : Word => x.getLsbD l) e
    simp only [BitVec.getLsbD_and, hp, getLsbD_visited acc l hl, hv, Bool.and_self] at this
    simp at this
  obtain ⟨q, hq⟩ := Option.isSome_iff_exists.1 
    ((List.find?_isSome (p := fun r => w.poisoned r &&& lanesMask (acc.map Acc.lane) != 0)).2 ⟨r, hr, hne⟩)
  refine ⟨{ cls := clsPoison, lanes := reads.foldl (fun a r => a ||| (w.poisoned r &&& lanesMask (acc.map Acc.lane))) 0, detail := q },
    by rw [regsFault]; simp only [hq], rfl, fun j hj => ?_⟩
  rw [getLsbD_poisons, getLsbD_visited acc j hj]
  simp [poisonedLane]

theorem regsFault_clean (h : ∀ l, l < 32 → poisonedLane w acc reads l = false) : regsFault w acc reads = none := by
  have hf : reads.find? (fun r => w.poisoned r &&& lanesMask (acc.map Acc.lane) != 0) = none := by
    refine List.find?_eq_none.2 fun r hr => ?_
    suffices w.poisoned r &&& lanesMask (acc.map Acc.lane) = 0 by simp [this]
    refine BitVec.eq_of_getLsbD_eq fun l hl => ?_
    have hl' := h l hl
    rw [BitVec.getLsbD_and, getLsbD_visited acc l hl]
    cases hp : (w.poisoned r).getLsbD l
    · simp
    · have : reads.any (fun r => (w.poisoned r).getLsbD l) = true := List.any_eq_true.2 ⟨r, hr, hp⟩
      rw [poisonedLane, this, Bool.and_true] at hl'
      simp [hl']
  rw [regsFault]
  simp only [hf]

end

/-! ### The verdict, check by check -/

section
variable {s : State} {c ctx : Nat} {w : Warp} {acc : List Acc} {n need : Nat} {reads : List Nat} {all : Option Word}

theorem misalignedFails_nil (h : ∀ a ∈ acc, a.va % n = 0) : misalignedFails s c ctx acc n = [] :=
  List.filterMap_eq_nil_iff.2 fun a ha => if_neg (by simpa using h a ha)

/-- Aligned accesses whose tables are whole: the checks from the limit on. -/
theorem globalVerdict_aligned (ha : ∀ a ∈ acc, a.va % n = 0) (hc : ∀ a ∈ acc, accCheck s c ctx a.va n need ≠ .corrupt) :
    globalVerdict s c ctx w acc n need reads all =
      match worstOf all (limitFails s c ctx acc n need) with
      | some f => .fault f
      | none =>
        match worstOf all (permFails s c ctx acc n need) with
        | some f => .fault f
        | none =>
          match worstOf all (lockFails s c ctx acc n need) with
          | some f => .fault f
          | none =>
            match regsFault w acc reads with
            | some f => .fault f
            | none => .ok := by
  have hany : (acc.any (fun a => accCheck s c ctx a.va n need == .corrupt)) = false :=
    List.any_eq_false.2 fun a hm => by simpa using hc a hm
  rw [globalVerdict_eq, misalignedFails_nil ha, worstOf_nil]
  exact if_neg (by rw [hany]; decide)

/-- The lanes that fail a check, with their place. -/
def places (L : List (Nat × FaultInfo)) : List (Nat × Nat × Option Nat) := L.map (fun p => (p.1, p.2.sva, p.2.xid))

theorem eq_nil_of_places {L : List (Nat × FaultInfo)} (h : places L = []) : L = [] := List.map_eq_nil_iff.1 h

theorem places_limitFails : places (limitFails s c ctx acc n need) =
    acc.filterMap (fun a => match accCheck s c ctx a.va n need with | .limit v o => some (a.lane, v, o) | _ => none) := by
  rw [places, limitFails, List.map_filterMap]
  refine List.filterMap_congr fun a _ => ?_
  cases accCheck s c ctx a.va n need <;> rfl

theorem places_permFails : places (permFails s c ctx acc n need) =
    acc.filterMap (fun a => match accCheck s c ctx a.va n need with | .perm _ v o => some (a.lane, v, some o) | _ => none) := by
  rw [places, permFails, List.map_filterMap]
  refine List.filterMap_congr fun a _ => ?_
  cases accCheck s c ctx a.va n need <;> rfl

theorem places_lockFails : places (lockFails s c ctx acc n need) =
    acc.filterMap (fun a => match accCheck s c ctx a.va n need with
      | .ok e => (lockHit s c (.global ctx) (canonical e a.va) n (need &&& permW != 0)).map
          (fun h => (a.lane, a.va + (h.1 - canonical e a.va), some e.xid))
      | _ => none) := by
  rw [places, lockFails, List.map_filterMap]
  refine List.filterMap_congr fun a _ => ?_
  cases accCheck s c ctx a.va n need with
  | ok e => simp only [lockFault]; cases lockHit s c (.global ctx) (canonical e a.va) n (need &&& permW != 0) <;> rfl
  | limit | perm | corrupt => rfl

theorem cls_limitFails : ∀ p ∈ limitFails s c ctx acc n need, p.2.cls = 4 ∧ p.2.space = 1 := by
  intro p hp
  obtain ⟨a, -, ha⟩ := List.mem_filterMap.1 hp
  split at ha
  · cases ha; exact ⟨rfl, rfl⟩
  · cases ha

theorem cls_permFails : ∀ p ∈ permFails s c ctx acc n need, p.2.cls = 5 ∧ p.2.space = 1 := by
  intro p hp
  obtain ⟨a, -, ha⟩ := List.mem_filterMap.1 hp
  split at ha
  · cases ha; exact ⟨rfl, rfl⟩
  · cases ha

theorem cls_lockFails : ∀ p ∈ lockFails s c ctx acc n need, p.2.cls = 6 ∧ p.2.space = 1 := by
  intro p hp
  obtain ⟨a, -, ha⟩ := List.mem_filterMap.1 hp
  split at ha
  · obtain ⟨f, hf, rfl⟩ := Option.map_eq_some_iff.1 ha
    obtain ⟨h, -, rfl⟩ := Option.map_eq_some_iff.1 hf
    exact ⟨rfl, rfl⟩
  · cases ha

end

/-! ### The global words and their checks -/

/-- The word is a global word of this width, whose checks ask for these rights and read these registers. -/
def GlobalShape (i : Instr) (s : State) (kind : ReqKind) (regs reads : List Nat) (sb : SReg) (vo : VReg) (disp : Int) (w need : Nat) : Prop :=
  ∃ ok, exec i s = s.memWord kind regs (globalVerdict s s.hcore s.hwarp.ctx s.hwarp (s.accesses sb vo disp) w need reads none) ok

section
variable {i : Instr} {s : State} {kind : ReqKind} {regs reads : List Nat} {sb : SReg} {vo : VReg} {disp : Int} {w need : Nat}

/-- A lane whose address is no multiple of the width. -/
def State.oddLane (s : State) (sb : SReg) (vo : VReg) (disp : Int) (w j : Nat) : Bool :=
  s.em.getLsbD j && decide (s.gaddr sb vo disp j % w ≠ 0)

/-- The word raises what the checks of its accesses find. -/
def MeetsFaults (i : Instr) (s : State) (regs reads : List Nat) (sb : SReg) (vo : VReg) (disp : Int) (w need : Nat) (f : FaultInfo) : Prop :=
  s.inRange regs = true → globalVerdict s s.hcore s.hwarp.ctx s.hwarp (s.accesses sb vo disp) w need reads none = .fault f →
    exec i s = .next (s.raise f)

/-- With an odd lane l the word raises misaligned, for the odd lanes. -/
def TrapsOdd (i : Instr) (s : State) (regs : List Nat) (sb : SReg) (vo : VReg) (disp : Int) (w l : Nat) : Prop :=
  s.inRange regs = true → l < 32 → s.oddLane sb vo disp w l = true →
    ∃ f : FaultInfo, exec i s = .next (s.raise f) ∧ f.cls = 8 ∧ f.detail = w ∧ f.space = 1 ∧
      ∀ j, j < 32 → f.lanes.getLsbD j = s.oddLane sb vo disp w j

theorem GlobalShape.meets (h : GlobalShape i s kind regs reads sb vo disp w need) (hc : counterFull s.hwarp kind = false)
    (f : FaultInfo) : MeetsFaults i s regs reads sb vo disp w need f := by
  intro hr hv
  obtain ⟨ok, he⟩ := h
  exact he.trans (memWord_fault hc hr hv)

theorem GlobalShape.traps (h : GlobalShape i s kind regs reads sb vo disp w need) (hc : counterFull s.hwarp kind = false) (l : Nat) :
    TrapsOdd i s regs sb vo disp w l := by
  intro hr hl ho
  obtain ⟨hm, hd⟩ := (Bool.and_eq_true ..).mp ho
  obtain ⟨f, hv, hf⟩ := globalVerdict_misaligned s s.hcore s.hwarp.ctx s.hwarp (s.gaddr sb vo disp) s.em w need reads l hl hm
    (of_decide_eq_true hd)
  exact ⟨f, h.meets hc f hr (by rw [accesses_eq]; exact hv), hf⟩

end

section
variable {i : Instr} {s : State} {d : VReg} {sb : SReg} {vo : VReg} {sc : Fin 8} {x : Option Word} {w : Nat}

theorem shape_load {sgn : Bool} (he : exec i s = globalLoad s sgn w d sb vo sc x) :
    GlobalShape i s (.load sgn) (voRegs vo ++ groupRegs d.val w) (voRegs vo) sb vo (x.getD 0).toInt w permR := by
  have h : globalLoad s sgn w d sb vo sc x = _ := globalWord_eq ..
  rw [List.append_nil] at h
  exact ⟨_, he.trans h⟩

theorem shape_store (he : exec i s = globalStore s w d sb vo sc x) :
    GlobalShape i s .store (voRegs vo ++ groupRegs d.val w) (voRegs vo ++ groupRegs d.val w) sb vo (x.getD 0).toInt w permW :=
  ⟨_, he.trans (globalWord_eq ..)⟩

theorem shape_atom {op : Nat} (he : exec i s = atomWord s op d sb vo sc x) (ha : s.hblk.auditable = false) :
    GlobalShape i s (.atomic op) (voRegs vo ++ groupRegs d.val (atomInputs op)) (voRegs vo ++ groupRegs d.val (atomInputs op)) sb vo
      ((x.getD 0).extractLsb' 0 8).toInt (atomSize op) (permR ||| permW) :=
  ⟨_, he.trans (atomWord_eq ha)⟩

theorem load_traps {sgn : Bool} {l : Nat} (he : exec i s = globalLoad s sgn w d sb vo sc x) (h : s.hwarp.ld < 30) :
    TrapsOdd i s (voRegs vo ++ groupRegs d.val w) sb vo (x.getD 0).toInt w l := (shape_load he).traps (counterFull_ld rfl h) l

theorem load_meets {sgn : Bool} {f : FaultInfo} (he : exec i s = globalLoad s sgn w d sb vo sc x) (h : s.hwarp.ld < 30) :
    MeetsFaults i s (voRegs vo ++ groupRegs d.val w) (voRegs vo ++ []) sb vo (x.getD 0).toInt w permR f := by
  rw [List.append_nil]
  exact (shape_load he).meets (counterFull_ld rfl h) f

theorem store_traps {l : Nat} (he : exec i s = globalStore s w d sb vo sc x) (h : s.hwarp.st < 30) :
    TrapsOdd i s (voRegs vo ++ groupRegs d.val w) sb vo (x.getD 0).toInt w l := (shape_store he).traps (counterFull_st rfl h) l

theorem store_meets {f : FaultInfo} (he : exec i s = globalStore s w d sb vo sc x) (h : s.hwarp.st < 30) :
    MeetsFaults i s (voRegs vo ++ groupRegs d.val w) (voRegs vo ++ groupRegs d.val w) sb vo (x.getD 0).toInt w permW f :=
  (shape_store he).meets (counterFull_st rfl h) f

theorem atom_traps {op l size inputs : Nat} (he : exec i s = atomWord s op d sb vo sc x) (hs : atomSize op = size)
    (hi : atomInputs op = inputs) (ha : s.hblk.auditable = false) (h : s.hwarp.ld < 30) :
    TrapsOdd i s (voRegs vo ++ groupRegs d.val inputs) sb vo ((x.getD 0).extractLsb' 0 8).toInt size l := by
  subst hs hi
  exact (shape_atom he ha).traps (counterFull_ld rfl h) l

theorem atom_meets {op size inputs : Nat} {f : FaultInfo} (he : exec i s = atomWord s op d sb vo sc x) (hs : atomSize op = size)
    (hi : atomInputs op = inputs) (ha : s.hblk.auditable = false) (h : s.hwarp.ld < 30) :
    MeetsFaults i s (voRegs vo ++ groupRegs d.val inputs) (voRegs vo ++ groupRegs d.val inputs) sb vo
      ((x.getD 0).extractLsb' 0 8).toInt size (permR ||| permW) f := by
  subst hs hi
  exact (shape_atom he ha).meets (counterFull_ld rfl h) f

variable (s d sb vo sc x)

theorem shape_bred (ha : s.hblk.auditable = false) : GlobalShape (.bredAddF32 d sb vo sc x) s .bred (voRegs vo ++ groupRegs d.val 4)
    (voRegs vo ++ [d.val]) sb vo ((x.getD 0).extractLsb' 0 8).toInt 4 permW :=
  ⟨_, (exec_bredAddF32 s).trans (execBred_eq ha)⟩

theorem shape_bnd : GlobalShape (.ldBnd d sb vo sc x) s (.bnd (epsOf x)) (voRegs vo ++ groupRegs d.val 4) (voRegs vo) sb vo 0 4 permR :=
  ⟨_, (exec_ldBnd s).trans (execLdBnd_eq s d sb vo sc x)⟩

end

/-! ### The scalar words (07_memory.md R158) -/

section
variable {i : Instr} {s : State} {kind : ReqKind} {need : Nat} {d sb : SReg} {sc : Fin 8} {x : Option Word} {data : Nat}

theorem scalar_meets (he : exec i s = scalarWord s kind need d.val sb sc x data) (hc : counterFull s.hwarp kind = false) {f : FaultInfo}
    (hv : globalVerdict s s.hcore s.hwarp.ctx s.hwarp [⟨0, (((s.sbase sb : Int) + (x.getD 0).toInt) % 2 ^ 64).toNat⟩] 4 need []
      (some s.em) = .fault f) : exec i s = .next (s.raise f) := by
  rw [he, scalarWord_eq _ _ _ _ _ _ _ _ hc, hv, onVerdict_fault]

theorem scalar_traps (he : exec i s = scalarWord s kind need d.val sb sc x data) (hc : counterFull s.hwarp kind = false)
    (ho : (((s.sbase sb : Int) + (x.getD 0).toInt) % 2 ^ 64).toNat % 4 ≠ 0) :
    ∃ f : FaultInfo, exec i s = .next (s.raise f) ∧ f.cls = 8 ∧ f.detail = 4 ∧ f.space = 1 ∧ f.lanes = s.em := by
  have hv : ∃ f, worstOf (some s.em) (misalignedFails s s.hcore s.hwarp.ctx
      [⟨0, (((s.sbase sb : Int) + (x.getD 0).toInt) % 2 ^ 64).toNat⟩] 4) = some f ∧
      f.cls = 8 ∧ f.detail = 4 ∧ f.space = 1 ∧ f.lanes = s.em := by
    rw [misalignedFails, List.filterMap_cons, if_pos ho]
    exact ⟨_, rfl, rfl, rfl, rfl, rfl⟩
  obtain ⟨f, hf, hrest⟩ := hv
  refine ⟨f, scalar_meets he hc ?_, hrest⟩
  rw [globalVerdict_eq, hf]

end

/-! ### The obligation -/

/-- The checks of any access, in their order. -/
theorem verdict_order (s : State) (c ctx : Nat) (w : Warp) (acc : List Acc) (n need : Nat) (reads : List Nat) (all : Option Word)
    (ha : ∀ a ∈ acc, a.va % n = 0) (hc : ∀ a ∈ acc, accCheck s c ctx a.va n need ≠ .corrupt) :
    let limits := places (limitFails s c ctx acc n need)
    let perms := places (permFails s c ctx acc n need)
    let locks := places (lockFails s c ctx acc n need)
    let raises (cls : Nat) (hits : List (Nat × Nat × Option Nat)) : Prop := ∀ p r, hits = p :: r →
      ∃ f : FaultInfo, globalVerdict s c ctx w acc n need reads all = .fault f ∧ f.cls = cls ∧ f.space = 1 ∧ f.sva = p.2.1 ∧
        f.xid = p.2.2 ∧ ∀ l, l < 32 → f.lanes.getLsbD l = match all with
          | some m => m.getLsbD l
          | none => hits.any (fun h => h.1 == l)
    raises 4 limits ∧ (limits = [] → raises 5 perms) ∧ (limits = [] → perms = [] → raises 6 locks) ∧
      (limits = [] → perms = [] → locks = [] → ∀ l, l < 32 → poisonedLane w acc reads l = true → ∃ f : FaultInfo,
        globalVerdict s c ctx w acc n need reads all = .fault f ∧ f.cls = 7 ∧
          ∀ j, j < 32 → f.lanes.getLsbD j = poisonedLane w acc reads j) ∧
      (limits = [] → perms = [] → locks = [] → (∀ l, l < 32 → poisonedLane w acc reads l = false) →
        globalVerdict s c ctx w acc n need reads all = .ok) := by
  intro limits perms locks raises
  have hv := globalVerdict_aligned (w := w) (reads := reads) (all := all) ha hc
  have hraise {L : List (Nat × FaultInfo)} {cls : Nat} (hL : ∀ p ∈ L, p.2.cls = cls ∧ p.2.space = 1)
      (hg : ∀ f, worstOf all L = some f → globalVerdict s c ctx w acc n need reads all = .fault f) : raises cls (places L) := by
    intro p r hp
    obtain ⟨f, hf, h⟩ := worstOf_raises rfl hL p r hp
    exact ⟨f, hg f hf, h⟩
  refine ⟨hraise cls_limitFails fun f hf => ?_, fun h1 => hraise cls_permFails fun f hf => ?_,
    fun h1 h2 => hraise cls_lockFails fun f hf => ?_, fun h1 h2 h3 l hl hp => ?_, fun h1 h2 h3 hp => ?_⟩
  · rw [hv, hf]
  · rw [hv, eq_nil_of_places h1, worstOf_nil, hf]
  · rw [hv, eq_nil_of_places h1, worstOf_nil, eq_nil_of_places h2, worstOf_nil, hf]
  · obtain ⟨f, hf, h⟩ := regsFault_poison w acc reads l hl hp
    refine ⟨f, ?_, h⟩
    rw [hv, eq_nil_of_places h1, worstOf_nil, eq_nil_of_places h2, worstOf_nil, eq_nil_of_places h3, worstOf_nil, hf]
  · rw [hv, eq_nil_of_places h1, worstOf_nil, eq_nil_of_places h2, worstOf_nil, eq_nil_of_places h3, worstOf_nil, regsFault_clean w acc reads hp]

/-- Settles O19: the verdict's order, and each word by the shape it has. -/
theorem misalignedAccessTraps : Obligations.MisalignedAccessTraps := by
  intro s d g sb vo sc x l odd traps full near scalar
  refine ⟨fun h => ⟨load_traps rfl h, load_traps rfl h, load_traps rfl h, load_traps rfl h, load_traps rfl h,
      (shape_bnd s d sb vo sc x).traps (counterFull_ld rfl h) l, scalar_traps rfl (counterFull_ld rfl h)⟩,
    fun h => ⟨store_traps rfl h, store_traps rfl h, store_traps rfl h, store_traps rfl h, scalar_traps rfl (counterFull_st rfl h)⟩,
    ?order, ?meets, fun ha h => (shape_bred s d sb vo sc x ha).traps (counterFull_st rfl h) l,
    fun ha h => ⟨?atoms, atom_traps rfl rfl rfl ha h, atom_traps rfl rfl rfl ha h, atom_traps rfl rfl rfl ha h,
      atom_traps rfl rfl rfl ha h, atom_traps rfl rfl rfl ha h⟩⟩
  case order =>
    intro c ctx w acc n need reads all chk limits perms locks poisons raises ha hc
    obtain ⟨h1, h2, h3, h4, h5⟩ := verdict_order s c ctx w acc n need reads all ha hc
    rw [places_limitFails, places_permFails, places_lockFails] at *
    exact ⟨h1, h2, h3, h4, fun a b c d _ => h5 a b c d⟩
  case meets =>
    intro f meets one
    refine ⟨fun h => ⟨fun p hp => ?_, ?_, scalar_meets rfl (counterFull_ld rfl h)⟩,
      fun h => ⟨fun p hp => ?_, scalar_meets rfl (counterFull_st rfl h)⟩,
      fun ha h => (shape_bred s d sb vo sc x ha).meets (counterFull_st rfl h) f, fun ha h p hp => ?_⟩
    · simp only [List.mem_cons, List.not_mem_nil, or_false] at hp
      rcases hp with rfl | rfl | rfl | rfl | rfl | rfl | rfl <;> exact load_meets rfl h
    · intro hr hv
      rw [List.append_nil] at hv
      exact (shape_bnd s d sb vo sc x).meets (counterFull_ld rfl h) f hr hv
    · simp only [List.mem_cons, List.not_mem_nil, or_false] at hp
      rcases hp with rfl | rfl | rfl | rfl | rfl <;> exact store_meets rfl h
    · simp only [List.mem_cons, List.not_mem_nil, or_false] at hp
      rcases hp with rfl | rfl | rfl | rfl | rfl | rfl | rfl | rfl | rfl | rfl | rfl | rfl | rfl | rfl <;>
        exact atom_meets rfl rfl rfl ha h
  case atoms =>
    intro i hi
    simp only [List.mem_cons, List.not_mem_nil, or_false] at hi
    rcases hi with rfl | rfl | rfl | rfl | rfl | rfl | rfl | rfl | rfl <;> exact atom_traps rfl rfl rfl ha h

end Sys2Proof.Machine

/-! PROOF. Barrier objects: the advance rule and the charge of bytes (10_sync.md R198, R199). -/
namespace Sys2Proof.Machine

/-- The object's arrivals and bytes suffice. -/
def BarObj.full (o : BarObj) : Prop := o.ab = false ∧ o.exparr ≠ 0 ∧ o.exparr ≤ o.arr ∧ o.expb ≤ o.landed

theorem full_cond (o : BarObj) :
    (!o.ab && o.exparr != 0 && decide (o.exparr ≤ o.arr) && decide (o.expb ≤ o.landed)) = true ↔ o.full := by
  simp [BarObj.full, and_assoc]

theorem advanceObj_full {o : BarObj} (h : o.full) : advanceObj o =
    { o with phase := (o.phase + 1) % 2 ^ 32, arr := 0, exparr := o.exparr - o.drops, drops := 0, expb := 0, landed := o.landed - o.expb } :=
  if_pos ((full_cond o).2 h)

theorem advanceObj_stays {o : BarObj} (h : ¬ o.full) : advanceObj o = o := if_neg (mt (full_cond o).1 h)

/-- The object with n bytes charged to it, before the advance rule. -/
def BarObj.charged (o : BarObj) (n : Nat) (fail : Bool) : BarObj :=
  { o with landed := min (o.landed + n) (2 ^ 48 - 1), er := o.er || fail || decide (2 ^ 48 ≤ o.landed + n) }

theorem chargeObj_eq (o : BarObj) (n : Nat) (fail : Bool) : chargeObj o n fail = advanceObj (o.charged n fail) := by
  have h : decide (2 ^ 48 - 1 < o.landed + n) = decide (2 ^ 48 ≤ o.landed + n) := decide_eq_decide.2 (by omega)
  rw [chargeObj, h, BarObj.charged]

/-- The phases that have passed are the 2^31 − 1 before the current one. -/
theorem passed_iff (q p : Nat) : passed q p = true ↔ ∃ k, 1 ≤ k ∧ k < 2 ^ 31 ∧ (q + 2 ^ 32 - p) % 2 ^ 32 = k := by
  simp only [passed, Bool.and_eq_true, decide_eq_true_eq]
  constructor
  · rintro ⟨h1, h2⟩; exact ⟨_, h1, by omega, rfl⟩
  · rintro ⟨k, h1, h2, rfl⟩; exact ⟨h1, by omega⟩

/-- Settles O23. -/
theorem barrierObjectsAdvance : Obligations.BarrierObjectsAdvance := by
  intro o n fail full
  refine ⟨advanceObj_full, advanceObj_stays, ⟨chargeObj_eq o n fail, fun h0 => ?_, fun hab h0 harr hb hlt => ?_⟩, passed_iff o.phase⟩
  · rw [chargeObj_eq]
    exact advanceObj_stays fun h => h.2.1 h0
  · rw [chargeObj_eq]
    exact advanceObj_full ⟨hab, h0, harr, Nat.le_min.2 ⟨hb, Nat.le_sub_one_of_lt hlt⟩⟩

end Sys2Proof.Machine

/-! PROOF. The barrier words (10_sync.md R202 to R204): a `bar.init` that finds a split of its own warp waiting. -/
namespace Sys2Proof.Machine

/-- A word that completes within its clause leaves the other splits of its warp as they were. -/
theorem onward_within_others {s t : State} {i : Instr} (h : Onward i s t) (hn : s.cidx + wordsOf i ≤ hdrN s.run.hdr) {j : Nat}
    (hj : s.run.split ≠ j) : (t.warp s.hcore s.run.wslot).split j = s.hwarp.split j := by
  obtain ⟨v, rfl, hf, hr, hs, -⟩ := h
  have hc : v.hcore = s.hcore := congrArg Prod.fst hf
  rw [advance_within (by rw [cidx_of_splits hr hs, hr]; exact hn), ← hc, ← hr]
  show ((v.updHere _).hwarp).split j = _
  rw [State.hwarp_updHere, Warp.split_setSplit, if_neg (by rw [hr]; exact hj)]
  unfold Warp.split; rw [hs]

/-- A warp of a block with barrier objects; its split 0 is at the first of two words of a clause, its split 1 is blocked in a
`bar.wait` on object 0. -/
def initWhileWaiting : State :=
  let s := ((State.reset.withFetchWord 32 0x0E121B3C).updCore 0 (fun k =>
      { k with slot0 := k.slot0.map (fun r => { r with hdr := 0x2BFFFFCA }) })).updHere (fun w =>
    { (w.setS 5 5).setSplit 1 { state := 2, on := .bar (.area 1 0) 0 0 } with blk := 1 })
  { s with work := { s.work with blocks := [(1, { bars := 4, warps := 1 })] } }

/-- The split that waited on the object no longer does once `bar.init` has run. -/
def waitEnded (r : Result) : Bool :=
  match r with
  | .next t => (t.warp initWhileWaiting.hcore initWhileWaiting.run.wslot).split 1 != initWhileWaiting.hwarp.split 1
  | _ => false

/-- Refutes O24: `bar.init` ends the waits on the object it abandons (R203), and where a split of its own warp waits on it that split
moves on too, so that the warp's splits are not as they were when the word moves past its words. -/
theorem not_barrierAndArrivalWords : ¬ Obligations.BarrierAndArrivalWords := by
  intro h
  have hstate : initWhileWaiting.hwarp.arrivals = [] ∧ barAddr initWhileWaiting initWhileWaiting.hcore initWhileWaiting.hwarp.blk
      initWhileWaiting.inHandler (initWhileWaiting.hwarp.s 0).toNat = .ok (.area 1 0) ∧ initWhileWaiting.hblk.isReplay = false ∧
      (initWhileWaiting.hwarp.s 5).toNat ≠ 0 ∧ (initWhileWaiting.hwarp.s 5).toNat < 2 ^ 16 := by decide +kernel
  obtain ⟨ha, hb, hr, hn0, hn⟩ := hstate
  obtain ⟨t, ht, -, ho⟩ := (h.1 initWhileWaiting 0 5 0 0 (.area 1 0) initWhileWaiting.hwarp ha hb hr).2.1 hn0 hn
  have hclause : initWhileWaiting.cidx + wordsOf (.barInit 0 5 0 0) ≤ hdrN initWhileWaiting.run.hdr ∧ initWhileWaiting.run.split ≠ 1 := by
    decide +kernel
  have hstays := onward_within_others ho hclause.1 hclause.2
  have hends : waitEnded (exec (.barInit 0 5 0 0) initWhileWaiting) = true := by decide +kernel
  rw [ht] at hends
  exact absurd hstays (bne_iff_ne.1 hends)

end Sys2Proof.Machine

/-! PROOF. The words that block their split and what ends them (10_sync.md R205 to R209, 12_atomics.md R252). -/
namespace Sys2Proof.Machine

/-! ### A blocked split -/

section
variable (s : State) (b : Blocked)

/-- The issuing warp with its split blocked and its clause out of the slot. -/
theorem warp_block : (s.block b).warp s.hcore s.run.wslot =
    { s.hwarp.setSplit s.run.split { s.hsplit with state := 2, word := s.cidx, on := b, bn := hdrN s.run.hdr } with
      rank := rankAfter (s.updHere (fun w => w.setSplit s.run.split { w.split s.run.split with
        state := 2, word := s.cidx, on := b, bn := hdrN s.run.hdr })) s.hcore s.run.wslot s.run.hdr } := by
  let v := s.updHere (fun w => w.setSplit s.run.split { w.split s.run.split with
    state := 2, word := s.cidx, on := b, bn := hdrN s.run.hdr })
  have h := leaveSlot_warp v
  rw [State.hcore_updHere, State.run_updHere, State.hwarp_updHere] at h
  exact h

theorem held_block : ((s.block b).core s.hcore).held = (s.core s.hcore).held := by
  have h := congrArg Core.held (leaveSlot_moved (s.updHere (fun w => w.setSplit s.run.split { w.split s.run.split with
    state := 2, word := s.cidx, on := b, bn := hdrN s.run.hdr }))).core
  exact h

theorem split_block_mask : (((s.block b).warp s.hcore s.run.wslot).split s.run.split).mask = s.hsplit.mask := by
  rw [warp_block]
  show ((s.hwarp.setSplit _ _).split _).mask = _
  rw [Warp.split_setSplit, if_pos rfl]

theorem warp_dropL1 (core ctx sc c w : Nat) : (acquireAt s core ctx sc).warp c w = s.warp c w := by
  unfold acquireAt; split <;> rfl

end

/-! ### bar.wait (10_sync.md R205) -/

/-- A barrier word that passes the checks of its object. -/
theorem barWord_acts {s : State} {sb d : SReg} {r : ObjRef} {u : Warp} {act : State → ObjRef → BarObj → State}
    (ha : s.hwarp.arrivals = []) (hb : barAddr s s.hcore s.hwarp.blk s.inHandler (s.hwarp.s sb.val).toNat = .ok r)
    (hr : s.hblk.isReplay = false) (he : (objGet s r).exparr ≠ 0) (hab : (objGet s r).ab = false)
    (hu : s.hwarp.enterForeign r (s.hwarp.s sb.val) = some u) :
    barWord s sb d false true act = .next (act (s.setWarp s.hcore s.run.wslot u) r (objGet s r)) := by
  have he' : ((objGet s r).exparr == 0) = false := beq_false_of_ne he
  simp only [barWord, ha, hb, hr, he', hab, hu, List.isEmpty_nil, Bool.not_true, Bool.false_eq_true, if_false, Bool.false_and,
    Bool.and_false, if_true]

/-- A `bar.wait` that has just blocked: it stays blocked while its phase has not passed. -/
theorem endBarWait_block (v : State) (r : ObjRef) (p : Word) (d : Nat) (hab : (objGet v r).ab = false) :
    endBarWait (v.block (.bar r p d)) v.hcore v.run.wslot v.run.split r p d =
      if passed (objGet v r).phase p.toNat then
        finishStatus (acquireAt (v.block (.bar r p d)) v.hcore v.hwarp.ctx (objGet v r).scope) v.hcore v.run.wslot v.run.split d
          (if (objGet v r).er then 2 else 0)
      else v.block (.bar r p d) := by
  have ho : objGet (v.block (.bar r p d)) r = objGet v r := rfl
  rw [endBarWait]
  simp only [ho, hab, warp_block, Bool.false_eq_true, if_false, BarObj.erStatus]
  rfl

theorem barWait_eq {s : State} {sb sv d : SReg} {r : ObjRef} {u : Warp}
    (ha : s.hwarp.arrivals = []) (hb : barAddr s s.hcore s.hwarp.blk s.inHandler (s.hwarp.s sb.val).toNat = .ok r)
    (hr : s.hblk.isReplay = false) (he : (objGet s r).exparr ≠ 0) (hab : (objGet s r).ab = false)
    (hu : s.hwarp.enterForeign r (s.hwarp.s sb.val) = some u) :
    let v := s.setWarp s.hcore s.run.wslot u
    let p := v.hwarp.s sv.val
    exec (.barWait sb sv d) s = .next (if passed (objGet s r).phase p.toNat then
        finishStatus (acquireAt (v.block (.bar r p d.val)) s.hcore v.hwarp.ctx (objGet s r).scope) s.hcore s.run.wslot s.run.split d.val
          (if (objGet s r).er then 2 else 0)
      else v.block (.bar r p d.val)) := by
  intro v p
  have hv : objGet v r = objGet s r := by cases r <;> rfl
  have hend := endBarWait_block v r p d.val (by rw [hv]; exact hab)
  rw [hv] at hend
  rw [exec_barWait, execBarWait, barWord_acts ha hb hr he hab hu]
  exact congrArg Host.Outcome.next hend

/-! ### wait (10_sync.md R207, R208, 07_memory.md R167, 15_remote.md R308) -/

section
variable {s : State} {ld st : Fin 32} {cp tl rm sc : Fin 8}

/-- The state in which a `wait` has blocked its split. -/
def State.waits (s : State) (ld st : Fin 32) (cp tl rm sc : Fin 8) : State :=
  s.block (.counters ld.val st.val cp.val tl.val rm.val sc.val)

/-- What the counters and the release that a `wait` names ask for has happened. -/
def State.waitMet (s : State) (ld st : Fin 32) (cp tl rm sc : Fin 8) : Prop :=
  s.hwarp.countersMet ld.val st.val cp.val tl.val rm.val = true ∧ waitReleased s s.hcore s.run.wslot sc.val = true

theorem wait_stays (h : ¬ s.waitMet ld st cp tl rm sc) : exec (.wait ld st cp tl rm sc) s = .next (s.waits ld st cp tl rm sc) := by
  rw [exec_wait, execWait, endWait]
  refine congrArg Host.Outcome.next (if_pos ?_)
  rw [warp_block]
  show (!s.hwarp.countersMet ld.val st.val cp.val tl.val rm.val || !waitReleased s s.hcore s.run.wslot sc.val) = true
  rw [← Bool.not_and, Bool.not_eq_true', Bool.eq_false_iff]
  exact fun e => h ((Bool.and_eq_true ..).mp e)

/-- What a met `wait` does after its deferred errors: the acquire of its scope, and at `.dom` and `.sys` the fence status. -/
def fenceWait (s b : State) (core wslot split sc : Nat) : State :=
  let t := acquireAt b core s.hwarp.ctx sc
  if sc = 3 ∨ sc = 4 then
    let u := t.updWarp core wslot (Warp.fenceStatus s.work.next)
    match s.hwarp.failedBefore s.work.next with
    | p :: r =>
      if s.hwarp.status.getLsbD 0 then
        faultBlocked u core wslot split { cls := 0x0E, lanes := s.hsplit.mask, detail := min (r.length + 1) (2 ^ 32 - 1), aux := p }
      else unblock u core wslot split 1
    | [] => unblock u core wslot split 1
  else unblock t core wslot split 1

theorem work_acquireAt (s : State) (core ctx sc : Nat) : (acquireAt s core ctx sc).work = s.work := by
  unfold acquireAt; split <;> rfl

section
variable (b : Blocked)

theorem ctx_block : ((s.block b).warp s.hcore s.run.wslot).ctx = s.hwarp.ctx := by rw [warp_block]; rfl
theorem status_block : ((s.block b).warp s.hcore s.run.wslot).status = s.hwarp.status := by rw [warp_block]; rfl
theorem errs_block : ((s.block b).warp s.hcore s.run.wslot).errs = s.hwarp.errs := by rw [warp_block]; rfl
theorem errCount_block : ((s.block b).warp s.hcore s.run.wslot).errCount = s.hwarp.errCount := by rw [warp_block]; rfl
theorem failedBefore_block (n : Nat) : ((s.block b).warp s.hcore s.run.wslot).failedBefore n = s.hwarp.failedBefore n := by
  rw [warp_block]; rfl
theorem countersMet_block (ld st cp tl rm : Nat) :
    ((s.block b).warp s.hcore s.run.wslot).countersMet ld st cp tl rm = s.hwarp.countersMet ld st cp tl rm := by rw [warp_block]; rfl

end

theorem wait_met (h : s.waitMet ld st cp tl rm sc) : exec (.wait ld st cp tl rm sc) s =
    .next (match deferredRaise ((s.waits ld st cp tl rm sc).warp s.hcore s.run.wslot) ld.val st.val tl.val with
      | some (f, w') => faultBlocked ((s.waits ld st cp tl rm sc).setWarp s.hcore s.run.wslot w') s.hcore s.run.wslot s.run.split f
      | none => fenceWait s (s.waits ld st cp tl rm sc) s.hcore s.run.wslot s.run.split sc.val) := by
  have hw : waitReleased (s.block (.counters ld.val st.val cp.val tl.val rm.val sc.val)) s.hcore s.run.wslot sc.val = true := h.2
  rw [exec_wait, execWait, endWait, State.waits]
  simp only [countersMet_block, h.1, hw, Bool.not_true, Bool.or_self, Bool.false_eq_true, if_false, fenceWait, ctx_block,
    failedBefore_block, status_block, split_block_mask, work_acquireAt]
  have hnext : (s.block (.counters ld.val st.val cp.val tl.val rm.val sc.val)).work.next = s.work.next := rfl
  rw [hnext]
  cases s.hwarp.failedBefore s.work.next <;> rfl

/-- A `wait` that no deferred error stops. -/
theorem wait_clear (h : s.waitMet ld st cp tl rm sc) (he : s.hwarp.errs = []) (hn : s.hwarp.errCount = 0) :
    exec (.wait ld st cp tl rm sc) s =
      .next (fenceWait s (s.waits ld st cp tl rm sc) s.hcore s.run.wslot s.run.split sc.val) := by
  rw [wait_met h, deferredRaise, State.waits, errs_block, errCount_block, he, hn]
  rfl

theorem fenceWait_near {b : State} {core wslot split : Nat} {n : Nat} (h3 : n ≠ 3) (h4 : n ≠ 4) :
    fenceWait s b core wslot split n = unblock (acquireAt b core s.hwarp.ctx n) core wslot split 1 :=
  if_neg (fun e => e.elim h3 h4)

theorem fenceWait_whole {b : State} {core wslot split n : Nat} (hn : n = 3 ∨ n = 4)
    (hf : s.hwarp.failed = [] ∨ s.hwarp.status.getLsbD 0 = false) : fenceWait s b core wslot split n =
      unblock ((acquireAt b core s.hwarp.ctx n).updWarp core wslot (Warp.fenceStatus s.work.next)) core wslot split 1 := by
  rw [fenceWait]
  refine (if_pos hn).trans ?_
  cases hb : s.hwarp.failedBefore s.work.next with
  | nil => rfl
  | cons p r =>
    rcases hf with hf | hf
    · rw [Warp.failedBefore, hf] at hb; cases hb
    · exact if_neg (by rw [hf]; decide)

theorem fenceWait_trap {b : State} {core wslot split n p : Nat} {r : List Nat} (hn : n = 3 ∨ n = 4) (hs : s.hwarp.status.getLsbD 0 = true)
    (hb : s.hwarp.failedBefore s.work.next = p :: r) : fenceWait s b core wslot split n =
      faultBlocked ((acquireAt b core s.hwarp.ctx n).updWarp core wslot (Warp.fenceStatus s.work.next)) core wslot split
        { cls := 0x0E, lanes := s.hsplit.mask, detail := min (r.length + 1) (2 ^ 32 - 1), aux := p } := by
  rw [fenceWait]
  refine (if_pos hn).trans ?_
  rw [hb]
  exact if_pos hs

/-- A counter that a `wait` names. -/
theorem namesCtr_eq (ld st : Fin 32) (tl : Fin 8) (c : Nat) : namesCtr ld.val st.val tl.val c =
    ((c == 0 && ld != 31) || (c == 1 && st != 31) || (c == 3 && tl != 7)) := by
  have h1 : (ld.val != 31) = (ld != 31) := by rw [bne, bne, Bool.not_inj_iff, Bool.eq_iff_iff]; simp [Fin.ext_iff]
  have h2 : (st.val != 31) = (st != 31) := by rw [bne, bne, Bool.not_inj_iff, Bool.eq_iff_iff]; simp [Fin.ext_iff]
  have h3 : (tl.val != 7) = (tl != 7) := by rw [bne, bne, Bool.not_inj_iff, Bool.eq_iff_iff]; simp [Fin.ext_iff]
  rw [namesCtr, h1, h2, h3]

theorem wait_deferred (h : s.waitMet ld st cp tl rm sc) {e : DeferredErr}
    (he : s.hwarp.errs.find? (fun e => namesCtr ld.val st.val tl.val e.ctr) = some e) : exec (.wait ld st cp tl rm sc) s =
      .next (faultBlocked ((s.waits ld st cp tl rm sc).updWarp s.hcore s.run.wslot (fun w => { w with errs := w.errs.erase e })) s.hcore
        s.run.wslot s.run.split { cls := 7, lanes := e.lanes, sva := e.sva, space := 1, detail := 0x80 }) := by
  have hf : ((s.waits ld st cp tl rm sc).warp s.hcore s.run.wslot).errs.find? (fun e => namesCtr ld.val st.val tl.val e.ctr) = some e := by
    rw [State.waits, errs_block, he]
  rw [wait_met h, deferredRaise, hf]
  rfl

theorem wait_lost (h : s.waitMet ld st cp tl rm sc) (he : s.hwarp.errs = []) (hn : s.hwarp.errCount ≠ 0)
    (hc : ld ≠ 31 ∨ st ≠ 31 ∨ tl ≠ 7) : exec (.wait ld st cp tl rm sc) s =
      .next (faultBlocked ((s.waits ld st cp tl rm sc).updWarp s.hcore s.run.wslot (fun w => { w with errCount := 0 })) s.hcore
        s.run.wslot s.run.split { cls := 7, detail := 0x81, aux := s.hwarp.errCount }) := by
  have hW := errs_block (s := s) (.counters ld.val st.val cp.val tl.val rm.val sc.val)
  have hN := errCount_block (s := s) (.counters ld.val st.val cp.val tl.val rm.val sc.val)
  rw [wait_met h, State.waits, ← hN]
  rw [← hN] at hn
  generalize hdef : (s.block (.counters ld.val st.val cp.val tl.val rm.val sc.val)).warp s.hcore s.run.wslot = W at *
  have hcond : (W.errs.isEmpty && W.errCount != 0 && (ld.val != 31 || st.val != 31 || tl.val != 7)) = true := by
    rw [hW, he]
    simpa [hn, Fin.ext_iff, or_assoc] using hc
  have hd : deferredRaise W ld.val st.val tl.val =
      some ({ cls := 7, detail := 0x81, aux := W.errCount }, { W with errCount := 0 }) := by
    rw [deferredRaise]
    simp only [hcond, if_true]
    rw [hW, he]
    rfl
  rw [hd, ← hdef]
  rfl

end

/-! ### bdrain (12_atomics.md R252) -/

section
variable (s : State) (sc : Fin 8)

/-- The lines of the context that the L1 of the core holds deltas of. -/
def State.dueLines (s : State) : List (Nat × Held) :=
  (s.core s.hcore).held.filter (fun p => lineCtx p.1 == s.hwarp.ctx && (!p.2.d.isEmpty || p.2.t != 0))

/-- An add or a drain of the context is under way from the core. -/
def underWay (s : State) (core ctx : Nat) : Bool :=
  s.mem.mail.any (fun p => p.2.core == core && (match p.2.msg with
    | .add _ _ => true
    | .drain _ _ _ => lineCtx p.2.line == ctx
    | _ => false))

/-- The deltas of the lines are sent, but those whose answer is due. -/
def sendDue (core : Nat) (due : List (Nat × Held)) (t : State) : State :=
  due.foldl (fun t p => if bvalueDue t core p.1 then t else sendDrain t core p.1 false false) t

theorem bdrain_eq : exec (.bdrain sc) s =
    .next (let b := s.block (.bdrain sc.val)
      let t := sendDue s.hcore s.dueLines b
      if (t.core s.hcore).held.any (fun p => lineCtx p.1 == s.hwarp.ctx && (!p.2.d.isEmpty || p.2.t != 0)) ||
          underWay t s.hcore s.hwarp.ctx || !waitReleased t s.hcore s.run.wslot sc.val then t
      else unblock (if sc.val = 3 ∨ sc.val = 4 then t.updWarp s.hcore s.run.wslot (Warp.fenceStatus t.work.next) else t) s.hcore
        s.run.wslot s.run.split 1) := by
  have hctx := ctx_block (s := s) (.bdrain sc.val)
  have hheld := held_block s (.bdrain sc.val)
  rw [exec_bdrain, execBdrain, endBdrain, State.dueLines]
  simp only [hctx, hheld]
  rfl

variable {s sc}

theorem bdrain_idle (hd : s.dueLines = []) (hw : underWay s s.hcore s.hwarp.ctx = true ∨ waitReleased s s.hcore s.run.wslot sc.val = false) :
    exec (.bdrain sc) s = .next (s.block (.bdrain sc.val)) := by
  rw [bdrain_eq, hd]
  refine congrArg Host.Outcome.next (if_pos ?_)
  show (_ || underWay s s.hcore s.hwarp.ctx || !waitReleased s s.hcore s.run.wslot sc.val) = true
  rcases hw with hw | hw <;> rw [hw] <;> simp

theorem bdrain_done (hd : s.dueLines = []) (hu : underWay s s.hcore s.hwarp.ctx = false)
    (hw : waitReleased s s.hcore s.run.wslot sc.val = true) : exec (.bdrain sc) s =
      .next (unblock (if sc = 3 ∨ sc = 4 then
        (s.block (.bdrain sc.val)).updWarp s.hcore s.run.wslot (Warp.fenceStatus s.work.next) else s.block (.bdrain sc.val)) s.hcore
        s.run.wslot s.run.split 1) := by
  have hany : (s.core s.hcore).held.any (fun p => lineCtx p.1 == s.hwarp.ctx && (!p.2.d.isEmpty || p.2.t != 0)) = false :=
    List.any_eq_false.2 fun p hp => List.filter_eq_nil_iff.1 hd p hp
  have hsc : (sc.val = 3 ∨ sc.val = 4) ↔ (sc = 3 ∨ sc = 4) := by simp [Fin.ext_iff]
  rw [bdrain_eq, hd]
  refine congrArg Host.Outcome.next ((if_neg ?_).trans ?_)
  · show ¬ (((s.block (.bdrain sc.val)).core s.hcore).held.any _ || underWay s s.hcore s.hwarp.ctx ||
      !waitReleased s s.hcore s.run.wslot sc.val) = true
    rw [held_block, hany, hu, hw]
    decide
  · simp only [hsc]
    rfl

theorem any_mput_self {α : Type} (p : Nat × α → Bool) (m : SMap α) (k : Nat) (v : α) (h : p (k, v) = true) :
    (mput m k v).any p = true := by
  induction m with
  | nil => simp [mput, h]
  | cons q r ih =>
    obtain ⟨j, x⟩ := q
    simp only [mput]
    split_ifs <;> simp [h, ih]

/-- A drain is no answer: none falls due by it. -/
theorem bvalueDue_sendDrain (t : State) (core line k : Nat) (h : bvalueDue t core k = false) :
    bvalueDue (sendDrain t core line false false) core k = false := by
  unfold bvalueDue at *
  rw [← Bool.not_eq_true', List.not_any_eq_all_not] at *
  exact all_mput _ t.mem.mail t.work.next _ (by simp) h

/-- A drain of the context is under way once it is sent. -/
theorem underWay_sendDrain (t : State) (core line ctx : Nat) (h : (lineCtx line == ctx) = true) :
    underWay (sendDrain t core line false false) core ctx = true :=
  any_mput_self _ t.mem.mail t.work.next _ (by simpa using h)

/-- Where no answer is due, every line is drained and the drains are under way. -/
theorem sendDue_all (core ctx : Nat) (due : List (Nat × Held)) (t : State) (hc : ∀ p ∈ due, (lineCtx p.1 == ctx) = true)
    (hb : ∀ p ∈ due, bvalueDue t core p.1 = false) :
    sendDue core due t = due.foldl (fun t p => sendDrain t core p.1 false false) t ∧
      (due ≠ [] → underWay (due.foldl (fun t p => sendDrain t core p.1 false false) t) core ctx = true) := by
  induction due generalizing t with
  | nil => exact ⟨rfl, fun h => absurd rfl h⟩
  | cons p r ih =>
    have hp := hb p List.mem_cons_self
    obtain ⟨h1, h2⟩ := ih (sendDrain t core p.1 false false) (fun q hq => hc q (List.mem_cons_of_mem _ hq))
      (fun q hq => bvalueDue_sendDrain t core p.1 q.1 (hb q (List.mem_cons_of_mem _ hq)))
    have hstep : sendDue core (p :: r) t = sendDue core r (sendDrain t core p.1 false false) := by
      rw [sendDue, List.foldl_cons, hp]; rfl
    refine ⟨hstep.trans h1, fun _ => ?_⟩
    cases r with
    | nil => exact underWay_sendDrain t core p.1 ctx (hc p List.mem_cons_self)
    | cons q r => exact h2 (List.cons_ne_nil _ _)

theorem bdrain_sends (hd : s.dueLines ≠ []) (hb : ∀ p ∈ s.dueLines, bvalueDue s s.hcore p.1 = false) : exec (.bdrain sc) s =
    .next (s.dueLines.foldl (fun t p => sendDrain t s.hcore p.1 false false) (s.block (.bdrain sc.val))) := by
  obtain ⟨h1, h2⟩ := sendDue_all s.hcore s.hwarp.ctx s.dueLines (s.block (.bdrain sc.val))
    (fun p hp => ((Bool.and_eq_true ..).mp (List.mem_filter.1 hp).2).1) hb
  rw [bdrain_eq]
  simp only [h1, h2 hd, Bool.or_true, Bool.true_or, if_true]

end

theorem dueLines_eq (s : State) : s.dueLines =
    (s.core s.hcore).held.filter (fun p => lineCtx p.1 == s.hwarp.ctx && (p.2.d != [] || p.2.t != 0)) := by
  refine List.filter_congr fun p _ => ?_
  cases p.2.d <;> rfl

/-- Settles O25, word by word. -/
theorem waitsBlockOrComplete : Obligations.WaitsBlockOrComplete := by
  intro s sb sv d r u ld st cp tl rm sc go on v o
  refine ⟨fun ha hb hr he hab hu => ?wait, ?counters, ?errors, ?drain⟩
  case wait =>
    intro p b
    have hexec := barWait_eq (d := d) (sv := sv) ha hb hr he hab hu
    exact ⟨fun hp => hexec.trans (congrArg Host.Outcome.next (if_neg (Bool.eq_false_iff.1 hp))),
      fun hp => hexec.trans (congrArg Host.Outcome.next (if_pos hp))⟩
  case counters =>
    refine ⟨fun h => wait_stays h, fun h he hn => ⟨fun h3 h4 => ?_, fun hsc hf => ?_⟩⟩
    · rw [wait_clear h he hn, fenceWait_near (fun e => h3 (Fin.ext e)) (fun e => h4 (Fin.ext e))]
      rfl
    · rw [wait_clear h he hn, fenceWait_whole (by simpa [Fin.ext_iff] using hsc) hf]
      rfl
  case errors =>
    intro b at' here named hc hw
    refine ⟨fun e hf => wait_deferred ⟨hc, hw⟩ ?_, fun he hn hsome => wait_lost ⟨hc, hw⟩ he hn hsome, fun he hn hsc hst p r hp => ?_⟩
    · simp only [namesCtr_eq]
      exact hf
    · rw [wait_clear ⟨hc, hw⟩ he hn, fenceWait_trap (by simpa [Fin.ext_iff] using hsc) hst hp]
      rfl
  case drain =>
    intro b due under
    have hdue : due = s.dueLines := (dueLines_eq s).symm
    rw [hdue]
    exact ⟨bdrain_sends, bdrain_idle, bdrain_done⟩

end Sys2Proof.Machine
/-! PROOF. The status registers, the handler's words and the words of a frame (11_traps.md R215, R217, R228 to R230). -/
namespace Sys2Proof.Machine

/-! ### The status word and the counters (11_traps.md R229) -/

/-- A word of the shape of `rdsr` completes with its value. -/
theorem put_completes {i : Instr} {s : State} {d : SReg} {x y : Word} (he : exec i s = .next (s.put d x)) (hn : 1 = wordsOf i)
    (hx : x = y) : Completes i s (·.setS d.val y) := updHere_completes (hx ▸ he) hn rfl rfl

/-- A joined bit vector is its parts side by side. -/
theorem toNat_beside {m n : Nat} (x : BitVec m) (y : BitVec n) : (x ++ y).toNat = x.toNat * 2 ^ n + y.toNat := by
  rw [BitVec.toNat_append, ← Nat.shiftLeft_add_eq_or_of_lt y.isLt, Nat.shiftLeft_eq]

theorem countersWord_eq (w : Warp) : w.countersWord = BitVec.zeroExtend 32 (BitVec.ofNat 3 w.rm ++ BitVec.ofNat 3 w.tl ++
    BitVec.ofNat 3 w.cp ++ BitVec.ofNat 5 w.st ++ BitVec.ofNat 5 w.ld) := by
  refine BitVec.eq_of_toNat_eq ?_
  simp only [Warp.countersWord, BitVec.toNat_ofNat, BitVec.toNat_setWidth, toNat_beside]
  omega

/-- Which bits of the status word `wrsr` writes. -/
theorem statusWrite_bit (x y : Word) (j : Nat) (hj : j < 32) :
    (x &&& 0xFFFFFFFC ||| (y &&& 3)).getLsbD j = if j < 2 then y.getLsbD j else x.getLsbD j := by
  have h : ∀ j, j < 32 → (0xFFFFFFFC : Word).getLsbD j = decide (2 ≤ j) ∧ (3 : Word).getLsbD j = decide (j < 2) := by decide
  rw [BitVec.getLsbD_or, BitVec.getLsbD_and, BitVec.getLsbD_and, (h j hj).1, (h j hj).2]
  by_cases h2 : j < 2
  · simp [h2]
  · simp [h2, Nat.le_of_not_lt h2]

theorem privileged_outside {s : State} {act : Nat → Frame → State} (h : s.inHandler = false) : privileged s act = .next s.illegal := by
  rw [privileged, h]; rfl

theorem privileged_inside {s : State} {act : Nat → Frame → State} {i : Nat} {f : Frame} (h : s.inHandler = true)
    (hf : s.handled s.hcore = some (i, f)) : privileged s act = .next (act i f) := by
  rw [privileged, h, if_pos rfl, hf]

/-- A selector that a warp reads its own state by, or the handler the target's; every other is illegal. -/
theorem rdsr_illegal {s : State} {d : SReg} {sel : Fin 256} (h : sel.val ≠ 0) (h1 : sel.val ≠ 1)
    (hp : s.inHandler = false ∨ sel.val ≠ 0x10 ∧ sel.val ≠ 0x11 ∧ sel.val ≠ 0x12) : exec (.rdsr d sel) s = .next s.illegal := by
  rw [exec_rdsr, execRdsr]
  split
  · contradiction
  · contradiction
  · exact hp.elim privileged_outside (fun e => absurd ‹_› e.1)
  · exact hp.elim privileged_outside (fun e => absurd ‹_› e.2.1)
  · exact hp.elim privileged_outside (fun e => absurd ‹_› e.2.2)
  · rfl

theorem wrsr_illegal {s : State} {d : SReg} {sel : Fin 256} (h : sel.val ≠ 0) (hp : s.inHandler = false ∨ sel.val ≠ 0x10) :
    exec (.wrsr d sel) s = .next s.illegal := by
  rw [exec_wrsr, execWrsr]
  split
  · contradiction
  · exact hp.elim privileged_outside (fun e => absurd ‹_› e)
  · rfl

/-- Settles O31, selector by selector. -/
theorem statusRegisters : Obligations.StatusRegisters := by
  intro s d sel
  refine ⟨put_completes rfl rfl rfl, put_completes rfl rfl (countersWord_eq _),
    ⟨_, updHere_completes (n := 1) rfl rfl rfl rfl, fun j hj => statusWrite_bit _ _ j hj⟩,
    fun h h2 => rdsr_illegal (by omega) (by omega) (.inl h), fun h h1 => wrsr_illegal (by omega) (.inl h), fun h => ?_, fun h => ?_⟩ <;>
    simp only [List.mem_cons, List.not_mem_nil, or_false, not_or] at h
  · obtain ⟨h0, h1, h10, h11, h12⟩ := h
    exact rdsr_illegal h0 h1 (.inr ⟨h10, h11, h12⟩)
  · exact wrsr_illegal h.1 (.inr h.2)

/-! ### The handler's words (11_traps.md R217, R230) -/

section
variable {s : State} {i : Nat} {f : Frame} (hin : s.inHandler = true) (hf : s.handled s.hcore = some (i, f))
include hin hf

theorem fret_answers (mode : Fin 2) :
    exec (.fret mode) s = .next (answerFrame (endHandler s s.hcore) i (if mode = 0 then .resume else .skip)) := by
  have hm : mode.val = 0 ↔ mode = 0 := by rw [Fin.ext_iff]; rfl
  rw [exec_fret, execFret, privileged_inside hin hf, if_congr hm rfl rfl]

theorem fkill_answers (unit : Fin 3) : exec (.fkill unit) s = .next (answerFrame (endHandler s s.hcore) i
    (if unit = 0 then .killWarp else if unit = 1 then .killBlock else .killRegion)) := by
  have h0 : unit.val = 0 ↔ unit = 0 := by rw [Fin.ext_iff]; rfl
  have h1 : unit.val = 1 ↔ unit = 1 := by rw [Fin.ext_iff]; rfl
  rw [exec_fkill, execFkill, privileged_inside hin hf, if_congr h0 rfl (if_congr h1 rfl rfl)]

theorem frd_completes {d : SReg} {item : Fin 8} {lane : Fin 32} {idx : Fin 1024} {x : Option Word}
    (hx : frdValue (targetWarp s f) item.val lane.val idx.val = x) :
    Completes (.frd d item lane idx) s (fun h => (h.setS d.val (x.getD 0)).setScc x.isSome) := by
  refine updHere_completes (n := 1) ?_ rfl rfl rfl
  rw [exec_frd, execFrd, privileged_inside hin hf, hx]

theorem pclr_completesVia (m : SReg) (r : Fin 128) : CompletesVia (.pclr m r) s
    ((if r.val < (targetWarp s f).regs then updTarget s f (fun w =>
        { w with poison := mset 0 w.poison r.val (w.poisoned r.val &&& ~~~s.hwarp.s m.val) }) else s).updHere
      (·.setScc (decide (r.val < (targetWarp s f).regs)))) := by
  have hs : Stays s (if r.val < (targetWarp s f).regs then updTarget s f (fun w =>
      { w with poison := mset 0 w.poison r.val (w.poisoned r.val &&& ~~~s.hwarp.s m.val) }) else s) := by
    split
    · unfold updTarget
      split
      · exact .updWarp s _ _ (fun _ => rfl) (fun _ => rfl)
      · exact .refl s
    · exact .refl s
  refine (hs.trans (Stays.updHere _ rfl rfl)).completesVia (n := 1) ?_ rfl
  rw [exec_pclr, execPclr, privileged_inside hin hf]
  simp only [decide_eq_true_eq]

end

/-- What an item of the target reads, 0 for a register beyond its allocation. -/
def frdRead (w : Warp) (item lane idx : Nat) : Word :=
  match item with
  | 0 => entryWord (splitBytes (w.split (idx % 8))) (idx / 8 % 4)
  | 1 => entryWord (tokBytes (w.tok (idx % 16))) (idx / 16 % 4)
  | 2 => entryWord (leBytes 8 w.control) (idx % 2)
  | 3 => w.s (idx % 64)
  | 4 => w.m (idx % 8)
  | 5 => BitVec.ofNat 32 w.alloc
  | 6 => if decide (idx < w.regs) then w.v idx lane else 0
  | _ => if decide (idx < w.regs) then w.poisoned idx else 0

theorem frdValue_eq (w : Warp) (item lane idx : Nat) : (frdValue w item lane idx).getD 0 = frdRead w item lane idx ∧
    (frdValue w item lane idx).isSome = (decide (item < 6) || decide (idx < w.regs)) := by
  match item with
  | 0 | 1 | 2 | 3 | 4 | 5 => exact ⟨rfl, rfl⟩
  | 6 | n + 7 => by_cases h : idx < w.regs <;> simp [frdValue, frdRead, h]

/-- Settles O33: each of the handler's words acts on the frame that its core handles. -/
theorem handlerWordsComplete : Obligations.HandlerWordsComplete := by
  intro s i f d hin hf w ends word
  refine ⟨fun mode => ⟨_, fret_answers hin hf mode, rfl⟩, fun unit => ⟨_, fkill_answers hin hf unit, rfl⟩, fun item lane idx => ?_,
    fun r => pclr_completesVia hin hf d r⟩
  have hx := frd_completes hin hf (d := d) (item := item) (lane := lane) (idx := idx) rfl
  rw [(frdValue_eq ..).1, (frdValue_eq ..).2] at hx
  exact hx

end Sys2Proof.Machine

/-! PROOF. The privileged words in and out of the handler, and the words that begin a frame (11_traps.md R215, R228 to R230). -/
namespace Sys2Proof.Machine

/-! ### The privileged words (11_traps.md R228, R229) -/

section
variable {s : State} {i : Nat} {f : Frame} (hin : s.inHandler = true) (hf : s.handled s.hcore = some (i, f))
include hin hf

theorem rdsr_inside (d : SReg) :
    Completes (.rdsr d 0x10) s (·.setS d.val (targetWarp s f).status) ∧
    Completes (.rdsr d 0x11) s (·.setS d.val (targetWarp s f).countersWord) ∧
    Completes (.rdsr d 0x12) s (·.setS d.val (BitVec.ofNat 32 (unansweredFrames s s.hcore i))) :=
  ⟨put_completes (privileged_inside hin hf) rfl rfl, put_completes (privileged_inside hin hf) rfl rfl,
    put_completes (privileged_inside hin hf) rfl rfl⟩

theorem wrsr_inside (d : SReg) :
    CompletesVia (.wrsr d 0x10) s (updTarget s f (fun w => { w with status := s.hwarp.s d.val &&& 0xFFFF0003 })) := by
  have hs : Stays s (updTarget s f (fun w => { w with status := s.hwarp.s d.val &&& 0xFFFF0003 })) := by
    unfold updTarget
    split
    · exact .updWarp s _ _ (fun _ => rfl) (fun _ => rfl)
    · exact .refl s
  exact hs.completesVia (n := 1) (privileged_inside hin hf) rfl

theorem pclr_inside (m : SReg) (r : Fin 128) (hr : r.val < (targetWarp s f).regs) :
    CompletesVia (.pclr m r) s ((updTarget s f (fun w => { w with
      poison := mset 0 w.poison r.val ((targetWarp s f).poisoned r.val &&& ~~~s.hwarp.s m.val) })).updHere (·.setScc true)) := by
  have h := pclr_completesVia hin hf m r
  have htarget : updTarget s f (fun w => { w with poison := mset 0 w.poison r.val (w.poisoned r.val &&& ~~~s.hwarp.s m.val) }) =
      updTarget s f (fun w => { w with
        poison := mset 0 w.poison r.val ((targetWarp s f).poisoned r.val &&& ~~~s.hwarp.s m.val) }) := by
    unfold updTarget targetWarp
    split <;> rfl
  rw [if_pos hr, decide_eq_true hr, htarget] at h
  exact h

theorem pclr_beyond (m : SReg) (r : Fin 128) (hr : (targetWarp s f).regs ≤ r.val) :
    Completes (.pclr m r) s (·.setScc false) := by
  refine updHere_completes (n := 1) ?_ rfl rfl rfl
  have hno : decide (r.val < (targetWarp s f).regs) = false := decide_eq_false (Nat.not_lt.2 hr)
  rw [exec_pclr, execPclr, privileged_inside hin hf]
  simp only [hno, Bool.false_eq_true, if_false]

end

/-! ### The words of a frame (11_traps.md R215) -/

theorem length_leBytes (n x : Nat) : (leBytes n x).length = n := by
  induction n generalizing x with
  | zero => rfl
  | succ n ih => rw [leBytes, List.length_cons, ih]

/-- The number that n bytes hold. -/
theorem leNat_leBytes (n x : Nat) : leNat (leBytes n x) = x % 256 ^ n := by
  induction n generalizing x with
  | zero => rw [Nat.pow_zero, Nat.mod_one]; rfl
  | succ n ih =>
    have hb : (BitVec.ofNat 8 x).toNat = x % 256 := BitVec.toNat_ofNat ..
    rw [leBytes, leNat, ih, hb, Nat.pow_succ', Nat.mod_mul]

/-- Word k of a list of words in bytes. -/
theorem leNat_word (l : List Nat) (k : Nat) (hk : k < l.length) :
    leNat (((l.map (leBytes 8)).flatten.drop (8 * k)).take 8) = l[k] % 2 ^ 64 := by
  induction l generalizing k with
  | nil => exact absurd hk (Nat.not_lt_zero k)
  | cons x r ih =>
    have hlen : (leBytes 8 x).length = 8 := length_leBytes 8 x
    rw [List.map_cons, List.flatten_cons]
    cases k with
    | zero => rw [Nat.mul_zero, List.drop_zero, List.take_append_of_le_length (Nat.le_of_eq hlen.symm),
        List.take_of_length_le (Nat.le_of_eq hlen), leNat_leBytes]; rfl
    | succ k =>
      have hd : 8 * (k + 1) = (leBytes 8 x).length + 8 * k := by rw [hlen]; omega
      rw [hd, List.drop_length_add_append]
      exact ih k (Nat.lt_of_succ_lt_succ hk)

/-- The eight words of a frame's first record. -/
def frameWords (s : State) (t : FaultSite) (f : FaultInfo) (cont : Nat) : List Nat :=
  [2 ^ 56 * f.cls + t.pc % 2 ^ 56, f.sva,
   2 ^ 32 * f.lanes.toNat + 2 ^ 16 * ((f.xid.getD 0) % 2 ^ 16) + 2 ^ 12 * (t.cidx % 16) + 2 ^ 8 * f.space +
     2 ^ 7 * f.xid.isSome.toNat + 2 ^ 6 * t.imp.toNat + 2 ^ 4 * cont + 2 * (t.split % 8),
   2 ^ 48 * (t.ctx % 2 ^ 16) + 2 ^ 44 * coreX t.core + 2 ^ 40 * coreY t.core + 2 ^ 38 * (coreCluster t.core % 4) +
     2 ^ 33 * (t.wslot % 32) + 2 ^ 28 * (t.warp % 32) + 2 ^ 25 * ((s.blk t.blk).bslot % 8),
   2 ^ 32 * (f.detail % 2 ^ 32) + (s.blk t.blk).no % 2 ^ 32, s.plat.time, f.aux, 0]

theorem frameBytes_eq (s : State) (t : FaultSite) (f : FaultInfo) (cont : Nat) :
    frameBytes s t f cont = ((frameWords s t f cont).map (leBytes 8)).flatten := by
  simp [frameBytes, frameWords, List.append_assoc]

/-- Word k of a frame. -/
theorem leNat_frameBytes (s : State) (t : FaultSite) (f : FaultInfo) (cont k : Nat) (hk : k < 8) :
    leNat (((frameBytes s t f cont).drop (8 * k)).take 8) = (frameWords s t f cont)[k] % 2 ^ 64 := by
  rw [frameBytes_eq]; exact leNat_word (frameWords s t f cont) k hk

theorem length_frameBytes (s : State) (t : FaultSite) (f : FaultInfo) (cont : Nat) : (frameBytes s t f cont).length = 64 := by
  simp [frameBytes, length_leBytes]

/-- Settles O32: the privileged words by whether their warp is a handler; a frame's words one by one. -/
theorem privilegedWords : Obligations.PrivilegedWords := by
  refine ⟨fun s d mode unit item lane idx r h => ⟨privileged_outside h, privileged_outside h, privileged_outside h, privileged_outside h⟩,
    fun s d lane idx r i f hin hf => ?inside, fun s t f cont hcls hpc hsva hspace hcidx hcont hsplit hxid himp hctx hcore hwslot hwarp
      hbslot hdetail haux hno htime => ?frame⟩
  case inside =>
    intro w ended reads
    obtain ⟨h10, h11, h12⟩ := rdsr_inside hin hf d
    refine ⟨fret_answers hin hf 0, fret_answers hin hf 1, fkill_answers hin hf 0, fkill_answers hin hf 1, fkill_answers hin hf 2,
      frd_completes (x := some _) hin hf rfl, frd_completes (x := some _) hin hf rfl, frd_completes (x := some _) hin hf rfl,
      fun hr => ⟨frd_completes (x := some _) hin hf (if_pos hr), frd_completes (x := some _) hin hf (if_pos hr)⟩,
      fun hr => ⟨frd_completes (x := none) hin hf (if_neg (Nat.not_lt.2 hr)), frd_completes (x := none) hin hf (if_neg (Nat.not_lt.2 hr))⟩,
      h10, countersWord_eq w ▸ h11, h12, wrsr_inside hin hf d, pclr_inside hin hf d r, pclr_beyond hin hf d r⟩
  case frame =>
    have hlanes : f.lanes.toNat < 2 ^ 32 := f.lanes.isLt
    have hcluster : t.core / 192 % 4 = t.core / 192 := Nat.mod_eq_of_lt (by omega)
    have hx : t.core % 16 < 16 := Nat.mod_lt _ (by decide)
    have hy : t.core % 192 / 16 < 12 := by omega
    have hz : t.core / 192 < 4 := by omega
    intro q
    refine ⟨length_frameBytes s t f cont, (leNat_frameBytes s t f cont 0 (by decide)).trans ?_,
      (leNat_frameBytes s t f cont 1 (by decide)).trans ?_, (leNat_frameBytes s t f cont 2 (by decide)).trans ?_,
      (leNat_frameBytes s t f cont 3 (by decide)).trans ?_, (leNat_frameBytes s t f cont 4 (by decide)).trans ?_,
      (leNat_frameBytes s t f cont 5 (by decide)).trans ?_, (leNat_frameBytes s t f cont 6 (by decide)).trans ?_⟩ <;>
      simp only [frameWords, List.getElem_cons_zero, List.getElem_cons_succ, hxid, himp, coreX, coreY, coreCluster, Option.getD_none,
        Option.isSome_none, Bool.toNat_false, hcluster, Nat.mod_eq_of_lt hctx, Nat.mod_eq_of_lt hwslot, Nat.mod_eq_of_lt hwarp,
        Nat.mod_eq_of_lt hbslot] <;> generalize t.core % 16 = x at * <;> generalize t.core % 192 / 16 = y at * <;>
      generalize t.core / 192 = z at * <;> omega

end Sys2Proof.Machine

/-! PROOF. The words of the register pool (21_work.md R377, R382, R383, R386, R389). -/
namespace Sys2Proof.Machine

section
variable {s : State} {d : SReg} {n : Fin 16}

theorem rgclaim_illegal (h : 16 < s.hwarp.alloc + n.val) : exec (.rgclaim d n) s = .next s.illegal := if_pos h

theorem rgclaim_never (h : s.hwarp.alloc + n.val ≤ 16)
    (hr : s.hblk.reserve < s.hwarp.alloc + n.val + ((blockWarps s s.hwarp.blk).length - 1)) :
    exec (.rgclaim d n) s = .next (s.raise (poolFault s s.hwarp.blk n.val 1 s.em)) :=
  (if_neg (Nat.not_lt.2 h)).trans (if_pos hr)

theorem rgclaim_served (h : s.hwarp.alloc + n.val ≤ 16)
    (hr : s.hwarp.alloc + n.val + ((blockWarps s s.hwarp.blk).length - 1) ≤ s.hblk.reserve) :
    exec (.rgclaim d n) s = .next (serveClaims (s.block (.claim n.val d.val)) s.hwarp.blk) :=
  (if_neg (Nat.not_lt.2 h)).trans (if_neg (Nat.not_lt.2 hr))

theorem rgrel_illegal (h : s.hwarp.alloc ≤ n.val) : exec (.rgrel d n) s = .next s.illegal := if_pos h

/-- A release waits while the counters of its warp are not 0. -/
theorem rgrel_eq (h : n.val < s.hwarp.alloc) : exec (.rgrel d n) s =
    .next (if s.hwarp.ld ≠ 0 ∨ s.hwarp.tl ≠ 0 ∨ s.hwarp.rm ≠ 0 then s.block (.release n.val d.val)
      else
        let b := (s.block (.release n.val d.val)).updWarp s.hcore s.run.wslot (fun w => w.resize (w.alloc - n.val))
        let c := b.updWarp s.hcore s.run.wslot (fun w => w.setS d.val (BitVec.ofNat 32 (poolCount b s.hcore)))
        unblock c s.hcore s.run.wslot s.run.split 1) := by
  have hw := warp_block s (.release n.val d.val)
  have hld : ((s.block (.release n.val d.val)).warp s.hcore s.run.wslot).ld = s.hwarp.ld := by rw [hw]; rfl
  have htl : ((s.block (.release n.val d.val)).warp s.hcore s.run.wslot).tl = s.hwarp.tl := by rw [hw]; rfl
  have hrm : ((s.block (.release n.val d.val)).warp s.hcore s.run.wslot).rm = s.hwarp.rm := by rw [hw]; rfl
  rw [exec_rgrel, execRgrel, if_neg (Nat.not_le.2 h), endRelease]
  simp only [hld, htl, hrm]

end

/-- Settles O36, word by word. -/
theorem registerPoolWords : Obligations.RegisterPoolWords := by
  intro s d n
  refine ⟨rgclaim_illegal, rgclaim_never, rgclaim_served, rgrel_illegal, fun h hc => ?_, fun h hld htl hrm => ?_, fun h => ?_, fun h => ?_⟩
  · rw [rgrel_eq h, if_pos hc]
  · rw [rgrel_eq h, if_neg (by simp [hld, htl, hrm])]
  · exact updHere_completes (n := 1) (if_pos h) rfl rfl rfl
  · exact if_neg (by rw [h]; decide)

end Sys2Proof.Machine

/-! PROOF. What reads leave beside their values (07_memory.md R159, 11_traps.md R220, 12_atomics.md R233, 23_platform.md R407). -/
namespace Sys2Proof.Machine

/-- t is s after reads: owners may be recalled, channels woken, last accesses moved and errors noted, and nothing else changes. -/
def ReadsOnly (s t : State) : Prop :=
  ∃ o dir e c u, t = { s with mem := { s.mem with owner := o, dir := dir, exts := e, chans := c, upsets := u } }

theorem ReadsOnly.refl (s : State) : ReadsOnly s s := ⟨_, _, _, _, _, rfl⟩

theorem ReadsOnly.trans {s t u : State} (h : ReadsOnly s t) (k : ReadsOnly t u) : ReadsOnly s u := by
  obtain ⟨o, d, e, c, x, rfl⟩ := h
  obtain ⟨o', d', e', c', x', rfl⟩ := k
  exact ⟨o', d', e', c', x', rfl⟩

theorem ReadsOnly.foldl {α : Type} {f : State → α → State} (hf : ∀ s x, ReadsOnly s (f s x)) (l : List α) (s : State) :
    ReadsOnly s (l.foldl f s) := by
  induction l generalizing s with
  | nil => exact .refl s
  | cons x r ih => exact (hf s x).trans (ih _)

theorem ReadsOnly.dropOwner (s : State) (line : Nat) : ReadsOnly s (dropOwner s line) := by
  obtain ⟨o, dir, h, -⟩ := dropOwner_cases s line
  exact ⟨o, dir, _, _, _, h⟩

theorem ReadsOnly.recallFrom (s : State) (core line : Nat) : ReadsOnly s (recallFrom s core line) := by
  unfold Machine.recallFrom
  split
  · exact .refl s
  · exact .dropOwner s line

theorem ReadsOnly.touchChan (s : State) (pa : Nat) : ReadsOnly s (touchChan s pa) := by
  obtain ⟨c, h⟩ := touchChan_cases s pa
  exact ⟨_, _, _, c, _, h⟩

theorem ReadsOnly.touchByte (s : State) (d : Desc) (va : Nat) (wr : Bool) : ReadsOnly s (touchByte s d va wr) := by
  obtain ⟨e, c, h⟩ := touchByte_cases s d va wr
  exact ⟨_, _, e, c, _, h⟩

theorem ReadsOnly.useByte (s : State) (d : Desc) (va : Nat) : ReadsOnly s (useByte s d va false) := by
  obtain ⟨o, dir, e, c, h⟩ := useByte_read_cases s d va
  exact ⟨o, dir, e, c, _, h⟩

theorem ReadsOnly.noteUpset (s : State) (u : Upset) : ReadsOnly s (noteUpset s u) := by
  obtain ⟨l, h, -⟩ := noteUpset_cases s u
  exact ⟨_, _, _, _, l, h⟩

/-- A state that reads leave is the same but for the memory's own records. -/
theorem ReadsOnly.same {s t : State} (h : ReadsOnly s t) : t.focus = s.focus ∧ t.cores = s.cores ∧ t.warps = s.warps ∧ t.work = s.work ∧
    t.fab = s.fab ∧ t.plat = s.plat ∧ t.free = s.free ∧ t.mem.bytes = s.mem.bytes ∧ t.mem.l2 = s.mem.l2 ∧ t.mem.reqs = s.mem.reqs := by
  obtain ⟨o, d, e, c, x, rfl⟩ := h
  exact ⟨rfl, rfl, rfl, rfl, rfl, rfl, rfl, rfl, rfl, rfl⟩

theorem ReadsOnly.stays {s t : State} (h : ReadsOnly s t) : Stays s t := by
  obtain ⟨o, d, e, c, x, rfl⟩ := h
  exact .beside rfl rfl rfl

end Sys2Proof.Machine

/-! PROOF. The steps of issue and of traps (02_encoding.md R24, R28, 05_control.md R108, R112, 11_traps.md R212, R213, R218). -/
namespace Sys2Proof.Machine

/-! ### A clause is granted -/

theorem ReadsOnly.useCode (s : State) (core ctx pc n : Nat) : ReadsOnly s (useCode s core ctx pc n) := by
  refine .foldl (fun t i => ?_) _ _
  split
  · split
    · exact .useByte ..
    · exact .refl t
  · exact .refl t

/-- Keeping fetched code fills the instruction cache of the core, after the reads of its bytes. -/
theorem keepCode_cases (s : State) (core ctx pc n : Nat) : ∃ u ic free, ReadsOnly s u ∧
    keepCode s core ctx pc n = { u.updCore core (fun k => { k with icache := ic }) with free := free } := by
  unfold keepCode
  dsimp only
  split
  · exact ⟨_, _, _, .useCode .., rfl⟩
  · exact ⟨_, _, _, .useCode .., rfl⟩

theorem warps_keepCode (s : State) (core ctx pc n : Nat) : (keepCode s core ctx pc n).warps = s.warps := by
  obtain ⟨u, ic, free, h, hk⟩ := keepCode_cases s core ctx pc n
  rw [hk]
  exact h.same.2.2.1

section
variable {s : State} {core slot : Nat} (hup : s.plat.devErr = false) (hlt : slot < 2) (hfree : (s.core core).slot slot = none)
  (hrem : remoteHolds s core slot = none)
include hup hlt hfree hrem

/-- A free slot of a running package that no remote word holds. -/
theorem grantClause_free : grantClause s core slot =
    match deadlocked s core slot, candidates s core slot with
    | some w, _ => deadlock1 s core w
    | none, [] => fetchesStuck s core slot
    | none, (ws, i) :: rest =>
      let w := s.warp core ws
      let s1 := grantTo s core ws i
      match fetchClause s core ws (w.split i).pc with
      | .error | .held => s
      | .corrupt => deviceError s
      | .fault f => headerFault s1 core ws i 0 f
      | .ok h words =>
        let s1 := keepCode s1 core w.ctx (w.split i).pc (4 * (words.length + 1))
        match deferredRaise w (hdrWL h) (hdrWS h) (hdrWT h) with
        | some (f, _) =>
          headerFault (s1.updWarp core ws (fun w => ((deferredRaise w (hdrWL h) (hdrWS h) (hdrWT h)).map Prod.snd).getD w))
            core ws i h f
        | none =>
          let p := partnerOf s core ws i h words rest
          let s2 := match p with
            | some q => grantPartner s1 core ws q
            | none => s1
          let run : Run := { wslot := ws, split := i, pc := (w.split i).pc, hdr := h, words := words, partner := p }
          s2.updCore core (fun k => k.setSlot slot (some run)) := by
  rw [grantClause, hup, hfree, hrem, decide_eq_false (by omega : ¬ 2 ≤ slot)]
  rfl

theorem grantClause_deadlock {w : Nat} (hd : deadlocked s core slot = some w) : grantClause s core slot = deadlock1 s core w := by
  rw [grantClause_free hup hlt hfree hrem, hd]

variable {ws i : Nat} {rest : List (Nat × Nat)} (hd : deadlocked s core slot = none) (hc : candidates s core slot = (ws, i) :: rest)
include hd hc

theorem grantClause_fault {x : FaultInfo} (hf : fetchClause s core ws ((s.warp core ws).split i).pc = .fault x) :
    grantClause s core slot = headerFault (grantTo s core ws i) core ws i 0 x := by
  rw [grantClause_free hup hlt hfree hrem, hd, hc]
  simp only [hf]

theorem grantClause_grants {h : Word} {words : List Word} (hf : fetchClause s core ws ((s.warp core ws).split i).pc = .ok h words)
    (he : (s.warp core ws).errs = []) (hn : (s.warp core ws).errCount = 0) (hp : partnerOf s core ws i h words rest = none) :
    grantClause s core slot =
      (keepCode (grantTo s core ws i) core (s.warp core ws).ctx ((s.warp core ws).split i).pc (4 * (words.length + 1))).updCore core
        (fun k => k.setSlot slot (some { wslot := ws, split := i, pc := ((s.warp core ws).split i).pc, hdr := h, words := words
                                         partner := none })) := by
  have hdef : deferredRaise (s.warp core ws) (hdrWL h) (hdrWS h) (hdrWT h) = none := by rw [deferredRaise, he, hn]; rfl
  rw [grantClause_free hup hlt hfree hrem, hd, hc]
  simp only [hf, hdef, hp]

end

/-! ### The header's checks (02_encoding.md R24, R28) -/

theorem hdrOk_iff (h : Word) : hdrOk h = true ↔ ¬ (h.toNat / 2 ^ 28 % 16 = 0 ∨ h.toNat / 2 ^ 25 % 8 = 7 ∨ h.toNat / 2 ^ 4 % 2 = 1 ∨
    h.toNat % 16 ≠ 0xA) := by
  have h4 : h.toNat / 2 ^ 4 % 2 = 0 ∨ h.toNat / 2 ^ 4 % 2 = 1 := by omega
  simp only [hdrOk, hdrN, hdrCL, bitsOf, Bool.and_eq_true, bne_iff_ne, beq_iff_eq, Nat.pow_zero, Nat.div_one]
  constructor
  · rintro ⟨⟨⟨a, b⟩, c⟩, d⟩ e
    rcases e with e | e | e | e
    · exact a e
    · exact b e
    · exact absurd (c.symm.trans e) (by decide)
    · exact e d
  · intro e
    simp only [not_or, not_not] at e
    obtain ⟨a, b, c, d⟩ := e
    exact ⟨⟨⟨a, b⟩, h4.resolve_right c⟩, d⟩

theorem capacityOk_false {l : List Word} (h : (List.range 5).any (fun c =>
    decide ((if c ≤ 1 then 30 else 6) < ((clauseOps l).filter (fun o => counterOf o == some c)).length)) = true) :
    capacityOk l = false := by
  obtain ⟨c, hc, hlt⟩ := List.any_eq_true.1 h
  exact List.all_eq_false.2 ⟨c, hc, Bool.eq_false_iff.1 (decide_eq_false (Nat.not_le.2 (of_decide_eq_true hlt)))⟩

section
variable {s : State} {core ws pc : Nat} {hs l : List Word} (hf : fetchWords s core (s.warp core ws).ctx pc 1 = .ok hs)
include hf

theorem fetchClause_badHeader (h : hdrOk (hs.getD 0 0) = false) :
    fetchClause s core ws pc = .fault { cls := 1, detail := (hs.getD 0 0).toNat } := by
  rw [fetchClause]
  simp only [hf, h, Bool.not_false, if_true]
  rfl

theorem fetchClause_full (h : hdrOk (hs.getD 0 0) = true)
    (hl : fetchWords s core (s.warp core ws).ctx (pc + 4) (hdrN (hs.getD 0 0)) = .ok l) (hfull : capacityOk l = false) :
    fetchClause s core ws pc = .fault { cls := 1, detail := (hs.getD 0 0).toNat } := by
  rw [fetchClause]
  simp only [hf, h, hl, hfull, Bool.not_true, Bool.false_eq_true, if_false]
  rfl

end

/-! ### Imprecise faults of a block, and a handler's start (11_traps.md R213, R218) -/

theorem impreciseFault_eq {s : State} {core slot b : Nat} {memory : Bool} {unit tile addr : Nat} (hb : blockIn s core slot = some b)
    (hu : unit = 1 ∨ unit = 2) :
    exec (.impreciseFault core slot memory unit tile addr) s = .next (blockFault s core b memory unit tile addr) := by
  rw [exec_impreciseFault, execImpreciseFault, hb]
  rcases hu with rfl | rfl <;> cases memory <;> rfl

/-- The fault of a block whose memory is lost, or whose second unit failed: its core stops and it is killed. -/
theorem blockFault_kills {s : State} {core b : Nat} {memory : Bool} {tile addr : Nat} (hr : (s.blk b).isReplay = false) :
    blockFault s core b memory 2 tile addr = settleFrames (blockFrame (killBlock (stopCore s core) b) b
      (if memory then { cls := clsMemory, sva := addr, space := 8, detail := 3, aux := 2 ^ 16 * (s.blk b).ctx }
        else { cls := clsStorage, detail := 2 % 16 + 16 * (tile % 4) }) true) := by
  rw [blockFault]
  simp only [hr, Bool.false_eq_true, if_false, show (2 == 1) = false from rfl, Bool.and_false]

theorem blockFault_tile {s : State} {core b tile addr : Nat} (hr : (s.blk b).isReplay = false) :
    let area := mget ((stopCore s core).core core).area (64, 64) (tile % 4)
    blockFault s core b false 1 tile addr =
      blockFrame (freeElems (stopCore s core) core (tile % 4) area.1 area.2) b { cls := 0x11, detail := 1 + 16 * (tile % 4) } false := by
  intro area
  rw [blockFault]
  simp only [hr, Bool.false_eq_true, if_false, Bool.not_false, beq_self_eq_true, Bool.and_self, if_true]
  rfl

theorem ageRank_aged {s : State} {core ws : Nat} (h : 1024 ≤ (s.warp core ws).age) : ageRank s core ws =
    s.setWarp core ws { s.warp core ws with age := (s.warp core ws).age - 1024, rank := min 31 ((s.warp core ws).rank + 1) } :=
  if_neg (Nat.not_lt.2 h)

theorem warp_setWarp (s : State) (c w : Nat) (x : Warp) : (s.setWarp c w x).warp c w = x := by
  show mget (mset {} s.warps (wkey c w) x) {} (wkey c w) = x
  rw [mget_mset, if_pos rfl]

/-- The warp of a handler at its first clause. -/
def handlerWarp (d : Domain) (f : Frame) : Warp :=
  let va := d.ring + 64 * (f.seq.getD 0 % 2 ^ d.n)
  let w : Warp := { present := true, ctx := d.hctx, alloc := 1, live := 0xFFFFFFFF, rank := 31,
                    splits := [(0, { pc := d.entry % 2 ^ 56, mask := 0xFFFFFFFF, state := 1 })] }
  ((w.setS 0 (BitVec.ofNat 32 va)).setS 1 (BitVec.ofNat 32 (va / 2 ^ 32))).setS 2 (BitVec.ofNat 32 f.records)

theorem handlerWarp_regs (d : Domain) (f : Frame) :
    let va := d.ring + 64 * (f.seq.getD 0 % 2 ^ d.n)
    (handlerWarp d f).s 0 = BitVec.ofNat 32 va ∧ (handlerWarp d f).s 1 = BitVec.ofNat 32 (va / 2 ^ 32) ∧
      (handlerWarp d f).s 2 = BitVec.ofNat 32 f.records := by
  simp [handlerWarp]

theorem handlerStart_starts {s : State} {core i : Nat} {f : Frame} (hup : s.plat.devErr = false) (hlt : core < 768)
    (hh : (s.core core).handling = none) (hf : (s.core core).hfault = false) (hx : handlerFrame s core = some (i, f)) :
    exec (.handlerStart core) s =
      .next ((s.setWarp core 32 (handlerWarp (domainAt s f.dom) f)).updCore core (fun k => { k with handling := some i })) := by
  rw [exec_handlerStart, execHandlerStart, if_neg (by simp [hup, hh, hf, Nat.not_le.2 hlt]), hx]
  rfl

/-- Settles O37, event by event. -/
theorem issueAndTrapEvents : Obligations.IssueAndTrapEvents := by
  intro s core slot ws i b rest h words f tile addr
  refine ⟨fun hup hlt hfree hrem hd hc hf he hn hp => ?grant, fun hup hlt hfree hrem => ⟨fun w hd => ?stuck, fun x hd hc hf => ?fault⟩,
    fun pc hs l hl => ⟨fun hbad => ?bad, fun hok hw hfull => ?full⟩, fun hage => ?aging, fun hb hr => ?imprecise, fun hfull hlt => ?ring,
    fun hup hlt hh hhf hx => ?handler⟩
  case grant =>
    refine ⟨_, congrArg Host.Outcome.next (grantClause_grants hup hlt hfree hrem hd hc hf he hn hp), ?_⟩
    obtain ⟨u, ic, free, hu, hk⟩ := keepCode_cases (grantTo s core ws i) core (s.warp core ws).ctx ((s.warp core ws).split i).pc
      (4 * (words.length + 1))
    obtain ⟨-, -, hwarps, hwork, -, -, -, hbytes, hl2, hreqs⟩ := hu.same
    refine ⟨?_, ?_, ?_⟩
    · rw [State.core_updCore, if_pos rfl, Core.slot_setSlot]
    · rw [State.warp_updCore, State.warp, warps_keepCode]
      exact warp_setWarp ..
    · rw [hk]
      exact ⟨hbytes, hl2, hreqs, hwork⟩
  case stuck => exact congrArg Host.Outcome.next (grantClause_deadlock hup hlt hfree hrem hd)
  case fault => exact congrArg Host.Outcome.next (grantClause_fault hup hlt hfree hrem hd hc hf)
  case bad => exact fetchClause_badHeader hl (Bool.eq_false_iff.2 fun e => (hdrOk_iff _).1 e hbad)
  case full => exact fetchClause_full hl ((hdrOk_iff _).2 hok) hw (capacityOk_false hfull)
  case aging => exact ⟨_, congrArg Host.Outcome.next (ageRank_aged hage), rfl, rfl, rfl, warp_setWarp ..⟩
  case imprecise =>
    intro stopped
    exact ⟨(impreciseFault_eq hb (.inr rfl)).trans (congrArg Host.Outcome.next (blockFault_kills hr)),
      (impreciseFault_eq hb (.inr rfl)).trans (congrArg Host.Outcome.next (blockFault_kills hr)),
      (impreciseFault_eq hb (.inl rfl)).trans (congrArg Host.Outcome.next (blockFault_tile hr))⟩
  case ring =>
    rw [exec_ringFull, execRingFull, hfull]
    simp only [if_neg (show f.core ≠ noCore from Nat.ne_of_lt hlt)]
  case handler =>
    refine ⟨_, handlerStart_starts hup hlt hh hhf hx, ?_⟩
    intro d va
    have hw : ((s.setWarp core 32 (handlerWarp (domainAt s f.dom) f)).updCore core (fun k => { k with handling := some i })).warp core 32 =
        handlerWarp d f := (State.warp_updCore ..).trans (warp_setWarp ..)
    obtain ⟨h0, h1, h2⟩ := handlerWarp_regs d f
    rw [hw]
    exact ⟨by rw [State.core_updCore, if_pos rfl], rfl, rfl, rfl, h0, h1, h2⟩

end Sys2Proof.Machine

/-! PROOF. The steps of the memory's health (11_traps.md R223, R224, 23_platform.md R390, R400, R406, R407). -/
namespace Sys2Proof.Machine

/-! ### Channels (23_platform.md R406, 11_traps.md R223) -/

section
variable {s : State} {port pc : Nat} (hl : portsLive s = true) (hp : port < 8) (hpc : pc < 64)
  (hq : chanQueued s (chanKey port pc) = false)
include hl hp hpc hq

theorem powerDown_enters (h0 : (s.chan (chanKey port pc)).power = 0) (hr : (s.chan (chanKey port pc)).reload = false) (ht : tPd s ≠ 0)
    (hi : (s.chan (chanKey port pc)).idle + tPd s ≤ s.plat.time) : exec (.powerDownEntry port pc) s =
      .next (s.setChan (chanKey port pc) { s.chan (chanKey port pc) with power := 1 }) :=
  if_pos ⟨hl, hp, hpc, h0, by rw [hr]; rfl, ht, hi, by rw [hq]; rfl⟩

theorem selfRefresh_enters (h1 : (s.chan (chanKey port pc)).power = 1) (ht : tSr s ≠ 0)
    (hi : (s.chan (chanKey port pc)).idle + tPd s + tSr s ≤ s.plat.time) : exec (.selfRefreshEntry port pc) s =
      .next (s.setChan (chanKey port pc) { s.chan (chanKey port pc) with power := 2 }) :=
  if_pos ⟨hl, hp, hpc, h1, ht, hi, by rw [hq]; rfl⟩

end

section
variable {s : State} {port pc : Nat} {img : BootImage} (hr : (s.chan (chanKey port pc)).reload = true)
include hr

theorem reload_finishes {rows : List (Nat × Nat)} (hv : imageVerifies s img = true) (hi : imageRows img port pc = some rows) :
    exec (.rowRemapReloadDone port pc img) s =
      .next (remapEvent (wakeChan (State.setChan { s with plat := { s.plat with counter := max s.plat.counter img.version } }
        (chanKey port pc) { s.chan (chanKey port pc) with copies := 2, reload := false, rows := rows }) (chanKey port pc)) port pc 2) := by
  rw [exec_rowRemapReloadDone, execRowRemapReloadDone]
  simp only [hr, hv, hi, Bool.not_true, Bool.false_eq_true, if_false, if_true]

theorem reload_retires (h : imageVerifies s img = false ∨ imageRows img port pc = none) : exec (.rowRemapReloadDone port pc img) s =
    .next (evacuateAll (remapEvent (wakeChan (s.setChan (chanKey port pc)
      { s.chan (chanKey port pc) with copies := 0, reload := false, retired := true, rows := [] }) (chanKey port pc)) port pc 3)) := by
  have hnone : (if imageVerifies s img then imageRows img port pc else none) = none := by
    rcases h with h | h
    · rw [h]; rfl
    · rw [h]; split <;> rfl
  rw [exec_rowRemapReloadDone, execRowRemapReloadDone]
  simp only [hr, hnone, Bool.not_true, Bool.false_eq_true, if_false]

end

/-! ### Thermal bands (23_platform.md R400) -/

/-- The band of a stack after a temperature report, with 2 degrees of hysteresis. -/
def bandAfter (cur temp : Nat) : Nat :=
  let up := ([85, 95, 105].filter (fun t => decide (t < temp))).length
  let down := ([83, 93, 103].filter (fun t => decide (t < temp))).length
  if cur < up then up else min cur down

theorem bandAfter_up {temp : Nat} (h : 85 < temp) (h' : temp ≤ 95) : bandAfter 0 temp = 1 := by
  have h2 : ¬ 95 < temp := by omega
  have h3 : ¬ 105 < temp := by omega
  simp [bandAfter, h, h2, h3]

theorem bandAfter_down {temp : Nat} (h : temp ≤ 83) : bandAfter 1 temp = 0 := by
  have h1 : ¬ 85 < temp := by omega
  have h2 : ¬ 95 < temp := by omega
  have h3 : ¬ 105 < temp := by omega
  have h4 : ¬ 83 < temp := by omega
  have h5 : ¬ 93 < temp := by omega
  have h6 : ¬ 103 < temp := by omega
  simp [bandAfter, h1, h2, h3, h4, h5, h6]

theorem thermalBand_moves {s : State} {stack temp : Nat} (hl : portsLive s = true) (hs : stack < 8)
    (h : bandAfter (mget s.mem.bands 0 stack) temp ≠ mget s.mem.bands 0 stack) : exec (.hbmThermalBand stack temp) s =
      .next (logEvent { s with mem := { s.mem with bands := mset 0 s.mem.bands stack (bandAfter (mget s.mem.bands 0 stack) temp) } } 5
        (stack + 2 ^ 8 * bandAfter (mget s.mem.bands 0 stack) temp) 0) :=
  if_neg (by rw [hl]; rintro (e | e | e); exacts [absurd e (by decide), absurd hs (Nat.not_lt.2 e), h e])

/-! ### What a log record changes (23_platform.md R395) -/

/-- t is s but for bytes of memory, with their marks, and the interrupts raised. -/
def BytesOnly (s t : State) : Prop :=
  ∃ b m so sc v, t = { s with mem := { s.mem with bytes := b, marks := m, soft := so, scrubs := sc }, plat := { s.plat with msix := v } }

theorem BytesOnly.refl (s : State) : BytesOnly s s := ⟨_, _, _, _, _, rfl⟩

theorem BytesOnly.trans {s t u : State} (h : BytesOnly s t) (k : BytesOnly t u) : BytesOnly s u := by
  obtain ⟨b, m, so, sc, p, rfl⟩ := h
  obtain ⟨b', m', so', sc', p', rfl⟩ := k
  exact ⟨b', m', so', sc', p', rfl⟩

theorem BytesOnly.pwrite (s : State) (pa : Nat) (l : List Byte) : BytesOnly s (pwrite s pa l) := ⟨_, _, _, _, _, rfl⟩

theorem BytesOnly.raiseMsi (s : State) (v : Nat) : BytesOnly s (raiseMsi s v) := ⟨_, _, _, _, _, rfl⟩

theorem BytesOnly.logRecord (s : State) (r vec : Nat) (l : List Byte) : BytesOnly s (logRecord s r vec l) := by
  unfold Machine.logRecord
  split
  · exact .refl s
  · dsimp only
    split
    · exact .pwrite ..
    · exact ((BytesOnly.pwrite s _ _).trans (.pwrite _ _ _)).trans (.raiseMsi _ _)

theorem BytesOnly.logEvent (s : State) (code value whr : Nat) : BytesOnly s (logEvent s code value whr) := .logRecord ..

theorem bands_logEvent (s : State) (code value whr : Nat) : (logEvent s code value whr).mem.bands = s.mem.bands := by
  obtain ⟨b, m, so, sc, v, h⟩ := BytesOnly.logEvent s code value whr
  rw [h]

/-! ### The scrubber (11_traps.md R224) -/

section
variable {s : State} {port : Nat}

theorem scrub_reads (hl : portsLive s = true) (hp : port < 8) (hpend : (mget s.mem.scrubs {} port).pend = none)
    (hh : chanHeld s (granulePa port (mget s.mem.scrubs {} port).pos) = false) : exec (.scrubRead port) s =
      .next { s with mem := { s.mem with
        scrubs := mput s.mem.scrubs port
          { pos := ((mget s.mem.scrubs {} port).pos + 1) % stackGranules
            pend := (mfind s.mem.soft (granulePa port (mget s.mem.scrubs {} port).pos / 32)).map
              (fun ok => (granulePa port (mget s.mem.scrubs {} port).pos, !ok)) } } } := by
  rw [exec_scrubRead, execScrubRead, if_neg (by simp [hl, hpend, Nat.not_le.2 hp]), if_neg (by rw [hh]; decide)]

theorem scrub_writes {pa : Nat} (h : (mget s.mem.scrubs {} port).pend = some (pa, false)) : exec (.scrubWrite port) s =
    .next { s with mem := { s.mem with scrubs := mput s.mem.scrubs port { (mget s.mem.scrubs {} port : Scrub) with pend := none }
                                       soft := mdel s.mem.soft (pa / 32) } } := by
  rw [exec_scrubWrite, execScrubWrite]
  simp only [h, Bool.not_false, if_true]

end

/-- Accesses that waited 2 ms for a CXL port fail. -/
theorem cxlWait_fails {s : State} {id : Nat} {r : Req} {late : List Nat} (hr : s.req id = some r) (hup : cxlUp s = false)
    (hlate : (r.sects.filter (fun x => match x.2 with
      | .down since => decide (since + 2000000 ≤ s.plat.time) | _ => false)).map Prod.fst = late) (hne : late ≠ []) :
    exec (.cxlPortWaitTimeout id) s = .next (settleStore (s.setReq id { r with
      parts := r.parts.map (fun p => if !p.done && late.contains (sectIx s r p) && p.cls == 2 then p.performed (0, true) else p)
      sects := r.sects.map (fun x => if late.contains x.1 then (x.1, .error) else x) }) id) := by
  have hnot : ¬ (cxlUp s || late.isEmpty) = true := by simp [hup, hne]
  rw [exec_cxlPortWaitTimeout, execCxlPortWaitTimeout, hr]
  subst hlate
  exact if_neg hnot

/-- Settles O39, event by event. -/
theorem reliabilityEvents : Obligations.ReliabilityEvents := by
  intro s port pc stack temp pa id r img rows hl k c
  refine ⟨fun hp hpc h0 hr ht hi hq => powerDown_enters hl hp hpc hq h0 hr ht hi,
    fun hp hpc h1 ht hi hq => selfRefresh_enters hl hp hpc hq h1 ht hi, fun h3 hs => if_pos ⟨h3, hs⟩,
    fun hr hv hi => reload_finishes hr hv hi, fun hr h => reload_retires hr h, fun hs hb h h' => ?_, fun hs hb h => ?_, ?_,
    scrub_writes, fun hp hu => if_pos ⟨hp, hu⟩, rfl, fun hr hup hne => cxlWait_fails hr hup rfl hne⟩
  · have hband : bandAfter (mget s.mem.bands 0 stack) temp = 1 := by rw [hb, bandAfter_up h h']
    refine ⟨_, thermalBand_moves hl hs (by rw [hband, hb]; decide), ?_⟩
    rw [bands_logEvent, hband, mget_mset, if_pos rfl]
  · have hband : bandAfter (mget s.mem.bands 0 stack) temp = 0 := by rw [hb, bandAfter_down h]
    refine ⟨_, thermalBand_moves hl hs (by rw [hband, hb]; decide), ?_⟩
    rw [bands_logEvent, hband, mget_mset, if_pos rfl]
  · intro q hp hpend hh
    refine ⟨_, scrub_reads hl hp hpend hh, ?_⟩
    rw [mget_mput, if_pos rfl]
    exact ⟨rfl, rfl, rfl⟩

end Sys2Proof.Machine

/-! PROOF. The phases of a slide (09_extents.md R178, R182 to R187, 13_engines.md R266). -/
namespace Sys2Proof.Machine

/-! ### A step of Marrow and a step of a port -/

section
variable {s : State} {ctx xid port : Nat} {l : Slide} (hs : slideOf s ctx xid = some l)
include hs

theorem marrow_acts {phase : Nat} {act : Slide → State} (hp : l.phase = phase) : marrow s ctx xid phase act = .next (act l) := by
  rw [marrow, hs]
  exact congrArg Host.Outcome.next (if_pos hp)

/-- A port takes a broadcast that it has not taken. -/
theorem portTakes_fresh {phase : Nat} {view : Bool} {after : State → Slide → State} (hp : l.phase = phase) (hport : port < 8)
    (ht : l.took.contains port = false) :
    let l' : Slide := { l with took := port :: l.took, views := if view then mput l.views port (slidePl s l) else l.views }
    portTakes s port ctx xid phase view after =
      .next (if l'.took.length = 8 then after (setSlide s l') l' else setSlide s l') := by
  have hnot : ¬ (l.phase ≠ phase ∨ 8 ≤ port ∨ l.took.contains port = true) := by
    rw [ht]
    rintro (e | e | e)
    exacts [e hp, absurd hport (Nat.not_lt.2 e), absurd e (by decide)]
  rw [portTakes, hs]
  exact if_neg hnot

theorem portTakes_early {phase : Nat} {view : Bool} {after : State → Slide → State} (hp : l.phase = phase) (hport : port < 8)
    (ht : l.took.contains port = false) (hn : l.took.length < 7) : portTakes s port ctx xid phase view after =
      .next (setSlide s { l with took := port :: l.took, views := if view then mput l.views port (slidePl s l) else l.views }) := by
  rw [portTakes_fresh hs hp hport ht]
  exact congrArg Host.Outcome.next (if_neg (by rw [List.length_cons]; omega))

theorem portTakes_last {phase : Nat} {view : Bool} {after : State → Slide → State} (hp : l.phase = phase) (hport : port < 8)
    (ht : l.took.contains port = false) (hn : l.took.length = 7) :
    let l' : Slide := { l with took := port :: l.took, views := if view then mput l.views port (slidePl s l) else l.views }
    portTakes s port ctx xid phase view after = .next (after (setSlide s l') l') := by
  rw [portTakes_fresh hs hp hport ht]
  exact congrArg Host.Outcome.next (if_pos (by rw [List.length_cons, hn]))

/-! ### The steps that look at more than the phase -/

theorem slideStart_starts (hp : l.phase = 0) (hn : (s.mem.slides.filter (fun x => x.engine == l.engine && x.phase != 0)).length < 4)
    (hf : s.mem.slides.find? (fun x => x.engine == l.engine && x.phase == 0) = some l)
    (hu : (usedRanges s).all (fun u => (u.2.2 == (ctx, xid)) || !meets l.noff (l.noff + l.len) u.1 u.2.1) = true) :
    let pl := slidePl s l
    let up := decide (pl.off < l.noff)
    exec (.slideStart ctx xid) s =
      .next (setSlide (pwrite (patch64 s (l.desc + 0x38) 0 49 (if up then l.len else 0)) (l.desc + 0x30)
          (leBytes 8 (2 ^ 63 + 2 ^ 62 * up.toNat + 2 ^ 58 * l.k + l.noff)))
        { l with phase := 1, step := if up then l.steps - 1 else 0, took := [], since := s.plat.time
                 views := (List.range 8).map (fun p => (p, pl)) }) := by
  have hcount : ((s.mem.slides.filter (fun x => x.engine == l.engine)).filter (fun x => x.phase != 0)).length < 4 := by
    rw [List.filter_filter]
    simpa only [Bool.and_comm] using hn
  have hfirst : ((s.mem.slides.filter (fun x => x.engine == l.engine)).find? (fun x => x.phase == 0)).map (fun x => x == l) = some true := by
    rw [List.find?_filter]
    simp only [Bool.decide_and, Bool.decide_eq_true, hf, Option.map_some, beq_self_eq_true]
  have hnot : ¬ (decide (4 ≤ ((s.mem.slides.filter (fun x => x.engine == l.engine)).filter (fun x => x.phase != 0)).length) ||
      ((s.mem.slides.filter (fun x => x.engine == l.engine)).find? (fun x => x.phase == 0)).map (fun x => x == l) != some true ||
      !((usedRanges s).all (fun u => (u.2.2 == (ctx, xid)) || !meets l.noff (l.noff + l.len) u.1 u.2.1))) = true := by
    rw [hu, hfirst, decide_eq_false (Nat.not_le.2 hcount)]
    decide
  exact (marrow_acts hs hp).trans (congrArg Host.Outcome.next (if_neg hnot))

theorem slideCopy_copies (hp : l.phase = 3) (ha : l.acked.length = 8) :
    let pl := slidePl s l
    let offs := (List.range ((l.window.2 - l.window.1 + 31) / 32)).map (fun i => l.window.1 + 32 * i)
    offs.any (fun o => hotStack s (l.noff + o)) = false → (offs.map fun o => [pl.off + o, l.noff + o]).flatten.any (chanHeld s) = false →
    exec (.slideCopy ctx xid) s = .next (setSlide ((if pl.dir then offs.reverse else offs).foldl (fun t o =>
      copySector t (parseDesc l.ctx l.desc (pread s l.desc 64)) o (pl.off + o) (l.noff + o) (min 32 (l.window.2 - o))) s)
        { l with phase := 4 }) := by
  intro pl offs hh hc
  refine (marrow_acts hs hp).trans (congrArg Host.Outcome.next ((if_neg ?_).trans (if_neg ?_)))
  · show ¬ (l.acked.length ≠ 8 ∨ offs.any (fun o => hotStack s (l.noff + o)) = true)
    rw [hh, ha]
    decide
  · show ¬ (offs.map fun o => [pl.off + o, l.noff + o]).flatten.any (chanHeld s) = true
    rw [hc]
    decide

theorem slideOpen_stops (hp : l.phase = 2) (hst : l.stop = true) (ho : l.op = 0) :
    exec (.slideOpen ctx xid) s = .next (evacuateAll (dropSlide s l)) := by
  refine (marrow_acts hs hp).trans (congrArg Host.Outcome.next ((if_pos hst).trans ?_))
  rw [stopSlide, if_pos ho]

theorem slideOpen_opens (hp : l.phase = 2) (hst : l.stop = false)
    (hfr : (slidePl s l).fr ≠ (if (slidePl s l).dir then 0 else l.len)) : exec (.slideOpen ctx xid) s =
      .next (setSlide s { l with phase := 3, took := [], acked := [], since := s.plat.time }) :=
  (marrow_acts hs hp).trans (congrArg Host.Outcome.next ((if_neg (by rw [hst]; decide)).trans (if_neg hfr)))

theorem slideCommit_commits (hp : l.phase = 2) (hst : l.stop = false)
    (hfr : (slidePl s l).fr = (if (slidePl s l).dir then 0 else l.len)) : exec (.slideCommit ctx xid) s =
      .next (setSlide (pwrite (pwrite (patch64 s (l.desc + 0x28) 0 52 l.noff) (l.desc + 0x30) (leBytes 8 0)) (l.desc + 0x38) (leBytes 8 0))
        { l with phase := 7, took := [], since := s.plat.time }) :=
  (marrow_acts hs hp).trans (congrArg Host.Outcome.next (if_neg (by rw [hst]; rintro (e | e); exacts [e hfr, absurd e (by decide)])))

section
variable (hw : windowSectors s port l (parseDesc l.ctx l.desc (pread s l.desc 64)) = [])
include hw

theorem portOpen_takes (hp : l.phase = 3) (hport : port < 8) (ht : l.took.contains port = false) :
    exec (.portOpen port ctx xid) s = .next (setSlide s { l with took := port :: l.took }) := by
  have hnot : ¬ (l.phase ≠ 3 ∨ 8 ≤ port ∨ l.took.contains port = true) := by
    rw [ht]
    rintro (e | e | e)
    exacts [e hp, absurd hport (Nat.not_lt.2 e), absurd e (by decide)]
  rw [exec_portOpen, execPortOpen, hs]
  refine (if_neg hnot).trans ?_
  simp only [hw, List.foldl_nil]

theorem portOpenAck_acknowledges (hp : l.phase = 3) (ht : l.took.contains port = true) (ha : l.acked.contains port = false) :
    exec (.portOpenAck port ctx xid) s = .next (setSlide s { l with acked := port :: l.acked }) := by
  rw [exec_portOpenAck, execPortOpenAck, hs]
  exact if_pos ⟨hp, ht, by rw [ha]; rfl, by rw [hw]; rfl⟩

end

theorem slideAckTimeout_fails (hw : (l.phase = 1 ∨ l.phase = 5) ∧ l.took.length ≠ 8 ∨ l.phase = 3 ∧ l.acked.length ≠ 8)
    (ht : l.since + 100000 ≤ s.plat.time) : exec (.slideAckTimeout ctx xid) s = .next (deviceError (dropSlide s l)) := by
  rw [exec_slideAckTimeout, execSlideAckTimeout, hs]
  exact if_pos ⟨hw, ht⟩

end

/-- The end of a slide: waiting evacuations are taken up, and a `cp.tier` that waited for it has ended. -/
def afterCommit (s : State) (l : Slide) : State :=
  let s := evacuateAll (dropSlide s l)
  if l.op = 0 then s
  else
    match s.op (l.op - 1) with
    | some o => s.setOp (l.op - 1) { o with ended := true }
    | none => s

theorem afterCommit_tier (s : State) (l : Slide) {o : Op} (h : l.op ≠ 0)
    (ho : (evacuateAll (dropSlide s l)).op (l.op - 1) = some o) :
    afterCommit s l = (evacuateAll (dropSlide s l)).setOp (l.op - 1) { o with ended := true } := by
  rw [afterCommit, if_neg h, ho]

/-- Settles O40, phase by phase. -/
theorem slideEvents : Obligations.SlideEvents := by
  intro s ctx xid port l hs pl now goes fresh took seen
  refine ⟨fun hp hn hf hu => slideStart_starts hs hp hn hf hu,
    fun hp hf hn => (exec_portSlideBegin s).trans (portTakes_early (view := true) hs hp hf.1 hf.2 hn),
    fun hp hf hn => (exec_portSlideBegin s).trans (portTakes_last (view := true) hs hp hf.1 hf.2 hn), slideOpen_opens hs, slideOpen_stops hs,
    fun hp hf hw => portOpen_takes hs hw hp hf.1 hf.2, fun hp ht ha hw => portOpenAck_acknowledges hs hw hp ht ha,
    slideCopy_copies hs, fun hp => marrow_acts hs hp, fun hp hf => ?advance,
    fun hp hn => (marrow_acts hs hp).trans (congrArg Host.Outcome.next (if_pos hn)), 
    fun hp hf hn => (exec_portClose s).trans (portTakes_early (view := false) hs hp hf.1 hf.2 hn),
    fun hp hf hn => (exec_portClose s).trans (portTakes_last (view := false) hs hp hf.1 hf.2 hn), slideCommit_commits hs,
    fun hp hf hn => (exec_portCommit s).trans (portTakes_early (view := true) hs hp hf.1 hf.2 hn),
    fun hp hf hn ho => ?commit, fun o hp hf hn ho => ?tier, slideAckTimeout_fails hs⟩
  case advance =>
    exact (portTakes_fresh (view := true) (after := fun s _ => s) hs hp hf.1 hf.2).trans (congrArg Host.Outcome.next (ite_self _))
  case commit =>
    exact (portTakes_last (view := true) (after := afterCommit) hs hp hf.1 hf.2 hn).trans (congrArg Host.Outcome.next (if_pos ho))
  case tier =>
    intro u hu
    refine (portTakes_last (view := true) (after := afterCommit) hs hp hf.1 hf.2 hn).trans (congrArg Host.Outcome.next ?_)
    exact afterCommit_tier _ _ ho hu

end Sys2Proof.Machine

/-! PROOF. Reset, boot, throttling, energy and over-temperature (21_work.md R368, 23_platform.md R398, R403, R405); the host port
(14_prog_frontier.md R280, 23_platform.md R391, R392). -/
namespace Sys2Proof.Machine

/-! ### Boot (23_platform.md R398) -/

theorem boot_bootTo (s : State) (n : Nat) : (bootTo s n).plat.boot = n ∧ (bootTo s n).plat.counter = s.plat.counter ∧
    (bootTo s n).plat.image = s.plat.image := by
  obtain ⟨b, m, so, sc, v, h⟩ := BytesOnly.logEvent { s with plat := { s.plat with boot := n } } 4 n 0
  rw [bootTo, h]
  exact ⟨rfl, rfl, rfl⟩

section
variable {s : State} {img : BootImage} (hf : s.plat.failed = 0)
include hf

theorem bootStep_0 (hb : s.plat.boot = 0) : exec (.bootStep img) s = .next (bootTo s 1) := by
  rw [exec_bootStep, execBootStep, if_neg (not_not.2 hf), hb]
  rfl

theorem bootStep_1 (hb : s.plat.boot = 1) : exec (.bootStep img) s =
    .next (if img.firmwareOk then bootTo (takeFirmware s img) 2 else bootFail s 1) := by
  rw [exec_bootStep, execBootStep, if_neg (not_not.2 hf), hb]
  rfl

theorem bootStep_2 (hb : s.plat.boot = 2) : exec (.bootStep img) s =
    .next (if imageVerifies s img then bootTo (loadImage s img) 3 else bootFail s 2) := by
  rw [exec_bootStep, execBootStep, if_neg (not_not.2 hf), hb]
  rfl

end

/-! ### The energy window (23_platform.md R403) -/

/-- A value of the map that keeps the values which are not 0. -/
theorem mget_nonzero (h : Nat → Nat) (l : List Nat) (c : Nat) :
    mget ((l.map (fun c => (c, h c))).filter (fun p => p.2 != 0)) 0 c = if c ∈ l then h c else 0 := by
  induction l with
  | nil => rfl
  | cons a r ih =>
    rw [List.map_cons, List.filter_cons]
    by_cases ha : h a = 0
    · rw [if_neg (by simp [ha]), ih]
      by_cases hc : c = a
      · subst hc; simp [ha]
      · simp [hc]
    · rw [if_pos (by simp [ha])]
      by_cases hc : c = a
      · subst hc; simp [mget, mfind]
      · have hm : mget ((a, h a) :: (r.map (fun c => (c, h c))).filter (fun p => p.2 != 0)) 0 c =
            mget ((r.map (fun c => (c, h c))).filter (fun p => p.2 != 0)) 0 c := by
          simp [mget, mfind, Ne.symm hc]
        rw [hm, ih]
        simp [hc]

/-- A step of a die's frequency keeps the heat, the headroom, the warps and the work. -/
theorem setStep_keeps (s : State) (die n : Nat) : (setStep s die n).plat.hot = s.plat.hot ∧
    (setStep s die n).plat.headroom = s.plat.headroom ∧ (setStep s die n).warps = s.warps ∧ (setStep s die n).work = s.work := by
  unfold setStep
  split
  · exact ⟨rfl, rfl, rfl, rfl⟩
  · obtain ⟨b, m, so, sc, v, h⟩ := BytesOnly.logEvent { s with plat := { s.plat with freq := mput s.plat.freq die n } } 6
      (die + 2 ^ 8 * n) 0
    rw [h]
    exact ⟨rfl, rfl, rfl, rfl⟩

theorem setSteps_keep (l : List (Nat × Nat)) (s : State) :
    let t := l.foldl (fun s p => setStep s p.1 p.2) s
    t.plat.hot = s.plat.hot ∧ t.plat.headroom = s.plat.headroom ∧ t.warps = s.warps ∧ t.work = s.work := by
  induction l generalizing s with
  | nil => exact ⟨rfl, rfl, rfl, rfl⟩
  | cons p r ih =>
    obtain ⟨h1, h2, h3, h4⟩ := ih (setStep s p.1 p.2)
    obtain ⟨k1, k2, k3, k4⟩ := setStep_keeps s p.1 p.2
    exact ⟨h1.trans k1, h2.trans k2, h3.trans k3, h4.trans k4⟩

/-- The heat after an energy window. -/
def heatAfter (s : State) : Nat := if s.mem.bands.any (fun b => decide (2 ≤ b.2)) then s.plat.hot + 100 else 0

theorem energyWindow_sets {s : State} {meas : EnergyMeas} (hb : 3 ≤ s.plat.boot) (hf : s.plat.failed = 0)
    (hw : s.plat.window ≠ some (s.plat.time / 10000)) : ∃ t, exec (.energyWindow meas) s = .next t ∧ t.plat.hot = heatAfter s ∧
      t.warps = s.warps ∧ t.work = s.work ∧ t.plat.headroom = ((List.range 4).map (fun c =>
        (c, headroomOf s (powerLimit meas.inlet (heatAfter s)) meas.fixed c))).filter (fun p => p.2 != 0) := by
  have hnot : ¬ (s.plat.boot < 3 ∨ s.plat.failed ≠ 0 ∨ s.plat.window = some (s.plat.time / 10000)) := by
    rintro (e | e | e)
    exacts [absurd hb (Nat.not_le.2 e), e hf, hw e]
  refine ⟨_, if_neg hnot, ?_⟩
  obtain ⟨h1, h2, h3, h4⟩ := setSteps_keep _ _
  exact ⟨h1, h3, h4, h2⟩

theorem plat_deviceError (s : State) : (deviceError s).plat.devErr = true := rfl

/-- Settles O49, event by event. -/
theorem platformEvents : Obligations.PlatformEvents := by
  intro s img group member window mhz inlet junction meas
  refine ⟨⟨_, rfl, rfl, rfl, rfl, rfl, rfl, rfl⟩, fun hf hb => ⟨_, bootStep_0 hf hb, (boot_bootTo s 1).1⟩, fun hf hb => ?firmware,
    fun hf hb => ?image, fun h1 h2 h3 h4 h5 h6 h7 => ?throttle, fun hb hf hw => ?same, fun hb hf hw => ?energy, fun h => ?hot⟩
  case firmware =>
    refine ⟨_, bootStep_1 hf hb, fun h => ?_, fun h => ?_⟩
    · rw [if_pos h]; exact (boot_bootTo _ 2).1
    · rw [if_neg (by rw [h]; decide)]; exact ⟨hb, rfl⟩
  case image =>
    refine ⟨_, bootStep_2 hf hb, fun h => ?_, fun h => ?_⟩
    · rw [if_pos h]
      exact boot_bootTo (loadImage s img) 3
    · rw [if_neg (by rw [h]; decide)]; exact ⟨hb, rfl⟩
  case throttle => exact if_neg (by omega)
  case same => exact if_pos (.inr (.inr hw))
  case energy =>
    obtain ⟨t, ht, h1, h2, h3, h4⟩ := energyWindow_sets (meas := meas) hb hf hw
    have hheat : heatAfter s = if ∃ b ∈ s.mem.bands, 2 ≤ b.2 then s.plat.hot + 100 else 0 := by
      refine if_congr ?_ rfl rfl
      rw [List.any_eq_true]
      simp only [decide_eq_true_eq]
    rw [hheat] at h1 h4
    refine ⟨t, ht, h1, h2, h3, fun c hc => ?_⟩
    rw [h4, mget_nonzero, if_pos (List.mem_range.2 hc)]
    rfl
  case hot =>
    refine ⟨if_neg ?_, rfl⟩
    omega

/-! ### The host port (14_prog_frontier.md R280, 23_platform.md R391, R392) -/

section
variable {s : State} {port : Nat} {v : DWord} (hp : port < 2) (hu : hostUp s port = true)
include hp hu

theorem bar0Write_open {off : Nat} : exec (.bar0Write port off v) s =
    match off with
    | 0x00 => .next (rootWrite s port off v { s.plat with xroot := lowBits v 52 })
    | 0x08 => .next (rootWrite s port off v { s.plat with qroot := lowBits v 52 })
    | 0x10 => .next (rootWrite s port off v { s.plat with mqroot := lowBits v 52, mqn := bitsOf v.toNat 52 5 })
    | 0x18 => .next { s with plat := { s.plat with mqtail := lowBits v 32 } }
    | 0x20 => .next { s with plat := { s.plat with logroot := lowBits v 52 } }
    | _ => .next s := by
  have hnot : ¬ (2 ≤ port ∨ (!hostUp s port) = true) := by rw [hu]; rintro (e | e); exacts [absurd hp (Nat.not_lt.2 e), absurd e (by decide)]
  exact if_neg hnot

theorem bar0Write_closed (hb : s.plat.boot ≠ 3) {off : Nat} (ho : off = 0x00 ∨ off = 0x08 ∨ off = 0x10) :
    exec (.bar0Write port off v) s = .next (hostError s 6 (0x20 + port) 0 off 0 v.toNat) := by
  rw [bar0Write_open hp hu]
  rcases ho with rfl | rfl | rfl <;> exact congrArg Host.Outcome.next (if_neg hb)

end

theorem hostRequest_performed {s t : State} {port : Nat} {bar : Bool} {wr : Option (List Byte)} {parts : List (Nat × Nat × Nat)}
    {l : List HostReply}
    (hok : ∀ p ∈ parts, (hostPart s port bar p.1 p.2.2 (wr.map (fun b => (b.drop p.2.1).take p.2.2))).toOption.isSome = true)
    (ht : performHost port bar wr parts s [] = .ok (t, l)) :
    hostRequest s port bar wr parts = .next { t with plat := { t.plat with reply := l } } := by
  unfold hostRequest
  split
  · next s' h =>
    obtain ⟨p, hp, hs⟩ := List.exists_of_findSome?_eq_some h
    have hp := hok p hp
    split at hs
    · next e => rw [e] at hp; exact absurd hp (by simp [Except.toOption])
    · cases hs
  · rw [ht]

/-- A request of n bytes with all of its data, or a load. -/
def wholeData (wr : Option (List Byte)) (n : Nat) : Bool := match wr with | some b => b.length == n | none => true

theorem wholeData_of {wr : Option (List Byte)} {n : Nat} (h : wr = none ∨ ∃ b, wr = some b ∧ b.length = n) : wholeData wr n = true := by
  rcases h with rfl | ⟨b, rfl, h⟩
  · rfl
  · exact beq_iff_eq.2 h

section
variable {s : State} {port addr len : Nat} {wr : Option (List Byte)}

theorem cxlMemRequest_open {m : BootImage} (hs : hostServed s port = true) (hm : s.plat.image = some m)
    (hc : m.cxlPorts.getD port false = true) (ha : addr % 64 = 0) (hw : wholeData wr 64 = true) :
    exec (.cxlMemRequest port addr wr) s = hostRequest s port false wr [(addr, 0, 64)] := by
  refine (exec_cxlMemRequest s).trans (if_neg ?_)
  show ¬ (!hostServed s port || !(s.plat.image.map (fun m => m.cxlPorts.getD port false)).getD false || !wholeData wr 64 ||
    addr % 64 != 0) = true
  rw [hs, hm, Option.map_some, Option.getD_some, hc, hw, ha]
  decide

theorem bar2Request_open {m : BootImage} (hs : hostServed s port = true) (hm : s.plat.image = some m) (hw : wholeData wr len = true)
    (hl : addr + len ≤ 2 ^ m.bar2Log) :
    exec (.bar2Request port addr len wr) s = hostRequest s port true wr (splitHost addr len) := by
  refine (exec_bar2Request s).trans (if_neg ?_)
  show ¬ (!hostServed s port || !wholeData wr len || decide (2 ^ ((s.plat.image.map BootImage.bar2Log).getD 36) < addr + len)) = true
  rw [hs, hm, Option.map_some, Option.getD_some, hw, decide_eq_false (Nat.not_lt.2 hl)]
  decide

theorem hostRequests_closed (hs : hostServed s port = false) :
    exec (.cxlMemRequest port addr wr) s = .next s ∧ exec (.bar2Request port addr len wr) s = .next s := by
  exact ⟨(exec_cxlMemRequest s).trans (if_pos (by rw [hs]; rfl)), (exec_bar2Request s).trans (if_pos (by rw [hs]; rfl))⟩

end

theorem bar0Read_answers {s : State} (turns : List Turn) (hu : s.mem.upsets = []) (off n : Nat)
    (hn : bar0Value { s with schedule := turns } off = n) : ∃ t, step { s with schedule := .bar0Read off :: turns } = .next t ∧
      t.mem = s.mem ∧ t.plat.reply = [.data (leBytes 8 n)] :=
  ⟨_, step_turn _ turns hu, rfl, by rw [← hn]; rfl⟩

/-- Settles O50, by the port's requests. -/
theorem hostPortEvents : Obligations.HostPortEvents := by
  intro s port addr len v wr
  refine ⟨fun hp hu => ⟨fun hb => ⟨?_, ?_, ?_⟩, fun hb off ho => bar0Write_closed hp hu hb ho, bar0Write_open hp hu, bar0Write_open hp hu⟩,
    fun m hs hm => ⟨fun hc ha hw hok t l ht => ?_, fun hw hl hok t l ht => ?_⟩, fun turns hu => ⟨?_, ?_, ?_, ?_⟩,
    hostRequests_closed⟩
  · exact (bar0Write_open hp hu).trans (congrArg Host.Outcome.next (if_pos hb))
  · exact (bar0Write_open hp hu).trans (congrArg Host.Outcome.next (if_pos hb))
  · exact (bar0Write_open hp hu).trans (congrArg Host.Outcome.next (if_pos hb))
  · rw [cxlMemRequest_open hs hm hc ha (wholeData_of hw)]
    exact hostRequest_performed (fun p hp => by rw [List.mem_singleton.1 hp]; exact hok) ht
  · rw [bar2Request_open hs hm (wholeData_of hw) hl]
    exact hostRequest_performed (List.all_eq_true.1 hok) ht
  · exact bar0Read_answers turns hu _ _ rfl
  · exact bar0Read_answers turns hu _ _ rfl
  · exact bar0Read_answers turns hu _ _ rfl
  · exact bar0Read_answers turns hu _ _ rfl

end Sys2Proof.Machine
/-! PROOF. The commands of the management ring: what each answers (23_platform.md R393, R394, R401, 09_extents.md R178, R187). -/
namespace Sys2Proof.Machine

/-! ### Retire -/

/-- EXTENT_RETIRE under way: no ECB holds the extent, and no check finds it. -/
def retireExt (s : State) (ctx xid : Nat) : State :=
  { s with
    cores := s.cores.map (fun (p : Nat × Core) => (p.1, { p.2 with ecb := p.2.ecb.filter (fun x => !(x.ctx == ctx && x.xid == xid)) }))
    mem := { s.mem with exts := s.mem.exts.map (fun (x : LiveExt) => if x.ctx == ctx && x.xid == xid then { x with stage := 1 } else x) }
    plat := { s.plat with retiring := some (ctx, xid) } }

section
variable {s : State} (hr : mqReady s = true) (hc : ((pread s (mqSlot s) 64).getD 0 0).toNat = 2)
include hr hc

theorem extentRetire_unnamed (hu : unnamedZero (pread s (mqSlot s) 64) [(0x08, 4)] = false) :
    exec .extentRetire s = .next (mqDone s 2) := by
  refine (if_neg ?_).trans (if_pos ?_)
  · rw [hr, hc]; decide
  · rw [hu]; rfl

variable (hu : unnamedZero (pread s (mqSlot s) 64) [(0x08, 4)] = true)
include hu

theorem extentRetire_none
    (hl : liveExt s (opndBits (pread s (mqSlot s) 64) 0x08 0 16) (opndBits (pread s (mqSlot s) 64) 0x08 16 16) = none) :
    exec .extentRetire s = .next (mqDone s 4) := by
  refine (if_neg ?_).trans ((if_neg ?_).trans ?_)
  · rw [hr, hc]; decide
  · rw [hu]; decide
  · rw [hl]; rfl

theorem extentRetire_starts {e : LiveExt}
    (hl : liveExt s (opndBits (pread s (mqSlot s) 64) 0x08 0 16) (opndBits (pread s (mqSlot s) 64) 0x08 16 16) = some e)
    (ha : aliased s (extDesc s e) = false) : exec .extentRetire s =
      .next (retireExt s (opndBits (pread s (mqSlot s) 64) 0x08 0 16) (opndBits (pread s (mqSlot s) 64) 0x08 16 16)) := by
  refine (if_neg ?_).trans ((if_neg ?_).trans ?_)
  · rw [hr, hc]; decide
  · rw [hu]; decide
  · rw [hl]
    exact if_neg (ne_true_of_eq_false ha)

end

theorem retireExt_ecb {s : State} {ctx xid k : Nat} {x : Core} (h : mfind (retireExt s ctx xid).cores k = some x) :
    ∀ y ∈ x.ecb, ¬ (y.ctx = ctx ∧ y.xid = xid) := by
  intro y hy
  have hm : mfind (retireExt s ctx xid).cores k = _ :=
    mfind_map s.cores _ (fun c => { c with ecb := c.ecb.filter (fun x => !(x.ctx == ctx && x.xid == xid)) }) (fun _ => rfl) k
  obtain ⟨c, -, rfl⟩ := Option.map_eq_some_iff.1 (hm.symm.trans h)
  simpa [imp_iff_not_or] using (List.mem_filter.1 hy).2

/-! ### What a command answers -/

section
variable {s : State} {i : Instr} {code : Nat} {named : List (Nat × Nat)} {act : List Byte → Except Nat State}
  (he : exec i s = command s code named act) (hr : mqReady s = true) (hc : ((pread s (mqSlot s) 64).getD 0 0).toNat = code)
include he hr hc

theorem answers_unnamed (hu : unnamedZero (pread s (mqSlot s) 64) named = false) : exec i s = .next (mqDone s 2) :=
  he.trans (command_unnamed hr hc hu)

variable (hu : unnamedZero (pread s (mqSlot s) 64) named = true)
include hu

theorem answers_ok {t : State} (ha : act (pread s (mqSlot s) 64) = .ok t) : exec i s = .next (mqDone t 0) :=
  he.trans (command_ok hr hc hu ha)

theorem answers_error {st : Nat} (ha : act (pread s (mqSlot s) 64) = .error st) : exec i s = .next (mqDone s st) :=
  he.trans (command_error hr hc hu ha)

end

/-! ### Commands 10 to 15 -/

section
variable {s : State} (hr : mqReady s = true)

/-- The pin quota of a context set. -/
def withQuota (s : State) (ctx q : Nat) : State := { s with mem := { s.mem with quota := mset 0 s.mem.quota ctx q } }

theorem mget_withQuota (s : State) (ctx q : Nat) : mget (withQuota s ctx q).mem.quota 0 ctx = q :=
  (mget_mset 0 s.mem.quota ctx ctx q).trans (if_pos rfl)

theorem quoteBytes_length_le (s : State) (l : List Byte) : (quoteBytes s l).length ≤ 8192 := List.length_take_le _ _

theorem read_pwrite_outside {l : List Byte} {pa n a : Nat} (hl : l.length ≤ n) (ha : a < pa ∨ pa + n ≤ a) :
    Memory.read (pwrite s pa l).mem.bytes a = Memory.read s.mem.bytes a := by
  rw [pwrite_mem_bytes, Memory.read_writes, if_neg (by omega)]

include hr

theorem acceptWork_ready (hc : ((pread s (mqSlot s) 64).getD 0 0).toNat = 11) (hu : unnamedZero (pread s (mqSlot s) 64) [] = true)
    (hb : s.plat.boot = 3) (hx : s.plat.xroot ≠ 0) (hq : s.plat.qroot ≠ 0) :
    ∃ u, exec .acceptWork s = .next (mqDone u 0) ∧ u.plat.boot = 4 := by
  refine ⟨?after, answers_ok (exec_acceptWork s) hr hc hu ?acts, ?boot⟩
  case acts =>
    refine if_neg ?_
    rw [not_or, not_or]; exact ⟨not_not.2 hb, hx, hq⟩
  case boot =>
    obtain ⟨b, m, so, sc, v, h⟩ := BytesOnly.logEvent
      { s with
        plat := { s.plat with boot := 4 }
        fab := { s.fab with links := (List.range 32).map (fun p => (p, { since := s.plat.time })) } } 4 4 0
    rw [h]

theorem acceptWork_early (hc : ((pread s (mqSlot s) 64).getD 0 0).toNat = 11) (hu : unnamedZero (pread s (mqSlot s) 64) [] = true)
    (hb : s.plat.boot ≠ 3) : exec .acceptWork s = .next (mqDone s 5) := by
  refine answers_error (exec_acceptWork s) hr hc hu ?acts
  exact if_pos (Or.inl hb)

section
variable (hc : ((pread s (mqSlot s) 64).getD 0 0).toNat = 12)
  (hu : unnamedZero (pread s (mqSlot s) 64) [(0x08, 1), (0x10, 8), (0x18, 8)] = true)
include hc hu

/-- Whether a live extent lies in the demotion pool that the command names. -/
def poolUsed (s : State) (c : List Byte) : Bool :=
  let old := mget s.mem.pools ⟨0, 0⟩ (opndBits c 0x08 0 2)
  (usedRanges s).any (fun u => meets old.base (old.base + old.len) u.1 u.2.1)

theorem demotionPool_cleared (h0 : opnd (pread s (mqSlot s) 64) 0x18 = 0) (hp : poolUsed s (pread s (mqSlot s) 64) = false) :
    exec .demotionPool s = .next (mqDone
      { s with mem := { s.mem with pools := mdel s.mem.pools (opndBits (pread s (mqSlot s) 64) 0x08 0 2) } } 0) := by
  refine answers_ok (exec_demotionPool s) hr hc hu ?acts
  refine (if_neg ?_).trans ((if_neg (ne_true_of_eq_false hp)).trans ?_)
  · rw [h0]; simp
  · rw [if_pos h0]

theorem demotionPool_invalid (h0 : opnd (pread s (mqSlot s) 64) 0x18 ≠ 0) (h : opnd (pread s (mqSlot s) 64) 0x18 % 4096 ≠ 0 ∨
      opndBits (pread s (mqSlot s) 64) 0x10 0 52 % 4096 ≠ 0 ∨ opndBits (pread s (mqSlot s) 64) 0x10 0 52 < Config.hostBase ∨
      Config.paEnd < opndBits (pread s (mqSlot s) 64) 0x10 0 52 + opnd (pread s (mqSlot s) 64) 0x18) :
    exec .demotionPool s = .next (mqDone s 2) := by
  refine answers_error (exec_demotionPool s) hr hc hu ?acts
  exact if_pos (h.imp_right (And.intro h0))

variable (h0 : opnd (pread s (mqSlot s) 64) 0x18 ≠ 0) (hl : opnd (pread s (mqSlot s) 64) 0x18 % 4096 = 0)
  (hb : opndBits (pread s (mqSlot s) 64) 0x10 0 52 % 4096 = 0) (hh : Config.hostBase ≤ opndBits (pread s (mqSlot s) 64) 0x10 0 52)
  (he : opndBits (pread s (mqSlot s) 64) 0x10 0 52 + opnd (pread s (mqSlot s) 64) 0x18 ≤ Config.paEnd)
include hl hb hh he

include h0 in
theorem demotionPool_set (hp : poolUsed s (pread s (mqSlot s) 64) = false) :
    exec .demotionPool s = .next (mqDone
      { s with mem := { s.mem with pools := mput s.mem.pools (opndBits (pread s (mqSlot s) 64) 0x08 0 2)
                                              ⟨opndBits (pread s (mqSlot s) 64) 0x10 0 52, opnd (pread s (mqSlot s) 64) 0x18⟩ } } 0) := by
  refine answers_ok (exec_demotionPool s) hr hc hu ?acts
  refine (if_neg ?_).trans ((if_neg (ne_true_of_eq_false hp)).trans ?_)
  · omega
  · rw [if_neg h0]

theorem demotionPool_used (hp : poolUsed s (pread s (mqSlot s) 64) = true) : exec .demotionPool s = .next (mqDone s 1) := by
  refine answers_error (exec_demotionPool s) hr hc hu ?acts
  refine (if_neg ?_).trans (if_pos hp)
  omega

end

section
variable (hc : ((pread s (mqSlot s) 64).getD 0 0).toNat = 13) (hu : unnamedZero (pread s (mqSlot s) 64) [(0x08, 2), (0x10, 8)] = true)
include hc hu

theorem pinQuota_refused (h : opnd (pread s (mqSlot s) 64) 0x10 < pinnedBytes s (opndBits (pread s (mqSlot s) 64) 0x08 0 16)) :
    exec .pinQuota s = .next (mqDone s 1) := by
  refine answers_error (exec_pinQuota s) hr hc hu ?acts
  exact if_pos h

theorem pinQuota_set (h : pinnedBytes s (opndBits (pread s (mqSlot s) 64) 0x08 0 16) ≤ opnd (pread s (mqSlot s) 64) 0x10) :
    exec .pinQuota s = .next (mqDone (withQuota s (opndBits (pread s (mqSlot s) 64) 0x08 0 16)
      (opnd (pread s (mqSlot s) 64) 0x10)) 0) := by
  refine answers_ok (exec_pinQuota s) hr hc hu ?acts
  refine if_neg ?_
  exact Nat.not_lt.2 h

end

theorem auditSetting_set (hc : ((pread s (mqSlot s) 64).getD 0 0).toNat = 14)
    (hu : unnamedZero (pread s (mqSlot s) 64) [(0x08, 2)] = true) (h4 : 4 ≤ opndBits (pread s (mqSlot s) 64) 0x08 8 5)
    (h16 : opndBits (pread s (mqSlot s) 64) 0x08 8 5 ≤ 16) : ∃ u, exec .auditSetting s = .next (mqDone u 0) ∧
      mget u.plat.auditK 0 (opndBits (pread s (mqSlot s) 64) 0x08 0 2) = opndBits (pread s (mqSlot s) 64) 0x08 8 5 := by
  refine ⟨?after, answers_ok (exec_auditSetting s) hr hc hu ?acts, ?setting⟩
  case acts =>
    refine if_neg ?_
    omega
  case setting => exact (mget_mput ..).trans (if_pos rfl)

section
variable (hc : ((pread s (mqSlot s) 64).getD 0 0).toNat = 15)
  (hu : unnamedZero (pread s (mqSlot s) 64) [(0x08, 8), (0x10, 8), (0x18, 8)] = true)
include hc hu

theorem physicalCopy_copies {src dst k : Nat} (hs : opndBits (pread s (mqSlot s) 64) 0x08 0 52 = src)
    (hd : opndBits (pread s (mqSlot s) 64) 0x10 0 52 = dst) (hk : opnd (pread s (mqSlot s) 64) 0x18 = k) (h1 : 1 ≤ k) (h2 : k ≤ 2 ^ 20)
    (hs0 : paExists src = true) (hs1 : paExists (src + k - 1) = true) (hd0 : paExists dst = true) (hd1 : paExists (dst + k - 1) = true)
    (hf : (usedRanges s).any (fun u => meets dst (dst + k) u.1 u.2.1) = false) :
    exec .physicalCopy s = .next (mqDone (copyMarks (pwrite s dst (pread s src k)) src dst k) 0) := by
  refine answers_ok (exec_physicalCopy s) hr hc hu ?acts
  subst hs hd hk
  refine if_neg ?_
  rw [hs0, hs1, hd0, hd1, hf, decide_eq_true h1, decide_eq_true h2]
  decide

theorem physicalCopy_invalid (h : paExists (opndBits (pread s (mqSlot s) 64) 0x08 0 52) = false ∨
      paExists (opndBits (pread s (mqSlot s) 64) 0x10 0 52) = false) : exec .physicalCopy s = .next (mqDone s 2) := by
  refine answers_error (exec_physicalCopy s) hr hc hu ?acts
  refine if_pos (Or.inr (Or.inl ?_))
  obtain h | h := h <;> rw [h] <;> simp

end

theorem unknownCommand_answers (hc : ((pread s (mqSlot s) 64).getD 0 0).toNat = 0 ∨ 15 < ((pread s (mqSlot s) 64).getD 0 0).toNat) :
    exec .unknownCommand s = .next (mqDone s 0xFF) := if_pos ⟨hr, hc⟩

theorem faultFrameAnswer_answers {i : Nat} {f : Frame} {a : Answer} (hc : ((pread s (mqSlot s) 64).getD 0 0).toNat = 7)
    (hu : unnamedZero (pread s (mqSlot s) 64) [(0x08, 8), (0x10, 4), (0x18, 2)] = true)
    (hf : s.work.frames.find? (fun p => p.2.dom == opndBits (pread s (mqSlot s) 64) 0x08 0 52 &&
        p.2.seq == some (opndBits (pread s (mqSlot s) 64) 0x10 0 32) && !p.2.answered) = some (i, f))
    (ha : answerOf (opndBits (pread s (mqSlot s) 64) 0x18 0 2) (opndBits (pread s (mqSlot s) 64) 0x18 8 2) = some a)
    (hd : (domainAt s (opndBits (pread s (mqSlot s) 64) 0x08 0 52)).host = true) :
    exec .faultFrameAnswer s = .next (mqDone (answerFrame s i a) 0) := by
  refine answers_ok (exec_faultFrameAnswer s) hr hc hu ?acts
  simp only [hf, ha]
  exact if_pos hd

theorem preemptionRequest_answers {n : Nat} (hc : ((pread s (mqSlot s) 64).getD 0 0).toNat = 8)
    (hu : unnamedZero (pread s (mqSlot s) 64) [(0x08, 2), (0x10, 8), (0x18, 4), (0x20, 4)] = true)
    (hg : residentGroup s (opndBits (pread s (mqSlot s) 64) 0x08 0 16) (opndBits (pread s (mqSlot s) 64) 0x10 0 56)
      (opndBits (pread s (mqSlot s) 64) 0x18 0 32) = some n) :
    exec .preemptionRequest s = .next (mqDone (preempt s n (opndBits (pread s (mqSlot s) 64) 0x20 0 32)) 0) := by
  refine answers_ok (exec_preemptionRequest s) hr hc hu ?acts
  simp only [hg]

theorem attestationQuote_answers {pa : Nat} (hc : ((pread s (mqSlot s) 64).getD 0 0).toNat = 10)
    (hu : unnamedZero (pread s (mqSlot s) 64) [(0x08, 0x20), (0x28, 8)] = true) (hpa : opndBits (pread s (mqSlot s) 64) 0x28 0 52 = pa)
    (h0 : paExists pa = true) (h1 : paExists (pa + 8191) = true) : ∃ u, exec .attestationQuote s = .next (mqDone u 0) ∧
      ∀ a, a < pa ∨ pa + 8192 ≤ a → Memory.read u.mem.bytes a = Memory.read s.mem.bytes a := by
  subst hpa
  refine ⟨?after, answers_ok (exec_attestationQuote s) hr hc hu ?acts, ?bytes⟩
  case acts =>
    refine if_pos ?_
    rw [h0, h1]; rfl
  case bytes => exact fun a ha => read_pwrite_outside (quoteBytes_length_le s _) ha

/-- A command with a nonzero byte that it does not name answers 2, whatever it would do. -/
theorem commands_unnamed {x : Nat × List (Nat × Nat) × Instr} (hx : x ∈
      [(1, [(0x08, 4), (0x10, 8)], Instr.extentCreate), (2, [(0x08, 4)], .extentRetire),
        (3, [(0x08, 3), (0x10, 8), (0x18, 8), (0x20, 4), (0x28, 8)], .hostWindowWrite), (4, [(0x08, 8), (0x10, 8)], .rcbWrite),
        (5, [(0x08, 8)], .membershipTableEntry), (6, [(0x08, 3), (0x10, 8)], .groupTableEntry),
        (7, [(0x08, 8), (0x10, 4), (0x18, 2)], .faultFrameAnswer), (8, [(0x08, 2), (0x10, 8), (0x18, 4), (0x20, 4)], .preemptionRequest),
        (9, [(0x08, 8)], .regionKill), (10, [(0x08, 0x20), (0x28, 8)], .attestationQuote), (11, [], .acceptWork),
        (12, [(0x08, 1), (0x10, 8), (0x18, 8)], .demotionPool), (13, [(0x08, 2), (0x10, 8)], .pinQuota), (14, [(0x08, 2)], .auditSetting),
        (15, [(0x08, 8), (0x10, 8), (0x18, 8)], .physicalCopy)])
    (hc : ((pread s (mqSlot s) 64).getD 0 0).toNat = x.1) (hu : unnamedZero (pread s (mqSlot s) 64) x.2.1 = false) :
    exec x.2.2 s = .next (mqDone s 2) := by
  simp only [List.mem_cons, List.not_mem_nil, or_false] at hx
  obtain rfl | rfl | rfl | rfl | rfl | rfl | rfl | rfl | rfl | rfl | rfl | rfl | rfl | rfl | rfl := hx
  · exact answers_unnamed (exec_extentCreate s) hr hc hu
  · exact extentRetire_unnamed hr hc hu
  · exact answers_unnamed (exec_hostWindowWrite s) hr hc hu
  · exact answers_unnamed (exec_rcbWrite s) hr hc hu
  · exact answers_unnamed (exec_membershipTableEntry s) hr hc hu
  · exact answers_unnamed (exec_groupTableEntry s) hr hc hu
  · exact answers_unnamed (exec_faultFrameAnswer s) hr hc hu
  · exact answers_unnamed (exec_preemptionRequest s) hr hc hu
  · exact answers_unnamed (exec_regionKill s) hr hc hu
  · exact answers_unnamed (exec_attestationQuote s) hr hc hu
  · exact answers_unnamed (exec_acceptWork s) hr hc hu
  · exact answers_unnamed (exec_demotionPool s) hr hc hu
  · exact answers_unnamed (exec_pinQuota s) hr hc hu
  · exact answers_unnamed (exec_auditSetting s) hr hc hu
  · exact answers_unnamed (exec_physicalCopy s) hr hc hu

end

/-- Settles O51, by what each command's act gives under its premises. -/
theorem managementCommands : Obligations.ManagementCommands := by
  intro s t e n hr c is answers
  exact ⟨fun h ht => answers_ok (exec_extentCreate s) hr h.1 h.2 ht, fun h hl => extentRetire_none hr h.1 h.2 hl,
    fun h hl ha => ⟨_, extentRetire_starts hr h.1 h.2 hl ha, rfl, rfl, fun _ _ hx => retireExt_ecb hx⟩,
    fun h ht => answers_ok (exec_hostWindowWrite s) hr h.1 h.2 ht, fun h ht => answers_ok (exec_rcbWrite s) hr h.1 h.2 ht, fun h => answers_ok (exec_membershipTableEntry s) hr h.1 h.2 rfl,
    fun h => answers_ok (exec_groupTableEntry s) hr h.1 h.2 rfl, fun i f a h hf ha hd => faultFrameAnswer_answers hr h.1 h.2 hf ha hd,
    fun h hg => preemptionRequest_answers hr h.1 h.2 hg,
    fun h => answers_ok (exec_regionKill s) hr h.1 h.2 rfl, fun h h0 h1 => attestationQuote_answers hr h.1 h.2 rfl h0 h1,
    fun h => acceptWork_ready hr h.1 h.2, fun h => acceptWork_early hr h.1 h.2,
    fun h h0 hd => demotionPool_cleared hr h.1 h.2 h0 (by simpa [poolUsed] using hd),
    fun h h0 => ⟨fun hl hb hh he => ⟨demotionPool_set hr h.1 h.2 h0 hl hb hh he, demotionPool_used hr h.1 h.2 hl hb hh he⟩,
      demotionPool_invalid hr h.1 h.2 h0⟩,
    fun h => ⟨pinQuota_refused hr h.1 h.2, fun hq => ⟨_, pinQuota_set hr h.1 h.2 hq, mget_withQuota ..⟩⟩, fun h => auditSetting_set hr h.1 h.2,
    fun h => physicalCopy_copies hr h.1 h.2 rfl rfl rfl, fun h => physicalCopy_invalid hr h.1 h.2,
    fun x hx => commands_unnamed hr hx, unknownCommand_answers hr⟩

end Sys2Proof.Machine
/-! PROOF. The steps of a link of a plane (15_remote.md R301, R302, R304). -/
namespace Sys2Proof.Machine

@[simp] theorem length_renumber (q : Nat) (l : List Flit) : (renumber q l).length = l.length := by
  induction l generalizing q with
  | nil => rfl
  | cons f r ih => simp only [renumber, List.length_cons, ih]

theorem link_setLink (s : State) (p : Nat) (l : Link) : (s.setLink p l).link p = l :=
  (mget_mset ..).trans (if_pos rfl)

theorem flush_of_queue_nil {l : Link} (now : Nat) (h : l.queue = []) : l.flush now = l := by
  unfold Link.flush
  rw [h]; rfl

section
variable {s : State} {plane : Nat} (hp : plane < 32)
include hp

theorem flitReceive_takes {bytes : List Byte} (hm : (s.link plane).mode = 0) (hl : bytes.length = 256)
    (ht : (s.link plane).takes bytes = true) : exec (.flitReceive plane bytes) s = .next (takeFlit s plane bytes) := by
  refine (exec_flitReceive s).trans ((if_neg ?_).trans (if_pos ht))
  omega

theorem flitReceive_asks {bytes : List Byte} (hm : (s.link plane).mode = 0) (hl : bytes.length = 256)
    (ht : (s.link plane).takes bytes = false) (hd : (s.link plane).drop = false) :
    exec (.flitReceive plane bytes) s = .next (s.setLink plane ((s.link plane).askReplay s.plat.time)) := by
  refine (exec_flitReceive s).trans ((if_neg ?_).trans ((if_neg (ne_true_of_eq_false ht)).trans (congrArg Host.Outcome.next (if_pos ?_))))
  · omega
  · rw [hd]; rfl

theorem replayRequest_goesBack {e : Nat} (ha : (s.link plane).ask = some e)
    (he : e = (s.link plane).q ∨ (s.link plane).held.any (fun f => f.num == e) = true) :
    exec (.replayRequest plane) s = .next (s.setLink plane { s.link plane with ask := none, tx := s.plat.time }) := by
  refine (exec_replayRequest s).trans ?_
  unfold execReplayRequest
  simp only [if_neg (Nat.not_le.2 hp), ha, if_pos he]

theorem replayRequest_retrains {e : Nat} (ha : (s.link plane).ask = some e) (hq : e ≠ (s.link plane).q)
    (he : (s.link plane).held.any (fun f => f.num == e) = false) :
    exec (.replayRequest plane) s = .next (s.setLink plane ((s.link plane).retrain s.plat.time)) := by
  refine (exec_replayRequest s).trans ?_
  unfold execReplayRequest
  simp only [if_neg (Nat.not_le.2 hp), ha, he, hq, Bool.false_eq_true, or_self, if_false]

theorem linkRetrain_restarts {init : Nat} (hl : linksLive s = true) (hm : (s.link plane).mode = 1) (hi : init ≤ 32767) :
    ∃ l, exec (.linkRetrain plane init) s = .next (s.setLink plane l) ∧ ((s.link plane).queue = [] → l =
      { mode := 0, q := (s.link plane).held.length, held := renumber 0 (s.link plane).held, queue := [], init := init,
        part := (s.link plane).part, turn := (s.link plane).held.length % 4, rx := s.plat.time, tx := s.plat.time,
        sent := (renumber 0 (s.link plane).held).foldl (fun m f => mset 0 m f.vc (mget m 0 f.vc + f.slots)) [] }) := by
  refine ⟨_, (exec_linkRetrain s).trans (if_neg ?_), fun hq => (flush_of_queue_nil _ ?_).trans ?_⟩
  · rw [hl, hm]; simp only [Bool.not_true, Bool.false_eq_true, ne_eq, not_true, false_or, not_or]; omega
  · exact hq
  · rw [hq, length_renumber]

end

/-- Settles O46, one lemma a step. -/
theorem linkEvents : Obligations.LinkEvents := by
  intro s plane init e bytes hp l now
  refine ⟨fun hm hl => ⟨flitReceive_takes hp hm hl, flitReceive_asks hp hm hl⟩,
    fun ha => ⟨replayRequest_goesBack hp ha, replayRequest_retrains hp ha⟩,
    (exec_heartbeat s).trans (if_neg (Nat.not_le.2 hp)), fun hm hr => (exec_linkIdleTimeout s).trans (if_neg ?silent),
    fun ht hr => (exec_idleFlit s).trans (if_neg ?idle), fun hl hm hs => (exec_linkDown s).trans (if_neg ?down), fun hl hm hi => ?trained⟩
  case silent => rw [not_or, not_or]; exact ⟨Nat.not_le.2 hp, not_not.2 hm, Nat.not_lt.2 hr⟩
  case idle => rw [not_or, not_or]; exact ⟨Nat.not_le.2 hp, Nat.not_lt.2 ht, by rw [hr]; decide⟩
  case down => rw [not_or, not_or, not_or]; exact ⟨by rw [hl]; decide, Nat.not_le.2 hp, not_not.2 hm, Nat.not_lt.2 hs⟩
  case trained =>
    obtain ⟨l', hs, hq⟩ := linkRetrain_restarts hp hl hm hi
    exact ⟨_, hs, rfl, rfl, fun h => (link_setLink ..).trans (hq h)⟩

end Sys2Proof.Machine
/-! PROOF. What an access of the device does beside its bytes leaves the issuing split where it stands, and a read of the device changes
no byte, no register and nothing outside memory (12_atomics.md R233, R249, 23_platform.md R407, 21_work.md R370). -/
namespace Sys2Proof.Machine

theorem Stays.foldl {α : Type} {f : State → α → State} (hf : ∀ s x, Stays s (f s x)) (l : List α) (s : State) : Stays s (l.foldl f s) := by
  induction l generalizing s with
  | nil => exact .refl s
  | cons x r ih => exact (hf s x).trans (ih _)

/-! ### Reads -/

theorem ReadsOnly.noteByte (s : State) (d : Desc) (va : Nat) : ReadsOnly s (noteByte s d va) := .noteUpset ..

theorem ReadsOnly.devUse (s : State) (ctx va n : Nat) : ReadsOnly s (devUse s ctx va n) := by
  unfold Machine.devUse
  split
  · exact .noteUpset ..
  · split
    · refine (ReadsOnly.foldl (fun s x => ReadsOnly.useByte ..) _ s).trans (.foldl (fun s i => ?_) _ _)
      split
      · exact .noteByte ..
      · exact .refl s
    · exact .refl s

theorem ReadsOnly.devUses (s : State) (l : List DevAcc) : ReadsOnly s (devUses s l) := by
  refine .foldl (fun s x => ?_) l s
  split
  · exact .refl s
  · exact .devUse ..

/-! ### Writes -/

/-- What a write by another party than a core's L1 may have changed: memory and the bounded lines that cores hold. -/
structure Aside (s u : State) : Prop where
  focus : u.focus = s.focus
  warps : u.warps = s.warps
  work : u.work = s.work
  core : ∀ c, { u.core c with held := [] } = { s.core c with held := [] }

theorem Aside.refl (s : State) : Aside s s := ⟨rfl, rfl, rfl, fun _ => rfl⟩

theorem Aside.trans {s u v : State} (h : Aside s u) (k : Aside u v) : Aside s v :=
  ⟨k.focus.trans h.focus, k.warps.trans h.warps, k.work.trans h.work, fun c => (k.core c).trans (h.core c)⟩

theorem Aside.foldl {α : Type} {f : State → α → State} (hf : ∀ s x, Aside s (f s x)) (l : List α) (s : State) : Aside s (l.foldl f s) := by
  induction l generalizing s with
  | nil => exact .refl s
  | cons x r ih => exact (hf s x).trans (ih _)

theorem Aside.beside {s u : State} (hf : u.focus = s.focus) (hc : u.cores = s.cores) (hw : u.warps = s.warps) (hk : u.work = s.work) :
    Aside s u :=
  ⟨hf, hw, hk, fun c => by rw [show u.core c = s.core c by simp only [State.core, hc]]⟩

theorem ReadsOnly.aside {s u : State} (h : ReadsOnly s u) : Aside s u := by
  obtain ⟨o, d, e, c, x, rfl⟩ := h
  exact .beside rfl rfl rfl rfl

theorem Aside.updCore (s : State) (c : Nat) {f : Core → Core} (hf : ∀ k, { f k with held := [] } = { k with held := [] }) :
    Aside s (s.updCore c f) := by
  refine ⟨rfl, rfl, rfl, fun k => ?_⟩
  rw [State.core_updCore]
  split
  · rename_i h; subst h; exact hf _
  · rfl

/-- Such a write leaves the issuing split where it stands. -/
theorem Aside.stays {s u : State} (h : Aside s u) : Stays s u := by
  have hslot (c i : Nat) : (u.core c).slot i = (s.core c).slot i := by
    have hc := congrArg (fun x : Core => x.slot i) (h.core c)
    exact hc
  have hr : u.run = s.run := by simp only [State.run, h.focus, hslot]
  have hh : u.hwarp = s.hwarp := by simp only [State.hwarp, State.hcore, h.focus, hr, State.warp, h.warps]
  exact ⟨h.focus, hr, by rw [hh], by rw [hh]⟩

theorem Aside.markUsed (s : State) (d : Desc) : Aside s (markUsed s d) := .beside rfl rfl rfl rfl

theorem Aside.homeWrite (s : State) (d : Desc) (va : Nat) (bs : List Byte) : Aside s (homeWrite s d va bs) := by
  unfold Machine.homeWrite
  split <;> exact .beside rfl rfl rfl rfl

theorem Aside.addElem (s : State) (line e δ : Nat) : Aside s (addElem s line e δ) := by
  unfold Machine.addElem
  dsimp only
  split
  · split
    · exact .refl s
    · have h (d : Desc) : Aside s (Machine.touchByte (Machine.dropOwner s line) d (lineVa line + 4 * e) false) :=
        ((ReadsOnly.dropOwner s line).trans (.touchByte ..)).aside
      split
      · exact (h _).trans (ReadsOnly.noteByte ..).aside
      · split
        · exact h _
        · split
          · exact (h _).trans (ReadsOnly.noteByte ..).aside
          · exact (h _).trans (.homeWrite ..)
  · exact (ReadsOnly.noteUpset ..).aside
  · exact .refl s

theorem Aside.addDeltas (s : State) (line : Nat) (ds : SMap Word) : Aside s (addDeltas s line ds) :=
  .foldl (fun _ _ => .addElem ..) _ s

theorem Aside.drainHolder (s : State) (core line : Nat) (release : Bool) : Aside s (drainHolder s core line release) := by
  unfold Machine.drainHolder
  dsimp only
  refine (Aside.addDeltas s line (mget (s.core core).held ⟨0, 0, []⟩ line).d).trans ?_
  generalize Machine.addDeltas s line _ = t
  split
  · refine (Aside.updCore _ core (f := fun k => { k with held := mdel k.held line }) (fun _ => rfl)).trans ?_
    split <;> exact .beside rfl rfl rfl rfl
  · refine Aside.updCore _ core (fun k => ?_)
    split <;> rfl

theorem Aside.drainLine (s : State) (line : Nat) (release : Bool) : Aside s (drainLine s line release) := by
  unfold Machine.drainLine
  split
  · exact .foldl (fun _ _ => .drainHolder ..) _ s
  · exact .refl s

theorem Aside.visitLine (s : State) (d : Desc) (va : Nat) (wr : Bool) : Aside s (visitLine s d va wr) := by
  refine (ReadsOnly.dropOwner s (lineKey d.ent.ctx va)).aside.trans ?_
  unfold Machine.visitLine
  dsimp only
  split
  · exact .drainLine ..
  · exact .refl _

theorem Aside.useByte (s : State) (d : Desc) (va : Nat) (wr : Bool) : Aside s (useByte s d va wr) :=
  (Aside.visitLine s d va wr).trans (ReadsOnly.touchByte ..).aside

theorem Aside.devWrite (s : State) (ctx va : Nat) (bs : List Byte) : Aside s (devWrite s ctx va bs) := by
  unfold Machine.devWrite
  split
  · exact (ReadsOnly.noteUpset ..).aside
  · split
    · refine .foldl (fun s x => ?_) _ s
      split
      · exact (ReadsOnly.noteByte ..).aside
      · exact (Aside.useByte ..).trans (.homeWrite ..)
    · exact .refl s

theorem Stays.devWrite (s : State) (ctx va : Nat) (bs : List Byte) : Stays s (devWrite s ctx va bs) := (Aside.devWrite ..).stays

theorem Stays.tcbCount (s : State) (t : Task) (off : Nat) (k : Int) : Stays s (tcbCount s t off k) := .devWrite ..

end Sys2Proof.Machine

/-! PROOF. `wfetch`, `wdone` and `wlaunch` (21_work.md R379, R380, R385). -/
namespace Sys2Proof.Machine

theorem Stays.progress (s : State) : Stays s s.progress := by
  unfold State.progress
  split
  · exact .refl s
  · exact .beside rfl rfl rfl

theorem progress_next (s : State) : s.progress.work.next = s.work.next := by
  unfold State.progress
  split <;> rfl

theorem progress_fetches (s : State) : s.progress.work.fetches = s.work.fetches := by
  unfold State.progress
  split <;> rfl

theorem Stays.setStatus (s : State) (d st : Nat) : Stays s (s.updHere (·.setStatus d st)) := .updHere s rfl rfl

/-- A word that answers a status after an effect that leaves its split in place. -/
theorem Stays.status {i : Instr} {s u : State} {d : SReg} {st n : Nat} (h : Stays s u) (he : exec i s = .next (u.status d st n))
    (hn : n = wordsOf i) : CompletesVia i s (u.updHere (·.setStatus d.val st)) :=
  Stays.completesVia (h.trans (.setStatus u d.val st)) he hn

/-- A fetch entered for the work unit under the next identifier. -/
def State.entersFetch (s : State) (f : Fetch) : State :=
  { s with
    work := { s.work with
      next := s.work.next + 1
      fetches := mput s.work.fetches s.work.next f } }

theorem Stays.entersFetch (s : State) (f : Fetch) : Stays s (s.entersFetch f) := .beside rfl rfl rfl

section
variable {s u : State} {sg st : SReg} {va : Nat} (hrep : s.hblk.isReplay = false) (hva : (s.hwarp.pair sg.val).toNat = va)
  (hc : tcbCheck s va 128 (permR ||| permW) = .ok ()) (hu : devUses s [⟨s.hwarp.ctx, va, 128, false⟩] = u)
include hrep hva hc hu

section
variable {r : ObjRef} {off : Nat} (hb : barAddr s s.hcore s.hwarp.blk s.inHandler (s.hwarp.s (sg.val + 2)).toNat = .ok r)
  (ho : (s.hwarp.s (sg.val + 3)).toNat = off) (hal : off % 16 = 0) (hlen : off + 16 ≤ s.hblk.spadLen)
include hb ho hal hlen

theorem wfetch_checked : exec (.wfetch sg st) s =
    if !tcbPermitted u (tcbAt u s.hwarp.ctx va) then .next (u.progress.status st 2 1)
    else .next ((u.progress.entersFetch { blk := s.hwarp.blk, ctx := s.hwarp.ctx, tcb := va, bar := r, off := off }).status st 0 1) := by
  subst hva ho hu
  refine (exec_wfetch s).trans ((if_neg (ne_true_of_eq_false hrep)).trans ?_)
  rw [hb]
  refine (if_neg (not_not.2 hal)).trans ((if_neg (Nat.not_lt.2 hlen)).trans ?_)
  rw [hc]
  rfl

end

theorem wdone_checked : exec (.wdone sg st) s =
    if !tcbPermitted u (tcbAt u s.hwarp.ctx va) then .next (u.status st 2 1)
    else match armedTask u s.hwarp.ctx va with
      | none => .next (u.status st 4 1)
      | some (i, _) => if !u.hblk.took.contains (i, (s.hwarp.s (sg.val + 2)).toNat, false) then .next (u.status st 4 1)
        else .next (reportDone u i (s.hwarp.s (sg.val + 2)).toNat st.val) := by
  subst hva hu
  refine (exec_wdone s).trans ((if_neg (ne_true_of_eq_false hrep)).trans ?_)
  rw [hc]
  rfl

end

theorem hwarp_of_same {s u : State} (hf : u.focus = s.focus) (hc : u.cores = s.cores) (hw : u.warps = s.warps) : u.hwarp = s.hwarp := by
  have hr : u.run = s.run := by simp only [State.run, hf, State.core, hc]
  simp only [State.hwarp, State.hcore, hf, hr, State.warp, hw]

theorem ReadsOnly.hwarp {s u : State} (h : ReadsOnly s u) : u.hwarp = s.hwarp :=
  let ⟨hf, hc, hw, _⟩ := h.same
  hwarp_of_same hf hc hw

theorem releaseDone_congr {s u : State} (hr : u.mem.reqs = s.mem.reqs) (hf : u.fab = s.fab) (core wslot id sc : Nat) :
    releaseDone u core wslot id sc = releaseDone s core wslot id sc := by
  unfold releaseDone
  rw [hr, hf]

/-- The next identifier given out. -/
def State.given (s : State) : State := { s with work := { s.work with next := s.work.next + 1 } }

theorem Stays.given (s : State) : Stays s s.given := .beside rfl rfl rfl

/-- A done block counted: the fence status of its warp, the block's record, the count in the TCB. -/
def State.countsDone (s : State) (core wslot b i no id : Nat) (t : Task) : State :=
  tcbCount ((s.updWarp core wslot (Warp.fenceStatus id)).updBlk b (fun b => { b with
    took := b.took.map (fun y => if y == (i, no, false) then (i, no, true) else y) })) t 0x4C 1

theorem Stays.countsDone (s : State) (core wslot b i no id : Nat) (t : Task) : Stays s (s.countsDone core wslot b i no id t) := by
  refine (Stays.updWarp s core wslot (f := Warp.fenceStatus id) (fun _ => rfl) (fun _ => rfl)).trans (Stays.trans ?_ (.tcbCount ..))
  exact .beside rfl rfl rfl

theorem countDone_taken {s : State} {core wslot : Nat} {a : WDone} {t : Task} (ht : s.task a.task = some t)
    (hst : (t.st == 1 || t.st == 2) = true) (hk : (s.blk (s.warp core wslot).blk).took.contains (a.task, a.no, false) = true) :
    countDone s core wslot a =
      (s.countsDone core wslot (s.warp core wslot).blk a.task a.no a.id t).updWarp core wslot (·.setStatus a.d 0) := by
  have hb : ((s.updWarp core wslot (Warp.fenceStatus a.id)).warp core wslot).blk = (s.warp core wslot).blk := by
    rw [State.warp_updWarp, if_pos rfl]; rfl
  have ht' : (s.updWarp core wslot (Warp.fenceStatus a.id)).task a.task = some t := ht
  have hk' : ((s.updWarp core wslot (Warp.fenceStatus a.id)).blk (s.warp core wslot).blk).took.contains (a.task, a.no, false) = true := hk
  unfold countDone
  dsimp only
  rw [hb, ht']
  exact if_pos (Bool.and_eq_true_iff.2 ⟨hst, hk'⟩)

/-- The issuing warp's block counted done under the next identifier. -/
def State.doneHere (s : State) (i no : Nat) (t : Task) : State :=
  tcbCount ((s.given.updHere (Warp.fenceStatus s.work.next)).updBlk s.hwarp.blk (fun b => { b with
    took := b.took.map (fun y => if y == (i, no, false) then (i, no, true) else y) })) t 0x4C 1

theorem Stays.doneHere (s : State) (i no : Nat) (t : Task) : Stays s (s.doneHere i no t) :=
  (Stays.given s).trans (.countsDone ..)

theorem reportDone_counts {s : State} {i no d : Nat} {t : Task} (hd : s.hwarp.dones = [])
    (hr : releaseDone s s.hcore s.run.wslot s.work.next 4 = true) (ht : s.task i = some t) (hst : (t.st == 1 || t.st == 2) = true)
    (hk : s.hblk.took.contains (i, no, false) = true) : reportDone s i no d =
      ((s.doneHere i no t).updHere (·.setStatus d 0)).advance 1 := by
  have hs : Stays s (s.doneHere i no t) := .doneHere ..
  have hr' : releaseDone s.given s.hcore s.run.wslot s.work.next 4 = true := hr
  have hd' : s.given.hwarp.dones.isEmpty = true := by rw [show s.given.hwarp = s.hwarp from rfl, hd]; rfl
  refine congrArg (State.advance · 1) ((if_pos ?_).trans ((countDone_taken ht hst hk).trans ?_))
  · exact Bool.and_eq_true_iff.2 ⟨hd', hr'⟩
  · unfold State.updHere
    rw [hs.hcore, hs.run]
    rfl

theorem armedTask_ready {s : State} {ctx va i : Nat} {t : Task} (h : armedTask s ctx va = some (i, t)) : (t.st == 1 || t.st == 2) = true := by
  have := List.find?_some h
  exact (Bool.and_eq_true_iff.1 this).2

/-- A launch record at the end of a region's device queue. -/
def State.enqueues (s : State) (r : Nat) (q : List (Nat × List Byte)) : State :=
  { s with work := { s.work with devq := mput s.work.devq r q } }

theorem Stays.enqueues (s : State) (r : Nat) (q : List (Nat × List Byte)) : Stays s (s.enqueues r q) := .beside rfl rfl rfl

theorem wlaunch_full {s : State} {sg st : SReg} {va : Nat} (hrep : s.hblk.isReplay = false) (hva : (s.hwarp.pair sg.val).toNat = va)
    (hal : va % 64 = 0) (hc : tcbCheck s va 64 permR = .ok ()) (hq : 256 ≤ (mget s.work.devq [] s.hblk.region).length) :
    exec (.wlaunch sg st) s = .next (s.status st 3 1) := by
  subst hva
  refine (exec_wlaunch s).trans ((if_neg (ne_true_of_eq_false hrep)).trans ((if_neg (not_not.2 hal)).trans ?_))
  rw [hc]
  exact if_pos hq

theorem wlaunch_room {s u : State} {sg st : SReg} {va : Nat} (hrep : s.hblk.isReplay = false) (hva : (s.hwarp.pair sg.val).toNat = va)
    (hal : va % 64 = 0) (hc : tcbCheck s va 64 permR = .ok ()) (hu : devUses s [⟨s.hwarp.ctx, va, 64, false⟩] = u)
    (hq : (mget s.work.devq [] s.hblk.region).length < 256) : exec (.wlaunch sg st) s = .next ((u.enqueues s.hblk.region (mget s.work.devq [] s.hblk.region ++
      [(s.hwarp.ctx, (devRead s s.hwarp.ctx va 64).getD (copies 64 0))])).status st 0 1) := by
  subst hva hu
  refine (exec_wlaunch s).trans ((if_neg (ne_true_of_eq_false hrep)).trans ((if_neg (not_not.2 hal)).trans ?_))
  rw [hc]
  exact if_neg (Nat.not_le.2 hq)

/-- Settles O34. -/
theorem workWords : Obligations.WorkWords := by
  intro s sg st r i t va x off reach answers reads u permitted
  have hu : ReadsOnly s u := ReadsOnly.devUses ..
  obtain ⟨hf, hc, hw, hk, hfab, hp, hfree, hb, hl2, hreq⟩ := hu.same
  have hh : u.hwarp = s.hwarp := hu.hwarp
  refine ⟨fun n => ?reads, fun hrep => ⟨fun hbar hal hlen hcheck => ?fetch, fun hcheck => ?done, fun hal hcheck => ?launch⟩⟩
  case reads =>
    obtain ⟨hf, hc, hw, hk, hfab, hp, hfree, hb, hl2, hreq⟩ := (ReadsOnly.devUses s [⟨s.hwarp.ctx, va, n, false⟩]).same
    exact ⟨hb, hl2, hreq, hw, hc, hk, hfab, hp, hfree, hf⟩
  case fetch =>
    have he := wfetch_checked (st := st) hrep rfl hcheck rfl hbar rfl hal hlen
    refine ⟨fun hno => ?_, fun hyes => ?_⟩
    · exact Stays.status (hu.stays.trans (.progress u)) (he.trans (if_pos (congrArg (!·) hno))) rfl
    · have := Stays.status ((hu.stays.trans (.progress u)).trans (.entersFetch ..)) (he.trans (if_neg (ne_true_of_eq_false (congrArg (!·) hyes)))) rfl
      unfold State.entersFetch at this
      rw [progress_next, progress_fetches, hk] at this
      exact this
  case done =>
    have he := wdone_checked (st := st) hrep rfl hcheck rfl
    have ha : armedTask u s.hwarp.ctx va = armedTask s s.hwarp.ctx va := by unfold armedTask; rw [hk]
    have hblk : u.hblk = s.hblk := by unfold State.hblk State.blk; rw [hh, hk]
    rw [ha, hblk] at he
    refine ⟨fun hno => ?_, fun hyes hnone => ?_, fun hyes harm htook => ?_, fun hyes harm htook hd ht hr => ?_⟩
    · exact Stays.status hu.stays (he.trans (if_pos (congrArg (!·) hno))) rfl
    · rw [hnone] at he
      exact Stays.status hu.stays (he.trans (if_neg (ne_true_of_eq_false (congrArg (!·) hyes)))) rfl
    · rw [harm] at he
      exact Stays.status hu.stays (he.trans ((if_neg (ne_true_of_eq_false (congrArg (!·) hyes))).trans (if_pos (congrArg (!·) htook)))) rfl
    · rw [harm] at he
      have hr' : releaseDone u u.hcore u.run.wslot u.work.next 4 = true := by
        rw [hu.stays.hcore, hu.stays.run, hk, releaseDone_congr hreq hfab]; exact hr
      have hdone := reportDone_counts (d := st.val) (hh ▸ hd) hr' (show u.task i = some t by unfold State.task; rw [hk]; exact ht)
        (armedTask_ready harm) (hblk.symm ▸ htook)
      have := Stays.status (d := st) (st := 0) (n := 1) (hu.stays.trans (.doneHere ..))
        (he.trans ((if_neg (ne_true_of_eq_false (congrArg (!·) hyes))).trans ((if_neg (ne_true_of_eq_false (congrArg (!·) htook))).trans
          (congrArg Host.Outcome.next hdone)))) rfl
      unfold State.doneHere State.given at this
      rw [hk, hh] at this
      exact this
  case launch =>
    have hv := ReadsOnly.devUses s [⟨s.hwarp.ctx, va, 64, false⟩]
    refine ⟨fun hq => Stays.status (.refl s) (wlaunch_full hrep rfl hal hcheck hq) rfl, fun hq => ?_⟩
    have := Stays.status (hv.stays.trans (.enqueues ..)) (wlaunch_room (st := st) hrep rfl hal hcheck rfl hq) rfl
    obtain ⟨-, -, -, hk, -⟩ := hv.same
    unfold State.enqueues at this
    rw [hk] at this
    exact this

end Sys2Proof.Machine
/-! PROOF. `xprobe`, `xinfo` and the residency words complete with their status (09_extents.md R192 to R194). -/
namespace Sys2Proof.Machine

/-! ### Moves of an extent leave the issuing split where it stands -/

theorem Stays.acceptSlide (s : State) (d : Desc) (noff k op : Nat) : Stays s (acceptSlide s d noff k op) := .beside rfl rfl rfl

theorem Stays.demote (s : State) (d : Desc) (part k op : Nat) : Stays s (demote s d part k op).2 := by
  unfold Machine.demote
  split
  · split
    · exact .refl s
    · exact .acceptSlide ..
  · exact .refl s

theorem Stays.demoteAll {t : State} {l : List LiveExt} {s : State} (h : demoteAll s l = some t) : Stays s t := by
  induction l generalizing s with
  | nil => cases h; exact .refl _
  | cons e r ih =>
    simp only [Machine.demoteAll] at h
    split at h
    · split at h
      · cases h
      · exact (Stays.acceptSlide ..).trans (ih h)
    · cases h

theorem Stays.roomByDemotion {s t : State} {d : Desc} {noff : Nat} {rest done : List LiveExt}
    (h : roomByDemotion s d done rest = some (noff, t)) : Stays s t := by
  induction rest generalizing done with
  | nil =>
    unfold Machine.roomByDemotion at h
    split at h
    · obtain ⟨v, hv, he⟩ := Option.map_eq_some_iff.1 h
      cases he
      exact .demoteAll hv
    · cases h
  | cons e r ih =>
    unfold Machine.roomByDemotion at h
    split at h
    · obtain ⟨v, hv, he⟩ := Option.map_eq_some_iff.1 h
      cases he
      exact .demoteAll hv
    · exact ih h

theorem Stays.promote (s : State) (d : Desc) (k op : Nat) (room : Bool) : Stays s (promote s d k op room).2 := by
  unfold Machine.promote
  split
  · rename_i h
    split
    · exact .refl s
    · exact (Stays.roomByDemotion h).trans (.acceptSlide ..)
  · exact .refl s

theorem Stays.patch64 (s : State) (pa lo n v : Nat) : Stays s (patch64 s pa lo n v) := .beside rfl rfl rfl

theorem Stays.fillEcb (s : State) (core ctx va : Nat) : Stays s (fillEcb s core ctx va) := by
  unfold Machine.fillEcb
  split
  · exact .refl s
  · split
    · exact .updCore _ _ (fun _ => rfl) (fun _ => rfl)
    · exact .refl s

/-! ### Handles -/

theorem badHandle_of_handle {s : State} {sb : SReg} {e : Desc} (h : s.handle sb = some e) : s.badHandle sb = false := by
  unfold State.handle handleDesc at h
  unfold State.badHandle handleCorrupt
  split at h
  · rename_i hw; rw [hw]; rfl
  · cases h

/-! ### What the residency words answer -/

section
variable {i : Instr} {s : State} {d sb : SReg} {x : Nat × State} (hrep : s.hblk.isReplay = false) (hb : s.badHandle sb = false)
  (he : exec i s = residencyWord s d sb x) (hn : wordsOf i = 1)
include hrep hb he hn

theorem residency_completesVia {st : Nat} {u : State} (hx : x = (st, u)) (hu : Stays s u) :
    CompletesVia i s (u.updHere (·.setStatus d.val st)) := by
  subst hx
  refine hu.status (he.trans ?_) hn.symm
  exact (if_neg (ne_true_of_eq_false hrep)).trans (if_neg (ne_true_of_eq_false hb))

theorem residency_completes {st : Nat} (hx : x = (st, s)) :
    Completes i s (fun w => (w.setS d.val (BitVec.ofNat 32 st)).setScc (decide (st = 0))) := by
  subst hx
  refine updHere_completes (g := (·.setStatus d.val st)) (he.trans ?_) hn.symm rfl rfl
  exact (if_neg (ne_true_of_eq_false hrep)).trans (if_neg (ne_true_of_eq_false hb))

end

/-! ### Probes and fields -/

theorem xprobe_none {s : State} {d sb : SReg} {x : Option Word} {a : Nat} (ha : addOff (s.sbase sb) (litDisp x) = a)
    (h : 2 ^ 56 ≤ a ∨ checkedWalk s (protOf s s.hcore s.hwarp.ctx a) = .none) :
    Completes (.xprobe d sb x) s (fun w => (w.setS d.val 0xFFFFFFFF).setScc false) := by
  have hw : (if 2 ^ 56 ≤ a then Walk.none else checkedWalk s (protOf s s.hcore s.hwarp.ctx a)) = .none := by
    split
    · rfl
    · exact h.resolve_left (by assumption)
  subst ha
  refine updHere_completes ((exec_xprobe s).trans ?_) rfl rfl rfl
  unfold execXprobe
  dsimp only
  rw [hw]
  rfl

theorem xprobe_found {s : State} {d sb : SReg} {x : Option Word} {a : Nat} {e : Desc} (ha : addOff (s.sbase sb) (litDisp x) = a)
    (hl : a < 2 ^ 56) (h : checkedWalk s (protOf s s.hcore s.hwarp.ctx a) = .found e) :
    CompletesVia (.xprobe d sb x) s ((fillEcb s s.hcore s.hwarp.ctx a).updHere
      (fun w => (w.setS d.val (BitVec.ofNat 32 e.ent.xid)).setScc true)) := by
  have hw : (if 2 ^ 56 ≤ a then Walk.none else checkedWalk s (protOf s s.hcore s.hwarp.ctx a)) = .found e := by
    rw [if_neg (Nat.not_le.2 hl), h]
  subst ha
  refine Stays.completesVia ((Stays.fillEcb ..).trans (.updHere _ rfl rfl)) ((exec_xprobe s).trans ?_) rfl
  unfold execXprobe
  dsimp only
  rw [hw]
  rfl

theorem xinfo_none {s : State} {d sb : SReg} {sel : Fin 8} (hb : s.badHandle sb = false) (hh : s.handle sb = none) :
    Completes (.xinfo d sb sel) s (fun w => (w.setS d.val 0).setScc false) := by
  refine updHere_completes ((exec_xinfo s).trans ?_) rfl rfl rfl
  unfold execXinfo
  rw [hh]
  exact if_neg (ne_true_of_eq_false hb)

theorem xinfo_some {s : State} {d sb : SReg} {sel : Fin 8} {e : Desc} (hh : s.handle sb = some e) :
    Completes (.xinfo d sb sel) s (fun w => (w.setS d.val (BitVec.ofNat 32
      (infoField { e with pl := portPlace s (entryPort (coreCluster s.hcore) e.ent.base) e } sel.val))).setScc true) := by
  refine updHere_completes ((exec_xinfo s).trans ?_) rfl rfl rfl
  unfold execXinfo
  rw [hh]
  rfl

/-! ### The statuses of a pin and of a demotion -/

section
variable {s : State} {e : Desc}

theorem hpinOf_fixed (hm : e.movable = false) : hpinOf s (some e) = (2, s) := if_pos (by rw [hm]; rfl)
theorem hdemoteOf_fixed (part : Nat) (hm : e.movable = false) : hdemoteOf s (some e) part = (2, s) := if_pos (by rw [hm]; rfl)

variable (hm : e.movable = true)
include hm

theorem hpinOf_slides (hs : sliding s e = true) : hpinOf s (some e) = (3, s) :=
  (if_neg (by rw [hm]; decide)).trans (if_pos hs)
theorem hdemoteOf_slides (part : Nat) (hs : sliding s e = true) : hdemoteOf s (some e) part = (3, s) :=
  (if_neg (by rw [hm]; decide)).trans (if_pos hs)

variable (hs : sliding s e = false)
include hs

theorem hpinOf_pinned (hp : e.pin = true) : hpinOf s (some e) = (0, s) :=
  (if_neg (by rw [hm]; decide)).trans ((if_neg (ne_true_of_eq_false hs)).trans (if_pos hp))

variable (hp : e.pin = false)
include hp

theorem hpinOf_overQuota (hq : mget s.mem.quota 0 e.ent.ctx < pinnedBytes s e.ent.ctx + e.ent.len) : hpinOf s (some e) = (5, s) :=
  (if_neg (by rw [hm]; decide)).trans ((if_neg (ne_true_of_eq_false hs)).trans ((if_neg (ne_true_of_eq_false hp)).trans (if_pos hq)))

variable (hq : pinnedBytes s e.ent.ctx + e.ent.len ≤ mget s.mem.quota 0 e.ent.ctx)
include hq

theorem hpinOf_here (hi : e.inHost = false) : hpinOf s (some e) = (0, setPin s e true) :=
  (if_neg (by rw [hm]; decide)).trans ((if_neg (ne_true_of_eq_false hs)).trans ((if_neg (ne_true_of_eq_false hp)).trans
    ((if_neg (Nat.not_lt.2 hq)).trans (if_neg (ne_true_of_eq_false hi)))))

theorem hpinOf_promotes (hi : e.inHost = true) {t : State} (ht : promote s e 7 0 true = (0, t)) :
    hpinOf s (some e) = (0, setPin t e true) := by
  refine (if_neg (by rw [hm]; decide)).trans ((if_neg (ne_true_of_eq_false hs)).trans ((if_neg (ne_true_of_eq_false hp)).trans
    ((if_neg (Nat.not_lt.2 hq)).trans ((if_pos hi).trans ?_))))
  rw [ht]
  rfl

omit hp hq in
theorem hdemoteOf_still (part : Nat) : hdemoteOf s (some e) part =
    if e.inHost then (0, s) else if e.pin then (4, s) else demote s e part 7 0 :=
  (if_neg (by rw [hm]; decide)).trans (if_neg (ne_true_of_eq_false hs))

end

/-- Settles O22: the status and the effect of each residency word by its cases, every effect leaving the split in place. -/
theorem extentAndResidencyWords : Obligations.ExtentAndResidencyWords := by
  refine ⟨fun s d sb x sel => ⟨xprobe_none rfl, fun e => xprobe_found rfl, xinfo_none, fun e => xinfo_some⟩,
    fun s d sb sel hrep => ⟨fun hb hh => ?_, fun e hh => ?_⟩⟩
  · have hpin : hpinOf s (s.handle sb) = (1, s) := by rw [hh]; rfl
    have hdem : hdemoteOf s (s.handle sb) (effPart s s.hblk.region) = (1, s) := by rw [hh]; rfl
    refine ⟨residency_completes hrep hb (exec_hpin s) rfl hpin, residency_completes hrep hb (exec_hdemote s) rfl hdem,
      residency_completes hrep hb (exec_hprio s) rfl ?_, residency_completes hrep hb (exec_hunpin s) rfl ?_⟩ <;> rw [hh]
  · have hb := badHandle_of_handle hh
    have ep : exec (.hpin d sb) s = residencyWord s d sb (hpinOf s (some e)) := hh ▸ exec_hpin s
    have ed : exec (.hdemote d sb) s = residencyWord s d sb (hdemoteOf s (some e) (effPart s s.hblk.region)) := hh ▸ exec_hdemote s
    have pin {st : Nat} (h : hpinOf s (some e) = (st, s)) := residency_completes hrep hb ep rfl h
    have pinVia {st : Nat} {u : State} (h : hpinOf s (some e) = (st, u)) (hu : Stays s u) := residency_completesVia hrep hb ep rfl h hu
    have dem {st : Nat} (h : hdemoteOf s (some e) (effPart s s.hblk.region) = (st, s)) := residency_completes hrep hb ed rfl h
    have demVia {st : Nat} {u : State} (h : hdemoteOf s (some e) (effPart s s.hblk.region) = (st, u)) (hu : Stays s u) :=
      residency_completesVia hrep hb ed rfl h hu
    refine ⟨fun hm => ⟨pin (hpinOf_fixed hm), dem (hdemoteOf_fixed _ hm)⟩,
      fun hm hs => ⟨pin (hpinOf_slides hm hs), dem (hdemoteOf_slides hm _ hs)⟩, fun hm hs => ?still, ?prio, ?unpin, ?unpinAlias⟩
    case still =>
      have hd := hdemoteOf_still hm hs (effPart s s.hblk.region)
      refine ⟨fun h => pin (hpinOf_pinned hm hs h), fun h hi => dem (hd.trans ((if_neg (ne_true_of_eq_false hi)).trans (if_pos h))),
        fun hi => dem (hd.trans (if_pos hi)), fun h hq => pin (hpinOf_overQuota hm hs h hq),
        fun h hq => ⟨fun hi => pinVia (hpinOf_here hm hs h hq hi) (.patch64 ..), fun hi t ht => ?_⟩, fun hi h st t ht => ?_⟩
      · refine pinVia (hpinOf_promotes hm hs h hq hi ht) (Stays.trans ?_ (.patch64 ..))
        have := Stays.promote s e 7 0 true
        rwa [ht] at this
      · refine demVia (hd.trans ((if_neg (ne_true_of_eq_false hi)).trans ((if_neg (ne_true_of_eq_false h)).trans ht))) ?_
        have := Stays.demote s e (effPart s s.hblk.region) 7 0
        rwa [ht] at this
    case prio => exact residency_completesVia hrep hb (exec_hprio s) rfl (by rw [hh]) (.patch64 ..)
    case unpin => exact fun ha => residency_completesVia hrep hb (exec_hunpin s) rfl (by simp only [hh, ha]; rfl) (.patch64 ..)
    case unpinAlias => exact fun ha => residency_completes hrep hb (exec_hunpin s) rfl (by simp only [hh, ha]; rfl)

end Sys2Proof.Machine
/-! PROOF. `pf` and `cinv`: what they leave as it was (07_memory.md R159, R160). -/
namespace Sys2Proof.Machine

/-- What a fill or a drop in one core's L1 may have changed: that L1, and the records of home, of the channels and of free values. -/
structure OwnL1 (c : Nat) (s u : State) : Prop where
  bytes : u.mem.bytes = s.mem.bytes
  l2 : u.mem.l2 = s.mem.l2
  reqs : u.mem.reqs = s.mem.reqs
  warps : u.warps = s.warps
  work : u.work = s.work
  fab : u.fab = s.fab
  plat : u.plat = s.plat
  focus : u.focus = s.focus
  others : ∀ k, k ≠ c → u.core k = s.core k
  core : { u.core c with l1 := [] } = { s.core c with l1 := [] }

theorem OwnL1.refl (c : Nat) (s : State) : OwnL1 c s s := ⟨rfl, rfl, rfl, rfl, rfl, rfl, rfl, rfl, fun _ _ => rfl, rfl⟩

theorem OwnL1.trans {c : Nat} {s u v : State} (h : OwnL1 c s u) (k : OwnL1 c u v) : OwnL1 c s v :=
  ⟨k.bytes.trans h.bytes, k.l2.trans h.l2, k.reqs.trans h.reqs, k.warps.trans h.warps, k.work.trans h.work, k.fab.trans h.fab,
    k.plat.trans h.plat, k.focus.trans h.focus, fun j hj => (k.others j hj).trans (h.others j hj), k.core.trans h.core⟩

theorem OwnL1.foldl {α : Type} {c : Nat} {f : State → α → State} (hf : ∀ s x, OwnL1 c s (f s x)) (l : List α) (s : State) :
    OwnL1 c s (l.foldl f s) := by
  induction l generalizing s with
  | nil => exact .refl c s
  | cons x r ih => exact (hf s x).trans (ih _)

theorem OwnL1.ofReads {s u : State} (c : Nat) (h : ReadsOnly s u) : OwnL1 c s u := by
  obtain ⟨o, dir, e, ch, up, rfl⟩ := h
  exact ⟨rfl, rfl, rfl, rfl, rfl, rfl, rfl, rfl, fun _ _ => rfl, rfl⟩

theorem OwnL1.free (c : Nat) (s : State) (n : Nat) : OwnL1 c s { s with free := n } :=
  ⟨rfl, rfl, rfl, rfl, rfl, rfl, rfl, rfl, fun _ _ => rfl, rfl⟩

theorem OwnL1.updL1 (c : Nat) (s : State) (f : Core → SMap Byte) : OwnL1 c s (s.updCore c (fun k => { k with l1 := f k })) := by
  refine ⟨rfl, rfl, rfl, rfl, rfl, rfl, rfl, rfl, fun k hk => ?_, ?_⟩
  · rw [State.core_updCore, if_neg (Ne.symm hk)]
  · rw [State.core_updCore, if_pos rfl]

/-- A change of one L1 leaves the issuing split where it stands. -/
theorem OwnL1.stays {c : Nat} {s u : State} (h : OwnL1 c s u) : Stays s u := by
  have hslot (k i : Nat) : (u.core k).slot i = (s.core k).slot i := by
    by_cases hk : k = c
    · subst hk
      have hc := congrArg (fun x : Core => x.slot i) h.core
      exact hc
    · rw [h.others k hk]
  have hr : u.run = s.run := by simp only [State.run, h.focus, hslot]
  have hh : u.hwarp = s.hwarp := by simp only [State.hwarp, State.hcore, h.focus, hr, State.warp, h.warps]
  exact ⟨h.focus, hr, by rw [hh], by rw [hh]⟩

theorem OwnL1.makeRoom (s : State) (c line : Nat) : OwnL1 c s (makeRoom s c line) := by
  unfold Machine.makeRoom
  dsimp only
  split
  · exact .refl c s
  · split
    · exact .refl c s
    · split
      · exact (OwnL1.updL1 c s _).trans (.free ..)
      · exact .refl c s

theorem OwnL1.fillL1 (s : State) (c : Nat) (d : Desc) (a : Nat) (src : Nat → Byte × Bool) : OwnL1 c s (fillL1 s c d a src) := by
  unfold Machine.fillL1
  dsimp only
  split
  · exact (OwnL1.makeRoom ..).trans (.updL1 ..)
  · exact .refl c s

/-- An access to memory that has to wait wakes a channel or notes an absent place. -/
theorem ReadsOnly.memWait {s u : State} {port : Nat} {d : Desc} {va : Nat} {wr : Bool} (h : memWait s port d va wr = some u) :
    ReadsOnly s u := by
  have hl : memHold s port d va wr ≠ .line := by
    unfold memHold
    dsimp only
    (repeat' split) <;> decide
  unfold Machine.memWait heldState at h
  split at h
  · cases h
  · cases h; exact .refl _
  · rename_i hm; exact absurd hm hl
  · cases h; exact .touchChan ..
  · cases h; exact .noteUpset ..

theorem OwnL1.prefetchSector (s : State) (c : Nat) (d : Desc) (sec : Nat) : OwnL1 c s (prefetchSector s c d sec) := by
  unfold Machine.prefetchSector
  dsimp only
  split
  · exact .refl c s
  · split
    · rename_i h
      split at h
      · exact .ofReads c (.memWait h)
      · cases h
    · exact (OwnL1.ofReads c ((ReadsOnly.touchByte ..).trans (.recallFrom ..))).trans (.fillL1 ..)

theorem OwnL1.prefetchLane (s : State) (c ctx va : Nat) : OwnL1 c s (prefetchLane s c ctx va) := by
  unfold Machine.prefetchLane
  split
  · dsimp only
    split
    · exact .refl c s
    · split
      · exact .foldl (fun _ _ => .prefetchSector ..) _ s
      · exact .refl c s
  · exact .refl c s

/-! ### Invalidation -/

section
variable {s : State} {sb : SReg} {vo : VReg} {x : Option Word} (hr : s.inRange (voRegs vo) = true)

/-- One lane's line dropped from the L1 of the issuing core, where the lane's check finds an extent. -/
def State.invalidates (s : State) (va : Nat → Nat) (t : State) (i : Nat) : State :=
  match coreCheck s s.hcore s.hwarp.ctx (va i) 1 0 with
  | .ok e => t.updCore s.hcore (fun k => dropLine k s.hwarp.ctx (canonical e (va i)))
  | _ => t

theorem OwnL1.invalidates (s : State) (va : Nat → Nat) (t : State) (i : Nat) : OwnL1 s.hcore t (s.invalidates va t i) := by
  unfold State.invalidates
  split
  · exact .updL1 ..
  · exact .refl ..

theorem invalidates_mem (s : State) (va : Nat → Nat) (t : State) (i : Nat) :
    (s.invalidates va t i).mem = t.mem ∧ (s.invalidates va t i).free = t.free := by
  unfold State.invalidates
  split <;> exact ⟨rfl, rfl⟩

theorem invalidates_l1_sub (s : State) (va : Nat → Nat) (t : State) (i : Nat) :
    ∀ k ∈ ((s.invalidates va t i).core s.hcore).l1, k ∈ (t.core s.hcore).l1 := by
  intro k hk
  unfold State.invalidates at hk
  split at hk
  · rw [State.core_updCore, if_pos rfl] at hk
    exact (List.mem_filter.1 hk).1
  · exact hk

theorem invalidates_l1_gone {s : State} {va : Nat → Nat} {i : Nat} {e : EcbEntry} (t : State)
    (he : coreCheck s s.hcore s.hwarp.ctx (va i) 1 0 = .ok e) :
    ∀ k ∈ ((s.invalidates va t i).core s.hcore).l1, k.1 / 128 ≠ lineKey s.hwarp.ctx (canonical e (va i)) := by
  intro k hk
  unfold State.invalidates at hk
  rw [he] at hk
  simp only [State.core_updCore, if_true, dropLine, List.mem_filter, bne_iff_ne, ne_eq] at hk
  exact hk.2

/-- A line that one lane drops stays dropped. -/
theorem foldl_invalidates_gone {s : State} {va : Nat → Nat} {i : Nat} {e : EcbEntry} {l : List Nat} {t : State} (hi : i ∈ l)
    (he : coreCheck s s.hcore s.hwarp.ctx (va i) 1 0 = .ok e) :
    ∀ k ∈ ((l.foldl (s.invalidates va) t).core s.hcore).l1, k.1 / 128 ≠ lineKey s.hwarp.ctx (canonical e (va i)) := by
  have keeps (l : List Nat) (t : State) : ∀ k ∈ ((l.foldl (s.invalidates va) t).core s.hcore).l1, k ∈ (t.core s.hcore).l1 := by
    induction l generalizing t with
    | nil => exact fun k hk => hk
    | cons j r ih => exact fun k hk => invalidates_l1_sub s va t j k (ih _ k hk)
  induction l generalizing t with
  | nil => cases hi
  | cons j r ih =>
    obtain rfl | hi := List.mem_cons.1 hi
    · exact fun k hk => invalidates_l1_gone t he k (keeps r _ k hk)
    · exact ih hi

theorem foldl_invalidates_mem {s : State} {va : Nat → Nat} (l : List Nat) (t : State) :
    (l.foldl (s.invalidates va) t).mem = t.mem ∧ (l.foldl (s.invalidates va) t).free = t.free := by
  induction l generalizing t with
  | nil => exact ⟨rfl, rfl⟩
  | cons j r ih =>
    obtain ⟨hm, hf⟩ := ih (s.invalidates va t j)
    obtain ⟨hm', hf'⟩ := invalidates_mem s va t j
    exact ⟨hm.trans hm', hf.trans hf'⟩

include hr

theorem cinv_clean (hc : (lanesOf s.em).any (fun i => laneCorrupt s s.hcore s.hwarp.ctx (s.gaddr sb vo (litDisp x) i) 0) = false) :
    exec (.cinv sb vo x) s =
      .next (((lanesOf s.em).foldl (s.invalidates (s.gaddr sb vo (litDisp x))) s).advance (litWords x)) := by
  refine (exec_cinv s).trans ((if_neg (by rw [hr]; decide)).trans ((if_neg (ne_true_of_eq_false hc)).trans ?_))
  refine congrArg (fun f => Host.Outcome.next ((List.foldl f s (lanesOf s.em)).advance (litWords x))) ?_
  funext t i
  unfold State.invalidates
  cases h : coreCheck s s.hcore s.hwarp.ctx (s.gaddr sb vo (litDisp x) i) 1 0 <;> rfl

theorem cinv_corrupt (hc : (lanesOf s.em).any (fun i => laneCorrupt s s.hcore s.hwarp.ctx (s.gaddr sb vo (litDisp x) i) 0) = true) :
    exec (.cinv sb vo x) s = .next (deviceError s) :=
  (exec_cinv s).trans ((if_neg (by rw [hr]; decide)).trans (if_pos hc))

end

/-! ### Prefetch -/

section
variable {s : State} {sb : SReg} {vo : VReg} {sc : Fin 8} {x : Option Word} (hr : s.inRange (voRegs vo) = true)

/-- The visited lanes that a prefetch asks for: those whose offset is not poisoned. -/
def State.asksFor (s : State) (vo : VReg) : List Nat := (lanesOf s.em).filter (fun i => !laneIn (s.poisonLanes (voRegs vo) s.em) i)

theorem mem_asksFor {l : Nat} : l ∈ s.asksFor vo ↔ l < 32 ∧ s.em.getLsbD l = true ∧ (s.poisonLanes (voRegs vo) s.em).getLsbD l = false := by
  unfold State.asksFor
  rw [List.mem_filter, mem_lanesOf, laneIn, Bool.not_eq_true', and_assoc]

include hr

theorem pf_clean (hc : (s.asksFor vo).any (fun i => laneCorrupt s s.hcore s.hwarp.ctx (s.gaddr sb vo (litDisp x) i) permR) = false) :
    exec (.pf sb vo sc x) s = .next ((if sc.val = 0 then
      (s.asksFor vo).foldl (fun t i => prefetchLane t s.hcore s.hwarp.ctx (s.gaddr sb vo (litDisp x) i)) s else s).advance (litWords x)) :=
  (exec_pf s).trans ((if_neg (by rw [hr]; decide)).trans (if_neg (ne_true_of_eq_false hc)))

theorem pf_corrupt (hc : (s.asksFor vo).any (fun i => laneCorrupt s s.hcore s.hwarp.ctx (s.gaddr sb vo (litDisp x) i) permR) = true) :
    exec (.pf sb vo sc x) s = .next (deviceError s) :=
  (exec_pf s).trans ((if_neg (by rw [hr]; decide)).trans (if_pos hc))

end

/-- Settles O18. -/
theorem prefetchAndInvalidate : Obligations.PrefetchAndInvalidate := by
  intro s sb vo sc x hr va asked ownL1
  have own {u : State} (h : OwnL1 s.hcore s u) : ownL1 u :=
    ⟨h.bytes, h.l2, h.reqs, h.warps, h.work, h.fab, h.plat, h.focus, h.others, h.core⟩
  refine ⟨fun hc => ?_, fun ⟨l, ha, hl⟩ => ?_, fun hc => ?_, fun ⟨l, h32, hem, hl⟩ => ?_⟩
  · have hclean : (s.asksFor vo).any (fun i => laneCorrupt s s.hcore s.hwarp.ctx (s.gaddr sb vo (litDisp x) i) permR) = false :=
      List.any_eq_false.2 fun l hl => ne_true_of_eq_false (hc l (mem_asksFor.1 hl))
    by_cases h0 : sc.val = 0
    · have hu := OwnL1.foldl (fun t i => OwnL1.prefetchLane t s.hcore s.hwarp.ctx (va i)) (s.asksFor vo) s
      refine ⟨_, own hu, hu.stays.completesVia ((pf_clean hr hclean).trans ?_) rfl, fun h => absurd (Fin.ext h0) h⟩
      rw [if_pos h0]
      rfl
    · refine ⟨s, own (.refl ..), (Stays.refl s).completesVia ((pf_clean hr hclean).trans ?_) rfl, fun _ => rfl⟩
      rw [if_neg h0]
      rfl
  · exact pf_corrupt hr (List.any_eq_true.2 ⟨l, mem_asksFor.2 ha, hl⟩)
  · have hclean : (lanesOf s.em).any (fun i => laneCorrupt s s.hcore s.hwarp.ctx (s.gaddr sb vo (litDisp x) i) 0) = false :=
      List.any_eq_false.2 fun l hl => ne_true_of_eq_false (hc l ((mem_lanesOf ..).1 hl).1 ((mem_lanesOf ..).1 hl).2)
    have hu : OwnL1 s.hcore s ((lanesOf s.em).foldl (s.invalidates va) s) := .foldl (fun t i => .invalidates s va t i) _ s
    obtain ⟨hm, hf⟩ := foldl_invalidates_mem (s := s) (va := va) (lanesOf s.em) s
    exact ⟨_, own hu, hm, hf, hu.stays.completesVia (cinv_clean hr hclean) rfl,
      fun l h32 hem e he => foldl_invalidates_gone ((mem_lanesOf ..).2 ⟨h32, hem⟩) he⟩
  · exact cinv_corrupt hr (List.any_eq_true.2 ⟨l, (mem_lanesOf ..).2 ⟨h32, hem⟩, hl⟩)

end Sys2Proof.Machine
/-! PROOF. The matrix words join the queue of their core (19_matrix.md R337 to R349). -/
namespace Sys2Proof.Machine

theorem enterMop_eq (s : State) (o : MOp) : s.enterMop o = (s.entered o).advance 1 := rfl

theorem Stays.setWork (s : State) (w : Work) : Stays s (s.setWork w) := .beside rfl rfl rfl

theorem Stays.entered (s : State) (o : MOp) : Stays s (s.entered o) :=
  (Stays.setWork s _).trans (.updHere (s.setWork _) (f := fun w => { w with tl := w.tl + 1 }) rfl rfl)

/-- A matrix word that joins the queue completes. -/
theorem entered_completesVia {i : Instr} {s : State} {o : MOp} (he : exec i s = .next (s.enterMop o)) (hn : wordsOf i = 1) :
    CompletesVia i s (s.entered o) :=
  (Stays.entered s o).completesVia he hn.symm

/-! ### Multiplications -/

theorem pairCheck_ok {s : State} {o : Mma} {t : Nat} {p : Nat × Image} (h : pairCheck s o t = .ok p) : pairCore s true = some p.1 := by
  unfold pairCheck at h
  unfold pairCore
  cases hb : pairOf s with
  | error r => simp only [hb] at h; cases h
  | ok b =>
    simp only [hb] at h
    split at h
    · cases h
    · split at h
      · rename_i hi
        cases h
        split at hi
        · cases hi
        · rename_i he; exact (if_pos rfl).trans (if_neg he)
      · cases h

theorem nc_single (o : Mma) : o.nc false = o.n := rfl
theorem nc_pair (o : Mma) : o.nc true = o.n / 2 := rfl

section
variable {i : Instr} {s : State} {fmt : Nat} {t : Fin 4} {sa sw sk : SReg} {img : Image} {args : List Word}
  (ha : args = [s.hwarp.s sa.val, s.hwarp.s (sa.val + 1), s.hwarp.s (sa.val + 2), s.hwarp.s (sa.val + 3), s.hwarp.s sw.val, s.hwarp.s sk.val])
  (hn : wordsOf i = 1) (hv : mmaVerdict s (parseMma fmt args) = .ok)
include ha hn hv

theorem mma_enters (he : exec i s = mmaWord s fmt t sa sw sk false) (hh : matHeld s s.hcore none s.hwarp = false)
    (hi : mmaImage (s.core s.hcore) (parseMma fmt args) (parseMma fmt args).n = some img)
    (hok : mmaOk (parseMma fmt args) false (s.hwarp.s sk.val) = true) :
    CompletesVia i s (s.entered { s.newMop (0xC0 + fmt) t.val 0 args with img := some img }) := by
  subst ha
  refine entered_completesVia (he.trans ?_) hn
  unfold mmaWord
  refine (if_neg (ne_true_of_eq_false hh)).trans ?_
  dsimp only
  rw [hok, if_pos rfl, nc_single, hi, hv]
  rfl

theorem mma_entersPair {p : Nat × Image} (he : exec i s = mmaWord s fmt t sa sw sk true) (hh : matHeld s s.hcore (some p.1) s.hwarp = false)
    (hok : mmaOk (parseMma fmt args) true (s.hwarp.s sk.val) = true)
    (hi : mmaImage (s.core s.hcore) (parseMma fmt args) ((parseMma fmt args).n / 2) = some img)
    (hp : pairCheck s (parseMma fmt args) t.val = .ok p) :
    CompletesVia i s (s.entered { s.newMop (0xC0 + fmt) t.val 0 args with img := some img, partner := some p.1, pimg := some p.2 }) := by
  subst ha
  refine entered_completesVia (he.trans ?_) hn
  unfold mmaWord
  rw [pairCheck_ok hp]
  refine (if_neg (ne_true_of_eq_false hh)).trans ?_
  dsimp only
  rw [hok, if_pos rfl, nc_pair, hi, hp, hv]
  rfl

end

/-! ### Weight loads and tile words -/

/-- The operands by which a weight load's source in global memory is known again. -/
def loadedFrom (src : Eng) (args : List Word) : Option (List Word) :=
  match src with
  | .glob _ => some args
  | _ => none

section
variable {i : Instr} {s : State} (hh : matHeld s s.hcore none s.hwarp = false) (hn : wordsOf i = 1)
include hh hn

theorem wbld_enters {form : Nat} {sa sw sk : SReg} {src : Eng} (he : exec i s = wbldWord s form sa sw sk)
    (hp : parseEng (s.hwarp.pair sa.val).toNat = some src)
    (hok : wbldOk (some src) (wbldImage form (s.hwarp.s sw.val) (s.hwarp.s sk.val)) (s.hwarp.s sk.val) = true)
    (hv : wbldVerdict s src (wbldImage form (s.hwarp.s sw.val) (s.hwarp.s sk.val)) (s.hwarp.s (sk.val + 1)).toNat
      (s.hwarp.pair (sk.val + 2)).toNat = .ok) {args : List Word} {loaded : Image}
    (ha : args = [s.hwarp.s sa.val, s.hwarp.s (sa.val + 1), s.hwarp.s (sk.val + 1), s.hwarp.s (sk.val + 2), s.hwarp.s (sk.val + 3)])
    (hl : loaded = { wbldImage form (s.hwarp.s sw.val) (s.hwarp.s sk.val) with from' := loadedFrom src args }) :
    CompletesVia i s ((s.updCore s.hcore (fun c => enterImage c loaded)).entered
      { s.newMop (0xC5 + form) 0 0 args with img := some loaded }) := by
  subst ha hl
  refine ((Stays.updCore s s.hcore (f := fun c => enterImage c _) (fun _ => rfl) (fun _ => rfl)).trans (.entered ..)).completesVia (he.trans ?_) hn.symm
  refine (if_neg (ne_true_of_eq_false hh)).trans ?_
  dsimp only
  rw [hp, hok, if_pos rfl]
  dsimp only
  rw [hv]
  rfl

omit hn in
theorem tzero_enters (t : Fin 4) : CompletesVia (.tzero t) s (s.entered (s.newMop 0xC8 t.val 0 [])) :=
  entered_completesVia ((exec_tzero s).trans (if_neg (ne_true_of_eq_false hh))) rfl

omit hn in
theorem tadd_enters (t u : Fin 4) : CompletesVia (.tadd t u) s (s.entered (s.newMop 0xCB t.val u.val [])) :=
  entered_completesVia ((exec_tadd s).trans (if_neg (ne_true_of_eq_false hh))) rfl

omit hn in
theorem tmov_enters {t : Fin 4} {sa : SReg} (h2 : (s.hwarp.s sa.val).toNat % 2 = 0) (hl : (s.hwarp.s sa.val).toNat < 2 ^ 13)
    (hr : s.inRange [(s.hwarp.s sa.val).toNat % 128, (s.hwarp.s sa.val).toNat % 128 + 1] = true) :
    CompletesVia (.tmov t sa) s (s.entered (s.newMop 0xC9 t.val 0 [s.hwarp.s sa.val])) := by
  have h0 : bitsOf (s.hwarp.s sa.val).toNat 0 7 = (s.hwarp.s sa.val).toNat % 128 := by simp only [bitsOf]; omega
  have hz : bitsOf (s.hwarp.s sa.val).toNat 13 19 = 0 := by simp only [bitsOf]; omega
  refine entered_completesVia ((exec_tmov s).trans ?_) rfl
  refine (if_neg (ne_true_of_eq_false hh)).trans ((if_neg ?_).trans (if_neg ?_))
  · rw [h0, hz]; omega
  · rw [h0, hr]; decide

/-- Which operands of `tst` and `tld` are legal (19_matrix.md R348, R349). -/
def tileLegal (code off c stride : Nat) : Bool :=
  decide (off < 2 ^ 18) && decide (stride < 2 ^ 18) && bitsOf c 19 13 == 0 && decide (bitsOf c 7 6 + (bitsOf c 13 6 + 1) ≤ 64) &&
    (if code = 0xCC then bitsOf c 0 7 == 0 else decide (bitsOf c 3 3 ≤ 4) && decide (bitsOf c 0 3 ≤ 5) && (bitsOf c 0 3 != 0 || bitsOf c 3 4 == 0))

theorem tileRows_enters {code : Nat} {t : Fin 4} {sa sk : SReg} {off c stride fmt rows : Nat} (he : exec i s = tileRows s code t sa sk)
    (ho : (s.hwarp.s sa.val).toNat = off) (hc : (s.hwarp.s sk.val).toNat = c) (hs : (s.hwarp.s (sk.val + 1)).toNat = stride)
    (hl : tileLegal code off c stride = true) (hf : bitsOf c 0 3 = fmt)
    (hr : bitsOf c 13 6 + 1 = rows) (ha : rowsAlign off stride (tstBytes fmt) = none)
    (hb : rowsLimit s off stride rows (64 * tstBytes fmt) = none) :
    CompletesVia i s (s.entered (s.newMop code t.val 0 [s.hwarp.s sa.val, s.hwarp.s sk.val, s.hwarp.s (sk.val + 1), s.hwarp.s 63])) := by
  subst ho hc hs hf hr
  refine entered_completesVia (he.trans ?_) hn
  refine (if_neg (ne_true_of_eq_false hh)).trans ((if_neg ?_).trans ?_)
  · exact ne_true_of_eq_false (congrArg (!·) hl)
  · rw [ha, Option.orElse_none, hb]

end

theorem tileLegal_of {code off c stride : Nat} (h : off < 2 ^ 18 ∧ stride < 2 ^ 18 ∧ c / 2 ^ 19 = 0 ∧ c / 2 ^ 7 % 64 + (c / 2 ^ 13 % 64 + 1) ≤ 64)
    (hf : if code = 0xCC then c % 2 ^ 7 = 0 else c / 2 ^ 3 % 8 ≤ 4 ∧ c % 8 ≤ 5 ∧ (c % 8 = 0 → c / 2 ^ 3 % 16 = 0)) :
    tileLegal code off c stride = true := by
  obtain ⟨ho, hs, hz, hr⟩ := h
  unfold tileLegal bitsOf
  split at hf <;> rename_i hcode <;> simp [hcode] <;> omega

theorem bitsOf_low (c : Nat) : bitsOf c 0 3 = c % 8 := by simp only [bitsOf]; omega

theorem bitsOf_low_zero {c : Nat} (h : c % 2 ^ 7 = 0) : bitsOf c 0 3 = 0 := by simp only [bitsOf]; omega

/-- Settles O27. -/
theorem matrixWordsEnterTheQueue : Obligations.MatrixWordsEnterTheQueue := by
  refine ⟨fun s t sa sw sk img p => ?mma, fun s t u sa sw sk src hh => ?tiles⟩
  case mma =>
    exact ⟨fun hv => ⟨fun hh hi hok => mma_enters rfl rfl hv rfl hh hi hok, fun hh hok hi hp => mma_entersPair rfl rfl hv rfl hh hok hi hp⟩,
      fun hv => ⟨fun hh hi hok => mma_enters rfl rfl hv rfl hh hi hok, fun hh hok hi hp => mma_entersPair rfl rfl hv rfl hh hok hi hp⟩,
      fun hv => ⟨fun hh hi hok => mma_enters rfl rfl hv rfl hh hi hok, fun hh hok hi hp => mma_entersPair rfl rfl hv rfl hh hok hi hp⟩,
      fun hv => ⟨fun hh hi hok => mma_enters rfl rfl hv rfl hh hi hok, fun hh hok hi hp => mma_entersPair rfl rfl hv rfl hh hok hi hp⟩,
      fun hv => ⟨fun hh hi hok => mma_enters rfl rfl hv rfl hh hi hok, fun hh hok hi hp => mma_entersPair rfl rfl hv rfl hh hok hi hp⟩⟩
  case tiles =>
    exact ⟨fun hp hok hv => wbld_enters hh rfl rfl hp hok hv rfl (by cases src <;> rfl), fun hp hok hv => wbld_enters hh rfl rfl hp hok hv rfl (by cases src <;> rfl),
      fun hp hok hv => wbld_enters hh rfl rfl hp hok hv rfl (by cases src <;> rfl), tzero_enters hh t, tadd_enters hh t u, tmov_enters hh,
      fun hr hm hf h0 ha hb => tileRows_enters hh rfl rfl rfl rfl rfl (tileLegal_of hr (by rw [if_neg (by decide)]; exact ⟨hm, hf, h0⟩)) (bitsOf_low ..) rfl ha hb,
      fun hr h0 ha hb => tileRows_enters hh rfl rfl rfl rfl rfl (tileLegal_of hr (by rw [if_pos rfl]; exact h0)) (fmt := 0) (bitsOf_low_zero h0) rfl ha hb⟩

end Sys2Proof.Machine
/-! PROOF. Sending a packet, entering and ending a replay leave the issuing split where it stands (15_remote.md R284, R288, R291, R308). -/
namespace Sys2Proof.Machine

theorem BytesOnly.stays {s t : State} (h : BytesOnly s t) : Stays s t := by
  obtain ⟨b, m, so, sc, v, rfl⟩ := h
  exact .beside rfl rfl rfl

theorem Stays.setFab (s : State) (f : Fabric) : Stays s (s.setFab f) := .beside rfl rfl rfl

theorem Stays.takeFree (s : State) : Stays s s.takeFree.2 := .beside rfl rfl rfl

theorem Stays.foldl_fst {α β : Type} {f : State × β → α → State × β} (hf : ∀ a x, Stays a.1 (f a x).1) (l : List α) (a : State × β) :
    Stays a.1 (l.foldl f a).1 := by
  induction l generalizing a with
  | nil => exact .refl a.1
  | cons x r ih => exact (hf a x).trans (ih _)

/-! ### Packets -/

theorem Stays.sendOn (s : State) (plane : Nat) (p : Packet) : Stays s (sendOn s plane p) := .setFab ..

theorem Stays.spray (s : State) (p : Packet) : Stays s (spray s p).2 := by
  unfold Machine.spray
  split
  · split
    · exact (Stays.sendOn ..).trans (.setFab ..)
    · exact .refl s
  · dsimp only
    split
    · exact (Stays.takeFree s).trans (.sendOn ..)
    · exact .takeFree s

theorem Stays.sendPacket (s : State) (p : Packet) : Stays s (sendPacket s p).2 := by
  unfold Machine.sendPacket sendTo
  split
  · exact .setFab ..
  · exact .spray ..

theorem Stays.fabricLog (s : State) (p : Packet) (peer cause plane : Nat) : Stays s (fabricLog s p peer cause plane) :=
  (BytesOnly.logRecord ..).stays

theorem Stays.noteFailed (s : State) (core wslot word : Nat) (p : Packet) : Stays s (noteFailed s core wslot word p) := by
  unfold Machine.noteFailed
  split
  · exact .refl s
  · exact .updWarp s _ _ (fun _ => rfl) (fun _ => rfl)

theorem Stays.postPacket (s : State) (core wslot word : Nat) (p : Packet) : Stays s (postPacket s core wslot word p) := by
  unfold Machine.postPacket
  split
  · exact (Stays.noteFailed ..).trans (.fabricLog ..)
  · have hp := Stays.sendPacket s p
    split
    · rename_i h
      rw [h] at hp
      exact hp.trans ((Stays.noteFailed ..).trans (.fabricLog ..))
    · rename_i h
      rw [h] at hp
      exact hp.trans ((Stays.setFab ..).trans ((Stays.setFab ..).trans (.updWarp _ _ _ (fun _ => rfl) (fun _ => rfl))))

/-! ### Replays -/

theorem Stays.replayDone (s : State) (id : Nat) (worst : Option (Nat × Nat)) : Stays s (replayDone s id worst) := by
  unfold Machine.replayDone
  split
  · exact .refl s
  · rename_i r _
    have hw : Stays s (s.updWarp r.core r.wslot (fun w => { w with rm := w.rm - 1 })) := .updWarp s _ _ (fun _ => rfl) (fun _ => rfl)
    dsimp only
    split
    · refine hw.trans ((Stays.setFab ..).trans (.updWarp _ _ _ (fun _ => ?_) (fun _ => ?_))) <;> split <;> rfl
    · exact hw.trans (.setFab ..)

theorem Stays.sendReplay (s : State) (i : Nat) (r : RWord) (y : Replay) : Stays s (sendReplay s i r y) := by
  unfold Machine.sendReplay
  split
  · exact (Stays.setFab ..).trans ((Stays.foldl (fun _ _ => .postPacket ..) _ _).trans (.replayDone ..))
  · exact (Stays.foldl_fst (fun a k => Stays.sendPacket a.1 k.1) _ (s, [])).trans (.setFab ..)

theorem Stays.sendReplays (s : State) (core wslot : Nat) : Stays s (sendReplays s core wslot) := by
  refine .foldl (fun s i => ?_) _ s
  split
  · exact .refl s
  · split
    · exact .refl s
    · split
      · exact .sendReplay ..
      · exact .refl s

theorem Stays.replayPackets (s : State) (r : RWord) (peer : Word) (items : List (Nat × Nat × Nat)) (tag : Nat) :
    Stays s (replayPackets s r peer items tag).1 := by
  unfold Machine.replayPackets
  refine Stays.foldl_fst (fun a line => ?_) _ (s, [])
  exact .setFab ..

theorem Stays.issueReplay (s : State) (id : Nat) (r : RWord) : Stays s (issueReplay s id r) := by
  unfold Machine.issueReplay
  split
  · exact .refl s
  · exact (Stays.replayPackets ..).trans ((Stays.setFab ..).trans ((Stays.setFab ..).trans ((Stays.setFab ..).trans
      (.updWarp _ _ _ (fun _ => rfl) (fun _ => rfl)))))

theorem Stays.remoteBegun (s : State) (r : RWord) : Stays s (s.remoteBegun r) :=
  (Stays.setWork ..).trans ((Stays.updHere _ rfl rfl).trans ((Stays.issueReplay ..).trans (.sendReplays ..)))

end Sys2Proof.Machine

/-! PROOF. The remote words complete by entering a word whose first replay issues (15_remote.md R285 to R291). -/
namespace Sys2Proof.Machine

theorem remoteBegun_eq (s : State) (r : RWord) (n : Nat) : (sendReplays (issueReplay (s.fresh.2.updHere
    (fun w => { w with rwords := w.rwords ++ [s.fresh.1] })) s.fresh.1 r) s.hcore s.run.wslot).advance n = (s.remoteBegun r).advance n := rfl

section
variable {i : Instr} {s : State} {op : Nat} {d : VReg} {sb : SReg} {vp : VReg} {sc : Fin 8} {x : Option Word} {disp : Int}

/-- The accesses of a remote word: each visited lane's base, offset and displacement. -/
def State.remoteAcc (s : State) (sb : SReg) (vp : VReg) (disp : Int) : List Acc :=
  (lanesOf s.em).map (fun l => ⟨l, (((s.sbase sb : Int) + ((s.hwarp.v (vp.val + 1) l).toInt + disp)) % 2 ^ 64).toNat⟩)

/-- What each visited lane of a remote word names: its address and its data. -/
def State.remoteLanes (s : State) (op : Nat) (d : VReg) (sb : SReg) (vp : VReg) (x : Option Word) (disp : Int) : List (Nat × Nat × Nat) :=
  (s.remoteAcc sb vp disp).map (fun a => (a.lane, a.va,
    if itemData op (x.getD 0) = 0 then 0 else s.hwarp.group d.val (itemData op (x.getD 0)) a.lane))

/-- The word that a remote instruction of s enters into v. -/
def State.remoteEntry (s v : State) (op : Nat) (d : VReg) (sb : SReg) (vp : VReg) (sc : Fin 8) (x : Option Word) (disp : Int)
    (ord : Nat) (bar : Option ObjRef) : RWord :=
  { core := v.hcore, wslot := v.run.wslot, live := true, ctx := s.hwarp.ctx, op := op, vd := d.val, w := itemSize op (x.getD 0), sc := sc.val,
    ord := ord, lit := x.getD 0, bar := bar, baddr := s.hwarp.s (sb.val + 2), base := v.sbase sb,
    todo := peersOf s.hwarp vp.val v.em, out := 0, worst := none, head := v.word, lanes := s.remoteLanes op d sb vp x disp }

/-- The state into which a remote word is entered: its ECB fills, and for a posted one the bytes folded into an audited block's signature. -/
def State.remoteInto (s : State) (op : Nat) (d : VReg) (sb : SReg) (vp : VReg) (x : Option Word) (disp : Int) : State :=
  if posted op then foldPeers (fillEcbs s s.hcore s.hwarp.ctx (s.remoteAcc sb vp disp)) vp.val (itemSize op (x.getD 0))
    (s.remoteLanes op d sb vp x disp)
  else fillEcbs s s.hcore s.hwarp.ctx (s.remoteAcc sb vp disp)

variable (hrm : s.hwarp.rm < 6)
  (hr : s.inRange (vp.val :: (vp.val + 1) :: groupRegs d.val (max (itemSize op (x.getD 0)) (itemData op (x.getD 0)))) = true)
  (hd : (if op = 5 ∨ op = 6 then ctlDisp x else litDisp x) = disp)
  (hv : remoteVerdict s (s.remoteAcc sb vp disp) (itemSize op (x.getD 0)) (remotePerm op) (vp.val :: (vp.val + 1) ::
    (if itemData op (x.getD 0) = 0 then [] else groupRegs d.val (itemData op (x.getD 0)))) = .ok)
  (hp : peerFault s op (x.getD 0) vp.val s.em = none)
include hrm hr hd hv hp

/-- A remote word whose checks pass. -/
theorem remoteWord_checked {bar : Option ObjRef} {ord : Nat} (ho : (if op = 5 ∨ op = 6 then ctlOrd x else 0) = ord)
    (hb : (if posted op then .ok none else engBar s s.hcore s.hwarp.blk s.em (s.hwarp.s (sb.val + 2))) = .ok bar) :
    remoteWord s op d sb vp sc x =
      let v := s.remoteInto op d sb vp x disp
      if posted op && v.hblk.isReplay then
        .next ((v.updHere (fun w => { w with status := w.status &&& 0x00FFFFFF })).advance (litWords x))
      else .next ((v.remoteBegun (s.remoteEntry v op d sb vp sc x disp ord bar)).advance (litWords x)) := by
  subst hd ho
  have hv' := hv
  unfold State.remoteAcc at hv'
  unfold remoteWord addOff
  refine (if_neg (Nat.not_le.2 hrm)).trans ((if_neg (by rw [hr]; decide)).trans ?_)
  dsimp only
  rw [hb]
  dsimp only
  rw [hv', hp]
  rfl

end

/-! ### The state that a remote word enters -/

theorem warps_foldSig (s : State) (b : Nat) (l : List (Nat × List Byte)) : (foldSig s b l).warps = s.warps := by
  unfold foldSig
  split <;> rfl

theorem isReplay_foldSig (s : State) (b k : Nat) (l : List (Nat × List Byte)) :
    ((foldSig s b l).blk k).isReplay = (s.blk k).isReplay := by
  unfold foldSig
  split
  · rfl
  · simp only [State.blk, State.updBlk, State.setBlk, mget_mput]
    split
    · rename_i h; subst h; rfl
    · rfl

section
variable (s : State) (op : Nat) (d : VReg) (sb : SReg) (vp : VReg) (x : Option Word) (disp : Int)

theorem stays_remoteInto : Stays s (s.remoteInto op d sb vp x disp) := by
  unfold State.remoteInto
  split
  · exact (Stays.fillEcbs ..).trans (.foldSig ..)
  · exact .fillEcbs ..

theorem warps_remoteInto : (s.remoteInto op d sb vp x disp).warps = s.warps := by
  unfold State.remoteInto
  split
  · exact (warps_foldSig ..).trans (fillEcbs_warps ..)
  · exact fillEcbs_warps ..

theorem hwarp_remoteInto : (s.remoteInto op d sb vp x disp).hwarp = s.hwarp := by
  have h := stays_remoteInto s op d sb vp x disp
  simp only [State.hwarp, State.hcore, h.focus, h.run, State.warp, warps_remoteInto]

theorem isReplay_remoteInto : (s.remoteInto op d sb vp x disp).hblk.isReplay = s.hblk.isReplay := by
  unfold State.hblk
  rw [hwarp_remoteInto]
  unfold State.remoteInto
  split
  · rw [foldPeers, isReplay_foldSig]
    simp only [State.blk, fillEcbs_work]
  · simp only [State.blk, fillEcbs_work]

theorem remoteEntry_remoteInto (sc : Fin 8) (ord : Nat) (bar : Option ObjRef) :
    s.remoteEntry (s.remoteInto op d sb vp x disp) op d sb vp sc x disp ord bar =
      s.remoteEntry s op d sb vp sc x disp ord bar := by
  have h := stays_remoteInto s op d sb vp x disp
  simp only [State.remoteEntry, State.hcore, State.sbase, State.em, State.word, State.cidx, State.hsplit, h.focus, h.run, hwarp_remoteInto]

end

/-! ### The two kinds of remote word -/

section
variable {i : Instr} {s : State} {op : Nat} {d : VReg} {sb : SReg} {vp : VReg} {sc : Fin 8} {x : Option Word} {disp : Int} {ord : Nat}
  (he : exec i s = remoteWord s op d sb vp sc x) (hn : litWords x = wordsOf i) (hrm : s.hwarp.rm < 6)
  (hd : (if op = 5 ∨ op = 6 then ctlDisp x else litDisp x) = disp) (ho : (if op = 5 ∨ op = 6 then ctlOrd x else 0) = ord)
  (hp : peerFault s op (x.getD 0) vp.val s.em = none)
include he hn hrm hd ho hp

theorem remoteLoad_issues {bar : Option ObjRef} (hpost : posted op = false)
    (hr : s.inRange (vp.val :: (vp.val + 1) :: groupRegs d.val (max (itemSize op (x.getD 0)) (itemData op (x.getD 0)))) = true)
    (hb : engBar s s.hcore s.hwarp.blk s.em (s.hwarp.s (sb.val + 2)) = .ok bar)
    (hv : remoteVerdict s (s.remoteAcc sb vp disp) (itemSize op (x.getD 0)) (remotePerm op) (vp.val :: (vp.val + 1) ::
      (if itemData op (x.getD 0) = 0 then [] else groupRegs d.val (itemData op (x.getD 0)))) = .ok) :
    CompletesVia i s ((fillEcbs s s.hcore s.hwarp.ctx (s.remoteAcc sb vp disp)).remoteBegun
      (s.remoteEntry s op d sb vp sc x disp ord bar)) := by
  have hinto : s.remoteInto op d sb vp x disp = fillEcbs s s.hcore s.hwarp.ctx (s.remoteAcc sb vp disp) :=
    if_neg (ne_true_of_eq_false hpost)
  have hc := remoteWord_checked (sc := sc) hrm hr hd hv hp ho ((if_neg (ne_true_of_eq_false hpost)).trans hb)
  dsimp only at hc
  rw [remoteEntry_remoteInto, hinto, hpost, Bool.false_and, if_neg Bool.false_ne_true] at hc
  exact ((Stays.fillEcbs ..).trans (.remoteBegun ..)).completesVia (he.trans hc) hn

theorem remoteStore_issues (hpost : posted op = true) (hdata : itemData op (x.getD 0) = itemSize op (x.getD 0))
    (h0 : itemSize op (x.getD 0) ≠ 0) (hperm : remotePerm op = permW)
    (hr : s.inRange (vp.val :: (vp.val + 1) :: groupRegs d.val (itemSize op (x.getD 0))) = true)
    (hv : remoteVerdict s (s.remoteAcc sb vp disp) (itemSize op (x.getD 0)) permW
      (vp.val :: (vp.val + 1) :: groupRegs d.val (itemSize op (x.getD 0))) = .ok)
    {lanes : List (Nat × Nat × Nat)} {v : State}
    (hl : lanes = (s.remoteAcc sb vp disp).map (fun a => (a.lane, a.va, s.hwarp.group d.val (itemSize op (x.getD 0)) a.lane)))
    (hinto : v = foldPeers (fillEcbs s s.hcore s.hwarp.ctx (s.remoteAcc sb vp disp)) vp.val (itemSize op (x.getD 0)) lanes) :
    (s.hblk.isReplay = true → CompletesVia i s (v.updHere (fun w => { w with status := w.status &&& 0x00FFFFFF }))) ∧
    (s.hblk.isReplay = false → CompletesVia i s (v.remoteBegun { s.remoteEntry s op d sb vp sc x disp ord none with lanes := lanes })) := by
  have hlanes : s.remoteLanes op d sb vp x disp = lanes := by rw [hl, State.remoteLanes, hdata]; simp only [if_neg h0]
  have hv' : s.remoteInto op d sb vp x disp = v := by rw [hinto, State.remoteInto, if_pos hpost, hlanes]
  have hs : Stays s v := hv' ▸ stays_remoteInto s op d sb vp x disp
  have hc := remoteWord_checked (sc := sc) hrm (by rwa [hdata, max_self]) hd (by rwa [hdata, if_neg h0, hperm]) hp ho (if_pos hpost)
  dsimp only at hc
  rw [remoteEntry_remoteInto, isReplay_remoteInto, hv', hpost, Bool.true_and] at hc
  refine ⟨fun h => ?_, fun h => ?_⟩
  · exact (hs.trans (.updHere v rfl rfl)).completesVia (he.trans (hc.trans (if_pos h))) hn
  · subst hlanes
    exact (hs.trans (.remoteBegun ..)).completesVia (he.trans (hc.trans (if_neg (ne_true_of_eq_false h)))) hn

end

theorem redSize_ne_zero (lit : Word) : itemSize 6 lit ≠ 0 := by
  unfold itemSize atomSize
  (repeat' split) <;> decide

/-- Settles O26, by the two kinds of remote word. -/
theorem remoteWordsIssue : Obligations.RemoteWordsIssue := by
  refine ⟨fun s d sb vp sc x bar => ⟨?_, ?_, ?_, ?_⟩, fun s d sb vp sc x => ⟨?_, ?_, ?_, ?_⟩⟩
  · exact fun hrm hr hb hv hp => remoteLoad_issues (exec_rldB32 s) rfl hrm rfl rfl hp rfl hr hb hv
  · exact fun hrm hr hb hv hp => remoteLoad_issues (exec_rldB64 s) rfl hrm rfl rfl hp rfl hr hb hv
  · exact fun hrm hr hb hv hp => remoteLoad_issues (exec_rldB128 s) rfl hrm rfl rfl hp rfl hr hb hv
  · exact fun hrm hr hb hv hp => remoteLoad_issues (exec_ratom s) rfl hrm (ctlDisp_eq x) (ctlOrd_eq x) hp rfl hr hb hv
  · exact fun hrm hr hv hp => remoteStore_issues (exec_rstB32 s) rfl hrm rfl rfl hp rfl rfl (Nat.succ_ne_zero _) rfl hr hv rfl rfl
  · exact fun hrm hr hv hp => remoteStore_issues (exec_rstB64 s) rfl hrm rfl rfl hp rfl rfl (Nat.succ_ne_zero _) rfl hr hv rfl rfl
  · exact fun hrm hr hv hp => remoteStore_issues (exec_rred s) rfl hrm (ctlDisp_eq x) (ctlOrd_eq x) hp rfl rfl (redSize_ne_zero _) rfl hr hv rfl rfl
  · exact fun hrm hr hv hp => remoteStore_issues (exec_rmcast s) rfl hrm rfl rfl hp rfl rfl (Nat.succ_ne_zero _) rfl hr hv rfl rfl

end Sys2Proof.Machine
/-! PROOF. `cp.tier` on a corrupt descriptor (09_extents.md R175): the device error it escalates kills every block, the issuing one too. -/
namespace Sys2Proof.Machine

/-- A warp of a block at the first of two words of a clause, whose split 1 waits; the extent root of its context is poisoned. -/
def tierWhileCorrupt : State :=
  let s := ((State.reset.withFetchWord 32 0x0E121B3C).updCore 0 (fun k =>
      { k with slot0 := k.slot0.map (fun r => { r with hdr := 0x2BFFFFCA }) })).updHere (fun w =>
    { (w.setS 3 0xFFFFFFFF).setSplit 1 { state := 2, on := .bar (.area 1 0) 0 0 } with blk := 1 })
  { s with
    work := { s.work with blocks := [(1, { bars := 4, warps := 1 })] }
    mem := { s.mem with marks := [(0, true)] } }

/-- The other split of the issuing warp is gone once `cp.tier` has run. -/
def splitEnded (r : Result) : Bool :=
  match r with
  | .next t => (t.warp tierWhileCorrupt.hcore tierWhileCorrupt.run.wslot).split 1 != tierWhileCorrupt.hwarp.split 1
  | _ => false

/-- Refutes O28: a `cp.tier` whose handle meets a corrupt extent table escalates a device error in its start, which ends every block
and with it the splits of the issuing warp; the word does not then complete as one that leaves its warp's splits as they were. -/
theorem not_copyWordsStart : ¬ Obligations.CopyWordsStart := by
  intro h
  have hstate : copyHeld tierWhileCorrupt tierWhileCorrupt.hcore tierWhileCorrupt.hwarp = false ∧ tierWhileCorrupt.hblk.isReplay = false ∧
      tierOk (tierWhileCorrupt.command 0 4) = true ∧ (tierWhileCorrupt.command 0 4).getD 3 0 = 0xFFFFFFFF := by decide +kernel
  obtain ⟨hheld, hrep, hok, hbar⟩ := hstate
  obtain ⟨-, -, -, -, htier⟩ := h tierWhileCorrupt 0 0 none ⟨none, [], 0, 0, 0, 0, [], [], false, 0, 0⟩ hheld
  obtain ⟨t, ht, -, ho⟩ := htier hrep hok (by rw [hbar]; exact if_pos rfl)
  have hclause : tierWhileCorrupt.cidx + wordsOf (.cpTier 0 0) ≤ hdrN tierWhileCorrupt.run.hdr ∧ tierWhileCorrupt.run.split ≠ 1 := by
    decide +kernel
  have hstays := onward_within_others ho hclause.1 hclause.2
  have hends : splitEnded (exec (.cpTier 0 0) tierWhileCorrupt) = true := by decide +kernel
  rw [ht] at hends
  exact absurd hstays (bne_iff_ne.1 hends)

end Sys2Proof.Machine
/-! PROOF. The exchange words, `tok.test` and `cp.cancel` (13_engines.md R267, R268, R272, R276, R277). -/
namespace Sys2Proof.Machine

theorem Stays.setMem (s : State) (m : Mem) : Stays s (s.setMem m) := .beside rfl rfl rfl

theorem Stays.fresh (s : State) : Stays s s.fresh.2 := .setWork ..

/-! ### What an exchange does beside its part -/

theorem Stays.objPut (s : State) (r : ObjRef) (o : BarObj) : Stays s (objPut s r o) := by
  unfold Machine.objPut
  split
  · split
    · exact .setWork ..
    · exact .refl s
  · exact .setMem ..

theorem Stays.charge (s : State) (r : Option ObjRef) (n : Nat) (fail : Bool) : Stays s (charge s r n fail) := by
  unfold Machine.charge
  split
  · exact .objPut ..
  · exact .refl s

theorem Stays.rxCharge (s : State) (x : XPart) (n : Nat) (fail : Bool) : Stays s (rxCharge s x n fail).1 := by
  unfold Machine.rxCharge
  split
  · exact .refl s
  · split
    · exact .charge ..
    · dsimp only
      split
      · exact .charge ..
      · exact .refl s

theorem Stays.takeRecv (s : State) (x : XPart) : Stays s (takeRecv s x).1 := by
  unfold Machine.takeRecv
  split
  · exact .refl s
  · exact (Stays.setWork ..).trans (Stays.foldl_fst (fun a (n : Nat × Bool) => Stays.rxCharge a.1 a.2 n.1 n.2) _ (_, _))

theorem Stays.startExchange {s u : State} {core wslot blk ctx : Nat} {c : List Word} {tk : Nat} {bar : Option ObjRef} {task : Nat}
    (h : startExchange s core wslot blk ctx c tk bar task = some u) : Stays s u := by
  unfold Machine.startExchange at h
  dsimp only at h
  rw [Option.ite_none_left_eq_some, Option.some.injEq] at h
  obtain ⟨-, rfl⟩ := h
  exact (Stays.fresh s).trans ((ReadsOnly.devUses ..).stays.trans ((Stays.setWork ..).trans ((Stays.takeRecv ..).trans
    ((Stays.setWork ..).trans (.updWarp _ _ _ (fun _ => rfl) (fun _ => rfl))))))

theorem Stays.sendEnd (s : State) (i m : Nat) : Stays s (sendEnd s i m) := by
  unfold Machine.sendEnd
  split
  · exact .refl s
  · dsimp only
    split
    · exact .refl s
    · split
      · exact .setWork ..
      · split
        · exact (Stays.setWork ..).trans (.sendPacket ..)
        · exact .setWork ..

theorem Stays.sendEnds (s : State) (i : Nat) : Stays s (sendEnds s i) := by
  unfold Machine.sendEnds
  split
  · exact .refl s
  · exact .foldl (fun _ _ => .sendEnd ..) _ s

/-! ### The exchange words -/

section
variable {s : State} {cb tk d : SReg}

theorem xgStart_starts {bar : Option ObjRef} {u : State} (hrep : s.hblk.isReplay = false) (hcp : s.hwarp.cp < 6)
    (hok : xgOk (s.command cb 10) = true) (hb : engBar s s.hcore s.hwarp.blk s.em ((s.command cb 10).getD 5 0) = .ok bar)
    (hc : xgCorrupt s s.hwarp.ctx (s.command cb 10) = false)
    (hu : startExchange s s.hcore s.run.wslot s.hwarp.blk s.hwarp.ctx (s.command cb 10) tk.val bar 0 = some u) :
    CompletesVia (.xgStart cb tk) s u := by
  refine (Stays.startExchange hu).completesVia ((exec_xgStart s).trans ?_) rfl
  refine (if_neg (ne_true_of_eq_false hrep)).trans ((if_neg (Nat.not_le.2 hcp)).trans ((if_neg ?_).trans ?_))
  · exact ne_true_of_eq_false (congrArg (!·) hok)
  · rw [hb]
    refine (if_neg (ne_true_of_eq_false hc)).trans ?_
    rw [hu]
    rfl

theorem xgCancel_none (hrep : s.hblk.isReplay = false) (hp : youngestPart s s.hcore s.run.wslot tk.val = none) :
    Completes (.xgCancel cb tk d) s (·.setStatus d.val 1) := by
  refine updHere_completes ((exec_xgCancel s).trans ((if_neg (ne_true_of_eq_false hrep)).trans ?_)) rfl rfl rfl
  rw [hp]
  rfl

theorem xgCancel_marks {i : Nat} {x : XPart} (hrep : s.hblk.isReplay = false)
    (hp : youngestPart s s.hcore s.run.wslot tk.val = some i) (hx : s.part i = some x) (hs : x.stage = 0) (hc : x.cancel = none) :
    CompletesVia (.xgCancel cb tk d) s
      ((sendEnds (s.setPart i { x with cancel := some (s.hwarp.pair cb.val).toNat }) i).updHere (·.setStatus d.val 0)) := by
  refine Stays.status ((Stays.setWork ..).trans (.sendEnds ..)) ((exec_xgCancel s).trans ((if_neg (ne_true_of_eq_false hrep)).trans ?_)) rfl
  rw [hp]
  dsimp only
  rw [hx]
  exact congrArg (fun t => Host.Outcome.next (State.status t d 0 1)) (if_neg (by rw [hs, hc]; decide))

theorem xgQuery_none {sel : Fin 4} (hp : youngestPart s s.hcore s.run.wslot tk.val = none) :
    Completes (.xgQuery tk d sel) s (fun w => (w.setS d.val 0).setScc false) := by
  refine updHere_completes ((exec_xgQuery s).trans ?_) rfl rfl rfl
  unfold execXgQuery
  rw [hp]
  rfl

theorem xgQuery_counts {sel : Fin 4} {i : Nat} {x : XPart} (hp : youngestPart s s.hcore s.run.wslot tk.val = some i) (hx : s.part i = some x) :
    Completes (.xgQuery tk d sel) s (fun w => (w.setS d.val (BitVec.ofNat 32
      ([x.runs, (x.stat.filter (fun p => decide (p.2 = 1))).length, x.written, x.ends.length].getD sel.val 0))).setScc true) := by
  refine updHere_completes ((exec_xgQuery s).trans ?_) rfl rfl rfl
  unfold execXgQuery
  rw [hp, Option.bind_some, hx]
  fin_cases sel <;> rfl

end

/-! ### `tok.test` and `cp.cancel` -/

section
variable {s : State} {tk d : SReg}

theorem tokTest_ended (ho : youngestOp s s.hcore s.run.wslot tk.val = none) (hp : youngestPart s s.hcore s.run.wslot tk.val = none) :
    Completes (.tokTest tk d) s (fun w => (w.setS d.val (s.hwarp.s tk.val)).setScc true) := by
  refine updHere_completes ((exec_tokTest s).trans ?_) rfl rfl rfl
  unfold execTokTest
  dsimp only
  rw [ho, hp]
  rfl

theorem tokTest_part (ho : youngestOp s s.hcore s.run.wslot tk.val = none) (hp : (youngestPart s s.hcore s.run.wslot tk.val).isSome = true) :
    Completes (.tokTest tk d) s (fun w => (w.setS d.val 0).setScc false) := by
  obtain ⟨j, hj⟩ := Option.isSome_iff_exists.1 hp
  refine updHere_completes ((exec_tokTest s).trans ?_) rfl rfl rfl
  unfold execTokTest
  dsimp only
  rw [ho, hj]
  rfl

theorem tokTest_op {i : Nat} {o : Op} (ho : youngestOp s s.hcore s.run.wslot tk.val = some i) (hi : s.op i = some o) (hc : o.code ≠ 0xD3)
    (hp : ∀ j, youngestPart s s.hcore s.run.wslot tk.val = some j → j ≤ i) :
    Completes (.tokTest tk d) s (fun w => (w.setS d.val (BitVec.ofNat 32 (min o.done 0x1FFFFFF))).setScc false) := by
  refine updHere_completes ((exec_tokTest s).trans ?_) rfl rfl rfl
  unfold execTokTest
  dsimp only
  cases hj : youngestPart s s.hcore s.run.wslot tk.val with
  | none => simp only [ho, hi, if_neg hc]; rfl
  | some j => simp only [ho, hi, if_neg hc, if_neg (Nat.not_lt.2 (hp j hj))]; rfl

theorem cpCancel_none (ho : youngestOp s s.hcore s.run.wslot tk.val = none) : Completes (.cpCancel tk d) s (·.setStatus d.val 1) := by
  refine updHere_completes ((exec_cpCancel s).trans ?_) rfl rfl rfl
  unfold execCpCancel
  rw [ho]
  rfl

theorem cpCancel_marks {i : Nat} {o : Op} (ho : youngestOp s s.hcore s.run.wslot tk.val = some i) (hi : s.op i = some o) (hc : o.code ≠ 0xD3)
    (hs : o.stage = 0) : CompletesVia (.cpCancel tk d) s ((s.setOp i { o with cancel := true }).updHere (·.setStatus d.val 0)) := by
  refine Stays.status (.setWork ..) ((exec_cpCancel s).trans ?_) rfl
  unfold execCpCancel
  rw [ho]
  dsimp only
  rw [hi]
  exact congrArg (fun t => Host.Outcome.next (State.status t d 0 1)) (if_neg (by rw [not_or]; exact ⟨hc, not_not.2 hs⟩))

theorem cpCancel_late {i : Nat} {o : Op} (ho : youngestOp s s.hcore s.run.wslot tk.val = some i) (hi : s.op i = some o)
    (h : o.code = 0xD3 ∨ o.stage ≠ 0) : Completes (.cpCancel tk d) s (·.setStatus d.val 0) := by
  refine updHere_completes ((exec_cpCancel s).trans ?_) rfl rfl rfl
  unfold execCpCancel
  rw [ho]
  dsimp only
  rw [hi]
  exact congrArg (fun t => Host.Outcome.next (State.status t d 0 1)) (if_pos h)

end

/-- Settles O29. -/
theorem exchangeAndTokenWords : Obligations.ExchangeAndTokenWords :=
  ⟨fun _ _ _ _ _ _ _ _ _ => ⟨xgStart_starts, xgCancel_none, xgCancel_marks, xgQuery_none, xgQuery_counts⟩,
    fun _ _ _ _ _ => ⟨tokTest_ended, tokTest_part, tokTest_op, cpCancel_none,
      fun ho hi => ⟨cpCancel_marks ho hi, cpCancel_late ho hi⟩⟩⟩

end Sys2Proof.Machine
/-! PROOF. A word that faults stops its core and records a frame (11_traps.md R212, R213, R215). -/
namespace Sys2Proof.Machine

section
variable (s : State) (c : SMap Core) (w : SMap Warp) (k : Work)

/-- The state with other cores, warps and work records: what the device reads of memory is the same. -/
def State.around (s : State) (c : SMap Core) (w : SMap Warp) (k : Work) : State := { s with cores := c, warps := w, work := k }

theorem chainFrom_around (n pa : Nat) : chainFrom (s.around c w k) n pa = chainFrom s n pa := by
  induction n generalizing pa with
  | zero => rfl
  | succ n ih =>
    simp only [chainFrom, ih]
    rfl
theorem rootEntry_around (ctx : Nat) : rootEntry (s.around c w k) ctx = rootEntry s ctx := rfl
theorem indexId_around (r : Root) (i : Nat) : indexId (s.around c w k) r i = indexId s r i := rfl
theorem indexBase_around (r : Root) (i : Nat) : indexBase (s.around c w k) r i = indexBase s r i := rfl
theorem readDesc_around (a b d e : Nat) : readDesc (s.around c w k) a b d e = readDesc s a b d e := rfl
theorem liveExt_around (a b : Nat) : liveExt (s.around c w k) a b = liveExt s a b := rfl
theorem mailFor_around (a : Nat) : mailFor (s.around c w k) a = mailFor s a := rfl
theorem windowHeld_around (a : Nat) (d : Desc) (b : Nat) : windowHeld (s.around c w k) a d b = windowHeld s a d b := rfl
theorem devicePlace_around (d : Desc) (b : Nat) : devicePlace (s.around c w k) d b = devicePlace s d b := rfl
theorem chanHeld_around (b : Nat) : chanHeld (s.around c w k) b = chanHeld s b := rfl
theorem hotStack_around (b : Nat) : hotStack (s.around c w k) b = hotStack s b := rfl
theorem hostReach_around (b : Nat) : hostReach (s.around c w k) b = hostReach s b := rfl
theorem memHold_around (p : Nat) (d : Desc) (va : Nat) (wr : Bool) : memHold (s.around c w k) p d va wr = memHold s p d va wr := rfl
theorem byteDead_around (d : Desc) (va : Nat) (wr : Bool) : byteDead (s.around c w k) d va wr = byteDead s d va wr := rfl
theorem lineBusy_around (line : Nat) : lineBusy (s.around c w k) line = lineBusy s line := rfl
theorem lineReady_around (cls line : Nat) (wr : Bool) : lineReady (s.around c w k) cls line wr = lineReady s cls line wr := rfl
theorem reachesMemory_around (d : Desc) (va : Nat) (wr : Bool) : reachesMemory (s.around c w k) d va wr = reachesMemory s d va wr := rfl

theorem probe_around (r : Root) (va n pos : Nat) : probe (s.around c w k) r va n pos = probe s r va n pos := by
  induction n generalizing pos with
  | zero => rfl
  | succ n ih => simp only [probe, ih, indexBase_around]

theorem probeBad_around (r : Root) (va n pos : Nat) : probeBad (s.around c w k) r va n pos = probeBad s r va n pos := by
  induction n generalizing pos with
  | zero => rfl
  | succ n ih => simp only [probeBad, ih, indexBase_around]; rfl

theorem tablesBad_around (r : Root) (ctx va : Nat) : tablesBad (s.around c w k) r ctx va = tablesBad s r ctx va := by
  simp only [tablesBad, probeBad_around]; rfl

theorem walk_around (ctx va : Nat) : walk (s.around c w k) ctx va = walk s ctx va := by
  unfold walk
  dsimp only
  rw [rootEntry_around, tablesBad_around, probe_around, indexId_around, indexBase_around, readDesc_around]

theorem homeSlice_around (line : Nat) : homeSlice (s.around c w k) line = homeSlice s line := by
  simp only [homeSlice, lineDesc, walk_around]

theorem sliceFull_around (line : Nat) : sliceFull (s.around c w k) line = sliceFull s line := by
  unfold sliceFull
  simp only [homeSlice_around]
  rfl

theorem byteHold_around (p : Nat) (d : Desc) (va : Nat) (wr : Bool) : byteHold (s.around c w k) p d va wr = byteHold s p d va wr := by
  unfold byteHold homeHold
  dsimp only
  rw [mailFor_around, byteDead_around, lineBusy_around, sliceFull_around, lineReady_around, reachesMemory_around, memHold_around]

theorem checkedWalk_around (x : Walk) : checkedWalk (s.around c w k) x = checkedWalk s x := rfl

theorem devPlace_around (ctx va n need : Nat) : devPlace (s.around c w k) ctx va n need = devPlace s ctx va n need := by
  simp only [devPlace, devCheck, canonDesc, walk_around, checkedWalk_around]

theorem effFdom_around (r : Nat) : effFdom (s.around c w k) r = effFdom s r := by
  simp only [effFdom, effRcb, regionChain, chainFrom_around]; rfl

theorem domainAt_around (pa : Nat) : domainAt (s.around c w k) pa = domainAt s pa := rfl
end
/-! ### A core that stops -/

/-- A state that differs from s in its cores and warps alone. -/
def Halted (s u : State) : Prop := ∃ c w, u = s.around c w s.work

theorem Halted.refl (s : State) : Halted s s := ⟨s.cores, s.warps, rfl⟩

theorem Halted.trans {s u v : State} (h : Halted s u) (k : Halted u v) : Halted s v := by
  obtain ⟨c, w, rfl⟩ := h
  obtain ⟨c', w', rfl⟩ := k
  exact ⟨c', w', rfl⟩

theorem Halted.foldl {α : Type} {f : State → α → State} (hf : ∀ s x, Halted s (f s x)) (l : List α) (s : State) : Halted s (l.foldl f s) := by
  induction l generalizing s with
  | nil => exact .refl s
  | cons x r ih => exact (hf s x).trans (ih _)

theorem Halted.updCore (s : State) (c : Nat) (f : Core → Core) : Halted s (s.updCore c f) := ⟨_, s.warps, rfl⟩
theorem Halted.updWarp (s : State) (c w : Nat) (f : Warp → Warp) : Halted s (s.updWarp c w f) := ⟨s.cores, _, rfl⟩

theorem Halted.stopCore (s : State) (c : Nat) : Halted s (stopCore s c) := by
  refine (Halted.updCore ..).trans (.foldl (fun s i => ?_) _ _)
  split
  · exact .updWarp ..
  · exact .refl s

theorem Halted.beginStop (s : State) (c w : Nat) : Halted s (beginStop s c w) := by
  unfold Machine.beginStop
  dsimp only
  split
  · exact .stopCore ..
  · exact ⟨_, s.warps, rfl⟩

/-- A split that is issued again stands at the word where it stood. -/
theorem reissue_word (w : Warp) (j : Nat) : (w.reissue.split j).word = (w.split j).word := by
  have h : mfind w.reissue.splits j = (mfind w.splits j).map
      (fun p => if p.state == 2 then { p with state := 1, on := .none, bn := 0 } else p) := by
    refine mfind_map _ _ _ (fun p => ?_) j
    split <;> rfl
  unfold Warp.split mget
  rw [h]
  cases mfind w.splits j with
  | none => rfl
  | some p =>
    simp only [Option.map_some, Option.getD_some]
    split <;> rfl

/-- The blocked splits of a core's warps issue their words again. -/
def State.reissues (s : State) (k : Nat) : State :=
  (List.range 32).foldl (fun s i => if (s.warp k i).present then s.updWarp k i Warp.reissue else s) s

theorem foldl_reissue_word (l : List Nat) (k c w j : Nat) (s : State) :
    (((l.foldl (fun s i => if (s.warp k i).present then s.updWarp k i Warp.reissue else s) s).warp c w).split j).word =
      ((s.warp c w).split j).word := by
  induction l generalizing s with
  | nil => rfl
  | cons i r ih =>
    refine (ih _).trans ?_
    dsimp only
    split
    · rw [State.warp_updWarp]
      split
      · rename_i h
        rw [reissue_word]
        unfold State.warp
        rw [h]
      · rfl
    · rfl

theorem foldl_reissue_cores (l : List Nat) (k : Nat) (s : State) :
    (l.foldl (fun s i => if (s.warp k i).present then s.updWarp k i Warp.reissue else s) s).cores = s.cores := by
  induction l generalizing s with
  | nil => rfl
  | cons i r ih =>
    refine (ih _).trans ?_
    dsimp only
    split <;> rfl

theorem stopCore_eq (s : State) (k : Nat) : stopCore s k = (s.updCore k (fun c => { c with
    stopped := true, closing := false, slot0 := handlerRun c.slot0, slot1 := handlerRun c.slot1 })).reissues k := rfl

theorem core_reissues (s : State) (k c : Nat) : (s.reissues k).core c = s.core c := by
  unfold State.core State.reissues
  rw [foldl_reissue_cores]

theorem stopCore_word (s : State) (k c w j : Nat) : (((stopCore s k).warp c w).split j).word = ((s.warp c w).split j).word := by
  rw [stopCore_eq]
  exact foldl_reissue_word ..

theorem stopCore_core (s : State) (k : Nat) : (stopCore s k).core k = { s.core k with
    stopped := true, closing := false, slot0 := handlerRun (s.core k).slot0, slot1 := handlerRun (s.core k).slot1 } := by
  rw [stopCore_eq, core_reissues, State.core_updCore, if_pos rfl]

/-- Whether a slot holds the clause of a warp other than the one that faults and the handler. -/
def otherRun (w : Nat) (r : Option Run) : Bool := r.any (fun x => x.wslot != w && x.wslot != 32)

theorem handlerRun_wslot {r : Option Run} {x : Run} (h : handlerRun r = some x) : x.wslot = 32 := by
  unfold handlerRun at h
  exact beq_iff_eq.1 (Option.mem_filter_iff.1 h).2

theorem dropRun_wslot {r : Option Run} {x : Run} {w : Nat} (h : dropRun r w = some x) : x.wslot ≠ w := by
  unfold dropRun at h
  split at h
  · split at h
    · cases h
    · rename_i hw
      split at h
      · split at h
        · cases h; exact hw
        · cases h; exact hw
      · cases h; exact hw
  · cases h

/-- What is left in a slot once the faulting warp's clause has gone is the handler's, or nothing, where the slot held no other warp's. -/
theorem dropRun_handler (w : Nat) (r : Option Run) :
    ((handlerRun (dropRun r w)).isSome == (dropRun r w).isSome) = !otherRun w r := by
  cases r with
  | none => rfl
  | some x =>
    have hsome : otherRun w (some x) = (x.wslot != w && x.wslot != 32) := rfl
    rw [hsome]
    unfold dropRun handlerRun
    dsimp only
    by_cases h : x.wslot = w
    · rw [if_pos h, h, bne_self_eq_false]
      rfl
    · have hkeep (y : Run) (hy : y.wslot = x.wslot) :
          ((Option.filter (fun x => x.wslot == 32) (some y)).isSome == (some y).isSome) = !(x.wslot != w && x.wslot != 32) := by
        rw [← hy] at h ⊢
        by_cases h32 : y.wslot = 32 <;> simp [Option.filter, h, h32]
      rw [if_neg h]
      split
      · split <;> exact hkeep _ rfl
      · exact hkeep _ rfl

section
variable {s : State} {k w : Nat}

theorem beginStop_over (h0 : otherRun w (s.core k).slot0 = false) (h1 : otherRun w (s.core k).slot1 = false) :
    beginStop s k w = stopCore s k := by
  refine if_pos ?_
  simp only [List.all_cons, List.all_nil, dropRun_handler, h0, h1, Bool.not_false, Bool.and_self, Bool.or_true]

theorem beginStop_closing (hc : (s.core k).closing = false) (h : otherRun w (s.core k).slot0 = true ∨ otherRun w (s.core k).slot1 = true) :
    beginStop s k w = s.updCore k (fun c => { c with stopped := true, closing := true, slot0 := dropRun c.slot0 w, slot1 := dropRun c.slot1 w }) := by
  refine if_neg ?_
  simp only [List.all_cons, List.all_nil, dropRun_handler, hc]
  obtain h | h := h <;> simp [h]

end

theorem beginStop_stopped (s : State) (k w : Nat) : ((beginStop s k w).core k).stopped = true := by
  unfold beginStop
  dsimp only
  split
  · rw [stopCore_core]
  · rw [State.core_setCore, if_pos rfl]

theorem beginStop_word (s : State) (k w c v j : Nat) : (((beginStop s k w).warp c v).split j).word = ((s.warp c v).split j).word := by
  unfold beginStop
  dsimp only
  split
  · exact stopCore_word ..
  · rfl

/-! ### A frame that is written -/

/-- A frame as it stands in its ring. -/
def Frame.written (f : Frame) (head : Nat) : Frame := { f with seq := some head, bytes := overlay f.bytes 0x3C (leBytes 4 head) }

theorem heldState_none (s : State) (d : Desc) (va : Nat) (wr : Bool) (h : Hold) : heldState s d va wr h = none ↔ h = .none := by
  cases h <;> simp [heldState]

theorem devHold_around {s : State} (c : SMap Core) (w : SMap Warp) (k : Work) {ctx va n : Nat} {wr : Bool} :
    devHold (s.around c w k) ctx va n wr = none ↔ devHold s ctx va n wr = none := by
  unfold devHold
  rw [devPlace_around]
  split
  · simp only [List.findSome?_eq_none_iff, byteWait, heldState_none, byteHold_around]
  · rfl

theorem Aside.heldState {s u : State} {d : Desc} {va : Nat} {wr : Bool} {h : Hold} (he : heldState s d va wr h = some u) : Aside s u := by
  unfold Machine.heldState at he
  split at he
  · cases he
  · cases he; exact .refl _
  · cases he
    split
    · exact .beside rfl rfl rfl rfl
    · exact .refl _
  · cases he; exact (ReadsOnly.touchChan ..).aside
  · cases he; exact (ReadsOnly.noteUpset ..).aside

theorem Aside.devHold {s u : State} {ctx va n : Nat} {wr : Bool} (h : devHold s ctx va n wr = some u) : Aside s u := by
  unfold Machine.devHold at h
  split at h
  · obtain ⟨i, -, hi⟩ := List.exists_of_findSome?_eq_some h
    exact .heldState hi
  · cases h

theorem BytesOnly.aside {s t : State} (h : BytesOnly s t) : Aside s t := by
  obtain ⟨b, m, so, sc, v, rfl⟩ := h
  exact .beside rfl rfl rfl rfl

/-- The state once a frame of one record stands in its ring. -/
def State.inRing (s : State) (f : Frame) : State :=
  setDomHead (devWrite s (domainAt s f.dom).hctx ((domainAt s f.dom).ring + 64 * ((domainAt s f.dom).head % 2 ^ (domainAt s f.dom).n))
    ((overlay f.bytes 0x3C (leBytes 4 (domainAt s f.dom).head)).drop (64 * 0) |>.take 64)) f.dom (((domainAt s f.dom).head + 1) % 2 ^ 32)

theorem Aside.inRing (s : State) (f : Frame) : Aside s (s.inRing f) :=
  (Aside.devWrite ..).trans (BytesOnly.aside (.pwrite ..))

section
variable {s : State} {i : Nat} {f : Frame} (hf : mfind s.work.frames i = some f) (hr : f.records = 1) (hok : (domainAt s f.dom).ok = true)
include hf

theorem writeFrame_held (h : (s.core f.core).closing = true ∨ scalePending s f.core = true) : writeFrame s i = s := by
  unfold writeFrame
  rw [hf]
  refine if_pos ?_
  obtain h | h := h <;> simp [h]

include hr hok

/-- A frame of one record that finds room is written, with its ring's head as its sequence number. -/
theorem writeFrame_lands (hc : (s.core f.core).closing = false) (hp : scalePending s f.core = false)
    (hroom : ((domainAt s f.dom).head + 2 ^ 32 - (domainAt s f.dom).tail) % 2 ^ 32 + 1 ≤ 2 ^ (domainAt s f.dom).n)
    (hh : devHold s (domainAt s f.dom).hctx ((domainAt s f.dom).ring + 64 * ((domainAt s f.dom).head % 2 ^ (domainAt s f.dom).n)) 64 true =
      none) : BytesOnly ((s.inRing f).setFrame i (f.written (domainAt s f.dom).head)) (writeFrame s i) := by
  unfold writeFrame
  rw [hf]
  dsimp only
  rw [hc, hp, hok, hr, if_neg (by decide), if_neg (by decide), if_neg (Nat.not_lt.2 hroom)]
  rw [show List.range 1 = [0] from rfl, List.findSome?_singleton, Nat.add_zero, hh]
  dsimp only
  split
  · exact .logEvent ..
  · exact .refl _

theorem writeFrame_cases : Aside s (writeFrame s i) ∨
    ∃ u, Aside s u ∧ BytesOnly (u.setFrame i (f.written (domainAt s f.dom).head)) (writeFrame s i) := by
  by_cases h : (s.core f.core).closing = true ∨ scalePending s f.core = true
  · exact .inl (by rw [writeFrame_held hf h]; exact .refl s)
  · rw [not_or, Bool.not_eq_true, Bool.not_eq_true] at h
    obtain ⟨hc, hp⟩ := h
    by_cases hroom : ((domainAt s f.dom).head + 2 ^ 32 - (domainAt s f.dom).tail) % 2 ^ 32 + 1 ≤ 2 ^ (domainAt s f.dom).n
    · cases hh : devHold s (domainAt s f.dom).hctx
          ((domainAt s f.dom).ring + 64 * ((domainAt s f.dom).head % 2 ^ (domainAt s f.dom).n)) 64 true with
      | none => exact .inr ⟨_, .inRing s f, writeFrame_lands hf hr hok hc hp hroom hh⟩
      | some u =>
        refine .inl ?_
        have he : writeFrame s i = u := by
          unfold writeFrame
          rw [hf]
          dsimp only
          rw [hc, hp, hok, hr, if_neg (by decide), if_neg (by decide), if_neg (Nat.not_lt.2 hroom)]
          rw [show List.range 1 = [0] from rfl, List.findSome?_singleton, Nat.add_zero, hh]
        rw [he]; exact .devHold hh
    · refine .inl ?_
      have he : writeFrame s i = s := by
        unfold writeFrame
        rw [hf]
        dsimp only
        rw [hc, hp, hok, hr, if_neg (by decide), if_neg (by decide), if_pos (Nat.lt_of_not_le hroom)]
      rw [he]; exact .refl s

end

/-! ### The fault of the word that issues -/

section
variable (s : State) (f : FaultInfo)

/-- The issuing word's core stops; its split keeps the index of the word. -/
def State.halts : State :=
  beginStop (s.updWarp s.hcore s.run.wslot (fun w => w.setSplit s.run.split { w.split s.run.split with word := s.cidx })) s.hcore s.run.wslot

/-- The frame of a fault of the issuing word of s, its domain and its block as they stand in v. -/
def State.frameIn (s v : State) (f : FaultInfo) : Frame :=
  { core := s.hcore, dom := effFdom v (v.blk s.hwarp.blk).region, seq := none, wslot := s.run.wslot, blk := s.hwarp.blk, cls := f.cls,
    bytes := frameBytes v s.site f 0 ++ [], answered := false, since := v.plat.time, full := false, saved := 0, split := s.run.split,
    follow := (s.run.pc + 4 * (hdrN s.run.hdr + 1)) % 2 ^ 56, n := hdrN s.run.hdr, cidx := s.cidx, len := wordLen s.word,
    region := (v.blk s.hwarp.blk).region }

def State.frameOf : Frame := s.frameIn s f

theorem Halted.halts : Halted s s.halts := (Halted.updWarp ..).trans (.beginStop ..)

theorem writeFrames_single {s : State} {i : Nat} {f : Frame} (h : s.work.frames = [(i, f)]) (hq : f.seq = none) :
    writeFrames s = writeFrame s i := by
  unfold writeFrames
  rw [h]
  simp only [mkeys, List.map_cons, List.map_nil, List.foldl_cons, List.foldl_nil, h, mfind, if_true, hq]
  rfl

theorem sortFrames_single {s : State} {i : Nat} {f : Frame} (h : s.work.frames = [(i, f)]) (core : Nat) : sortFrames s core = s := by
  unfold sortFrames
  rw [h]
  exact if_pos (List.length_filter_le _ [(i, f)])

theorem frameBytes_around (c : SMap Core) (w : SMap Warp) (t : FaultSite) (n : Nat) :
    frameBytes (s.around c w s.work) t f n = frameBytes s t f n := rfl

/-- The faulting word's frame among those of the machine. -/
def State.noted : State := s.halts.fresh.2.setFrame s.work.next (s.frameOf f)

theorem halts_work : s.halts.work = s.work := by
  obtain ⟨c, w, h⟩ := Halted.halts s
  rw [h]; rfl

variable {s f}

theorem noted_frames (hfr : s.work.frames = []) : (s.noted f).work.frames = [(s.work.next, s.frameOf f)] := by
  show mput s.halts.work.frames s.work.next (s.frameOf f) = _
  rw [halts_work, hfr]
  rfl

theorem mfind_noted (hfr : s.work.frames = []) : mfind (s.noted f).work.frames s.work.next = some (s.frameOf f) := by
  rw [noted_frames hfr]
  exact if_pos rfl

theorem noted_around : ∃ c w k, s.noted f = s.around c w k := by
  obtain ⟨c, w, h⟩ := Halted.halts s
  unfold State.noted
  rw [h]
  exact ⟨c, w, _, rfl⟩

theorem raise_eq (hw : s.run.wslot ≠ 32) (hrep : s.hblk.isReplay = false) (hfr : s.work.frames = []) (hci : s.cidx ≠ 0) :
    s.raise f = writeFrame (s.noted f) s.work.next := by
  have hframe : s.frameIn s.halts f = s.frameOf f := by
    obtain ⟨c, w, h⟩ := Halted.halts s
    unfold State.frameOf State.frameIn
    rw [h, effFdom_around, frameBytes_around]
    rfl
  have hadd : addFrame s.halts (s.frameOf f) = writeFrame (s.noted f) s.work.next := by
    have hn : s.halts.fresh.2.setFrame s.halts.fresh.1 (s.frameOf f) = s.noted f := by
      unfold State.noted
      rw [show s.halts.fresh.1 = s.halts.work.next from rfl, halts_work]
    show writeFrames (sortFrames (s.halts.fresh.2.setFrame s.halts.fresh.1 (s.frameOf f)) s.hcore) = _
    rw [hn, sortFrames_single (noted_frames hfr), writeFrames_single (noted_frames hfr) rfl]
  unfold State.raise faultAt
  rw [show s.site.cidx = s.cidx from rfl, if_neg hci]
  refine (if_neg hw).trans ((if_neg (ne_true_of_eq_false hrep)).trans (Eq.trans ?_ hadd))
  rw [← hframe]
  rfl

theorem halts_word : ((s.halts.warp s.hcore s.run.wslot).split s.run.split).word = s.cidx := by
  unfold State.halts
  rw [beginStop_word, State.warp_updWarp, if_pos rfl, Warp.split_setSplit, if_pos rfl]

theorem halts_stopped : (s.halts.core s.hcore).stopped = true := beginStop_stopped ..

theorem halts_over (h0 : otherRun s.run.wslot (s.core s.hcore).slot0 = false) (h1 : otherRun s.run.wslot (s.core s.hcore).slot1 = false) :
    (s.halts.core s.hcore).closing = false ∧
      ∀ r, (s.halts.core s.hcore).slot0 = some r ∨ (s.halts.core s.hcore).slot1 = some r → r.wslot = 32 := by
  unfold State.halts
  rw [beginStop_over (by exact h0) (by exact h1), stopCore_core]
  exact ⟨rfl, fun r hr => hr.elim handlerRun_wslot handlerRun_wslot⟩

theorem halts_closing (hc : (s.core s.hcore).closing = false)
    (h : otherRun s.run.wslot (s.core s.hcore).slot0 = true ∨ otherRun s.run.wslot (s.core s.hcore).slot1 = true) :
    (s.halts.core s.hcore).closing = true ∧
      ∀ r, (s.halts.core s.hcore).slot0 = some r ∨ (s.halts.core s.hcore).slot1 = some r → r.wslot ≠ s.run.wslot := by
  unfold State.halts
  rw [beginStop_closing (by exact hc) (by exact h), State.core_updCore, if_pos rfl]
  exact ⟨rfl, fun r hr => hr.elim dropRun_wslot dropRun_wslot⟩

end

theorem records_frameOf (s : State) (f : FaultInfo) : (s.frameOf f).records = 1 := by
  unfold Frame.records State.frameOf State.frameIn
  rw [List.append_nil, length_frameBytes]

theorem take_overlay (l b : List Byte) (h : 0x3C ≤ l.length) : (overlay l 0x3C b).take 60 = l.take 60 := by
  unfold overlay
  rw [List.append_assoc, List.take_append_of_le_length (by rw [List.length_take]; omega), List.take_take, Nat.min_self]

theorem Aside.kept {s u : State} (h : Aside s u) (c : Nat) : (u.core c).stopped = (s.core c).stopped ∧
    (u.core c).closing = (s.core c).closing ∧ (u.core c).slot0 = (s.core c).slot0 ∧ (u.core c).slot1 = (s.core c).slot1 := by
  have h1 := congrArg Core.stopped (h.core c)
  have h2 := congrArg Core.closing (h.core c)
  have h3 := congrArg Core.slot0 (h.core c)
  have h4 := congrArg Core.slot1 (h.core c)
  exact ⟨h1, h2, h3, h4⟩

/-- A step that leaves each core's slots and stop bits and each warp as they were. -/
def KeepsStop (s u : State) : Prop := u.warps = s.warps ∧ ∀ c, (u.core c).stopped = (s.core c).stopped ∧
  (u.core c).closing = (s.core c).closing ∧ (u.core c).slot0 = (s.core c).slot0 ∧ (u.core c).slot1 = (s.core c).slot1

section
variable {s : State} {i : Nat} {f : Frame} (hf : mfind s.work.frames i = some f) (hr : f.records = 1) (hok : (domainAt s f.dom).ok = true)
include hf hr hok

theorem writeFrame_keeps : KeepsStop s (writeFrame s i) ∧ ∃ x, mfind (writeFrame s i).work.frames i = some x ∧
    (x = f ∨ x = f.written (domainAt s f.dom).head) := by
  obtain h | ⟨u, h, hb⟩ := writeFrame_cases hf hr hok
  · exact ⟨⟨h.warps, h.kept⟩, f, by rw [h.work]; exact hf, .inl rfl⟩
  · obtain ⟨b, m, so, sc, v, hb⟩ := hb
    rw [hb]
    exact ⟨⟨h.warps, h.kept⟩, _, (mfind_mput ..).trans (if_pos rfl), .inr rfl⟩

theorem writeFrame_written (hc : (s.core f.core).closing = false) (hp : scalePending s f.core = false)
    (hroom : ((domainAt s f.dom).head + 2 ^ 32 - (domainAt s f.dom).tail) % 2 ^ 32 + 1 ≤ 2 ^ (domainAt s f.dom).n)
    (hh : devHold s (domainAt s f.dom).hctx ((domainAt s f.dom).ring + 64 * ((domainAt s f.dom).head % 2 ^ (domainAt s f.dom).n)) 64 true =
      none) : mfind (writeFrame s i).work.frames i = some (f.written (domainAt s f.dom).head) := by
  obtain ⟨b, m, so, sc, v, hb⟩ := writeFrame_lands hf hr hok hc hp hroom hh
  rw [hb]
  exact (mfind_mput ..).trans (if_pos rfl)

end

/-- Settles O58: the core stops, and the one frame that waits is written where its ring takes it. -/
theorem faultsStopTheCore : Obligations.FaultsStopTheCore := by
  intro s f hw hrep hfr hci d k other t u hok
  have ht : t = writeFrame (s.noted f) s.work.next := raise_eq hw hrep hfr hci
  have hmf := mfind_noted (f := f) hfr
  obtain ⟨c, w, k', haround⟩ := noted_around (s := s) (f := f)
  have hdom : domainAt (s.noted f) (s.frameOf f).dom = d := by rw [haround, domainAt_around]; rfl
  have hokn : (domainAt (s.noted f) (s.frameOf f).dom).ok = true := by rw [hdom]; exact hok
  obtain ⟨⟨hwarps, hcores⟩, x, hx, hcase⟩ := writeFrame_keeps hmf (records_frameOf s f) hokn
  rw [← ht] at hwarps hcores hx
  obtain ⟨hstop, hclose, h0, h1⟩ := hcores s.hcore
  have hpend (p : Bool) (h : scalePending s s.hcore = p) : scalePending (s.noted f) (s.frameOf f).core = p := by rw [haround]; exact h
  have hbytes : x.bytes.take 60 = (frameBytes s s.site f 0).take 60 := by
    have hf : (s.frameOf f).bytes = frameBytes s s.site f 0 := List.append_nil _
    obtain rfl | rfl := hcase
    · rw [hf]
    · exact (take_overlay _ _ (by rw [hf, length_frameBytes]; decide)).trans (by rw [hf])
  have hfields : x.cls = f.cls ∧ x.core = s.hcore ∧ x.wslot = s.run.wslot ∧ x.split = s.run.split ∧ x.blk = s.hwarp.blk ∧
      x.cidx = s.cidx ∧ x.answered = false := by
    obtain rfl | rfl := hcase <;> exact ⟨rfl, rfl, rfl, rfl, rfl, rfl, rfl⟩
  obtain ⟨hcls, hcore, hws, hsp, hblk, hcidx, hans⟩ := hfields
  have hheld (h : ((s.noted f).core (s.frameOf f).core).closing = true ∨ scalePending (s.noted f) (s.frameOf f).core = true) : x.seq = none := by
    rw [ht, writeFrame_held hmf h, hmf] at hx
    cases hx; rfl
  refine ⟨hstop.trans halts_stopped, ?word, x, hx, hcls, hcore, hws, hsp, hblk, hcidx, hans, hbytes, fun ho0 ho1 => ?done, fun hc ho => ?closing⟩
  case word =>
    refine Eq.trans ?_ (halts_word (s := s))
    unfold State.warp
    rw [hwarps]; rfl
  case done =>
    obtain ⟨hcl, hr⟩ := halts_over ho0 ho1
    refine ⟨hclose.trans hcl, fun r h => hr r (by rwa [h0, h1] at h), fun hp => hheld (.inr (hpend _ hp)), fun hp hroom hh => ?_⟩
    have hh' : devHold (s.noted f) d.hctx (d.ring + 64 * (d.head % 2 ^ d.n)) 64 true = none := by
      rw [haround]; exact (devHold_around c w k').2 hh
    have hlands := writeFrame_written hmf (records_frameOf s f) hokn hcl (hpend _ hp) (by rw [hdom]; exact hroom) (by rw [hdom]; exact hh')
    rw [← ht, hx, hdom] at hlands
    cases hlands; rfl
  case closing =>
    obtain ⟨hcl, hr⟩ := halts_closing hc ho
    exact ⟨hclose.trans hcl, hheld (.inl hcl), fun r h => hr r (by rwa [h0, h1] at h)⟩

end Sys2Proof.Machine
/-! PROOF. The steps that serve blocked blocks, preempt groups and replay audits (11_traps.md R226, R227, 21_work.md R369, R376, R379,
R386, R389). -/
namespace Sys2Proof.Machine

/-! ### A replay is placed -/

theorem work_foldl {α : Type} {f : State → α → State} (hf : ∀ s x, (f s x).work = s.work) (l : List α) (s : State) :
    (l.foldl f s).work = s.work := by
  induction l generalizing s with
  | nil => rfl
  | cons x r ih => exact (ih _).trans (hf s x)

theorem work_useRegion (s : State) (region : Nat) (rblk bars bytes est blocks : Int) : (useRegion s region rblk bars bytes est blocks).work = s.work :=
  work_foldl (fun s r => by simp only [rcbAdd, pwrite_work]) _ s

theorem work_startWarps (s : State) (b core : Nat) (base : Warp) (k w : Nat) : (startWarps s b core base k w).work = s.work := by
  induction k generalizing s w with
  | zero => rfl
  | succ k ih => exact (ih _ _).trans rfl

theorem work_startBlocks (s : State) (t : Task) (x : Tcb) (l : List Nat) : (startBlocks s t x l).work = s.work := by
  refine (work_foldl (fun _ _ => work_startWarps ..) _ _).trans ?_
  split <;> rfl

theorem work_cleared (m a : Bool) (v : State) (core ctx : Nat) :
    (if m then clearMatrix (if a then dropL1 v core ctx else v) core else (if a then dropL1 v core ctx else v)).work = v.work := by
  cases m <;> cases a <;> rfl

theorem rectCores_single (core : Nat) : rectCores (coreCluster core) (coreX core) (coreY core) 1 1 = [core] := by
  have hc : coreNo (coreCluster core) (coreX core) (coreY core) = core := by
    unfold coreNo coreCluster coreX coreY
    omega
  simp [rectCores, hc]

section
variable {s : State} {idx core : Nat} {a : Audit} {t : Task} (ha : mfind s.work.audits idx = some a) (ht : s.task a.task = some t)
  (hde : s.plat.devErr = false) (hb : a.coreB = none) (hcore : core < 768) (hcl : coreCluster core ≠ coreCluster a.blk.core)
  (hfits : coreFits s core (needOf s (coreCluster core) t (taskTcb s t)) = true) (hsize : (taskTcb s t).size = 1)
  (hw : (taskTcb s t).w = 1) (hh : (taskTcb s t).h = 1)
  (hadm : admits s t.region (needOf s (coreCluster core) t (taskTcb s t)).rblk (needOf s (coreCluster core) t (taskTcb s t)).bars
    (needOf s (coreCluster core) t (taskTcb s t)).bytes (needOf s (coreCluster core) t (taskTcb s t)).est [core] = true)
  (hcor : corruptAt s t.ctx t.tcb 128 = false)
  (hpar : 8 < (taskTcb s t).sregs → corruptAt s t.ctx (taskTcb s t).param (4 * ((taskTcb s t).sregs - 8)) = false)
include ha ht hde hb hcore hcl hfits hsize hw hh hadm hcor hpar

theorem auditReplay_places : ∃ u y, exec (.auditReplay idx core) s = .next u ∧ mfind u.work.audits idx = some y ∧ y.coreB = some core ∧
    y.sigA = a.sigA ∧ (u.blk y.rblk).core = core ∧ (u.blk y.rblk).no = a.blk.no := by
  have hx : coreX core < 16 ∧ coreY core < 12 := by unfold coreX coreY; omega
  have hexec := exec_auditReplay s (idx := idx) (core := core)
  unfold execAuditReplay at hexec
  rw [ha] at hexec
  dsimp only at hexec
  rw [ht] at hexec
  dsimp only at hexec
  simp only [hsize, hw, hh, Nat.mod_one, Nat.zero_div, Nat.sub_zero, rectCores_single core, List.foldl_cons, List.foldl_nil, if_true,
    List.nil_append, List.getD_cons_zero] at hexec
  rw [if_neg ?placed, if_neg ?readable] at hexec
  case placed =>
    simp only [hde, hb, hfits, hadm, hcl, Config.gridW, Config.gridH, Bool.false_eq_true, Option.isSome_none, Bool.not_true, false_or,
      or_false, not_or]
    omega
  case readable =>
    rw [hcor, Bool.false_or, Bool.and_eq_true, decide_eq_true_eq]
    exact fun h => ne_true_of_eq_false (hpar h.1) h.2
  refine ⟨_, { a with coreB := some core, rblk := s.fresh.2.fresh.1 }, hexec, ?audit, rfl, rfl, ?core, ?no⟩
  case audit =>
    rw [work_startBlocks, work_useRegion, work_cleared]
    exact (mfind_mput ..).trans (if_pos rfl)
  case core =>
    unfold State.blk
    rw [work_startBlocks, work_useRegion, work_cleared]
    refine (congrArg Block.core (mget_mput ..)).trans ?_
    dsimp only
    rw [if_pos rfl]
    rfl
  case no =>
    unfold State.blk
    rw [work_startBlocks, work_useRegion, work_cleared]
    refine (congrArg Block.no (mget_mput ..)).trans ?_
    dsimp only
    rw [if_pos rfl]
    rfl

end

/-! ### Preemption -/

section
variable {s : State} {b : Nat}

theorem wyieldRelease_early (h : allYield s b = false) : exec (.wyieldRelease b) s = .next s :=
  (exec_wyieldRelease s).trans (congrArg Host.Outcome.next (if_pos (congrArg (!·) h)))

theorem wyieldRelease_serves {y : Group} (h : allYield s b = true) (hg : mfind s.work.groups (s.blk b).grp = some y) (hp : y.pre = none)
    (hr : (s.blk b).isReplay = false) : exec (.wyieldRelease b) s = .next
      (if s.work.tasks.any (fun p => p.2.due && p.2.part == partOf s y.cluster &&
        awaits s p.1 p.2 (mkeys s.work.groups) (goingGroups s) (s.blk b).grp) = true then requestSave s (s.blk b).grp y none [b]
      else releaseYield s b 0) := by
  refine (exec_wyieldRelease s).trans (congrArg Host.Outcome.next ((if_neg (ne_true_of_eq_false (congrArg (!·) h))).trans ?_))
  rw [hg]
  simp only [hp, hr, Bool.not_false, Bool.and_true]

theorem watchdogExpire_saves {d : Nat} {g : Group} (he : (s.blk b).ended = false) (hx : expired s (s.blk b) = some d)
    (hg : mfind s.work.groups (s.blk b).grp = some g) (hp : g.pre = none) (hr : (s.blk b).isReplay = false) :
    exec (.watchdogExpire b) s = .next (requestSave s (s.blk b).grp g (some (b, d)) []) := by
  refine (exec_watchdogExpire s).trans ?_
  unfold execWatchdogExpire
  dsimp only
  rw [he, hx, hg]
  simp only [Bool.false_eq_true, if_false, hp, hr]
  rfl

theorem wfetchFill_turn {i : Nat} {f : Fetch} (hf : mfind s.work.fetches i = some f) (hc : corruptAt s f.ctx f.tcb 128 = false)
    (hh : devHolds s (changeOf f.ctx f.tcb 128) = none) :
    exec (.wfetchFill i) s = .next (serveFetch i f (devUses s (changeOf f.ctx f.tcb 128))) := by
  refine (exec_wfetchFill s).trans ?_
  unfold execWfetchFill
  rw [hf]
  refine (if_neg (ne_true_of_eq_false hc)).trans ?_
  rw [devTurn_eq, hh]
  rfl

end

/-! ### A waiting `wfetch` -/

/-- A `wfetch` leaves the table. -/
def State.unqueued (s : State) (i : Nat) : State := { s with work := { s.work with fetches := mdel s.work.fetches i } }

/-- The block that a `wfetch` withdraws: that of the armed task with its TCB, if one is left. -/
def fetchable (u : State) (f : Fetch) : Option ((Nat × Task) × Nat) :=
  (armedTask u f.ctx f.tcb).bind (fun p => (freeBlock p.2 (taskTcb u p.2)).map (fun b => (p, b)))

theorem serveFetch_empty {v : State} {i : Nat} {f : Fetch} (h : fetchable (v.unqueued i) f = none) :
    serveFetch i f v = fillMailbox (v.unqueued i) f 0xFFFFFFFF 1 := by
  unfold serveFetch
  dsimp only
  split
  · rename_i hs
    cases hs.symm.trans h
  · rfl

theorem serveFetch_withdraws {v : State} {i k no : Nat} {f : Fetch} {y : Task} (h : fetchable (v.unqueued i) f = some ((k, y), no)) :
    serveFetch i f v = settleReady (fillMailbox
      ((tcbCount ((v.unqueued i).setTask k { y with withdrawn := y.withdrawn ++ [no] }) y 0x48 1).updBlk f.blk
        (fun x => { x with took := x.took ++ [(k, no, false)] })) f no 0) := by
  unfold serveFetch
  dsimp only
  split
  · rename_i hs
    cases hs.symm.trans h
    rfl
  · rename_i hs
    cases hs.symm.trans h

/-! ### The group that a starved task preempts -/

theorem foldl_of_nil {α β : Type} {f : β → α → β} {b : β} {l : List α} (h : l = []) : l.foldl f b = b := by rw [h]; rfl

section
variable {α : Type} {better : α → α → Prop} {f : Option α → α → Option α} {b : α}
  (htake : ∀ q p, better p q → f (some q) p = some p) (hkeep : ∀ q p, ¬ better p q → f (some q) p = some q)
include hkeep

theorem foldl_keeps_best (l : List α) (h : ∀ p ∈ l, ¬ better p b) : l.foldl f (some b) = some b := by
  induction l with
  | nil => rfl
  | cons p r ih =>
    rw [List.foldl_cons, hkeep b p (h p List.mem_cons_self)]
    exact ih (fun q hq => h q (List.mem_cons_of_mem _ hq))

variable (hasym : ∀ p, better b p → ¬ better p b) (hirr : ¬ better b b)
include hasym hirr

theorem foldl_keeps_better {l : List α} (h : ∀ p ∈ l, p ≠ b → better b p) : l.foldl f (some b) = some b := by
  refine foldl_keeps_best hkeep l (fun p hp => ?_)
  by_cases hpb : p = b
  · rwa [hpb]
  · exact hasym p (h p hp hpb)

include htake

theorem foldl_finds_best (l : List α) (hb : b ∈ l) (h : ∀ p ∈ l, p ≠ b → better b p) {q : α} (hq : better b q) :
    l.foldl f (some q) = some b := by
  induction l generalizing q with
  | nil => cases hb
  | cons p r ih =>
    have hr : ∀ p ∈ r, p ≠ b → better b p := fun x hx => h x (List.mem_cons_of_mem _ hx)
    rw [List.foldl_cons]
    by_cases hpb : p = b
    · rw [hpb, htake q b hq]
      exact foldl_keeps_better hkeep hasym hirr hr
    · have hmem : b ∈ r := (List.mem_cons.1 hb).resolve_left (Ne.symm hpb)
      by_cases hpq : better p q
      · rw [htake q p hpq]
        exact ih hmem hr (h p List.mem_cons_self hpb)
      · rw [hkeep q p hpq]
        exact ih hmem hr hq

/-- A fold that keeps the better of two finds the element that is better than every other. -/
theorem foldl_best (hstart : ∀ p, f none p = some p) (l : List α) (hb : b ∈ l) (h : ∀ p ∈ l, p ≠ b → better b p) :
    l.foldl f none = some b := by
  cases l with
  | nil => cases hb
  | cons p r =>
    have hr : ∀ p ∈ r, p ≠ b → better b p := fun x hx => h x (List.mem_cons_of_mem _ hx)
    rw [List.foldl_cons, hstart]
    by_cases hpb : p = b
    · rw [hpb]
      exact foldl_keeps_better hkeep hasym hirr hr
    · exact foldl_finds_best htake hkeep hasym hirr r ((List.mem_cons.1 hb).resolve_left (Ne.symm hpb)) hr (h p List.mem_cons_self hpb)

end

/-- The priority of the task whose blocks a group holds. -/
def groupPrio (s : State) (g : Group) : Nat :=
  match s.task g.task with
  | some y => taskPrio s y
  | none => 15

/-- When a group was placed. -/
def placedAt (s : State) (g : Group) : Nat := (s.blk (g.blocks.headD 0)).began

/-- The groups that a task may preempt. -/
def weaker (s : State) (t : Task) : SMap Group :=
  s.work.groups.filter (fun p => partOf s p.2.cluster == t.part && p.2.pre.isNone && !(s.blk (p.2.blocks.headD 0)).isReplay &&
    decide (groupPrio s p.2 + 4 ≤ taskPrio s t))

/-- Those that hold what the task awaits. -/
def victimsOf (s : State) (i : Nat) (t : Task) : SMap Group :=
  (weaker s t).filter (fun p => awaits s i t (mkeys (weaker s t)) (goingGroups s) p.1)

section
variable {s : State} {i : Nat} {t : Task} (ht : (noteWaits s).task i = some t)
include ht

theorem preemptionStarvation_young (h : ∀ x, t.waits = some x → s.plat.time < x + 1000000) :
    exec (.preemptionStarvation i) s = .next (noteWaits s) := by
  refine (exec_preemptionStarvation s).trans ?_
  unfold execPreemptionStarvation
  dsimp only
  rw [ht]
  refine if_pos ?_
  cases hw : t.waits with
  | none => rfl
  | some x =>
    rw [Option.any_some, Bool.not_eq_true', decide_eq_false_iff_not]
    exact Nat.not_le.2 (h x hw)

variable {x : Nat} (hw : t.waits = some x) (hx : x + 1000000 ≤ s.plat.time)
include hw hx

theorem preemptionStarvation_none (h : victimsOf (noteWaits s) i t = []) : exec (.preemptionStarvation i) s = .next (noteWaits s) := by
  refine (exec_preemptionStarvation s).trans ?_
  unfold execPreemptionStarvation
  dsimp only
  rw [ht]
  refine (if_neg ?_).trans ?_
  · rw [hw, Option.any_some, Bool.not_eq_true', decide_eq_false_iff_not, not_not]
    exact hx
  · split
    · rename_i p hp
      exact absurd (hp.symm.trans (foldl_of_nil h)) (Option.some_ne_none p)
    · rfl

/-- Whether a group is preempted before another. -/
def SoonerGone (s : State) (p q : Nat × Group) : Prop :=
  groupPrio s p.2 < groupPrio s q.2 ∨ groupPrio s p.2 = groupPrio s q.2 ∧ placedAt s q.2 < placedAt s p.2

theorem preemptionStarvation_picks {p : Nat × Group} (hm : p ∈ victimsOf (noteWaits s) i t)
    (hb : ∀ q ∈ victimsOf (noteWaits s) i t, q ≠ p → SoonerGone (noteWaits s) p q) :
    exec (.preemptionStarvation i) s = .next (preempt (noteWaits s) p.1 100) := by
  refine (exec_preemptionStarvation s).trans ?_
  unfold execPreemptionStarvation
  dsimp only
  rw [ht]
  refine (if_neg ?_).trans ?_
  · rw [hw, Option.any_some, Bool.not_eq_true', decide_eq_false_iff_not, not_not]
    exact hx
  · have hasym (q : Nat × Group) (h : SoonerGone (noteWaits s) p q) : ¬ SoonerGone (noteWaits s) q p := by
      unfold SoonerGone at *; omega
    have hirr : ¬ SoonerGone (noteWaits s) p p := by unfold SoonerGone; omega
    split
    · rename_i r hr
      have hp : some r = some p := hr.symm.trans (foldl_best (fun _ _ h => if_pos h) (fun _ _ h => if_neg h) hasym hirr (fun _ => rfl) _ hm hb)
      cases hp; rfl
    · rename_i hr
      exact absurd (hr.symm.trans (foldl_best (fun _ _ h => if_pos h) (fun _ _ h => if_neg h) hasym hirr (fun _ => rfl) _ hm hb)) (Option.some_ne_none p).symm

end

/-! ### The end of a replay -/

theorem task_auditRecord (s : State) (tcb blk result coreA coreB : Nat) (sigA sigB : DWord) (i : Nat) :
    (auditRecord s tcb blk result coreA coreB sigA sigB).task i = s.task i := by
  obtain ⟨b, m, so, sc, v, h⟩ := BytesOnly.logRecord s 2 3 (leBytes 8 tcb ++ leBytes 4 blk ++ leBytes 4 result ++ leBytes 4 (coreCode coreA) ++
    leBytes 4 (coreCode coreB) ++ leBytes 8 sigA.toNat ++ leBytes 8 sigB.toNat ++ leBytes 8 s.plat.time ++ copies 16 0)
  unfold auditRecord
  rw [h]
  rfl

/-- An audit is over: it leaves the table, its task awaits one fewer, and the group of the replay ends. -/
def State.auditOver (s : State) (idx : Nat) (a : Audit) (t : Task) (k : Nat) : State :=
  endGroup ({ s with work := { s.work with audits := mdel s.work.audits idx } }.setTask a.task { t with audits := t.audits - 1 }) k

section
variable {s : State} {idx : Nat} {a : Audit} {t : Task} (ha : mfind s.work.audits idx = some a) (hp : a.coreB.isSome = true)
  (he : (s.blk a.rblk).ended = true) (ht : s.task a.task = some t) (hr : a.result = 0)
include ha hp he ht hr

theorem auditReplayEnd_equal (h : (s.blk a.rblk).sig = a.sigA) : exec (.auditReplayEnd idx) s =
    .next ({ s with plat := { s.plat with matched := s.plat.matched + 1 } }.auditOver idx a t (s.blk a.rblk).grp) := by
  refine (exec_auditReplayEnd s).trans ?_
  unfold execAuditReplayEnd
  rw [ha]
  dsimp only
  rw [if_neg (by rw [← Option.not_isSome, hp, he]; simp only [Bool.not_true, Bool.or_self, Bool.false_eq_true, not_false_iff]), if_pos ⟨hr, h⟩]
  split
  · rename_i u hu
    cases hu.symm.trans ht
    rfl
  · rename_i hu
    cases hu.symm.trans ht

theorem auditReplayEnd_unequal (h : (s.blk a.rblk).sig ≠ a.sigA) : exec (.auditReplayEnd idx) s =
    .next ((auditRecord s t.tcb a.blk.no 1 a.blk.core (a.coreB.getD 0) a.sigA (s.blk a.rblk).sig).auditOver idx a t (s.blk a.rblk).grp) := by
  refine (exec_auditReplayEnd s).trans ?_
  unfold execAuditReplayEnd
  rw [ha]
  dsimp only
  rw [if_neg (by rw [← Option.not_isSome, hp, he]; simp only [Bool.not_true, Bool.or_self, Bool.false_eq_true, not_false_iff]), if_neg (fun hc => h hc.2), if_pos hr, if_pos hr, ht]
  have ht' := (task_auditRecord s t.tcb a.blk.no 1 a.blk.core (a.coreB.getD 0) a.sigA (s.blk a.rblk).sig a.task).trans ht
  split
  · rename_i u hu
    cases hu.symm.trans ht'
    rfl
  · rename_i hu
    cases hu.symm.trans ht'

end

/-- Settles O48: a blocked claim, yield or `wfetch` is served, an expired watchdog's block is saved, a starved task preempts the youngest
of the weakest groups that hold what it awaits, and an audit replay is placed and its signatures compared. -/
theorem blockEvents : Obligations.BlockEvents := by
  unfold Obligations.BlockEvents
  intro s b i idx n t g h f a
  refine ⟨?replay, ?claim, ⟨exec_wyieldRelease s, wyieldRelease_early⟩, fun y => wyieldRelease_serves, ?fetch, ?watchdog, ?starved, ?compared⟩
  case replay =>
    intro core ha ht hde hb hcore x need hcl hfits hsize hw hh hadm hcor hpar
    exact auditReplay_places ha ht hde hb hcore hcl hfits hsize hw hh hadm hcor hpar
  case claim =>
    intro he
    exact (exec_claimGrant s).trans (if_neg (ne_true_of_eq_false he))
  case fetch =>
    intro hf hc hh v u found
    have hserve := wfetchFill_turn hf hc hh
    refine ⟨fun hn => hserve.trans (congrArg Host.Outcome.next ?_), fun k y no hs => hserve.trans (congrArg Host.Outcome.next ?_)⟩
    · exact serveFetch_empty hn
    · exact serveFetch_withdraws hs
  case watchdog =>
    intro d he hx hg hp hr
    exact ⟨watchdogExpire_saves he hx hg hp hr, fun hs => if_neg (ne_true_of_eq_false hs)⟩
  case starved =>
    intro u ht
    refine ⟨preemptionStarvation_young ht, fun x hw hx => ⟨preemptionStarvation_none ht hw hx, ?_⟩⟩
    exact preemptionStarvation_picks ht hw hx
  case compared =>
    intro ha hp he ht hr
    exact ⟨auditReplayEnd_equal ha hp he ht hr, auditReplayEnd_unequal ha hp he ht hr⟩

end Sys2Proof.Machine
/-! PROOF. The steps of the work scheduler (05_control.md R107, 21_work.md R359, R361 to R366, R370, R371). -/
namespace Sys2Proof.Machine

/-! ### Queues -/

section
variable {s : State} {q port tail part : Nat}

theorem doorbell_writes (hr : s.plat.qroot ≠ 0) (hq : q < queueCount) (hp : port < 2) (hu : hostUp s port = true) (ht : tail < 2 ^ 32)
    (hn : (tail + 2 ^ 32 - (queueAt s q).head) % 2 ^ 32 ≤ 2 ^ (queueAt s q).n) :
    exec (.doorbell port q tail) s = .next (pwrite s (s.plat.qroot + 32 * q + 0x14) (leBytes 4 tail)) := by
  refine (exec_doorbell s).trans ?_
  unfold execDoorbell
  rw [if_neg (by simp only [hr, hu, Nat.not_le.2 hq, Nat.not_le.2 hp, Bool.not_true, Bool.false_eq_true, or_self, not_false_iff])]
  rw [Nat.mod_eq_of_lt ht]
  exact if_neg (Nat.not_lt.2 hn)

theorem doorbell_overfull (hr : s.plat.qroot ≠ 0) (hq : q < queueCount) (hp : port < 2) (hu : hostUp s port = true) (ht : tail < 2 ^ 32)
    (hn : 2 ^ (queueAt s q).n < (tail + 2 ^ 32 - (queueAt s q).head) % 2 ^ 32) :
    exec (.doorbell port q tail) s = .next (hostError s 1 (0x20 + port) (queueAt s q).ctx q tail 0) := by
  refine (exec_doorbell s).trans ?_
  unfold execDoorbell
  rw [if_neg (by simp only [hr, hu, Nat.not_le.2 hq, Nat.not_le.2 hp, Bool.not_true, Bool.false_eq_true, or_self, not_false_iff])]
  rw [Nat.mod_eq_of_lt ht]
  exact if_pos hn

/-- A partition's turn goes past queue `q`. -/
def State.tookFrom (s : State) (part q : Nat) : State := { s with work := { s.work with lastQ := mset 0 s.work.lastQ part (q + 1) } }

/-- Where the record stands that a queue gives next. -/
def recordVa (u : State) (q : Nat) : Nat := (queueAt u q).ring + 64 * ((queueAt u q).head % 2 ^ (queueAt u q).n)

/-- That record. -/
def recordAt (u : State) (q : Nat) : List Byte := (devRead u (queueAt u q).ctx (recordVa u q) 64).getD (copies 64 0)

variable (hd : s.plat.devErr = false) (hb : s.plat.boot = 4) (hp : part < 4) (hn : nextQueue s part = some q)
include hd hb hp hn

theorem queueTake_hostQueue (hq : q < queueCount)
    (hc : corruptAt (s.tookFrom part q) (queueAt (s.tookFrom part q) q).ctx (recordVa (s.tookFrom part q) q) 64 = false)
    (hl : launchCorrupt (s.tookFrom part q) (queueAt (s.tookFrom part q) q).ctx (recordAt (s.tookFrom part q) q) = false) :
    exec (.queueTake part) s = .next (devTurn (s.tookFrom part q)
      (readOf (queueAt (s.tookFrom part q) q).ctx (recordVa (s.tookFrom part q) q) 64 ++
        launchAccs (s.tookFrom part q) (queueAt (s.tookFrom part q) q).ctx (recordAt (s.tookFrom part q) q))
      (fun v => settleReady (launchRecord
        (pwrite v (v.plat.qroot + 32 * q + 0x10) (leBytes 4 ((queueAt (s.tookFrom part q) q).head + 1)))
        (queueAt (s.tookFrom part q) q).ctx (queueAt (s.tookFrom part q) q).region (recordAt (s.tookFrom part q) q)))) := by
  refine (exec_queueTake s).trans ?_
  unfold execQueueTake
  rw [if_neg (by simp only [hd, hb, Nat.not_le.2 hp, Bool.false_eq_true, ne_eq, not_true, or_self, not_false_iff]), hn]
  refine (if_pos hq).trans (if_neg ?_)
  exact ne_true_of_eq_false (Bool.or_eq_false_iff.2 ⟨hc, hl⟩)

theorem queueTake_deviceQueue (hq : queueCount ≤ q) {y : Nat × List Byte} {rest : List (Nat × List Byte)}
    (hm : mget s.work.devq [] (q - queueCount) = y :: rest) (hl : launchCorrupt (s.tookFrom part q) y.1 y.2 = false) :
    exec (.queueTake part) s = .next (devTurn (s.tookFrom part q) (launchAccs (s.tookFrom part q) y.1 y.2)
      (fun v => settleReady (launchRecord
        { v with work := { v.work with devq := mset [] v.work.devq (q - queueCount) rest } } y.1 (q - queueCount) y.2))) := by
  refine (exec_queueTake s).trans ?_
  unfold execQueueTake
  rw [if_neg (by simp only [hd, hb, Nat.not_le.2 hp, Bool.false_eq_true, ne_eq, not_true, or_self, not_false_iff]), hn]
  refine (if_neg (Nat.not_lt.2 hq)).trans ?_
  dsimp only
  rw [hm]
  exact if_neg (ne_true_of_eq_false hl)

end

/-! ### Tasks -/

section
variable {s : State} {i part : Nat} {t : Task}

theorem priorityAging_ages (ht : s.task i = some t) (hw : waiting s (i, t) = true) (hp : taskPrio s t < 15)
    (ha : t.since + 1000000 * (t.aged + 1) ≤ s.plat.time) :
    exec (.priorityAging i) s = .next (settleReady (s.setTask i { t with aged := t.aged + 1 })) := by
  refine (exec_priorityAging s).trans ?_
  unfold execPriorityAging
  rw [ht]
  exact if_pos (by rw [hw, decide_eq_true hp, decide_eq_true ha]; rfl)

theorem taskDue_marks {rest : List (Nat × Task)} {y : Nat} (hl : readyList (settleReady s) part = (i, t) :: rest) (hf : t.first = some y)
    (hy : y + 8000000 ≤ (settleReady s).plat.time) : exec (.taskDue part) s = .next ((settleReady s).setTask i { t with due := true }) := by
  refine (exec_taskDue s).trans ?_
  unfold execTaskDue
  dsimp only
  rw [hl]
  dsimp only
  rw [hf, Option.any_some, decide_eq_true hy, if_pos rfl]

theorem taskRetire_corrupt (ht : s.task i = some t) (hc : corruptAt s t.ctx t.tcb 128 = true) :
    exec (.taskRetire i) s = .next (deviceError s) := by
  refine (exec_taskRetire s).trans ?_
  unfold execTaskRetire
  rw [ht]
  exact if_pos hc

theorem taskRetire_undone (ht : s.task i = some t) (hc : corruptAt s t.ctx t.tcb 128 = false) (hd : taskDone s i t = false) :
    exec (.taskRetire i) s = .next s := by
  refine (exec_taskRetire s).trans ?_
  unfold execTaskRetire
  rw [ht]
  exact (if_neg (ne_true_of_eq_false hc)).trans (if_pos (congrArg (!·) hd))

theorem taskRetire_done (ht : s.task i = some t) (hc : corruptAt s t.ctx t.tcb 128 = false) (hd : taskDone s i t = true)
    (hr : retireCorrupt s t (taskTcb s t) = false) (hh : devHolds s (retireAccs s t (taskTcb s t)) = none) :
    exec (.taskRetire i) s = .next (retireTask i t (devUses s (retireAccs s t (taskTcb s t)))) := by
  refine (exec_taskRetire s).trans ?_
  unfold execTaskRetire
  rw [ht]
  refine (if_neg (ne_true_of_eq_false hc)).trans ((if_neg (ne_true_of_eq_false (congrArg (!·) hd))).trans ?_)
  rw [if_neg (ne_true_of_eq_false hr), devTurn_acts hh]

theorem retireTask_alone (u : State) (h : t.graph = 0) : retireTask i t u = settleReady (dropTask ((successors u t (taskTcb u t)).foldl
    (fun s va => decPred s t va) (completionWord ((retiredState (devWrite (devWrite u t.ctx (t.tcb + 0x1E) (leBytes 2 (taskTcb u t).pred0))
      t.ctx (t.tcb + 0x48) (copies 8 0)) t).setTask i
        { t with st := if t.failed then 4 else 3, groups := [], withdrawn := [], posts := [], stores := [] })
      t.ctx t.cw t.cv (if t.failed then 1 else 0))) i) := by
  unfold retireTask
  dsimp only
  rw [if_pos h, if_pos h]

theorem retireTask_graph (u : State) (h : t.graph ≠ 0) : retireTask i t u = settleReady (finishGraph ((successors u t (taskTcb u t)).foldl
    (fun s va => decPred s t va) ((retiredState (devWrite (devWrite u t.ctx (t.tcb + 0x1E) (leBytes 2 (taskTcb u t).pred0))
      t.ctx (t.tcb + 0x48) (copies 8 0)) t).setTask i
        { t with st := if t.failed then 4 else 3, groups := [], withdrawn := [], posts := [], stores := [] })) (t.graph - 1)) := by
  unfold retireTask
  dsimp only
  rw [if_neg h, if_neg h]

end

/-! ### Warps and groups -/

section
variable {s : State} {g core ws : Nat} {counts : List Nat} {x : Group} {p : Preempt} {t : Task}

theorem warpFree_frees (hw : ws < 32) (hm : mayFree s core ws = true) (hh : devHolds s (freeAccs s (s.warp core ws).blk) = none) :
    exec (.warpFree core ws counts) s = .next (freeWarp core ws counts (devUses s (freeAccs s (s.warp core ws).blk))) := by
  refine (exec_warpFree s).trans ?_
  unfold execWarpFree
  rw [if_neg (by simp only [hm, Nat.not_le.2 hw, Bool.not_true, Bool.false_eq_true, or_self, not_false_iff]), devTurn_acts hh]

variable (hg : mfind s.work.groups g = some x) (hp : x.pre = some p) (hway : p.way = 1 ∨ p.way = 2)
include hg hp hway

theorem rldSaveTimeout_late (ht : p.since + 50000 ≤ s.plat.time) :
    exec (.rldSaveTimeout g) s = .next (s.setGroup g { x with pre := some { p with late := true } }) := by
  refine (exec_rldSaveTimeout s).trans ?_
  unfold execRldSaveTimeout
  rw [hg]
  dsimp only
  rw [hp]
  refine if_pos ?_
  rw [decide_eq_true ht, Bool.and_true, Bool.or_eq_true, beq_iff_eq, beq_iff_eq]
  exact hway

variable (ht : s.task x.task = some t) (hq : (liveBlocks s x).all (fun b => blockQuiet s b p.late) = true)
  (hc : poolCorrupt s (s.blk ((liveBlocks s x).headD 0)).ctx (s.blk ((liveBlocks s x).headD 0)).region = false)
include ht hq hc

theorem saveComplete_saves
    (hl : (liveBlocks s x).length ≤ (freeSlots s (s.blk ((liveBlocks s x).headD 0)).ctx (s.blk ((liveBlocks s x).headD 0)).region
      (liveBlocks s x).length).length) :
    exec (.saveComplete g) s = .next (devTurn s (saveAccs s (liveBlocks s x) (freeSlots s (s.blk ((liveBlocks s x).headD 0)).ctx
      (s.blk ((liveBlocks s x).headD 0)).region (liveBlocks s x).length))
      (fun u => saveGroup u g x p t (freeSlots s (s.blk ((liveBlocks s x).headD 0)).ctx (s.blk ((liveBlocks s x).headD 0)).region
        (liveBlocks s x).length))) := by
  refine (exec_saveComplete s).trans ?_
  unfold execSaveComplete
  rw [hg]
  dsimp only
  rw [hp, ht]
  dsimp only
  rw [if_neg (by omega), if_neg (by omega), if_neg (by rw [hq]; rcases hway with h | h <;> rw [h] <;> decide), if_neg (ne_true_of_eq_false hc),
    if_pos hl]

theorem saveComplete_waits
    (hl : (freeSlots s (s.blk ((liveBlocks s x).headD 0)).ctx (s.blk ((liveBlocks s x).headD 0)).region
      (liveBlocks s x).length).length < (liveBlocks s x).length) (hw : p.watchdog = none) :
    exec (.saveComplete g) s = .next
      (p.yield.foldl (fun s y => releaseYield s y 0) (s.setGroup g { x with pre := some { p with way := 0, yield := [] } })) := by
  refine (exec_saveComplete s).trans ?_
  unfold execSaveComplete
  rw [hg]
  dsimp only
  rw [hp, ht]
  dsimp only
  rw [if_neg (by omega), if_neg (by omega), if_neg (by rw [hq]; rcases hway with h | h <;> rw [h] <;> decide), if_neg (ne_true_of_eq_false hc),
    if_neg (Nat.not_le.2 hl), hw]
  rfl

end

/-! ### Dispatch -/

/-- The round of a partition goes past a cluster. -/
def State.turnTo (s : State) (cluster : Nat) : State :=
  { s with work := { s.work with turn := mput s.work.turn (partOf s cluster) (nextTurn s (partOf s cluster) cluster) } }

/-- The tasks that a partition may start: the first that is due, or all that are ready. -/
def startable (u : State) (part : Nat) : List (Nat × Task) :=
  match (readyList u part).find? (fun p => p.2.due) with
  | some d => [d]
  | none => readyList u part

theorem dispatchDecision_turn {s : State} {cluster : Nat} (hd : s.plat.devErr = false) (hc : cluster < 4)
    (ht : cluster = mget s.work.turn (nextTurn s (partOf s cluster) 4) (partOf s cluster)) :
    exec (.dispatchDecision cluster) s = if mget s.plat.headroom 0 cluster = 0 then .next (s.turnTo cluster)
      else .next (settleReady (decideOver (s.turnTo cluster) cluster none (startable (s.turnTo cluster) (partOf s cluster)))) :=
  (exec_dispatchDecision s).trans (if_neg (by simp only [hd, Nat.not_le.2 hc, ← ht, Bool.false_eq_true, ne_eq, not_true, or_self, not_false_iff]))

/-- Settles O47: each turn of the scheduler whose premises hold acts as its rule says, after the device's own accesses have their turn. -/
theorem workEvents : Obligations.WorkEvents := by
  unfold Obligations.WorkEvents
  intro s i q port tail core ws part g cluster counts t p x w
  refine ⟨?bell, ?hostQueue, ?deviceQueue, priorityAging_ages, fun rest y => taskDue_marks, taskRetire_corrupt, taskRetire_undone,
    ?retire, ?free, ?save, ?dispatch⟩
  case bell =>
    intro hr hq hp hu ht n
    exact ⟨doorbell_writes hr hq hp hu ht, doorbell_overfull hr hq hp hu ht⟩
  case hostQueue =>
    intro hd hb hp hn hq u y r accs v hc hl hh
    exact (queueTake_hostQueue hd hb hp hn hq hc hl).trans (congrArg Host.Outcome.next (devTurn_acts hh _))
  case deviceQueue =>
    intro y rest hd hb hp hn hq u hm hl hh v
    exact (queueTake_deviceQueue hd hb hp hn hq hm hl).trans (congrArg Host.Outcome.next (devTurn_acts hh _))
  case retire =>
    intro ht hc hr hd hh
    have hdone := taskRetire_done ht hc hd hr hh
    exact ⟨fun h => hdone.trans (congrArg Host.Outcome.next (retireTask_alone _ h)),
      fun h => hdone.trans (congrArg Host.Outcome.next (retireTask_graph _ h))⟩
  case free =>
    intro hws hm hh y hy
    subst hy
    exact warpFree_frees hws hm hh
  case save =>
    intro hg hp hway
    refine ⟨rldSaveTimeout_late hg hp hway, ?_⟩
    intro ht hq b slots hc
    refine ⟨fun hl hh => ?_, saveComplete_waits hg hp hway ht hq hc⟩
    exact (saveComplete_saves hg hp hway ht hq hc hl).trans (congrArg Host.Outcome.next (devTurn_acts hh _))
  case dispatch =>
    intro hd hc ht u l
    exact ⟨fun h => (dispatchDecision_turn hd hc ht).trans (if_pos h), fun h => (dispatchDecision_turn hd hc ht).trans (if_neg h)⟩

end Sys2Proof.Machine
/-! PROOF. The steps of residency, retirement, arrivals and cache lines (09_extents.md R178, R187, 10_sync.md R204, R209, 12_atomics.md
R232 to R237, R245, R253). -/
namespace Sys2Proof.Machine

/-! ### Residency and retirement -/

section
variable {s : State} {e : LiveExt}

theorem residencyDemote_first {v : List LiveExt} {noff : Nat} (hv : victims s = e :: v)
    (hp : findAnyPool s (extDesc s e).ent.len (extDesc s e).ent.ctx (extDesc s e).ent.xid (extDesc s e).pl.off = some noff)
    (hf : engineFull s (slideEngine (extDesc s e).pl.off noff) = false) :
    exec (.residencyDemote e.ctx e.xid) s = .next (acceptSlide s (extDesc s e) noff 7 0) := by
  refine (exec_residencyDemote s).trans ?_
  unfold execResidencyDemote
  rw [hv]
  refine (if_pos ⟨rfl, rfl⟩).trans (congrArg Host.Outcome.next ?_)
  unfold demoteAll
  dsimp only
  rw [hp]
  dsimp only
  rw [if_neg (ne_true_of_eq_false hf)]
  rfl

/-- The extents that the residency manager may promote. -/
def promotable (s : State) : List LiveExt :=
  s.mem.exts.filter (fun x => (extDesc s x).movable && !(extDesc s x).pin && (extDesc s x).inHost && !sliding s (extDesc s x) && x.stage == 0)

theorem residencyPromote_first (hf : (promotable s).find? (fun x => x.ctx == e.ctx && x.xid == e.xid) = some e)
    (ha : (promotable s).all (fun x => decide ((extDesc s x).prio ≤ (extDesc s e).prio)) = true) :
    exec (.residencyPromote e.ctx e.xid) s = .next (promote s (extDesc s e) 7 0 false).2 := by
  refine (exec_residencyPromote s).trans ?_
  unfold execResidencyPromote
  dsimp only
  split
  · rename_i x hx
    cases hx.symm.trans hf
    exact if_pos ha
  · rename_i hx
    cases hx.symm.trans hf

theorem retireAccessesDrained_retires (hl : liveExt s e.ctx e.xid = some e) (hr : s.plat.retiring = some (e.ctx, e.xid))
    (hb : extBusy s (extDesc s e) = false) (ha : (extDesc s e).ent.al = true) (hs : slideOf s e.ctx e.xid = none) :
    exec (.retireAccessesDrained e.ctx e.xid) s = .next (removeExtent s e (extDesc s e)) := by
  refine (exec_retireAccessesDrained s).trans ?_
  unfold execRetireAccessesDrained
  rw [hl]
  dsimp only
  rw [ha, if_neg (by simp only [hr, hb, Bool.not_true, Bool.false_and, Bool.false_eq_true, ne_eq, not_true, or_self, not_false_iff]), if_pos rfl,
    Bool.not_true, Bool.false_and, if_neg Bool.false_ne_true, hs]

end

/-! ### Arrivals and waits -/

section
variable {s : State} {core ws sp : Nat}

theorem objGet_updWarp (s : State) (c w : Nat) (f : Warp → Warp) (r : ObjRef) : objGet (s.updWarp c w f) r = objGet s r := by
  cases r <;> rfl

theorem arrivalCounted_counts {a : Arrival} {rest : List Arrival} (ha : (s.warp core ws).arrivals = a :: rest)
    (hr : releaseDone s core ws a.id (objGet s a.obj).scope = true) (hs : (objGet s a.obj).scope < 3) (hx : (objGet s a.obj).exparr ≠ 0)
    (hab : (objGet s a.obj).ab = false) (hn : (objGet s a.obj).arr < 65535) (hd : a.drop = false) :
    exec (.arrivalCounted core ws) s = .next (((objPut (s.updWarp core ws (fun w => { w with arrivals := rest })) a.obj
      (advanceObj { objGet s a.obj with arr := (objGet s a.obj).arr + 1 })).updWarp core ws
        (·.setS a.sv (BitVec.ofNat 32 (objGet s a.obj).phase))).updWarp core ws (·.setStatus a.d (if (objGet s a.obj).er then 2 else 0))) := by
  refine (exec_arrivalCounted s).trans ?_
  unfold execArrivalCounted
  rw [ha]
  refine (if_pos hr).trans (congrArg Host.Outcome.next ?_)
  unfold countArrival
  rw [objGet_updWarp]
  dsimp only
  rw [if_neg (Nat.not_le.2 hs), if_neg (by rw [beq_iff_eq]; exact hx), hab, hd, if_neg Bool.false_ne_true, Bool.false_and,
    if_neg Bool.false_ne_true, if_neg Bool.false_ne_true]
  unfold State.count16
  rw [if_pos hn]
  rfl

variable (h2 : ((s.warp core ws).split sp).state = 2) (hk : (s.core core).stopped = false)
include h2 hk

theorem blockedWordResume_bar {b : ObjRef} {ph : Word} {dd : Nat} (ho : ((s.warp core ws).split sp).on = .bar b ph dd) :
    exec (.blockedWordResume core ws sp) s = .next (endBarWait s core ws sp b ph dd) := by
  refine (exec_blockedWordResume s).trans ?_
  unfold execBlockedWordResume
  dsimp only
  rw [ho, h2, hk, if_neg (by simp only [ne_eq, not_true, Bool.false_eq_true, false_and, or_self, not_false_iff])]

theorem blockedWordResume_counters {ld st cp tl rm : Nat} (ho : ((s.warp core ws).split sp).on = .counters ld st cp tl rm 0)
    (he : (s.warp core ws).errs = []) (hn : (s.warp core ws).errCount = 0) (hm : (s.warp core ws).countersMet ld st cp tl rm = true) :
    exec (.blockedWordResume core ws sp) s = .next (unblock (acquireAt s core (s.warp core ws).ctx 0) core ws sp 1) := by
  refine (exec_blockedWordResume s).trans ?_
  unfold execBlockedWordResume
  dsimp only
  rw [ho, h2, hk, if_neg (by simp only [ne_eq, not_true, Bool.false_eq_true, false_and, or_self, not_false_iff])]
  refine congrArg Host.Outcome.next ?_
  unfold endWait deferredRaise
  dsimp only
  rw [hm, he, hn]
  rfl

end

/-! ### Owned lines -/

section
variable {s : State} {core line : Nat}

theorem ownershipRequest_ready (hw : lineWanted s core line = true) (ho : mget s.mem.owner 0 line ≠ core + 1) (hm : mailFor s line = false) :
    exec (.ownershipRequest core line) s = if (!lineReady s (lineClass s line) line true) = true then .next (askLine s line true)
      else if mget (surrender s line).mem.owner 0 line ≠ 0 || !hasRoom (surrender s line) core line || sliceFull (surrender s line) line then
        .next (surrender s line)
      else .next (dirTidy (dirTake { makeRoom (drainLine (surrender s line) line true) core line with
        mem := { (makeRoom (drainLine (surrender s line) line true) core line).mem with
          owner := mput (makeRoom (drainLine (surrender s line) line true) core line).mem.owner line (core + 1) } } core line)) := by
  refine (exec_ownershipRequest s).trans ((if_neg ?_).trans ?_)
  · rw [hw, hm, beq_false_of_ne ho]
    decide
  · rfl

theorem surrender_gives (s : State) (line : Nat) : mget (surrender s line).mem.owner 0 line = 0 ∨ lineBusy (surrender s line) line = true := by
  unfold surrender
  dsimp only
  by_cases h : mget s.mem.owner 0 line = 0
  · rw [if_pos h]; exact .inl h
  · rw [if_neg h]
    split
    · exact .inr ‹_›
    · refine .inl ?_
      unfold dropOwner
      split
      · assumption
      · exact (mget_mdel ..).trans (if_pos rfl)

theorem owner_dropOwner (s : State) (line l : Nat) :
    mget (dropOwner s line).mem.owner 0 l = if l = line then 0 else mget s.mem.owner 0 l := by
  unfold dropOwner
  by_cases h : mget s.mem.owner 0 line = 0
  · rw [if_pos h]
    split
    · rename_i hl; rw [hl, h]
    · rfl
  · rw [if_neg h]
    refine (mget_mdel ..).trans ?_
    simp only [eq_comm (a := line)]

theorem surrender_unowned (h : mget s.mem.owner 0 line = 0) : surrender s line = s := by
  unfold surrender
  exact if_pos h

theorem lineBusy_unowned (h : mget s.mem.owner 0 line = 0) : lineBusy s line = false := by
  unfold lineBusy
  rw [h]
  rfl

/-! ### Evictions -/

variable (ho : mget s.mem.owner 0 line ≠ core + 1)
include ho

theorem l1Eviction_unheld (hh : mfind (s.core core).held line = none) : exec (.l1Eviction core line) s =
    .next (s.updCore core (fun k => { dropLine k (lineCtx line) (lineVa line) with noShare := k.noShare.filter (· != line) })) := by
  refine (exec_l1Eviction s).trans ?_
  unfold execL1Eviction
  dsimp only
  rw [if_neg ho, if_neg ho, hh, if_neg (by exact Bool.false_ne_true), if_neg (by exact Bool.false_ne_true)]

theorem l1Eviction_held {h : Held} (hh : mfind (s.core core).held line = some h) (hb : bvalueDue s core line = false) :
    exec (.l1Eviction core line) s = .next ((sendDrain s core line true false).updCore core
      (fun k => { dropLine k (lineCtx line) (lineVa line) with noShare := k.noShare.filter (· != line) })) := by
  refine (exec_l1Eviction s).trans ?_
  unfold execL1Eviction
  dsimp only
  rw [if_neg ho, if_neg ho, hh, hb, Option.isSome_some, Bool.and_false, if_neg Bool.false_ne_true, if_pos rfl]

end

theorem held_sendDrain {t : State} {d : Held} {core line : Nat} (hh : mfind (t.core core).held line = some d) (rel answer : Bool) :
    mfind ((sendDrain t core line rel answer).core core).held line = if rel then none else some { d with t := 0, d := [] } := by
  unfold sendDrain mget
  rw [hh, State.core_updCore, if_pos rfl]
  dsimp only [Option.getD_some]
  cases rel with
  | true => exact (mfind_mdel ..).trans (if_pos rfl)
  | false =>
    rw [if_neg Bool.false_ne_true, if_neg Bool.false_ne_true,
      show mfind ((sendMail t core line _).core core).held line = some d from hh, Option.isSome_some, if_pos rfl]
    exact (mfind_mput ..).trans (if_pos rfl)

theorem mail_sendDrain {t : State} {d : Held} {core line : Nat} (hh : mfind (t.core core).held line = some d) (rel answer : Bool) :
    (sendDrain t core line rel answer).mem.mail = mput t.mem.mail t.work.next ⟨core, line, .drain d.d rel answer⟩ := by
  unfold sendDrain mget
  rw [hh]
  rfl

/-! ### The host's messages -/

/-- The state of a line once the host has granted it, shared or, for a request of kind 2 or by the host's choice, exclusive. -/
def grantedMoesi (old n : Nat) (ex : Bool) : Nat :=
  if n == 2 || ex then (if old = 3 ∨ old = 4 then 3 else 2) else if old = 0 then 1 else old

section
variable {s : State} {line : Nat}

theorem cxlCacheResponse_grants {n : Nat} (ex : Bool) (hu : cxlUp s = true) (hn : mfind s.mem.cxl line = some n) :
    exec (.cxlCacheResponse line ex) s = .next { s with mem := { s.mem with
      cxl := mdel s.mem.cxl line, moesi := mput s.mem.moesi line (grantedMoesi (mget s.mem.moesi 0 line) n ex) } } := by
  refine (exec_cxlCacheResponse s).trans ?_
  unfold execCxlCacheResponse
  rw [if_pos hu, hn]
  rfl

theorem mem_flushLine_l2 (s : State) (line : Nat) (write : Bool) :
    (flushLine s line write).mem.l2.all (fun q => !(decide (byteKey (lineCtx line) (lineVa line) ≤ q.1) &&
      decide (q.1 < byteKey (lineCtx line) (lineVa line) + 128))) = true := by
  unfold flushLine
  exact List.all_eq_true.2 (fun q hq => (List.mem_filter.1 hq).2)

variable (ho : mget s.mem.owner 0 line = 0)
include ho

theorem snpdata_shares : exec (.snpdata line) s = .next (lineMoesi s line
    (if mget s.mem.moesi 0 line = 2 then 1 else if mget s.mem.moesi 0 line = 3 then 4 else mget s.mem.moesi 0 line)) := by
  refine (exec_snpdata s).trans ?_
  unfold execSnpdata
  dsimp only
  rw [surrender_unowned ho]
  exact if_neg (ne_true_of_eq_false (lineBusy_unowned ho))

theorem snpinv_absent (hm : mget s.mem.moesi 0 line = 0) : exec (.snpinv line) s = .next s := by
  refine (exec_snpinv s).trans ?_
  unfold execSnpinv
  dsimp only
  rw [surrender_unowned ho]
  exact if_pos (.inl hm)

theorem snpinv_present (hm : mget s.mem.moesi 0 line ≠ 0) : exec (.snpinv line) s = .next (dropLineAll (lineMoesi
    (flushLine s line (mget s.mem.moesi 0 line == 3 || mget s.mem.moesi 0 line == 4)) line 0) line) := by
  refine (exec_snpinv s).trans ?_
  unfold execSnpinv
  dsimp only
  rw [surrender_unowned ho]
  refine if_neg ?_
  rw [lineBusy_unowned ho]
  simp only [hm, Bool.false_eq_true, or_self, not_false_iff]

end

/-! ### Atomics of the host -/

/-- What the host's answer does to a lane's atomic. -/
def hostAnswered (s : State) (id op : Nat) (r : Req) (p : Part) : PcieResp → State
  | .unsupported | .abort => setPart s id { p with done := true, np := true }
  | .poisoned => setPart s id { p with done := true, res := 0, err := true }
  | .success =>
    match canonDesc s r.ctx p.addr with
    | .found d => setPart (match (atomStep op r.w p (homeByte s d)).2 with
        | some bs => homeWrite (markUsed s d) d p.addr bs
        | none => markUsed s d) id (atomStep op r.w p (homeByte s d)).1
    | _ => setPart s id (p.performed (0, true))

section
variable {s : State} {id lane op : Nat} {r : Req} {p : Part} (hr : s.req id = some r) (ha : r.kind.atomOp = some op)
  (hp : r.parts.find? (fun q => q.lane == lane && q.cls == 3 && !q.done) = some p) (hm : reqMayRun s id r = true)
  (hc : partClear s id r p = true) (hh : hostReach s 3 = true)
include hr ha hp hm hc hh

theorem atomicopCompletion_answered (a : PcieResp) : exec (.atomicopCompletion id lane a) s = .next (hostAnswered s id op r p a) := by
  refine (exec_atomicopCompletion s).trans ?_
  unfold execAtomicopCompletion
  rw [hr]
  dsimp only
  rw [ha, hp]
  dsimp only
  rw [hm, hc, hh]
  cases a with
  | success =>
    unfold hostAnswered
    cases canonDesc s r.ctx p.addr <;> rfl
  | unsupported => rfl
  | abort => rfl
  | poisoned => rfl

variable {h : Desc} (hd : canonDesc s r.ctx p.addr = .found h)
  (hb : ((List.range r.w).map (fun i => homeByte s h (p.addr + i))).any Prod.snd = false)
include hd hb

theorem atomicopCompletion_success : exec (.atomicopCompletion id lane .success) s = .next
    (setPart (homeWrite (markUsed s h) h p.addr
        (leBytes r.w (atomNew op (leNat ((List.range r.w).map (fun i => (homeByte s h (p.addr + i)).1))) p.data))) id
      { p with done := true, res := leNat ((List.range r.w).map (fun i => (homeByte s h (p.addr + i)).1)), err := false }) := by
  refine (atomicopCompletion_answered hr ha hp hm hc hh .success).trans (congrArg Host.Outcome.next ?_)
  unfold hostAnswered
  rw [hd]
  dsimp only
  unfold atomStep
  dsimp only
  rw [hb, if_neg Bool.false_ne_true, List.map_map]
  rfl

end

/-- Settles O41: the residency manager, a retired extent's end, an arrival's count, a blocked word's end, and what owned and cached lines do
act as their rules say. -/
theorem extentBarrierAndLineEvents : Obligations.ExtentBarrierAndLineEvents := by
  unfold Obligations.ExtentBarrierAndLineEvents
  intro s e v noff core ws sp line id lane a rest r p ex de df d
  refine ⟨residencyDemote_first, residencyPromote_first, retireAccessesDrained_retires, ?arrival, ?blocked, ?owned, ?asks,
    ⟨_, exec_recallLine s, surrender_gives s line⟩, ?busy, ?free, ?merge, ?evicts, ?drains, ?granted, ?shares, ?atomic⟩
  case arrival =>
    intro o ha hr hs hx hab hn hd
    exact arrivalCounted_counts ha hr hs hx hab hn hd
  case blocked =>
    intro h2 hk
    refine ⟨fun b ph dd ho => ⟨fun hp => ?_, fun hp hab => ?_⟩, fun ld st cp tl rm => blockedWordResume_counters h2 hk⟩
    · exact (blockedWordResume_bar h2 hk ho).trans (congrArg Host.Outcome.next (if_pos hp))
    · exact (blockedWordResume_bar h2 hk ho).trans (congrArg Host.Outcome.next ((if_neg (ne_true_of_eq_false hp)).trans (if_pos hab)))
  case owned =>
    intro hw ho hm hl hgone hroom hfull
    refine (ownershipRequest_ready hw ho hm).trans ((if_neg (ne_true_of_eq_false (congrArg (!·) hl))).trans (if_neg ?_))
    rw [hgone, hroom, hfull]
    decide
  case asks =>
    intro hw ho hm hl
    exact (ownershipRequest_ready hw ho hm).trans (if_pos (congrArg (!·) hl))
  case busy =>
    intro h
    exact (exec_lineSurrender s).trans (if_pos h)
  case free =>
    intro h
    refine ⟨_, (exec_lineSurrender s).trans (if_neg (ne_true_of_eq_false h)), owner_dropOwner s line, ?_⟩
    unfold dropOwner
    split <;> exact ⟨rfl, rfl⟩
  case merge =>
    intro hd hf hb hs
    refine (exec_directoryMerge s).trans ?_
    unfold execDirectoryMerge
    dsimp only
    rw [hd]
    dsimp only
    rw [hf]
    exact if_pos ⟨hb, hs⟩
  case evicts => exact l1Eviction_unheld
  case drains =>
    intro h ho hh hb
    exact ⟨_, l1Eviction_held ho hh hb, by rw [State.core_updCore, if_pos rfl]; exact held_sendDrain hh true false, rfl, mail_sendDrain hh true false⟩
  case granted =>
    intro n hu hn
    refine ⟨_, cxlCacheResponse_grants ex hu hn, (mfind_mdel ..).trans (if_pos rfl), rfl, (mget_mput ..).trans ((if_pos rfl).trans ?_)⟩
    simp only [grantedMoesi, Bool.or_eq_true, beq_iff_eq]
  case shares =>
    intro ho
    refine ⟨⟨_, snpdata_shares ho, rfl, (mget_mset ..).trans (if_pos rfl)⟩, snpinv_absent ho, fun hm => ?_⟩
    exact ⟨snpinv_present ho hm, mem_flushLine_l2 s line _, fun hd => by rw [hd]; rfl⟩
  case atomic =>
    intro op hr ha hp hm hc hh
    have hanswer := atomicopCompletion_answered hr ha hp hm hc hh
    exact ⟨hanswer .unsupported, (hanswer .abort).trans (hanswer .unsupported).symm, hanswer .poisoned,
      fun h => atomicopCompletion_success hr ha hp hm hc hh⟩

end Sys2Proof.Machine
/-! PROOF. The messages of bounded accumulation (12_atomics.md R244 to R251, 07_memory.md R149). -/
namespace Sys2Proof.Machine

/-! ### Receipt -/

/-- The message that is received next under a number. -/
def Comes (s : State) (i core line : Nat) (m : BMsg) : Prop := mfind s.mem.mail i = some ⟨core, line, m⟩ ∧ mailFirst s i ⟨core, line, m⟩ = true

/-- The state once that message is taken out of flight. -/
def State.taken (s : State) (i : Nat) : State := s.setMail (mdel s.mem.mail i)

theorem onMail_acts {s t : State} {i core line : Nat} {m : BMsg} (h : Comes s i core line m) {hold act : State → BMail → Option State}
    (hh : hold s ⟨core, line, m⟩ = none) (ha : act (s.taken i) ⟨core, line, m⟩ = some t) : onMail s i hold act = .next t := by
  obtain ⟨hm, hf⟩ := h
  unfold onMail
  rw [hm]
  refine (if_pos hf).trans ?_
  rw [hh]
  dsimp only
  rw [show act (s.setMail (mdel s.mem.mail i)) ⟨core, line, m⟩ = some t from ha]

section
variable {s : State} {i core line : Nat}

/-! ### Shares -/

theorem shareReq_serves (h : Comes s i core line .shareReq) (hb : lineBusy (s.taken i) line = false) :
    exec (.shareReq i) s = .next (serveShare (dropOwner (s.taken i) line) core line false) :=
  (exec_shareReq s).trans (onMail_acts h rfl (if_neg (ne_true_of_eq_false hb)))

theorem serveShare_ninth {v : State} (h : 8 ≤ (accounting v line).holders.length) :
    serveShare v core line false = sendMail v core line (.grant 0) := by
  unfold serveShare
  exact if_pos (by rw [decide_eq_true h]; rfl)

theorem serveShare_grants {v : State} (h : (accounting v line).holders.length < 8)
    (hf : fless f32 (accounting v line).u (divPow (boundOf v line) 6) = false) : serveShare v core line false =
      if (decodeF f32 (fmul f32 .rz (accounting v line).u 0x3F000000)).isZero then sendMail v core line (.grant 0)
      else sendMail (setAccounting v line ⟨fsub f32 .rz (accounting v line).u (fmul f32 .rz (accounting v line).u 0x3F000000),
        (accounting v line).holders ++ [(core, fmul f32 .rz (accounting v line).u 0x3F000000)]⟩) core line
          (.grant (fmul f32 .rz (accounting v line).u 0x3F000000)) := by
  unfold serveShare
  dsimp only
  rw [decide_eq_false (Nat.not_le.2 h), hf]
  refine (if_neg (by decide)).trans ((if_neg (by rw [Bool.false_and]; decide)).trans ?_)
  unfold grantShare
  simp only [Nat.not_le.2 h, false_or]

theorem serveShare_recalls {v : State} {h : Nat × Nat} {l : List (Nat × Nat)} (hn : (accounting v line).holders.length < 8)
    (hf : fless f32 (accounting v line).u (divPow (boundOf v line) 6) = true) (hl : sortedHolders (accounting v line).holders = h :: l) :
    serveShare v core line false = { sendMail v h.1 line (.fdrain true) with mem := { (sendMail v h.1 line (.fdrain true)).mem with
      waits := (sendMail v h.1 line (.fdrain true)).mem.waits ++ [⟨core, line, 0, [h.1]⟩] } } := by
  unfold serveShare
  dsimp only
  rw [decide_eq_false (Nat.not_le.2 hn), hf]
  refine (if_neg (by decide)).trans ((if_pos (by rw [Bool.not_false, Bool.true_and, Bool.or_true])).trans ?_)
  rw [hl]

theorem grant_refused {b : Nat} (h : Comes s i core line (.grant b)) (hb : b = 0) :
    exec (.grant i) s = .next ((s.taken i).updCore core (fun k => { k with noShare := line :: k.noShare })) :=
  (exec_grant s).trans (onMail_acts h rfl (if_pos hb))

theorem grant_holds {b : Nat} (h : Comes s i core line (.grant b)) (hb : b ≠ 0) (hr : hasRoom (s.taken i) core line = true) :
    exec (.grant i) s = .next ((makeRoom (s.taken i) core line).updCore core (fun k => { k with held := mput k.held line ⟨b, 0, []⟩ })) :=
  (exec_grant s).trans (onMail_acts h rfl ((if_neg hb).trans (if_pos hr)))

/-! ### Deltas -/

theorem add_adds {e δ : Nat} (h : Comes s i core line (.add e δ)) (hw : elemsWait s line [e] = none) :
    exec (.add i) s = .next (serveWaits (addElem (s.taken i) line e δ)) :=
  (exec_add s).trans (onMail_acts h hw rfl)

theorem addElem_reaches {u : State} {e δ : Nat} {d : Desc} (hd : canonDesc u (lineCtx line) (lineVa line + 4 * e) = .found d)
    (hc : d.ent.cls = 1) (hx : (homeElem (touchByte (dropOwner u line) d (lineVa line + 4 * e) false) d (lineVa line + 4 * e)).2 = false)
    (hn : narrowError (touchByte (dropOwner u line) d (lineVa line + 4 * e) false) d (lineVa line + 4 * e) 4 = false) :
    addElem u line e δ =
      if fadd f32 .rne (homeElem (touchByte (dropOwner u line) d (lineVa line + 4 * e) false) d (lineVa line + 4 * e)).1 δ =
        (homeElem (touchByte (dropOwner u line) d (lineVa line + 4 * e) false) d (lineVa line + 4 * e)).1 then
        touchByte (dropOwner u line) d (lineVa line + 4 * e) false
      else homeWrite (touchByte (dropOwner u line) d (lineVa line + 4 * e) false) d (lineVa line + 4 * e)
        (leBytes 4 (fadd f32 .rne (homeElem (touchByte (dropOwner u line) d (lineVa line + 4 * e) false) d (lineVa line + 4 * e)).1 δ)) := by
  unfold addElem
  dsimp only
  rw [hd]
  dsimp only
  rw [hc, if_neg (by decide), hx, if_neg Bool.false_ne_true, hn]
  simp only [beq_iff_eq, Bool.false_eq_true, if_false]

theorem drain_keeps {ds : SMap Word} (h : Comes s i core line (.drain ds false false)) (hw : elemsWait s line (List.range 32) = none) :
    exec (.drain i) s = .next (serveWaits (addDeltas (s.taken i) line ds)) :=
  (exec_drain s).trans (onMail_acts h hw rfl)

theorem drain_releases {ds : SMap Word} {k : Nat × Nat} (h : Comes s i core line (.drain ds true false))
    (hw : elemsWait s line (List.range 32) = none)
    (hk : (accounting (addDeltas (s.taken i) line ds) line).holders.find? (fun p => p.1 == core) = some k) :
    exec (.drain i) s = .next (serveWaits (setAccounting (addDeltas (s.taken i) line ds) line
      ⟨fadd f32 .rz (accounting (addDeltas (s.taken i) line ds) line).u k.2,
        (accounting (addDeltas (s.taken i) line ds) line).holders.filter (fun p => p.1 != core)⟩)) := by
  refine (exec_drain s).trans (onMail_acts h hw ?_)
  dsimp only
  rw [if_pos rfl, hk]
  rfl

theorem fdrain_unheld {rel : Bool} (h : Comes s i core line (.fdrain rel)) (hh : mfind (s.core core).held line = none) :
    exec (.fdrain i) s = .next (sendMail (s.taken i) core line (.drain [] false true)) :=
  (exec_fdrain s).trans (onMail_acts h rfl (congrArg some (if_neg (by rw [show mfind ((s.taken i).core core).held line = none from hh]; decide))))

theorem fdrain_held {rel : Bool} {d : Held} (h : Comes s i core line (.fdrain rel)) (hh : mfind (s.core core).held line = some d) :
    exec (.fdrain i) s = .next (sendDrain (s.taken i) core line rel true) :=
  (exec_fdrain s).trans (onMail_acts h rfl (congrArg some (if_pos (by rw [show mfind ((s.taken i).core core).held line = some d from hh]; rfl))))

/-! ### Bounded loads -/

/-- The holders that a bounded load's caller must hear of. -/
def askedOf (v : State) (core line eps : Nat) : List Nat :=
  drainPrefix eps (sortedHolders ((accounting v line).holders.filter (fun h => h.1 != core)))

/-- They are asked, and the load waits for their answers. -/
def State.asks (v : State) (core line id : Nat) (l : List Nat) : State :=
  let w := l.foldl (fun s c => sendMail s c line (.fdrain false)) v
  { w with mem := { w.mem with waits := w.mem.waits ++ [⟨core, line, id + 1, l⟩] } }

theorem bload_asks {id eps : Nat} (h : Comes s i core line (.bload id eps)) (hw : elemsWait s line (List.range 32) = none) :
    exec (.bload i) s = .next (serveWaits ((dropOwner (s.taken i) line).asks core line id
      (askedOf (dropOwner (s.taken i) line) core line eps))) :=
  (exec_bload s).trans (onMail_acts h hw rfl)

/-- A lane that waits for an element of a line takes it. -/
def lands (r : Req) (line : Nat) (vals : List Word) (errs : Word) (own : Nat → Nat → Nat) (p : Part) : Part :=
  if p.done || p.cls != 1 || lineKey r.ctx p.addr != line then p
  else p.performed (own (p.addr % 128 / 4) (vals.getD (p.addr % 128 / 4) 0).toNat, laneIn errs (p.addr % 128 / 4))

theorem bvalue_fills {id : Nat} {vals : List Word} {errs : Word} {r : Req} (h : Comes s i core line (.bvalue id vals errs))
    (hr : s.req id = some r) : exec (.bvalue i) s = .next ((s.taken i).setReq id { r with parts := r.parts.map (lands r line vals errs
      (fun e x => match mfind (s.core core).held line with | some h => fadd f32 .rne x (mget h.d 0 e).toNat | none => x)) }) := by
  refine (exec_bvalue s).trans (onMail_acts h rfl ?_)
  dsimp only
  rw [show (s.taken i).req id = some r from hr]
  rfl

end

/-- Settles O42: a message whose turn it is takes the effect that its kind names. -/
theorem boundedEvents : Obligations.BoundedEvents := by
  unfold Obligations.BoundedEvents
  intro s i core line b e δ eps ds rel vals errs r id d u v comes
  refine ⟨?share, ?granted, add_adds, fun hd hc => addElem_reaches hd hc, ?drained, ?asked, bload_asks, ?values⟩
  case share =>
    intro hb h
    have hserves := shareReq_serves h hb
    refine ⟨fun hn => ?_, fun hn hf => ?_, fun k l hn hf hl => ?_⟩
    · exact hserves.trans (congrArg Host.Outcome.next (serveShare_ninth hn))
    · exact hserves.trans (congrArg Host.Outcome.next (serveShare_grants hn hf))
    · exact hserves.trans (congrArg Host.Outcome.next (serveShare_recalls hn hf hl))
  case granted =>
    intro h
    exact ⟨grant_refused h, grant_holds h⟩
  case drained =>
    intro h hw
    refine ⟨fun hrel => ?_, fun k hrel hk => ?_⟩
    · subst hrel
      exact drain_keeps h hw
    · subst hrel
      exact drain_releases h hw hk
  case asked =>
    intro h
    refine ⟨fdrain_unheld h, fun k hk => ⟨_, fdrain_held h hk, mail_sendDrain (t := u) hk rel true, held_sendDrain (t := u) hk rel true⟩⟩
  case values =>
    intro h hr
    refine ⟨fun hh => ?_, fun k hh => ?_⟩
    · exact (bvalue_fills h hr).trans (by rw [hh]; rfl)
    · exact (bvalue_fills h hr).trans (by rw [hh]; rfl)

end Sys2Proof.Machine
/-! PROOF. The steps of remote requests, replies, acknowledgments and refusals (15_remote.md R288 to R307). -/
namespace Sys2Proof.Machine

/-! ### Replays -/

theorem remoteReplay_issues {s t : State} {core ws id : Nat} {r : RWord} (ht : sendReplays s core ws = t)
    (hp : pendingWord t core ws = some (id, r)) (hr : (t.warp core ws).rm < 6) :
    exec (.remoteReplay core ws) s = .next (sendReplays (issueReplay t id r) core ws) := by
  refine (exec_remoteReplay s).trans ?_
  unfold execRemoteReplay
  dsimp only
  rw [ht, hp]
  exact if_pos hr

/-! ### Requests -/

section
variable {s t : State} {k : Nat} {p : Packet} (hk : mfind s.fab.inbox k = some p)

/-- What a target does with an arrived request, as it stands. -/
def requestGoes (s : State) (k : Nat) (p : Packet) : ArrivedAs → State
  | .stale => dropStale s k p
  | .copy => takeIn s k
  | .refused => refuse s k p
  | .held t => t
  | .ready t => (itemsStopped t p (openItems t k p)).getD (performRequest t k p)

include hk

theorem remoteRequest_goes (h1 : p.kind = 1) : exec (.remoteRequest k) s = .next (requestGoes s k p (arrival s k p)) := by
  refine (exec_remoteRequest s).trans ?_
  unfold execRemoteRequest
  rw [hk]
  dsimp only
  rw [if_neg (by omega), if_neg (by omega)]
  cases arrival s k p with
  | ready t =>
    unfold requestGoes
    dsimp only
    cases itemsStopped t p (openItems t k p) <;> rfl
  | stale => rfl
  | copy => rfl
  | refused => rfl
  | held t => rfl

theorem exchangeRun_stale (h5 : p.kind = 5) (hi : incOk s p = false) : exec (.exchangeRun k) s = .next (dropStale s k p) := by
  refine (exec_exchangeRun s).trans ?_
  unfold execExchangeRun
  rw [hk]
  dsimp only
  rw [if_neg (not_not.2 h5), hi, Bool.not_false, Bool.true_or, if_pos rfl]

theorem exchangeEnd_stale (h6 : p.kind = 6) (hi : incOk s p = false) : exec (.exchangeEnd k) s = .next (dropStale s k p) := by
  refine (exec_exchangeEnd s).trans ?_
  unfold execExchangeEnd
  rw [hk]
  dsimp only
  rw [if_neg (not_not.2 h6), hi, Bool.not_false, Bool.true_or, if_pos rfl]

omit hk

theorem arrival_stale (h : incOk s p = false ∨ forMe s p = false) : arrival s k p = .stale := by
  unfold arrival
  refine if_pos ?_
  rcases h with h | h <;> rw [h]
  · rfl
  · exact Bool.or_true _

variable (hi : incOk s p = true) (hf : forMe s p = true)
include hi hf

theorem arrival_copy (h : secondCopy s p = true) : arrival s k p = .copy := by
  unfold arrival
  rw [hi, hf, h]
  rfl

variable (hc : secondCopy s p = false)
include hc

theorem arrival_refused (h : streamEntry s p = none) : arrival s k p = .refused := by
  unfold arrival
  rw [hi, hf, hc, h]
  rfl

theorem arrival_entered (h : streamEntry s p = some t) : arrival s k p = if streamHeld t k p then .held t else .ready t := by
  unfold arrival
  rw [hi, hf, hc, h]
  rfl

end

theorem freeOrder_single {α : Type} (base : Nat) (x : α) : freeOrder base 1 [x] = [x] := by
  unfold freeOrder
  simp only [List.length_cons, List.length_nil, Nat.zero_add, Nat.mod_one, List.getElem?_cons_zero, List.eraseIdx_cons_zero, freeOrder]

/-- The state and the results once every item of a request that was left has been performed. -/
def performedItems (s : State) (i : Nat) (p : Packet) : State × List (Nat × Nat × Nat) :=
  (freeOrder s.free (openItems s i p).length (openItems s i p)).foldl
    (fun a x => ((performItem a.1 p x).1, a.2 ++ [(x.lane, (performItem a.1 p x).2.1, (performItem a.1 p x).2.2)]))
    (takeIn { s with free := s.free + (openItems s i p).length } i, begunItems s i)

/-- The failures among results are logged and the results sent. -/
def answersWith (p : Packet) (a : State × List (Nat × Nat × Nat)) : State :=
  let s := if a.2.any (fun r => r.2.1 != 0) then arrivalLog a.1 p 3 else a.1
  (sendPacket (markApplied s p) (replyTo s p a.2)).2

theorem performRequest_eq (s : State) (i : Nat) (p : Packet) : performRequest s i p = answersWith p (performedItems s i p) := rfl

theorem performedItems_single {s : State} {k : Nat} {p : Packet} {x : Item} (ho : openItems s k p = [x]) (hb : begunItems s k = []) :
    performedItems s k p = ((performItem (takeIn { s with free := s.free + 1 } k) p x).1,
      [(x.lane, (performItem (takeIn { s with free := s.free + 1 } k) p x).2)]) := by
  unfold performedItems
  rw [ho, hb, show [x].length = 1 from rfl, freeOrder_single]
  rfl

theorem performRequest_single {s u : State} {k v : Nat} {p : Packet} {x : Item} (ho : openItems s k p = [x]) (hb : begunItems s k = [])
    (hx : performItem (takeIn { s with free := s.free + 1 } k) p x = (u, 0, v)) :
    performRequest s k p = (sendPacket (markApplied u p) (replyTo u p [(x.lane, 0, v)])).2 := by
  rw [performRequest_eq, performedItems_single ho hb, hx]
  rfl

/-! ### Items -/

section
variable {s : State} {p : Packet} {x : Item}

theorem performItem_refused (h : itemCheck s p.ctx x.va (itemSize (p.op % 8) p.lit) (remotePerm (p.op % 8)) = none) :
    performItem s p x = (s, 3, 0) := by
  unfold performItem
  dsimp only
  rw [h]

/-- The state in which an item's bytes are read. -/
def itemUse (s : State) (p : Packet) (d : Desc) (va : Nat) : State := useByte s d va (decide (3 ≤ p.op % 8))

/-- Its bytes there, each with whether it stands in a sector with an error. -/
def itemBytes (s : State) (p : Packet) (d : Desc) (va : Nat) : List (Byte × Bool) :=
  (List.range (itemSize (p.op % 8) p.lit)).map (fun i => homeByte (itemUse s p d va) d (va + i))

variable {d : Desc} {va : Nat} (hc : itemCheck s p.ctx x.va (itemSize (p.op % 8) p.lit) (remotePerm (p.op % 8)) = some (d, va))
  (hd : (List.range (itemSize (p.op % 8) p.lit)).any (fun i => byteDead (itemUse s p d va) d (va + i) (decide (3 ≤ p.op % 8))) = false)
  (hb : (itemBytes s p d va).any Prod.snd = false) (hn : narrowError (itemUse s p d va) d va (itemSize (p.op % 8) p.lit) = false)
include hc hd hb hn

theorem performItem_performs : performItem s p x = ((itemNew (p.op % 8) p.lit (leNat ((itemBytes s p d va).map Prod.fst)) x.data).elim
    (itemUse s p d va) (fun v => homeWrite (itemUse s p d va) d va (leBytes (itemSize (p.op % 8) p.lit) v)), 0,
      leNat ((itemBytes s p d va).map Prod.fst)) := by
  unfold performItem
  dsimp only
  rw [hc]
  unfold itemBytes itemUse at *
  dsimp only
  rw [if_neg ?alive]
  case alive =>
    rw [hd, hb, hn]
    simp only [Bool.false_eq_true, and_false, or_self, not_false_iff]
  cases itemNew (p.op % 8) p.lit _ x.data <;> rfl

theorem performItem_reads (h : p.op % 8 ≤ 2) :
    performItem s p x = (itemUse s p d va, 0, leNat ((itemBytes s p d va).map Prod.fst)) := by
  rw [performItem_performs hc hd hb hn, show itemNew (p.op % 8) p.lit _ x.data = none from ?_]
  · rfl
  · have h3 : p.op % 8 = 0 ∨ p.op % 8 = 1 ∨ p.op % 8 = 2 := by omega
    rcases h3 with h | h | h <;> rw [h] <;> rfl

theorem performItem_writes {v : Nat} (h : itemNew (p.op % 8) p.lit (leNat ((itemBytes s p d va).map Prod.fst)) x.data = some v) :
    performItem s p x = (homeWrite (itemUse s p d va) d va (leBytes (itemSize (p.op % 8) p.lit) v), 0,
      leNat ((itemBytes s p d va).map Prod.fst)) := by
  rw [performItem_performs hc hd hb hn, h]
  rfl

end

theorem itemNew_store {op : Nat} (h : op = 3 ∨ op = 4 ∨ op = 7) (lit : Word) (old data : Nat) : itemNew op lit old data = some data := by
  rcases h with h | h | h <;> rw [h] <;> rfl

theorem itemNew_atomic {op : Nat} {lit : Word} (h : op = 5 ∨ op = 6 ∧ remoteOp lit ≠ 14) (old data : Nat) :
    itemNew op lit old data = some (atomNew (remoteOp lit) old data) := by
  rcases h with h | ⟨h, hn⟩ <;> rw [h]
  · rfl
  · exact congrArg some (if_neg hn)

theorem itemNew_bf16 {op : Nat} {lit : Word} (h : op = 6) (hl : remoteOp lit = 14) (old data : Nat) :
    itemNew op lit old data = some (addBf16 old data) := by
  rw [h]
  exact congrArg some (if_pos hl)

/-! ### Replies -/

section
variable {s u : State} {k i id lane : Nat} {p : Packet} {r : RWord} {y : Replay} {q : Post} {it : RItem}

/-- The lanes that a reply answers. -/
def answeredLanes (p : Packet) (r : RWord) (y : Replay) : List (Nat × Nat × Nat) :=
  (p.answers r.w).filter (fun x => y.items.any (fun t => t.lane == x.1 && t.st.isNone && t.va / 128 * 128 == p.addr))

theorem remoteReply_answers (hk : mfind s.fab.inbox k = some p) (h2 : p.kind = 2) (ht : p.tinc = s.fab.inc)
    (ha : answeredReplay s p = some (i, y)) (hr : s.rword y.word = some r) (hn : answeredLanes p r y ≠ []) :
    exec (.remoteReply k) s = .next (answerItems (takeIn s k) i y (answeredLanes p r y)) := by
  have hlanes : replyLanes s p = some (i, y, answeredLanes p r y) := by
    unfold replyLanes
    rw [beq_iff_eq.2 ht, if_pos rfl, ha]
    dsimp only
    rw [hr]
    exact if_neg (by rw [List.isEmpty_iff]; exact hn)
  refine (exec_remoteReply s).trans ?_
  unfold execRemoteReply
  rw [hk]
  dsimp only
  rw [if_neg (not_not.2 h2), hlanes]

theorem answerItems_one {st v : Nat} (hr : s.rword y.word = some r) (hl : r.live = true) (ho : r.op = 5 → r.ord % 2 = 0)
    (hf : y.items.find? (fun x => x.lane == lane) = some it) (hs : it.st = none)
    (hn : y.items.any (fun x => x.lane != lane && x.st.isNone) = true) :
    answerItems s i y [(lane, st, v)] = (s.updWarp r.core r.wslot (fun w => w.putGroup r.vd r.w lane v false (st != 0))).setReplay i
      { y with items := y.items.map (fun x => if x.lane = lane then { x with st := some st } else x) } := by
  have hopen : y.items.any (fun t => t.lane == lane && t.st.isNone) = true :=
    List.any_eq_true.2 ⟨it, List.mem_of_find?_eq_some hf, by rw [(List.find?_eq_some_iff_append.1 hf).1, hs]; rfl⟩
  have hnow : [(lane, st, v)].filter (fun x => y.items.any (fun t => t.lane == x.1 && t.st.isNone)) = [(lane, st, v)] :=
    List.filter_eq_self.2 (fun x hx => by rw [List.mem_singleton.1 hx]; exact hopen)
  obtain ⟨z, hz, hzo⟩ := List.any_eq_true.1 hn
  obtain ⟨hzl, hzs⟩ := Bool.and_eq_true_iff.1 hzo
  unfold answerItems
  rw [hr]
  simp only [hnow]
  rw [if_neg ?unanswered, if_neg ?plain]
  case plain => exact fun h => by have := ho h.1; omega
  case unanswered =>
    rw [List.all_map, List.all_eq_true]
    intro hall
    have hz' := hall z hz
    simp only [Function.comp, List.find?_cons, beq_false_of_ne (Ne.symm (bne_iff_ne.1 hzl)), List.find?_nil,
      Option.isNone_iff_eq_none.1 hzs] at hz'
    cases hz'
  rw [List.foldl_cons, List.foldl_nil]
  unfold answerLane
  rw [if_pos hl]
  refine congrArg (fun l => State.setReplay _ i { y with items := l }) (List.map_congr_left (fun t _ => ?_))
  by_cases h : t.lane = lane
  · rw [if_pos h, List.find?_cons, h, beq_self_eq_true]
  · rw [if_neg h, List.find?_cons, beq_false_of_ne (Ne.symm h), List.find?_nil]

/-! ### Acknowledgments and refusals -/

section
variable (hk : mfind s.fab.inbox k = some p) (ht : p.tinc = s.fab.inc)
include hk ht

theorem remoteAcknowledgment_counts (h3 : p.kind = 3) (hn : namedPost s p = some (i, q)) (hw : q.wait.contains p.src = true) :
    exec (.remoteAcknowledgment k) s = if (p.answers 0).any (fun x => x.2.1 != 0) = true then .next (failPost (takeIn s k) i 3)
      else if (q.wait.filter (· != p.src)).isEmpty = true then .next (endPost (takeIn s k) i q)
      else .next ((takeIn s k).setPost i { q with wait := q.wait.filter (· != p.src) }) := by
  refine (exec_remoteAcknowledgment s).trans ?_
  unfold execRemoteAcknowledgment
  rw [hk]
  dsimp only
  rw [if_neg (not_not.2 h3), beq_iff_eq.2 ht, if_pos rfl, hn]
  dsimp only
  rw [hw, Bool.not_true, if_neg Bool.false_ne_true]

variable (h4 : p.kind = 4) (hs : p.src = s.fab.self)
include h4 hs

theorem refusal_resends (hf : s.fab.posts.find? (fun q => p.echoes q.2.pkt) = some (i, q))
    (hp : sendPacket (takeIn s k) q.pkt = (some id, u)) : exec (.refusal k) s = .next (u.setPost i { q with plane := id }) := by
  refine (exec_refusal s).trans ?_
  unfold execRefusal
  rw [hk]
  dsimp only
  rw [if_neg (not_not.2 h4), if_neg (by simp only [ht, hs, ne_eq, not_true, or_self, not_false_iff]),
    show (takeIn s k).fab.posts.find? (fun q => p.echoes q.2.pkt) = some (i, q) from hf]
  dsimp only
  rw [hp]

theorem refusal_fails (hf : s.fab.posts.find? (fun q => p.echoes q.2.pkt) = some (i, q))
    (hp : sendPacket (takeIn s k) q.pkt = (none, u)) : exec (.refusal k) s = .next (failPost u i 1) := by
  refine (exec_refusal s).trans ?_
  unfold execRefusal
  rw [hk]
  dsimp only
  rw [if_neg (not_not.2 h4), if_neg (by simp only [ht, hs, ne_eq, not_true, or_self, not_false_iff]),
    show (takeIn s k).fab.posts.find? (fun q => p.echoes q.2.pkt) = some (i, q) from hf]
  dsimp only
  rw [hp]

variable (hf : s.fab.posts.find? (fun q => p.echoes q.2.pkt) = none)
include hf

theorem refusal_ofReplay (hr : s.fab.replays.find? (fun y => y.2.sent && y.2.pkts.any (fun k => p.echoes k.1)) = some (i, y)) :
    exec (.refusal k) s = .next (resendOf (takeIn s k) i y p) := by
  refine (exec_refusal s).trans ?_
  unfold execRefusal
  rw [hk]
  dsimp only
  rw [if_neg (not_not.2 h4), if_neg (by simp only [ht, hs, ne_eq, not_true, or_self, not_false_iff]),
    show (takeIn s k).fab.posts.find? (fun q => p.echoes q.2.pkt) = none from hf]
  dsimp only
  rw [show (takeIn s k).fab.replays.find? (fun y => y.2.sent && y.2.pkts.any (fun k => p.echoes k.1)) = some (i, y) from hr]

theorem refusal_ofRun (hr : s.fab.replays.find? (fun y => y.2.sent && y.2.pkts.any (fun k => p.echoes k.1)) = none) :
    exec (.refusal k) s = .next (refuseRun (takeIn s k) p) := by
  refine (exec_refusal s).trans ?_
  unfold execRefusal
  rw [hk]
  dsimp only
  rw [if_neg (not_not.2 h4), if_neg (by simp only [ht, hs, ne_eq, not_true, or_self, not_false_iff]),
    show (takeIn s k).fab.posts.find? (fun q => p.echoes q.2.pkt) = none from hf]
  dsimp only
  rw [show (takeIn s k).fab.replays.find? (fun y => y.2.sent && y.2.pkts.any (fun k => p.echoes k.1)) = none from hr]

end

theorem responseTimeout_fails (hy : mfind s.fab.replays i = some y)
    (hf : y.items.find? (fun x => x.lane == lane && x.st.isNone) = some it) (hs : y.sent = true)
    (ht : y.since + respTimeout s ≤ s.plat.time) {g : Packet × Nat} (hg : y.pkts.find? (fun h => h.1.addr == it.va / 128 * 128) = some g) :
    exec (.responseTimeout i lane) s = .next (answerItems (fabricLog s g.1 g.1.dst 4 g.2) i y [(lane, 4, 0)]) := by
  refine (exec_responseTimeout s).trans ?_
  unfold execResponseTimeout
  rw [hy]
  dsimp only
  rw [hf]
  dsimp only
  rw [hs, decide_eq_false (Nat.not_lt.2 ht), Bool.not_true, Bool.or_self, if_neg Bool.false_ne_true, hg]

end

/-- Settles O45: a request, a reply, an acknowledgment and a refusal act as the state of their replay, post and stream lets them. -/
theorem remoteEvents : Obligations.RemoteEvents := by
  unfold Obligations.RemoteEvents
  intro s k core ws id i lane p r y q t u it
  refine ⟨remoteReplay_issues, ?stale, ?request, ?single, ?items, ?reply, fun st v => answerItems_one, ?acknowledged, ?refused,
    fun hy hf hs ht g => responseTimeout_fails hy hf hs ht⟩
  case stale =>
    intro hk hi hkind
    exact ⟨_, rfl, fun h => (remoteRequest_goes hk h).trans (by rw [arrival_stale (.inl hi)]; rfl), fun h => exchangeRun_stale hk h hi,
      fun h => exchangeEnd_stale hk h hi⟩
  case request =>
    intro hk h1 hi goes
    have hgo {a : ArrivedAs} (ha : arrival s k p = a) : goes (requestGoes s k p a) := ha ▸ remoteRequest_goes hk h1
    refine ⟨fun hf => hgo (arrival_stale (.inr hf)), fun hf hc => hgo (arrival_copy hi hf hc), fun hf hc => ⟨fun he =>
      hgo (arrival_refused hi hf hc he), fun he => ⟨fun hh => ?_, fun hh => ⟨fun v hs => ?_, fun hs => ?_⟩⟩⟩⟩
    · exact hgo ((arrival_entered hi hf hc he).trans (if_pos hh))
    · have hready := hgo ((arrival_entered hi hf hc he).trans (if_neg (ne_true_of_eq_false hh)))
      dsimp only [requestGoes] at hready
      rwa [hs] at hready
    · have hready := hgo ((arrival_entered hi hf hc he).trans (if_neg (ne_true_of_eq_false hh)))
      dsimp only [requestGoes] at hready
      rwa [hs] at hready
  case single =>
    intro x st v ho hb hx hst
    subst hst
    exact performRequest_single ho hb hx
  case items =>
    intro x op w wr
    refine ⟨performItem_refused, ?_⟩
    intro d va hc v l old hd hb hn
    have hold : leNat ((itemBytes s p d va).map Prod.fst) = old := rfl
    refine ⟨performItem_reads hc hd hb hn, fun h => ?_, fun h => ?_, fun h hl => ?_⟩
    · exact performItem_writes hc hd hb hn (itemNew_store h _ _ _)
    · exact performItem_writes hc hd hb hn (itemNew_atomic h _ _)
    · exact performItem_writes hc hd hb hn (itemNew_bf16 h hl _ _)
  case reply =>
    intro hk h2 ht ha hr rs hn
    exact remoteReply_answers hk h2 ht ha hr hn
  case acknowledged =>
    intro hk h3 ht hn hw
    have hcounts := remoteAcknowledgment_counts hk ht h3 hn hw
    refine ⟨fun hb => hcounts.trans (if_pos hb), fun hb => ⟨fun he => ?_, fun he => ?_⟩⟩
    · exact hcounts.trans ((if_neg (ne_true_of_eq_false hb)).trans (if_pos (by rw [he]; rfl)))
    · exact hcounts.trans ((if_neg (ne_true_of_eq_false hb)).trans (if_neg (by rw [List.isEmpty_iff]; exact he)))
  case refused =>
    intro hk h4 ht hs
    exact ⟨fun hf => ⟨refusal_resends hk ht h4 hs hf, refusal_fails hk ht h4 hs hf⟩,
      fun hf => ⟨refusal_ofReplay hk ht h4 hs hf, refusal_ofRun hk ht h4 hs hf⟩⟩

end Sys2Proof.Machine
/-! PROOF. The steps of the copy engine, and the bytes that a copy moves (13_engines.md R259 to R265). -/
namespace Sys2Proof.Machine

/-! ### Places -/

theorem work_useLoc (s : State) (ctx : Nat) (l : Loc) : (useLoc s ctx l).work = s.work := by
  cases l with
  | glob v a =>
    unfold useLoc
    dsimp only
    split
    · exact (Aside.useByte ..).work
    · rfl
  | spad b off => rfl
  | cst c off => rfl

theorem work_clearWholes (s : State) (l : List (Desc × Nat)) : (clearWholes s l).work = s.work := by
  unfold clearWholes clearWhole
  refine work_foldl (fun s x => ?_) _ s
  split <;> rfl

theorem role_writeLoc (s : State) (ctx : Nat) (l : Loc) (b : Byte) (k : Nat) : ((writeLoc s ctx l b).blk k).role = (s.blk k).role := by
  cases l with
  | glob v a =>
    unfold writeLoc
    dsimp only
    split
    · unfold State.blk
      rw [(Aside.homeWrite ..).work, (Aside.useByte ..).work]
    · rfl
  | spad i off =>
    unfold writeLoc localWrite
    dsimp only
    split
    · rename_i x hx
      unfold State.blk State.setBlk
      dsimp only
      rw [mget_mput]
      split
      · rename_i hk
        subst hk
        unfold mget
        rw [hx]
        rfl
      · rfl
    · rfl
  | cst c off => rfl

theorem writeLoc_glob {s : State} {ctx v a : Nat} {d : Desc} (hd : canonDesc s ctx a = .found d) (b : Byte) :
    writeLoc s ctx (.glob v a) b = homeWrite (useByte s d a true) d a [b] := by
  unfold writeLoc
  dsimp only
  rw [hd]

theorem readLoc_glob {s : State} {ctx v a : Nat} {d : Desc} (hd : canonDesc s ctx a = .found d) :
    readLoc s ctx (.glob v a) = homeByte s d a := by
  unfold readLoc
  dsimp only
  rw [hd]

theorem writeLoc_spad {s : State} {k : Nat} {y : Block} (hy : mfind s.work.blocks k = some y) (ctx off : Nat) (b : Byte) :
    writeLoc s ctx (.spad k off) b = s.setBlk k { y with spad := mset 0 y.spad off b } := by
  unfold writeLoc localWrite
  dsimp only
  rw [hy]
  rfl

theorem readLoc_spad {s : State} {k : Nat} {y : Block} (hy : mfind s.work.blocks k = some y) (ctx off : Nat) :
    readLoc s ctx (.spad k off) = (mget y.spad 0 off, false) := by
  unfold readLoc localRead State.blk
  dsimp only
  rw [show mget s.work.blocks {} k = y by unfold mget; rw [hy]; rfl]
  rfl

/-! ### The bytes of a piece -/

section
variable {s : State} {o : Op} {c : Copy}

theorem pieceBytes_all {P : Nat → PByte} (n : Nat) {q : Nat} (h : ∀ j < n, pieceByte s o c (q + j) = .ok (P (q + j))) :
    pieceBytes s o c q n = ((List.range n).map (fun j => P (q + j)), none) := by
  induction n generalizing q with
  | zero => rfl
  | succ n ih =>
    have hnext : pieceBytes s o c (q + 1) n = ((List.range n).map (fun j => P (q + 1 + j)), none) :=
      ih (fun j hj => by rw [Nat.add_assoc, Nat.add_comm 1 j]; exact h (j + 1) (by omega))
    unfold pieceBytes
    rw [show pieceByte s o c q = .ok (P q) from h 0 (by omega), hnext, List.range_succ_eq_map, List.map_cons, List.map_map]
    simp only [Nat.add_assoc, Nat.add_comm 1, Function.comp_def, Nat.succ_eq_add_one]
    rfl

/-- The byte that a piece writes at a target, and whether its source stands in a sector with an error. -/
def pieceRead (s : State) (o : Op) (c : Copy) (b : PByte) : Byte × Bool :=
  match b.src with
  | some l => readLoc s o.ctx l
  | none => (BitVec.ofNat 8 (bitsOf c.pat (8 * (b.q % 4)) 8), false)

/-- A byte's source is used. -/
def useSource (o : Op) (t : State) (b : PByte) : State :=
  match b.src with
  | some l => useLoc t o.ctx l
  | none => t

theorem work_useSources (o : Op) (bs : List PByte) (s : State) : (bs.foldl (useSource o) s).work = s.work := by
  refine work_foldl (fun s b => ?_) bs s
  unfold useSource
  split
  · exact work_useLoc ..
  · rfl

/-- The targets of bytes. -/
def targetsOf (bs : List PByte) : List Loc := (bs.map (fun b => b.dst.map Prod.fst)).flatten

/-- The bytes are written, each at its targets. -/
def writeBytes (s : State) (ctx : Nat) (ws : List (PByte × Byte)) : State :=
  ws.foldl (fun t w => w.1.dst.foldl (fun t l => writeLoc t ctx l.1 w.2) t) s

/-- A byte that waits for nothing, and whose places can all be reached. -/
structure Movable (s : State) (o : Op) (c : Copy) (all : List Loc) (b : PByte) : Prop where
  clean : (pieceRead s o c b).2 = false
  source : ∀ l, b.src = some l → locWait s (coreCluster o.core) o.ctx l false = none ∧ locDead s o.ctx l false = false
  target : ∀ l ∈ b.dst, locWait s (coreCluster o.core) o.ctx l.1 true = none ∧ locDead s o.ctx l.1 true = false ∧
    locNarrow s o.ctx all l.1 = false

theorem performs_of_none (hr : (s.blk o.blk).role = .none) (l : Loc) : o.performs s l = true := by
  have hrep : (s.blk o.blk).isReplay = false := by unfold Block.isReplay; rw [hr]
  unfold Op.performs
  split <;> rw [hrep]
  · exact Bool.or_true _
  · rfl

theorem role_writeTargets (b : Byte) (k : Nat) (dst : List (Loc × Nat)) (s : State) :
    ((dst.foldl (fun t l => writeLoc t o.ctx l.1 b) s).blk k).role = (s.blk k).role := by
  induction dst generalizing s with
  | nil => rfl
  | cons l r ih => exact (ih _).trans (role_writeLoc ..)

theorem writeTargets_none (b : Byte) (dst : List (Loc × Nat)) {s : State} (hr : (s.blk o.blk).role = .none) :
    dst.foldl (fun t l => if o.performs t l.1 then writeLoc t o.ctx l.1 b else t) s = dst.foldl (fun t l => writeLoc t o.ctx l.1 b) s := by
  induction dst generalizing s with
  | nil => rfl
  | cons l r ih =>
    rw [List.foldl_cons, List.foldl_cons, if_pos (performs_of_none hr l.1)]
    exact ih ((role_writeLoc ..).trans hr)

theorem writePieces_none (ws : List (PByte × Byte)) {s : State} (hr : (s.blk o.blk).role = .none) :
    ws.foldl (fun t w => w.1.dst.foldl (fun t l => if o.performs t l.1 then writeLoc t o.ctx l.1 w.2 else t) t) s = writeBytes s o.ctx ws := by
  unfold writeBytes
  induction ws generalizing s with
  | nil => rfl
  | cons w r ih =>
    rw [List.foldl_cons, List.foldl_cons, writeTargets_none w.2 w.1.dst hr]
    exact ih ((role_writeTargets ..).trans hr)

theorem foldPiece_none (ws : List (PByte × Byte)) (hr : (s.blk o.blk).role = .none) : foldPiece s o ws = s := by
  unfold foldPiece foldSig
  rw [hr]

theorem writePiece_none (ws : List (PByte × Byte)) (hr : (s.blk o.blk).role = .none) :
    writePiece s o ws = writeBytes (clearWholes s (locBytes s o.ctx (targetsOf (ws.map Prod.fst)))) o.ctx ws := by
  have hplaces : (ws.map (fun w => (w.1.dst.filter (fun l => o.performs s l.1)).map Prod.fst)).flatten = targetsOf (ws.map Prod.fst) := by
    unfold targetsOf
    rw [List.map_map]
    refine congrArg List.flatten (List.map_congr_left (fun w _ => ?_))
    rw [List.filter_eq_self.2 (fun l _ => performs_of_none hr l.1)]
    rfl
  unfold writePiece
  rw [hplaces, foldPiece_none ws hr]
  refine writePieces_none ws ?_
  unfold State.blk
  rw [work_clearWholes]
  exact hr

variable {bs : List PByte} (hb : ∀ b ∈ bs, Movable s o c (targetsOf bs) b)
include hb

theorem cutNarrow_movable (f : Option (Nat × Nat)) : cutNarrow s o.ctx bs f = (bs, f) := by
  unfold cutNarrow
  dsimp only
  rw [List.find?_eq_none.2 ?_]
  intro b hm
  rw [List.any_eq_true]
  rintro ⟨l, hl, h⟩
  obtain ⟨-, hdead, hnarrow⟩ := (hb b hm).target l hl
  rw [show (bs.map (fun b => b.dst.map Prod.fst)).flatten = targetsOf bs from rfl, hdead, hnarrow] at h
  cases h

theorem waits_movable : bs.filterMap (fun b => (b.src.bind (fun l => locWait s (coreCluster o.core) o.ctx l false)).orElse
    (fun _ => (b.dst.filterMap (fun l => locWait s (coreCluster o.core) o.ctx l.1 true)).head?)) = [] := by
  rw [List.filterMap_eq_nil_iff]
  intro b hm
  have hsrc : b.src.bind (fun l => locWait s (coreCluster o.core) o.ctx l false) = none := by
    cases hs : b.src with
    | none => rfl
    | some l => exact ((hb b hm).source l hs).1
  have hdst : b.dst.filterMap (fun l => locWait s (coreCluster o.core) o.ctx l.1 true) = [] :=
    List.filterMap_eq_nil_iff.2 (fun l hl => ((hb b hm).target l hl).1)
  rw [hsrc, hdst]
  rfl

omit hb

theorem lowerFail_none (f : Option (Nat × Nat)) : lowerFail f none = f := by cases f <;> rfl

include hb

/-- What a piece finds where a byte's source is, which it may not reach. -/
def pieceAttempt (s : State) (o : Op) (c : Copy) (b : PByte) : Byte × Bool :=
  match b.src with
  | some l => if locDead s o.ctx l false then (0, true) else readLoc s o.ctx l
  | none => (BitVec.ofNat 8 (bitsOf c.pat (8 * (b.q % 4)) 8), false)

theorem attempts_movable : bs.map (fun b => (b, pieceAttempt s o c b)) = bs.map (fun b => (b, pieceRead s o c b)) := by
  refine List.map_congr_left (fun b hm => congrArg (Prod.mk b) ?_)
  unfold pieceAttempt pieceRead
  cases hs : b.src with
  | none => rfl
  | some l => exact if_neg (ne_true_of_eq_false ((hb b hm).source l hs).2)

theorem attempts_clean : (bs.map (fun b => (b, pieceAttempt s o c b))).find? (fun x => x.2.2) = none := by
  rw [attempts_movable hb]
  refine List.find?_eq_none.2 (fun x hx => ?_)
  obtain ⟨b, hm, rfl⟩ := List.mem_map.1 hx
  exact ne_true_of_eq_false (hb b hm).clean

theorem performPiece_movable {id j : Nat} (hp : pieceBytes s o c (32 * j) (min 32 (o.len - 32 * j)) = (bs, none))
    (hr : (s.blk o.blk).role = .none) : performPiece s id o c j =
      (writeBytes (clearWholes (bs.foldl (useSource o) s) (locBytes (bs.foldl (useSource o) s) o.ctx (targetsOf bs))) o.ctx
        (bs.map (fun b => (b, (pieceRead s o c b).1)))).setOp id
      { o with pieces := insertNat j o.pieces, done := o.done + bs.length } := by
  have hrole : ((bs.foldl (useSource o) s).blk o.blk).role = .none := by
    unfold State.blk
    rw [work_useSources]
    exact hr
  have htargets : targetsOf ((bs.map (fun b => (b, (pieceRead s o c b).1))).map Prod.fst) = targetsOf bs := by
    rw [List.map_map]
    exact congrArg targetsOf (List.map_id bs)
  have hwrite := writePiece_none (bs.map (fun b => (b, (pieceRead s o c b).1))) hrole
  rw [htargets] at hwrite
  unfold performPiece
  rw [hp]
  dsimp only
  rw [cutNarrow_movable hb]
  dsimp only
  rw [waits_movable hb]
  dsimp only
  refine (if_neg (by decide)).trans ?_
  have hfound := attempts_clean hb
  split
  · rename_i x hx
    cases hx.symm.trans hfound
  · have hvalues : (bs.map (fun b => (b, pieceAttempt s o c b))).map (fun x => (x.1, x.2.1)) = bs.map (fun b => (b, (pieceRead s o c b).1)) := by
      rw [attempts_movable hb, List.map_map]
      rfl
    rw [lowerFail_none]
    exact congrArg (fun t => State.setOp t id { o with pieces := insertNat j o.pieces, done := o.done + bs.length })
      ((congrArg (writePiece _ o) hvalues).trans hwrite)

end

/-! ### Where a byte's places are -/

section
variable {s : State} {o : Op} {c : Copy} {q : Nat}

/-- The canonical address of a place in global memory. -/
def locCanon : Loc → Nat
  | .glob _ k => k
  | _ => 0

/-- The targets of a byte, one engine address after another, as far as they can be reached. -/
def targetStep (s : State) (o : Op) (c : Copy) (q : Nat) (a : Except Nat (List (Loc × Nat))) (e : Eng) : Except Nat (List (Loc × Nat)) :=
  match a with
  | .error x => .error x
  | .ok ls =>
    match engByte s o.core o.blk o.ctx (e.move (c.dist c.ds q) c.wrap) permW with
    | .error x => .error x
    | .ok d => .ok (ls ++ [(d, (e.move (c.dist c.ds q) c.wrap).foldAddr (locCanon d))])

theorem targets_ok (es : List Eng) {ls : List Loc} (acc : List (Loc × Nat))
    (h : es.map (fun e => engByte s o.core o.blk o.ctx (e.move (c.dist c.ds q) c.wrap) permW) = ls.map (fun a => .ok a)) :
    ∃ ds, es.foldl (targetStep s o c q) (.ok acc) = .ok ds ∧ ds.map Prod.fst = acc.map Prod.fst ++ ls := by
  induction es generalizing ls acc with
  | nil =>
    cases ls with
    | nil => exact ⟨acc, rfl, (List.append_nil _).symm⟩
    | cons l r => cases h
  | cons e r ih =>
    cases ls with
    | nil => cases h
    | cons l ls =>
      obtain ⟨he, hr⟩ := List.cons.inj h
      obtain ⟨ds, hds, hmap⟩ := ih (acc ++ [(l, (e.move (c.dist c.ds q) c.wrap).foldAddr (locCanon l))]) hr
      refine ⟨ds, ?_, by rw [hmap, List.map_append, List.append_assoc]; rfl⟩
      rw [List.foldl_cons, ← hds]
      refine congrArg (fun a => r.foldl (targetStep s o c q) a) ?_
      unfold targetStep
      dsimp only
      rw [show engByte s o.core o.blk o.ctx (e.move (c.dist c.ds q) c.wrap) permW = .ok l from he]

theorem pieceByte_ok {l : Option Loc} {ls : List Loc}
    (hs : c.src = none ∧ l = none ∨ ∃ e a, c.src = some e ∧ l = some a ∧
      engByte s o.core o.blk o.ctx (e.move (c.dist c.ss q) c.wrap) permR = .ok a)
    (hd : c.dst.map (fun e => engByte s o.core o.blk o.ctx (e.move (c.dist c.ds q) c.wrap) permW) = ls.map (fun a => .ok a)) :
    ∃ b, pieceByte s o c q = .ok b ∧ b.q = q ∧ b.src = l ∧ b.dst.map Prod.fst = ls := by
  obtain ⟨ds, hds, hmap⟩ := targets_ok c.dst [] hd
  refine ⟨⟨q, l, ds⟩, ?_, rfl, rfl, hmap⟩
  unfold pieceByte
  rcases hs with ⟨hc, rfl⟩ | ⟨e, a, hc, rfl, he⟩
  · rw [hc]
    dsimp only
    split
    · rename_i hx
      cases hx.symm.trans hds
    · rename_i hx
      cases hx.symm.trans hds
      rfl
  · rw [hc]
    dsimp only
    rw [he]
    dsimp only [Except.map]
    split
    · rename_i hx
      cases hx.symm.trans hds
    · rename_i hx
      cases hx.symm.trans hds
      rfl

end

theorem dist_digits (c : Copy) (st : List Int) {i0 i1 i2 : Nat} (i3 : Nat) (h0 : i0 < c.n0) (h1 : i1 < c.n1) (h2 : i2 < c.n2) :
    c.dist st (i0 + c.n0 * (i1 + c.n1 * (i2 + c.n2 * i3))) = i0 + i1 * st.getD 0 0 + i2 * st.getD 1 0 + i3 * st.getD 2 0 := by
  unfold Copy.dist
  have hd {n i r : Nat} (h : i < n) : (i + n * r) / n = r := by
    rw [Nat.add_mul_div_left _ _ (by omega), Nat.div_eq_of_lt h, Nat.zero_add]
  have hm {n i r : Nat} (h : i < n) : (i + n * r) % n = i := by rw [Nat.add_mul_mod_self_left, Nat.mod_eq_of_lt h]
  rw [hd h0, hd h1, hd h2, hm h0, hm h1, hm h2]

/-! ### The words of a copy's end -/

section
variable {s : State} {id j : Nat} {o : Op} {c : Copy} (ho : s.op id = some o)
include ho

theorem copyPiece_performs (hs : o.stage = 0) (he : o.ended = false) (hc : o.cancel = false) (hp : o.pieces.contains j = false)
    (hj : j < o.count) (hparse : parseCopy o.code o.cmd = some c) : exec (.copyPiece id j) s = .next (performPiece s id o c j) := by
  refine (exec_copyPiece s).trans ?_
  unfold execCopyPiece
  rw [ho]
  dsimp only
  rw [hs, he, hc, hp, decide_eq_false (Nat.not_le.2 hj), if_neg (by decide), hparse]

theorem copyComplete_turn (h : o.stage ≠ 0 ∨ o.ended = true ∨ o.code ≠ 0xD3 ∧ (o.cancel = true ∨ o.unperformed = none)) :
    exec (.copyComplete id) s = .next (devTurn s (opAccs s o.stage o.task (o.close.getD o.result).1) (fun s => completeOp s id o)) := by
  refine (exec_copyComplete s).trans ?_
  unfold execCopyComplete
  rw [ho]
  refine if_pos ?_
  simpa only [Bool.or_eq_true, Bool.and_eq_true, decide_eq_true_eq, bne_iff_ne, Option.isNone_iff_eq_none, or_assoc] using h

end

theorem opAccs_early (s : State) {stage : Nat} (h : stage ≤ 1) (task st : Nat) : opAccs s stage task st = [] := if_pos (.inl h)

theorem opAccs_taskless (s : State) (stage st : Nat) : opAccs s stage 0 st = [] := if_pos (.inr (.inl rfl))

theorem opTask_none (s : State) (st cause : Nat) : opTask s 0 st cause = s := if_pos (.inl rfl)

theorem devTurn_none (s : State) (act : State → State) : devTurn s [] act = act s := devTurn_acts rfl act

end Sys2Proof.Machine
/-! PROOF. The steps of the exchange and matrix engines (13_engines.md R273 to R278, 15_remote.md R291, 19_matrix.md R336). -/
namespace Sys2Proof.Machine

/-! ### A part sends its runs -/

section
variable {s : State} {id : Nat} {x y : XPart} (hx : s.part id = some x) (h0 : x.stage = 0) (hc : x.cancel = none)
include hx h0 hc

theorem exchangeRunEmit_ends (hn : x.runs ≤ x.next) : exec (.exchangeRunEmit id) s = .next (sendEnds s id) := by
  refine (exec_exchangeRunEmit s).trans ?_
  unfold execExchangeRunEmit
  rw [hx]
  dsimp only
  rw [h0, hc, if_neg (by decide), if_pos hn]

variable (hn : x.next < x.runs) (hy : (emitRun s id x).part id = some y) (hm : y.next < y.runs)
include hn hy hm

theorem exchangeRunEmit_run : exec (.exchangeRunEmit id) s = .next
    (if y.next = x.next ∨ (List.range (y.runs - y.next)).any (fun k =>
        (y.run (emitRun s id x) (y.next + k)).mem == (x.run s x.next).mem) = true then emitRun s id x
      else sendEnd (emitRun s id x) id (x.run s x.next).mem) := by
  refine (exec_exchangeRunEmit s).trans ?_
  unfold execExchangeRunEmit
  rw [hx]
  dsimp only
  rw [h0, hc, if_neg (by decide), if_neg (Nat.not_le.2 hn), hy]
  exact congrArg Host.Outcome.next (if_neg (Nat.not_le.2 hm))

end

/-! ### A part ends -/

section
variable {s : State} {id : Nat} {x : XPart} (hx : s.part id = some x)
include hx

theorem exchangePartComplete_turn (hc : x.cancel = none) {v : Nat × Nat × Nat} (hv : x.close.orElse (fun _ => x.verdict s) = some v) :
    exec (.exchangePartComplete id) s = .next
      (devTurn (if x.stage = 0 ∧ v.1 = 2 ∧ x.bad = 0 ∧ v.2.2 ≠ 0x1FFFFFF then recvLog s x else s)
        (opAccs (if x.stage = 0 ∧ v.1 = 2 ∧ x.bad = 0 ∧ v.2.2 ≠ 0x1FFFFFF then recvLog s x else s) x.stage x.task v.1)
        (fun u => endPart u id x v.1 v.2.1 v.2.2)) := by
  refine (exec_exchangePartComplete s).trans ?_
  unfold execExchangePartComplete
  rw [hx]
  dsimp only
  rw [hc, Option.isSome_none, if_neg Bool.false_ne_true, hv]

theorem xgCancelComplete_settled (h0 : x.stage = 0) (hc : x.cancel = some 0) (hs : x.settled = true) :
    exec (.xgCancelComplete id) s = .next (endPart s id x 3 0
      (((List.range x.runs).find? (fun q => mfind x.stat q != some 1)).getD x.runs)) := by
  refine (exec_xgCancelComplete s).trans ?_
  unfold execXgCancelComplete
  rw [hx]
  dsimp only
  rw [hc]
  dsimp only
  rw [if_neg (not_not.2 h0), hs, Bool.not_true, if_neg Bool.false_ne_true, if_pos rfl]

theorem xgCancelComplete_late (h0 : x.stage ≠ 0) {va : Nat} (hc : x.cancel = some va) :
    exec (.xgCancelComplete id) s = .next (endPart s id x 3 0 0) := by
  refine (exec_xgCancelComplete s).trans ?_
  unfold execXgCancelComplete
  rw [hx]
  dsimp only
  rw [hc]
  exact if_pos h0

end

theorem endPart_reports {x : XPart} (s : State) (id : Nat) {st cause off : Nat} (h2 : x.stage = 2) (hc : x.close = some (st, cause, off))
    (ht : x.task = 0) (a b c : Nat) : endPart s id x a b c = putToken
      { s with work := { s.work with
        parts := mdel s.work.parts id
        xgDead := if x.cancel.isSome then s.work.xgDead ++ [(x.ctx, x.tag)] else s.work.xgDead } }
      x.core x.wslot x.live x.tk (tokenWord st cause off) := by
  unfold endPart
  dsimp only
  rw [h2, hc, ht, opTask_none]
  rfl

/-! ### Runs that arrive -/

section
variable {s : State} {k id : Nat} {p : Packet} {x : XPart} (hk : mfind s.fab.inbox k = some p) (hi : incOk s p = true)
  (hd : p.dst = s.fab.self)
include hk hi hd

theorem exchangeRun_seen (h5 : p.kind = 5) (hs : (seenRuns s p.ctx p.tag).contains (p.src, p.wtag) = true) :
    exec (.exchangeRun k) s = .next (takeIn s k) := by
  refine (exec_exchangeRun s).trans ?_
  unfold execExchangeRun
  rw [hk]
  dsimp only
  rw [if_neg (not_not.2 h5), hi, hd, bne_self_eq_false, if_neg (by decide), if_pos hs]

theorem exchangeRun_refused (h5 : p.kind = 5) (hs : (seenRuns s p.ctx p.tag).contains (p.src, p.wtag) = false)
    (hp : hasPlace s p.ctx p.tag = false) : exec (.exchangeRun k) s = .next (refuse s k p) := by
  refine (exec_exchangeRun s).trans ?_
  unfold execExchangeRun
  rw [hk]
  dsimp only
  rw [if_neg (not_not.2 h5), hi, hd, bne_self_eq_false, if_neg (by decide), if_neg (ne_true_of_eq_false hs), hp, if_pos (by rfl)]

/-- The bytes of a run. -/
def runBytes (p : Packet) : List Byte := (p.body.drop 16).take (fieldAt p.body 0 4)

theorem exchangeRun_lands (h5 : p.kind = 5) (hs : (seenRuns s p.ctx p.tag).contains (p.src, p.wtag) = false)
    (hp : hasPlace s p.ctx p.tag = true) (hc : handleCorrupt s p.ctx (p.addr % 2 ^ 16) = false) {d : Desc}
    (hr : runCheck s p.ctx (p.addr % 2 ^ 16) (p.addr / 2 ^ 16) (runBytes p).length = .ok d)
    (hw : runWait s p.ctx d (p.addr / 2 ^ 16) (runBytes p) = none) {t : State}
    (hl : landRun (takeIn s k) p.ctx p.tag p.src p.wtag (p.addr % 2 ^ 16) (p.addr / 2 ^ 16) (runBytes p) = (t, 0)) :
    exec (.exchangeRun k) s = .next (sendPacket t (newPacket t 7 0 p.src false p.stream p.seq p.ctx p.tag p.wtag 0 (copies 16 0))).2 := by
  unfold runBytes at hr hw hl
  refine (exec_exchangeRun s).trans ?_
  unfold execExchangeRun
  rw [hk]
  dsimp only
  rw [if_neg (not_not.2 h5), hi, hd, bne_self_eq_false, if_neg (by decide), if_neg (ne_true_of_eq_false hs), hp, if_neg (by decide), hc,
    if_neg Bool.false_ne_true, hr]
  dsimp only
  rw [hw]
  dsimp only
  rw [hl]
  dsimp only
  rw [if_pos rfl, show leBytes 4 0 ++ copies 12 0 = copies 16 (0 : Byte) from rfl]

theorem exchangeEnd_counts (h6 : p.kind = 6) (hf : partFor s p.ctx p.tag = some (id, x)) :
    exec (.exchangeEnd k) s = .next ((takeIn s k).setPart id { x with ends := mput x.ends p.src p.addr }) := by
  have hplace : hasPlace s p.ctx p.tag = true := by
    unfold hasPlace
    rw [hf]
    rfl
  refine (exec_exchangeEnd s).trans ?_
  unfold execExchangeEnd
  rw [hk]
  dsimp only
  rw [if_neg (not_not.2 h6), hi, hd, bne_self_eq_false, if_neg (by decide), hplace, if_neg (by decide),
    show partFor (takeIn s k) p.ctx p.tag = some (id, x) from hf]

end

theorem runAcknowledgment_counts {s : State} {k : Nat} {p : Packet} (hk : mfind s.fab.inbox k = some p) (h7 : p.kind = 7)
    (ht : p.tinc = s.fab.inc) {r : Nat × Nat × Nat × Packet × Nat}
    (hr : s.fab.runs.find? (fun r => r.2.2.2.1.ctx == p.ctx && r.2.2.2.1.tag == p.tag && r.2.2.2.1.wtag == p.wtag && r.2.2.2.1.dst == p.src) =
      some r) :
    exec (.runAcknowledgment k) s = .next (setStat (takeIn { s with fab := { s.fab with runs := mdel s.fab.runs r.1 } } k) r.2.1 r.2.2.1
      (if fieldAt p.body 0 1 = 0 then 1 else 2 + fieldAt p.body 0 1)) := by
  refine (exec_runAcknowledgment s).trans ?_
  unfold execRunAcknowledgment
  rw [hk]
  dsimp only
  rw [if_neg (not_not.2 h7), hr]
  exact if_neg (not_not.2 ht)

theorem work_writeRun (s : State) (ctx : Nat) (d : Desc) (off : Nat) (bs : List Byte) : (writeRun s ctx d off bs).work = s.work := by
  refine work_foldl (fun s p => ?_) _ s
  split
  · exact ((Aside.useByte ..).trans (.homeWrite ..)).work
  · rfl

/-- A part takes a run into its counts. -/
def XPart.takesRun (x : XPart) (src j n : Nat) : XPart :=
  { x with got := mput x.got src (mget x.got 0 src + n), seen := x.seen ++ [(src, j)], written := x.written + n }

theorem landRun_lands {s : State} {ctx tag xid off id : Nat} (src j : Nat) {bs : List Byte} {x : XPart} {d : Desc}
    (hf : partFor s ctx tag = some (id, x)) (hr : runCheck s ctx xid off bs.length = .ok d) (hn : runNarrow s ctx d off bs = false) :
    landRun s ctx tag src j xid off bs =
      ((rxCharge (writeRun s ctx d off bs) (x.takesRun src j bs.length) bs.length false).1.setPart id
        (rxCharge (writeRun s ctx d off bs) (x.takesRun src j bs.length) bs.length false).2, 0) := by
  have hpart : partFor (writeRun s ctx d off bs) ctx tag = some (id, x) := by
    unfold partFor
    rw [work_writeRun]
    exact hf
  unfold landRun
  rw [hr]
  simp only [hn, Bool.false_eq_true, if_false, if_true, hpart]
  rfl

/-! ### Runs that are not answered -/

section
variable {s : State} {id j k : Nat} {x : XPart}

theorem runResend_sends {r : Nat × Nat × Nat × Packet × Nat} (hr : s.fab.runs.find? (fun r => r.2.1 == id && r.2.2.1 == j) = some r)
    (hx : s.part id = some x) (hs : mfind x.stat j = some 100) :
    exec (.runResend id j) s = .next (setStat { (sendPacket s r.2.2.2.1).2 with fab := { (sendPacket s r.2.2.2.1).2.fab with
      runs := mput (sendPacket s r.2.2.2.1).2.fab.runs r.1
        (id, j, { r.2.2.2.1 with via := (sendPacket s r.2.2.2.1).1.getD 32 }, r.2.2.2.2) } } id j 0) := by
  refine (exec_runResend s).trans ?_
  unfold execRunResend
  rw [hr, hx]
  exact if_pos hs

theorem postedTimeout_post {q : Post} (hq : s.post k = some q) (ht : q.since + respTimeout s ≤ s.plat.time) :
    exec (.postedTimeout k) s = .next (failPost s k 4) := by
  refine (exec_postedTimeout s).trans ?_
  unfold execPostedTimeout
  rw [hq]
  exact if_pos ht

theorem postedTimeout_run {r : Nat × Nat × Packet × Nat} {y : XPart} (hq : s.post k = none) (hr : mfind s.fab.runs k = some r)
    (ht : r.2.2.2 + respTimeout s ≤ s.plat.time) (hy : (failRun s k 4).part r.1 = some y) :
    exec (.postedTimeout k) s = .next ((failRun s k 4).setPart r.1 { y with removed := y.removed ++ [r.2.2.1.dst] }) := by
  refine (exec_postedTimeout s).trans ?_
  unfold execPostedTimeout
  rw [hq, hr]
  refine (if_pos ht).trans ?_
  dsimp only
  rw [hy]

end

/-- Reads that only writes precede are none. -/
theorem devUses_opAccs (s u : State) (stage task st : Nat) : devUses u (opAccs s stage task st) = u := by
  unfold opAccs
  split
  · rfl
  · split <;> rfl

/-- Settles O43: a copy's piece moves each byte from where the source's distance leads to where the targets' do, and the ends of copies,
parts, runs and matrix words act as their rules say. -/
theorem engineEvents : Obligations.EngineEvents := by
  unfold Obligations.EngineEvents
  intro s id j k o c x p m
  refine ⟨?piece, fun q l ls => pieceByte_ok, fun st i0 i1 i2 i3 => dist_digits c st i3, ?places, copyPiece_performs, ?ends, ?frees, ?charges,
    ?reports, ?emits, ?verdict, xgCancelComplete_settled, ?last, ?arrives, ?acknowledged, ?lands, fun r => runResend_sends, fun q =>
    postedTimeout_post, fun r y => postedTimeout_run, execMatrixComplete_performs⟩
  case piece =>
    intro ho hs he hc hp hj hparse hr P n qs cl read all u h
    have hbytes : pieceBytes s o c (32 * j) n = (qs.map P, none) := by
      rw [pieceBytes_all (P := P) n (fun i hi => (h _ (List.mem_map.2 ⟨i, List.mem_range.2 hi, rfl⟩)).1)]
      exact congrArg (·, none) (List.map_map ..).symm
    have htargets : targetsOf (qs.map P) = all := by
      unfold targetsOf
      rw [List.map_map]
      rfl
    have hmov : ∀ b ∈ qs.map P, Movable s o c (targetsOf (qs.map P)) b := by
      intro b hb
      obtain ⟨q, hq, rfl⟩ := List.mem_map.1 hb
      obtain ⟨-, hclean, hsrc, hdst⟩ := h q hq
      exact ⟨hclean, hsrc, by rw [htargets]; exact hdst⟩
    have hlen : (qs.map P).length = n := by rw [List.length_map, List.length_map, List.length_range]
    have hu : (qs.map P).foldl (useSource o) s = u := List.foldl_map
    refine (copyPiece_performs ho hs he hc hp hj hparse).trans (congrArg Host.Outcome.next ?_)
    rw [performPiece_movable hmov hbytes hr, hlen, htargets, hu]
    refine congrArg (fun t => State.setOp t id _) ?_
    unfold writeBytes
    rw [List.map_map, List.foldl_map]
    rfl
  case places =>
    intro ctx b v a off y
    exact ⟨fun d hd => ⟨writeLoc_glob hd b, readLoc_glob hd⟩, fun hy => ⟨writeLoc_spad hy ctx off b, readLoc_spad hy ctx off⟩, rfl, rfl⟩
  case ends =>
    intro ho h hd
    exact (copyComplete_turn ho h).trans (congrArg Host.Outcome.next
      ((devTurn_acts hd _).trans (congrArg (fun t => completeOp t id o) (devUses_opAccs ..))))
  case frees =>
    intro ho h0 h hc
    refine (copyComplete_turn ho (.inr h)).trans (congrArg Host.Outcome.next ?_)
    rw [opAccs_early s (by omega), devTurn_none]
    unfold completeOp
    rw [h0, hc]
    rfl
  case charges =>
    intro ho h1 r hr
    refine (copyComplete_turn ho (.inl (by omega))).trans (congrArg Host.Outcome.next ?_)
    rw [opAccs_early s (by omega), devTurn_none]
    unfold completeOp
    rw [h1, hr]
    rfl
  case reports =>
    intro ho h2 ht st cause off hc
    refine (copyComplete_turn ho (.inl (by omega))).trans (congrArg Host.Outcome.next ?_)
    rw [ht, opAccs_taskless, devTurn_none]
    unfold completeOp
    rw [h2, hc, ht]
    dsimp only
    rw [opTask_none]
    rfl
  case emits =>
    intro hx h0 hc
    refine ⟨exchangeRunEmit_ends hx h0 hc, ?_, ?_⟩
    · intro t y hn hy hm hl
      exact (exchangeRunEmit_run hx h0 hc hn hy hm).trans (congrArg Host.Outcome.next (if_pos (.inr hl)))
    · intro t y hn hy hm hne hl
      refine (exchangeRunEmit_run hx h0 hc hn hy hm).trans (congrArg Host.Outcome.next (if_neg ?_))
      rintro (h | h)
      · exact hne h
      · exact ne_true_of_eq_false hl h
  case verdict =>
    intro hx h0 hcl hc v hv
    refine (exchangePartComplete_turn hx hc (v := v) (by rw [hcl]; exact hv)).trans (congrArg Host.Outcome.next ?_)
    rw [opAccs_early _ (by omega), devTurn_none]
    simp only [h0, true_and]
  case last =>
    intro hx h2 st cause off hc ht
    cases hca : x.cancel with
    | some va =>
      rw [Option.isSome_some, if_pos rfl]
      refine (xgCancelComplete_late hx (by omega) hca).trans (congrArg Host.Outcome.next ?_)
      rw [endPart_reports s id h2 hc ht, hca]
      rfl
    | none =>
      rw [Option.isSome_none, if_neg Bool.false_ne_true]
      refine (exchangePartComplete_turn hx hca (v := (st, cause, off)) (by rw [hc]; rfl)).trans (congrArg Host.Outcome.next ?_)
      rw [ht, opAccs_taskless, devTurn_none, endPart_reports _ id h2 hc ht, hca, if_neg (by omega)]
      rfl
  case arrives =>
    intro hk hi hd
    refine ⟨exchangeRun_seen hk hi hd, ?_, exchangeRun_refused hk hi hd, exchangeEnd_counts hk hi hd⟩
    intro h5 hs hp bs hc d hr hw t hl
    exact exchangeRun_lands hk hi hd h5 hs hp hc hr hw hl
  case acknowledged =>
    intro hk h7 ht r hr
    exact runAcknowledgment_counts hk h7 ht hr
  case lands =>
    intro ctx tag src xid off bs d hf hr hn
    exact landRun_lands src j hf hr hn

end Sys2Proof.Machine
/-! PROOF. The steps that complete loads and stores (07_memory.md R149, R150, R156, R157). -/
namespace Sys2Proof.Machine

/-! ### The end of a request -/

section
variable {s : State} {id : Nat} {r : Req} {p : Part}

theorem Req.with_parts (r : Req) : { r with parts := r.parts } = r := rfl

theorem finishReq_load {sgn : Bool} (hk : r.kind = .load sgn) (hf : r.fell = false) (hl : r.live = true) :
    finishReq s id r = (lowerCounter (s.updWarp r.core r.wslot (fun w => w.take r)) r).delReq id := by
  unfold finishReq
  rw [hk, hf, hl]
  rfl

theorem deferReq_clean (he : r.parts.all (fun p => !p.err) = true) : deferReq s r = s := by
  have hbad : r.parts.filter Part.err = [] :=
    List.filter_eq_nil_iff.2 (fun p hp h => by have := List.all_eq_true.1 he p hp; rw [h] at this; cases this)
  unfold deferReq Req.deferred
  rw [hbad]

theorem finishReq_store (hk : r.kind = .store) (hf : r.fell = false) (hl : r.live = true) (he : r.parts.all (fun p => !p.err) = true) :
    finishReq s id r = (lowerCounter (s.updWarp r.core r.wslot (fun w => w.take r)) r).delReq id := by
  unfold finishReq
  rw [hk, hf, hl]
  dsimp only
  rw [if_pos rfl, deferReq_clean he]
  rfl

/-! ### Loads -/

theorem refills_done (l : List Part) (h : ∀ p ∈ l, p.done = true) (t : State) : l.foldl (fun t p => refill t r p) t = t := by
  induction l generalizing t with
  | nil => rfl
  | cons p l ih =>
    have hp : refill t r p = t := by
      unfold refill
      exact if_pos (by rw [h p List.mem_cons_self]; rfl)
    rw [List.foldl_cons, hp]
    exact ih (fun q hq => h q (List.mem_cons_of_mem _ hq)) t

theorem loadPart_done (h : p.done = true) : loadPart s id r p = some p := by
  unfold loadPart
  exact if_pos h

theorem completeLoad_ready (hm : reqMayRun s id r = true) {done : List Part} (hd : r.parts.map (loadPart s id r) = done.map some) :
    completeLoad s id r = finishReq (r.parts.foldl (fun t p => refill t r p) s) id { r with parts := done } := by
  have hnone : (done.map some).any Option.isNone = false := by
    rw [List.any_map]
    exact List.any_eq_false.2 (fun x _ => Bool.false_ne_true)
  have hsome : (done.map some).filterMap (fun p => p) = done := by
    rw [List.filterMap_map]
    exact List.filterMap_some
  unfold completeLoad
  dsimp only
  rw [hm, Bool.not_true, if_neg Bool.false_ne_true, hd, hnone, if_neg Bool.false_ne_true, hsome]

theorem loadComplete_load (hr : s.req id = some r)
    (hk : (∃ sgn, r.kind = .load sgn) ∨ r.kind = .sload ∨ ∃ m sat fmt, r.kind = .scale m sat fmt) :
    exec (.loadComplete id) s = .next (completeLoad s id r) := by
  refine (exec_loadComplete s).trans ?_
  unfold execLoadComplete
  rw [hr]
  dsimp only
  rcases hk with ⟨sgn, hk⟩ | hk | ⟨m, sat, fmt, hk⟩ <;> rw [hk]

section
variable (hc : partClear s id r p = true) (hd : p.done = false)
include hc hd

theorem loadPart_l1 (hg : r.space = .global) (hs : r.sc = 0) {bs : List Byte} (hl : l1Read (s.core r.core) r.ctx p.addr r.w = some bs) :
    loadPart s id r p = some (p.performed (leNat bs, false)) := by
  unfold loadPart
  rw [hd, hc, hg, hs]
  dsimp only [beq_self_eq_true]
  rw [if_neg Bool.false_ne_true, if_neg (by decide), if_pos (by decide), hl]

theorem loadPart_local (hg : r.space ≠ .global) :
    loadPart s id r p = some (p.performed (leNat (localRead s r.space p.addr r.w), false)) := by
  unfold loadPart
  rw [hd, hc, if_neg Bool.false_ne_true, if_neg (by decide)]
  split
  · rename_i h; exact absurd h hg
  · rfl

end

section
variable (w : Warp) (hp : r.parts = [p]) (hl : p.landed = 0) (he : p.err = false)
include hp hl he

theorem take_load {sgn : Bool} (hk : r.kind = .load sgn) : w.take r = w.putGroup r.vd r.w p.lane p.res sgn false := by
  unfold Warp.take
  rw [hp, hk]
  dsimp only [List.foldl_cons, List.foldl_nil]
  unfold Warp.takePart
  rw [hl, hk, he]
  rfl

theorem take_sload (hk : r.kind = .sload) : w.take r = w.setS r.vd (BitVec.ofNat 32 p.res) := by
  unfold Warp.take
  rw [hp, hk]
  dsimp only [List.foldl_cons, List.foldl_nil]
  unfold Warp.takePart
  rw [hl, hk, he]
  rfl

theorem take_scale {m fmt : Nat} {sat : Bool} (hk : r.kind = .scale m sat fmt) : w.take r = w.setV r.vd (BitVec.ofNat 32 (2 ^ p.lane))
    (fun _ => BitVec.ofNat 32 (scaledElem (modeOf m 0) sat (decodeElem fmt p.data) p.res)) := by
  unfold Warp.take
  rw [hp, hk]
  dsimp only [List.foldl_cons, List.foldl_nil]
  unfold Warp.takePart
  rw [hl, hk]
  refine (if_neg (by decide)).trans ?_
  unfold Warp.putScale
  rw [he]
  rfl

end

/-! ### Stores -/

theorem storeComplete_global (hr : s.req id = some r) (hk : r.kind = .store) (hg : r.space = .global) :
    exec (.storeComplete id) s = .next (completeStore s id r) := by
  refine (exec_storeComplete s).trans ?_
  unfold execStoreComplete
  rw [hr]
  dsimp only
  rw [hk, hg]
  rfl

theorem enqueueStore_queued (hq : r.queued ≠ 0) : enqueueStore s id r = s := by
  unfold enqueueStore
  exact if_pos (by rw [bne_iff_ne.2 hq]; rfl)

theorem completeStore_done (hr : s.req id = some r) (hf : r.fell = false) (hq : r.queued ≠ 0) (hs : r.sc ≠ 0) (hd : r.allDone = true) :
    completeStore s id r = finishReq s id r := by
  unfold completeStore
  rw [hf, if_neg Bool.false_ne_true, enqueueStore_queued hq]
  dsimp only
  rw [hr]
  dsimp only
  rw [beq_false_of_ne hs]
  exact (if_pos hd).trans (if_pos hd)

/-- A store of one part enters the write-through queue with its bytes in the L1 lines present. -/
def State.queuesStore (s : State) (id : Nat) (r : Req) (p : Part) : State :=
  let u := s.updCore r.core (fun k => storeL1 k r.ctx p.addr (leBytes r.w p.data))
  let v := u.setReq id { r with queued := s.mem.nextQ + 1 }
  { v with mem := { v.mem with nextQ := s.mem.nextQ + 1 } }

section
variable (hp : r.parts = [p]) (hc : cachedClass p.cls = true)
include hp hc

theorem enqueueStore_enters (hq : r.queued = 0) (hk : partClear s id r p = true) : enqueueStore s id r = s.queuesStore id r p := by
  have hcached : r.parts.filter (fun p => cachedClass p.cls) = [p] := by
    rw [hp]
    exact List.filter_eq_self.2 (fun x hx => by rw [List.mem_singleton.1 hx]; exact hc)
  unfold enqueueStore
  rw [hcached]
  refine (if_neg ?_).trans rfl
  rw [hq, List.all_cons, hk, List.all_nil]
  exact ne_true_of_eq_false rfl

theorem completeStore_falls (hf : r.fell = false) (hq : r.queued = 0) (hs : r.sc = 0) (hd : p.done = false)
    (hk : partClear s id r p = true) : completeStore s id r =
      (lowerCounter (s.queuesStore id r p) { r with queued := s.mem.nextQ + 1 }).setReq id
        { r with queued := s.mem.nextQ + 1, fell := true } := by
  have hreq : (s.queuesStore id r p).req id = some { r with queued := s.mem.nextQ + 1 } := (mfind_mput ..).trans (if_pos rfl)
  have hready : r.parts.all (fun p => p.done || (cachedClass p.cls && s.mem.nextQ + 1 != 0)) = true := by
    rw [hp, List.all_cons, hc, bne_iff_ne.2 (Nat.succ_ne_zero s.mem.nextQ), Bool.and_self, Bool.or_true, List.all_nil, Bool.and_self]
  have hwaits : r.allDone = false := by
    unfold Req.allDone
    rw [hp, List.all_cons, hd, Bool.false_and]
  unfold completeStore
  rw [if_neg (ne_true_of_eq_false hf), enqueueStore_enters hp hc hq hk]
  dsimp only
  rw [hreq]
  dsimp only
  rw [beq_iff_eq.2 hs, if_pos rfl, hready, if_pos rfl]
  unfold fallStore
  exact if_neg (ne_true_of_eq_false hwaits)

end

/-! ### Stores to a local level -/

theorem storeComplete_local (hr : s.req id = some r) (hk : r.kind = .store) (hg : r.space ≠ .global) :
    exec (.storeComplete id) s = .next (completeLocal s id r) := by
  refine (exec_storeComplete s).trans ?_
  unfold execStoreComplete
  rw [hr]
  dsimp only
  rw [hk]
  exact congrArg Host.Outcome.next (if_neg (by rw [beq_iff_eq]; exact hg))

theorem completeLocal_one (hp : r.parts = [p]) (hl : p.landed = 0) (hc : partClear s id r p = true) : completeLocal s id r =
    finishReq (localStore s id r.space p.addr (leBytes r.w p.data)) id { r with parts := [p.performed (0, false)] } := by
  have hrest : r.parts.foldl (fun s p => localRest s id r p) s = localStore s id r.space p.addr (leBytes r.w p.data) := by
    rw [hp]
    exact if_pos hl
  have hdone : r.parts.map (fun p => p.performed (0, false)) = [p.performed (0, false)] := by
    rw [hp]
    rfl
  unfold completeLocal
  rw [if_pos (by rw [hp, List.all_cons, hc, List.all_nil, Bool.and_self])]
  dsimp only
  rw [hrest, hdone]

theorem localStore_plain {sp : Space} {a : Nat} {bs : List Byte} (hs : spoiledObjs s sp a bs.length = []) (ht : tstBefore s id sp = false)
    (hw : (localWrite s sp a bs).work.mops = s.work.mops) : localStore s id sp a bs = localWrite s sp a bs := by
  unfold localStore
  dsimp only
  rw [hs]
  refine if_neg (ne_true_of_eq_false ?_)
  refine Eq.trans ?_ ht
  cases sp <;> unfold tstBefore spoilObjs
  case spad b => dsimp only [List.foldl_nil]; rw [hw]
  all_goals rfl

end

end Sys2Proof.Machine
/-! PROOF. The steps that perform stores at home, atomics, and bounded words, and that fill an ECB (07_memory.md R149, 09_extents.md R177,
12_atomics.md R239, R246, R251). -/
namespace Sys2Proof.Machine

section
variable {s : State} {id : Nat} {r : Req} {p : Part}

/-! ### The write-through queue -/

section
variable (hq : r.queued ≠ 0) (hp : r.parts = [p])
include hq

theorem writeThroughApply_applies (hr : s.req id = some r) (hk : r.kind = .store) (hg : r.space = .global) (sector : Nat) :
    exec (.writeThroughApply id sector) s = .next (applySector s id sector r) := by
  refine (exec_writeThroughApply s).trans ?_
  unfold execWriteThroughApply
  rw [hr]
  dsimp only
  rw [hk, hg, if_pos (by decide), enqueueStore_queued hq, hr]
  exact congrArg Host.Outcome.next (if_neg (by rw [beq_iff_eq]; exact hq))

include hp
variable {sector line : Nat} (hd : p.done = false) (hc : cachedClass p.cls = true) (ha : p.addr / 32 = sector)
  (ho : olderQueued s id r p = false) (hl : partLines r p = [line]) (hh : homeOpen s r.core p.cls line = true)
include hd hc ha ho hl hh

theorem applySector_one : applySector s id sector r = settleStore (applyPart
    (if p.cls == 1 then drainLine (recallFrom s r.core line) line false else recallFrom s r.core line) id r p
    (partBad (if p.cls == 1 then drainLine (recallFrom s r.core line) line false else recallFrom s r.core line) r [p] p)) id := by
  have hready : lineReady s p.cls line true = true := by
    unfold homeOpen at hh
    simp only [Bool.and_eq_true] at hh
    exact hh.1.2
  have hparts : r.parts.filter (fun p => !p.done && cachedClass p.cls && p.addr / 32 == sector) = [p] := by
    rw [hp]
    exact List.filter_eq_self.2 (fun x hx => by rw [List.mem_singleton.1 hx, hd, hc, beq_iff_eq.2 ha]; rfl)
  have hlines : ([p].map (partLines r)).flatten.eraseDups = [line] := by
    rw [List.map_cons, List.map_nil, List.flatten_cons, List.flatten_nil, List.append_nil, hl]
    rfl
  have hdrain (t : State) : [p].foldl (fun s p => if p.cls == 1 then (partLines r p).foldl (fun s l => drainLine s l false) s else s) t =
      if p.cls == 1 then drainLine t line false else t := by
    rw [List.foldl_cons, List.foldl_nil, hl]
    rfl
  unfold applySector
  rw [hparts]
  dsimp only
  rw [hlines, hdrain, if_neg ?queued, List.find?_eq_none.2 ?ready]
  case queued =>
    rw [List.any_cons, ho, beq_false_of_ne hq]
    exact Bool.false_ne_true
  case ready =>
    intro x hx
    rw [List.mem_singleton.1 hx, hl, List.all_cons, hready]
    exact Bool.false_ne_true
  dsimp only
  rw [if_neg ?opened]
  case opened =>
    rw [List.all_cons, hl, List.all_cons, hh]
    exact Bool.false_ne_true
  rfl

end

theorem applyPart_found {u : State} {d : Desc} (hd : canonDesc u r.ctx p.addr = .found d) (bad : Bool) : applyPart u id r p bad =
    if bad then setPart u id (p.performed (0, true))
    else setPart (homeWrite u d p.addr (leBytes r.w p.data)) id (p.performed (0, false)) := by
  unfold applyPart
  rw [hd]

/-! ### Atomics on an owned line -/

theorem setPart_one {q : Part} (hr : s.req id = some r) (hp : r.parts = [p]) (hq : q.lane = p.lane) :
    setPart s id q = s.setReq id { r with parts := [q] } := by
  have hparts : r.parts.map (fun x => if x.lane = q.lane then q else x) = [q] := by
    rw [hp]
    exact congrArg (· :: []) (if_pos hq.symm)
  unfold setPart
  rw [hr]
  dsimp only
  rw [hparts]

theorem performAtoms_unwanted (h : ∀ x ∈ r.parts, wantsLine r x = false) : performAtoms s id r none = s := by
  have hnone (f : Part → Bool) : r.parts.filter (fun x => f x && ownedReady s id r x) = [] := by
    refine List.filter_eq_nil_iff.2 (fun x hx hready => ?_)
    unfold ownedReady at hready
    rw [h x hx] at hready
    simp only [Bool.false_and, Bool.and_false, Bool.false_eq_true] at hready
  unfold performAtoms
  split
  · rfl
  · split
    · rfl
    · dsimp only
      rw [hnone]
      rfl

theorem waitLines_unwanted (h : ∀ x ∈ r.parts, (wantsLine r x && !lineReady s x.cls (lineKey r.ctx x.addr) true) = false) :
    waitLines s id r = s := by
  unfold waitLines
  split
  · rfl
  · rw [List.filter_eq_nil_iff.2 (fun x hx => ne_true_of_eq_false (h x hx))]
    rfl

theorem reqs_touchByte (s : State) (d : Desc) (va : Nat) (wr : Bool) : (touchByte s d va wr).mem.reqs = s.mem.reqs := by
  obtain ⟨e, c, h⟩ := touchByte_cases s d va wr
  rw [h]

theorem reqs_homeWrite (s : State) (d : Desc) (va : Nat) (bs : List Byte) : (homeWrite s d va bs).mem.reqs = s.mem.reqs := by
  unfold homeWrite
  split <;> rfl

theorem reqs_touched (d : Desc) (va : Nat) (l : List Nat) (s : State) :
    (l.foldl (fun t i => touchByte t d (va + i) false) s).mem.reqs = s.mem.reqs := by
  induction l generalizing s with
  | nil => rfl
  | cons i l ih => exact (ih _).trans (reqs_touchByte ..)

theorem loadComplete_atomic {op : Nat} (hr : s.req id = some r) (hk : r.kind = .atomic op) :
    exec (.loadComplete id) s = .next (completeAtomic s id r) := by
  refine (exec_loadComplete s).trans ?_
  unfold execLoadComplete
  rw [hr]
  dsimp only
  rw [hk]

section
variable {op : Nat} (hk : r.kind = .atomic op) (hg : r.space = .global) (hp : r.parts = [p]) (hd : p.done = false)
  (hc : cachedClass p.cls = true) (h2 : p.cls ≠ 2) (ho : mget s.mem.owner 0 (lineKey r.ctx p.addr) = r.core + 1)
  (hm : reqMayRun s id r = true) (hclear : partClear s id r p = true) (hw : ownedWait s r p = none)
include hk hg hp hd hc h2 ho hm hclear hw

theorem performAtoms_one : performAtoms s id r none = performOwned { s with free := s.free + 1 } id r p op := by
  have hready : ownedReady s id r p = true := by
    unfold ownedReady wantsLine lineReady
    dsimp only
    rw [hk, hg, hd, hc, ho, hclear, bne_iff_ne.2 h2, beq_self_eq_true, beq_self_eq_true]
    rfl
  have hmine : r.parts.filter (fun x => (Option.isNone (none : Option Nat) || none == some (lineKey r.ctx x.addr)) && ownedReady s id r x) = [p] := by
    rw [hp]
    exact List.filter_eq_self.2 (fun x hx => by rw [List.mem_singleton.1 hx, hready]; rfl)
  have hwait : [p].filter (fun x => (ownedWait s r x).isNone) = [p] :=
    List.filter_eq_self.2 (fun x hx => by rw [List.mem_singleton.1 hx, hw]; rfl)
  unfold performAtoms
  rw [show r.kind.atomOp = some op by rw [hk]; rfl]
  dsimp only
  rw [hm, Bool.not_true, if_neg Bool.false_ne_true, hmine, hwait, List.foldl_cons, List.foldl_nil, hw]
  dsimp only [Option.getD_none, List.length_cons, List.length_nil]
  rw [freeOrder_single]
  rfl

/-- The state in which an atomic's old value is read. -/
def atomUse (s : State) (r : Req) (p : Part) (d : Desc) : State :=
  (List.range r.w).foldl (fun t i => touchByte t d (p.addr + i) false) { s with free := s.free + 1 }

/-- Its bytes there, each with whether it stands in a sector with an error. -/
def atomBytes (s : State) (r : Req) (p : Part) (d : Desc) : List (Byte × Bool) :=
  (List.range r.w).map (fun i => homeByte (atomUse s r p d) d (p.addr + i))

/-- What the atomic leaves of them. -/
def atomLeaves (s : State) (op : Nat) (r : Req) (p : Part) (d : Desc) : List Byte :=
  leBytes r.w (atomNew op (leNat ((atomBytes s r p d).map Prod.fst)) p.data)

variable {d : Desc} (hfound : canonDesc { s with free := s.free + 1 } r.ctx p.addr = .found d)
  (hclean : (atomBytes s r p d).any Prod.snd = false)
include hfound hclean

omit hk hg hp hd hc h2 ho hm hclear hw in
theorem performOwned_clean : performOwned { s with free := s.free + 1 } id r p op = setPart
    ((homeWrite (atomUse s r p d) d p.addr (atomLeaves s op r p d)).updCore r.core
      (fun k => storeL1 k r.ctx p.addr (atomLeaves s op r p d))) id (p.performed (leNat ((atomBytes s r p d).map Prod.fst), false)) := by
  have hstep : atomStep op r.w p (homeByte (atomUse s r p d) d) =
      (p.performed (leNat ((atomBytes s r p d).map Prod.fst), false), some (atomLeaves s op r p d)) := by
    unfold atomStep
    exact if_neg (ne_true_of_eq_false hclean)
  unfold performOwned
  rw [hfound]
  dsimp only
  rw [show atomStep op r.w p (homeByte (List.foldl _ _ _) d) = _ from hstep]
  rfl

variable (hr : s.req id = some r)
include hr

theorem completeAtomic_one : completeAtomic s id r = finishReq (setPart
    ((homeWrite (atomUse s r p d) d p.addr (atomLeaves s op r p d)).updCore r.core
      (fun k => storeL1 k r.ctx p.addr (atomLeaves s op r p d))) id (p.performed (leNat ((atomBytes s r p d).map Prod.fst), false)))
    id { r with parts := [p.performed (leNat ((atomBytes s r p d).map Prod.fst), false)] } := by
  have hready (u : State) : ∀ x ∈ r.parts, (wantsLine r x && !lineReady u x.cls (lineKey r.ctx x.addr) true) = false := by
    intro x hx
    rw [hp, List.mem_singleton] at hx
    subst hx
    unfold lineReady
    rw [bne_iff_ne.2 h2, Bool.true_or, Bool.not_true, Bool.and_false]
  have hreq : ((homeWrite (atomUse s r p d) d p.addr (atomLeaves s op r p d)).updCore r.core
      (fun k => storeL1 k r.ctx p.addr (atomLeaves s op r p d))).req id = some r := by
    unfold State.req
    rw [State.updCore_mem, reqs_homeWrite]
    exact (congrArg (mfind · id) (reqs_touched d p.addr _ _)).trans hr
  have hset := setPart_one (q := p.performed (leNat ((atomBytes s r p d).map Prod.fst), false)) hreq hp rfl
  unfold completeAtomic
  rw [performAtoms_one hk hg hp hd hc h2 ho hm hclear hw, performOwned_clean hfound hclean, hset, waitLines_unwanted (hready _)]
  dsimp only
  rw [show State.req (State.setReq _ id _) id = _ from (mfind_mput ..).trans (if_pos rfl)]
  exact if_pos rfl

end

/-! ### Bounded adds -/

theorem storeComplete_bred (hr : s.req id = some r) (hk : r.kind = .bred) : exec (.storeComplete id) s = .next (completeBred s id r) := by
  refine (exec_storeComplete s).trans ?_
  unfold execStoreComplete
  rw [hr]
  dsimp only
  rw [hk]

/-- What ends a `bred` changes warps alone, beside its request. -/
theorem finishReq_bred (u : State) (hk : r.kind = .bred) : ∃ w, finishReq u id r = ({ u with warps := w } : State).delReq id := by
  unfold finishReq deferReq lowerCounter
  rw [hk]
  dsimp only
  rw [if_neg (show ¬ ReqKind.bred.isScale = true from Bool.false_ne_true)]
  cases r.live <;> cases r.fell <;> cases r.deferred <;> exact ⟨_, rfl⟩

section
variable (hk : r.kind = .bred) (hp : r.parts = [p]) (hd : p.done = false) (h1 : p.cls = 1)
  (hm : reqMayRun s id r = true) (hclear : partClear s id r p = true)
include hk hp hd h1 hm hclear

/-- The part of a `bred` after its element, which has been added, sent or neither. -/
def Part.addedIf (p : Part) (b : Bool) : Part := if b then { p with done := true } else p

omit hk in
theorem bredLanes_one : bredLanes s id r = ((bredLane s r.core (lineKey r.ctx p.addr) (p.addr % 128 / 4) p.data).1,
    [p.addedIf (bredLane s r.core (lineKey r.ctx p.addr) (p.addr % 128 / 4) p.data).2]) := by
  have hopen : (p.done || p.cls != 1 || ([] : List Nat).contains (lineKey r.ctx p.addr) || !reqMayRun s id r || !partClear s id r p) = false := by
    rw [hd, h1, hm, hclear]
    rfl
  unfold bredLanes
  rw [hp]
  dsimp only [List.foldl_cons, List.foldl_nil]
  rw [hopen, if_neg Bool.false_ne_true]
  unfold Part.addedIf
  split <;> rfl

/-- A `bred` of one lane: its element is added or sent, or it waits for a share. -/
theorem completeBred_one {u : State} {b : Bool} (hl : bredLane s r.core (lineKey r.ctx p.addr) (p.addr % 128 / 4) p.data = (u, b)) :
    completeBred s id r =
      if b && !sentMail u r.core (lineKey r.ctx p.addr) then
        finishReq (u.setReq id { r with parts := [p.addedIf b] }) id { r with parts := [p.addedIf b] }
      else u.setReq id { r with parts := [p.addedIf b] } := by
  have hcls : (p.addedIf b).cls = 1 := by unfold Part.addedIf; split <;> exact h1
  have hwants : ∀ x ∈ ({ r with parts := [p.addedIf b] } : Req).parts, wantsLine { r with parts := [p.addedIf b] } x = false := by
    intro x hx
    rw [List.mem_singleton.1 hx]
    unfold wantsLine
    rw [hcls, hk]
    exact Bool.and_false _
  have hdone : ({ r with parts := [p.addedIf b] } : Req).allDone = b := by
    unfold Req.allDone Part.addedIf
    cases b
    · exact (Bool.and_true _).trans hd
    · rfl
  have haddr : (p.addedIf b).addr = p.addr := by unfold Part.addedIf; split <;> rfl
  unfold completeBred
  rw [bredLanes_one hp hd h1 hm hclear, hl]
  dsimp only
  rw [performAtoms_unwanted hwants, waitLines_unwanted (fun x hx => by rw [hwants x hx, Bool.false_and])]
  rw [show State.req (State.setReq _ id _) id = _ from (mfind_mput ..).trans (if_pos rfl)]
  dsimp only
  rw [hdone, List.any_cons, hcls, haddr, List.any_nil, Bool.or_false, beq_self_eq_true, Bool.true_and]
  rfl

end



/-! ### What an element adds to a share -/

section
variable {core line e δ : Nat}

theorem bredLane_adds {h : Held} (hh : mfind (s.core core).held line = some h) (hn : (decodeF f32 δ).isNan = false)
    (hi : (decodeF f32 δ).isInf = false) (hp : fless f32 h.b (fadd f32 .ru h.t (absCode δ)) = false) :
    bredLane s core line e δ = (s.updCore core (fun k => { k with held := mput k.held line { h with
      d := mset 0 h.d e (BitVec.ofNat 32 (fadd f32 .rne (mget h.d 0 e).toNat δ)), t := fadd f32 .ru h.t (absCode δ) } }), true) := by
  have hget : mget (s.core core).held ⟨0, 0, []⟩ line = h := by unfold mget; rw [hh]; rfl
  unfold bredLane
  dsimp only
  rw [hh]
  dsimp only
  rw [hn, hi, hp, if_neg (by decide), Bool.false_and, if_neg Bool.false_ne_true, Bool.false_and, if_neg Bool.false_ne_true,
    if_neg Bool.false_ne_true, hget]

variable (hh : mfind (s.core core).held line = none)
include hh

theorem bredLane_sends (hn : (s.core core).noShare.contains line = true) :
    bredLane s core line e δ = (sendMail s core line (.add e δ), true) := by
  unfold bredLane
  dsimp only
  rw [hh]
  exact if_pos hn

variable (hn : (s.core core).noShare.contains line = false)
include hn

theorem bredLane_asks (ha : shareAsked s core line = false) : bredLane s core line e δ = (sendMail s core line .shareReq, false) := by
  unfold bredLane
  dsimp only
  rw [hh]
  exact (if_neg (ne_true_of_eq_false hn)).trans (if_neg (ne_true_of_eq_false ha))

theorem bredLane_waits (ha : shareAsked s core line = true) : bredLane s core line e δ = (s, false) := by
  unfold bredLane
  dsimp only
  rw [hh]
  exact (if_neg (ne_true_of_eq_false hn)).trans (if_pos ha)

end

theorem sentMail_sendAdd (s : State) (core line e δ : Nat) : sentMail (sendMail s core line (.add e δ)) core line = true := by
  unfold sentMail
  exact any_mput_self _ _ _ _ (by simp only [beq_self_eq_true, Bool.and_self])

/-! ### Bounded loads -/

theorem loadComplete_bnd {eps : Nat} (hr : s.req id = some r) (hk : r.kind = .bnd eps) :
    exec (.loadComplete id) s = .next (completeBnd s id r) := by
  refine (exec_loadComplete s).trans ?_
  unfold execLoadComplete
  rw [hr]
  dsimp only
  rw [hk]

theorem completeBnd_asks {eps : Nat} (hk : r.kind = .bnd eps) (hp : r.parts = [p]) (hd : p.done = false) (h1 : p.cls = 1)
    (hm : reqMayRun s id r = true) (hclear : partClear s id r p = true) (hmail : s.mem.mail = []) (hwaits : s.mem.waits = []) :
    completeBnd s id r = sendMail s r.core (lineKey r.ctx p.addr) (.bload id eps) := by
  have hwant : r.parts.filter (fun p => !p.done && p.cls == 1) = [p] := by
    rw [hp]
    exact List.filter_eq_self.2 (fun x hx => by rw [List.mem_singleton.1 hx, hd, h1]; rfl)
  have hline : [p].filter (fun x => lineKey r.ctx x.addr == lineKey r.ctx p.addr) = [p] :=
    List.filter_eq_self.2 (fun x hx => by rw [List.mem_singleton.1 hx]; exact beq_self_eq_true _)
  have hsends : sendBloads s id r = sendMail s r.core (lineKey r.ctx p.addr) (.bload id eps) := by
    unfold sendBloads
    rw [hk]
    dsimp only
    rw [hm, Bool.not_true, if_neg Bool.false_ne_true, hwant]
    refine (if_neg ?_).trans rfl
    rw [hmail, hwaits, List.any_nil, List.any_nil, hline, List.all_cons, hclear, List.all_nil]
    exact Bool.false_ne_true
  unfold completeBnd
  rw [hsends]
  exact if_pos (by rw [hp, List.any_cons, h1, hd]; rfl)

/-! ### An ECB miss -/

theorem ecbWalk_fills {core ctx va : Nat} {d : Desc} (hw : checkedWalk s (walk s ctx va) = .found d)
    (hm : (s.core core).ecb.any (fun e => e.covers ctx va) = false) : exec (.ecbWalk core ctx va) s =
      .next (s.updCore core (fun k => { k with ecb := (d.ent :: k.ecb).take Config.ecbEntries })) := by
  have hfill : fillEcb s core ctx va = s.updCore core (fun k => { k with ecb := (d.ent :: k.ecb).take Config.ecbEntries }) := by
    unfold fillEcb
    rw [hm, hw]
    rfl
  refine (exec_ecbWalk s).trans ?_
  unfold execEcbWalk
  split
  · rename_i hc
    rw [hc] at hw
    cases hw
  · exact congrArg Host.Outcome.next hfill

end

end Sys2Proof.Machine
/-! PROOF. The steps of an entry port (09_extents.md R180, R185, 11_traps.md R222). -/
namespace Sys2Proof.Machine

section
variable {s : State} {id sector : Nat} {r : Req} {p : Part} {d : Desc}

theorem portTranslate_moves (hr : s.req id = some r) (hg : r.space = .global) (hs : sectorDescs s r sector = [.found d]) :
    exec (.portTranslate (.req id sector)) s = .next (moveExtent s id sector r d) := by
  refine (exec_portTranslate s).trans ?_
  unfold execPortTranslate
  dsimp only
  rw [hr]
  refine congrArg Host.Outcome.next ((if_pos (by rw [hg]; rfl)).trans ?_)
  unfold moveSector
  rw [hs, List.foldl_cons, List.foldl_nil, hr]

/-! ### Translation -/

/-- Where a sector's bytes are, by the port's view of its extent. -/
def sectorPa (s : State) (r : Req) (sector : Nat) (d : Desc) : Nat :=
  place (portPlace s (entryPort (coreCluster r.core) (32 * sector)) d) (sectorStart d sector - d.ent.base)

/-- A sector of a request moves on. -/
def State.puts (t : State) (id sector : Nat) (r : Req) (d : Desc) (x : Sect) : State :=
  t.setReq id { r with sects := mput r.sects (sectNo sector d) x }

section
variable (hn : mget r.sects .none (sectNo sector d) = .none)
include hn

theorem moveExtent_held (hh : sectorHeld s (entryPort (coreCluster r.core) (32 * sector)) d sector = true) :
    moveExtent s id sector r d = s.puts id sector r d .held := by
  unfold moveExtent
  dsimp only
  rw [hn]
  exact if_pos hh

variable (hh : sectorHeld s (entryPort (coreCluster r.core) (32 * sector)) d sector = false)
include hh

theorem moveExtent_nowhere (hp : paExists (sectorPa s r sector d) = false) : moveExtent s id sector r d = deviceError s := by
  unfold moveExtent
  dsimp only
  rw [hn]
  exact (if_neg (ne_true_of_eq_false hh)).trans (if_pos (congrArg (!·) hp))

variable (hp : paExists (sectorPa s r sector d) = true)
include hp

theorem moveExtent_down (hb : Config.hostBase ≤ sectorPa s r sector d) (hu : hostReach (markUsed s d) d.ent.cls = false) :
    moveExtent s id sector r d = (markUsed s d).puts id sector r d (.down s.plat.time) := by
  unfold moveExtent
  dsimp only
  rw [hn]
  refine (if_neg (ne_true_of_eq_false hh)).trans ((if_neg (ne_true_of_eq_false (congrArg (!·) hp))).trans (if_pos ⟨hb, congrArg (!·) hu⟩))

variable (hu : sectorPa s r sector d < Config.hostBase ∨ hostReach (markUsed s d) d.ent.cls = true)
include hu

theorem moveExtent_reached : moveExtent s id sector r d =
    if pathHeld (markUsed s d) r (sectorPa s r sector d) then
      { touchChan (markUsed s d) (sectorPa s r sector d) with mem := { (touchChan (markUsed s d) (sectorPa s r sector d)).mem with
        nextQ := (touchChan (markUsed s d) (sectorPa s r sector d)).mem.nextQ + 1 } }.puts id sector r d
          (.channelHeld (sectorPa s r sector d) ((touchChan (markUsed s d) (sectorPa s r sector d)).mem.nextQ + 1))
    else (touchChan (markUsed s d) (sectorPa s r sector d)).puts id sector r d (.translated (sectorPa s r sector d)) := by
  unfold moveExtent
  dsimp only
  rw [hn]
  refine (if_neg (ne_true_of_eq_false hh)).trans ((if_neg (ne_true_of_eq_false (congrArg (!·) hp))).trans (if_neg ?_))
  rintro ⟨hb, hr⟩
  rcases hu with hu | hu
  · exact absurd hb (Nat.not_le.2 hu)
  · exact absurd hu (by simpa using hr)

end

theorem moveExtent_channelHeld {pa n : Nat} (hn : mget r.sects .none (sectNo sector d) = .channelHeld pa n) : moveExtent s id sector r d =
    if pathHeld s r pa then touchChan s pa else if heldBefore s r pa n then s else s.puts id sector r d (.translated pa) := by
  unfold moveExtent
  dsimp only
  rw [hn]
  rfl

theorem moveExtent_translated {pa : Nat} (hn : mget r.sects .none (sectNo sector d) = .translated pa) :
    moveExtent s id sector r d = performSector s id r sector d pa := by
  unfold moveExtent
  dsimp only
  rw [hn]

end

/-! ### A line's dirty bytes go back -/

theorem portTranslate_writeback {s : State} {line : Nat} {d : Desc} (hb : lineBusy s line = false)
    (hd : dirtyDescs (dropOwner s line) line = [.found d]) : exec (.portTranslate (.writeback line)) s = .next (evictLine
      ((List.range 4).foldl (fun t i => writebackSector t d (lineVa line + 32 * i)) (dropOwner s line)) line) := by
  refine (exec_portTranslate s).trans ?_
  unfold execPortTranslate writebackLine
  dsimp only
  rw [hb, if_neg Bool.false_ne_true, hd, List.foldl_cons, List.foldl_nil]

end Sys2Proof.Machine
/-! PROOF. What a translated sector and a sector written back leave in memory (09_extents.md R180, R185). -/
namespace Sys2Proof.Machine

/-! ### Single bytes written one after another -/

theorem mem_clearWhole (s : State) (pas : List Nat) : (clearWhole s pas).mem.bytes = s.mem.bytes ∧ (clearWhole s pas).mem.l2 = s.mem.l2 ∧
    (clearWhole s pas).mem.reqs = s.mem.reqs := by
  unfold clearWhole
  generalize touched pas = l
  induction l generalizing s with
  | nil => exact ⟨rfl, rfl, rfl⟩
  | cons x l ih =>
    rw [List.foldl_cons]
    split
    · exact ih _
    · exact ih s

/-- Bytes are written one by one, each at the place that a function of the state gives it. -/
def writeEach (f : State → Nat → Nat) (s : State) (l : List (Byte × Nat)) : State := l.foldl (fun s b => pwrite s (f s b.2) [b.1]) s

theorem reqs_writeEach (f : State → Nat → Nat) (l : List (Byte × Nat)) (s : State) : (writeEach f s l).mem.reqs = s.mem.reqs := by
  unfold writeEach
  induction l generalizing s with
  | nil => rfl
  | cons b l ih => exact (ih _).trans rfl

theorem read_writeEach {f : State → Nat → Nat} {base n : Nat} (hf : ∀ s, ∀ i < n, f s i = base + i) (l : List Byte) {k : Nat}
    (hk : k + l.length ≤ n) (s : State) (a : Nat) : Memory.read (writeEach f s (l.zipIdx k)).mem.bytes a =
      if base + k ≤ a ∧ a < base + k + l.length then l.getD (a - (base + k)) 0 else Memory.read s.mem.bytes a := by
  induction l generalizing k s with
  | nil =>
    refine (if_neg ?_).symm
    rw [List.length_nil]
    omega
  | cons b l ih =>
    rw [List.length_cons] at hk ⊢
    have hrest := ih (k := k + 1) (by omega) (pwrite s (base + k) [b])
    rw [pwrite_mem_bytes, show Memory.writes s.mem.bytes (base + k) [b] = Memory.write s.mem.bytes (base + k) b from rfl, Memory.read_write] at hrest
    unfold writeEach at hrest ⊢
    rw [List.zipIdx_cons, List.foldl_cons, hf s k (by omega)]
    refine hrest.trans ?_
    by_cases h0 : base + k = a
    · rw [if_neg (by omega), if_pos h0, if_pos (by omega), h0, Nat.sub_self]
      rfl
    · by_cases h1 : base + (k + 1) ≤ a ∧ a < base + (k + 1) + l.length
      · rw [if_pos h1, if_pos (by omega), show a - (base + k) = (a - (base + (k + 1))) + 1 by omega]
        rfl
      · rw [if_neg h1, if_neg h0, if_neg (by omega)]

/-! ### A sector of one lane -/

section
variable {s : State} {id sector pa : Nat} {r : Req} {p : Part} {d : Desc}

theorem partLines_sector (ha : p.addr / 32 = sector) (he : (p.addr + r.w - 1) / 32 = sector) : partLines r p = [lineKey r.ctx p.addr] := by
  have hline : lineKey r.ctx (p.addr + r.w - 1) = lineKey r.ctx p.addr := by
    unfold lineKey
    rw [show 128 = 32 * 4 from rfl, ← Nat.div_div_eq_div_mul, ← Nat.div_div_eq_div_mul, ha, he]
  unfold partLines
  rw [hline]
  exact List.eraseDups_cons.trans (by rw [List.filter_cons_of_neg (by simp), List.filter_nil]; rfl)

/-- The bytes of a lane's access stand in one sector, at one place. -/
structure InSector (r : Req) (p : Part) (d : Desc) (sector pa : Nat) : Prop where
  first : p.addr / 32 = sector
  last : (p.addr + r.w - 1) / 32 = sector
  aligned : d.ent.base % 32 = 0
  above : d.ent.base ≤ p.addr
  place : pa % 32 = 0

theorem InSector.start (h : InSector r p d sector pa) : sectorStart d sector = 32 * sector := by
  obtain ⟨hf, -, hb, ha, -⟩ := h
  unfold sectorStart
  omega

theorem InSector.portPa (h : InSector r p d sector pa) (u : State) (port : Nat) {i : Nat} (hi : i < r.w) :
    portPa u port d (sectorStart d sector) pa (p.addr + i) = pa + p.addr % 32 + i := by
  have hstart := h.start
  obtain ⟨hf, hl, hb, ha, -⟩ := h
  unfold Machine.portPa
  rw [hstart, if_pos ⟨by omega, hb⟩]
  omega

theorem InSector.touched (h : InSector r p d sector pa) (u : State) (port : Nat) :
    ∀ x ∈ Machine.touched (partPas u r port d (sectorStart d sector) pa p), x = pa / 32 := by
  intro x hx
  unfold Machine.touched partPas at hx
  rw [List.mem_eraseDups, List.map_map, List.mem_map] at hx
  obtain ⟨i, hi, rfl⟩ := hx
  rw [List.mem_range] at hi
  rw [Function.comp, h.portPa u port hi]
  obtain ⟨hf, hl, -, -, hp⟩ := h
  omega

/-- Such a sector has no error, so that the lane meets none. -/
theorem InSector.clean (h : InSector r p d sector pa) {u : State} (hm : mget u.mem.marks false (pa / 32) = false) (port : Nat) (pas : List Nat) :
    (Machine.touched (partPas u r port d (sectorStart d sector) pa p)).any (fun x => badSector u x && !wholeSector pas x) = false := by
  rw [List.any_eq_false]
  intro x hx
  rw [h.touched u port x hx]
  unfold badSector
  rw [hm]
  exact Bool.false_ne_true

theorem extentParts_one (hk : r.kind = .store ∨ ∃ sgn, r.kind = .load sgn) (hp : r.parts = [p]) (hd : p.done = false) (h5 : p.cls = 5)
    (ha : p.addr / 32 = sector) (hlo : d.ent.base ≤ p.addr) (hhi : p.addr < d.ent.base + d.ent.len) : extentParts r sector d = [p] := by
  unfold extentParts portParts
  rw [hp]
  refine (congrArg (List.filter _) (List.filter_eq_self.2 ?kind)).trans (List.filter_eq_self.2 ?extent)
  case kind =>
    intro x hx
    rw [List.mem_singleton.1 hx, hd, h5, beq_iff_eq.2 ha]
    rcases hk with hk | ⟨sgn, hk⟩
    · rw [hk]; rfl
    · rw [hk]; rfl
  case extent =>
    intro x hx
    rw [List.mem_singleton.1 hx, decide_eq_true hlo, decide_eq_true hhi]
    rfl

theorem extentParts_done (hp : r.parts = [p]) (hd : p.done = true) : extentParts r sector d = [] := by
  unfold extentParts portParts
  rw [hp, List.filter_cons_of_neg (by rw [hd]; exact Bool.false_ne_true), List.filter_nil, List.filter_nil]

theorem fillL1_uncached (u : State) (core a : Nat) (src : Nat → Byte × Bool) (h5 : d.ent.cls = 5) : fillL1 u core d a src = u := by
  unfold fillL1
  dsimp only
  rw [h5]
  rfl

theorem recallFrom_unowned {line : Nat} (ho : mget s.mem.owner 0 line = 0) (core : Nat) : recallFrom s core line = s := by
  unfold recallFrom
  rw [if_neg (by omega)]
  exact if_pos ho

/-- A sector is done once its parts are. -/
def closeSector (id sector : Nat) (d : Desc) (v : State) : State :=
  match v.req id with
  | some r => if (extentParts r sector d).isEmpty then v.setReq id { r with sects := mput r.sects (sectNo sector d) .done } else v
  | none => v

theorem closeSector_one {u : State} (hp : r.parts = [p]) {q : Part} (hq : q.lane = p.lane) (hd : q.done = true) (hr : u.req id = some r) :
    (closeSector id sector d (setPart u id q)).mem.bytes = u.mem.bytes ∧ (closeSector id sector d (setPart u id q)).req id =
      some { r with parts := [q], sects := mput r.sects (sectNo sector d) .done } := by
  unfold closeSector
  rw [setPart_one hr hp hq, show State.req (State.setReq _ id _) id = _ from (mfind_mput ..).trans (if_pos rfl)]
  dsimp only
  rw [extentParts_done (p := q) rfl hd, if_pos (by rfl)]
  exact ⟨rfl, (mfind_mput ..).trans (if_pos rfl)⟩

section
variable (hin : InSector r p d sector pa) (h5 : d.ent.cls = 5)
  (ho : mget s.mem.owner 0 (lineKey r.ctx p.addr) = 0)
include hin h5 ho

theorem performSector_one (hx : extentParts r sector d = [p]) (hm : reqMayRun s id r = true) (hc : partClear s id r p = true) :
    performSector s id r sector d pa = performParts s id r sector d pa [p] := by
  have hlines : ([p].map (partLines r)).flatten.eraseDups = [lineKey r.ctx p.addr] := by
    rw [List.map_cons, List.map_nil, List.flatten_cons, List.flatten_nil, List.append_nil, partLines_sector hin.first hin.last]
    rfl
  have hturn : portTurn s d [p] = ([p], s) := by
    unfold portTurn
    rw [h5]
    rfl
  have hrecall : recallWait s r.core (lineKey r.ctx p.addr) = false := by
    unfold recallWait
    rw [lineBusy_unowned ho, Bool.and_false]
  unfold performSector
  rw [hx, hturn]
  dsimp only
  rw [hlines, hm, List.all_cons, hc, List.any_cons, hrecall, List.any_cons, hin.last, bne_self_eq_false]
  refine (if_neg (ne_true_of_eq_false rfl)).trans ?_
  rw [List.find?_eq_none.2]
  intro x hx
  rw [List.mem_singleton.1 hx, partLines_sector hin.first hin.last, h5]
  exact Bool.false_ne_true

variable (hm : mget s.mem.marks false (pa / 32) = false)
include hm

/-- The port of a sector of a request. -/
def portOf (r : Req) (sector : Nat) : Nat := entryPort (coreCluster r.core) (32 * sector)

omit h5 in
theorem performParts_store (hk : r.kind = .store) : performParts s id r sector d pa [p] = closeSector id sector d (setPart
    (writeEach (fun u i => portPa u (portOf r sector) d (sectorStart d sector) pa (p.addr + i))
      (clearWhole s (partPas s r (portOf r sector) d (sectorStart d sector) pa p)) ((leBytes r.w p.data).zipIdx)) id (p.performed (0, false))) := by
  have hlines : ([p].map (partLines r)).flatten.eraseDups = [lineKey r.ctx p.addr] := by
    rw [List.map_cons, List.map_nil, List.flatten_cons, List.flatten_nil, List.append_nil, partLines_sector hin.first hin.last]
    rfl
  have hpas : ([p].map (partPas s r (portOf r sector) d (sectorStart d sector) pa)).flatten =
      partPas s r (portOf r sector) d (sectorStart d sector) pa p := List.append_nil _
  have hpart (u : State) (pas : List Nat) : portPart u r (portOf r sector) d (sectorStart d sector) pa
      ((touched (partPas s r (portOf r sector) d (sectorStart d sector) pa p)).any (fun x => badSector s x && !wholeSector pas x)) p =
        (p.performed (0, false), some (leBytes r.w p.data)) := by
    rw [hin.clean hm]
    unfold portPart
    rw [hk]
    rfl
  unfold portOf at hpas hpart ⊢
  unfold performParts
  dsimp only
  rw [hlines, List.foldl_cons, List.foldl_nil, recallFrom_unowned ho, hpas]
  simp only [show r.kind.atomOp = none by rw [hk]; rfl, show r.kind.onSt = true by rw [hk]; rfl, Option.isSome_none, Bool.not_false, Bool.and_self,
    if_true, Bool.false_eq_true, if_false, Bool.or_false, List.foldl_cons, List.foldl_nil, hpart]
  rfl

omit h5 in
/-- A store's bytes stand at its place afterwards, and no other byte changes. -/
theorem performParts_stores (hk : r.kind = .store) (hp : r.parts = [p]) (hr : s.req id = some r) :
    (∀ a, Memory.read (performParts s id r sector d pa [p]).mem.bytes a = if pa + p.addr % 32 ≤ a ∧ a < pa + p.addr % 32 + r.w then
      (leBytes r.w p.data).getD (a - (pa + p.addr % 32)) 0 else Memory.read s.mem.bytes a) ∧
    (performParts s id r sector d pa [p]).req id =
      some { r with parts := [p.performed (0, false)], sects := mput r.sects (sectNo sector d) .done } := by
  obtain ⟨hbytes, -, hreqs⟩ := mem_clearWhole s (partPas s r (portOf r sector) d (sectorStart d sector) pa p)
  have hreq : (writeEach (fun u i => portPa u (portOf r sector) d (sectorStart d sector) pa (p.addr + i))
      (clearWhole s (partPas s r (portOf r sector) d (sectorStart d sector) pa p)) ((leBytes r.w p.data).zipIdx)).req id = some r := by
    unfold State.req
    rw [reqs_writeEach, hreqs]
    exact hr
  rw [performParts_store hin ho hm hk]
  obtain ⟨hsame, hdone⟩ := closeSector_one (sector := sector) (d := d) hp (q := p.performed (0, false)) rfl rfl hreq
  refine ⟨fun a => ?_, hdone⟩
  rw [hsame, read_writeEach (base := pa + p.addr % 32) (n := r.w) (fun u i hi => hin.portPa u _ hi) _ (by rw [length_leBytes, Nat.zero_add]),
    hbytes, length_leBytes]
  rfl

/-- A load of one byte gives the byte at its place, and changes none. -/
theorem performParts_loads {sgn : Bool} (hk : r.kind = .load sgn) (hp : r.parts = [p]) (hr : s.req id = some r) (hw : r.w = 1)
    (hq : queuedByte s r.core d.ent.ctx p.addr = none) :
    (performParts s id r sector d pa [p]).mem.bytes = s.mem.bytes ∧ (performParts s id r sector d pa [p]).req id =
      some { r with parts := [p.performed ((Memory.read s.mem.bytes (pa + p.addr % 32)).toNat, false)]
                    sects := mput r.sects (sectNo sector d) .done } := by
  have hlines : ([p].map (partLines r)).flatten.eraseDups = [lineKey r.ctx p.addr] := by
    rw [List.map_cons, List.map_nil, List.flatten_cons, List.flatten_nil, List.append_nil, partLines_sector hin.first hin.last]
    rfl
  have hbyte : portByte s (portOf r sector) d (sectorStart d sector) pa p.addr = (Memory.read s.mem.bytes (pa + p.addr % 32), false) := by
    have hplace : portPa s (portOf r sector) d (sectorStart d sector) pa p.addr = pa + p.addr % 32 := hin.portPa s _ (i := 0) (by omega)
    have hsector : (pa + p.addr % 32) / 32 = pa / 32 := by have := hin.place; omega
    unfold portByte
    rw [h5, show cachedClass 5 = false from rfl, if_neg Bool.false_ne_true, hplace]
    dsimp only
    rw [hsector]
    unfold badSector
    rw [hm, if_neg Bool.false_ne_true]
  have hvalue : loadValue s r.core d p.addr r.w (portByte s (portOf r sector) d (sectorStart d sector) pa) =
      ((Memory.read s.mem.bytes (pa + p.addr % 32)).toNat, false) := by
    unfold loadValue
    rw [h5, hw, if_neg (by decide)]
    rw [List.range_one, List.map_cons, List.map_nil, Nat.add_zero, hbyte]
    unfold viewByte
    rw [hq]
    exact congrArg (·, false) (by simp [leNat])
  have hpart (bad : Bool) : portPart s r (portOf r sector) d (sectorStart d sector) pa bad p =
      (p.performed ((Memory.read s.mem.bytes (pa + p.addr % 32)).toNat, false), none) := by
    unfold portPart
    rw [show r.kind.atomOp = none by rw [hk]; rfl]
    dsimp only
    rw [hvalue, show r.kind.onSt = false by rw [hk]; rfl, if_neg Bool.false_ne_true]
  have hdone := closeSector_one (sector := sector) (d := d) hp
    (q := p.performed ((Memory.read s.mem.bytes (pa + p.addr % 32)).toNat, false)) rfl rfl hr
  have hparts : performParts s id r sector d pa [p] = closeSector id sector d (setPart s id
      (p.performed ((Memory.read s.mem.bytes (pa + p.addr % 32)).toNat, false))) := by
    have hfill (u : State) (src : State → Nat → Byte × Bool) (l : List Nat) :
        l.foldl (fun u x => fillL1 u r.core d (max (32 * x) d.ent.base) (src u)) u = u := by
      induction l generalizing u with
      | nil => rfl
      | cons x l ih => rw [List.foldl_cons, fillL1_uncached u _ _ _ h5]; exact ih u
    unfold portOf at hpart
    unfold performParts
    dsimp only
    rw [hlines, List.foldl_cons, List.foldl_nil, recallFrom_unowned ho]
    simp only [show r.kind.atomOp = none by rw [hk]; rfl, show r.kind.onSt = false by rw [hk]; rfl, Option.isSome_none, Bool.not_false, Bool.false_and, Bool.false_eq_true, if_false, Bool.or_false, List.foldl_cons, List.foldl_nil, hpart, hfill]
    rfl
  rw [hparts]
  exact hdone

end

end

/-! ### A sector written back -/

theorem mfind_filter {α : Type} (m : SMap α) (f : Nat → Bool) (k : Nat) :
    mfind (m.filter (fun q => f q.1)) k = if f k then mfind m k else none := by
  induction m with
  | nil => cases f k <;> rfl
  | cons q m ih =>
    obtain ⟨j, v⟩ := q
    by_cases hj : f j = true
    · rw [List.filter_cons_of_pos (by exact hj), mfind, mfind, ih]
      by_cases hk : j = k
      · subst hk
        rw [if_pos rfl, if_pos rfl, if_pos hj]
      · rw [if_neg hk, if_neg hk]
    · rw [List.filter_cons_of_neg (by exact hj), ih, mfind]
      by_cases hk : j = k
      · subst hk
        rw [if_neg hj, if_neg hj]
      · rw [if_neg hk]

theorem mrising_none {α : Type} {m : SMap α} {l : Nat} (h : mrising (some l) m = true) : mrising none m = true := by
  cases m with
  | nil => rfl
  | cons q m =>
    simp only [mrising, Bool.and_eq_true, true_and] at h ⊢
    exact h.2

theorem mrising_filter {α : Type} (f : Nat × α → Bool) {m : SMap α} {lo : Option Nat} (h : mrising lo m = true) :
    mrising lo (m.filter f) = true := by
  induction m generalizing lo with
  | nil => rfl
  | cons q m ih =>
    obtain ⟨k, v⟩ := q
    simp only [mrising, Bool.and_eq_true] at h
    obtain ⟨hlo, hm⟩ := h
    rw [List.filter_cons]
    split
    · simp only [mrising, Bool.and_eq_true]
      exact ⟨hlo, ih hm⟩
    · cases lo with
      | none => exact mrising_none (ih hm)
      | some l => exact mrising_mono (ih hm) (Nat.le_of_lt (of_decide_eq_true hlo))

/-- Bytes by key are written one by one. -/
def writeKeys (g : Nat → Nat) (s : State) (l : SMap Byte) : State := l.foldl (fun s q => pwrite s (g q.1) [q.2]) s

theorem l2_writeKeys (g : Nat → Nat) (l : SMap Byte) (s : State) : (writeKeys g s l).mem.l2 = s.mem.l2 := by
  unfold writeKeys
  induction l generalizing s with
  | nil => rfl
  | cons q l ih => exact (ih _).trans rfl

theorem read_writeKeys {g : Nat → Nat} {k pa : Nat} {l : SMap Byte} {lo : Option Nat} (hl : mrising lo l = true)
    (hg : ∀ q ∈ l, k ≤ q.1 ∧ g q.1 = pa + (q.1 - k)) (s : State) (a : Nat) : Memory.read (writeKeys g s l).mem.bytes a =
      if pa ≤ a then (mfind l (k + (a - pa))).getD (Memory.read s.mem.bytes a) else Memory.read s.mem.bytes a := by
  induction l generalizing s lo with
  | nil => exact (ite_self _).symm
  | cons q l ih =>
    obtain ⟨j, v⟩ := q
    obtain ⟨hk, hj⟩ := hg (j, v) List.mem_cons_self
    dsimp only at hk hj
    have htail := mrising_tail hl
    have hrest := ih htail (fun q hq => hg q (List.mem_cons_of_mem _ hq)) (pwrite s (g j) [v])
    rw [pwrite_mem_bytes, show Memory.writes s.mem.bytes (g j) [v] = Memory.write s.mem.bytes (g j) v from rfl, Memory.read_write, hj] at hrest
    unfold writeKeys at hrest ⊢
    rw [List.foldl_cons, hj]
    refine hrest.trans ?_
    by_cases ha : pa ≤ a
    · rw [if_pos ha, if_pos ha, mfind]
      by_cases hkey : j = k + (a - pa)
      · rw [if_pos hkey, if_pos (by omega), mfind_of_mrising htail (by omega)]
        rfl
      · rw [if_neg hkey, if_neg (by omega)]
    · rw [if_neg ha, if_neg ha, if_neg (by omega)]

section
variable {s : State} {d : Desc} {sec pa : Nat}

/-- Whether a key is one of a sector's. -/
def inSector (k q : Nat) : Bool := decide (k ≤ q) && decide (q < k + 32)

theorem inSector_extent (hlo : d.ent.base ≤ sec) (hhi : sec + 32 ≤ d.ent.base + d.ent.len) (key : Nat) :
    (decide (byteKey d.ent.ctx sec ≤ key) && decide (key < byteKey d.ent.ctx sec + 32) &&
      decide (byteKey d.ent.ctx d.ent.base ≤ key) && decide (key < byteKey d.ent.ctx d.ent.base + d.ent.len)) =
    inSector (byteKey d.ent.ctx sec) key := by
  unfold inSector
  rw [Bool.eq_iff_iff]
  simp only [Bool.and_eq_true, decide_eq_true_eq]
  unfold byteKey
  omega

variable (hb : d.ent.base % 32 = 0) (hlo : d.ent.base ≤ sec) (hhi : sec + 32 ≤ d.ent.base + d.ent.len) (hsec : sec % 32 = 0)

/-- The entry port of a sector at home. -/
def homePort (d : Desc) (sec : Nat) : Nat := entryPort (homeCluster d.ent (lineKey d.ent.ctx sec)) sec

/-- Where a dirty byte of a sector goes back to, by its key. -/
def backTo (s : State) (d : Desc) (sec pa key : Nat) : Nat := portPa s (homePort d sec) d sec pa (sec + (key - byteKey d.ent.ctx sec))

include hb hsec in
theorem backTo_inSector {key : Nat} (hk : inSector (byteKey d.ent.ctx sec) key = true) :
    backTo s d sec pa key = pa + (key - byteKey d.ent.ctx sec) := by
  unfold inSector at hk
  simp only [Bool.and_eq_true, decide_eq_true_eq] at hk
  unfold backTo portPa
  rw [if_pos ⟨by omega, hb⟩]
  omega

include hb hsec in
theorem touched_backTo (hpa : pa % 32 = 0) {l : SMap Byte} (hl : ∀ q ∈ l, inSector (byteKey d.ent.ctx sec) q.1 = true) :
    ∀ x ∈ touched (l.map (fun q => backTo s d sec pa q.1)), x = pa / 32 := by
  intro x hx
  unfold touched at hx
  rw [List.mem_eraseDups, List.map_map, List.mem_map] at hx
  obtain ⟨q, hq, rfl⟩ := hx
  have hin := hl q hq
  rw [Function.comp, backTo_inSector hb hsec hin]
  unfold inSector at hin
  simp only [Bool.and_eq_true, decide_eq_true_eq] at hin
  omega

/-- A channel is used and the extent's last access moves. -/
def State.usedAt (s : State) (pa : Nat) (d : Desc) : State := markUsed (touchChan s pa) d

theorem mem_usedAt (s : State) (pa : Nat) (d : Desc) : (s.usedAt pa d).mem.l2 = s.mem.l2 ∧ (s.usedAt pa d).mem.bytes = s.mem.bytes ∧
    (s.usedAt pa d).mem.marks = s.mem.marks := by
  obtain ⟨c, h⟩ := touchChan_cases s pa
  unfold State.usedAt markUsed
  rw [h]
  exact ⟨rfl, rfl, rfl⟩

/-- The dirty bytes of a sector leave L2. -/
def State.cleaned (s : State) (k : Nat) : State := { s with mem := { s.mem with l2 := s.mem.l2.filter (fun q => !inSector k q.1) } }

/-- The dirty bytes of a sector. -/
def dirtyOf (s : State) (k : Nat) : SMap Byte := s.mem.l2.filter (fun q => inSector k q.1)

include hlo hhi hb hsec in
theorem writebackSector_writes (hd : dirtyOf s (byteKey d.ent.ctx sec) ≠ []) (hh : sectorHeld s (homePort d sec) d (sec / 32) = false)
    (hpa : place (portPlace s (homePort d sec) d) (sec - d.ent.base) = pa) (he : paExists pa = true) (ha : pa % 32 = 0)
    (hu : pa < Config.hostBase) (hc : chanHeld s pa = false) (hs : hotStack s pa = false) (hm : mget s.mem.marks false (pa / 32) = false) :
    writebackSector s d sec = writeKeys (backTo s d sec pa)
      (clearWhole ((s.usedAt pa d).cleaned (byteKey d.ent.ctx sec))
        ((dirtyOf s (byteKey d.ent.ctx sec)).map (fun q => backTo s d sec pa q.1))) (dirtyOf s (byteKey d.ent.ctx sec)) := by
  have hmax : max sec d.ent.base = sec := Nat.max_eq_left hlo
  obtain ⟨-, -, hmarks⟩ := mem_usedAt s pa d
  have hbad (f : Nat → Bool) : (touched ((dirtyOf s (byteKey d.ent.ctx sec)).map (fun q => backTo s d sec pa q.1))).find?
      (fun x => badSector (s.usedAt pa d) x && f x) = none := by
    refine List.find?_eq_none.2 (fun x hx => ?_)
    rw [touched_backTo hb hsec ha (fun q hq => (List.mem_filter.1 hq).2) x hx]
    unfold badSector
    rw [hmarks, hm]
    exact Bool.false_ne_true
  have hempty : (s.mem.l2.filter (fun q => inSector (byteKey d.ent.ctx sec) q.1)).isEmpty = false :=
    Bool.eq_false_iff.2 (fun h => hd (List.isEmpty_iff.1 h))
  unfold homePort at hh hpa
  unfold writebackSector
  simp only [inSector_extent hlo hhi, hmax, hempty, Bool.false_eq_true, if_false, hh, hpa, he, Bool.not_true, hc, hs,
    decide_eq_false (Nat.not_le.2 hu), Bool.false_and, Bool.or_self]
  split
  · rename_i x hx
    cases hx.symm.trans (hbad _)
  · rfl

include hlo hhi hb hsec in
/-- A sector written back: its dirty bytes stand at its place, L2 has none of them, and no other byte changes. -/
theorem writebackSector_leaves (hd : dirtyOf s (byteKey d.ent.ctx sec) ≠ []) (hr : mrising none s.mem.l2 = true)
    (hh : sectorHeld s (homePort d sec) d (sec / 32) = false)
    (hpa : place (portPlace s (homePort d sec) d) (sec - d.ent.base) = pa) (he : paExists pa = true) (ha : pa % 32 = 0)
    (hu : pa < Config.hostBase) (hc : chanHeld s pa = false) (hs : hotStack s pa = false) (hm : mget s.mem.marks false (pa / 32) = false) :
    (writebackSector s d sec).mem.l2 = s.mem.l2.filter (fun q => !inSector (byteKey d.ent.ctx sec) q.1) ∧
    ∀ a, Memory.read (writebackSector s d sec).mem.bytes a = if pa ≤ a ∧ a < pa + 32 then
      (mfind s.mem.l2 (byteKey d.ent.ctx sec + (a - pa))).getD (Memory.read s.mem.bytes a) else Memory.read s.mem.bytes a := by
  obtain ⟨hl2, hbytes, -⟩ := mem_usedAt s pa d
  obtain ⟨hcb, hcl, -⟩ := mem_clearWhole ((s.usedAt pa d).cleaned (byteKey d.ent.ctx sec))
    ((dirtyOf s (byteKey d.ent.ctx sec)).map (fun q => backTo s d sec pa q.1))
  rw [writebackSector_writes hb hlo hhi hsec hd hh hpa he ha hu hc hs hm]
  refine ⟨?_, fun a => ?_⟩
  · rw [l2_writeKeys, hcl, ← hl2]
    rfl
  · have hplaces : ∀ q ∈ dirtyOf s (byteKey d.ent.ctx sec), byteKey d.ent.ctx sec ≤ q.1 ∧
        backTo s d sec pa q.1 = pa + (q.1 - byteKey d.ent.ctx sec) := by
      intro q hq
      have hin := (List.mem_filter.1 hq).2
      refine ⟨?_, backTo_inSector hb hsec hin⟩
      unfold inSector at hin
      simp only [Bool.and_eq_true, decide_eq_true_eq] at hin
      exact hin.1
    have hrise : mrising none (dirtyOf s (byteKey d.ent.ctx sec)) = true := mrising_filter _ hr
    rw [read_writeKeys hrise hplaces, hcb, show ((s.usedAt pa d).cleaned _).mem.bytes = s.mem.bytes from hbytes]
    have hin : pa ≤ a → inSector (byteKey d.ent.ctx sec) (byteKey d.ent.ctx sec + (a - pa)) = decide (a < pa + 32) := by
      intro hlow
      unfold inSector
      rw [decide_eq_true (Nat.le_add_right _ _), Bool.true_and]
      exact decide_eq_decide.2 (by omega)
    unfold dirtyOf
    rw [mfind_filter]
    by_cases hlow : pa ≤ a
    · rw [if_pos hlow, hin hlow]
      by_cases hhigh : a < pa + 32
      · simp only [hlow, hhigh, decide_true, and_self, if_true]
      · simp only [hlow, hhigh, decide_false, and_false, Bool.false_eq_true, if_false, Option.getD_none]
    · rw [if_neg hlow, if_neg (fun h => hlow h.1)]

end

end Sys2Proof.Machine
/-! PROOF. The steps that perform and complete memory accesses: the statement, from the lemmas on each step. -/
namespace Sys2Proof.Machine

section
variable {s : State} {id : Nat} {r : Req} {p : Part}

/-- A load whose parts are all there ends at once (R149). -/
theorem loadComplete_done {sgn : Bool} (hr : s.req id = some r) (hk : r.kind = .load sgn) (hd : r.allDone = true)
    (hm : reqMayRun s id r = true) (hf : r.fell = false) (hl : r.live = true) :
    exec (.loadComplete id) s = .next ((lowerCounter (s.updWarp r.core r.wslot (fun w => w.take r)) r).delReq id) := by
  have hall : ∀ p ∈ r.parts, p.done = true := List.all_eq_true.1 hd
  have hparts : r.parts.map (loadPart s id r) = r.parts.map some := List.map_congr_left (fun p hp => loadPart_done (hall p hp))
  rw [loadComplete_load hr (.inl ⟨sgn, hk⟩), completeLoad_ready hm hparts, refills_done r.parts hall s, r.with_parts,
    finishReq_load hk hf hl]

/-- A store of one lane to a local level leaves what `localWrite` does (R157). -/
theorem storeComplete_localWrite (hr : s.req id = some r) (hk : r.kind = .store) (hg : r.space ≠ .global) (hp : r.parts = [p])
    (hl : p.landed = 0) (hc : partClear s id r p = true) {t : State} (ht : localWrite s r.space p.addr (leBytes r.w p.data) = t)
    (hs : spoiledObjs s r.space p.addr (leBytes r.w p.data).length = []) (hb : tstBefore s id r.space = false)
    (hw : t.work.mops = s.work.mops) :
    exec (.storeComplete id) s = .next (finishReq t id { r with parts := [p.performed (0, false)] }) := by
  rw [storeComplete_local hr hk hg, completeLocal_one hp hl hc, localStore_plain hs hb (by rw [ht]; exact hw), ht]

theorem localWrite_spad {b a : Nat} {x : Block} (bs : List Byte) (h : mfind s.work.blocks b = some x) :
    localWrite s (.spad b) a bs = s.setBlk b { x with spad := msetRange 0 x.spad a bs } := by
  unfold localWrite
  dsimp only
  rw [h]

theorem localWrite_slice {b n a : Nat} {x : Block} (bs : List Byte) (h : mfind s.work.blocks b = some x) :
    localWrite s (.slice b n) a bs = s.setBlk b { x with slices := msetRange 0 x.slices a bs } := by
  unfold localWrite
  dsimp only
  rw [h]

/-- A core with a share of a line. -/
def Core.holding (line : Nat) (h : Held) (k : Core) : Core := { k with held := mput k.held line h }

theorem held_updCore_holding (s : State) (core line : Nat) (h : Held) :
    mfind ((s.updCore core (Core.holding line h)).core core).held line = some h := by
  rw [State.core_updCore, if_pos rfl]
  exact (mfind_mput ..).trans (if_pos rfl)

section
variable (hr : s.req id = some r) (hk : r.kind = .bred) (hp : r.parts = [p]) (hd : p.done = false) (h1 : p.cls = 1)
  (hm : reqMayRun s id r = true) (hclear : partClear s id r p = true)
include hr hk hp hd h1 hm hclear

/-- An add within its holder's share goes into the delta there (R246). -/
theorem storeComplete_bred_held {h : Held} (hh : mfind (s.core r.core).held (lineKey r.ctx p.addr) = some h)
    (hn : (decodeF f32 p.data).isNan = false) (hi : (decodeF f32 p.data).isInf = false)
    (hb : fless f32 h.b (fadd f32 .ru h.t (absCode p.data)) = false) (hs : sentMail s r.core (lineKey r.ctx p.addr) = false) :
    ∃ t, exec (.storeComplete id) s = .next t ∧ t.req id = none ∧ t.mem.mail = s.mem.mail ∧ t.mem.bytes = s.mem.bytes ∧
      t.mem.l2 = s.mem.l2 ∧ mfind (t.core r.core).held (lineKey r.ctx p.addr) = some { h with
        d := mset 0 h.d (p.addr % 128 / 4) (BitVec.ofNat 32 (fadd f32 .rne (mget h.d 0 (p.addr % 128 / 4)).toNat p.data))
        t := fadd f32 .ru h.t (absCode p.data) } := by
  have hlane := bredLane_adds (e := p.addr % 128 / 4) hh hn hi hb
  obtain ⟨w, hw⟩ := finishReq_bred (id := id) (r := { r with parts := [p.addedIf true] })
    ((s.updCore r.core (fun k => { k with held := mput k.held (lineKey r.ctx p.addr) { h with
      d := mset 0 h.d (p.addr % 128 / 4) (BitVec.ofNat 32 (fadd f32 .rne (mget h.d 0 (p.addr % 128 / 4)).toNat p.data))
      t := fadd f32 .ru h.t (absCode p.data) } })).setReq id { r with parts := [p.addedIf true] }) hk
  refine ⟨_, (storeComplete_bred hr hk).trans (congrArg Host.Outcome.next
    ((completeBred_one hk hp hd h1 hm hclear hlane).trans ((if_pos ?_).trans hw))), ?_, rfl, rfl, rfl, ?_⟩
  · exact congrArg (!·) hs
  · exact (mfind_mdel ..).trans (if_pos rfl)
  · exact held_updCore_holding ..

/-- An add without a share: sent to home where no share is given, else a share is asked for, once (R246). -/
theorem storeComplete_bred_unheld (hh : mfind (s.core r.core).held (lineKey r.ctx p.addr) = none) :
    ∃ t, exec (.storeComplete id) s = .next t ∧ t.cores = s.cores ∧ t.mem.bytes = s.mem.bytes ∧ t.mem.l2 = s.mem.l2 ∧
      ((s.core r.core).noShare.contains (lineKey r.ctx p.addr) = true →
        t.mem.mail = mput s.mem.mail s.work.next ⟨r.core, lineKey r.ctx p.addr, .add (p.addr % 128 / 4) p.data⟩ ∧
          t.req id = some { r with parts := [{ p with done := true }] }) ∧
      ((s.core r.core).noShare.contains (lineKey r.ctx p.addr) = false → shareAsked s r.core (lineKey r.ctx p.addr) = false →
        t.mem.mail = mput s.mem.mail s.work.next ⟨r.core, lineKey r.ctx p.addr, .shareReq⟩ ∧ t.req id = some r) := by
  have hstays : { r with parts := [p.addedIf false] } = r := by
    rw [show [p.addedIf false] = r.parts from hp.symm]
  cases hn : (s.core r.core).noShare.contains (lineKey r.ctx p.addr)
  case true =>
    refine ⟨_, (storeComplete_bred hr hk).trans (congrArg Host.Outcome.next
      ((completeBred_one hk hp hd h1 hm hclear (bredLane_sends hh hn)).trans (if_neg ?_))), rfl, rfl, rfl,
      fun _ => ⟨rfl, (mfind_mput ..).trans (if_pos rfl)⟩, fun h => absurd h (by decide)⟩
    rw [sentMail_sendAdd]
    exact Bool.false_ne_true
  case false =>
    cases ha : shareAsked s r.core (lineKey r.ctx p.addr)
    case true =>
      exact ⟨_, (storeComplete_bred hr hk).trans (congrArg Host.Outcome.next
        ((completeBred_one hk hp hd h1 hm hclear (bredLane_waits hh hn ha)).trans (if_neg Bool.false_ne_true))), rfl, rfl, rfl,
        fun h => absurd h (by decide), fun _ h => absurd h (by decide)⟩
    case false =>
      exact ⟨_, (storeComplete_bred hr hk).trans (congrArg Host.Outcome.next
        ((completeBred_one hk hp hd h1 hm hclear (bredLane_asks hh hn ha)).trans (if_neg Bool.false_ne_true))), rfl, rfl, rfl,
        fun h => absurd h (by decide), fun _ _ => ⟨rfl, ((mfind_mput ..).trans (if_pos rfl)).trans (congrArg some hstays)⟩⟩

end

end

/-- Settles O38: each step by the lemma on it; the bytes of a translated sector and of one written back by what one write leaves
after another. -/
theorem memoryEvents : Obligations.MemoryEvents := by
  unfold Obligations.MemoryEvents
  intro s id sector line core ctx va r sgn p d
  refine ⟨?loadDone, ?load, ?loadParts, ?takes, ?storeDone, ?storeFalls, ?applies, ?localStore, ?atomic, ?bred, ?bounded, ?walks, ?moves,
    ?channel, ?performs, ?writeback, ?leaves⟩
  case loadDone => exact fun hr hk hd hm hf hl => loadComplete_done hr hk hd hm hf hl
  case load =>
    intro hr hk hm done hd
    rw [loadComplete_load hr (hk.imp_left (fun h => ⟨sgn, h⟩)), completeLoad_ready hm hd]
  case loadParts =>
    intro hc hd
    refine ⟨fun hg hs bs hl => loadPart_l1 hc hd hg hs hl, fun b h => ?_, fun b n h => ?_, fun c h => ?_⟩ <;>
      rw [loadPart_local hc hd (by rw [h]; exact nofun), h] <;> rfl
  case takes =>
    exact fun w hp hl he => ⟨take_load w hp hl he, take_sload w hp hl he, fun m sat fmt hk => take_scale w hp hl he hk⟩
  case storeDone =>
    intro hr hk hg hf hq hs hd he hl
    rw [storeComplete_global hr hk hg, completeStore_done hr hf hq hs hd, finishReq_store hk hf hl he]
  case storeFalls =>
    intro hr hk hg hf hq hs hp hd hc hclear
    exact (storeComplete_global hr hk hg).trans (congrArg Host.Outcome.next (completeStore_falls hp hc hf hq hs hd hclear))
  case applies =>
    intro hr hk hg hq hp hd hc ha ho hl hh u v hf
    have hdrained : v = (if p.cls == 1 then drainLine u (lineKey r.ctx p.addr) false else u) := by
      simp only [v, beq_iff_eq]
    have hstep : exec (.writeThroughApply id sector) s = .next (settleStore (applyPart v id r p (partBad v r [p] p)) id) := by
      rw [writeThroughApply_applies hq hr hk hg, applySector_one hq hp hd hc ha ho hl hh, hdrained]
    refine ⟨fun hb => ?_, fun hb => ?_⟩ <;> rw [hstep, applyPart_found hf, hb] <;> rfl
  case localStore =>
    intro hr hk hp hl hc ends bs
    refine ⟨fun b x hg hx ht => ?_, fun b n x hg hx => ?_, fun c hg hs => ?_⟩
    · exact storeComplete_localWrite hr hk (by rw [hg]; exact nofun) hp hl hc (by rw [hg]; exact localWrite_spad _ hx) (by rw [hg]; rfl)
        (by rw [hg]; exact ht) rfl
    · exact storeComplete_localWrite hr hk (by rw [hg]; exact nofun) hp hl hc (by rw [hg]; exact localWrite_slice _ hx) (by rw [hg]; rfl)
        (by rw [hg]; rfl) rfl
    · exact storeComplete_localWrite hr hk (by rw [hg]; exact nofun) hp hl hc (by rw [hg]; rfl) (by rw [hg]; exact hs) (by rw [hg]; rfl) rfl
  case atomic =>
    intro op hr hk hg hp hd hc h2 ho hm hclear hw u hf v l hl
    exact (loadComplete_atomic hr hk).trans (congrArg Host.Outcome.next
      (completeAtomic_one hk hg hp hd hc h2 ho hm hclear hw hf hl hr))
  case bred =>
    intro hr hk hg hp hd h1 hm hclear line e
    exact ⟨fun h hh hn hi hb hs => storeComplete_bred_held hr hk hp hd h1 hm hclear hh hn hi hb hs,
      fun hh => storeComplete_bred_unheld hr hk hp hd h1 hm hclear hh⟩
  case bounded =>
    intro eps hr hk hg hp hd h1 hm hclear hmail hwaits
    rw [loadComplete_bnd hr hk, completeBnd_asks hk hp hd h1 hm hclear hmail hwaits]
  case walks =>
    exact fun hw hm => ⟨_, ecbWalk_fills hw hm, congrArg Core.ecb ((State.core_updCore s core core _).trans (if_pos rfl)), rfl, rfl⟩
  case moves =>
    intro hr hg hs hn port pa u v puts
    have hstep := portTranslate_moves hr hg hs
    refine ⟨fun hh => hstep.trans (congrArg Host.Outcome.next (moveExtent_held hn hh)),
      fun hh hp => hstep.trans (congrArg Host.Outcome.next (moveExtent_nowhere hn hh hp)), fun hh hp => ⟨fun hb hu => ?_, fun hu => ?_⟩⟩
    · exact hstep.trans (congrArg Host.Outcome.next (moveExtent_down hn hh hp hb hu))
    · have hreach := moveExtent_reached (id := id) hn hh hp hu
      exact ⟨fun hheld => hstep.trans (congrArg Host.Outcome.next (hreach.trans (if_pos hheld))),
        fun hheld => hstep.trans (congrArg Host.Outcome.next (hreach.trans (if_neg (ne_true_of_eq_false hheld))))⟩
  case channel =>
    intro pa n hr hg hs hn goes
    have hstep : exec (.portTranslate (.req id sector)) s = _ :=
      (portTranslate_moves hr hg hs).trans (congrArg Host.Outcome.next (moveExtent_channelHeld hn))
    refine ⟨fun hheld => ?_, fun hheld hbefore => ?_, fun hheld hbefore => ?_⟩
    · exact hstep.trans (congrArg Host.Outcome.next (if_pos hheld))
    · exact hstep.trans (congrArg Host.Outcome.next ((if_neg (ne_true_of_eq_false hheld)).trans (if_pos hbefore)))
    · exact hstep.trans (congrArg Host.Outcome.next ((if_neg (ne_true_of_eq_false hheld)).trans (if_neg (ne_true_of_eq_false hbefore))))
  case performs =>
    intro pa hr hg hp hd h5 hfirst hlast hd5 haligned habove hbelow hplace hs hn hm hclear ho hmark
    have hin : InSector r p d sector pa := ⟨hfirst, hlast, haligned, habove, hplace⟩
    have hstep (hk : r.kind = .store ∨ ∃ sgn, r.kind = .load sgn) :
        exec (.portTranslate (.req id sector)) s = .next (performParts s id r sector d pa [p]) := by
      rw [portTranslate_moves hr hg hs, moveExtent_translated hn,
        performSector_one hin hd5 ho (extentParts_one hk hp hd h5 hfirst habove hbelow) hm hclear]
    refine ⟨fun hk _ _ => ?_, fun hk hq hw => ?_⟩
    · exact ⟨_, hstep (.inl hk), performParts_stores hin ho hmark hk hp hr⟩
    · exact ⟨_, hstep (.inr ⟨sgn, hk⟩), performParts_loads hin hd5 ho hmark hk hp hr hw hq⟩
  case writeback => exact portTranslate_writeback
  case leaves =>
    intro sec k mine port pa clear hb hlo hhi hd hr hh he ha hu hc hs hm
    have hsector : sec / 32 = sector := Nat.mul_div_cancel_left sector (by decide)
    obtain ⟨hl2, hbytes⟩ := writebackSector_leaves hb hlo hhi (Nat.mul_mod_right 32 sector) hd hr (by rw [hsector]; exact hh) rfl he ha hu hc hs hm
    exact ⟨_, rfl, hl2, hbytes⟩

end Sys2Proof.Machine

/-! PROOF. Every step keeps physical memory in canonical form (07_memory.md): what each operation of the model does to the bytes of
memory, in the order of the model. -/
namespace Sys2Proof.Machine

/-! ### Folds, choices and answers -/

/-- A fold of steps that leave the bytes alone leaves them alone. -/
@[simp] theorem bytes_foldl {α : Type} {f : State → α → State} (h : ∀ s x, (f s x).mem.bytes = s.mem.bytes) (l : List α) (s : State) :
    (l.foldl f s).mem.bytes = s.mem.bytes := by
  induction l generalizing s with
  | nil => rfl
  | cons x r ih => rw [List.foldl_cons, ih, h]

/-- A fold of steps that keep the canonical form keeps it. -/
@[simp] theorem canonical_foldl {α : Type} {f : State → α → State}
    (h : ∀ s x, Memory.wf s.mem.bytes = true → Memory.wf (f s x).mem.bytes = true) (l : List α) {s : State}
    (hs : Memory.wf s.mem.bytes = true) : Memory.wf (l.foldl f s).mem.bytes = true := by
  induction l generalizing s with
  | nil => exact hs
  | cons x r ih => exact ih (h s x hs)

@[simp] theorem bytes_ite {c : Prop} [Decidable c] (s t : State) :
    (if c then s else t).mem.bytes = if c then s.mem.bytes else t.mem.bytes := apply_ite (fun s : State => s.mem.bytes) ..

@[simp] theorem canonical_ite {c : Prop} [Decidable c] {m n : Memory} (hm : Memory.wf m = true) (hn : Memory.wf n = true) :
    Memory.wf (if c then m else n) = true := by split <;> assumption

/-- Whatever state an answer gives holds canonical memory. -/
def Keeps (r : Result) : Prop := ∀ t, r = .next t → Memory.wf t.mem.bytes = true

@[simp] theorem keeps_next {s : State} : Keeps (.next s) ↔ Memory.wf s.mem.bytes = true := by
  simp only [Keeps, Host.Outcome.next.injEq, forall_eq']

@[simp] theorem canonical_pwrite {s : State} (h : Memory.wf s.mem.bytes = true) (a : Nat) (bs : List Byte) :
    Memory.wf (pwrite s a bs).mem.bytes = true := pwrite_wf h a bs

theorem canonical_foldl_fst {α β : Type} {f : State × β → α → State × β}
    (h : ∀ p x, Memory.wf p.1.mem.bytes = true → Memory.wf (f p x).1.mem.bytes = true) (l : List α) {p : State × β}
    (hp : Memory.wf p.1.mem.bytes = true) : Memory.wf (l.foldl f p).1.mem.bytes = true := by
  induction l generalizing p with
  | nil => exact hp
  | cons x r ih => exact ih (h p x hp)

theorem bytes_foldl_fst {α β : Type} {f : State × β → α → State × β} (h : ∀ p x, (f p x).1.mem.bytes = p.1.mem.bytes) (l : List α)
    (p : State × β) : (l.foldl f p).1.mem.bytes = p.1.mem.bytes := by
  induction l generalizing p with
  | nil => rfl
  | cons x r ih => rw [List.foldl_cons, ih, h]

theorem bytes_ite_of {c : Prop} [Decidable c] {s t : State} {m : Memory} (hs : s.mem.bytes = m) (ht : t.mem.bytes = m) :
    (if c then s else t).mem.bytes = m := by split <;> assumption

theorem canonical_ite_state {c : Prop} [Decidable c] {s t : State} (hs : Memory.wf s.mem.bytes = true) (ht : Memory.wf t.mem.bytes = true) :
    Memory.wf (if c then s else t).mem.bytes = true := by split <;> assumption

theorem keeps_ite {c : Prop} [Decidable c] {a b : Result} (ha : Keeps a) (hb : Keeps b) : Keeps (if c then a else b) := by
  split <;> assumption


/-! ### Machine/Access.lean -/

@[simp] theorem bytes_takeFree (s : State) : (State.takeFree s).2.mem.bytes = s.mem.bytes := rfl
@[simp] theorem bytes_setCore (s : State) (c : ℕ) (k : Core) : (State.setCore s c k).mem.bytes = s.mem.bytes := rfl
@[simp] theorem bytes_updCore (s : State) (c : ℕ) (f : Core → Core) : (State.updCore s c f).mem.bytes = s.mem.bytes := rfl
@[simp] theorem bytes_setWarp (s : State) (c : ℕ) (w : ℕ) (x : Warp) : (State.setWarp s c w x).mem.bytes = s.mem.bytes := rfl
@[simp] theorem bytes_updWarp (s : State) (c : ℕ) (w : ℕ) (f : Warp → Warp) : (State.updWarp s c w f).mem.bytes = s.mem.bytes := rfl
@[simp] theorem bytes_setBlk (s : State) (b : ℕ) (x : Block) : (State.setBlk s b x).mem.bytes = s.mem.bytes := rfl
@[simp] theorem bytes_updBlk (s : State) (b : ℕ) (f : Block → Block) : (State.updBlk s b f).mem.bytes = s.mem.bytes := rfl
@[simp] theorem bytes_updHere (s : State) (f : Warp → Warp) : (State.updHere s f).mem.bytes = s.mem.bytes := rfl
@[simp] theorem bytes_setReq (s : State) (i : ℕ) (r : Req) : (State.setReq s i r).mem.bytes = s.mem.bytes := rfl
@[simp] theorem bytes_delReq (s : State) (i : ℕ) : (State.delReq s i).mem.bytes = s.mem.bytes := rfl
@[simp] theorem bytes_setOp (s : State) (i : ℕ) (o : Op) : (State.setOp s i o).mem.bytes = s.mem.bytes := rfl
@[simp] theorem bytes_State_setPart (s : State) (i : ℕ) (o : XPart) : (State.setPart s i o).mem.bytes = s.mem.bytes := rfl
@[simp] theorem bytes_setTask (s : State) (i : ℕ) (t : Task) : (State.setTask s i t).mem.bytes = s.mem.bytes := rfl
@[simp] theorem bytes_setGroup (s : State) (i : ℕ) (g : Group) : (State.setGroup s i g).mem.bytes = s.mem.bytes := rfl
@[simp] theorem bytes_setFrame (s : State) (i : ℕ) (f : Frame) : (State.setFrame s i f).mem.bytes = s.mem.bytes := rfl
@[simp] theorem bytes_setMail (s : State) (m : SMap BMail) : (State.setMail s m).mem.bytes = s.mem.bytes := rfl
@[simp] theorem bytes_fresh (s : State) : (State.fresh s).2.mem.bytes = s.mem.bytes := rfl
@[simp] theorem bytes_freshFab (s : State) : (State.freshFab s).2.mem.bytes = s.mem.bytes := rfl

/-! ### Machine/Extents.lean -/

@[simp] theorem bytes_markUsed (s : State) (d : Desc) : (markUsed s d).mem.bytes = s.mem.bytes := rfl
@[simp] theorem canonical_homeWrite {s : State} (h : Memory.wf s.mem.bytes = true) (d : Desc) (va : ℕ) (bs : List Byte) :
    Memory.wf (homeWrite s d va bs).mem.bytes = true := by
  unfold homeWrite; simp [h]

@[simp] theorem bytes_homePoison (s : State) (d : Desc) (va : ℕ) (n : ℕ) :
    (homePoison s d va n).mem.bytes = s.mem.bytes := by
  unfold homePoison; simp

@[simp] theorem bytes_fillEcb (s : State) (core : ℕ) (ctx : ℕ) (va : ℕ) :
    (fillEcb s core ctx va).mem.bytes = s.mem.bytes := by
  unfold fillEcb; (repeat' split) <;> simp

@[simp] theorem canonical_patch64 {s : State} (h : Memory.wf s.mem.bytes = true) (pa : ℕ) (lo : ℕ) (n : ℕ) (v : ℕ) :
    Memory.wf (patch64 s pa lo n v).mem.bytes = true := by
  unfold patch64; simp [h]

/-! ### Machine/Home.lean -/

@[simp] theorem bytes_setChan (s : State) (k : ℕ) (c : Chan) : (State.setChan s k c).mem.bytes = s.mem.bytes := rfl
@[simp] theorem bytes_wakeChan (s : State) (k : ℕ) : (wakeChan s k).mem.bytes = s.mem.bytes := by unfold wakeChan; simp
@[simp] theorem bytes_touchChan (s : State) (pa : ℕ) : (touchChan s pa).mem.bytes = s.mem.bytes := by unfold touchChan; simp
@[simp] theorem bytes_askLine (s : State) (line : ℕ) (wr : Bool) : (askLine s line wr).mem.bytes = s.mem.bytes := rfl
@[simp] theorem bytes_dirTidy (s : State) : (dirTidy s).mem.bytes = s.mem.bytes := rfl
@[simp] theorem bytes_dropOwner (s : State) (line : ℕ) : (dropOwner s line).mem.bytes = s.mem.bytes := by unfold dropOwner; simp
@[simp] theorem bytes_recallFrom (s : State) (core : ℕ) (line : ℕ) :
    (recallFrom s core line).mem.bytes = s.mem.bytes := by
  unfold recallFrom; simp

@[simp] theorem bytes_noteUpset (s : State) (u : Upset) : (noteUpset s u).mem.bytes = s.mem.bytes := by unfold noteUpset; simp
@[simp] theorem bytes_noteByte (s : State) (d : Desc) (va : ℕ) : (noteByte s d va).mem.bytes = s.mem.bytes := by unfold noteByte; simp
theorem canonical_heldState {s t : State} {d : Desc} {va : Nat} {wr : Bool} {k : Hold} (hs : Memory.wf s.mem.bytes = true)
    (h : heldState s d va wr k = some t) : Memory.wf t.mem.bytes = true := by
  unfold heldState at h
  split at h <;> cases h
  · exact hs
  · simp [hs]
  · simp [hs]
  · simp [hs]

theorem canonical_memWait {s t : State} {port : Nat} {d : Desc} {va : Nat} {wr : Bool} (hs : Memory.wf s.mem.bytes = true)
    (h : memWait s port d va wr = some t) : Memory.wf t.mem.bytes = true := canonical_heldState hs h

theorem canonical_byteWait {s t : State} {port : Nat} {d : Desc} {va : Nat} {wr : Bool} (hs : Memory.wf s.mem.bytes = true)
    (h : byteWait s port d va wr = some t) : Memory.wf t.mem.bytes = true := canonical_heldState hs h

@[simp] theorem bytes_touchByte (s : State) (d : Desc) (va : ℕ) (wr : Bool) :
    (touchByte s d va wr).mem.bytes = s.mem.bytes := by
  unfold touchByte; simp

@[simp] theorem canonical_addElem {s : State} (h : Memory.wf s.mem.bytes = true) (line : ℕ) (e : ℕ) (δ : ℕ) :
    Memory.wf (addElem s line e δ).mem.bytes = true := by
  unfold addElem; dsimp only; (repeat' split) <;> simp [h]

@[simp] theorem canonical_addDeltas {s : State} (h : Memory.wf s.mem.bytes = true) (line : ℕ) (ds : SMap Word) :
    Memory.wf (addDeltas s line ds).mem.bytes = true := by
  unfold addDeltas
  exact canonical_foldl (fun _ _ hs => canonical_addElem hs ..) _ h

@[simp] theorem canonical_drainHolder {s : State} (h : Memory.wf s.mem.bytes = true) (core : ℕ) (line : ℕ) (release : Bool) :
    Memory.wf (drainHolder s core line release).mem.bytes = true := by
  unfold drainHolder; dsimp only; (repeat' split) <;> simp [h]

@[simp] theorem canonical_drainLine {s : State} (h : Memory.wf s.mem.bytes = true) (line : ℕ) (release : Bool) :
    Memory.wf (drainLine s line release).mem.bytes = true := by
  unfold drainLine; (repeat' split) <;> simp_all

@[simp] theorem canonical_visitLine {s : State} (h : Memory.wf s.mem.bytes = true) (d : Desc) (va : ℕ) (wr : Bool) :
    Memory.wf (visitLine s d va wr).mem.bytes = true := by
  unfold visitLine; simp [h]

@[simp] theorem canonical_useByte {s : State} (h : Memory.wf s.mem.bytes = true) (d : Desc) (va : ℕ) (wr : Bool) :
    Memory.wf (useByte s d va wr).mem.bytes = true := by
  unfold useByte; simp [h]

@[simp] theorem canonical_devWrite {s : State} (h : Memory.wf s.mem.bytes = true) (ctx : ℕ) (va : ℕ) (bs : List Byte) :
    Memory.wf (devWrite s ctx va bs).mem.bytes = true := by
  unfold devWrite
  split
  · simp [h]
  split
  · exact canonical_foldl (fun s x hs => by split <;> simp [hs]) _ h
  · exact h

theorem canonical_devHold {s t : State} {ctx va n : Nat} {wr : Bool} (hs : Memory.wf s.mem.bytes = true)
    (h : devHold s ctx va n wr = some t) : Memory.wf t.mem.bytes = true := by
  unfold devHold at h
  split at h
  · obtain ⟨i, -, hi⟩ := List.exists_of_findSome?_eq_some h
    exact canonical_byteWait hs hi
  · cases h

@[simp] theorem canonical_devUse {s : State} (h : Memory.wf s.mem.bytes = true) (ctx : ℕ) (va : ℕ) (n : ℕ) :
    Memory.wf (devUse s ctx va n).mem.bytes = true := by
  unfold devUse; dsimp only; (repeat' split) <;> simp +contextual [h]

theorem canonical_devHolds {s t : State} {l : List DevAcc} (hs : Memory.wf s.mem.bytes = true) (h : devHolds s l = some t) :
    Memory.wf t.mem.bytes = true := by
  obtain ⟨x, -, hx⟩ := List.exists_of_findSome?_eq_some h
  exact canonical_devHold hs hx

@[simp] theorem canonical_devUses {s : State} (h : Memory.wf s.mem.bytes = true) (l : List DevAcc) :
    Memory.wf (devUses s l).mem.bytes = true :=
  canonical_foldl (fun s x hs => by split <;> simp [hs]) _ h

@[simp] theorem canonical_devTurn {s : State} (h : Memory.wf s.mem.bytes = true) (l : List DevAcc) {act : State → State}
    (ha : ∀ t, Memory.wf t.mem.bytes = true → Memory.wf (act t).mem.bytes = true) : Memory.wf (devTurn s l act).mem.bytes = true := by
  unfold devTurn
  split
  · next hd => exact canonical_devHolds h hd
  · exact ha _ (canonical_devUses h l)

/-! ### Machine/Regions.lean -/

@[simp] theorem bytes_raiseMsi (s : State) (v : ℕ) : (raiseMsi s v).mem.bytes = s.mem.bytes := rfl
@[simp] theorem canonical_logRecord {s : State} (h : Memory.wf s.mem.bytes = true) (r : ℕ) (vec : ℕ) (bs : List Byte) :
    Memory.wf (logRecord s r vec bs).mem.bytes = true := by
  unfold logRecord; dsimp only; (repeat' split) <;> simp [h]

@[simp] theorem canonical_hostError {s : State} (h : Memory.wf s.mem.bytes = true) (kind : ℕ) (unit : ℕ) (ctx : ℕ) (detail : ℕ) (addr :
    ℕ) (aux : ℕ) :
    Memory.wf (hostError s kind unit ctx detail addr aux).mem.bytes = true := by
  unfold hostError; simp [h]

@[simp] theorem canonical_logEvent {s : State} (h : Memory.wf s.mem.bytes = true) (code : ℕ) (value : ℕ) (whr : ℕ) :
    Memory.wf (logEvent s code value whr).mem.bytes = true := by
  unfold logEvent; simp [h]

@[simp] theorem canonical_auditRecord {s : State} (h : Memory.wf s.mem.bytes = true) (tcb : ℕ) (blk : ℕ) (result : ℕ) (coreA : ℕ) (coreB
    : ℕ) (sigA : DWord) (sigB : DWord) :
    Memory.wf (auditRecord s tcb blk result coreA coreB sigA sigB).mem.bytes = true := by
  unfold auditRecord; simp [h]

@[simp] theorem canonical_setDomHead {s : State} (h : Memory.wf s.mem.bytes = true) (pa : ℕ) (v : ℕ) :
    Memory.wf (setDomHead s pa v).mem.bytes = true := by
  unfold setDomHead; simp [h]

@[simp] theorem canonical_setDomTail {s : State} (h : Memory.wf s.mem.bytes = true) (pa : ℕ) (v : ℕ) :
    Memory.wf (setDomTail s pa v).mem.bytes = true := by
  unfold setDomTail; simp [h]

/-! ### Machine/Objects.lean -/

@[simp] theorem bytes_objPut (s : State) (r : ObjRef) (o : BarObj) :
    (objPut s r o).mem.bytes = s.mem.bytes := by
  unfold objPut; (repeat' split) <;> simp

@[simp] theorem bytes_charge (s : State) (r : Option ObjRef) (n : ℕ) (fail : Bool) :
    (charge s r n fail).mem.bytes = s.mem.bytes := by
  unfold charge; split <;> simp

@[simp] theorem bytes_abandonObj (s : State) (r : ObjRef) : (abandonObj s r).mem.bytes = s.mem.bytes := by unfold abandonObj; simp

/-! ### Machine/Ops.lean -/

@[simp] theorem bytes_leaveSlot (s : State) : (State.leaveSlot s).mem.bytes = s.mem.bytes := rfl
@[simp] theorem bytes_advance (s : State) (n : ℕ) : (State.advance s n).mem.bytes = s.mem.bytes := by unfold State.advance; simp
@[simp] theorem bytes_branch (s : State) (f : Warp → Warp) : (State.branch s f).mem.bytes = s.mem.bytes := rfl
@[simp] theorem bytes_block (s : State) (b : Blocked) : (State.block s b).mem.bytes = s.mem.bytes := rfl
@[simp] theorem bytes_unblock (s : State) (core : ℕ) (wslot : ℕ) (split : ℕ) (n : ℕ) :
    (unblock s core wslot split n).mem.bytes = s.mem.bytes :=
  rfl

@[simp] theorem bytes_disown (s : State) (core : ℕ) (wslot : ℕ) : (disown s core wslot).mem.bytes = s.mem.bytes := rfl
@[simp] theorem bytes_abandonOf (s : State) (core : Nat) (w : Warp) : (abandonOf s core w).mem.bytes = s.mem.bytes := by
  unfold abandonOf
  rw [bytes_foldl, bytes_foldl]
  · simp
  · intro s x; split <;> simp

@[simp] theorem bytes_haltWarp (s : State) (core : ℕ) (wslot : ℕ) : (haltWarp s core wslot).mem.bytes = s.mem.bytes := rfl
@[simp] theorem bytes_killWarp (s : State) (core : ℕ) (wslot : ℕ) :
    (killWarp s core wslot).mem.bytes = s.mem.bytes := by
  unfold killWarp; simp

@[simp] theorem bytes_killBlock (s : State) (b : ℕ) : (killBlock s b).mem.bytes = s.mem.bytes := by unfold killBlock; simp
@[simp] theorem canonical_completionWord {s : State} (h : Memory.wf s.mem.bytes = true) (ctx : ℕ) (cw : ℕ) (cv : ℕ) (status : ℕ) :
    Memory.wf (completionWord s ctx cw cv status).mem.bytes = true := by
  unfold completionWord; simp [h]

@[simp] theorem canonical_setTcbSt {s : State} (h : Memory.wf s.mem.bytes = true) (ctx : ℕ) (tcb : ℕ) (st : ℕ) (cause : ℕ) :
    Memory.wf (setTcbSt s ctx tcb st cause).mem.bytes = true := by
  unfold setTcbSt; simp [h]

@[simp] theorem bytes_dropTask (s : State) (i : ℕ) : (dropTask s i).mem.bytes = s.mem.bytes := rfl
@[simp] theorem canonical_finishGraph {s : State} (h : Memory.wf s.mem.bytes = true) (g : ℕ) :
    Memory.wf (finishGraph s g).mem.bytes = true := by
  unfold finishGraph; dsimp only; (repeat' split) <;> simp +contextual [h]

@[simp] theorem canonical_cancelTask {s : State} (h : Memory.wf s.mem.bytes = true) (i : ℕ) :
    Memory.wf (cancelTask s i).mem.bytes = true := by
  unfold cancelTask; (repeat' split) <;> simp [h]

@[simp] theorem canonical_tcbCount {s : State} (h : Memory.wf s.mem.bytes = true) (t : Task) (off : ℕ) (k : ℤ) :
    Memory.wf (tcbCount s t off k).mem.bytes = true := by
  unfold tcbCount; simp [h]

@[simp] theorem canonical_returnTaken {s : State} (h : Memory.wf s.mem.bytes = true) (b : Block) :
    Memory.wf (returnTaken s b).mem.bytes = true :=
  canonical_foldl (fun s x hs => by (repeat' split) <;> simp [hs]) _ h

@[simp] theorem canonical_markSlot {s : State} (h : Memory.wf s.mem.bytes = true) (ctx : ℕ) (r : ℕ) (slot : ℕ) (used : Bool) :
    Memory.wf (markSlot s ctx r slot used).mem.bytes = true := by
  unfold markSlot; simp [h]

@[simp] theorem canonical_dropSaved {s : State} (h : Memory.wf s.mem.bytes = true) (k : Nat) :
    Memory.wf (dropSaved s k).mem.bytes = true :=
  by
  unfold dropSaved
  split
  · exact h
  · refine canonical_foldl (fun s x hs => ?_) _ h
    split
    · exact canonical_markSlot hs ..
    · exact hs

@[simp] theorem bytes_abandonSaved (s : State) (g : Saved) : (abandonSaved s g).mem.bytes = s.mem.bytes := by unfold abandonSaved; simp
@[simp] theorem bytes_dropSelected (s : State) (b : Block) :
    (dropSelected s b).mem.bytes = s.mem.bytes := by
  unfold dropSelected; (repeat' split) <;> simp

@[simp] theorem canonical_killSaved {s : State} (h : Memory.wf s.mem.bytes = true) (k : ℕ) :
    Memory.wf (killSaved s k).mem.bytes = true :=
  by
  unfold killSaved
  split
  · exact h
  extract_lets u live v
  have hv : Memory.wf v.mem.bytes = true :=
    canonical_foldl (fun s b hs => (congrArg Memory.wf (bytes_dropSelected ..)).trans hs) _
      (canonical_dropSaved ((congrArg Memory.wf (bytes_abandonSaved ..)).trans h) _)
  split
  · exact hv
  · exact canonical_foldl (fun s b hs => canonical_returnTaken hs b) _ (canonical_tcbCount (by simpa using hv) ..)

@[simp] theorem canonical_cancelDevQueue {s : State} (h : Memory.wf s.mem.bytes = true) (r : ℕ) :
    Memory.wf (cancelDevQueue s r).mem.bytes = true := by
  unfold cancelDevQueue
  simp_all

@[simp] theorem canonical_cancelAudit {s : State} (h : Memory.wf s.mem.bytes = true) (i : ℕ) :
    Memory.wf (cancelAudit s i).mem.bytes = true := by
  unfold cancelAudit; split <;> simp [h]

@[simp] theorem canonical_killRegion {s : State} (h : Memory.wf s.mem.bytes = true) (pa : Nat) :
    Memory.wf (killRegion s pa).mem.bytes = true :=
  by
  unfold killRegion
  refine canonical_foldl (fun s x hs => ?_) _ (canonical_foldl (fun s x hs => ?_) _ ?_)
  · split
    · simp [hs]
    · exact hs
  · simp [hs]
  refine canonical_foldl (fun s x hs => ?_) _ (canonical_foldl (fun s x hs => ?_) _ (canonical_foldl (fun s x hs => ?_) _ h))
  · split
    · simp [hs]
    · exact hs
  · simp [hs]
  · split
    · simp [hs]
    · exact hs

@[simp] theorem canonical_deviceError {s : State} (h : Memory.wf s.mem.bytes = true) : Memory.wf (deviceError s).mem.bytes = true := by
  unfold deviceError
  dsimp only
  rw [bytes_raiseMsi]
  refine (canonical_foldl (fun s x hs => ?_) _ (canonical_foldl (fun s x hs => ?_) _ (canonical_foldl (fun s x hs => ?_) _
    (canonical_foldl (fun s x hs => ?_) _ (canonical_foldl (fun s x hs => ?_) _ h)))))
  · simp [hs]
  · simp [hs]
  · simp [hs]
  · simp [hs]
  · split <;> simp [hs]

@[simp] theorem bytes_endReplay (s : State) (blk : ℕ) (result : ℕ) (cls : ℕ) :
    (endReplay s blk result cls).mem.bytes = s.mem.bytes := by
  unfold endReplay; (repeat' split) <;> simp

@[simp] theorem canonical_writeFrame {s : State} (h : Memory.wf s.mem.bytes = true) (i : Nat) :
    Memory.wf (writeFrame s i).mem.bytes = true := by
  unfold writeFrame
  split
  · exact h
  rename_i f _
  dsimp only
  split
  · exact h
  split
  · exact canonical_deviceError h
  split
  · exact h
  split
  case h_1 hw =>
    obtain ⟨j, -, hj⟩ := List.exists_of_findSome?_eq_some hw
    exact canonical_devHold h hj
  · have hf := canonical_foldl (f := fun t j => devWrite t (domainAt s f.dom).hctx
      ((domainAt s f.dom).ring + 64 * (((domainAt s f.dom).head + j) % 2 ^ (domainAt s f.dom).n))
      ((List.take 64 (List.drop (64 * j) (overlay f.bytes 0x3C (leBytes 4 (domainAt s f.dom).head))))))
      (fun t j ht => canonical_devWrite ht ..) (List.range f.records) h
    have hd := canonical_setDomHead hf f.dom (((domainAt s f.dom).head + f.records) % 2 ^ 32)
    split
    · exact canonical_logEvent (by simpa using hd) ..
    · simpa using hd

/-- What `writeFrames` carries from one frame to the next. -/
def writeFramesStep (p : State × List Nat) (i : Nat) : State × List Nat :=
  match mfind p.1.work.frames i with
  | some f =>
    if f.seq.isSome || p.2.contains f.dom then p
    else
      let s' := writeFrame p.1 i
      (s', if ((mfind s'.work.frames i).map (fun g => g.seq.isNone)).getD false then f.dom :: p.2 else p.2)
  | none => p

theorem canonical_writeFramesStep {p : State × List Nat} (h : Memory.wf p.1.mem.bytes = true) (i : Nat) :
    Memory.wf (writeFramesStep p i).1.mem.bytes = true := by
  unfold writeFramesStep
  split
  · split
    · exact h
    · exact canonical_writeFrame h i
  · exact h

@[simp] theorem canonical_writeFrames {s : State} (h : Memory.wf s.mem.bytes = true) : Memory.wf (writeFrames s).mem.bytes = true :=
  canonical_foldl_fst (fun _ i hp => canonical_writeFramesStep hp i) _ h

@[simp] theorem bytes_sortFrames (s : State) (core : ℕ) : (sortFrames s core).mem.bytes = s.mem.bytes := by unfold sortFrames; simp
@[simp] theorem canonical_addFrame {s : State} (h : Memory.wf s.mem.bytes = true) (f : Frame) :
    Memory.wf (addFrame s f).mem.bytes = true := by
  unfold addFrame; simp [h]

@[simp] theorem bytes_stopCore (s : State) (core : ℕ) : (stopCore s core).mem.bytes = s.mem.bytes := by unfold stopCore; simp
@[simp] theorem bytes_beginStop (s : State) (core : ℕ) (wslot : ℕ) :
    (beginStop s core wslot).mem.bytes = s.mem.bytes := by
  unfold beginStop; simp

@[simp] theorem canonical_closeStop {s : State} (h : Memory.wf s.mem.bytes = true) (core : ℕ) :
    Memory.wf (closeStop s core).mem.bytes = true := by
  unfold closeStop; simp [h]

@[simp] theorem canonical_handlerFault {s : State} (h : Memory.wf s.mem.bytes = true) (t : FaultSite) (f : FaultInfo) :
    Memory.wf (handlerFault s t f).mem.bytes = true := by
  unfold handlerFault
  extract_lets u head v w
  have hu : Memory.wf u.mem.bytes = true := (congrArg Memory.wf ((bytes_updCore ..).trans (bytes_stopCore ..))).trans h
  clear_value u
  have hv : Memory.wf v.mem.bytes = true := canonical_hostError hu ..
  clear_value v
  have hw : Memory.wf w.mem.bytes = true := canonical_logRecord hv ..
  clear_value w head
  exact canonical_logEvent hw ..

@[simp] theorem canonical_faultAt {s : State} (h : Memory.wf s.mem.bytes = true) (t : FaultSite) (f : FaultInfo) (cont : List Byte) :
    Memory.wf (faultAt s t f cont).mem.bytes = true := by
  unfold faultAt; dsimp only; (repeat' split) <;> simp [h]

@[simp] theorem canonical_raise {s : State} (h : Memory.wf s.mem.bytes = true) (f : FaultInfo) (cont : List Byte) :
    Memory.wf (State.raise s f cont).mem.bytes = true := by
  unfold State.raise; simp [h]

@[simp] theorem canonical_illegal {s : State} (h : Memory.wf s.mem.bytes = true) :
    Memory.wf (State.illegal s).mem.bytes = true := by
  unfold State.illegal; simp [h]

@[simp] theorem canonical_rangeFault {s : State} (h : Memory.wf s.mem.bytes = true) :
    Memory.wf (State.rangeFault s).mem.bytes = true := by
  unfold State.rangeFault; simp [h]

@[simp] theorem canonical_poisonFault {s : State} (h : Memory.wf s.mem.bytes = true) (reg : ℕ) (lanes : Word) :
    Memory.wf (State.poisonFault s reg lanes).mem.bytes = true := by
  unfold State.poisonFault; simp [h]

@[simp] theorem canonical_memoryFrame {s : State} (h : Memory.wf s.mem.bytes = true) (dom : ℕ) (ctx : ℕ) (xid : ℕ) (row : ℕ) (space : ℕ)
    (sva : ℕ) :
    Memory.wf (memoryFrame s dom ctx xid row space sva).mem.bytes = true := by
  unfold memoryFrame; simp [h]

@[simp] theorem canonical_killPartitions {s : State} (h : Memory.wf s.mem.bytes = true) (rs : List ℕ) (ctx : ℕ) (pa : ℕ) :
    Memory.wf (killPartitions s rs ctx pa).mem.bytes = true := by
  unfold killPartitions
  exact canonical_hostError (canonical_foldl (fun s p hs => canonical_killRegion hs _) _ h) ..

@[simp] theorem canonical_escalate {s : State} (h : Memory.wf s.mem.bytes = true) (ctx : ℕ) (xid : ℕ) (cls : ℕ) (pa : ℕ) (space : ℕ)
    (sva : ℕ) :
    Memory.wf (escalate s ctx xid cls pa space sva).mem.bytes = true := by
  unfold escalate; dsimp only; (repeat' split) <;> simp [h]

@[simp] theorem canonical_reportUpset {s : State} (h : Memory.wf s.mem.bytes = true) :
    Memory.wf (reportUpset s).mem.bytes = true := by
  unfold reportUpset; (repeat' split) <;> simp [h]

@[simp] theorem canonical_tailAdvance {s : State} (h : Memory.wf s.mem.bytes = true) (k dom : ℕ) :
    Memory.wf (tailAdvance k s dom).mem.bytes = true :=
  by
  induction k generalizing s with
  | zero => exact h
  | succ k ih =>
    rw [tailAdvance]
    split
    · exact ih (canonical_setDomTail h ..)
    · exact h

@[simp] theorem bytes_coreResume (s : State) (core : ℕ) : (coreResume s core).mem.bytes = s.mem.bytes := by unfold coreResume; simp
@[simp] theorem bytes_resumeCores (s : State) : (resumeCores s).mem.bytes = s.mem.bytes := by unfold resumeCores; simp
@[simp] theorem canonical_settleRings {s : State} (h : Memory.wf s.mem.bytes = true) (k : ℕ) :
    Memory.wf (settleRings k s).mem.bytes = true :=
  by
  induction k generalizing s with
  | zero => exact h
  | succ k ih => exact ih (canonical_writeFrames (canonical_foldl (fun s d hs => canonical_tailAdvance hs ..) _ h))

@[simp] theorem canonical_settleFrames {s : State} (h : Memory.wf s.mem.bytes = true) : Memory.wf (settleFrames s).mem.bytes = true :=
  (congrArg Memory.wf (bytes_resumeCores ..)).trans (canonical_settleRings h _)

@[simp] theorem bytes_freeElems (s : State) (core : ℕ) (tile : ℕ) (rows : ℕ) (cols : ℕ) :
    (freeElems s core tile rows cols).mem.bytes = s.mem.bytes :=
  rfl

@[simp] theorem bytes_freeTile (s : State) (core : ℕ) (tile : ℕ) : (freeTile s core tile).mem.bytes = s.mem.bytes := rfl
@[simp] theorem canonical_answerFrame {s : State} (h : Memory.wf s.mem.bytes = true) (i : ℕ) (a : Answer) :
    Memory.wf (answerFrame s i a).mem.bytes = true := by
  unfold answerFrame
  split
  · exact h
  next f _ =>
  extract_lets u k v
  have hu : Memory.wf u.mem.bytes = true := (congrArg Memory.wf (bytes_setFrame ..)).trans h
  clear_value u
  refine canonical_settleFrames ?_
  unfold v
  split
  · exact hu
  split
  · split
    · split <;> exact hu
    · split <;> exact hu
    · exact canonical_killRegion hu _
    · exact canonical_killSaved hu _
  · split
    · (repeat' split) <;> simp [hu]
    · (repeat' split) <;> simp [hu]
    · split <;> simp [hu]
    · split <;> simp [hu]
    · split
      · exact canonical_foldl (fun s r hs => canonical_killRegion hs r) _ hu
      · exact canonical_killRegion hu _

/-! ### Machine/Operands.lean -/

@[simp] theorem keeps_vecChecked {s ok : State} (h : Memory.wf s.mem.bytes = true) (hok : Memory.wf ok.mem.bytes = true)
    (names reads : List Nat) (lanes : Word) : Keeps (vecChecked s names reads lanes ok) := by
  unfold vecChecked; (repeat' split) <;> simp [h, hok]

@[simp] theorem bytes_wrote (s : State) (d : ℕ) (lanes : Word) (f : ℕ → Word) (n : ℕ) (keep : optParam Bool false) :
    (State.wrote s d lanes f n keep).mem.bytes = s.mem.bytes := by
  unfold State.wrote; simp

@[simp] theorem keeps_vec2 {s : State} (h : Memory.wf s.mem.bytes = true) (ty : OpTy) (acc : Bool) (d : VReg) (a : Operand) (b :
    Operand) (p : Bool) (f : Word → Word → Word → Word) :
    Keeps (vec2 s ty acc d a b p f) := by
  unfold vec2; simp [h]

@[simp] theorem keeps_vec1 {s : State} (h : Memory.wf s.mem.bytes = true) (ty : OpTy) (d : VReg) (a : Operand) (p : Bool) (f : Word →
    Word) :
    Keeps (vec1 s ty d a p f) := by
  unfold vec1; simp [h]

@[simp] theorem keeps_sca {s : State} (h : Memory.wf s.mem.bytes = true) (d : SReg) (a : Operand) (b : Operand) (x : Word) :
    Keeps (sca s d a b x) := by
  unfold sca; simp [h]

@[simp] theorem keeps_msk {s : State} (h : Memory.wf s.mem.bytes = true) (d : MReg) (x : Word) :
    Keeps (msk s d x) := by
  unfold msk; simp [h]

/-! ### Machine/Flags.lean -/

@[simp] theorem bytes_status (s : State) (d : SReg) (st : ℕ) (n : ℕ) :
    (State.status s d st n).mem.bytes = s.mem.bytes := by
  unfold State.status; simp

/-! ### Machine/Issue.lean -/

@[simp] theorem canonical_useCode {s : State} (h : Memory.wf s.mem.bytes = true) (core ctx pc n : ℕ) :
    Memory.wf (useCode s core ctx pc n).mem.bytes = true :=
  canonical_foldl (fun s i hs => by (repeat' split) <;> simp [hs]) _ h

@[simp] theorem canonical_fetchStuck {s : State} (h : Memory.wf s.mem.bytes = true) (core : ℕ) (ctx : ℕ) (pc : ℕ) :
    Memory.wf (fetchStuck s core ctx pc).mem.bytes = true := by
  refine canonical_foldl (fun s i hs => ?_) _ h
  split
  · split
    · next hw => exact canonical_byteWait hs hw
    · split <;> simp [hs]
  · exact hs

@[simp] theorem canonical_keepCode {s : State} (h : Memory.wf s.mem.bytes = true) (core : ℕ) (ctx : ℕ) (pc : ℕ) (n : ℕ) :
    Memory.wf (keepCode s core ctx pc n).mem.bytes = true := by
  unfold keepCode; simp [h]

@[simp] theorem canonical_deadlock1 {s : State} (h : Memory.wf s.mem.bytes = true) (core : ℕ) (wslot : ℕ) :
    Memory.wf (deadlock1 s core wslot).mem.bytes = true := by
  unfold deadlock1; simp [h]

@[simp] theorem bytes_grantTo (s : State) (core : ℕ) (wslot : ℕ) (split : ℕ) : (grantTo s core wslot split).mem.bytes = s.mem.bytes := rfl
@[simp] theorem bytes_grantPartner (s : State) (core : ℕ) (wslot : ℕ) (p : ℕ × ℕ) :
    (grantPartner s core wslot p).mem.bytes = s.mem.bytes := by
  unfold grantPartner; simp

@[simp] theorem canonical_headerFault {s : State} (h : Memory.wf s.mem.bytes = true) (core : ℕ) (wslot : ℕ) (split : ℕ) (x4 : Word) (f :
    FaultInfo) :
    Memory.wf (headerFault s core wslot split x4 f).mem.bytes = true := by
  unfold headerFault; simp [h]

@[simp] theorem canonical_fetchesStuck {s : State} (h : Memory.wf s.mem.bytes = true) (core : ℕ) (slot : ℕ) :
    Memory.wf (fetchesStuck s core slot).mem.bytes = true := by
  refine canonical_foldl (fun s w hs => canonical_foldl (fun s i hs => ?_) _ hs) _ h
  split
  · split
    · exact canonical_fetchStuck hs ..
    · exact canonical_fetchStuck hs ..
    · exact hs
  · exact hs

@[simp] theorem canonical_grantClause {s : State} (h : Memory.wf s.mem.bytes = true) (core : ℕ) (slot : ℕ) :
    Memory.wf (grantClause s core slot).mem.bytes = true := by
  unfold grantClause; dsimp only; (repeat' split) <;> simp [h]

@[simp] theorem canonical_takeOver {s : State} (h : Memory.wf s.mem.bytes = true) :
    Memory.wf (takeOver s).mem.bytes = true := by
  unfold takeOver; dsimp only; (repeat' split) <;> simp [h]

@[simp] theorem keeps_closingSlot {s : State} {issue : State → Result} (h : Memory.wf s.mem.bytes = true)
    (hi : ∀ t, Memory.wf t.mem.bytes = true → Keeps (issue t)) : Keeps (closingSlot s issue) := by
  unfold closingSlot
  extract_lets c
  split
  · simp [h]
  next r _ =>
  have hu : Memory.wf (if r.late then takeOver s else s).mem.bytes = true := by split <;> simp [h]
  generalize (if r.late then takeOver s else s) = u at hu ⊢
  have hk := hi u hu
  by_cases hc : (u.core c).closing
  · rw [if_neg (by simp [hc])]
    generalize issue u = a at hk ⊢
    cases a with
    | next t =>
      have ht := hk t rfl
      have hv (x : Option Run) : Memory.wf (t.updCore c (fun k => k.setSlot u.focus.2 x)).mem.bytes = true :=
        (congrArg Memory.wf (bytes_updCore ..)).trans ht
      exact keeps_ite (keeps_next.2 ht) (keeps_next.2 (canonical_ite_state (hv _) (canonical_closeStop (hv _) _)))
    | _ => exact hk
  · simp [hc, hu]

@[simp] theorem bytes_ageRank (s : State) (core : ℕ) (wslot : ℕ) :
    (ageRank s core wslot).mem.bytes = s.mem.bytes := by
  unfold ageRank; simp

@[simp] theorem bytes_tickWarp (s : State) (core : ℕ) (wslot : ℕ) (cycles : ℕ) :
    (tickWarp s core wslot cycles).mem.bytes = s.mem.bytes :=
  rfl

@[simp] theorem canonical_tick {s : State} (h : Memory.wf s.mem.bytes = true) (ns cycles : ℕ) :
    Memory.wf (tick s ns cycles).mem.bytes = true :=
  by
  have h1 := canonical_foldl (f := fun s c => if (s.core c).closing then closeStop s c else s) (fun s c hs => by split <;> simp [hs]) (mkeys s.cores) h
  unfold tick
  exact canonical_writeFrames ((congrArg Memory.wf (bytes_foldl (fun s k => bytes_tickWarp s (k / 33) (k % 33) cycles) ..)).trans h1)

/-! ### Machine/MemOps.lean -/

@[simp] theorem bytes_raiseCounter (s : State) (r : Req) : (raiseCounter s r).mem.bytes = s.mem.bytes := by unfold raiseCounter; simp
@[simp] theorem bytes_lowerCounter (s : State) (r : Req) : (lowerCounter s r).mem.bytes = s.mem.bytes := by unfold lowerCounter; simp
@[simp] theorem bytes_settleLanes (s : State) (r : Req) :
    (settleLanes s r).2.mem.bytes = s.mem.bytes := by
  unfold settleLanes; split <;> simp

@[simp] theorem bytes_enter (s : State) (r : Req) : (State.enter s r).mem.bytes = s.mem.bytes := by unfold State.enter; simp
@[simp] theorem bytes_dropL1 (s : State) (core : ℕ) (ctx : ℕ) : (dropL1 s core ctx).mem.bytes = s.mem.bytes := rfl
@[simp] theorem bytes_dropLineAll (s : State) (line : ℕ) :
    (dropLineAll s line).mem.bytes = s.mem.bytes :=
  bytes_foldl (fun _ _ => by simp) ..

@[simp] theorem bytes_makeRoom (s : State) (core : ℕ) (line : ℕ) :
    (makeRoom s core line).mem.bytes = s.mem.bytes := by
  unfold makeRoom; dsimp only; (repeat' split) <;> simp

@[simp] theorem bytes_fillL1 (s : State) (core : ℕ) (d : Desc) (a : ℕ) (src : ℕ → Byte × Bool) :
    (fillL1 s core d a src).mem.bytes = s.mem.bytes := by
  unfold fillL1; simp

@[simp] theorem bytes_askOrWait (s : State) (id : ℕ) (r : Req) (p : Part) (line : ℕ) (wr : Bool) :
    (askOrWait s id r p line wr).mem.bytes = s.mem.bytes := by
  unfold askOrWait; (repeat' split) <;> simp

@[simp] theorem bytes_localWrite (s : State) (sp : Space) (a : ℕ) (bs : List Byte) :
    (localWrite s sp a bs).mem.bytes = s.mem.bytes := by
  unfold localWrite; (repeat' split) <;> simp

@[simp] theorem bytes_spoilObjs (s : State) (sp : Space) (l : List ℕ) :
    (spoilObjs s sp l).mem.bytes = s.mem.bytes := by
  unfold spoilObjs; simp

@[simp] theorem bytes_localStore (s : State) (id : ℕ) (sp : Space) (a : ℕ) (bs : List Byte) :
    (localStore s id sp a bs).mem.bytes = s.mem.bytes := by
  unfold localStore; simp

@[simp] theorem bytes_deferReq (s : State) (r : Req) : (deferReq s r).mem.bytes = s.mem.bytes := by unfold deferReq; split <;> simp
@[simp] theorem bytes_finishReq (s : State) (id : ℕ) (r : Req) :
    (finishReq s id r).mem.bytes = s.mem.bytes := by
  unfold finishReq; (repeat' split) <;> simp

@[simp] theorem keeps_onVerdict {s ok : State} (h : Memory.wf s.mem.bytes = true) (hok : Memory.wf ok.mem.bytes = true) (v : Verdict) :
    Keeps (onVerdict s v ok) := by
  unfold onVerdict; split <;> simp [h, hok]

@[simp] theorem bytes_fillEcbs (s : State) (core : ℕ) (ctx : ℕ) (acc : List Acc) :
    (fillEcbs s core ctx acc).mem.bytes = s.mem.bytes := by
  unfold fillEcbs; simp

@[simp] theorem bytes_foldSig (s : State) (blk : ℕ) (l : List (ℕ × List Byte)) :
    (foldSig s blk l).mem.bytes = s.mem.bytes := by
  unfold foldSig; split <;> simp

/-! ### Machine/Bounded.lean -/

@[simp] theorem bytes_sendMail (s : State) (core : ℕ) (line : ℕ) (m : BMsg) : (sendMail s core line m).mem.bytes = s.mem.bytes := rfl
theorem keeps_onMail {s : State} (h : Memory.wf s.mem.bytes = true) (i : ℕ) {hold act : State → BMail → Option State}
    (hh : ∀ m u, hold s m = some u → Memory.wf u.mem.bytes = true)
    (ha : ∀ t m u, Memory.wf t.mem.bytes = true → act t m = some u → Memory.wf u.mem.bytes = true) : Keeps (onMail s i hold act) := by
  unfold onMail
  split
  · split
    · split
      · next hm => exact keeps_next.2 (hh _ _ hm)
      · split
        · next hm => exact keeps_next.2 (ha _ _ _ ((congrArg Memory.wf (bytes_setMail ..)).trans h) hm)
        · exact keeps_next.2 h
    · exact keeps_next.2 h
  · exact keeps_next.2 h

theorem canonical_noHold {s u : State} {m : BMail} (h : noHold s m = some u) : Memory.wf u.mem.bytes = true := by cases h
theorem canonical_elemsWait {s t : State} {line : ℕ} {es : List ℕ} (hs : Memory.wf s.mem.bytes = true) (h : elemsWait s line es = some t) :
    Memory.wf t.mem.bytes = true := by
  obtain ⟨e, -, he⟩ := List.exists_of_findSome?_eq_some h
  dsimp only at he
  split at he
  · split at he
    · cases he
    · rcases (Option.orElse_eq_some ..).1 he with he | ⟨-, he⟩ <;> exact canonical_heldState hs he
  · cases he

@[simp] theorem bytes_setAccounting (s : State) (line : ℕ) (b : BndLine) : (setAccounting s line b).mem.bytes = s.mem.bytes := rfl
@[simp] theorem bytes_grantShare (s : State) (core : ℕ) (line : ℕ) :
    (grantShare s core line).mem.bytes = s.mem.bytes := by
  unfold grantShare; simp

@[simp] theorem bytes_serveShare (s : State) (core : ℕ) (line : ℕ) (reclaiming : Bool) :
    (serveShare s core line reclaiming).mem.bytes = s.mem.bytes := by
  unfold serveShare; dsimp only; (repeat' split) <;> simp

@[simp] theorem bytes_touchLine (s : State) (line : ℕ) : (touchLine s line).mem.bytes = s.mem.bytes := by
  unfold touchLine
  exact bytes_foldl (fun s e => by (repeat' split) <;> simp) ..

@[simp] theorem bytes_serveWaits (s : State) : (serveWaits s).mem.bytes = s.mem.bytes := by unfold serveWaits; simp
@[simp] theorem bytes_sendDrain (s : State) (core : ℕ) (line : ℕ) (release : Bool) (answer : Bool) :
    (sendDrain s core line release answer).mem.bytes = s.mem.bytes :=
  rfl

@[simp] theorem bytes_bredLane (s : State) (core : ℕ) (line : ℕ) (e : ℕ) (δ : ℕ) :
    (bredLane s core line e δ).1.mem.bytes = s.mem.bytes := by
  unfold bredLane; dsimp only; (repeat' split) <;> simp

@[simp] theorem bytes_bredLanes (s : State) (id : ℕ) (r : Req) : (bredLanes s id r).1.mem.bytes = s.mem.bytes :=
  bytes_foldl_fst (fun a p => by
    dsimp only
    split
    · rfl
    · split <;> exact bytes_bredLane ..) ..

@[simp] theorem bytes_sendBloads (s : State) (id : ℕ) (r : Req) :
    (sendBloads s id r).mem.bytes = s.mem.bytes := by
  unfold sendBloads; split <;> simp

@[simp] theorem keeps_execShareReq {s : State} (h : Memory.wf s.mem.bytes = true) (msg : ℕ) : Keeps (execShareReq msg s) :=
  keeps_onMail h msg (fun _ _ => canonical_noHold) fun t m u ht hu => by
    split at hu
    · split at hu <;> cases hu
      exact (congrArg Memory.wf ((bytes_serveShare ..).trans (bytes_dropOwner ..))).trans ht
    · cases hu

@[simp] theorem keeps_execGrant {s : State} (h : Memory.wf s.mem.bytes = true) (msg : ℕ) : Keeps (execGrant msg s) :=
  keeps_onMail h msg (fun _ _ => canonical_noHold) fun t m u ht hu => by
    split at hu
    · split at hu
      · cases hu; exact (congrArg Memory.wf (bytes_updCore ..)).trans ht
      · split at hu <;> cases hu
        exact (congrArg Memory.wf ((bytes_updCore ..).trans (bytes_makeRoom ..))).trans ht
    · cases hu

@[simp] theorem keeps_execAdd {s : State} (h : Memory.wf s.mem.bytes = true) (msg : ℕ) : Keeps (execAdd msg s) :=
  keeps_onMail h msg (fun m u hu => by
    split at hu
    · exact canonical_elemsWait h hu
    · cases hu) fun t m u ht hu => by
    split at hu <;> cases hu
    exact (congrArg Memory.wf (bytes_serveWaits ..)).trans (canonical_addElem ht ..)

@[simp] theorem keeps_execDrain {s : State} (h : Memory.wf s.mem.bytes = true) (msg : ℕ) : Keeps (execDrain msg s) :=
  keeps_onMail h msg (fun m u hu => by
    split at hu
    · exact canonical_elemsWait h hu
    · cases hu) fun t m u ht hu => by
    split at hu
    · next d release answer _ =>
      have hv := canonical_addDeltas ht m.line d
      generalize addDeltas t m.line d = v at hv hu
      extract_lets v' a w x y at hu
      have hw : Memory.wf w.mem.bytes = true := by
        unfold w
        split
        · split
          · exact (congrArg Memory.wf (bytes_setAccounting ..)).trans hv
          · exact hv
        · exact hv
      have hy : Memory.wf y.mem.bytes = true := by
        clear_value w
        unfold y
        split <;> exact hw
      rw [← Option.some.inj hu]
      exact (congrArg Memory.wf (bytes_serveWaits ..)).trans hy
    · cases hu

@[simp] theorem keeps_execFdrain {s : State} (h : Memory.wf s.mem.bytes = true) (msg : ℕ) : Keeps (execFdrain msg s) :=
  keeps_onMail h msg (fun _ _ => canonical_noHold) fun t m u ht hu => by
    split at hu
    · rw [← Option.some.inj hu]
      split
      · exact (congrArg Memory.wf (bytes_sendDrain ..)).trans ht
      · exact (congrArg Memory.wf (bytes_sendMail ..)).trans ht
    · cases hu

@[simp] theorem keeps_execBload {s : State} (h : Memory.wf s.mem.bytes = true) (msg : ℕ) : Keeps (execBload msg s) :=
  keeps_onMail h msg (fun m u hu => by
    split at hu
    · exact canonical_elemsWait h hu
    · cases hu) fun t m u ht hu => by
    split at hu
    · extract_lets v f w at hu
      have hw : Memory.wf w.mem.bytes = true :=
        (congrArg Memory.wf ((bytes_foldl (fun s c => bytes_sendMail ..) ..).trans (bytes_dropOwner ..))).trans ht
      rw [← Option.some.inj hu]
      exact (congrArg Memory.wf (bytes_serveWaits ..)).trans hw
    · cases hu

@[simp] theorem keeps_execBvalue {s : State} (h : Memory.wf s.mem.bytes = true) (msg : ℕ) : Keeps (execBvalue msg s) :=
  keeps_onMail h msg (fun _ _ => canonical_noHold) fun t m u ht hu => by
    split at hu
    · split at hu
      · rw [← Option.some.inj hu]
        exact (congrArg Memory.wf (bytes_setReq ..)).trans ht
      · rw [← Option.some.inj hu]
        exact ht
    · cases hu

/-! ### Machine/Control.lean -/

@[simp] theorem keeps_execSadd {s : State} (h : Memory.wf s.mem.bytes = true) (d : SReg) (a : Operand) (b : Operand) :
    Keeps (execSadd d a b s) := by
  unfold execSadd; simp [h]

@[simp] theorem keeps_execSsub {s : State} (h : Memory.wf s.mem.bytes = true) (d : SReg) (a : Operand) (b : Operand) :
    Keeps (execSsub d a b s) := by
  unfold execSsub; simp [h]

@[simp] theorem keeps_execSmul {s : State} (h : Memory.wf s.mem.bytes = true) (d : SReg) (a : Operand) (b : Operand) :
    Keeps (execSmul d a b s) := by
  unfold execSmul; simp [h]

@[simp] theorem keeps_execSmulhi {s : State} (h : Memory.wf s.mem.bytes = true) (d : SReg) (a : Operand) (b : Operand) :
    Keeps (execSmulhi d a b s) := by
  unfold execSmulhi; simp [h]

@[simp] theorem keeps_execSand {s : State} (h : Memory.wf s.mem.bytes = true) (d : SReg) (a : Operand) (b : Operand) :
    Keeps (execSand d a b s) := by
  unfold execSand; simp [h]

@[simp] theorem keeps_execSor {s : State} (h : Memory.wf s.mem.bytes = true) (d : SReg) (a : Operand) (b : Operand) :
    Keeps (execSor d a b s) := by
  unfold execSor; simp [h]

@[simp] theorem keeps_execSxor {s : State} (h : Memory.wf s.mem.bytes = true) (d : SReg) (a : Operand) (b : Operand) :
    Keeps (execSxor d a b s) := by
  unfold execSxor; simp [h]

@[simp] theorem keeps_execSshl {s : State} (h : Memory.wf s.mem.bytes = true) (d : SReg) (a : Operand) (b : Operand) :
    Keeps (execSshl d a b s) := by
  unfold execSshl; simp [h]

@[simp] theorem keeps_execSshr {s : State} (h : Memory.wf s.mem.bytes = true) (d : SReg) (a : Operand) (b : Operand) :
    Keeps (execSshr d a b s) := by
  unfold execSshr; simp [h]

@[simp] theorem keeps_execSsra {s : State} (h : Memory.wf s.mem.bytes = true) (d : SReg) (a : Operand) (b : Operand) :
    Keeps (execSsra d a b s) := by
  unfold execSsra; simp [h]

@[simp] theorem keeps_execSmin {s : State} (h : Memory.wf s.mem.bytes = true) (d : SReg) (a : Operand) (b : Operand) :
    Keeps (execSmin d a b s) := by
  unfold execSmin; simp [h]

@[simp] theorem keeps_execSmax {s : State} (h : Memory.wf s.mem.bytes = true) (d : SReg) (a : Operand) (b : Operand) :
    Keeps (execSmax d a b s) := by
  unfold execSmax; simp [h]

@[simp] theorem keeps_execScmp {s : State} (h : Memory.wf s.mem.bytes = true) (c : Fin 10) (a : Operand) (b : Operand) :
    Keeps (execScmp c a b s) := by
  unfold execScmp; simp [h]

@[simp] theorem keeps_execSsel {s : State} (h : Memory.wf s.mem.bytes = true) (d : SReg) (a : Operand) (b : Operand) :
    Keeps (execSsel d a b s) := by
  unfold execSsel; simp [h]

@[simp] theorem keeps_execSadd64 {s : State} (h : Memory.wf s.mem.bytes = true) (d : SReg) (a : Operand) (b : Operand) :
    Keeps (execSadd64 d a b s) := by
  unfold execSadd64; simp [h]

@[simp] theorem keeps_execSmov {s : State} (h : Memory.wf s.mem.bytes = true) (d : SReg) (a : Operand) :
    Keeps (execSmov d a s) := by
  unfold execSmov; simp [h]

@[simp] theorem keeps_goTo {s : State} (h : Memory.wf s.mem.bytes = true) (taken : Bool) (off : Fin 1048576) :
    Keeps (goTo s taken off) := by
  unfold goTo; simp [h]

@[simp] theorem keeps_execJmp {s : State} (h : Memory.wf s.mem.bytes = true) (off : Fin 1048576) :
    Keeps (execJmp off s) := by
  unfold execJmp; simp [h]

@[simp] theorem keeps_execBscc {s : State} (h : Memory.wf s.mem.bytes = true) (c : Bool) (off : Fin 1048576) :
    Keeps (execBscc c off s) := by
  unfold execBscc; simp [h]

@[simp] theorem keeps_execBany {s : State} (h : Memory.wf s.mem.bytes = true) (mk : MReg) (c : Bool) (off : Fin 1048576) :
    Keeps (execBany mk c off s) := by
  unfold execBany; simp [h]

@[simp] theorem keeps_execBall {s : State} (h : Memory.wf s.mem.bytes = true) (mk : MReg) (c : Bool) (off : Fin 1048576) :
    Keeps (execBall mk c off s) := by
  unfold execBall; simp [h]

@[simp] theorem keeps_waitToken {s : State} (h : Memory.wf s.mem.bytes = true) (b : Blocked) :
    Keeps (waitToken b s) := by
  unfold waitToken; simp [h]

@[simp] theorem keeps_execBdiv {s : State} (h : Memory.wf s.mem.bytes = true) (mk : MReg) (c : Bool) (off : Fin 1048576) :
    Keeps (execBdiv mk c off s) := by
  unfold execBdiv; dsimp only; (repeat' split) <;> simp [h]

@[simp] theorem keeps_execJoin {s : State} (h : Memory.wf s.mem.bytes = true) (off : Fin 1048576) :
    Keeps (execJoin off s) := by
  unfold execJoin; split <;> simp [h]

@[simp] theorem keeps_execCall {s : State} (h : Memory.wf s.mem.bytes = true) (off : Fin 1048576) :
    Keeps (execCall off s) := by
  unfold execCall; split <;> simp [h]

@[simp] theorem canonical_rejoinFault {s : State} (h : Memory.wf s.mem.bytes = true) (cause : ℕ) :
    Memory.wf (State.rejoinFault s cause).mem.bytes = true := by
  unfold State.rejoinFault; simp [h]

@[simp] theorem keeps_execBrk {s : State} (h : Memory.wf s.mem.bytes = true) (mk : MReg) (c : Bool) (off : Fin 1048576) :
    Keeps (execBrk mk c off s) := by
  unfold execBrk; dsimp only; (repeat' split) <;> simp [h]

@[simp] theorem keeps_execRet {s : State} (h : Memory.wf s.mem.bytes = true) : Keeps (execRet s) := by unfold execRet; split <;> simp [h]
@[simp] theorem keeps_execExit {s : State} (h : Memory.wf s.mem.bytes = true) : Keeps (execExit s) := by unfold execExit; simp [h]
@[simp] theorem keeps_execMand {s : State} (h : Memory.wf s.mem.bytes = true) (d : MReg) (a : MReg) (b : MReg) :
    Keeps (execMand d a b s) := by
  unfold execMand; simp [h]

@[simp] theorem keeps_execMor {s : State} (h : Memory.wf s.mem.bytes = true) (d : MReg) (a : MReg) (b : MReg) :
    Keeps (execMor d a b s) := by
  unfold execMor; simp [h]

@[simp] theorem keeps_execMxor {s : State} (h : Memory.wf s.mem.bytes = true) (d : MReg) (a : MReg) (b : MReg) :
    Keeps (execMxor d a b s) := by
  unfold execMxor; simp [h]

@[simp] theorem keeps_execMandn {s : State} (h : Memory.wf s.mem.bytes = true) (d : MReg) (a : MReg) (b : MReg) :
    Keeps (execMandn d a b s) := by
  unfold execMandn; simp [h]

@[simp] theorem keeps_execMfrom {s : State} (h : Memory.wf s.mem.bytes = true) (d : MReg) :
    Keeps (execMfrom d s) := by
  unfold execMfrom; simp [h]

@[simp] theorem keeps_execMto {s : State} (h : Memory.wf s.mem.bytes = true) (d : MReg) (a : MReg) :
    Keeps (execMto d a s) := by
  unfold execMto; simp [h]

@[simp] theorem keeps_execClauseGrant {s : State} (h : Memory.wf s.mem.bytes = true) (core : ℕ) (slot : ℕ) :
    Keeps (execClauseGrant core slot s) := by
  unfold execClauseGrant; simp [h]

@[simp] theorem keeps_execRankAging {s : State} (h : Memory.wf s.mem.bytes = true) (core : ℕ) (wslot : ℕ) :
    Keeps (execRankAging core wslot s) := by
  unfold execRankAging; simp [h]

/-! ### Machine/Memory.lean -/

@[simp] theorem bytes_globalEffect (s : State) (kind : ReqKind) (acc : List Acc) (w : ℕ) (vd : ℕ) (sc : ℕ) (ord : ℕ) (n : ℕ) (data : ℕ →
    ℕ) :
    (globalEffect s kind acc w vd sc ord n data).mem.bytes = s.mem.bytes := by
  unfold globalEffect; simp

@[simp] theorem keeps_globalWord {s : State} (h : Memory.wf s.mem.bytes = true) (kind : ReqKind) (w : ℕ) (need : ℕ) (vd : ℕ) (regs :
    List ℕ) (data : List ℕ) (sb : SReg) (vo : VReg) (disp : ℤ) (sc : ℕ) (ord : ℕ) (n : ℕ) (dataOf : ℕ → ℕ) :
    Keeps (globalWord s kind w need vd regs data sb vo disp sc ord n dataOf) := by
  unfold globalWord; (repeat' split) <;> simp [h]

@[simp] theorem keeps_globalLoad {s : State} (h : Memory.wf s.mem.bytes = true) (sgn : Bool) (w : ℕ) (d : VReg) (sb : SReg) (vo : VReg)
    (sc : Fin 8) (x : Option Word) :
    Keeps (globalLoad s sgn w d sb vo sc x) := by
  unfold globalLoad; simp [h]

@[simp] theorem keeps_globalStore {s : State} (h : Memory.wf s.mem.bytes = true) (w : ℕ) (d : VReg) (sb : SReg) (vo : VReg) (sc : Fin 8)
    (x : Option Word) :
    Keeps (globalStore s w d sb vo sc x) := by
  unfold globalStore; simp [h]

@[simp] theorem keeps_execLdN8 {s : State} (h : Memory.wf s.mem.bytes = true) (d : VReg) (sb : SReg) (vo : VReg) (sc : Fin 8) (x :
    Option Word) :
    Keeps (execLdN8 d sb vo sc x s) := by
  unfold execLdN8; simp [h]

@[simp] theorem keeps_execLdI8 {s : State} (h : Memory.wf s.mem.bytes = true) (d : VReg) (sb : SReg) (vo : VReg) (sc : Fin 8) (x :
    Option Word) :
    Keeps (execLdI8 d sb vo sc x s) := by
  unfold execLdI8; simp [h]

@[simp] theorem keeps_execLdN16 {s : State} (h : Memory.wf s.mem.bytes = true) (d : VReg) (sb : SReg) (vo : VReg) (sc : Fin 8) (x :
    Option Word) :
    Keeps (execLdN16 d sb vo sc x s) := by
  unfold execLdN16; simp [h]

@[simp] theorem keeps_execLdI16 {s : State} (h : Memory.wf s.mem.bytes = true) (d : VReg) (sb : SReg) (vo : VReg) (sc : Fin 8) (x :
    Option Word) :
    Keeps (execLdI16 d sb vo sc x s) := by
  unfold execLdI16; simp [h]

@[simp] theorem keeps_execLdB32 {s : State} (h : Memory.wf s.mem.bytes = true) (d : VReg) (sb : SReg) (vo : VReg) (sc : Fin 8) (x :
    Option Word) :
    Keeps (execLdB32 d sb vo sc x s) := by
  unfold execLdB32; simp [h]

@[simp] theorem keeps_execLdB64 {s : State} (h : Memory.wf s.mem.bytes = true) (d : VReg) (sb : SReg) (vo : VReg) (sc : Fin 8) (x :
    Option Word) :
    Keeps (execLdB64 d sb vo sc x s) := by
  unfold execLdB64; simp [h]

@[simp] theorem keeps_execLdB128 {s : State} (h : Memory.wf s.mem.bytes = true) (d : VReg) (sb : SReg) (vo : VReg) (sc : Fin 8) (x :
    Option Word) :
    Keeps (execLdB128 d sb vo sc x s) := by
  unfold execLdB128; simp [h]

@[simp] theorem keeps_execStB8 {s : State} (h : Memory.wf s.mem.bytes = true) (d : VReg) (sb : SReg) (vo : VReg) (sc : Fin 8) (x :
    Option Word) :
    Keeps (execStB8 d sb vo sc x s) := by
  unfold execStB8; simp [h]

@[simp] theorem keeps_execStB16 {s : State} (h : Memory.wf s.mem.bytes = true) (d : VReg) (sb : SReg) (vo : VReg) (sc : Fin 8) (x :
    Option Word) :
    Keeps (execStB16 d sb vo sc x s) := by
  unfold execStB16; simp [h]

@[simp] theorem keeps_execStB32 {s : State} (h : Memory.wf s.mem.bytes = true) (d : VReg) (sb : SReg) (vo : VReg) (sc : Fin 8) (x :
    Option Word) :
    Keeps (execStB32 d sb vo sc x s) := by
  unfold execStB32; simp [h]

@[simp] theorem keeps_execStB64 {s : State} (h : Memory.wf s.mem.bytes = true) (d : VReg) (sb : SReg) (vo : VReg) (sc : Fin 8) (x :
    Option Word) :
    Keeps (execStB64 d sb vo sc x s) := by
  unfold execStB64; simp [h]

@[simp] theorem keeps_execStB128 {s : State} (h : Memory.wf s.mem.bytes = true) (d : VReg) (sb : SReg) (vo : VReg) (sc : Fin 8) (x :
    Option Word) :
    Keeps (execStB128 d sb vo sc x s) := by
  unfold execStB128; simp [h]

@[simp] theorem keeps_localWord {s : State} (h : Memory.wf s.mem.bytes = true) (kind : ReqKind) (w : ℕ) (vd : ℕ) (vo : VReg) (lv :
    Level) (lit : Word) (disp : Word) (n : ℕ) :
    Keeps (localWord s kind w vd vo lv lit disp n) := by
  unfold localWord; (repeat' split) <;> simp [h]

@[simp] theorem keeps_execLdLane {s : State} (h : Memory.wf s.mem.bytes = true) (d : VReg) (vo : VReg) (wd : Fin 8) (x : Option Word) :
    Keeps (execLdLane d vo wd x s) := by
  unfold execLdLane; simp [h]

@[simp] theorem keeps_execStLane {s : State} (h : Memory.wf s.mem.bytes = true) (d : VReg) (vo : VReg) (wd : Fin 8) (x : Option Word) :
    Keeps (execStLane d vo wd x s) := by
  unfold execStLane; simp [h]

@[simp] theorem keeps_execLdSp {s : State} (h : Memory.wf s.mem.bytes = true) (d : VReg) (vo : VReg) (wd : Fin 8) (x : Option Word) :
    Keeps (execLdSp d vo wd x s) := by
  unfold execLdSp; simp [h]

@[simp] theorem keeps_execStSp {s : State} (h : Memory.wf s.mem.bytes = true) (d : VReg) (vo : VReg) (wd : Fin 8) (x : Option Word) :
    Keeps (execStSp d vo wd x s) := by
  unfold execStSp; simp [h]

@[simp] theorem keeps_execLdCm {s : State} (h : Memory.wf s.mem.bytes = true) (d : VReg) (vo : VReg) (wd : Fin 8) (x : Option Word) :
    Keeps (execLdCm d vo wd x s) := by
  unfold execLdCm; simp [h]

@[simp] theorem keeps_execStCm {s : State} (h : Memory.wf s.mem.bytes = true) (d : VReg) (vo : VReg) (wd : Fin 8) (x : Option Word) :
    Keeps (execStCm d vo wd x s) := by
  unfold execStCm; simp [h]

@[simp] theorem keeps_execLdCst {s : State} (h : Memory.wf s.mem.bytes = true) (d : VReg) (vo : VReg) (wd : Fin 8) (x : Option Word) :
    Keeps (execLdCst d vo wd x s) := by
  unfold execLdCst; simp [h]

@[simp] theorem keeps_execStCst {s : State} (h : Memory.wf s.mem.bytes = true) (d : VReg) (vo : VReg) (wd : Fin 8) (x : Option Word) :
    Keeps (execStCst d vo wd x s) := by
  unfold execStCst; simp [h]

@[simp] theorem keeps_scalarWord {s : State} (h : Memory.wf s.mem.bytes = true) (kind : ReqKind) (need : ℕ) (vd : ℕ) (sb : SReg) (sc :
    Fin 8) (x : Option Word) (data : ℕ) :
    Keeps (scalarWord s kind need vd sb sc x data) := by
  unfold scalarWord; split <;> simp [h]

@[simp] theorem keeps_execSldB32 {s : State} (h : Memory.wf s.mem.bytes = true) (d : SReg) (sb : SReg) (sc : Fin 8) (x : Option Word) :
    Keeps (execSldB32 d sb sc x s) := by
  unfold execSldB32; simp [h]

@[simp] theorem keeps_execSstB32 {s : State} (h : Memory.wf s.mem.bytes = true) (d : SReg) (sb : SReg) (sc : Fin 8) (x : Option Word) :
    Keeps (execSstB32 d sb sc x s) := by
  unfold execSstB32; simp [h]

@[simp] theorem canonical_prefetchSector {s : State} (h : Memory.wf s.mem.bytes = true) (core : Nat) (d : Desc) (sec : Nat) :
    Memory.wf (prefetchSector s core d sec).mem.bytes = true := by
  unfold prefetchSector
  dsimp only
  split
  · exact h
  split
  · rename_i hw
    split at hw
    · exact canonical_memWait h hw
    · cases hw
  · simp [h]

@[simp] theorem canonical_prefetchLane {s : State} (h : Memory.wf s.mem.bytes = true) (core ctx va : Nat) :
    Memory.wf (prefetchLane s core ctx va).mem.bytes = true := by
  unfold prefetchLane
  split
  · dsimp only
    split
    · exact h
    split
    · exact canonical_foldl (fun _ _ hs => canonical_prefetchSector hs ..) _ h
    · exact h
  · exact h

@[simp] theorem keeps_execPf {s : State} (h : Memory.wf s.mem.bytes = true) (sb : SReg) (vo : VReg) (sc : Fin 8) (x : Option Word) :
    Keeps (execPf sb vo sc x s) := by
  unfold execPf; dsimp only; (repeat' split) <;> simp +contextual [h]

@[simp] theorem keeps_execCinv {s : State} (h : Memory.wf s.mem.bytes = true) (sb : SReg) (vo : VReg) (x : Option Word) :
    Keeps (execCinv sb vo x s) := by
  unfold execCinv
  dsimp only
  split
  · simp [h]
  split
  · simp [h]
  · rw [keeps_next, bytes_advance, bytes_foldl]
    · exact h
    · intro s x; split <;> simp

/-! ### Machine/Atomics.lean -/

@[simp] theorem bytes_setPart (s : State) (id : ℕ) (p : Part) :
    (setPart s id p).mem.bytes = s.mem.bytes := by
  unfold setPart; split <;> simp

@[simp] theorem canonical_performOwned {s : State} (h : Memory.wf s.mem.bytes = true) (id : ℕ) (r : Req) (p : Part) (op : ℕ) :
    Memory.wf (performOwned s id r p op).mem.bytes = true := by
  unfold performOwned; dsimp only; (repeat' split) <;> simp [h]

theorem canonical_ownedWait {s u : State} (hs : Memory.wf s.mem.bytes = true) {r : Req} {p : Part} (h : ownedWait s r p = some u) :
    Memory.wf u.mem.bytes = true := by
  unfold ownedWait at h
  split at h
  · extract_lets port at h
    split at h
    · cases h; exact hs
    · obtain ⟨i, -, hi⟩ := List.exists_of_findSome?_eq_some h
      split at hi
      · cases hi
      · exact canonical_memWait hs hi
  · cases h

@[simp] theorem canonical_performAtoms {s : State} (h : Memory.wf s.mem.bytes = true) (id : ℕ) (r : Req) (only : Option ℕ) :
    Memory.wf (performAtoms s id r only).mem.bytes = true := by
  unfold performAtoms
  split
  · exact h
  split
  · exact h
  extract_lets mine ready u order
  have hu : Memory.wf u.mem.bytes = true := canonical_foldl (fun s p hs => by
    cases hw : ownedWait s r p with
    | none => exact hs
    | some v => exact canonical_ownedWait hs hw) _ h
  exact canonical_foldl (fun s p hs => canonical_performOwned hs ..) _ hu

@[simp] theorem canonical_performAtom {s : State} (h : Memory.wf s.mem.bytes = true) (id : ℕ) (r : Req) (p : Part) :
    Memory.wf (performAtom s id r p).mem.bytes = true := by
  unfold performAtom
  split
  · exact h
  split
  · split
    · next hw => exact canonical_ownedWait h hw
    · exact canonical_performOwned h ..
  · exact h

@[simp] theorem canonical_surrender {s : State} (h : Memory.wf s.mem.bytes = true) (line : ℕ) :
    Memory.wf (surrender s line).mem.bytes = true :=
  by
  unfold surrender
  extract_lets o u
  have hu : Memory.wf u.mem.bytes = true := canonical_foldl (fun s id hs => by (repeat' split) <;> simp [hs]) _ h
  split
  · exact h
  split
  · exact hu
  · exact (congrArg Memory.wf (bytes_dropOwner ..)).trans hu

@[simp] theorem bytes_dirEvict (k : ℕ) (s : State) (slice : ℕ) (new : List DirEntry) :
    (dirEvict k s slice new).mem.bytes = s.mem.bytes :=
  by
  induction k generalizing s with
  | zero => rfl
  | succ k ih =>
    rw [dirEvict]
    dsimp only
    (repeat' split) <;> simp [ih]

@[simp] theorem bytes_dirTake (s : State) (core : ℕ) (line : ℕ) : (dirTake s core line).mem.bytes = s.mem.bytes := by unfold dirTake; simp
@[simp] theorem keeps_execOwnershipRequest {s : State} (h : Memory.wf s.mem.bytes = true) (core : ℕ) (line : ℕ) :
    Keeps (execOwnershipRequest core line s) := by
  unfold execOwnershipRequest; dsimp only; (repeat' split) <;> simp [h]

@[simp] theorem keeps_execRecallLine {s : State} (h : Memory.wf s.mem.bytes = true) (line : ℕ) :
    Keeps (execRecallLine line s) := by
  unfold execRecallLine; simp [h]

@[simp] theorem keeps_execLineSurrender {s : State} (h : Memory.wf s.mem.bytes = true) (line : ℕ) :
    Keeps (execLineSurrender line s) := by
  unfold execLineSurrender; split <;> simp [h]

@[simp] theorem keeps_execDirectoryMerge {s : State} (h : Memory.wf s.mem.bytes = true) (slice : ℕ) (base : ℕ) (size : ℕ) :
    Keeps (execDirectoryMerge slice base size s) := by
  unfold execDirectoryMerge; dsimp only; (repeat' split) <;> simp [h]

@[simp] theorem keeps_execL1Eviction {s : State} (h : Memory.wf s.mem.bytes = true) (core : ℕ) (line : ℕ) :
    Keeps (execL1Eviction core line s) := by
  unfold execL1Eviction; dsimp only; (repeat' split) <;> simp [h]

@[simp] theorem keeps_execCxlCacheResponse {s : State} (h : Memory.wf s.mem.bytes = true) (line : ℕ) (exclusive : Bool) :
    Keeps (execCxlCacheResponse line exclusive s) := by
  unfold execCxlCacheResponse; split <;> simp [h]

@[simp] theorem canonical_flushSector {s : State} (h : Memory.wf s.mem.bytes = true) (d : Desc) (sec : ℕ) :
    Memory.wf (flushSector s d sec).mem.bytes = true := by
  unfold flushSector; dsimp only; (repeat' split) <;> simp +contextual [h]

@[simp] theorem canonical_flushLine {s : State} (h : Memory.wf s.mem.bytes = true) (line : ℕ) (write : Bool) :
    Memory.wf (flushLine s line write).mem.bytes = true := by
  unfold flushLine
  extract_lets k u
  change Memory.wf u.mem.bytes = true
  unfold u
  split
  · refine canonical_foldl (fun s w hs => ?_) _ h
    split
    · exact canonical_foldl (fun s i hs => canonical_flushSector hs ..) _ hs
    · simp [hs]
    · exact hs
  · exact h

@[simp] theorem bytes_lineMoesi (s : State) (line : ℕ) (n : ℕ) : (lineMoesi s line n).mem.bytes = s.mem.bytes := rfl
@[simp] theorem keeps_execSnpdata {s : State} (h : Memory.wf s.mem.bytes = true) (line : ℕ) :
    Keeps (execSnpdata line s) := by
  unfold execSnpdata; dsimp only; (repeat' split) <;> simp [h]

@[simp] theorem keeps_execSnpinv {s : State} (h : Memory.wf s.mem.bytes = true) (line : ℕ) :
    Keeps (execSnpinv line s) := by
  unfold execSnpinv; dsimp only; (repeat' split) <;> simp [h]

@[simp] theorem keeps_atomWord {s : State} (h : Memory.wf s.mem.bytes = true) (op : ℕ) (d : VReg) (sb : SReg) (vo : VReg) (sc : Fin 8)
    (x : Option Word) :
    Keeps (atomWord s op d sb vo sc x) := by
  unfold atomWord; dsimp only; (repeat' split) <;> simp [h]

@[simp] theorem keeps_execAtomAddI32 {s : State} (h : Memory.wf s.mem.bytes = true) (d : VReg) (sb : SReg) (vo : VReg) (sc : Fin 8) (x :
    Option Word) :
    Keeps (execAtomAddI32 d sb vo sc x s) := by
  unfold execAtomAddI32; simp [h]

@[simp] theorem keeps_execAtomAddF32 {s : State} (h : Memory.wf s.mem.bytes = true) (d : VReg) (sb : SReg) (vo : VReg) (sc : Fin 8) (x :
    Option Word) :
    Keeps (execAtomAddF32 d sb vo sc x s) := by
  unfold execAtomAddF32; simp [h]

@[simp] theorem keeps_execAtomMinI32 {s : State} (h : Memory.wf s.mem.bytes = true) (d : VReg) (sb : SReg) (vo : VReg) (sc : Fin 8) (x :
    Option Word) :
    Keeps (execAtomMinI32 d sb vo sc x s) := by
  unfold execAtomMinI32; simp [h]

@[simp] theorem keeps_execAtomMaxI32 {s : State} (h : Memory.wf s.mem.bytes = true) (d : VReg) (sb : SReg) (vo : VReg) (sc : Fin 8) (x :
    Option Word) :
    Keeps (execAtomMaxI32 d sb vo sc x s) := by
  unfold execAtomMaxI32; simp [h]

@[simp] theorem keeps_execAtomMinN32 {s : State} (h : Memory.wf s.mem.bytes = true) (d : VReg) (sb : SReg) (vo : VReg) (sc : Fin 8) (x :
    Option Word) :
    Keeps (execAtomMinN32 d sb vo sc x s) := by
  unfold execAtomMinN32; simp [h]

@[simp] theorem keeps_execAtomMaxN32 {s : State} (h : Memory.wf s.mem.bytes = true) (d : VReg) (sb : SReg) (vo : VReg) (sc : Fin 8) (x :
    Option Word) :
    Keeps (execAtomMaxN32 d sb vo sc x s) := by
  unfold execAtomMaxN32; simp [h]

@[simp] theorem keeps_execAtomAndB32 {s : State} (h : Memory.wf s.mem.bytes = true) (d : VReg) (sb : SReg) (vo : VReg) (sc : Fin 8) (x :
    Option Word) :
    Keeps (execAtomAndB32 d sb vo sc x s) := by
  unfold execAtomAndB32; simp [h]

@[simp] theorem keeps_execAtomOrB32 {s : State} (h : Memory.wf s.mem.bytes = true) (d : VReg) (sb : SReg) (vo : VReg) (sc : Fin 8) (x :
    Option Word) :
    Keeps (execAtomOrB32 d sb vo sc x s) := by
  unfold execAtomOrB32; simp [h]

@[simp] theorem keeps_execAtomXchgB32 {s : State} (h : Memory.wf s.mem.bytes = true) (d : VReg) (sb : SReg) (vo : VReg) (sc : Fin 8) (x
    : Option Word) :
    Keeps (execAtomXchgB32 d sb vo sc x s) := by
  unfold execAtomXchgB32; simp [h]

@[simp] theorem keeps_execAtomCasB32 {s : State} (h : Memory.wf s.mem.bytes = true) (d : VReg) (sb : SReg) (vo : VReg) (sc : Fin 8) (x :
    Option Word) :
    Keeps (execAtomCasB32 d sb vo sc x s) := by
  unfold execAtomCasB32; simp [h]

@[simp] theorem keeps_execAtomAddI64 {s : State} (h : Memory.wf s.mem.bytes = true) (d : VReg) (sb : SReg) (vo : VReg) (sc : Fin 8) (x :
    Option Word) :
    Keeps (execAtomAddI64 d sb vo sc x s) := by
  unfold execAtomAddI64; simp [h]

@[simp] theorem keeps_execAtomXchgB64 {s : State} (h : Memory.wf s.mem.bytes = true) (d : VReg) (sb : SReg) (vo : VReg) (sc : Fin 8) (x
    : Option Word) :
    Keeps (execAtomXchgB64 d sb vo sc x s) := by
  unfold execAtomXchgB64; simp [h]

@[simp] theorem keeps_execAtomCasB64 {s : State} (h : Memory.wf s.mem.bytes = true) (d : VReg) (sb : SReg) (vo : VReg) (sc : Fin 8) (x :
    Option Word) :
    Keeps (execAtomCasB64 d sb vo sc x s) := by
  unfold execAtomCasB64; simp [h]

@[simp] theorem keeps_execAtomCasB128 {s : State} (h : Memory.wf s.mem.bytes = true) (d : VReg) (sb : SReg) (vo : VReg) (sc : Fin 8) (x
    : Option Word) :
    Keeps (execAtomCasB128 d sb vo sc x s) := by
  unfold execAtomCasB128; simp [h]

@[simp] theorem keeps_execBredAddF32 {s : State} (h : Memory.wf s.mem.bytes = true) (d : VReg) (sb : SReg) (vo : VReg) (sc : Fin 8) (x :
    Option Word) :
    Keeps (execBredAddF32 d sb vo sc x s) := by
  unfold execBredAddF32; (repeat' split) <;> simp [h]

@[simp] theorem keeps_execLdBnd {s : State} (h : Memory.wf s.mem.bytes = true) (d : VReg) (sb : SReg) (vo : VReg) (sc : Fin 8) (x :
    Option Word) :
    Keeps (execLdBnd d sb vo sc x s) := by
  unfold execLdBnd; dsimp only; (repeat' split) <;> simp [h]

/-! ### Machine/Barriers.lean -/

@[simp] theorem bytes_acquireAt (s : State) (core : ℕ) (ctx : ℕ) (sc : ℕ) :
    (acquireAt s core ctx sc).mem.bytes = s.mem.bytes := by
  unfold acquireAt; simp

@[simp] theorem bytes_count16 (s : State) (n : ℕ) :
    (State.count16 s n).2.mem.bytes = s.mem.bytes := by
  unfold State.count16; split <;> simp

@[simp] theorem keeps_barWord {s : State} {act : State → ObjRef → BarObj → State} (h : Memory.wf s.mem.bytes = true)
    (ha : ∀ t r o, Memory.wf t.mem.bytes = true → Memory.wf (act t r o).mem.bytes = true) (sb d : SReg) (init enter : Bool) :
    Keeps (barWord s sb d init enter act) := by
  unfold barWord
  dsimp only
  (repeat' split) <;> simp [h, ha]

@[simp] theorem bytes_finishStatus (s : State) (core : ℕ) (wslot : ℕ) (split : ℕ) (d : ℕ) (st : ℕ) :
    (finishStatus s core wslot split d st).mem.bytes = s.mem.bytes :=
  rfl

@[simp] theorem bytes_endBarWait (s : State) (core : ℕ) (wslot : ℕ) (split : ℕ) (r : ObjRef) (p : Word) (d : ℕ) :
    (endBarWait s core wslot split r p d).mem.bytes = s.mem.bytes := by
  delta endBarWait
  exact bytes_ite_of ((bytes_finishStatus ..).trans (bytes_acquireAt ..)) (bytes_ite_of (bytes_finishStatus ..) rfl)

@[simp] theorem bytes_abandonWaiters (s : State) (r : ObjRef) : (abandonWaiters s r).mem.bytes = s.mem.bytes :=
  bytes_foldl (fun s k => bytes_foldl (fun s i => by
    split
    · (repeat' split) <;> simp
    · rfl) ..) ..

@[simp] theorem bytes_countArrival (s : State) (core : ℕ) (wslot : ℕ) (a : Arrival) :
    (countArrival s core wslot a).mem.bytes = s.mem.bytes := by
  unfold countArrival; simp

@[simp] theorem bytes_arriveOn (s : State) (drop : Bool) (sb : SReg) (sv : SReg) (d : SReg) (r : ObjRef) (o : BarObj) :
    (arriveOn s drop sb sv d r o).mem.bytes = s.mem.bytes := by
  unfold arriveOn; simp

@[simp] theorem keeps_execBarInit {s : State} (h : Memory.wf s.mem.bytes = true) (sb : SReg) (sv : SReg) (d : SReg) (sc : Fin 8) :
    Keeps (execBarInit sb sv d sc s) := by
  unfold execBarInit; simp [h]

@[simp] theorem keeps_execBarArrive {s : State} (h : Memory.wf s.mem.bytes = true) (sb : SReg) (sv : SReg) (d : SReg) :
    Keeps (execBarArrive sb sv d s) := by
  unfold execBarArrive; simp [h]

@[simp] theorem keeps_execBarExpect {s : State} (h : Memory.wf s.mem.bytes = true) (sb : SReg) (sv : SReg) (d : SReg) :
    Keeps (execBarExpect sb sv d s) := by
  unfold execBarExpect; simp [h]

/-- What `bar.wait` does with an object that is in use. -/
def barWaitAct (sv d : SReg) (s : State) (r : ObjRef) (_ : BarObj) : State :=
  let p := s.hwarp.s sv.val
  endBarWait (s.block (.bar r p d.val)) s.hcore s.run.wslot s.run.split r p d.val

theorem bytes_barWaitAct (sv d : SReg) (s : State) (r : ObjRef) (o : BarObj) : (barWaitAct sv d s r o).mem.bytes = s.mem.bytes := by
  delta barWaitAct
  exact (bytes_endBarWait ..).trans (bytes_block ..)

@[simp] theorem keeps_execBarWait {s : State} (h : Memory.wf s.mem.bytes = true) (sb : SReg) (sv : SReg) (d : SReg) :
    Keeps (execBarWait sb sv d s) :=
  keeps_barWord (act := barWaitAct sv d) h (fun t r o ht => (congrArg Memory.wf (bytes_barWaitAct sv d t r o)).trans ht) sb d false true

/-- What `bar.test` does with an object that is in use. -/
def barTestAct (sv d : SReg) (s : State) (_ : ObjRef) (o : BarObj) : State :=
  if passed o.phase (s.hwarp.s sv.val).toNat then (acquireAt s s.hcore s.hwarp.ctx o.scope).status d o.erStatus 1
  else s.status d 3 1

theorem bytes_barTestAct (sv d : SReg) (s : State) (r : ObjRef) (o : BarObj) : (barTestAct sv d s r o).mem.bytes = s.mem.bytes := by
  delta barTestAct
  exact bytes_ite_of ((bytes_status ..).trans (bytes_acquireAt ..)) (bytes_status ..)

@[simp] theorem keeps_execBarTest {s : State} (h : Memory.wf s.mem.bytes = true) (sb : SReg) (sv : SReg) (d : SReg) :
    Keeps (execBarTest sb sv d s) :=
  keeps_barWord (act := barTestAct sv d) h (fun t r o ht => (congrArg Memory.wf (bytes_barTestAct sv d t r o)).trans ht) sb d false true

@[simp] theorem keeps_execBarDrop {s : State} (h : Memory.wf s.mem.bytes = true) (sb : SReg) (d : SReg) :
    Keeps (execBarDrop sb d s) := by
  unfold execBarDrop; simp [h]

@[simp] theorem canonical_countDone {s : State} (h : Memory.wf s.mem.bytes = true) (core : ℕ) (wslot : ℕ) (a : WDone) :
    Memory.wf (countDone s core wslot a).mem.bytes = true := by
  unfold countDone; dsimp only; (repeat' split) <;> simp [h]

@[simp] theorem canonical_serveDone {s : State} (h : Memory.wf s.mem.bytes = true) (core : ℕ) (wslot : ℕ) :
    Memory.wf (serveDone s core wslot).mem.bytes = true := by
  unfold serveDone; split <;> simp [h]

@[simp] theorem keeps_execArrivalCounted {s : State} (h : Memory.wf s.mem.bytes = true) (core : ℕ) (wslot : ℕ) :
    Keeps (execArrivalCounted core wslot s) := by
  unfold execArrivalCounted; (repeat' split) <;> simp [h]

@[simp] theorem canonical_faultBlocked {s : State} (h : Memory.wf s.mem.bytes = true) (core : ℕ) (wslot : ℕ) (split : ℕ) (f : FaultInfo)
    :
    Memory.wf (faultBlocked s core wslot split f).mem.bytes = true := by
  unfold faultBlocked; simp [h]

@[simp] theorem canonical_endWait {s : State} (h : Memory.wf s.mem.bytes = true) (core : ℕ) (wslot : ℕ) (split : ℕ) (ld : ℕ) (st : ℕ)
    (cp : ℕ) (tl : ℕ) (rm : ℕ) (sc : ℕ) :
    Memory.wf (endWait s core wslot split ld st cp tl rm sc).mem.bytes = true := by
  unfold endWait; dsimp only; (repeat' split) <;> simp [h]

@[simp] theorem bytes_endBdrain (s : State) (core : ℕ) (wslot : ℕ) (split : ℕ) (sc : ℕ) :
    (endBdrain s core wslot split sc).mem.bytes = s.mem.bytes := by
  unfold endBdrain; simp

@[simp] theorem keeps_execWait {s : State} (h : Memory.wf s.mem.bytes = true) (ld : Fin 32) (st : Fin 32) (cp : Fin 8) (tl : Fin 8) (rm
    : Fin 8) (sc : Fin 8) :
    Keeps (execWait ld st cp tl rm sc s) := by
  unfold execWait; simp [h]

@[simp] theorem keeps_execBdrain {s : State} (h : Memory.wf s.mem.bytes = true) (sc : Fin 8) :
    Keeps (execBdrain sc s) := by
  unfold execBdrain; simp [h]

/-! ### Machine/MemDone.lean -/

@[simp] theorem bytes_refill (s : State) (r : Req) (p : Part) :
    (refill s r p).mem.bytes = s.mem.bytes := by
  unfold refill; (repeat' split) <;> simp

@[simp] theorem bytes_completeLoad (s : State) (id : ℕ) (r : Req) :
    (completeLoad s id r).mem.bytes = s.mem.bytes := by
  unfold completeLoad; simp

@[simp] theorem canonical_landLane {s : State} (h : Memory.wf s.mem.bytes = true) (id : ℕ) (lane : ℕ) (byte : ℕ) :
    Memory.wf (landLane s id lane byte).mem.bytes = true := by
  unfold landLane; (repeat' split) <;> simp [h]

@[simp] theorem bytes_completeBnd (s : State) (id : ℕ) (r : Req) :
    (completeBnd s id r).mem.bytes = s.mem.bytes := by
  unfold completeBnd; simp

@[simp] theorem bytes_waitLines (s : State) (id : ℕ) (r : Req) : (waitLines s id r).mem.bytes = s.mem.bytes := by
  unfold waitLines
  split
  · rfl
  · exact bytes_foldl (fun s p => by split <;> simp) ..

@[simp] theorem canonical_completeAtomic {s : State} (h : Memory.wf s.mem.bytes = true) (id : ℕ) (r : Req) :
    Memory.wf (completeAtomic s id r).mem.bytes = true := by
  unfold completeAtomic; dsimp only; (repeat' split) <;> simp [h]

@[simp] theorem keeps_execLoadComplete {s : State} (h : Memory.wf s.mem.bytes = true) (req : ℕ) :
    Keeps (execLoadComplete req s) := by
  unfold execLoadComplete; (repeat' split) <;> simp [h]

@[simp] theorem bytes_enqueueStore (s : State) (id : ℕ) (r : Req) : (enqueueStore s id r).mem.bytes = s.mem.bytes := by
  unfold enqueueStore
  dsimp only
  split
  · rfl
  · exact bytes_foldl (fun _ _ => by simp) ..

@[simp] theorem canonical_applyPart {s : State} (h : Memory.wf s.mem.bytes = true) (id : ℕ) (r : Req) (p : Part) (bad : Bool) :
    Memory.wf (applyPart s id r p bad).mem.bytes = true := by
  unfold applyPart; split <;> simp [h]

@[simp] theorem bytes_settleStore (s : State) (id : ℕ) :
    (settleStore s id).mem.bytes = s.mem.bytes := by
  unfold settleStore; split <;> simp

@[simp] theorem canonical_applySector {s : State} (h : Memory.wf s.mem.bytes = true) (id : ℕ) (sector : ℕ) (r : Req) :
    Memory.wf (applySector s id sector r).mem.bytes = true := by
  unfold applySector
  extract_lets parts lines
  split
  · exact h
  split
  · exact canonical_foldl (fun s l hs => by (repeat' split) <;> simp [hs]) _ h
  split
  · exact h
  rw [bytes_settleStore]
  refine canonical_foldl (fun s p hs => canonical_applyPart hs ..) _ (canonical_foldl (fun s p hs => ?_) _
    (canonical_foldl (fun s l hs => by simp [hs]) _ h))
  split
  · exact canonical_foldl (fun s l hs => canonical_drainLine hs ..) _ hs
  · exact hs

@[simp] theorem keeps_execWriteThroughApply {s : State} (h : Memory.wf s.mem.bytes = true) (req : ℕ) (sector : ℕ) :
    Keeps (execWriteThroughApply req sector s) := by
  unfold execWriteThroughApply; dsimp only; (repeat' split) <;> simp [h]

@[simp] theorem bytes_fallStore (s : State) (id : ℕ) (r : Req) : (fallStore s id r).mem.bytes = s.mem.bytes := by unfold fallStore; simp
@[simp] theorem bytes_completeStore (s : State) (id : ℕ) (r : Req) :
    (completeStore s id r).mem.bytes = s.mem.bytes := by
  unfold completeStore; dsimp only; (repeat' split) <;> simp

@[simp] theorem bytes_localRest (s : State) (id : ℕ) (r : Req) (p : Part) :
    (localRest s id r p).mem.bytes = s.mem.bytes := by
  unfold localRest; simp

@[simp] theorem bytes_completeLocal (s : State) (id : ℕ) (r : Req) :
    (completeLocal s id r).mem.bytes = s.mem.bytes := by
  unfold completeLocal; simp

@[simp] theorem canonical_completeBred {s : State} (h : Memory.wf s.mem.bytes = true) (id : ℕ) (r : Req) :
    Memory.wf (completeBred s id r).mem.bytes = true := by
  unfold completeBred; dsimp only; (repeat' split) <;> simp [h]

@[simp] theorem keeps_execStoreComplete {s : State} (h : Memory.wf s.mem.bytes = true) (req : ℕ) :
    Keeps (execStoreComplete req s) := by
  unfold execStoreComplete; (repeat' split) <;> simp [h]

@[simp] theorem keeps_execEcbWalk {s : State} (h : Memory.wf s.mem.bytes = true) (core : ℕ) (ctx : ℕ) (va : ℕ) :
    Keeps (execEcbWalk core ctx va s) := by
  unfold execEcbWalk; split <;> simp [h]

/-! ### Machine/Ports.lean -/

@[simp] theorem canonical_translateSector {s : State} (h : Memory.wf s.mem.bytes = true) (r : Req) (id : ℕ) (sector : ℕ) (d : Desc) :
    Memory.wf (translateSector s r id sector d).mem.bytes = true := by
  unfold translateSector; dsimp only; (repeat' split) <;> simp [h]

@[simp] theorem bytes_clearWhole (s : State) (pas : List ℕ) : (clearWhole s pas).mem.bytes = s.mem.bytes := by unfold clearWhole; simp
@[simp] theorem bytes_portTurn (s : State) (d : Desc) (parts : List Part) :
    (portTurn s d parts).2.mem.bytes = s.mem.bytes := by
  unfold portTurn; split <;> simp

@[simp] theorem canonical_performParts {s : State} (h : Memory.wf s.mem.bytes = true) (id : ℕ) (r : Req) (sector : ℕ) (d : Desc) (pa : ℕ)
    (parts : List Part) : Memory.wf (performParts s id r sector d pa parts).mem.bytes = true := by
  unfold performParts
  extract_lets port start s1 pas bad atom s2 order s3 s4 s5
  have h1 : Memory.wf s1.mem.bytes = true := canonical_foldl (fun s l hs => by simp [hs]) _ h
  have h2 : Memory.wf s2.mem.bytes = true := by
    unfold s2
    split
    · exact (congrArg Memory.wf (bytes_clearWhole ..)).trans h1
    · exact h1
  have h3 : Memory.wf s3.mem.bytes = true := by
    unfold s3
    split
    · exact h2
    · exact h2
  have h4 : Memory.wf s4.mem.bytes = true := by
    refine canonical_foldl (fun s p hs => (congrArg Memory.wf (bytes_setPart ..)).trans ?_) _ h3
    split
    · exact canonical_foldl (fun s b hs => canonical_pwrite hs ..) _ hs
    · exact hs
  have h5 : Memory.wf s5.mem.bytes = true := by
    unfold s5
    split
    · exact h4
    · exact canonical_foldl (fun s x hs => (congrArg Memory.wf (bytes_fillL1 ..)).trans hs) _ h4
  split
  · split
    · exact (congrArg Memory.wf (bytes_setReq ..)).trans h5
    · exact h5
  · exact h5

@[simp] theorem canonical_performSector {s : State} (h : Memory.wf s.mem.bytes = true) (id : ℕ) (r : Req) (sector : ℕ) (d : Desc) (pa : ℕ) :
    Memory.wf (performSector s id r sector d pa).mem.bytes = true := by
  unfold performSector
  have ht := bytes_portTurn s d (extentParts r sector d)
  generalize portTurn s d (extentParts r sector d) = x at ht ⊢
  obtain ⟨parts, u⟩ := x
  extract_lets port
  dsimp only
  split
  · exact h
  split
  · exact canonical_foldl (fun s l hs => by (repeat' split) <;> simp [hs]) _ h
  · exact canonical_performParts ((congrArg Memory.wf ht).trans h) ..

@[simp] theorem canonical_moveExtent {s : State} (h : Memory.wf s.mem.bytes = true) (id : ℕ) (sector : ℕ) (r : Req) (d : Desc) :
    Memory.wf (moveExtent s id sector r d).mem.bytes = true := by
  unfold moveExtent; split <;> simp [h]

@[simp] theorem canonical_moveSector {s : State} (h : Memory.wf s.mem.bytes = true) (id : ℕ) (sector : ℕ) (r : Req) :
    Memory.wf (moveSector s id sector r).mem.bytes = true := by
  refine canonical_foldl (fun s w hs => ?_) _ h
  split
  · exact canonical_moveExtent hs ..
  · exact canonical_deviceError hs
  · exact hs

@[simp] theorem canonical_writebackSector {s : State} (h : Memory.wf s.mem.bytes = true) (d : Desc) (sec : ℕ) :
    Memory.wf (writebackSector s d sec).mem.bytes = true := by
  unfold writebackSector; dsimp only; (repeat' split) <;> simp +contextual [h]

@[simp] theorem bytes_evictLine (s : State) (line : ℕ) : (evictLine s line).mem.bytes = s.mem.bytes := by unfold evictLine; simp
@[simp] theorem canonical_writebackLine {s : State} (h : Memory.wf s.mem.bytes = true) (line : ℕ) :
    Memory.wf (writebackLine s line).mem.bytes = true := by
  unfold writebackLine
  split
  · exact h
  · refine (congrArg Memory.wf (bytes_evictLine ..)).trans (canonical_foldl (fun s w hs => ?_) _ ((congrArg Memory.wf (bytes_dropOwner ..)).trans h))
    split
    · exact canonical_foldl (fun s i hs => canonical_writebackSector hs ..) _ hs
    · exact canonical_deviceError hs
    · exact hs

@[simp] theorem keeps_execPortTranslate {s : State} (h : Memory.wf s.mem.bytes = true) (target : PortTarget) :
    Keeps (execPortTranslate target s) := by
  unfold execPortTranslate; (repeat' split) <;> simp [h]

@[simp] theorem keeps_execPowerDownEntry {s : State} (h : Memory.wf s.mem.bytes = true) (port : ℕ) (pc : ℕ) :
    Keeps (execPowerDownEntry port pc s) := by
  unfold execPowerDownEntry; dsimp only; (repeat' split) <;> simp [h]

@[simp] theorem keeps_execSelfRefreshEntry {s : State} (h : Memory.wf s.mem.bytes = true) (port : ℕ) (pc : ℕ) :
    Keeps (execSelfRefreshEntry port pc s) := by
  unfold execSelfRefreshEntry; dsimp only; (repeat' split) <;> simp [h]

@[simp] theorem keeps_execChannelExit {s : State} (h : Memory.wf s.mem.bytes = true) (port : ℕ) (pc : ℕ) :
    Keeps (execChannelExit port pc s) := by
  unfold execChannelExit; dsimp only; (repeat' split) <;> simp [h]

@[simp] theorem keeps_execHbmThermalBand {s : State} (h : Memory.wf s.mem.bytes = true) (stack : ℕ) (temp : ℕ) :
    Keeps (execHbmThermalBand stack temp s) := by
  unfold execHbmThermalBand; dsimp only; (repeat' split) <;> simp [h]

@[simp] theorem keeps_execScrubRead {s : State} (h : Memory.wf s.mem.bytes = true) (port : ℕ) :
    Keeps (execScrubRead port s) := by
  unfold execScrubRead; dsimp only; (repeat' split) <;> simp [h]

@[simp] theorem keeps_execScrubWrite {s : State} (h : Memory.wf s.mem.bytes = true) (port : ℕ) :
    Keeps (execScrubWrite port s) := by
  unfold execScrubWrite; dsimp only; (repeat' split) <;> simp [h]

@[simp] theorem keeps_execAtomicopCompletion {s : State} (h : Memory.wf s.mem.bytes = true) (req : ℕ) (lane : ℕ) (resp : PcieResp) :
    Keeps (execAtomicopCompletion req lane resp s) := by
  unfold execAtomicopCompletion; dsimp only; (repeat' split) <;> simp [h]

@[simp] theorem keeps_execHostPortDown {s : State} (h : Memory.wf s.mem.bytes = true) (port : ℕ) :
    Keeps (execHostPortDown port s) := by
  unfold execHostPortDown; split <;> simp [h]

@[simp] theorem keeps_execHostPortUp {s : State} (h : Memory.wf s.mem.bytes = true) (port : ℕ) :
    Keeps (execHostPortUp port s) := by
  unfold execHostPortUp; simp [h]

@[simp] theorem keeps_execCxlPortWaitTimeout {s : State} (h : Memory.wf s.mem.bytes = true) (req : ℕ) :
    Keeps (execCxlPortWaitTimeout req s) := by
  unfold execCxlPortWaitTimeout; dsimp only; (repeat' split) <;> simp [h]

/-! ### Machine/Slide.lean -/

@[simp] theorem bytes_acceptSlide (s : State) (d : Desc) (noff : ℕ) (k : ℕ) (op : ℕ) :
    (acceptSlide s d noff k op).mem.bytes = s.mem.bytes :=
  rfl

@[simp] theorem canonical_evacuate {s : State} (h : Memory.wf s.mem.bytes = true) (e : LiveExt) (k : ℕ) :
    Memory.wf (evacuate s e k).mem.bytes = true := by
  unfold evacuate; dsimp only; (repeat' split) <;> simp [h]

@[simp] theorem canonical_evacuateAll {s : State} (h : Memory.wf s.mem.bytes = true) : Memory.wf (evacuateAll s).mem.bytes = true :=
  canonical_foldl (fun _ _ hs => canonical_foldl (fun _ _ hs => by simp [hs]) _ hs) _ h

@[simp] theorem bytes_setSlide (s : State) (l : Slide) : (setSlide s l).mem.bytes = s.mem.bytes := rfl
@[simp] theorem bytes_dropSlide (s : State) (l : Slide) : (dropSlide s l).mem.bytes = s.mem.bytes := rfl
theorem keeps_marrow {s : State} (h : Memory.wf s.mem.bytes = true) (ctx : ℕ) (xid : ℕ) (phase : ℕ) {act : Slide → State}
    (ha : ∀ l, Memory.wf (act l).mem.bytes = true) : Keeps (marrow s ctx xid phase act) := by
  unfold marrow
  split
  · refine keeps_next.2 ?_
    split
    · exact ha _
    · exact h
  · exact keeps_next.2 h

theorem keeps_portTakes {s : State} (h : Memory.wf s.mem.bytes = true) (port ctx xid phase : ℕ) (view : Bool) {after : State → Slide → State}
    (ha : ∀ t l, Memory.wf t.mem.bytes = true → Memory.wf (after t l).mem.bytes = true) : Keeps (portTakes s port ctx xid phase view after) := by
  unfold portTakes
  split
  · next l _ =>
    extract_lets m
    have hl : Memory.wf (setSlide s m).mem.bytes = true := (congrArg Memory.wf (bytes_setSlide ..)).trans h
    split
    · exact keeps_next.2 h
    refine keeps_next.2 ?_
    by_cases hm : m.took.length = 8
    · rw [if_pos hm]; exact ha _ _ hl
    · rw [if_neg hm]; exact hl
  · exact keeps_next.2 h

@[simp] theorem keeps_execSlideStart {s : State} (h : Memory.wf s.mem.bytes = true) (ctx xid : ℕ) : Keeps (execSlideStart ctx xid s) :=
  keeps_marrow h ctx xid 0 fun l => by
    dsimp only
    split
    · exact h
    · exact (congrArg Memory.wf (bytes_setSlide ..)).trans (canonical_pwrite (canonical_patch64 h ..) ..)

@[simp] theorem keeps_execPortSlideBegin {s : State} (h : Memory.wf s.mem.bytes = true) (port ctx xid : ℕ) :
    Keeps (execPortSlideBegin port ctx xid s) :=
  keeps_portTakes h port ctx xid 1 true fun _ _ ht => (congrArg Memory.wf (bytes_setSlide ..)).trans ht

@[simp] theorem canonical_stopSlide {s : State} (h : Memory.wf s.mem.bytes = true) (l : Slide) :
    Memory.wf (stopSlide s l).mem.bytes = true := by
  unfold stopSlide; (repeat' split) <;> simp [h]

@[simp] theorem keeps_execSlideOpen {s : State} (h : Memory.wf s.mem.bytes = true) (ctx xid : ℕ) : Keeps (execSlideOpen ctx xid s) :=
  keeps_marrow h ctx xid 2 fun l => by
    dsimp only
    split
    · exact canonical_stopSlide h _
    · exact canonical_ite_state h ((congrArg Memory.wf (bytes_setSlide ..)).trans h)

@[simp] theorem keeps_execPortOpen {s : State} (h : Memory.wf s.mem.bytes = true) (port : ℕ) (ctx : ℕ) (xid : ℕ) :
    Keeps (execPortOpen port ctx xid s) :=
  by
  unfold execPortOpen
  split
  · split
    · simp [h]
    · refine keeps_next.2 (canonical_foldl (fun s x hs => ?_) _ (by simp [h]))
      split <;> simp [hs]
  · simp [h]

@[simp] theorem keeps_execPortOpenAck {s : State} (h : Memory.wf s.mem.bytes = true) (port : ℕ) (ctx : ℕ) (xid : ℕ) :
    Keeps (execPortOpenAck port ctx xid s) := by
  unfold execPortOpenAck; (repeat' split) <;> simp [h]

@[simp] theorem canonical_copySector {s : State} (h : Memory.wf s.mem.bytes = true) (d : Desc) (o : ℕ) (src : ℕ) (dst : ℕ) (n : ℕ) :
    Memory.wf (copySector s d o src dst n).mem.bytes = true := by
  have ht : Memory.wf (touchChan (touchChan s src) dst).mem.bytes = true := by simp [h]
  unfold copySector
  generalize touchChan (touchChan s src) dst = u at ht ⊢
  extract_lets v w x y
  split
  · have hx : Memory.wf x.mem.bytes = true := ht
    have hy : Memory.wf y.mem.bytes = true := canonical_hostError hx ..
    exact canonical_escalate hy ..
  · have hp := canonical_pwrite ht dst (pread u src n)
    simpa using hp

@[simp] theorem keeps_execSlideCopy {s : State} (h : Memory.wf s.mem.bytes = true) (ctx xid : ℕ) : Keeps (execSlideCopy ctx xid s) :=
  keeps_marrow h ctx xid 3 fun l => by
    extract_lets d w n offs pas u
    have hu : Memory.wf u.mem.bytes = true := canonical_foldl (fun s o hs => canonical_copySector hs ..) _ h
    split
    · exact h
    split
    · exact (congrArg Memory.wf (bytes_foldl (fun s pa => bytes_touchChan ..) ..)).trans h
    · exact (congrArg Memory.wf (bytes_setSlide ..)).trans hu

@[simp] theorem keeps_execSlideAdvance {s : State} (h : Memory.wf s.mem.bytes = true) (ctx xid : ℕ) :
    Keeps (execSlideAdvance ctx xid s) :=
  keeps_marrow h ctx xid 4 fun _ => (congrArg Memory.wf (bytes_setSlide ..)).trans (canonical_patch64 h ..)

@[simp] theorem keeps_execPortAdvance {s : State} (h : Memory.wf s.mem.bytes = true) (port ctx xid : ℕ) :
    Keeps (execPortAdvance port ctx xid s) :=
  keeps_portTakes h port ctx xid 5 true fun _ _ ht => ht

@[simp] theorem keeps_execSlideClose {s : State} (h : Memory.wf s.mem.bytes = true) (ctx xid : ℕ) : Keeps (execSlideClose ctx xid s) :=
  keeps_marrow h ctx xid 5 fun l => by split <;> simp [h]

@[simp] theorem keeps_execPortClose {s : State} (h : Memory.wf s.mem.bytes = true) (port ctx xid : ℕ) :
    Keeps (execPortClose port ctx xid s) :=
  keeps_portTakes h port ctx xid 6 false fun _ _ ht => (congrArg Memory.wf (bytes_setSlide ..)).trans ht

@[simp] theorem keeps_execSlideCommit {s : State} (h : Memory.wf s.mem.bytes = true) (ctx xid : ℕ) : Keeps (execSlideCommit ctx xid s) :=
  keeps_marrow h ctx xid 2 fun l => by
    dsimp only
    exact canonical_ite_state h
      ((congrArg Memory.wf (bytes_setSlide ..)).trans (canonical_pwrite (canonical_pwrite (canonical_patch64 h ..) ..) ..))

@[simp] theorem keeps_execPortCommit {s : State} (h : Memory.wf s.mem.bytes = true) (port ctx xid : ℕ) :
    Keeps (execPortCommit port ctx xid s) :=
  keeps_portTakes h port ctx xid 7 true fun t l ht => by
    have hu : Memory.wf (evacuateAll (dropSlide t l)).mem.bytes = true := canonical_evacuateAll ((congrArg Memory.wf (bytes_dropSlide ..)).trans ht)
    dsimp only
    split
    · exact hu
    split
    · exact (congrArg Memory.wf (bytes_setOp ..)).trans hu
    · exact hu

@[simp] theorem keeps_execSlideAckTimeout {s : State} (h : Memory.wf s.mem.bytes = true) (ctx : ℕ) (xid : ℕ) :
    Keeps (execSlideAckTimeout ctx xid s) := by
  unfold execSlideAckTimeout; dsimp only; (repeat' split) <;> simp [h]

theorem canonical_demoteAll {s t : State} {l : List LiveExt} (hs : Memory.wf s.mem.bytes = true) (h : demoteAll s l = some t) :
    Memory.wf t.mem.bytes = true := by
  induction l generalizing s with
  | nil => cases h; exact hs
  | cons e r ih =>
    simp only [demoteAll] at h
    split at h
    · split at h
      · cases h
      · exact ih (by simp [hs]) h
    · cases h

theorem canonical_roomByDemotion {s t : State} {d : Desc} {done rest : List LiveExt} {noff : Nat} (hs : Memory.wf s.mem.bytes = true)
    (h : roomByDemotion s d done rest = some (noff, t)) : Memory.wf t.mem.bytes = true := by
  induction rest generalizing done with
  | nil =>
    unfold roomByDemotion at h
    split at h
    · simp only [Option.map_eq_some_iff, Prod.mk.injEq] at h
      obtain ⟨u, hu, -, rfl⟩ := h
      exact canonical_demoteAll hs hu
    · cases h
  | cons e r ih =>
    unfold roomByDemotion at h
    split at h
    · simp only [Option.map_eq_some_iff, Prod.mk.injEq] at h
      obtain ⟨u, hu, -, rfl⟩ := h
      exact canonical_demoteAll hs hu
    · exact ih h

@[simp] theorem canonical_promote {s : State} (h : Memory.wf s.mem.bytes = true) (d : Desc) (k op : Nat) (makeRoom : Bool) :
    Memory.wf (promote s d k op makeRoom).2.mem.bytes = true := by
  unfold promote
  split
  · rename_i hr
    have := canonical_roomByDemotion h hr
    split <;> simp [h, this]
  · exact h

@[simp] theorem bytes_demote (s : State) (d : Desc) (part : ℕ) (k : ℕ) (op : ℕ) :
    (demote s d part k op).2.mem.bytes = s.mem.bytes := by
  unfold demote; (repeat' split) <;> simp

@[simp] theorem keeps_execResidencyDemote {s : State} (h : Memory.wf s.mem.bytes = true) (ctx : ℕ) (xid : ℕ) :
    Keeps (execResidencyDemote ctx xid s) :=
  by
  unfold execResidencyDemote
  split
  · split
    · refine keeps_next.2 ?_
      cases hd : demoteAll s _ with
      | none => exact h
      | some u => exact canonical_demoteAll h hd
    · simp [h]
  · simp [h]

@[simp] theorem keeps_execResidencyPromote {s : State} (h : Memory.wf s.mem.bytes = true) (ctx : ℕ) (xid : ℕ) :
    Keeps (execResidencyPromote ctx xid s) :=
  by
  unfold execResidencyPromote
  extract_lets cand
  split
  · split
    · exact keeps_next.2 (canonical_promote h ..)
    · exact keeps_next.2 h
  · exact keeps_next.2 h

@[simp] theorem keeps_execXprobe {s : State} (h : Memory.wf s.mem.bytes = true) (d : SReg) (sb : SReg) (x : Option Word) :
    Keeps (execXprobe d sb x s) := by
  unfold execXprobe; dsimp only; (repeat' split) <;> simp [h]

@[simp] theorem keeps_execXinfo {s : State} (h : Memory.wf s.mem.bytes = true) (d : SReg) (sb : SReg) (sel : Fin 8) :
    Keeps (execXinfo d sb sel s) := by
  unfold execXinfo; (repeat' split) <;> simp [h]

@[simp] theorem keeps_residencyWord {s : State} {x : Nat × State} (h : Memory.wf s.mem.bytes = true) (hx : Memory.wf x.2.mem.bytes = true)
    (d sb : SReg) : Keeps (residencyWord s d sb x) := by
  unfold residencyWord; (repeat' split) <;> simp [h, hx]

@[simp] theorem canonical_setPin {s : State} (h : Memory.wf s.mem.bytes = true) (d : Desc) (b : Bool) :
    Memory.wf (setPin s d b).mem.bytes = true := by
  unfold setPin; simp [h]

@[simp] theorem canonical_hpinOf {s : State} (h : Memory.wf s.mem.bytes = true) (e : Option Desc) :
    Memory.wf (hpinOf s e).2.mem.bytes = true := by
  unfold hpinOf
  split
  · exact h
  · rename_i e
    have hp := canonical_promote h e 7 0 true
    (repeat' split) <;> simp_all

@[simp] theorem bytes_hdemoteOf (s : State) (x1 : Option Desc) (part : ℕ) :
    (hdemoteOf s x1 part).2.mem.bytes = s.mem.bytes := by
  unfold hdemoteOf; (repeat' split) <;> simp

@[simp] theorem keeps_execHpin {s : State} (h : Memory.wf s.mem.bytes = true) (d : SReg) (sb : SReg) :
    Keeps (execHpin d sb s) := by
  unfold execHpin; simp [h]

@[simp] theorem keeps_execHdemote {s : State} (h : Memory.wf s.mem.bytes = true) (d : SReg) (sb : SReg) :
    Keeps (execHdemote d sb s) := by
  unfold execHdemote; simp [h]

@[simp] theorem keeps_execHprio {s : State} (h : Memory.wf s.mem.bytes = true) (d : SReg) (sb : SReg) (sel : Fin 8) :
    Keeps (execHprio d sb sel s) := by
  unfold execHprio; split <;> simp [h]

@[simp] theorem keeps_execHunpin {s : State} (h : Memory.wf s.mem.bytes = true) (d : SReg) (sb : SReg) :
    Keeps (execHunpin d sb s) := by
  unfold execHunpin; (repeat' split) <;> simp [h]

@[simp] theorem canonical_remapEvent {s : State} (h : Memory.wf s.mem.bytes = true) (port : ℕ) (pc : ℕ) (what : ℕ) :
    Memory.wf (remapEvent s port pc what).mem.bytes = true := by
  unfold remapEvent; simp [h]

@[simp] theorem keeps_execRowRemapReloadDone {s : State} (h : Memory.wf s.mem.bytes = true) (port : ℕ) (pc : ℕ) (img : BootImage) :
    Keeps (execRowRemapReloadDone port pc img s) := by
  unfold execRowRemapReloadDone; dsimp only; (repeat' split) <;> simp [h]

/-! ### Machine/EngineOps.lean -/

theorem canonical_locWait {s u : State} (hs : Memory.wf s.mem.bytes = true) {cluster : ℕ} {ctx : ℕ} {l : Loc} {wr : Bool} (h : locWait s
    cluster ctx l wr = some u) :
    Memory.wf u.mem.bytes = true := by
  unfold locWait at h; grind [canonical_byteWait, canonical_deviceError]

@[simp] theorem canonical_useLoc {s : State} (h : Memory.wf s.mem.bytes = true) (ctx : ℕ) (l : Loc) :
    Memory.wf (useLoc s ctx l).mem.bytes = true := by
  unfold useLoc; (repeat' split) <;> simp [h]

@[simp] theorem bytes_clearWholes (s : State) (l : List (Desc × ℕ)) :
    (clearWholes s l).mem.bytes = s.mem.bytes := by
  unfold clearWholes; simp

@[simp] theorem canonical_writeLoc {s : State} (h : Memory.wf s.mem.bytes = true) (ctx : ℕ) (l : Loc) (b : Byte) :
    Memory.wf (writeLoc s ctx l b).mem.bytes = true := by
  unfold writeLoc; (repeat' split) <;> simp [h]

@[simp] theorem canonical_poisonLoc {s : State} (h : Memory.wf s.mem.bytes = true) (ctx : ℕ) (l : Loc) :
    Memory.wf (poisonLoc s ctx l).mem.bytes = true := by
  unfold poisonLoc; (repeat' split) <;> simp [h]

@[simp] theorem canonical_escalateLoc {s : State} (h : Memory.wf s.mem.bytes = true) (ctx : ℕ) (l : Loc) :
    Memory.wf (escalateLoc s ctx l).mem.bytes = true := by
  unfold escalateLoc; (repeat' split) <;> simp [h]

@[simp] theorem bytes_freeLocks (s : State) (core : ℕ) (op : ℕ) : (freeLocks s core op).mem.bytes = s.mem.bytes := rfl
@[simp] theorem bytes_putToken (s : State) (core : ℕ) (wslot : ℕ) (live : Bool) (tk : ℕ) (tok : Word) :
    (putToken s core wslot live tk tok).mem.bytes = s.mem.bytes :=
  rfl

/-! ### Machine/Copies.lean -/

@[simp] theorem bytes_enterOp (s : State) (id : ℕ) (o : Op) : (enterOp s id o).mem.bytes = s.mem.bytes := rfl
theorem bytes_startCopy {s u : State} {core : ℕ} {wslot : ℕ} {blk : ℕ} {ctx : ℕ} {code : ℕ} {cmd : List Word} {c : Copy} {tk : ℕ} {bar :
    Option ObjRef} {task : ℕ} (h : startCopy s core wslot blk ctx code cmd c tk bar task = some u) :
    u.mem.bytes = s.mem.bytes := by
  unfold startCopy at h; grind [bytes_fresh, bytes_enterOp, bytes_updCore]

@[simp] theorem keeps_copyWord {s : State} (h : Memory.wf s.mem.bytes = true) (code : ℕ) (n : ℕ) (cb : SReg) (tk : SReg) :
    Keeps (copyWord s code n cb tk) := by
  unfold copyWord
  dsimp only
  (repeat' split) <;> simp [h]
  next hs => exact (congrArg Memory.wf (bytes_startCopy hs)).trans h

@[simp] theorem keeps_execCpStart {s : State} (h : Memory.wf s.mem.bytes = true) (cb : SReg) (tk : SReg) :
    Keeps (execCpStart cb tk s) := by
  unfold execCpStart; simp [h]

@[simp] theorem keeps_execCpRect {s : State} (h : Memory.wf s.mem.bytes = true) (cb : SReg) (tk : SReg) :
    Keeps (execCpRect cb tk s) := by
  unfold execCpRect; simp [h]

@[simp] theorem keeps_execCpFill {s : State} (h : Memory.wf s.mem.bytes = true) (cb : SReg) (tk : SReg) :
    Keeps (execCpFill cb tk s) := by
  unfold execCpFill; simp [h]

@[simp] theorem keeps_execCpBcast {s : State} (h : Memory.wf s.mem.bytes = true) (cb : SReg) (tk : SReg) :
    Keeps (execCpBcast cb tk s) := by
  unfold execCpBcast; simp [h]

@[simp] theorem canonical_tierStart {s : State} (h : Memory.wf s.mem.bytes = true) (blk : ℕ) (ctx : ℕ) (cmd : List Word) (op : ℕ) :
    Memory.wf (tierStart s blk ctx cmd op).2.mem.bytes = true := by
  unfold tierStart; dsimp only; (repeat' split) <;> simp [h]

@[simp] theorem canonical_startTier {s : State} (h : Memory.wf s.mem.bytes = true) (core : ℕ) (wslot : ℕ) (blk : ℕ) (ctx : ℕ) (cmd :
    List Word) (tk : ℕ) (bar : Option ObjRef) (task : ℕ) :
    Memory.wf (startTier s core wslot blk ctx cmd tk bar task).mem.bytes = true := by
  unfold startTier; simp [h]

@[simp] theorem keeps_execCpTier {s : State} (h : Memory.wf s.mem.bytes = true) (cb : SReg) (tk : SReg) :
    Keeps (execCpTier cb tk s) := by
  unfold execCpTier; dsimp only; (repeat' split) <;> simp [h]

@[simp] theorem bytes_foldPiece (s : State) (o : Op) (ws : List (PByte × Byte)) :
    (foldPiece s o ws).mem.bytes = s.mem.bytes := by
  unfold foldPiece; simp

@[simp] theorem canonical_writePiece {s : State} (h : Memory.wf s.mem.bytes = true) (o : Op) (ws : List (PByte × Byte)) :
    Memory.wf (writePiece s o ws).mem.bytes = true := by
  unfold writePiece
  exact canonical_foldl (fun s w hs => canonical_foldl (fun s l hs => by split <;> simp [hs]) _ hs) _ (by simp [h])

@[simp] theorem canonical_performPiece {s : State} (h : Memory.wf s.mem.bytes = true) (id : ℕ) (o : Op) (c : Copy) (j : ℕ) :
    Memory.wf (performPiece s id o c j).mem.bytes = true := by
  have hu (bs : List PByte) : Memory.wf (bs.foldl (fun s b => match b.src with | some l => useLoc s o.ctx l | none => s) s).mem.bytes = true :=
    canonical_foldl (fun s b hs => by
      split
      · exact canonical_useLoc hs ..
      · exact hs) _ h
  unfold performPiece
  dsimp only
  split
  · next v l hw =>
    have hm := List.mem_cons_self (a := v) (l := l)
    rw [← hw] at hm
    obtain ⟨b, -, hb⟩ := List.mem_filterMap.1 hm
    rcases (Option.orElse_eq_some ..).1 hb with hb | ⟨-, hb⟩
    · obtain ⟨l, -, hl⟩ := Option.bind_eq_some_iff.1 hb
      exact canonical_locWait h hl
    · obtain ⟨l, -, hl⟩ := List.mem_filterMap.1 (List.mem_of_head? hb)
      exact canonical_locWait h hl
  split
  · exact canonical_deviceError h
  split
  · have hv (bs : List PByte) := canonical_foldl
      (f := fun s (b : PByte) => b.dst.foldl (fun s l => if o.performs s l.1 then poisonLoc s o.ctx l.1 else s) s)
      (fun s b hs => canonical_foldl (fun s l hs => by
        split
        · exact canonical_poisonLoc hs ..
        · exact hs) _ hs) bs (hu bs)
    split
    · exact canonical_escalateLoc ((congrArg Memory.wf (bytes_setOp ..)).trans (hv _)) ..
    · exact (congrArg Memory.wf (bytes_setOp ..)).trans (hv _)
  · exact (congrArg Memory.wf (bytes_setOp ..)).trans (canonical_writePiece (hu _) ..)

@[simp] theorem keeps_execCopyPiece {s : State} (h : Memory.wf s.mem.bytes = true) (op : ℕ) (j : ℕ) :
    Keeps (execCopyPiece op j s) := by
  unfold execCopyPiece; (repeat' split) <;> simp [h]

@[simp] theorem canonical_opTask {s : State} (h : Memory.wf s.mem.bytes = true) (task : ℕ) (st : ℕ) (cause : ℕ) :
    Memory.wf (opTask s task st cause).mem.bytes = true := by
  unfold opTask; (repeat' split) <;> simp [h]

@[simp] theorem canonical_completeOp {s : State} (h : Memory.wf s.mem.bytes = true) (id : ℕ) (o : Op) :
    Memory.wf (completeOp s id o).mem.bytes = true := by
  unfold completeOp; split <;> simp [h]

@[simp] theorem keeps_execCopyComplete {s : State} (h : Memory.wf s.mem.bytes = true) (op : ℕ) : Keeps (execCopyComplete op s) := by
  unfold execCopyComplete
  split
  · simp [h]
  · split
    · exact keeps_next.2 (canonical_devTurn h _ fun t ht => canonical_completeOp ht ..)
    · simp [h]

@[simp] theorem keeps_execTokTest {s : State} (h : Memory.wf s.mem.bytes = true) (tk : SReg) (d : SReg) :
    Keeps (execTokTest tk d s) := by
  unfold execTokTest; dsimp only; (repeat' split) <;> simp [h]

@[simp] theorem keeps_execCpCancel {s : State} (h : Memory.wf s.mem.bytes = true) (tk : SReg) (d : SReg) :
    Keeps (execCpCancel tk d s) := by
  unfold execCpCancel; (repeat' split) <;> simp [h]

/-! ### Machine/Links.lean -/

@[simp] theorem bytes_setLink (s : State) (p : ℕ) (l : Link) : (State.setLink s p l).mem.bytes = s.mem.bytes := rfl
@[simp] theorem bytes_sendOn (s : State) (plane : ℕ) (p : Packet) : (sendOn s plane p).mem.bytes = s.mem.bytes := rfl
@[simp] theorem bytes_discardFlit (s : State) (plane : ℕ) : (discardFlit s plane).mem.bytes = s.mem.bytes := by unfold discardFlit; simp
@[simp] theorem bytes_deliver (s : State) (p : Packet) : (deliver s p).mem.bytes = s.mem.bytes := rfl
@[simp] theorem bytes_takeFlit (s : State) (plane : ℕ) (b : List Byte) : (takeFlit s plane b).mem.bytes = s.mem.bytes := by
  unfold takeFlit
  exact (bytes_foldl (fun s p => bytes_deliver ..) ..).trans (bytes_setLink ..)

@[simp] theorem keeps_execFlitReceive {s : State} (h : Memory.wf s.mem.bytes = true) (plane : ℕ) (bytes : List Byte) :
    Keeps (execFlitReceive plane bytes s) := by
  unfold execFlitReceive; (repeat' split) <;> simp [h]

@[simp] theorem keeps_execReplayRequest {s : State} (h : Memory.wf s.mem.bytes = true) (plane : ℕ) :
    Keeps (execReplayRequest plane s) := by
  unfold execReplayRequest; dsimp only; (repeat' split) <;> simp [h]

@[simp] theorem keeps_execHeartbeat {s : State} (h : Memory.wf s.mem.bytes = true) (plane : ℕ) :
    Keeps (execHeartbeat plane s) := by
  unfold execHeartbeat; split <;> simp [h]

@[simp] theorem keeps_execLinkRetrain {s : State} (h : Memory.wf s.mem.bytes = true) (plane : ℕ) (init : ℕ) :
    Keeps (execLinkRetrain plane init s) := by
  unfold execLinkRetrain; dsimp only; (repeat' split) <;> simp [h]

@[simp] theorem keeps_execLinkIdleTimeout {s : State} (h : Memory.wf s.mem.bytes = true) (plane : ℕ) :
    Keeps (execLinkIdleTimeout plane s) := by
  unfold execLinkIdleTimeout; dsimp only; (repeat' split) <;> simp [h]

@[simp] theorem keeps_execIdleFlit {s : State} (h : Memory.wf s.mem.bytes = true) (plane : ℕ) :
    Keeps (execIdleFlit plane s) := by
  unfold execIdleFlit; dsimp only; (repeat' split) <;> simp [h]

/-! ### Machine/Fabric.lean -/

@[simp] theorem canonical_fabricLog {s : State} (h : Memory.wf s.mem.bytes = true) (p : Packet) (peer : ℕ) (cause : ℕ) (plane : ℕ) :
    Memory.wf (fabricLog s p peer cause plane).mem.bytes = true := by
  unfold fabricLog; simp [h]

@[simp] theorem canonical_arrivalLog {s : State} (h : Memory.wf s.mem.bytes = true) (p : Packet) (cause : ℕ) :
    Memory.wf (arrivalLog s p cause).mem.bytes = true := by
  unfold arrivalLog; simp [h]

@[simp] theorem bytes_spray (s : State) (p : Packet) :
    (spray s p).2.mem.bytes = s.mem.bytes := by
  unfold spray; dsimp only; (repeat' split) <;> simp

@[simp] theorem bytes_sendTo (s : State) (dest : ℕ) (p : Packet) :
    (sendTo s dest p).2.mem.bytes = s.mem.bytes := by
  unfold sendTo; split <;> simp

@[simp] theorem bytes_sendPacket (s : State) (p : Packet) : (sendPacket s p).2.mem.bytes = s.mem.bytes := by unfold sendPacket; simp
@[simp] theorem bytes_takeIn (s : State) (i : ℕ) : (takeIn s i).mem.bytes = s.mem.bytes := rfl
@[simp] theorem canonical_dropStale {s : State} (h : Memory.wf s.mem.bytes = true) (i : ℕ) (p : Packet) :
    Memory.wf (dropStale s i p).mem.bytes = true := by
  unfold dropStale; simp [h]

@[simp] theorem bytes_setPost (s : State) (i : ℕ) (p : Post) : (State.setPost s i p).mem.bytes = s.mem.bytes := rfl
@[simp] theorem bytes_noteFailed (s : State) (core : ℕ) (wslot : ℕ) (word : ℕ) (p : Packet) :
    (noteFailed s core wslot word p).mem.bytes = s.mem.bytes := by
  unfold noteFailed; simp

@[simp] theorem bytes_endPost (s : State) (i : ℕ) (q : Post) : (endPost s i q).mem.bytes = s.mem.bytes := by unfold endPost; simp
@[simp] theorem canonical_failPost {s : State} (h : Memory.wf s.mem.bytes = true) (i : ℕ) (cause : ℕ) :
    Memory.wf (failPost s i cause).mem.bytes = true := by
  unfold failPost; split <;> simp [h]

@[simp] theorem canonical_postPacket {s : State} (h : Memory.wf s.mem.bytes = true) (core : ℕ) (wslot : ℕ) (word : ℕ) (p : Packet) :
    Memory.wf (postPacket s core wslot word p).mem.bytes = true := by
  unfold postPacket; grind [canonical_fabricLog, bytes_noteFailed, bytes_sendPacket, bytes_freshFab, bytes_updWarp, bytes_setPost]

@[simp] theorem keeps_execLinkDown {s : State} (h : Memory.wf s.mem.bytes = true) (plane : ℕ) :
    Keeps (execLinkDown plane s) := by
  unfold execLinkDown; dsimp only; (repeat' split) <;> simp +contextual [h]

/-! ### Machine/Remote.lean -/

@[simp] theorem bytes_setRword (s : State) (i : ℕ) (r : RWord) : (State.setRword s i r).mem.bytes = s.mem.bytes := rfl
@[simp] theorem bytes_setReplay (s : State) (i : ℕ) (r : Replay) : (State.setReplay s i r).mem.bytes = s.mem.bytes := rfl
@[simp] theorem bytes_delReplay (s : State) (i : ℕ) : (State.delReplay s i).mem.bytes = s.mem.bytes := rfl
@[simp] theorem bytes_replayPackets (s : State) (r : RWord) (peer : Word) (items : List (ℕ × ℕ × ℕ)) (tag : ℕ) :
    (replayPackets s r peer items tag).1.mem.bytes = s.mem.bytes := by
  unfold replayPackets
  exact bytes_foldl_fst (fun _ _ => by rfl) ..

@[simp] theorem bytes_issueReplay (s : State) (id : ℕ) (r : RWord) :
    (issueReplay s id r).mem.bytes = s.mem.bytes := by
  unfold issueReplay; split <;> simp

@[simp] theorem bytes_replayDone (s : State) (id : ℕ) (worst : Option (ℕ × ℕ)) :
    (replayDone s id worst).mem.bytes = s.mem.bytes := by
  unfold replayDone; split <;> simp

@[simp] theorem canonical_sendReplay {s : State} (h : Memory.wf s.mem.bytes = true) (i : ℕ) (r : RWord) (y : Replay) :
    Memory.wf (sendReplay s i r y).mem.bytes = true := by
  unfold sendReplay
  split
  · exact (congrArg Memory.wf (bytes_replayDone ..)).trans (canonical_foldl (fun s k hs => canonical_postPacket hs ..) _
      ((congrArg Memory.wf (bytes_delReplay ..)).trans h))
  · have hf := bytes_foldl_fst (f := fun (a : State × List (Packet × Nat)) (k : Packet × Nat) =>
      ((sendPacket a.1 k.1).2, a.2 ++ [(k.1, (sendPacket a.1 k.1).1.getD 32)])) (fun a k => bytes_sendPacket ..) y.pkts (s, [])
    exact (congrArg Memory.wf ((bytes_setReplay ..).trans hf)).trans h

@[simp] theorem canonical_sendReplays {s : State} (h : Memory.wf s.mem.bytes = true) (core wslot : ℕ) :
    Memory.wf (sendReplays s core wslot).mem.bytes = true :=
  canonical_foldl (fun s i hs => by (repeat' split) <;> simp [hs]) _ h

@[simp] theorem keeps_execRemoteReplay {s : State} (h : Memory.wf s.mem.bytes = true) (core : ℕ) (wslot : ℕ) :
    Keeps (execRemoteReplay core wslot s) := by
  unfold execRemoteReplay; dsimp only; (repeat' split) <;> simp [h]

@[simp] theorem bytes_foldPeers (s : State) (vp : ℕ) (w : ℕ) (lanes : List (ℕ × ℕ × ℕ)) :
    (foldPeers s vp w lanes).mem.bytes = s.mem.bytes := by
  unfold foldPeers; simp

@[simp] theorem keeps_remoteWord {s : State} (h : Memory.wf s.mem.bytes = true) (op : ℕ) (d : VReg) (sb : SReg) (vp : VReg) (sc : Fin 8)
    (x : Option Word) :
    Keeps (remoteWord s op d sb vp sc x) := by
  unfold remoteWord; dsimp only; (repeat' split) <;> simp [h]

@[simp] theorem keeps_execRldB32 {s : State} (h : Memory.wf s.mem.bytes = true) (d : VReg) (sb : SReg) (vp : VReg) (sc : Fin 8) (x :
    Option Word) :
    Keeps (execRldB32 d sb vp sc x s) := by
  unfold execRldB32; simp [h]

@[simp] theorem keeps_execRldB64 {s : State} (h : Memory.wf s.mem.bytes = true) (d : VReg) (sb : SReg) (vp : VReg) (sc : Fin 8) (x :
    Option Word) :
    Keeps (execRldB64 d sb vp sc x s) := by
  unfold execRldB64; simp [h]

@[simp] theorem keeps_execRldB128 {s : State} (h : Memory.wf s.mem.bytes = true) (d : VReg) (sb : SReg) (vp : VReg) (sc : Fin 8) (x :
    Option Word) :
    Keeps (execRldB128 d sb vp sc x s) := by
  unfold execRldB128; simp [h]

@[simp] theorem keeps_execRstB32 {s : State} (h : Memory.wf s.mem.bytes = true) (d : VReg) (sb : SReg) (vp : VReg) (sc : Fin 8) (x :
    Option Word) :
    Keeps (execRstB32 d sb vp sc x s) := by
  unfold execRstB32; simp [h]

@[simp] theorem keeps_execRstB64 {s : State} (h : Memory.wf s.mem.bytes = true) (d : VReg) (sb : SReg) (vp : VReg) (sc : Fin 8) (x :
    Option Word) :
    Keeps (execRstB64 d sb vp sc x s) := by
  unfold execRstB64; simp [h]

@[simp] theorem keeps_execRatom {s : State} (h : Memory.wf s.mem.bytes = true) (d : VReg) (sb : SReg) (vp : VReg) (sc : Fin 8) (x :
    Option Word) :
    Keeps (execRatom d sb vp sc x s) := by
  unfold execRatom; simp [h]

@[simp] theorem keeps_execRred {s : State} (h : Memory.wf s.mem.bytes = true) (d : VReg) (sb : SReg) (vp : VReg) (sc : Fin 8) (x :
    Option Word) :
    Keeps (execRred d sb vp sc x s) := by
  unfold execRred; simp [h]

@[simp] theorem keeps_execRmcast {s : State} (h : Memory.wf s.mem.bytes = true) (d : VReg) (sb : SReg) (vp : VReg) (sc : Fin 8) (x :
    Option Word) :
    Keeps (execRmcast d sb vp sc x s) := by
  unfold execRmcast; simp [h]

@[simp] theorem canonical_performItem {s : State} (h : Memory.wf s.mem.bytes = true) (p : Packet) (x : Item) :
    Memory.wf (performItem s p x).1.mem.bytes = true := by
  unfold performItem; dsimp only; (repeat' split) <;> simp [h]

theorem canonical_itemWait {s u : State} (hs : Memory.wf s.mem.bytes = true) {p : Packet} {x : Item} (h : itemWait s p x = some u) :
    Memory.wf u.mem.bytes = true := by
  unfold itemWait at h
  extract_lets op at h
  split at h
  · obtain ⟨i, -, hi⟩ := List.mem_filterMap.1 (List.mem_of_head? h)
    exact canonical_byteWait hs hi
  · cases h

@[simp] theorem bytes_markApplied (s : State) (p : Packet) : (markApplied s p).mem.bytes = s.mem.bytes := by unfold markApplied; simp
theorem bytes_streamEntry {s u : State} {p : Packet} (h : streamEntry s p = some u) :
    u.mem.bytes = s.mem.bytes := by
  unfold streamEntry at h; (repeat' split at h) <;> cases h <;> simp

@[simp] theorem bytes_noneUnderWay (s : State) (pkt : ℕ) : (noneUnderWay s pkt).mem.bytes = s.mem.bytes := by unfold noneUnderWay; simp
@[simp] theorem bytes_refuse (s : State) (i : ℕ) (p : Packet) : (refuse s i p).mem.bytes = s.mem.bytes := by unfold refuse; simp
@[simp] theorem canonical_performRequest {s : State} (h : Memory.wf s.mem.bytes = true) (i : ℕ) (p : Packet) :
    Memory.wf (performRequest s i p).mem.bytes = true := by
  unfold performRequest
  extract_lets items order u
  have hu : Memory.wf (takeIn u i).mem.bytes = true := (congrArg Memory.wf (bytes_takeIn ..)).trans h
  have hr := canonical_foldl_fst (f := fun (a : State × List (Nat × Nat × Nat)) x =>
    ((performItem a.1 p x).1, a.2 ++ [(x.lane, (performItem a.1 p x).2.1, (performItem a.1 p x).2.2)]))
    (fun a x ha => canonical_performItem ha p x) order (p := (takeIn u i, begunItems u i)) hu
  refine (congrArg Memory.wf (bytes_sendPacket ..)).trans ((congrArg Memory.wf (bytes_markApplied ..)).trans ?_)
  split
  · exact canonical_arrivalLog hr ..
  · exact hr

theorem canonical_itemsStopped {s u : State} (hs : Memory.wf s.mem.bytes = true) {p : Packet} {items : List Item}
    (h : itemsStopped s p items = some u) : Memory.wf u.mem.bytes = true := by
  unfold itemsStopped at h
  split at h
  · cases h; exact canonical_deviceError hs
  · obtain ⟨x, -, hx⟩ := List.mem_filterMap.1 (List.mem_of_head? h)
    exact canonical_itemWait hs hx

/-- The state that a packet's arrival gives, where it gives one. -/
def ArrivedAs.state (s : State) : ArrivedAs → State
  | .held t | .ready t => t
  | _ => s

theorem bytes_arrival (s : State) (i : ℕ) (p : Packet) : ((arrival s i p).state s).mem.bytes = s.mem.bytes := by
  unfold arrival
  split
  · rfl
  split
  · rfl
  split
  · rfl
  · next hs => split <;> exact bytes_streamEntry hs

@[simp] theorem canonical_itemTurn {s : State} (h : Memory.wf s.mem.bytes = true) (pkt : ℕ) (lane : ℕ) :
    Memory.wf (itemTurn s pkt lane).mem.bytes = true := by
  unfold itemTurn
  split
  · exact h
  next p _ =>
  split
  · exact h
  have hb := bytes_arrival s pkt p
  generalize arrival s pkt p = a at hb ⊢
  cases a with
  | ready u =>
    have hu : Memory.wf u.mem.bytes = true := (congrArg Memory.wf hb).trans h
    dsimp only
    split
    · exact hu
    split
    · next hw => exact canonical_itemsStopped hu hw
    · exact canonical_performItem hu ..
  | _ => exact h

@[simp] theorem keeps_execRemoteRequest {s : State} (h : Memory.wf s.mem.bytes = true) (pkt : ℕ) : Keeps (execRemoteRequest pkt s) := by
  unfold execRemoteRequest
  split
  · simp [h]
  next p _ =>
  split
  · simp [h]
  split
  · simp [h]
  have hb := bytes_arrival s pkt p
  generalize arrival s pkt p = a at hb ⊢
  cases a with
  | stale => simp [h]
  | copy => simp [h]
  | refused => simp [h]
  | held u => exact keeps_next.2 ((congrArg Memory.wf hb).trans h)
  | ready u =>
    have hu : Memory.wf u.mem.bytes = true := (congrArg Memory.wf hb).trans h
    cases hw : itemsStopped u p (openItems u pkt p) with
    | some v => simp only [hw]; exact keeps_next.2 (canonical_itemsStopped hu hw)
    | none => simp [hw, hu]

@[simp] theorem bytes_answerLane (s : State) (r : RWord) (lane : ℕ) (st : ℕ) (v : ℕ) :
    (answerLane s r lane st v).mem.bytes = s.mem.bytes := by
  unfold answerLane; simp

@[simp] theorem bytes_answerItems (s : State) (i : ℕ) (y : Replay) (rs : List (ℕ × ℕ × ℕ)) :
    (answerItems s i y rs).mem.bytes = s.mem.bytes := by
  unfold answerItems; split <;> simp

@[simp] theorem keeps_execRemoteReply {s : State} (h : Memory.wf s.mem.bytes = true) (pkt : ℕ) :
    Keeps (execRemoteReply pkt s) := by
  unfold execRemoteReply; (repeat' split) <;> simp [h]

@[simp] theorem bytes_landRemote (s : State) (pkt : ℕ) (lane : ℕ) :
    (landRemote s pkt lane).mem.bytes = s.mem.bytes := by
  unfold landRemote; (repeat' split) <;> simp

@[simp] theorem keeps_execRemoteAcknowledgment {s : State} (h : Memory.wf s.mem.bytes = true) (pkt : ℕ) :
    Keeps (execRemoteAcknowledgment pkt s) := by
  unfold execRemoteAcknowledgment; (repeat' split) <;> simp [h]

@[simp] theorem bytes_refuseRun (s : State) (p : Packet) :
    (refuseRun s p).mem.bytes = s.mem.bytes := by
  unfold refuseRun; (repeat' split) <;> simp

@[simp] theorem bytes_resendOf (s : State) (i : ℕ) (y : Replay) (p : Packet) : (resendOf s i y p).mem.bytes = s.mem.bytes := by
  have hf := bytes_foldl_fst (f := fun (a : State × List (Packet × Nat)) (k : Packet × Nat) =>
    if k.1.stream == p.stream && k.1.seq == p.seq then ((sendPacket a.1 k.1).2, a.2 ++ [(k.1, (sendPacket a.1 k.1).1.getD k.2)])
    else (a.1, a.2 ++ [k])) (fun a k => by split <;> simp) y.pkts (s, [])
  unfold resendOf
  dsimp only
  split
  · exact (bytes_setReplay ..).trans hf
  · exact hf

@[simp] theorem keeps_execRefusal {s : State} (h : Memory.wf s.mem.bytes = true) (pkt : ℕ) : Keeps (execRefusal pkt s) := by
  unfold execRefusal
  split
  · simp [h]
  split
  · simp [h]
  split
  · simp [h]
  extract_lets u
  have hu : Memory.wf u.mem.bytes = true := by simpa [u] using h
  split
  · split
    · next hp =>
      have hv := congrArg (·.2.mem.bytes) hp
      refine keeps_next.2 ?_
      rw [bytes_setPost, ← hv, bytes_sendPacket]
      exact hu
    · next hp =>
      have hv := congrArg (·.2.mem.bytes) hp
      refine keeps_next.2 (canonical_failPost ?_ ..)
      rw [← hv, bytes_sendPacket]
      exact hu
  · split <;> simp [hu]

@[simp] theorem keeps_execResponseTimeout {s : State} (h : Memory.wf s.mem.bytes = true) (replay : ℕ) (lane : ℕ) :
    Keeps (execResponseTimeout replay lane s) := by
  unfold execResponseTimeout; (repeat' split) <;> simp [h]

@[simp] theorem canonical_failMember {s : State} (h : Memory.wf s.mem.bytes = true) (q : ℕ) :
    Memory.wf (failMember s q).mem.bytes = true :=
  by
  unfold failMember
  refine canonical_foldl (fun s i hs => ?_) _ (canonical_foldl (fun s i hs => ?_) _ h)
  · (repeat' split) <;> simp [hs]
  · (repeat' split) <;> simp [hs]

/-! ### Machine/Exchange.lean -/

@[simp] theorem bytes_nextSeq (s : State) (x : XPart) : (XPart.nextSeq s x).2.mem.bytes = s.mem.bytes := rfl
@[simp] theorem bytes_rxCharge (s : State) (x : XPart) (n : ℕ) (fail : Bool) :
    (rxCharge s x n fail).1.mem.bytes = s.mem.bytes := by
  unfold rxCharge; (repeat' split) <;> simp

@[simp] theorem bytes_takeRecv (s : State) (x : XPart) : (takeRecv s x).1.mem.bytes = s.mem.bytes := by
  unfold takeRecv
  split
  · rfl
  · exact bytes_foldl_fst (fun a n => bytes_rxCharge ..) ..

theorem canonical_startExchange {s u : State} (hs : Memory.wf s.mem.bytes = true) {core : ℕ} {wslot : ℕ} {blk : ℕ} {ctx : ℕ} {c : List
    Word} {tk : ℕ} {bar : Option ObjRef} {task : ℕ} (h : startExchange s core wslot blk ctx c tk bar task = some u) :
    Memory.wf u.mem.bytes = true := by
  unfold startExchange at h; grind [bytes_fresh, canonical_devUses, bytes_takeRecv, bytes_updWarp, bytes_State_setPart]

@[simp] theorem keeps_execXgStart {s : State} (h : Memory.wf s.mem.bytes = true) (cb : SReg) (tk : SReg) :
    Keeps (execXgStart cb tk s) :=
  by
  unfold execXgStart
  split
  · simp [h]
  split
  · simp [h]
  extract_lets c
  split
  · simp [h]
  split
  · simp [h]
  split
  · simp [h]
  split
  · next hs => simp [canonical_startExchange h hs]
  · simp [h]

@[simp] theorem canonical_writeRun {s : State} (h : Memory.wf s.mem.bytes = true) (ctx : ℕ) (d : Desc) (off : ℕ) (bs : List Byte) :
    Memory.wf (writeRun s ctx d off bs).mem.bytes = true :=
  canonical_foldl (fun s p hs => by
    split
    · exact canonical_homeWrite (canonical_useByte hs ..) ..
    · exact hs) _ h

theorem canonical_runWait {s u : State} (hs : Memory.wf s.mem.bytes = true) {ctx : ℕ} {d : Desc} {off : ℕ} {bs : List Byte}
    (h : runWait s ctx d off bs = some u) : Memory.wf u.mem.bytes = true := by
  obtain ⟨p, -, hp⟩ := List.mem_filterMap.1 (List.mem_of_head? h)
  split at hp
  · exact canonical_byteWait hs hp
  · cases hp; exact canonical_deviceError hs
  · cases hp

@[simp] theorem canonical_landRun {s : State} (h : Memory.wf s.mem.bytes = true) (ctx : ℕ) (tag : ℕ) (src : ℕ) (j : ℕ) (xid : ℕ) (off :
    ℕ) (bs : List Byte) :
    Memory.wf (landRun s ctx tag src j xid off bs).1.mem.bytes = true := by
  unfold landRun; dsimp only; (repeat' split) <;> simp [h]

@[simp] theorem keeps_execExchangeRun {s : State} (h : Memory.wf s.mem.bytes = true) (pkt : ℕ) : Keeps (execExchangeRun pkt s) := by
  unfold execExchangeRun
  split
  · simp [h]
  next p _ =>
  split
  · simp [h]
  split
  · simp [h]
  split
  · simp [h]
  split
  · simp [h]
  extract_lets bs xid off
  split
  · next hw =>
    refine keeps_next.2 ?_
    split at hw
    · cases hw; exact canonical_deviceError h
    · split at hw
      · exact canonical_runWait h hw
      · cases hw
  · have hl := canonical_landRun (s := takeIn s pkt) (by simpa using h) p.ctx p.tag p.src p.wtag xid off bs
    generalize landRun (takeIn s pkt) p.ctx p.tag p.src p.wtag xid off bs = r at hl ⊢
    obtain ⟨u, cause⟩ := r
    refine keeps_next.2 ((bytes_sendPacket ..).symm ▸ ?_)
    split
    · exact hl
    · exact canonical_arrivalLog hl ..

@[simp] theorem bytes_sendEnd (s : State) (i : ℕ) (m : ℕ) : (sendEnd s i m).mem.bytes = s.mem.bytes := by unfold sendEnd; split <;> simp
@[simp] theorem bytes_sendEnds (s : State) (i : ℕ) : (sendEnds s i).mem.bytes = s.mem.bytes := by unfold sendEnds; split <;> simp
@[simp] theorem bytes_setStat (s : State) (i : ℕ) (j : ℕ) (v : ℕ) :
    (setStat s i j v).mem.bytes = s.mem.bytes := by
  unfold setStat; split <;> simp

@[simp] theorem canonical_sendRun {s : State} (h : Memory.wf s.mem.bytes = true) (i : ℕ) (j : ℕ) (x : XPart) (w : Walked) (bs : List
    Byte) :
    Memory.wf (sendRun s i j x w bs).mem.bytes = true := by
  unfold sendRun; dsimp only; (repeat' split) <;> simp [h]

@[simp] theorem canonical_emitRun {s : State} (h : Memory.wf s.mem.bytes = true) (i : ℕ) (x : XPart) :
    Memory.wf (emitRun s i x).mem.bytes = true :=
  by
  unfold emitRun
  dsimp only
  split
  · exact canonical_deviceError h
  · simp [h]
  split
  · next hw =>
    rcases (Option.orElse_eq_some ..).1 hw with hw | ⟨-, hw⟩
    · obtain ⟨l, -, hl⟩ := List.mem_filterMap.1 (List.mem_of_head? hw)
      exact canonical_byteWait h hl
    · split at hw
      · split at hw
        · cases hw; exact canonical_deviceError h
        · split at hw
          · exact canonical_runWait h hw
          · cases hw
      · cases hw
  · have hu {l : List (Desc × ℕ × ℕ)} : Memory.wf (l.foldl (fun s l => useByte s l.1 l.2.1 false) s).mem.bytes = true :=
      canonical_foldl (fun s x hs => by simp [hs]) _ h
    split
    · exact canonical_escalate (by simpa using hu) ..
    · exact canonical_sendRun (by simpa using hu) ..

@[simp] theorem keeps_execExchangeRunEmit {s : State} (h : Memory.wf s.mem.bytes = true) (part : ℕ) :
    Keeps (execExchangeRunEmit part s) := by
  unfold execExchangeRunEmit; dsimp only; (repeat' split) <;> simp [h]

@[simp] theorem keeps_execRunAcknowledgment {s : State} (h : Memory.wf s.mem.bytes = true) (pkt : ℕ) :
    Keeps (execRunAcknowledgment pkt s) := by
  unfold execRunAcknowledgment; (repeat' split) <;> simp [h]

@[simp] theorem keeps_execRunResend {s : State} (h : Memory.wf s.mem.bytes = true) (part : ℕ) (j : ℕ) :
    Keeps (execRunResend part j s) := by
  unfold execRunResend; dsimp only; (repeat' split) <;> simp [h]

@[simp] theorem keeps_execExchangeEnd {s : State} (h : Memory.wf s.mem.bytes = true) (pkt : ℕ) :
    Keeps (execExchangeEnd pkt s) := by
  unfold execExchangeEnd; dsimp only; (repeat' split) <;> simp [h]

@[simp] theorem canonical_recvLog {s : State} (h : Memory.wf s.mem.bytes = true) (x : XPart) :
    Memory.wf (recvLog s x).mem.bytes = true := by
  unfold recvLog; split <;> simp [h]

@[simp] theorem canonical_endPart {s : State} (h : Memory.wf s.mem.bytes = true) (i : ℕ) (x : XPart) (st : ℕ) (cause : ℕ) (off : ℕ) :
    Memory.wf (endPart s i x st cause off).mem.bytes = true := by
  unfold endPart; split <;> simp [h]

@[simp] theorem keeps_execExchangePartComplete {s : State} (h : Memory.wf s.mem.bytes = true) (part : ℕ) :
    Keeps (execExchangePartComplete part s) :=
  by
  unfold execExchangePartComplete
  split
  · simp [h]
  split
  · refine keeps_next.2 (canonical_devTurn ?_ _ fun t ht => canonical_endPart ht ..)
    split
    · exact canonical_recvLog h _
    · exact h
  · simp [h]

@[simp] theorem keeps_execXgCancel {s : State} (h : Memory.wf s.mem.bytes = true) (cb : SReg) (tk : SReg) (d : SReg) :
    Keeps (execXgCancel cb tk d s) := by
  unfold execXgCancel; (repeat' split) <;> simp [h]

@[simp] theorem keeps_execXgCancelComplete {s : State} (h : Memory.wf s.mem.bytes = true) (part : ℕ) :
    Keeps (execXgCancelComplete part s) :=
  by
  unfold execXgCancelComplete
  split
  · simp [h]
  split
  · simp [h]
  split
  · simp [h]
  split
  · simp [h]
  extract_lets bs ls places off
  split
  · simp [h]
  split
  · simp [h]
  split
  · simp [h]
  split
  · next hw =>
    obtain ⟨l, -, hl⟩ := List.mem_filterMap.1 (List.mem_of_head? hw)
    exact keeps_next.2 (canonical_locWait h hl)
  · refine keeps_next.2 (canonical_endPart (canonical_foldl (fun s b hs => canonical_writeLoc hs ..) _ ?_) ..)
    exact (bytes_clearWholes ..).symm ▸ h

@[simp] theorem keeps_execXgQuery {s : State} (h : Memory.wf s.mem.bytes = true) (tk : SReg) (d : SReg) (sel : Fin 4) :
    Keeps (execXgQuery tk d sel s) := by
  unfold execXgQuery; split <;> simp [h]

@[simp] theorem canonical_failRun {s : State} (h : Memory.wf s.mem.bytes = true) (k : ℕ) (cause : ℕ) :
    Memory.wf (failRun s k cause).mem.bytes = true := by
  unfold failRun; split <;> simp [h]

@[simp] theorem keeps_execPostedTimeout {s : State} (h : Memory.wf s.mem.bytes = true) (post : ℕ) :
    Keeps (execPostedTimeout post s) := by
  unfold execPostedTimeout; dsimp only; (repeat' split) <;> simp [h]

@[simp] theorem canonical_memberRemoved {s : State} (h : Memory.wf s.mem.bytes = true) (q : ℕ) :
    Memory.wf (memberRemoved s q).mem.bytes = true :=
  by
  unfold memberRemoved
  refine canonical_foldl (fun s i hs => ?_) _ (canonical_foldl (fun s k hs => ?_) _ (canonical_failMember h q))
  · (repeat' split) <;> simp [hs]
  · (repeat' split) <;> simp [hs]

/-! ### Machine/Tasks.lean -/

@[simp] theorem canonical_tcbState {s : State} (h : Memory.wf s.mem.bytes = true) (ctx : ℕ) (va : ℕ) (st : ℕ) :
    Memory.wf (tcbState s ctx va st).mem.bytes = true := by
  unfold tcbState; simp [h]

@[simp] theorem canonical_armTask {s : State} (h : Memory.wf s.mem.bytes = true) (ctx : ℕ) (home : ℕ) (va : ℕ) (x : Tcb) (ready : Bool)
    (cw : ℕ) (cv : ℕ) (graph : ℕ) :
    Memory.wf (armTask s ctx home va x ready cw cv graph).2.mem.bytes = true := by
  unfold armTask; simp [h]

@[simp] theorem canonical_refuseTask {s : State} (h : Memory.wf s.mem.bytes = true) (ctx : ℕ) (va : ℕ) :
    Memory.wf (refuseTask s ctx va).mem.bytes = true := by
  unfold refuseTask; split <;> simp [h]

@[simp] theorem canonical_launchTask {s : State} (h : Memory.wf s.mem.bytes = true) (ctx : ℕ) (home : ℕ) (va : ℕ) (b : ℕ) (w : ℕ) (x6 :
    ℕ) (cw : ℕ) (cv : ℕ) (pw : List Byte) :
    Memory.wf (launchTask s ctx home va b w x6 cw cv pw).mem.bytes = true := by
  unfold launchTask; grind [canonical_devWrite, canonical_armTask, canonical_completionWord, canonical_refuseTask]

@[simp] theorem canonical_launchGraph {s : State} (h : Memory.wf s.mem.bytes = true) (ctx : ℕ) (home : ℕ) (va : ℕ) (cw : ℕ) (cv : ℕ) :
    Memory.wf (launchGraph s ctx home va cw cv).mem.bytes = true := by
  unfold launchGraph
  extract_lets head n roots ok nodes
  split
  · exact canonical_completionWord h ..
  · refine canonical_finishGraph ?_ _
    change Memory.wf (List.foldl _ (s.fresh.2, []) nodes.zipIdx).1.mem.bytes = true
    exact canonical_foldl_fst (fun a p ha => canonical_armTask (canonical_devWrite ha ..) ..) _ h

@[simp] theorem canonical_launchRecord {s : State} (h : Memory.wf s.mem.bytes = true) (ctx : ℕ) (home : ℕ) (r : List Byte) :
    Memory.wf (launchRecord s ctx home r).mem.bytes = true := by
  unfold launchRecord; dsimp only; (repeat' split) <;> simp [h]

@[simp] theorem keeps_execDoorbell {s : State} (h : Memory.wf s.mem.bytes = true) (port : ℕ) (q : ℕ) (tail : ℕ) :
    Keeps (execDoorbell port q tail s) := by
  unfold execDoorbell; dsimp only; (repeat' split) <;> simp [h]

@[simp] theorem bytes_settleReady (s : State) : (settleReady s).mem.bytes = s.mem.bytes := rfl
@[simp] theorem keeps_execPriorityAging {s : State} (h : Memory.wf s.mem.bytes = true) (task : ℕ) :
    Keeps (execPriorityAging task s) := by
  unfold execPriorityAging; (repeat' split) <;> simp [h]

@[simp] theorem keeps_execTaskDue {s : State} (h : Memory.wf s.mem.bytes = true) (part : ℕ) :
    Keeps (execTaskDue part s) := by
  unfold execTaskDue; dsimp only; (repeat' split) <;> simp [h]

@[simp] theorem keeps_execQueueTake {s : State} (h : Memory.wf s.mem.bytes = true) (part : ℕ) : Keeps (execQueueTake part s) := by
  unfold execQueueTake
  split
  · simp [h]
  split
  · simp [h]
  extract_lets k u x at' r
  have hu : Memory.wf u.mem.bytes = true := h
  split
  · split
    · exact keeps_next.2 (canonical_deviceError hu)
    · exact keeps_next.2 (canonical_devTurn hu _ fun t ht =>
        (congrArg Memory.wf (bytes_settleReady ..)).trans (canonical_launchRecord (canonical_pwrite ht ..) ..))
  · split
    · split
      · exact keeps_next.2 (canonical_deviceError hu)
      · exact keeps_next.2 (canonical_devTurn hu _ fun t ht =>
          (congrArg Memory.wf (bytes_settleReady ..)).trans (canonical_launchRecord (by exact ht) ..))
    · exact keeps_next.2 hu

@[simp] theorem canonical_readyTask {s : State} (h : Memory.wf s.mem.bytes = true) (t : Task) (va : ℕ) :
    Memory.wf (readyTask s t va).mem.bytes = true := by
  unfold readyTask; dsimp only; (repeat' split) <;> simp [h]

@[simp] theorem canonical_decPred {s : State} (h : Memory.wf s.mem.bytes = true) (t : Task) (va : ℕ) :
    Memory.wf (decPred s t va).mem.bytes = true := by
  unfold decPred; dsimp only; (repeat' split) <;> simp [h]

@[simp] theorem canonical_retiredState {s : State} (h : Memory.wf s.mem.bytes = true) (t : Task) :
    Memory.wf (retiredState s t).mem.bytes = true := by
  unfold retiredState; simp [h]

@[simp] theorem canonical_retireTask {s : State} (h : Memory.wf s.mem.bytes = true) (task : ℕ) (t : Task) :
    Memory.wf (retireTask task t s).mem.bytes = true := by
  unfold retireTask
  extract_lets x next st s1 s2 s3 s4 s5
  have h3 : Memory.wf s3.mem.bytes = true :=
    (congrArg Memory.wf (bytes_setTask ..)).trans (canonical_retiredState (canonical_devWrite (canonical_devWrite h ..) ..) _)
  have h4 : Memory.wf s4.mem.bytes = true := by
    unfold s4
    split
    · exact canonical_completionWord h3 ..
    · exact h3
  have h5 : Memory.wf s5.mem.bytes = true := canonical_foldl (fun s va hs => canonical_decPred hs ..) _ h4
  refine (congrArg Memory.wf (bytes_settleReady ..)).trans ?_
  split
  · exact (congrArg Memory.wf (bytes_dropTask ..)).trans h5
  · exact canonical_finishGraph h5 _

@[simp] theorem keeps_execTaskRetire {s : State} (h : Memory.wf s.mem.bytes = true) (task : ℕ) : Keeps (execTaskRetire task s) := by
  unfold execTaskRetire
  split
  · simp [h]
  split
  · exact keeps_next.2 (canonical_deviceError h)
  split
  · simp [h]
  split
  · exact keeps_next.2 (canonical_deviceError h)
  · exact keeps_next.2 (canonical_devTurn h _ fun t ht => canonical_retireTask ht ..)

/-! ### Machine/Blocks.lean -/

@[simp] theorem canonical_rcbAdd {s : State} (h : Memory.wf s.mem.bytes = true) (pa : ℕ) (k : ℤ) :
    Memory.wf (rcbAdd s pa k).mem.bytes = true := by
  unfold rcbAdd; simp [h]

@[simp] theorem canonical_useRegion {s : State} (h : Memory.wf s.mem.bytes = true) (region : ℕ) (rblk bars bytes est blocks : ℤ) :
    Memory.wf (useRegion s region rblk bars bytes est blocks).mem.bytes = true :=
  canonical_foldl (fun _ _ hs => canonical_pwrite
    (canonical_rcbAdd (canonical_rcbAdd (canonical_rcbAdd (canonical_rcbAdd (canonical_rcbAdd hs ..) ..) ..) ..) ..) ..) _ h

@[simp] theorem bytes_startWarps (s : State) (b core : ℕ) (base : Warp) (k w : ℕ) :
    (startWarps s b core base k w).mem.bytes = s.mem.bytes :=
  by
  induction k generalizing s w with
  | zero => rfl
  | succ k ih => exact (ih ..).trans (bytes_setWarp ..)

@[simp] theorem bytes_auditSelect (s : State) (part : ℕ) : (auditSelect s part).2.mem.bytes = s.mem.bytes := rfl
@[simp] theorem bytes_clearMatrix (s : State) (core : ℕ) : (clearMatrix s core).mem.bytes = s.mem.bytes := rfl
@[simp] theorem bytes_placeBlock (s : State) (core : ℕ) (grp : ℕ) (task : ℕ) (no : ℕ) (t : Task) (x : Tcb) (n : Need) :
    (placeBlock s core grp task no t x n).2.mem.bytes = s.mem.bytes := by
  unfold placeBlock; dsimp only; (repeat' split) <;> simp

@[simp] theorem bytes_startBlocks (s : State) (t : Task) (x : Tcb) (ids : List ℕ) :
    (startBlocks s t x ids).mem.bytes = s.mem.bytes := by
  unfold startBlocks; simp

theorem canonical_startCommand {s u : State} (hs : Memory.wf s.mem.bytes = true) {core wslot b i : ℕ} {t : Task} {x : Tcb}
    (h : startCommand s core wslot b i t x = some u) : Memory.wf u.mem.bytes = true := by
  have hbad : Memory.wf (opTask s (i + 1) 2 (Config.freeNat s.free % 256)).mem.bytes = true := canonical_opTask hs ..
  unfold startCommand at h
  dsimp only at h
  split at h
  · cases h; exact canonical_deviceError hs
  split at h
  · split at h
    · cases h
    · split at h <;> cases h
      · exact canonical_startTier hs ..
      · exact hbad
  · split at h
    · exact canonical_startExchange hs h
    · cases h; exact hbad
  · split at h
    · split at h
      · cases h
      · split at h
        · exact (congrArg Memory.wf (bytes_startCopy h)).trans hs
        · cases h; exact hbad
    · cases h; exact hbad

@[simp] theorem canonical_issueCommand {s : State} (h : Memory.wf s.mem.bytes = true) (b : ℕ) :
    Memory.wf (issueCommand s b).mem.bytes = true :=
  by
  unfold issueCommand
  extract_lets k
  split
  · exact h
  · refine canonical_devTurn h _ fun t ht => ?_
    split
    · next hc => exact canonical_startCommand ((congrArg Memory.wf (bytes_updBlk ..)).trans ht) hc
    · exact ht

@[simp] theorem canonical_issueCommands {s : State} (h : Memory.wf s.mem.bytes = true) :
    Memory.wf (issueCommands s).mem.bytes = true := by
  unfold issueCommands; simp +contextual [h]

/-- A group's placement notes it in its task, with no byte to write. -/
theorem canonical_startGroup {s : State} (h : Memory.wf s.mem.bytes = true) (i : ℕ) (f : Task → Task) :
    Memory.wf (State.mem (match s.task i with | some u => s.setTask i (f u) | none => s)).bytes = true := by split <;> exact h

@[simp] theorem canonical_placeGroup {s : State} (h : Memory.wf s.mem.bytes = true) (cluster x0 y0 i : ℕ) (t : Task) (x : Tcb) (g : ℕ) (n : Need) :
    Memory.wf (placeGroup s cluster x0 y0 i t x g n).mem.bytes = true := by
  have hp (k : ℕ) (l : List (ℕ × ℕ)) := canonical_foldl_fst (f := fun (a : State × List Nat) (p : ℕ × ℕ) =>
    ((placeBlock a.1 p.1 k i (g * x.size + p.2) t x n).2, a.2 ++ [(placeBlock a.1 p.1 k i (g * x.size + p.2) t x n).1]))
    (fun a p ha => (congrArg Memory.wf (bytes_placeBlock ..)).trans ha) l (p := (s.fresh.2, [])) h
  unfold placeGroup
  dsimp only
  split
  · exact canonical_deviceError h
  by_cases hk : t.kind = 0
  · rw [if_pos hk]
    refine (congrArg Memory.wf (bytes_startBlocks ..)).trans (canonical_startGroup ?_ i _)
    exact canonical_tcbCount (canonical_tcbState (canonical_useRegion ((congrArg Memory.wf (bytes_setGroup ..)).trans (hp _ _)) ..) ..) ..
  · rw [if_neg hk]
    refine canonical_foldl (fun s b hs => canonical_issueCommand (by simpa using hs) _) _ (canonical_startGroup ?_ i _)
    exact canonical_tcbCount (canonical_tcbState (canonical_useRegion ((congrArg Memory.wf (bytes_setGroup ..)).trans (hp _ _)) ..) ..) ..

@[simp] theorem canonical_updateMeans {s : State} (h : Memory.wf s.mem.bytes = true) (t : Task) (b : Block) (energy : ℕ) :
    Memory.wf (updateMeans s t b energy).mem.bytes = true := by
  unfold updateMeans; simp [h]

@[simp] theorem canonical_countTaken {s : State} (h : Memory.wf s.mem.bytes = true) (b : Block) :
    Memory.wf (countTaken s b).mem.bytes = true :=
  canonical_foldl (fun s x hs => by (repeat' split) <;> simp [hs]) _ h

@[simp] theorem canonical_endGroup {s : State} (h : Memory.wf s.mem.bytes = true) (k : ℕ) :
    Memory.wf (endGroup s k).mem.bytes = true := by
  unfold endGroup; grind [canonical_useRegion, canonical_tcbCount, bytes_setTask]

@[simp] theorem canonical_endBlock {s : State} (h : Memory.wf s.mem.bytes = true) (b : ℕ) (energy : ℕ) :
    Memory.wf (endBlock s b energy).mem.bytes = true := by
  unfold endBlock
  grind [bytes_setBlk, canonical_useRegion, canonical_endGroup, canonical_returnTaken, canonical_countTaken, canonical_tcbCount, canonical_updateMeans, bytes_setTask, bytes_fresh]

@[simp] theorem bytes_leaveBehind (s : State) (core : ℕ) (wslot : ℕ) (task : ℕ) :
    (leaveBehind s core wslot task).mem.bytes = s.mem.bytes := by
  unfold leaveBehind; dsimp only; (repeat' split) <;> simp

@[simp] theorem canonical_freeWarp {s : State} (h : Memory.wf s.mem.bytes = true) (core : ℕ) (wslot : ℕ) (counts : List ℕ) :
    Memory.wf (freeWarp core wslot counts s).mem.bytes = true := by
  unfold freeWarp; simp [h]

@[simp] theorem keeps_execWarpFree {s : State} (h : Memory.wf s.mem.bytes = true) (core wslot : ℕ) (counts : List ℕ) :
    Keeps (execWarpFree core wslot counts s) := by
  unfold execWarpFree
  split
  · simp [h]
  · exact keeps_next.2 (canonical_devTurn h _ fun t ht => canonical_freeWarp ht ..)

/-! ### Machine/HostPort.lean -/

theorem canonical_hostWait {s u : State} (hs : Memory.wf s.mem.bytes = true) {port : ℕ} {bar wr : Bool} {d : Desc} {va : ℕ}
    (h : hostWait s port bar wr d va = some u) : Memory.wf u.mem.bytes = true := by
  unfold hostWait at h
  split at h
  · next hw => cases h; exact canonical_byteWait hs hw
  · split at h
    · exact canonical_memWait hs h
    · cases h

@[simp] theorem canonical_hostFail {s : State} (h : Memory.wf s.mem.bytes = true) (port : ℕ) (bar : Bool) (wr : Bool) (x4 : ℕ) :
    Memory.wf (hostFail s port bar wr x4).1.mem.bytes = true := by
  unfold hostFail; simp [h]

@[simp] theorem canonical_hostRead {s : State} (h : Memory.wf s.mem.bytes = true) (l : List (Desc × ℕ)) :
    Memory.wf (hostRead s l).1.mem.bytes = true := by
  have hu : Memory.wf (l.foldl (fun s p => useByte s p.1 p.2 false) s).mem.bytes = true :=
    canonical_foldl (fun s p hs => canonical_useByte hs ..) _ h
  unfold hostRead
  extract_lets u bs
  split
  · exact canonical_escalate hu ..
  · exact hu

@[simp] theorem canonical_hostWrite {s : State} (h : Memory.wf s.mem.bytes = true) (bar : Bool) (l : List ((Desc × ℕ) × Byte)) :
    Memory.wf (hostWrite s bar l).1.mem.bytes = true := by
  unfold hostWrite
  extract_lets u bad fails good v once w lines
  have hu : Memory.wf u.mem.bytes = true := canonical_foldl (fun s p hs => canonical_useByte hs ..) _ h
  have hv : Memory.wf v.mem.bytes = true :=
    canonical_foldl (fun s p hs => canonical_homeWrite hs ..) _ ((congrArg Memory.wf (bytes_clearWholes ..)).trans hu)
  have hw : Memory.wf w.mem.bytes = true := canonical_foldl (fun s p hs => canonical_escalate hs ..) _ hv
  change Memory.wf (State.mem (if bar then w else lines.foldl writebackLine w)).bytes = true
  split
  · exact hw
  · exact canonical_foldl (fun s l hs => canonical_writebackLine hs l) _ hw

theorem canonical_hostPart_ok {s u : State} (hs : Memory.wf s.mem.bytes = true) {port : ℕ} {bar : Bool} {a n : ℕ} {wr : Option (List Byte)}
    {x : HostReply} (h : hostPart s port bar a n wr = .ok (u, x)) : Memory.wf u.mem.bytes = true := by
  unfold hostPart at h
  extract_lets w bytes l at h
  split at h
  · cases h; exact canonical_deviceError hs
  split at h
  · rw [show u = (hostFail s port bar w a).1 from (congrArg Prod.fst (Except.ok.inj h)).symm]
    exact canonical_hostFail hs ..
  split at h
  · cases h
  split at h
  · rw [show u = (hostRead s l).1 from (congrArg Prod.fst (Except.ok.inj h)).symm]
    exact canonical_hostRead hs _
  · rw [show u = (hostWrite s bar _).1 from (congrArg Prod.fst (Except.ok.inj h)).symm]
    exact canonical_hostWrite hs ..

theorem canonical_hostPart_error {s u : State} (hs : Memory.wf s.mem.bytes = true) {port : ℕ} {bar : Bool} {a n : ℕ} {wr : Option (List Byte)}
    (h : hostPart s port bar a n wr = .error u) : Memory.wf u.mem.bytes = true := by
  unfold hostPart at h
  extract_lets w bytes l at h
  split at h
  · cases h
  split at h
  · cases h
  split at h
  · next hw =>
    cases h
    obtain ⟨p, -, hp⟩ := List.exists_of_findSome?_eq_some hw
    exact canonical_hostWait hs hp
  · split at h <;> cases h

/-- The state of an access of the host, performed or waiting. -/
def hostState {α : Type} : Except State (State × α) → State
  | .error s => s
  | .ok x => x.1

theorem canonical_performHost {s : State} (hs : Memory.wf s.mem.bytes = true) (port : ℕ) (bar : Bool) (wr : Option (List Byte))
    (l : List (ℕ × ℕ × ℕ)) (a : List HostReply) : Memory.wf (hostState (performHost port bar wr l s a)).mem.bytes = true := by
  induction l generalizing s a with
  | nil => exact hs
  | cons p r ih =>
    rw [performHost]
    split
    · next hp => exact canonical_hostPart_error hs hp
    · next hp => exact ih (canonical_hostPart_ok hs hp) _

@[simp] theorem keeps_hostRequest {s : State} (h : Memory.wf s.mem.bytes = true) (port : ℕ) (bar : Bool) (wr : Option (List Byte))
    (parts : List (ℕ × ℕ × ℕ)) : Keeps (hostRequest s port bar wr parts) := by
  unfold hostRequest
  split
  · next hf =>
    obtain ⟨p, -, hp⟩ := List.exists_of_findSome?_eq_some hf
    split at hp
    · next he => cases hp; exact keeps_next.2 (canonical_hostPart_error h he)
    · cases hp
  · have hp := canonical_performHost h port bar wr parts []
    split
    · next he => rw [he] at hp; exact keeps_next.2 hp
    · next he => rw [he] at hp; exact keeps_next.2 hp

@[simp] theorem keeps_execCxlMemRequest {s : State} (h : Memory.wf s.mem.bytes = true) (port : ℕ) (addr : ℕ) (wr : Option (List Byte)) :
    Keeps (execCxlMemRequest port addr wr s) := by
  unfold execCxlMemRequest; dsimp only; (repeat' split) <;> simp [h]

@[simp] theorem keeps_execBar2Request {s : State} (h : Memory.wf s.mem.bytes = true) (port : ℕ) (off : ℕ) (len : ℕ) (wr : Option (List
    Byte)) :
    Keeps (execBar2Request port off len wr s) := by
  unfold execBar2Request; dsimp only; (repeat' split) <;> simp [h]

@[simp] theorem canonical_rootWrite {s : State} (h : Memory.wf s.mem.bytes = true) (port : ℕ) (off : ℕ) (v : DWord) (p : Plat) :
    Memory.wf (rootWrite s port off v p).mem.bytes = true := by
  unfold rootWrite; simp [h]

@[simp] theorem keeps_execBar0Write {s : State} (h : Memory.wf s.mem.bytes = true) (port : ℕ) (off : ℕ) (value : DWord) :
    Keeps (execBar0Write port off value s) := by
  unfold execBar0Write; (repeat' split) <;> simp [h]

/-! ### Machine/Vector.lean -/

@[simp] theorem keeps_execVaddI32 {s : State} (h : Memory.wf s.mem.bytes = true) (d : VReg) (a : Operand) (b : Operand) (p : Bool) :
    Keeps (execVaddI32 d a b p s) := by
  unfold execVaddI32; simp [h]

@[simp] theorem keeps_execVsubI32 {s : State} (h : Memory.wf s.mem.bytes = true) (d : VReg) (a : Operand) (b : Operand) (p : Bool) :
    Keeps (execVsubI32 d a b p s) := by
  unfold execVsubI32; simp [h]

@[simp] theorem keeps_execVmulI32 {s : State} (h : Memory.wf s.mem.bytes = true) (d : VReg) (a : Operand) (b : Operand) (p : Bool) :
    Keeps (execVmulI32 d a b p s) := by
  unfold execVmulI32; simp [h]

@[simp] theorem keeps_execVmulhiI32 {s : State} (h : Memory.wf s.mem.bytes = true) (d : VReg) (a : Operand) (b : Operand) (p : Bool) :
    Keeps (execVmulhiI32 d a b p s) := by
  unfold execVmulhiI32; simp [h]

@[simp] theorem keeps_execVmulhiN32 {s : State} (h : Memory.wf s.mem.bytes = true) (d : VReg) (a : Operand) (b : Operand) (p : Bool) :
    Keeps (execVmulhiN32 d a b p s) := by
  unfold execVmulhiN32; simp [h]

@[simp] theorem keeps_execVmadI32 {s : State} (h : Memory.wf s.mem.bytes = true) (d : VReg) (a : Operand) (b : Operand) (p : Bool) :
    Keeps (execVmadI32 d a b p s) := by
  unfold execVmadI32; simp [h]

@[simp] theorem keeps_execVandB32 {s : State} (h : Memory.wf s.mem.bytes = true) (d : VReg) (a : Operand) (b : Operand) (p : Bool) :
    Keeps (execVandB32 d a b p s) := by
  unfold execVandB32; simp [h]

@[simp] theorem keeps_execVorB32 {s : State} (h : Memory.wf s.mem.bytes = true) (d : VReg) (a : Operand) (b : Operand) (p : Bool) :
    Keeps (execVorB32 d a b p s) := by
  unfold execVorB32; simp [h]

@[simp] theorem keeps_execVxorB32 {s : State} (h : Memory.wf s.mem.bytes = true) (d : VReg) (a : Operand) (b : Operand) (p : Bool) :
    Keeps (execVxorB32 d a b p s) := by
  unfold execVxorB32; simp [h]

@[simp] theorem keeps_execVshlB32 {s : State} (h : Memory.wf s.mem.bytes = true) (d : VReg) (a : Operand) (b : Operand) (p : Bool) :
    Keeps (execVshlB32 d a b p s) := by
  unfold execVshlB32; simp [h]

@[simp] theorem keeps_execVshrN32 {s : State} (h : Memory.wf s.mem.bytes = true) (d : VReg) (a : Operand) (b : Operand) (p : Bool) :
    Keeps (execVshrN32 d a b p s) := by
  unfold execVshrN32; simp [h]

@[simp] theorem keeps_execVshrI32 {s : State} (h : Memory.wf s.mem.bytes = true) (d : VReg) (a : Operand) (b : Operand) (p : Bool) :
    Keeps (execVshrI32 d a b p s) := by
  unfold execVshrI32; simp [h]

@[simp] theorem keeps_execVminI32 {s : State} (h : Memory.wf s.mem.bytes = true) (d : VReg) (a : Operand) (b : Operand) (p : Bool) :
    Keeps (execVminI32 d a b p s) := by
  unfold execVminI32; simp [h]

@[simp] theorem keeps_execVminN32 {s : State} (h : Memory.wf s.mem.bytes = true) (d : VReg) (a : Operand) (b : Operand) (p : Bool) :
    Keeps (execVminN32 d a b p s) := by
  unfold execVminN32; simp [h]

@[simp] theorem keeps_execVmaxI32 {s : State} (h : Memory.wf s.mem.bytes = true) (d : VReg) (a : Operand) (b : Operand) (p : Bool) :
    Keeps (execVmaxI32 d a b p s) := by
  unfold execVmaxI32; simp [h]

@[simp] theorem keeps_execVmaxN32 {s : State} (h : Memory.wf s.mem.bytes = true) (d : VReg) (a : Operand) (b : Operand) (p : Bool) :
    Keeps (execVmaxN32 d a b p s) := by
  unfold execVmaxN32; simp [h]

@[simp] theorem keeps_execVaddF32 {s : State} (h : Memory.wf s.mem.bytes = true) (d : VReg) (a : Operand) (b : Operand) (p : Bool) :
    Keeps (execVaddF32 d a b p s) := by
  unfold execVaddF32; simp [h]

@[simp] theorem keeps_execVfmaF32 {s : State} (h : Memory.wf s.mem.bytes = true) (d : VReg) (a : Operand) (b : Operand) (p : Bool) :
    Keeps (execVfmaF32 d a b p s) := by
  unfold execVfmaF32; simp [h]

@[simp] theorem keeps_execVsubF32 {s : State} (h : Memory.wf s.mem.bytes = true) (d : VReg) (a : Operand) (b : Operand) (p : Bool) :
    Keeps (execVsubF32 d a b p s) := by
  unfold execVsubF32; simp [h]

@[simp] theorem keeps_execVmulF32 {s : State} (h : Memory.wf s.mem.bytes = true) (d : VReg) (a : Operand) (b : Operand) (p : Bool) :
    Keeps (execVmulF32 d a b p s) := by
  unfold execVmulF32; simp [h]

@[simp] theorem keeps_execVminF32 {s : State} (h : Memory.wf s.mem.bytes = true) (d : VReg) (a : Operand) (b : Operand) (p : Bool) :
    Keeps (execVminF32 d a b p s) := by
  unfold execVminF32; simp [h]

@[simp] theorem keeps_execVmaxF32 {s : State} (h : Memory.wf s.mem.bytes = true) (d : VReg) (a : Operand) (b : Operand) (p : Bool) :
    Keeps (execVmaxF32 d a b p s) := by
  unfold execVmaxF32; simp [h]

@[simp] theorem keeps_execVrcpF32 {s : State} (h : Memory.wf s.mem.bytes = true) (d : VReg) (a : Operand) (p : Bool) :
    Keeps (execVrcpF32 d a p s) := by
  unfold execVrcpF32; simp [h]

@[simp] theorem keeps_execVrsqrtF32 {s : State} (h : Memory.wf s.mem.bytes = true) (d : VReg) (a : Operand) (p : Bool) :
    Keeps (execVrsqrtF32 d a p s) := by
  unfold execVrsqrtF32; simp [h]

@[simp] theorem keeps_execVsqrtF32 {s : State} (h : Memory.wf s.mem.bytes = true) (d : VReg) (a : Operand) (p : Bool) :
    Keeps (execVsqrtF32 d a p s) := by
  unfold execVsqrtF32; simp [h]

@[simp] theorem keeps_execVexp2F32 {s : State} (h : Memory.wf s.mem.bytes = true) (d : VReg) (a : Operand) (p : Bool) :
    Keeps (execVexp2F32 d a p s) := by
  unfold execVexp2F32; simp [h]

@[simp] theorem keeps_execVlog2F32 {s : State} (h : Memory.wf s.mem.bytes = true) (d : VReg) (a : Operand) (p : Bool) :
    Keeps (execVlog2F32 d a p s) := by
  unfold execVlog2F32; simp [h]

@[simp] theorem keeps_execVabsF32 {s : State} (h : Memory.wf s.mem.bytes = true) (d : VReg) (a : Operand) (p : Bool) :
    Keeps (execVabsF32 d a p s) := by
  unfold execVabsF32; simp [h]

@[simp] theorem keeps_execVnegF32 {s : State} (h : Memory.wf s.mem.bytes = true) (d : VReg) (a : Operand) (p : Bool) :
    Keeps (execVnegF32 d a p s) := by
  unfold execVnegF32; simp [h]

@[simp] theorem keeps_execVfmsF32 {s : State} (h : Memory.wf s.mem.bytes = true) (d : VReg) (a : Operand) (b : Operand) (p : Bool) :
    Keeps (execVfmsF32 d a b p s) := by
  unfold execVfmsF32; simp [h]

@[simp] theorem keeps_execVrndF32 {s : State} (h : Memory.wf s.mem.bytes = true) (d : VReg) (a : Operand) (mode : Fin 4) (p : Bool) :
    Keeps (execVrndF32 d a mode p s) := by
  unfold execVrndF32; simp [h]

@[simp] theorem keeps_execVclassF32 {s : State} (h : Memory.wf s.mem.bytes = true) (d : VReg) (a : Operand) (p : Bool) :
    Keeps (execVclassF32 d a p s) := by
  unfold execVclassF32; simp [h]

@[simp] theorem keeps_execVaddF16 {s : State} (h : Memory.wf s.mem.bytes = true) (d : VReg) (a : Operand) (b : Operand) (p : Bool) :
    Keeps (execVaddF16 d a b p s) := by
  unfold execVaddF16; simp [h]

@[simp] theorem keeps_execVfmaF16 {s : State} (h : Memory.wf s.mem.bytes = true) (d : VReg) (a : Operand) (b : Operand) (p : Bool) :
    Keeps (execVfmaF16 d a b p s) := by
  unfold execVfmaF16; simp [h]

@[simp] theorem keeps_execVmulF16 {s : State} (h : Memory.wf s.mem.bytes = true) (d : VReg) (a : Operand) (b : Operand) (p : Bool) :
    Keeps (execVmulF16 d a b p s) := by
  unfold execVmulF16; simp [h]

@[simp] theorem keeps_execVaddBf16 {s : State} (h : Memory.wf s.mem.bytes = true) (d : VReg) (a : Operand) (b : Operand) (p : Bool) :
    Keeps (execVaddBf16 d a b p s) := by
  unfold execVaddBf16; simp [h]

@[simp] theorem keeps_execVfmaBf16 {s : State} (h : Memory.wf s.mem.bytes = true) (d : VReg) (a : Operand) (b : Operand) (p : Bool) :
    Keeps (execVfmaBf16 d a b p s) := by
  unfold execVfmaBf16; simp [h]

@[simp] theorem keeps_execVmulBf16 {s : State} (h : Memory.wf s.mem.bytes = true) (d : VReg) (a : Operand) (b : Operand) (p : Bool) :
    Keeps (execVmulBf16 d a b p s) := by
  unfold execVmulBf16; simp [h]

@[simp] theorem keeps_execVmovB32 {s : State} (h : Memory.wf s.mem.bytes = true) (d : VReg) (a : Operand) (p : Bool) :
    Keeps (execVmovB32 d a p s) := by
  unfold execVmovB32; simp [h]

@[simp] theorem keeps_execVpopcB32 {s : State} (h : Memory.wf s.mem.bytes = true) (d : VReg) (a : Operand) (p : Bool) :
    Keeps (execVpopcB32 d a p s) := by
  unfold execVpopcB32; simp [h]

@[simp] theorem keeps_execVclzB32 {s : State} (h : Memory.wf s.mem.bytes = true) (d : VReg) (a : Operand) (p : Bool) :
    Keeps (execVclzB32 d a p s) := by
  unfold execVclzB32; simp [h]

@[simp] theorem keeps_execVbrevB32 {s : State} (h : Memory.wf s.mem.bytes = true) (d : VReg) (a : Operand) (p : Bool) :
    Keeps (execVbrevB32 d a p s) := by
  unfold execVbrevB32; simp [h]

@[simp] theorem keeps_execVdot4I8 {s : State} (h : Memory.wf s.mem.bytes = true) (d : VReg) (a : Operand) (b : Operand) (p : Bool) :
    Keeps (execVdot4I8 d a b p s) := by
  unfold execVdot4I8; simp [h]

@[simp] theorem keeps_execVaddF32Rz {s : State} (h : Memory.wf s.mem.bytes = true) (d : VReg) (a : Operand) (b : Operand) (p : Bool) :
    Keeps (execVaddF32Rz d a b p s) := by
  unfold execVaddF32Rz; simp [h]

@[simp] theorem keeps_execVaddF32Ru {s : State} (h : Memory.wf s.mem.bytes = true) (d : VReg) (a : Operand) (b : Operand) (p : Bool) :
    Keeps (execVaddF32Ru d a b p s) := by
  unfold execVaddF32Ru; simp [h]

@[simp] theorem keeps_execVaddF32Rd {s : State} (h : Memory.wf s.mem.bytes = true) (d : VReg) (a : Operand) (b : Operand) (p : Bool) :
    Keeps (execVaddF32Rd d a b p s) := by
  unfold execVaddF32Rd; simp [h]

@[simp] theorem keeps_execVsubF32Rz {s : State} (h : Memory.wf s.mem.bytes = true) (d : VReg) (a : Operand) (b : Operand) (p : Bool) :
    Keeps (execVsubF32Rz d a b p s) := by
  unfold execVsubF32Rz; simp [h]

@[simp] theorem keeps_execVsubF32Ru {s : State} (h : Memory.wf s.mem.bytes = true) (d : VReg) (a : Operand) (b : Operand) (p : Bool) :
    Keeps (execVsubF32Ru d a b p s) := by
  unfold execVsubF32Ru; simp [h]

@[simp] theorem keeps_execVsubF32Rd {s : State} (h : Memory.wf s.mem.bytes = true) (d : VReg) (a : Operand) (b : Operand) (p : Bool) :
    Keeps (execVsubF32Rd d a b p s) := by
  unfold execVsubF32Rd; simp [h]

@[simp] theorem keeps_execVmulF32Rz {s : State} (h : Memory.wf s.mem.bytes = true) (d : VReg) (a : Operand) (b : Operand) (p : Bool) :
    Keeps (execVmulF32Rz d a b p s) := by
  unfold execVmulF32Rz; simp [h]

@[simp] theorem keeps_execVmulF32Ru {s : State} (h : Memory.wf s.mem.bytes = true) (d : VReg) (a : Operand) (b : Operand) (p : Bool) :
    Keeps (execVmulF32Ru d a b p s) := by
  unfold execVmulF32Ru; simp [h]

@[simp] theorem keeps_execVmulF32Rd {s : State} (h : Memory.wf s.mem.bytes = true) (d : VReg) (a : Operand) (b : Operand) (p : Bool) :
    Keeps (execVmulF32Rd d a b p s) := by
  unfold execVmulF32Rd; simp [h]

@[simp] theorem keeps_execVfmaF32Rz {s : State} (h : Memory.wf s.mem.bytes = true) (d : VReg) (a : Operand) (b : Operand) (p : Bool) :
    Keeps (execVfmaF32Rz d a b p s) := by
  unfold execVfmaF32Rz; simp [h]

@[simp] theorem keeps_execVfmaF32Ru {s : State} (h : Memory.wf s.mem.bytes = true) (d : VReg) (a : Operand) (b : Operand) (p : Bool) :
    Keeps (execVfmaF32Ru d a b p s) := by
  unfold execVfmaF32Ru; simp [h]

@[simp] theorem keeps_execVfmaF32Rd {s : State} (h : Memory.wf s.mem.bytes = true) (d : VReg) (a : Operand) (b : Operand) (p : Bool) :
    Keeps (execVfmaF32Rd d a b p s) := by
  unfold execVfmaF32Rd; simp [h]

@[simp] theorem keeps_vecCmp {s : State} (h : Memory.wf s.mem.bytes = true) (ty : OpTy) (m : MReg) (a : Operand) (b : Operand) (p :
    Bool) (f : Word → Word → Bool) :
    Keeps (vecCmp s ty m a b p f) := by
  unfold vecCmp; simp [h]

@[simp] theorem keeps_execVcmpI32 {s : State} (h : Memory.wf s.mem.bytes = true) (c : Fin 8) (m : MReg) (a : Operand) (b : Operand) (p :
    Bool) :
    Keeps (execVcmpI32 c m a b p s) := by
  unfold execVcmpI32; simp [h]

@[simp] theorem keeps_execVcmpN32 {s : State} (h : Memory.wf s.mem.bytes = true) (c : Fin 8) (m : MReg) (a : Operand) (b : Operand) (p :
    Bool) :
    Keeps (execVcmpN32 c m a b p s) := by
  unfold execVcmpN32; simp [h]

@[simp] theorem keeps_execVcmpF32 {s : State} (h : Memory.wf s.mem.bytes = true) (c : Fin 8) (m : MReg) (a : Operand) (b : Operand) (p :
    Bool) :
    Keeps (execVcmpF32 c m a b p s) := by
  unfold execVcmpF32; simp [h]

@[simp] theorem keeps_execVselB32 {s : State} (h : Memory.wf s.mem.bytes = true) (d : VReg) (a : Operand) (b : Operand) :
    Keeps (execVselB32 d a b s) := by
  unfold execVselB32; simp [h]

@[simp] theorem keeps_vecCvt {s : State} (h : Memory.wf s.mem.bytes = true) (ty : OpTy) (d : VReg) (a : Operand) (p : Bool) (f : Word →
    ℕ) :
    Keeps (vecCvt s ty d a p f) := by
  unfold vecCvt; simp [h]

@[simp] theorem keeps_vecNarrow {s : State} (h : Memory.wf s.mem.bytes = true) (d : VReg) (a : Operand) (k : CvtCtl) (p : Bool) (n : ℕ)
    (f : RMode → ℕ → ℕ) :
    Keeps (vecNarrow s d a k p n f) := by
  unfold vecNarrow; simp [h]

@[simp] theorem keeps_execVcvtF32I32 {s : State} (h : Memory.wf s.mem.bytes = true) (d : VReg) (a : Operand) (k : CvtCtl) (p : Bool) :
    Keeps (execVcvtF32I32 d a k p s) := by
  unfold execVcvtF32I32; simp [h]

@[simp] theorem keeps_execVcvtF32N32 {s : State} (h : Memory.wf s.mem.bytes = true) (d : VReg) (a : Operand) (k : CvtCtl) (p : Bool) :
    Keeps (execVcvtF32N32 d a k p s) := by
  unfold execVcvtF32N32; simp [h]

@[simp] theorem keeps_execVcvtI32F32 {s : State} (h : Memory.wf s.mem.bytes = true) (d : VReg) (a : Operand) (k : CvtCtl) (p : Bool) :
    Keeps (execVcvtI32F32 d a k p s) := by
  unfold execVcvtI32F32; simp [h]

@[simp] theorem keeps_execVcvtN32F32 {s : State} (h : Memory.wf s.mem.bytes = true) (d : VReg) (a : Operand) (k : CvtCtl) (p : Bool) :
    Keeps (execVcvtN32F32 d a k p s) := by
  unfold execVcvtN32F32; simp [h]

@[simp] theorem keeps_execVcvtF16F32 {s : State} (h : Memory.wf s.mem.bytes = true) (d : VReg) (a : Operand) (k : CvtCtl) (p : Bool) :
    Keeps (execVcvtF16F32 d a k p s) := by
  unfold execVcvtF16F32; simp [h]

@[simp] theorem keeps_execVcvtBf16F32 {s : State} (h : Memory.wf s.mem.bytes = true) (d : VReg) (a : Operand) (k : CvtCtl) (p : Bool) :
    Keeps (execVcvtBf16F32 d a k p s) := by
  unfold execVcvtBf16F32; simp [h]

@[simp] theorem keeps_execVcvtE4m3F32 {s : State} (h : Memory.wf s.mem.bytes = true) (d : VReg) (a : Operand) (k : CvtCtl) (p : Bool) :
    Keeps (execVcvtE4m3F32 d a k p s) := by
  unfold execVcvtE4m3F32; simp [h]

@[simp] theorem keeps_execVcvtE5m2F32 {s : State} (h : Memory.wf s.mem.bytes = true) (d : VReg) (a : Operand) (k : CvtCtl) (p : Bool) :
    Keeps (execVcvtE5m2F32 d a k p s) := by
  unfold execVcvtE5m2F32; simp [h]

@[simp] theorem keeps_execVcvtLog6F32 {s : State} (h : Memory.wf s.mem.bytes = true) (d : VReg) (a : Operand) (k : CvtCtl) (p : Bool) :
    Keeps (execVcvtLog6F32 d a k p s) := by
  unfold execVcvtLog6F32; simp [h]

@[simp] theorem keeps_execVcvtF32F16 {s : State} (h : Memory.wf s.mem.bytes = true) (d : VReg) (a : Operand) (k : CvtCtl) (p : Bool) :
    Keeps (execVcvtF32F16 d a k p s) := by
  unfold execVcvtF32F16; simp [h]

@[simp] theorem keeps_execVcvtF32Bf16 {s : State} (h : Memory.wf s.mem.bytes = true) (d : VReg) (a : Operand) (k : CvtCtl) (p : Bool) :
    Keeps (execVcvtF32Bf16 d a k p s) := by
  unfold execVcvtF32Bf16; simp [h]

@[simp] theorem keeps_execVcvtF32E4m3 {s : State} (h : Memory.wf s.mem.bytes = true) (d : VReg) (a : Operand) (k : CvtCtl) (p : Bool) :
    Keeps (execVcvtF32E4m3 d a k p s) := by
  unfold execVcvtF32E4m3; simp [h]

@[simp] theorem keeps_execVcvtF32E5m2 {s : State} (h : Memory.wf s.mem.bytes = true) (d : VReg) (a : Operand) (k : CvtCtl) (p : Bool) :
    Keeps (execVcvtF32E5m2 d a k p s) := by
  unfold execVcvtF32E5m2; simp [h]

@[simp] theorem keeps_execVcvtF32Log6 {s : State} (h : Memory.wf s.mem.bytes = true) (d : VReg) (a : Operand) (k : CvtCtl) (p : Bool) :
    Keeps (execVcvtF32Log6 d a k p s) := by
  unfold execVcvtF32Log6; simp [h]

/-! ### Machine/Lanes.lean -/

@[simp] theorem keeps_laneChecked {s ok : State} (h : Memory.wf s.mem.bytes = true) (hok : Memory.wf ok.mem.bytes = true)
    (names : List Nat) (bad : List (Nat × Word)) : Keeps (laneChecked s names bad ok) := by
  unfold laneChecked; (repeat' split) <;> simp [h, hok]

@[simp] theorem keeps_laneRead {s : State} (h : Memory.wf s.mem.bytes = true) (d : VReg) (a : VReg) (b : Operand) (p : Bool) (src : ℕ →
    ℕ) :
    Keeps (laneRead s d a b p src) := by
  unfold laneRead; simp [h]

@[simp] theorem keeps_execVshflB32 {s : State} (h : Memory.wf s.mem.bytes = true) (d : VReg) (a : VReg) (b : Operand) (p : Bool) :
    Keeps (execVshflB32 d a b p s) := by
  unfold execVshflB32; simp [h]

@[simp] theorem keeps_execVbcastB32 {s : State} (h : Memory.wf s.mem.bytes = true) (d : VReg) (a : VReg) (b : Operand) (p : Bool) :
    Keeps (execVbcastB32 d a b p s) := by
  unfold execVbcastB32; simp [h]

@[simp] theorem keeps_neighbour {s : State} (h : Memory.wf s.mem.bytes = true) (d : VReg) (a : VReg) (sel : Fin 4) (p : Bool) (dir : ℤ)
    :
    Keeps (neighbour s d a sel p dir) := by
  unfold neighbour; simp [h]

@[simp] theorem keeps_execVnblB32 {s : State} (h : Memory.wf s.mem.bytes = true) (d : VReg) (a : VReg) (sel : Fin 4) (p : Bool) :
    Keeps (execVnblB32 d a sel p s) := by
  unfold execVnblB32; simp [h]

@[simp] theorem keeps_execVnbrB32 {s : State} (h : Memory.wf s.mem.bytes = true) (d : VReg) (a : VReg) (sel : Fin 4) (p : Bool) :
    Keeps (execVnbrB32 d a sel p s) := by
  unfold execVnbrB32; simp [h]

@[simp] theorem keeps_reduce {s : State} (h : Memory.wf s.mem.bytes = true) (d : VReg) (a : VReg) (p : Bool) (scan : Bool) (start : Word
    → Word) (f : Word → Word → Word) :
    Keeps (reduce s d a p scan start f) := by
  unfold reduce; simp [h]

@[simp] theorem keeps_execVredAddI32 {s : State} (h : Memory.wf s.mem.bytes = true) (d : VReg) (a : VReg) (p : Bool) :
    Keeps (execVredAddI32 d a p s) := by
  unfold execVredAddI32; simp [h]

@[simp] theorem keeps_execVredAddF32 {s : State} (h : Memory.wf s.mem.bytes = true) (d : VReg) (a : VReg) (p : Bool) :
    Keeps (execVredAddF32 d a p s) := by
  unfold execVredAddF32; simp [h]

@[simp] theorem keeps_execVredMaxF32 {s : State} (h : Memory.wf s.mem.bytes = true) (d : VReg) (a : VReg) (p : Bool) :
    Keeps (execVredMaxF32 d a p s) := by
  unfold execVredMaxF32; simp [h]

@[simp] theorem keeps_execVredMinF32 {s : State} (h : Memory.wf s.mem.bytes = true) (d : VReg) (a : VReg) (p : Bool) :
    Keeps (execVredMinF32 d a p s) := by
  unfold execVredMinF32; simp [h]

@[simp] theorem keeps_execVscanAddI32 {s : State} (h : Memory.wf s.mem.bytes = true) (d : VReg) (a : VReg) (p : Bool) :
    Keeps (execVscanAddI32 d a p s) := by
  unfold execVscanAddI32; simp [h]

@[simp] theorem keeps_execVscanAddF32 {s : State} (h : Memory.wf s.mem.bytes = true) (d : VReg) (a : VReg) (p : Bool) :
    Keeps (execVscanAddF32 d a p s) := by
  unfold execVscanAddF32; simp [h]

@[simp] theorem keeps_execVballot {s : State} (h : Memory.wf s.mem.bytes = true) (m : MReg) (a : Operand) (p : Bool) :
    Keeps (execVballot m a p s) := by
  unfold execVballot; simp [h]

@[simp] theorem keeps_execVrdlane {s : State} (h : Memory.wf s.mem.bytes = true) (d : SReg) (a : VReg) (b : Operand) :
    Keeps (execVrdlane d a b s) := by
  unfold execVrdlane; simp [h]

/-! ### Machine/Scale.lean -/

theorem canonical_scaleWait {s u : State} (hs : Memory.wf s.mem.bytes = true) {core : ℕ} {ctx : ℕ} {a : ℕ} (h : scaleWait s core ctx a =
    some u) :
    Memory.wf u.mem.bytes = true := by
  unfold scaleWait at h; grind [canonical_byteWait, canonical_deviceError]

@[simp] theorem bytes_useScale (s : State) (core : ℕ) (ctx : ℕ) (a : ℕ) :
    (useScale s core ctx a).mem.bytes = s.mem.bytes := by
  unfold useScale; dsimp only; (repeat' split) <;> simp

@[simp] theorem bytes_scvtEffect (s : State) (d : VReg) (a : VReg) (k : CvtCtl) (lanes : Word) (e : EcbEntry) (n : ℕ → ℕ) :
    (scvtEffect s d a k lanes e n).mem.bytes = s.mem.bytes := by
  unfold scvtEffect; simp

@[simp] theorem keeps_execVscvt {s : State} (h : Memory.wf s.mem.bytes = true) (d : VReg) (a : VReg) (k : CvtCtl) (p : Bool) :
    Keeps (execVscvt d a k p s) := by
  unfold execVscvt; dsimp only; (repeat' split) <;> simp [h]

/-! ### Machine/Matrix.lean -/

@[simp] theorem bytes_enterMop (s : State) (o : MOp) : (State.enterMop s o).mem.bytes = s.mem.bytes := by unfold State.enterMop; simp
@[simp] theorem canonical_matFault {s : State} (h : Memory.wf s.mem.bytes = true) (f : FaultInfo) :
    Memory.wf (State.matFault s f).mem.bytes = true := by
  unfold State.matFault; simp [h]

@[simp] theorem keeps_wbldWord {s : State} (h : Memory.wf s.mem.bytes = true) (form : ℕ) (sa : SReg) (sw : SReg) (sk : SReg) :
    Keeps (wbldWord s form sa sw sk) := by
  unfold wbldWord; dsimp only; (repeat' split) <;> simp [h]

@[simp] theorem keeps_execWbldDense {s : State} (h : Memory.wf s.mem.bytes = true) (sa : SReg) (sw : SReg) (sk : SReg) :
    Keeps (execWbldDense sa sw sk s) := by
  unfold execWbldDense; simp [h]

@[simp] theorem keeps_execWbldSp24 {s : State} (h : Memory.wf s.mem.bytes = true) (sa : SReg) (sw : SReg) (sk : SReg) :
    Keeps (execWbldSp24 sa sw sk s) := by
  unfold execWbldSp24; simp [h]

@[simp] theorem keeps_execWbldCb4 {s : State} (h : Memory.wf s.mem.bytes = true) (sa : SReg) (sw : SReg) (sk : SReg) :
    Keeps (execWbldCb4 sa sw sk s) := by
  unfold execWbldCb4; simp [h]

@[simp] theorem keeps_mmaWord {s : State} (h : Memory.wf s.mem.bytes = true) (fmt : ℕ) (t : Fin 4) (sa : SReg) (sw : SReg) (sk : SReg)
    (pr : Bool) :
    Keeps (mmaWord s fmt t sa sw sk pr) := by
  unfold mmaWord; dsimp only; (repeat' split) <;> simp [h]

@[simp] theorem keeps_execMmaE4m3 {s : State} (h : Memory.wf s.mem.bytes = true) (t : Fin 4) (sa : SReg) (sw : SReg) (sk : SReg) (pr :
    Bool) :
    Keeps (execMmaE4m3 t sa sw sk pr s) := by
  unfold execMmaE4m3; simp [h]

@[simp] theorem keeps_execMmaE5m2 {s : State} (h : Memory.wf s.mem.bytes = true) (t : Fin 4) (sa : SReg) (sw : SReg) (sk : SReg) (pr :
    Bool) :
    Keeps (execMmaE5m2 t sa sw sk pr s) := by
  unfold execMmaE5m2; simp [h]

@[simp] theorem keeps_execMmaBf16 {s : State} (h : Memory.wf s.mem.bytes = true) (t : Fin 4) (sa : SReg) (sw : SReg) (sk : SReg) (pr :
    Bool) :
    Keeps (execMmaBf16 t sa sw sk pr s) := by
  unfold execMmaBf16; simp [h]

@[simp] theorem keeps_execMmaF16 {s : State} (h : Memory.wf s.mem.bytes = true) (t : Fin 4) (sa : SReg) (sw : SReg) (sk : SReg) (pr :
    Bool) :
    Keeps (execMmaF16 t sa sw sk pr s) := by
  unfold execMmaF16; simp [h]

@[simp] theorem keeps_execMmaLog6 {s : State} (h : Memory.wf s.mem.bytes = true) (t : Fin 4) (sa : SReg) (sw : SReg) (sk : SReg) (pr :
    Bool) :
    Keeps (execMmaLog6 t sa sw sk pr s) := by
  unfold execMmaLog6; simp [h]

@[simp] theorem keeps_execTzero {s : State} (h : Memory.wf s.mem.bytes = true) (t : Fin 4) :
    Keeps (execTzero t s) := by
  unfold execTzero; split <;> simp [h]

@[simp] theorem keeps_execTadd {s : State} (h : Memory.wf s.mem.bytes = true) (td : Fin 4) (ts : Fin 4) :
    Keeps (execTadd td ts s) := by
  unfold execTadd; split <;> simp [h]

@[simp] theorem keeps_execTmov {s : State} (h : Memory.wf s.mem.bytes = true) (t : Fin 4) (sa : SReg) :
    Keeps (execTmov t sa s) := by
  unfold execTmov; dsimp only; (repeat' split) <;> simp [h]

@[simp] theorem keeps_tileRows {s : State} (h : Memory.wf s.mem.bytes = true) (code : ℕ) (t : Fin 4) (sa : SReg) (sk : SReg) :
    Keeps (tileRows s code t sa sk) := by
  unfold tileRows; dsimp only; (repeat' split) <;> simp [h]

@[simp] theorem keeps_execTst {s : State} (h : Memory.wf s.mem.bytes = true) (t : Fin 4) (sa : SReg) (sk : SReg) :
    Keeps (execTst t sa sk s) := by
  unfold execTst; simp [h]

@[simp] theorem keeps_execTld {s : State} (h : Memory.wf s.mem.bytes = true) (t : Fin 4) (sa : SReg) (sk : SReg) :
    Keeps (execTld t sa sk s) := by
  unfold execTld; simp [h]

@[simp] theorem bytes_deferMop (s : State) (o : MOp) (va : ℕ) : (deferMop s o va).mem.bytes = s.mem.bytes := by unfold deferMop; simp
theorem canonical_wbldWait {s u : State} (hs : Memory.wf s.mem.bytes = true) {o : MOp} {vas : List ℕ} (h : wbldWait s o vas = some u) :
    Memory.wf u.mem.bytes = true := by
  obtain ⟨a, -, ha⟩ := List.mem_filterMap.1 (List.mem_of_head? h)
  split at ha
  · exact canonical_byteWait hs ha
  · split at ha <;> cases ha
    exact canonical_deviceError hs

theorem canonical_wbldUse {s u : State} (hs : Memory.wf s.mem.bytes = true) {o : MOp} {i : Image} {x : Bool × List ℕ}
    (h : wbldUse s o i = some (u, x)) : Memory.wf u.mem.bytes = true := by
  obtain ⟨src, -, he⟩ := Option.map_eq_some_iff.1 h
  rw [show u = _ from (congrArg Prod.fst he).symm]
  dsimp only
  split
  · exact canonical_foldl (fun s p hs => canonical_useByte hs ..) _ hs
  · exact hs

@[simp] theorem canonical_performWbld {s : State} (h : Memory.wf s.mem.bytes = true) (o : MOp) (i : Image) :
    Memory.wf (performWbld s o i).mem.bytes = true := by
  unfold performWbld
  split
  · next hu =>
    have hk := canonical_wbldUse h hu
    extract_lets bs sc new v
    have hv : Memory.wf v.mem.bytes = true := (congrArg Memory.wf (bytes_updCore ..)).trans hk
    split
    · exact (congrArg Memory.wf (bytes_deferMop ..)).trans hv
    · exact hv
  · exact h

@[simp] theorem bytes_performMma (s : State) (o : MOp) (x : Mma) (core : ℕ) (nc : ℕ) (i : Image) (scale : ℕ → ℕ → ℕ) :
    (performMma s o x core nc i scale).mem.bytes = s.mem.bytes :=
  rfl

@[simp] theorem bytes_performMmas (s : State) (o : MOp) :
    (performMmas s o).mem.bytes = s.mem.bytes := by
  unfold performMmas; dsimp only; (repeat' split) <;> simp

@[simp] theorem bytes_performTst (s : State) (o : MOp) : (performTst s o).mem.bytes = s.mem.bytes := by unfold performTst; simp
@[simp] theorem bytes_performTld (s : State) (o : MOp) : (performTld s o).mem.bytes = s.mem.bytes := rfl
@[simp] theorem bytes_tmovLanes (s : State) (o : MOp) (lanes : Word) :
    (tmovLanes s o lanes).mem.bytes = s.mem.bytes := by
  unfold tmovLanes; simp

@[simp] theorem bytes_performTmov (s : State) (o : MOp) : (performTmov s o).mem.bytes = s.mem.bytes := by unfold performTmov; simp
@[simp] theorem canonical_performMop {s : State} (h : Memory.wf s.mem.bytes = true) (o : MOp) :
    Memory.wf (performMop s o).mem.bytes = true := by
  unfold performMop; (repeat' split) <;> simp [h]

theorem canonical_mopWait {s u : State} (hs : Memory.wf s.mem.bytes = true) {o : MOp} (h : mopWait s o = some u) :
    Memory.wf u.mem.bytes = true :=
  by
  unfold mopWait at h
  extract_lets x at h
  split at h
  · cases h; exact canonical_deviceError hs
  split at h
  · next hf =>
    cases h
    obtain ⟨a, -, ha⟩ := List.exists_of_findSome?_eq_some hf
    exact canonical_scaleWait hs ha
  split at h
  · exact canonical_wbldWait hs h
  · cases h

@[simp] theorem bytes_landTile (s : State) (op : ℕ) (lane : ℕ) :
    (landTile s op lane).mem.bytes = s.mem.bytes := by
  unfold landTile; split <;> simp

@[simp] theorem bytes_readTile (s : State) (op : ℕ) (off : ℕ) :
    (readTile s op off).mem.bytes = s.mem.bytes := by
  unfold readTile; split <;> simp

@[simp] theorem keeps_execMatrixComplete {s : State} (h : Memory.wf s.mem.bytes = true) (op : ℕ) : Keeps (execMatrixComplete op s) := by
  unfold execMatrixComplete
  split
  · simp [h]
  split
  · simp [h]
  split
  · next hw => exact keeps_next.2 (canonical_mopWait h hw)
  · refine keeps_next.2 ?_
    rw [bytes_updWarp]
    exact canonical_performMop (canonical_foldl (fun s a hs => by simp [hs]) _ h) _

/-! ### Machine/Saves.lean -/

@[simp] theorem bytes_flushBlocks (s : State) (g : Group) : (flushBlocks s g).mem.bytes = s.mem.bytes :=
  bytes_foldl (fun _ _ => (bytes_updBlk ..).trans (bytes_foldl (fun _ _ => bytes_haltWarp ..) ..)) ..

@[simp] theorem bytes_flushGroup (s : State) (k : ℕ) (g : Group) :
    (flushGroup s k g).mem.bytes = s.mem.bytes := by
  unfold flushGroup; simp

@[simp] theorem canonical_beginSave {s : State} (h : Memory.wf s.mem.bytes = true) (k : ℕ) (g : Group) (watchdog : Option (ℕ × ℕ)) (yield : List ℕ) :
    Memory.wf (beginSave s k g watchdog yield).mem.bytes = true := by
  unfold beginSave
  dsimp only
  split
  · exact h
  split
  · exact h
  have hu : Memory.wf (if restartable s ‹_› then flushGroup s k g
      else ((liveBlocks s g).filter (fun b => decide (effSslot s (s.blk b).region < imageSize s b))).foldl
        (fun s b => hostError (killBlock s b) 4 g.cluster (‹_› : Task).ctx 1 (‹_› : Task).tcb (s.blk b).no) s).mem.bytes = true := by
    split
    · simp [h]
    · exact canonical_foldl (fun s b hs => by simp [hs]) _ h
  split
  · exact canonical_addFrame hu _
  · exact hu

@[simp] theorem canonical_requestSave {s : State} (h : Memory.wf s.mem.bytes = true) (k : ℕ) (g : Group) (watchdog : Option (ℕ × ℕ))
    (yield : List ℕ) :
    Memory.wf (requestSave s k g watchdog yield).mem.bytes = true := by
  unfold requestSave; simp [h]

@[simp] theorem canonical_preempt {s : State} (h : Memory.wf s.mem.bytes = true) (k : ℕ) (L : ℕ) :
    Memory.wf (preempt s k L).mem.bytes = true := by
  unfold preempt; dsimp only; (repeat' split) <;> simp [h]

@[simp] theorem canonical_takeRequest {s : State} (h : Memory.wf s.mem.bytes = true) (k : ℕ) (g : Group) (p : Preempt) :
    Memory.wf (takeRequest s k g p).mem.bytes = true := by
  unfold takeRequest; split <;> simp [h]

@[simp] theorem canonical_withoutGroups {s : State} (h : Memory.wf s.mem.bytes = true) (ks : List ℕ) :
    Memory.wf (withoutGroups s ks).mem.bytes = true := by
  refine canonical_foldl (fun s k hs => ?_) _ h
  split
  · exact hs
  · extract_lets bs lb sum region u v
    have hu : Memory.wf u.mem.bytes = true := (congrArg Memory.wf (bytes_foldl (fun s b => bytes_foldl (fun s i => bytes_setWarp ..) ..) ..)).trans hs
    exact canonical_useRegion (by exact hu) ..

@[simp] theorem bytes_noteWaits (s : State) : (noteWaits s).mem.bytes = s.mem.bytes := rfl
@[simp] theorem keeps_execPreemptionStarvation {s : State} (h : Memory.wf s.mem.bytes = true) (task : ℕ) :
    Keeps (execPreemptionStarvation task s) := by
  unfold execPreemptionStarvation; dsimp only; (repeat' split) <;> simp [h]

@[simp] theorem canonical_passTime {s : State} (h : Memory.wf s.mem.bytes = true) (ns : ℕ) (cycles : ℕ) :
    Memory.wf (passTime s ns cycles).mem.bytes = true := by
  unfold passTime; simp [h]

@[simp] theorem bytes_releaseYield (s : State) (b : ℕ) (v : Word) : (releaseYield s b v).mem.bytes = s.mem.bytes :=
  bytes_foldl (fun s i => bytes_foldl (fun s j => by split <;> simp) ..) ..

@[simp] theorem bytes_dropWords (s : State) (core : ℕ) (wslot : ℕ) : (dropWords s core wslot).mem.bytes = s.mem.bytes := rfl
@[simp] theorem canonical_saveBlock {s : State} (h : Memory.wf s.mem.bytes = true) (b slot tcb : ℕ) :
    Memory.wf (saveBlock s b slot tcb).mem.bytes = true := by
  unfold saveBlock
  extract_lets x ws recs tag u v w
  have hw : Memory.wf w.mem.bytes = true :=
    (congrArg Memory.wf (bytes_foldl (fun s i => (bytes_setWarp ..).trans (bytes_dropWords ..)) ..)).trans (canonical_markSlot (canonical_devWrite h ..) ..)
  split
  · exact (congrArg Memory.wf (bytes_clearMatrix ..)).trans hw
  · exact hw

@[simp] theorem canonical_saveGroup {s : State} (h : Memory.wf s.mem.bytes = true) (k : ℕ) (g : Group) (p : Preempt) (t : Task) (slots : List ℕ) :
    Memory.wf (saveGroup s k g p t slots).mem.bytes = true := by
  have hy : Memory.wf (p.yield.foldl (fun s b => releaseYield s b 1) s).mem.bytes = true :=
    (congrArg Memory.wf (bytes_foldl (fun s b => bytes_releaseYield s b 1) ..)).trans h
  unfold saveGroup
  generalize p.yield.foldl (fun s b => releaseYield s b 1) s = u at hy ⊢
  extract_lets live u region slotOf
  split
  next n v hv =>
  have h1 : Memory.wf v.mem.bytes = true := by
    have : v = u.fresh.2 := (congrArg Prod.snd hv).symm
    rw [this]; exact hy
  extract_lets keep frame w bs lb w1 w2 k2 z
  have hw : Memory.wf w.mem.bytes = true := canonical_foldl (fun s q hs => canonical_saveBlock hs ..) _ h1
  have hw1 : Memory.wf w1.mem.bytes = true := (congrArg Memory.wf (bytes_foldl (fun s b => bytes_updBlk ..) ..)).trans hw
  have hz : Memory.wf z.mem.bytes = true := canonical_useRegion hw1 ..
  refine (congrArg Memory.wf (bytes_settleReady ..)).trans ?_
  clear_value z frame
  split
  · exact canonical_addFrame hz _
  · exact hz

@[simp] theorem keeps_execSaveComplete {s : State} (h : Memory.wf s.mem.bytes = true) (group : ℕ) : Keeps (execSaveComplete group s) := by
  unfold execSaveComplete
  split
  · simp [h]
  split
  · extract_lets live b slots u
    split
    · simp [h]
    split
    · exact keeps_next.2 (canonical_takeRequest h ..)
    split
    · simp [h]
    split
    · exact keeps_next.2 (canonical_deviceError h)
    split
    · exact keeps_next.2 (canonical_devTurn h _ fun t ht => canonical_saveGroup ht ..)
    split
    · split
      · simp [h]
      · exact keeps_next.2 (canonical_hostError ((congrArg Memory.wf (bytes_setGroup ..)).trans h) ..)
    · refine keeps_next.2 ((congrArg Memory.wf (bytes_foldl (fun s y => bytes_releaseYield s y 0) ..)).trans ?_)
      exact (congrArg Memory.wf (bytes_setGroup ..)).trans h
  · simp [h]

@[simp] theorem keeps_execRldSaveTimeout {s : State} (h : Memory.wf s.mem.bytes = true) (group : ℕ) :
    Keeps (execRldSaveTimeout group s) := by
  unfold execRldSaveTimeout; (repeat' split) <;> simp [h]

@[simp] theorem keeps_execWatchdogExpire {s : State} (h : Memory.wf s.mem.bytes = true) (block : ℕ) :
    Keeps (execWatchdogExpire block s) := by
  unfold execWatchdogExpire; dsimp only; (repeat' split) <;> simp [h]

@[simp] theorem canonical_reissueReplay {s : State} (h : Memory.wf s.mem.bytes = true) (core : ℕ) (wslot : ℕ) (b : List Byte) :
    Memory.wf (reissueReplay s core wslot b).mem.bytes = true := by
  unfold reissueReplay; dsimp only; (repeat' split) <;> simp [h]

@[simp] theorem canonical_restoreWarps {s : State} (h : Memory.wf s.mem.bytes = true) (b place : ℕ) (g : Saved) (r : Restored) :
    Memory.wf (restoreWarps s b place g r).mem.bytes = true := by
  unfold restoreWarps
  refine canonical_foldl (fun s p hs => canonical_foldl (fun s y hs => canonical_reissueReplay hs ..) _ ?_) _ h
  simpa using hs

@[simp] theorem canonical_restoreBlock {s : State} (h : Memory.wf s.mem.bytes = true) (core : ℕ) (grp : ℕ) (i : ℕ) (t : Task) (n : Need)
    (x : Block) (slot : Option ℕ) (wbad : List ℕ) :
    Memory.wf (restoreBlock s core grp i t n x slot wbad).1.mem.bytes = true := by
  unfold restoreBlock
  grind [bytes_fresh, bytes_setBlk, canonical_markSlot, bytes_updCore, canonical_hostError, canonical_tcbCount, bytes_setTask, bytes_dropSelected, canonical_returnTaken]

@[simp] theorem bytes_abandonKept (s : State) (blocks : List ℕ) (l : List ObjRef) :
    (abandonKept s blocks l).mem.bytes = s.mem.bytes := by
  unfold abandonKept; simp

@[simp] theorem canonical_restoreGroup {s : State} (h : Memory.wf s.mem.bytes = true) (cluster x0 y0 k : ℕ) (g : Saved) (i : ℕ) (t : Task)
    (n : Need) : Memory.wf (restoreGroup s cluster x0 y0 k g i t n).mem.bytes = true := by
  unfold restoreGroup
  split
  next gk v hv =>
  have h1 : Memory.wf v.mem.bytes = true := by
    have : v = s.fresh.2 := (congrArg Prod.snd hv).symm
    rw [this]; exact h
  extract_lets items
  split
  next w out hw =>
  have h2 : Memory.wf w.mem.bytes = true := by
    rw [show w = _ from (congrArg Prod.fst hw).symm]
    refine canonical_foldl_fst (β := List (Nat × Option Restored)) ?_ items (p := (v, [])) h1
    exact fun a p ha => canonical_restoreBlock ha ..
  extract_lets w1 grp k3 w3 w4 bs lb w5 w6 w7
  have hw1 : Memory.wf w1.mem.bytes = true := canonical_foldl (fun s p hs => by
    split
    · exact (congrArg Memory.wf (bytes_abandonKept ..)).trans hs
    · exact hs) _ h2
  have hw4 : Memory.wf w4.mem.bytes = true := (congrArg Memory.wf (bytes_setGroup ..)).trans (by exact hw1)
  have hw5 : Memory.wf w5.mem.bytes = true := canonical_useRegion hw4 ..
  have hw6 : Memory.wf w6.mem.bytes = true := canonical_startGroup hw5 i _
  have hw7 : Memory.wf w7.mem.bytes = true := canonical_foldl (fun s p hs => by
    split
    · exact canonical_restoreWarps hs ..
    · exact hs) _ hw6
  exact canonical_endGroup hw7 _

@[simp] theorem canonical_placeNext {s : State} (h : Memory.wf s.mem.bytes = true) (cluster i : ℕ) (t : Task) (x : Tcb) (n : Need) (g : NextGroup)
    (p : ℕ × ℕ) : Memory.wf (placeNext s cluster i t x n g p).mem.bytes = true := by
  refine canonical_devTurn h _ fun u hu => ?_
  cases g with
  | fresh k => exact canonical_placeGroup hu ..
  | saved k =>
    dsimp only
    split
    · exact canonical_deviceError hu
    split
    · exact canonical_restoreGroup hu ..
    · exact hu

@[simp] theorem canonical_decideOver {s : State} (h : Memory.wf s.mem.bytes = true) (cluster : ℕ) (pw : Option ℕ) (l : List (ℕ × Task)) :
    Memory.wf (decideOver s cluster pw l).mem.bytes = true := by
  induction l generalizing pw with
  | nil => cases pw <;> exact h
  | cons a rest ih =>
    obtain ⟨i, t⟩ := a
    rw [decideOver]
    extract_lets x n
    split
    · exact h
    split
    · exact ih _
    extract_lets shape
    split
    · exact ih _
    · split
      · exact ih _
      · exact canonical_placeNext h ..

@[simp] theorem keeps_execDispatchDecision {s : State} (h : Memory.wf s.mem.bytes = true) (cluster : ℕ) :
    Keeps (execDispatchDecision cluster s) := by
  unfold execDispatchDecision; dsimp only; (repeat' split) <;> simp [h]

/-! ### Machine/Mgmt.lean -/

@[simp] theorem canonical_mqDone {s : State} (h : Memory.wf s.mem.bytes = true) (status : ℕ) :
    Memory.wf (mqDone s status).mem.bytes = true := by
  unfold mqDone; simp [h]

theorem keeps_command {s : State} (h : Memory.wf s.mem.bytes = true) (code : ℕ) (named : List (ℕ × ℕ)) {act : List Byte → Except ℕ State}
    (ha : ∀ t, act (pread s (mqSlot s) 64) = .ok t → Memory.wf t.mem.bytes = true) : Keeps (command s code named act) := by
  unfold command
  dsimp only
  split
  · simp [h]
  split
  · simp [h]
  split
  · next t ht => simp [ha t ht]
  · simp [h]

@[simp] theorem canonical_indexInsert {s : State} (h : Memory.wf s.mem.bytes = true) (ctx : ℕ) (base : ℕ) (xid : ℕ) :
    Memory.wf (indexInsert s ctx base xid).mem.bytes = true := by
  unfold indexInsert
  extract_lets r pos tail u v a w
  have hw : Memory.wf w.mem.bytes = true := canonical_patch64 (canonical_pwrite (canonical_pwrite h ..) ..) ..
  split
  · exact canonical_patch64 hw ..
  · exact hw

@[simp] theorem canonical_indexRemove {s : State} (h : Memory.wf s.mem.bytes = true) (ctx : ℕ) (base : ℕ) :
    Memory.wf (indexRemove s ctx base).mem.bytes = true := by
  unfold indexRemove
  extract_lets r
  split
  · exact h
  extract_lets tail u a w
  have hw : Memory.wf w.mem.bytes = true := canonical_patch64 (canonical_pwrite h ..) ..
  split
  · exact hw
  · exact canonical_patch64 hw ..

@[simp] theorem canonical_createAt {s : State} (h : Memory.wf s.mem.bytes = true) (d : Desc) (b : List Byte) (off : ℕ) :
    Memory.wf (createAt s d b off).mem.bytes = true := by
  unfold createAt; simp [h]

theorem canonical_createExtent {s u : State} (hs : Memory.wf s.mem.bytes = true) {ctx xid img : ℕ} (h : createExtent s ctx xid img = .ok u) :
    Memory.wf u.mem.bytes = true := by
  unfold createExtent at h
  extract_lets b d at h
  split at h
  · cases h
  split at h
  · cases h; exact canonical_createAt hs ..
  split at h
  · split at h <;> cases h
    exact canonical_createAt hs ..
  split at h <;> cases h
  exact canonical_createAt (s := { s with free := s.free + 1 }) hs ..

@[simp] theorem keeps_execExtentCreate {s : State} (h : Memory.wf s.mem.bytes = true) : Keeps (execExtentCreate s) :=
  keeps_command h 1 _ fun _ ht => canonical_createExtent h ht

@[simp] theorem keeps_execExtentRetire {s : State} (h : Memory.wf s.mem.bytes = true) :
    Keeps (execExtentRetire s) := by
  unfold execExtentRetire; dsimp only; (repeat' split) <;> simp [h]

@[simp] theorem canonical_retireLine {s : State} (h : Memory.wf s.mem.bytes = true) (d : Desc) (line : ℕ) :
    Memory.wf (retireLine s d line).mem.bytes = true := by
  unfold retireLine; simp [h]

@[simp] theorem bytes_dropExtL1 (s : State) (d : Desc) : (dropExtL1 s d).mem.bytes = s.mem.bytes := rfl
@[simp] theorem canonical_removeExtent {s : State} (h : Memory.wf s.mem.bytes = true) (e : LiveExt) (d : Desc) :
    Memory.wf (removeExtent s e d).mem.bytes = true := by
  unfold removeExtent
  extract_lets u exts cores
  have hu : Memory.wf u.mem.bytes = true := canonical_pwrite (canonical_indexRemove h ..) ..
  clear_value u
  exact canonical_mqDone (by exact hu) _

@[simp] theorem keeps_execRetireAccessesDrained {s : State} (h : Memory.wf s.mem.bytes = true) (ctx : ℕ) (xid : ℕ) :
    Keeps (execRetireAccessesDrained ctx xid s) := by
  unfold execRetireAccessesDrained
  split
  · simp [h]
  next e _ =>
  extract_lets d u
  have hu : Memory.wf u.mem.bytes = true := by
    unfold u
    split
    · exact h
    · rw [bytes_dropExtL1]
      exact canonical_foldl (fun s l hs => canonical_retireLine hs ..) _ h
  split
  · simp [h]
  split
  · simp [hu]
  split
  · simp [hu]
  · refine keeps_next.2 ?_
    split
    · exact canonical_removeExtent (canonical_stopSlide hu _) ..
    · exact (bytes_setSlide ..).symm ▸ hu

theorem bytes_writeWindow {s u : State} {c : List Byte} (h : writeWindow s c = .ok u) : u.mem.bytes = s.mem.bytes := by
  unfold writeWindow at h
  extract_lets n w valid overlap at h
  split at h <;> cases h
  rfl

@[simp] theorem keeps_execHostWindowWrite {s : State} (h : Memory.wf s.mem.bytes = true) : Keeps (execHostWindowWrite s) :=
  keeps_command h 3 _ fun _ ht => (congrArg Memory.wf (bytes_writeWindow ht)).trans h

@[simp] theorem bytes_clearStore (s : State) (base : ℕ) (len : ℕ) : (clearStore s base len).mem.bytes = s.mem.bytes := rfl
theorem canonical_writeRcb {s u : State} (hs : Memory.wf s.mem.bytes = true) {pa img : ℕ} (h : writeRcb s pa img = .ok u) :
    Memory.wf u.mem.bytes = true := by
  unfold writeRcb at h
  extract_lets b fresh ok v w x at h
  have hv : Memory.wf v.mem.bytes = true := canonical_pwrite hs ..
  split at h
  · cases h
  split at h
  · exact Except.ok.inj h ▸ hv
  · have hx : Memory.wf x.mem.bytes = true := by
      unfold x
      split
      · exact (congrArg Memory.wf (bytes_clearStore ..)).trans (canonical_pwrite hv ..)
      · exact canonical_pwrite hv ..
    exact Except.ok.inj h ▸ hx

@[simp] theorem keeps_execRcbWrite {s : State} (h : Memory.wf s.mem.bytes = true) : Keeps (execRcbWrite s) :=
  keeps_command h 4 _ fun _ ht => canonical_writeRcb h ht

@[simp] theorem canonical_writeMember {s : State} (h : Memory.wf s.mem.bytes = true) (c : List Byte) :
    Memory.wf (writeMember s c).mem.bytes = true := by
  unfold writeMember; simp [h]

@[simp] theorem keeps_execMembershipTableEntry {s : State} (h : Memory.wf s.mem.bytes = true) : Keeps (execMembershipTableEntry s) :=
  keeps_command h 5 _ fun _ ht => Except.ok.inj ht ▸ canonical_writeMember h _

@[simp] theorem bytes_writeGroup (s : State) (c : List Byte) : (writeGroup s c).mem.bytes = s.mem.bytes := rfl
@[simp] theorem keeps_execGroupTableEntry {s : State} (h : Memory.wf s.mem.bytes = true) : Keeps (execGroupTableEntry s) :=
  keeps_command h 6 _ fun _ ht => Except.ok.inj ht ▸ (congrArg Memory.wf (bytes_writeGroup ..)).trans h

@[simp] theorem keeps_execFaultFrameAnswer {s : State} (h : Memory.wf s.mem.bytes = true) : Keeps (execFaultFrameAnswer s) :=
  keeps_command h 7 _ fun t ht => by
    extract_lets dom seq at ht
    split at ht
    · split at ht
      · exact Except.ok.inj ht ▸ canonical_answerFrame h ..
      · cases ht
    · cases ht

@[simp] theorem keeps_execPreemptionRequest {s : State} (h : Memory.wf s.mem.bytes = true) : Keeps (execPreemptionRequest s) :=
  keeps_command h 8 _ fun t ht => by
    split at ht
    · exact Except.ok.inj ht ▸ canonical_preempt h ..
    · cases ht

@[simp] theorem keeps_execRegionKill {s : State} (h : Memory.wf s.mem.bytes = true) : Keeps (execRegionKill s) :=
  keeps_command h 9 _ fun _ ht => Except.ok.inj ht ▸ canonical_settleFrames (canonical_killRegion h _)

@[simp] theorem keeps_execAttestationQuote {s : State} (h : Memory.wf s.mem.bytes = true) : Keeps (execAttestationQuote s) :=
  keeps_command h 10 _ fun t ht => by
    extract_lets pa u at ht
    split at ht
    · rw [← Except.ok.inj ht]
      exact canonical_pwrite h ..
    · cases ht

@[simp] theorem keeps_execAcceptWork {s : State} (h : Memory.wf s.mem.bytes = true) : Keeps (execAcceptWork s) :=
  keeps_command h 11 _ fun t ht => by
    split at ht
    · cases ht
    · rw [← Except.ok.inj ht]
      exact canonical_logEvent (by exact h) ..

@[simp] theorem keeps_execDemotionPool {s : State} (h : Memory.wf s.mem.bytes = true) : Keeps (execDemotionPool s) :=
  keeps_command h 12 _ fun t ht => by
    dsimp only at ht
    split at ht
    · cases ht
    split at ht
    · cases ht
    · rw [← Except.ok.inj ht]
      exact h

@[simp] theorem keeps_execPinQuota {s : State} (h : Memory.wf s.mem.bytes = true) : Keeps (execPinQuota s) :=
  keeps_command h 13 _ fun t ht => by
    dsimp only at ht
    split at ht
    · cases ht
    · rw [← Except.ok.inj ht]
      exact h

@[simp] theorem keeps_execAuditSetting {s : State} (h : Memory.wf s.mem.bytes = true) : Keeps (execAuditSetting s) :=
  keeps_command h 14 _ fun t ht => by
    dsimp only at ht
    split at ht
    · cases ht
    · rw [← Except.ok.inj ht]
      exact h

@[simp] theorem bytes_copyMarks (s : State) (src : ℕ) (dst : ℕ) (n : ℕ) :
    (copyMarks s src dst n).mem.bytes = s.mem.bytes := by
  unfold copyMarks; simp

@[simp] theorem keeps_execPhysicalCopy {s : State} (h : Memory.wf s.mem.bytes = true) : Keeps (execPhysicalCopy s) :=
  keeps_command h 15 _ fun t ht => by
    dsimp only at ht
    split at ht
    · cases ht
    · rw [← Except.ok.inj ht]
      exact (congrArg Memory.wf (bytes_copyMarks ..)).trans (canonical_pwrite h ..)

@[simp] theorem keeps_execUnknownCommand {s : State} (h : Memory.wf s.mem.bytes = true) :
    Keeps (execUnknownCommand s) := by
  unfold execUnknownCommand; dsimp only; (repeat' split) <;> simp [h]

/-! ### Machine/Platform.lean -/

@[simp] theorem keeps_execReset {s : State} (h : Memory.wf s.mem.bytes = true) : Keeps (execReset s) := by unfold execReset; simp [h]
@[simp] theorem canonical_bootTo {s : State} (h : Memory.wf s.mem.bytes = true) (n : ℕ) :
    Memory.wf (bootTo s n).mem.bytes = true := by
  unfold bootTo; simp [h]

@[simp] theorem bytes_bootFail (s : State) (n : ℕ) : (bootFail s n).mem.bytes = s.mem.bytes := rfl
@[simp] theorem bytes_loadRows (s : State) (m : BootImage) (t : RemapTable) :
    (loadRows s m t).mem.bytes = s.mem.bytes := by
  unfold loadRows; split <;> simp

@[simp] theorem bytes_loadImage (s : State) (m : BootImage) : (loadImage s m).mem.bytes = s.mem.bytes := by unfold loadImage; simp
@[simp] theorem bytes_takeFirmware (s : State) (m : BootImage) : (takeFirmware s m).mem.bytes = s.mem.bytes := rfl
@[simp] theorem keeps_execBootStep {s : State} (h : Memory.wf s.mem.bytes = true) (img : BootImage) :
    Keeps (execBootStep img s) := by
  unfold execBootStep; (repeat' split) <;> simp [h]

@[simp] theorem keeps_execThrottleProposal {s : State} (h : Memory.wf s.mem.bytes = true) (group : ℕ) (member : ℕ) (window : ℕ) (mhz :
    ℕ) :
    Keeps (execThrottleProposal group member window mhz s) := by
  unfold execThrottleProposal; split <;> simp [h]

@[simp] theorem canonical_setStep {s : State} (h : Memory.wf s.mem.bytes = true) (die : ℕ) (step : ℕ) :
    Memory.wf (setStep s die step).mem.bytes = true := by
  unfold setStep; simp [h]

@[simp] theorem keeps_execEnergyWindow {s : State} (h : Memory.wf s.mem.bytes = true) (meas : EnergyMeas) :
    Keeps (execEnergyWindow meas s) := by
  unfold execEnergyWindow; dsimp only; (repeat' split) <;> simp +contextual [h]

@[simp] theorem keeps_execInletOvertemp {s : State} (h : Memory.wf s.mem.bytes = true) (inlet : ℕ) (junction : ℕ) :
    Keeps (execInletOvertemp inlet junction s) := by
  unfold execInletOvertemp; split <;> simp [h]

/-! ### Machine/System.lean -/

@[simp] theorem bytes_updTarget (s : State) (f : Frame) (g : Warp → Warp) :
    (updTarget s f g).mem.bytes = s.mem.bytes := by
  unfold updTarget; simp

@[simp] theorem keeps_execHandlerStart {s : State} (h : Memory.wf s.mem.bytes = true) (core : ℕ) :
    Keeps (execHandlerStart core s) := by
  unfold execHandlerStart; (repeat' split) <;> simp [h]

@[simp] theorem bytes_endHandler (s : State) (core : ℕ) : (endHandler s core).mem.bytes = s.mem.bytes := rfl
theorem keeps_privileged {s : State} (h : Memory.wf s.mem.bytes = true) {act : ℕ → Frame → State}
    (ha : ∀ i f, Memory.wf (act i f).mem.bytes = true) : Keeps (privileged s act) := by
  unfold privileged
  split
  · exact keeps_next.2 (ha _ _)
  · simp [h]

@[simp] theorem keeps_execTrap {s : State} (h : Memory.wf s.mem.bytes = true) (imm : Fin 1024) :
    Keeps (execTrap imm s) := by
  unfold execTrap; simp [h]

@[simp] theorem keeps_execBrkpt {s : State} (h : Memory.wf s.mem.bytes = true) (imm : Fin 1024) :
    Keeps (execBrkpt imm s) := by
  unfold execBrkpt; split <;> simp [h]

@[simp] theorem bytes_put (s : State) (d : SReg) (x : Word) : (State.put s d x).mem.bytes = s.mem.bytes := by unfold State.put; simp
@[simp] theorem keeps_execRdsr {s : State} (h : Memory.wf s.mem.bytes = true) (d : SReg) (sel : Fin 256) : Keeps (execRdsr d sel s) := by
  have hp (x : Word) : Memory.wf (s.put d x).mem.bytes = true := (congrArg Memory.wf (bytes_put ..)).trans h
  unfold execRdsr
  split
  · exact keeps_next.2 (hp _)
  · exact keeps_next.2 (hp _)
  · exact keeps_privileged h fun _ _ => hp _
  · exact keeps_privileged h fun _ _ => hp _
  · exact keeps_privileged h fun _ _ => hp _
  · simp [h]

@[simp] theorem keeps_execWrsr {s : State} (h : Memory.wf s.mem.bytes = true) (d : SReg) (sel : Fin 256) : Keeps (execWrsr d sel s) := by
  unfold execWrsr
  extract_lets x
  split
  · simp [h]
  · exact keeps_privileged h fun _ _ => by simp [h]
  · simp [h]

@[simp] theorem keeps_execFret {s : State} (h : Memory.wf s.mem.bytes = true) (mode : Fin 2) : Keeps (execFret mode s) :=
  keeps_privileged h fun _ _ => canonical_answerFrame ((congrArg Memory.wf (bytes_endHandler ..)).trans h) ..

@[simp] theorem keeps_execFkill {s : State} (h : Memory.wf s.mem.bytes = true) (unit : Fin 3) : Keeps (execFkill unit s) :=
  keeps_privileged h fun _ _ => canonical_answerFrame ((congrArg Memory.wf (bytes_endHandler ..)).trans h) ..

@[simp] theorem keeps_execFrd {s : State} (h : Memory.wf s.mem.bytes = true) (d : SReg) (item : Fin 8) (lane : Fin 32) (idx : Fin 1024) :
    Keeps (execFrd d item lane idx s) :=
  keeps_privileged h fun _ _ => by simp [h]

@[simp] theorem keeps_execPclr {s : State} (h : Memory.wf s.mem.bytes = true) (m : SReg) (r : Fin 128) : Keeps (execPclr m r s) :=
  keeps_privileged h fun _ _ => by
    rw [bytes_advance, bytes_updHere]
    split
    · exact (congrArg Memory.wf (bytes_updTarget ..)).trans h
    · exact h

@[simp] theorem canonical_blockFrame {s : State} (h : Memory.wf s.mem.bytes = true) (b : ℕ) (f : FaultInfo) (answered : Bool) :
    Memory.wf (blockFrame s b f answered).mem.bytes = true := by
  unfold blockFrame; simp [h]

theorem canonical_refetchImage {s u : State} (hs : Memory.wf s.mem.bytes = true) {core b : ℕ} {i : Image} {ws : List Word}
    (h : refetchImage s core b i ws = some u) : Memory.wf u.mem.bytes = true := by
  unfold refetchImage at h
  extract_lets o va pa at h
  split at h
  · next hw => cases h; exact canonical_mopWait hs hw
  · split at h
    · cases h
    · cases h; exact canonical_hostError (canonical_performWbld hs ..) ..

@[simp] theorem canonical_blockFault {s : State} (h : Memory.wf s.mem.bytes = true) (core : ℕ) (b : ℕ) (memory : Bool) (unit : ℕ) (tile
    : ℕ) (addr : ℕ) :
    Memory.wf (blockFault s core b memory unit tile addr).mem.bytes = true := by
  unfold blockFault; (repeat' split) <;> simp [h]

@[simp] theorem keeps_execImpreciseFault {s : State} (h : Memory.wf s.mem.bytes = true) (core : ℕ) (bslot : ℕ) (memory : Bool) (unit : ℕ) (tile : ℕ)
    (addr : ℕ) : Keeps (execImpreciseFault core bslot memory unit tile addr s) := by
  unfold execImpreciseFault
  split
  · simp [h]
  split
  · simp [h]
  split
  · refine keeps_next.2 ?_
    cases hr : refetchImage s core _ _ _ with
    | none => exact canonical_blockFault h ..
    | some u => exact canonical_refetchImage h hr
  · simp [h]

@[simp] theorem keeps_execRingFull {s : State} (h : Memory.wf s.mem.bytes = true) (core : ℕ) :
    Keeps (execRingFull core s) := by
  unfold execRingFull; split <;> simp [h]

/-! ### Machine/WorkWords.lean -/

@[simp] theorem bytes_progress (s : State) : (State.progress s).mem.bytes = s.mem.bytes := by unfold State.progress; simp
@[simp] theorem keeps_execHbeat {s : State} (h : Memory.wf s.mem.bytes = true) : Keeps (execHbeat s) := by unfold execHbeat; simp [h]
@[simp] theorem keeps_execWcond {s : State} (h : Memory.wf s.mem.bytes = true) (d : SReg) (idx : Fin 16) :
    Keeps (execWcond d idx s) := by
  unfold execWcond; (repeat' split) <;> simp [h]

@[simp] theorem keeps_execWfetch {s : State} (h : Memory.wf s.mem.bytes = true) (sg : SReg) (st : SReg) :
    Keeps (execWfetch sg st s) := by
  unfold execWfetch; dsimp only; (repeat' split) <;> simp [h]

@[simp] theorem bytes_fillMailbox (s : State) (f : Fetch) (no : ℕ) (res : ℕ) :
    (fillMailbox s f no res).mem.bytes = s.mem.bytes := by
  unfold fillMailbox; simp

@[simp] theorem canonical_serveFetch {s : State} (h : Memory.wf s.mem.bytes = true) (idx : ℕ) (f : Fetch) :
    Memory.wf (serveFetch idx f s).mem.bytes = true := by
  unfold serveFetch; dsimp only; (repeat' split) <;> simp [h]

@[simp] theorem keeps_execWfetchFill {s : State} (h : Memory.wf s.mem.bytes = true) (idx : ℕ) : Keeps (execWfetchFill idx s) := by
  unfold execWfetchFill
  split
  · simp [h]
  split
  · exact keeps_next.2 (canonical_deviceError h)
  · exact keeps_next.2 (canonical_devTurn h _ fun t ht => canonical_serveFetch ht ..)

@[simp] theorem canonical_reportDone {s : State} (h : Memory.wf s.mem.bytes = true) (task : ℕ) (no : ℕ) (d : ℕ) :
    Memory.wf (reportDone s task no d).mem.bytes = true := by
  unfold reportDone; simp [h]

@[simp] theorem keeps_execWdone {s : State} (h : Memory.wf s.mem.bytes = true) (sg : SReg) (st : SReg) :
    Keeps (execWdone sg st s) := by
  unfold execWdone; dsimp only; (repeat' split) <;> simp [h]

@[simp] theorem keeps_execWlaunch {s : State} (h : Memory.wf s.mem.bytes = true) (sg : SReg) (st : SReg) :
    Keeps (execWlaunch sg st s) := by
  unfold execWlaunch; dsimp only; (repeat' split) <;> simp [h]

@[simp] theorem bytes_grantClaim (s : State) (b : ℕ) (core : ℕ) (wslot : ℕ) (split : ℕ) (n : ℕ) (d : ℕ) :
    (grantClaim s b core wslot split n d).mem.bytes = s.mem.bytes := by
  unfold grantClaim; simp

@[simp] theorem canonical_serveClaims {s : State} (h : Memory.wf s.mem.bytes = true) (b : ℕ) :
    Memory.wf (serveClaims s b).mem.bytes = true := by
  unfold serveClaims; dsimp only; (repeat' split) <;> simp [h]

@[simp] theorem keeps_execRgclaim {s : State} (h : Memory.wf s.mem.bytes = true) (d : SReg) (n : Fin 16) :
    Keeps (execRgclaim d n s) := by
  unfold execRgclaim; dsimp only; (repeat' split) <;> simp [h]

@[simp] theorem keeps_execClaimGrant {s : State} (h : Memory.wf s.mem.bytes = true) (block : ℕ) :
    Keeps (execClaimGrant block s) := by
  unfold execClaimGrant; split <;> simp [h]

@[simp] theorem bytes_endRelease (s : State) (core : ℕ) (wslot : ℕ) (split : ℕ) (n : ℕ) (d : ℕ) :
    (endRelease s core wslot split n d).mem.bytes = s.mem.bytes := by
  unfold endRelease; simp

@[simp] theorem keeps_execRgrel {s : State} (h : Memory.wf s.mem.bytes = true) (d : SReg) (n : Fin 16) :
    Keeps (execRgrel d n s) := by
  unfold execRgrel; split <;> simp [h]

@[simp] theorem canonical_serveYield {s : State} (h : Memory.wf s.mem.bytes = true) (b : ℕ) :
    Memory.wf (serveYield s b).mem.bytes = true := by
  unfold serveYield; (repeat' split) <;> simp [h]

@[simp] theorem keeps_execWyield {s : State} (h : Memory.wf s.mem.bytes = true) (d : SReg) :
    Keeps (execWyield d s) := by
  unfold execWyield; split <;> simp [h]

@[simp] theorem keeps_execWyieldRelease {s : State} (h : Memory.wf s.mem.bytes = true) (block : ℕ) :
    Keeps (execWyieldRelease block s) := by
  unfold execWyieldRelease; simp [h]

@[simp] theorem keeps_execBlockedWordResume {s : State} (h : Memory.wf s.mem.bytes = true) (core : ℕ) (wslot : ℕ) (split : ℕ) :
    Keeps (execBlockedWordResume core wslot split s) := by
  unfold execBlockedWordResume; dsimp only; (repeat' split) <;> simp [h]

@[simp] theorem keeps_execAuditReplay {s : State} (h : Memory.wf s.mem.bytes = true) (idx core : ℕ) :
    Keeps (execAuditReplay idx core s) :=
  by
  unfold execAuditReplay
  split
  · simp [h]
  next a _ =>
  split
  · simp [h]
  extract_lets x place dx dy cl n inside cells
  split
  · simp [h]
  split
  · exact keeps_next.2 (canonical_deviceError h)
  split
  next gk v hv =>
  have h1 : Memory.wf v.mem.bytes = true := by
    have : v = s.fresh.2 := (congrArg Prod.snd hv).symm
    rw [this]; exact h
  split
  next w ids hw =>
  have h2 : Memory.wf w.mem.bytes = true := by
    rw [show w = _ from (congrArg Prod.fst hw).symm]
    refine canonical_foldl_fst (β := List Nat) ?_ cells (p := (v, [])) h1
    exact fun a p ha => (congrArg Memory.wf (bytes_setBlk ..)).trans (by exact ha)
  extract_lets b g a' w1 k1 w2 w3 w4
  have hw2 : w2.mem.bytes = w.mem.bytes := bytes_setGroup w gk g
  have hw3 : w3.mem.bytes = w.mem.bytes := (bytes_ite_of (bytes_dropL1 ..) rfl).trans hw2
  have hw4 : w4.mem.bytes = w.mem.bytes := (bytes_ite_of (bytes_clearMatrix ..) rfl).trans hw3
  exact keeps_next.2 ((congrArg Memory.wf (bytes_startBlocks ..)).trans
    (canonical_useRegion ((congrArg Memory.wf hw4).trans h2) ..))

@[simp] theorem keeps_execAuditReplayEnd {s : State} (h : Memory.wf s.mem.bytes = true) (idx : ℕ) :
    Keeps (execAuditReplayEnd idx s) := by
  unfold execAuditReplayEnd; dsimp only; (repeat' split) <;> simp [h]

/-! ### Machine/Dispatch.lean -/

@[simp] theorem keeps_exec {s : State} (h : Memory.wf s.mem.bytes = true) (i : Instr) :
    Keeps (exec i s) := by
  unfold exec; split <;> simp [h]

/-! ### Machine/Turns.lean -/

@[simp] theorem canonical_hostStore {s : State} (h : Memory.wf s.mem.bytes = true) (pa : ℕ) (bs : List Byte) :
    Memory.wf (hostStore s pa bs).mem.bytes = true := by
  unfold hostStore; simp [h]

@[simp] theorem bytes_bar0Read (s : State) (off : ℕ) : (bar0Read s off).mem.bytes = s.mem.bytes := rfl
@[simp] theorem bytes_takeUpset (s : State) (pa : ℕ) (hard : Bool) :
    (takeUpset s pa hard).mem.bytes = s.mem.bytes := by
  unfold takeUpset; simp

@[simp] theorem canonical_homeUpset {s : State} (h : Memory.wf s.mem.bytes = true) (ctx : ℕ) (va : ℕ) :
    Memory.wf (homeUpset s ctx va).mem.bytes = true := by
  unfold homeUpset; (repeat' split) <;> simp [h]

@[simp] theorem canonical_cacheUpset {s : State} (h : Memory.wf s.mem.bytes = true) (core : ℕ) (ctx : ℕ) (va : ℕ) :
    Memory.wf (cacheUpset s core ctx va).mem.bytes = true := by
  unfold cacheUpset; simp [h]

@[simp] theorem canonical_heldUpset {s : State} (h : Memory.wf s.mem.bytes = true) (core : ℕ) (line : ℕ) (e : ℕ) :
    Memory.wf (heldUpset s core line e).mem.bytes = true := by
  unfold heldUpset; split <;> simp [h]

@[simp] theorem canonical_remapUpset {s : State} (h : Memory.wf s.mem.bytes = true) (port : ℕ) (pc : ℕ) (copies : ℕ) :
    Memory.wf (remapUpset s port pc copies).mem.bytes = true := by
  unfold remapUpset; (repeat' split) <;> simp [h]

@[simp] theorem bytes_loadKernel (s : State) (k : LoadedKernel) (lo : ℕ) (hi : ℕ) :
    (loadKernel s k lo hi).mem.bytes = s.mem.bytes := by
  unfold loadKernel; simp

@[simp] theorem bytes_unloadKernel (s : State) (ctx : ℕ) (entry : ℕ) : (unloadKernel s ctx entry).mem.bytes = s.mem.bytes := rfl

/-! ### Machine/Step.lean -/

@[simp] theorem keeps_issueWord {s : State} (h : Memory.wf s.mem.bytes = true) :
    Keeps (issueWord s) := by
  unfold issueWord; (repeat' split) <;> simp [h]

@[simp] theorem keeps_issueSlot {s : State} (h : Memory.wf s.mem.bytes = true) :
    Keeps (issueSlot s) := by
  unfold issueSlot; (repeat' split) <;> simp_all

@[simp] theorem keeps_runTurn {s : State} (h : Memory.wf s.mem.bytes = true) (t : Turn) :
    Keeps (runTurn t s) := by
  unfold runTurn; (repeat' split) <;> simp [h]

@[simp] theorem keeps_step {s : State} (h : Memory.wf s.mem.bytes = true) : Keeps (step s) := by unfold step; (repeat' split) <;> simp [h]

/-- Settles O60: each operation of the model changes the bytes of memory by `pwrite` alone, which keeps the canonical form. -/
theorem everyStepKeepsMemoryCanonical : Obligations.EveryStepKeepsMemoryCanonical :=
  fun _ t h ht => keeps_step h t ht

end Sys2Proof.Machine
